-- ==== Sys2Proof/Word.lean ====
section
/-! DEFINITION. The byte and word types of the VG4096 manual and their plainest arithmetic: octet strings, little-endian
and big-endian readings (R8, R9). -/

namespace Sys2Proof

/-- One byte. Byte offsets start at 0 (R8). -/
abbrev Byte := BitVec 8

/-- An octet string, lowest address first. -/
abbrev Bytes := List Byte

/-- A sparse table: pairs of a key and its content, keys strictly rising, no pair whose content is what an unlisted
key reads as. -/
abbrev Map (β : Type) := List (Nat × β)

namespace Bytes

/-- Little-endian reading of an octet string (R9). -/
def toNatLE : Bytes → Nat
  | [] => 0
  | b :: bs => b.toNat + 256 * toNatLE bs

/-- Big-endian reading of an octet string (structures of outside standards, R9). -/
def toNatBE (bs : Bytes) : Nat := bs.foldl (fun acc b => acc * 256 + b.toNat) 0

/-- `n` bytes of `v`, little-endian. -/
def ofNatLE : Nat → Nat → Bytes
  | 0, _ => []
  | n + 1, v => BitVec.ofNat 8 v :: ofNatLE n (v / 256)

/-- `n` bytes of `v`, big-endian. -/
def ofNatBE (n v : Nat) : Bytes := (ofNatLE n v).reverse

/-- `n` zero bytes. -/
def zeros (n : Nat) : Bytes := List.replicate n 0

/-- The string cut or zero-extended to exactly `n` bytes. -/
def fit (n : Nat) (bs : Bytes) : Bytes := bs.take n ++ zeros (n - bs.length)

/-- Byte at an offset; bytes past the end read as zero. -/
def at' (bs : Bytes) (off : Nat) : Byte := bs.getD off 0

/-- The `n` bytes at an offset; bytes past the end read as zero. -/
def slice (bs : Bytes) (off n : Nat) : Bytes := fit n (bs.drop off)

/-- A little-endian field of `n` bytes at an offset. -/
def fieldLE (bs : Bytes) (off n : Nat) : Nat := toNatLE (slice bs off n)

/-- Every byte is zero. -/
def allZero (bs : Bytes) : Bool := bs.all (· == 0)

/-- Bytewise exclusive-or, as long as the shorter string. -/
def xor (a b : Bytes) : Bytes := List.zipWith (· ^^^ ·) a b

/-- `new` written over `old` at an offset; the length of `old` is kept. -/
def overlay (old : Bytes) (off : Nat) (new : Bytes) : Bytes :=
  old.take off ++ new.take (old.length - off) ++ old.drop (off + new.length)

/-- The nibbles of a string, [7:4] of each byte first (R163). -/
def nibbles : Bytes → List Nat
  | [] => []
  | b :: bs => b.toNat / 16 :: b.toNat % 16 :: nibbles bs

/-- Bytes from nibbles, the first nibble in [7:4]; an odd last nibble is followed by 0. -/
def ofNibbles : List Nat → Bytes
  | [] => []
  | [h] => [BitVec.ofNat 8 (h * 16)]
  | h :: l :: rest => BitVec.ofNat 8 (h * 16 + l) :: ofNibbles rest

/-- ASCII text as bytes. -/
def ofText (s : String) : Bytes := s.toList.map (fun c => BitVec.ofNat 8 c.toNat)

end Bytes

/-- Upward integer division. -/
def ceilDiv (a b : Nat) : Nat := (a + b - 1) / b

/-- Bit `n` of a number. -/
def bitOf (v n : Nat) : Bool := (v >>> n) % 2 == 1

/-- The field of `w` bits of `v` from bit `lo` (R8). -/
def bits (v lo w : Nat) : Nat := (v >>> lo) % 2 ^ w

/-- A Boolean as one bit. -/
def bit (b : Bool) : Nat := if b then 1 else 0

/-- `v` with bit `n` set or cleared. -/
def putBit (v n : Nat) (b : Bool) : Nat := v - bit (bitOf v n) * 2 ^ n + bit b * 2 ^ n

/-- Numbers `0` to `n - 1`. -/
def upTo (n : Nat) : List Nat := List.range n

end Sys2Proof
end

