-- ==== Sys2Proof/Syntax.lean ====
section
/-! DEFINITION. The commands of the block: one constructor of `Instr` per row of the opcode table, with the operands that
the outside gives it. `t` is always the device time, in ns, at which the event falls (R6, R45). -/

namespace Sys2Proof

/-- Instance number, 0 to 4,095 (R301). -/
abbrev InstNo := BitVec 12
/-- Device-wide LD number, 0 to 63 (R297). -/
abbrev LdNo := BitVec 6
/-- Bay number (R14). -/
abbrev BayNo := Fin 28
/-- Head number (R297). -/
abbrev HeadNo := Fin 4
/-- Noise channel number (R239). -/
abbrev ChanNo := Fin 8

/-- The operation a command acts on: a count of an instance's ring (R101) or a slot of its inline window (R68). -/
inductive OpRef where
  | ring (i : InstNo) (c : BitVec 16)
  | inline (i : InstNo) (slot : BitVec 10)
  deriving DecidableEq, Repr

/-- The path a Kallek request takes, which fixes its role (R328): the mailbox of an LD naming an instance, an open secured
session by its number, the return path of R402, the recovery staging of R414, or a message sent with no session. -/
inductive Path where
  | tenant (ld : LdNo) (i : InstNo)
  | session (n : BitVec 3)
  | returnPath
  | recovery
  | bare
  deriving DecidableEq, Repr

/-- The header of a Kallek request (R332): version, whether `length` agrees with the message, request id, joint id. -/
structure KHdr where
  path : Path
  version : Byte := 1
  lengthOk : Bool := true
  reqId : BitVec 32 := 0
  jointId : BitVec 16 := 0xFFFF
  deriving DecidableEq, Repr

/-- One staged record of a JOINT_STAGE body (R334): header fields kind, sub, index, and the content. -/
structure JRec where
  kind : Byte
  sub : Byte
  index : BitVec 16
  data : Bytes
  deriving DecidableEq, Repr

/-- How a dropped write to the inline window offends (R74). -/
inductive InlineDrop where
  | partialWrite | poisoned | resultLine
  deriving DecidableEq, Repr

/-- The engine of a reactive test, and whether a fault indication calls for it (R61). -/
structure TestCall where
  engine : BitVec 4
  fault : Bool
  deriving DecidableEq, Repr

/-- What a host DMA read returned (R127). -/
inductive DmaData where
  | ok (data : Bytes) | error | poisoned
  deriving DecidableEq, Repr

/-- The answer of a seated Envelope to the challenge of R389, and what its chip and connector show. -/
structure EnvAnswer where
  /-- ENV_PRESENT_N is closed. -/
  present : Bool
  /-- How long the contact has been closed, ms (R391 step 1). -/
  closedMs : Nat
  serial : Bytes
  /-- x and y of the chip's public key. -/
  pubKey : Bytes
  /-- The chip's certificate verifies to the ROM key. -/
  certOk : Bool
  /-- The one-time binding field; empty when it has never been written. -/
  binding : Bytes
  /-- Temperature in tenths of a kelvin. -/
  tempDeciK : Nat
  sig : Bytes
  answerMs : Nat
  /-- ENV_VBAT in mV. -/
  cellMv : Nat
  deriving DecidableEq, Repr

/-- One mesh net as a check reads it (R380): resistance in milliohms, capacitance in fF, pattern received unchanged. -/
structure NetReading where
  res : Nat
  cap : Nat
  patternOk : Bool
  deriving DecidableEq, Repr

/-- What the world shows at the end of a start-up step (R361). -/
structure StepEnv where
  /-- Duration of the step, microseconds. -/
  us : Nat
  /-- Step 1: the ROM's checks of itself and the loader SRAM pass. -/
  romOk : Bool := true
  /-- Step 3: fuses of a resumed transition that do not read burnt after three attempts, as word and bit (R398). -/
  unburnt : List (Nat × Nat) := []
  /-- Step 4: the seated Envelope. -/
  env : EnvAnswer
  /-- Step 4: the means of 16 mesh checks (R391 step 6). -/
  nets : List NetReading := []
  /-- Step 6: the flash has 4 KiB erase and Octal DDR (R464). -/
  flashOk : Bool := true
  /-- Step 6: the density that the flash gives in its SFDP, Mbit. -/
  flashMbit : Nat := 4096
  /-- Step 6: parts whose image or manifest the flash no longer holds as it was written, bit p. -/
  badParts : BitVec 16 := 0
  /-- Step 6: the source of a resumed write answers within 1 s (R414). -/
  sourceOk : Bool := true
  /-- Step 6: the block of a resumed write that the source keeps giving with another content (R412, R414). -/
  lostBlock : Option Nat := none
  /-- Step 6: the manifest of the complete release that the source named by recovery staging holds (R414). -/
  release : Bytes := []
  /-- Step 7: islands that do not come up, bit k of R347. -/
  deadIslands : BitVec 33 := 0
  /-- Step 8: engines failing their test, as bay and engine. -/
  katFail : List (Nat × Nat) := []
  /-- Step 8: the conditioner's test passes (R257). -/
  condKatOk : Bool := true
  /-- Step 8: bays whose DRBG test fails (R258). -/
  drbgKatFail : BitVec 28 := 0
  /-- Step 10: the two halves of the journal area and of the key-log area, as the flash gives them, segment by segment, where it does not
  hold what the device wrote. -/
  journalFlash : Option (List Bytes × List Bytes) := none
  keyLogFlash : Option (List Bytes × List Bytes) := none
  /-- Step 10: the segment being programmed when main power went stands whole in flash; otherwise it is torn (R154, R363). -/
  journalWhole : Bool := false
  keyLogWhole : Bool := false
  /-- Step 10: handles of BACKED entries whose stored bits have changed. -/
  vaultFaults : List Nat := []
  /-- Step 10: highest valid epoch found in the configuration log where the flash was rolled back or replaced; `none` where it holds
  what the device wrote. -/
  cfgLogSeen : Option Nat := none
  deriving DecidableEq, Repr

/-- A monitor condition as its detector measures it (R367). Each carries what the limits in force are compared with. -/
inductive MonSense where
  /-- dip depth mV and duration ps, on VDD_CORE (false) or VDD_SRAM (true) -/
  | glitch (sram : Bool) (mv ps : Nat)
  /-- supply 1 core, 3 SRAM, 4 I/O or PHY; permille below and above nominal; time outside in us -/
  | slow (m : Fin 14) (below above us : Nat)
  /-- island number of R347; short cycle by permille -/
  | clockShort (island permille : Nat)
  /-- mean frequency deviation in permille over the window in force -/
  | clockFreq (island permille : Nat)
  /-- no edge for 8 nominal periods -/
  | clockStop (island : Nat)
  /-- a sensor's temperature in kelvin and the time outside, us -/
  | temp (kelvin us : Nat)
  /-- ENV_PRESENT_N open for so many us; 0: it has closed -/
  | envOpen (us : Nat)
  /-- ENV_VBAT in mV, for so many ns -/
  | cell (mv ns : Nat)
  /-- a sample of TAMPER_IN[3:0] -/
  | tamperSample (levels : BitVec 4)
  /-- a fabric mismatch: source and sink island, memory by its row of R30, whether the word was bound for a host, the operation that read
  it, and the address of the word with the bits by which its stored code differs (R29) -/
  | fabric (src sink mem : Nat) (hostWord : Bool) (op : Option OpRef) (word : BitVec 40) (differs : BitVec 8)
  deriving DecidableEq, Repr

/-- The SPDM requester key shown at KEY_EXCHANGE (R458). -/
inductive ReqKey where
  | none
  | raw (xy : Bytes)
  | maker
  deriving DecidableEq, Repr

/-- The transport of an SPDM exchange: the DOE mailbox of an LD, of the FM-owned LD of a head, or MCTP over I3C. -/
inductive Transport where
  | doe (ld : LdNo)
  | fmDoe (h : HeadNo)
  | mctp
  deriving DecidableEq, Repr

/-- The commands, one per row of the opcode table, in the table's order. -/
inductive Instr where
  | pwrGoodAssert (t : Nat)
  | startupStepDone (t : Nat) (env : StepEnv)
  | enrolRetry (t : Nat) (env : EnvAnswer) (nets : List NetReading)
  | pwrGoodDeassert (t lowNs : Nat)
  | backupSwitchover (t belowNs : Nat)
  | resetNAssert (t widthNs : Nat)
  | thermtrip (t : Nat)
  | inlineRequestWrite (arr t : Nat) (ld : LdNo) (i : InstNo) (slot : BitVec 10) (line : Bytes)
  | inlineResultRead (t : Nat) (ld : LdNo) (i : InstNo) (slot : BitVec 10) (tag : BitVec 16)
  | inlineDroppedWrite (t : Nat) (ld : LdNo) (i : InstNo) (slot : BitVec 10) (kind : InlineDrop) (off : BitVec 7)
  | inlineIdleHoldExpiry (t : Nat) (i : InstNo) (slot : BitVec 10)
  | inlineLookup (t : Nat) (i : InstNo) (slot : BitVec 10)
  | inlineResultWrite (t : Nat) (i : InstNo) (slot : BitVec 10)
  | doorbell (arr t : Nat) (ld : LdNo) (i : InstNo) (tail : BitVec 16) (full poison : Bool)
  | ringEntryWrite (t : Nat) (ld : LdNo) (i : InstNo) (entry : BitVec 11) (data : Bytes) (full poison : Bool)
  | stagingPageWrite (t : Nat) (ld : LdNo) (i : InstNo) (off : BitVec 17) (data : Bytes) (enables : BitVec 64)
      (poison : Bool)
  | unbackedAccess (t : Nat) (ld : LdNo) (i : InstNo) (off : BitVec 19) (isRead poison : Bool) (tag : BitVec 16)
  | memSpecRd (t : Nat) (ld : LdNo) (dpa : BitVec 27)
  | memInv (t : Nat) (ld : LdNo) (dpa : BitVec 27) (tag : BitVec 16)
  | admissionRoundEnd (t : Nat)
  | frameEnd (t : Nat)
  | nop (t : Nat) (op : OpRef)
  | routeLookup (t : Nat) (op : OpRef)
  | pinXlate (t : Nat) (op : OpRef)
  | pinVerify (t : Nat) (op : OpRef)
  | dvvGen (t : Nat) (op : OpRef)
  | dvvVerify (t : Nat) (op : OpRef)
  | macRetailGen (t : Nat) (op : OpRef)
  | macRetailVerify (t : Nat) (op : OpRef)
  | cmacGen (t : Nat) (op : OpRef)
  | cmacVerify (t : Nat) (op : OpRef)
  | macGen (t : Nat) (op : OpRef)
  | macVerify (t : Nat) (op : OpRef)
  | cipherEcb (t : Nat) (op : OpRef)
  | cipherCbc (t : Nat) (op : OpRef)
  | cipherCfb8 (t : Nat) (op : OpRef)
  | cipherCfb128 (t : Nat) (op : OpRef)
  | cipherOfb (t : Nat) (op : OpRef)
  | cipherCtr (t : Nat) (op : OpRef)
  | cipherGcm (t : Nat) (op : OpRef)
  | random (t : Nat) (op : OpRef)
  | dukptDecrypt (t : Nat) (op : OpRef)
  | emvArqc (t : Nat) (op : OpRef)
  | ecdsaSign (t : Nat) (op : OpRef)
  | ecdsaVerify (t : Nat) (op : OpRef)
  | ed25519Sign (t : Nat) (op : OpRef)
  | ed25519Verify (t : Nat) (op : OpRef)
  | ecdhP256 (t : Nat) (op : OpRef)
  | rsaPrivate (t : Nat) (op : OpRef)
  | rsaPublic (t : Nat) (op : OpRef)
  | mlkemEncaps (t : Nat) (op : OpRef)
  | mlkemDecaps (t : Nat) (op : OpRef)
  | mldsaSign (t : Nat) (op : OpRef)
  | mldsaVerify (t : Nat) (op : OpRef)
  | kum (t : Nat) (op : OpRef)
  | unwrap (t : Nat) (op : OpRef)
  | mldsaAttemptEnd (t : Nat) (op : OpRef)
  | segmentEnd (t : Nat) (op : OpRef)
  | kumCut (t : Nat) (op : OpRef)
  | dmaReadCompletion (t : Nat) (op : OpRef) (data : DmaData)
  | dmaCompletionTimeout (t : Nat) (op : OpRef)
  | periodicTestStart (t : Nat) (bay : BayNo) (engine : BitVec 4)
  | reactiveTestStart (t : Nat) (bay : BayNo) (call : TestCall)
  | engineTestEnd (t : Nat) (bay : BayNo) (engine : BitVec 4) (pass : Bool)
  | bayLeave (t : Nat) (bay : BayNo)
  | bayReturn (t : Nat) (bay : BayNo)
  | journalReservationDurable (t : Nat) (handle : BitVec 18)
  | journalFlushStart (t : Nat)
  | journalFlushDone (t : Nat) (ok : Bool)
  | journalFlushRetry (t : Nat)
  | keyLogFlushDone (t : Nat) (ok : Bool)
  | routeBlockReturn (t : Nat)
  | evictionReseed (t : Nat)
  | noiseWindowEnd (t : Nat) (ch : ChanNo) (samples : Bytes)
  | channelFail (t : Nat) (ch : ChanNo) (apt : Bool)
  | channelRetest (t : Nat) (ch : ChanNo)
  | channelStartupTestEnd (t : Nat) (ch : ChanNo) (samples : Bytes)
  | conditionedBlock (t : Nat)
  | drbgGenerateDone (t : Nat) (bay : BayNo)
  | drbgReseed (t : Nat) (bay : BayNo)
  | stopHoldExpiry (t : Nat)
  | conditionerKatDone (t : Nat) (pass : Bool)
  | drbgKatDone (t : Nat) (bay : BayNo) (pass : Bool)
  | remaskPassStart (t : Nat) (vault : Bool)
  | remaskPassEnd (t : Nat) (vault : Bool)
  | keyclockTick (t : Nat)
  | resetDrain (t : Nat) (i : InstNo)
  | resetSquash (t : Nat) (i : InstNo)
  | resetDrainDeadline (t : Nat) (i : InstNo)
  | resetReport (t : Nat) (i : InstNo)
  | freezeComplete (t : Nat) (i : InstNo)
  | migrateOfferReady (t : Nat) (i : InstNo)
  | migrateOfferExpiry (t : Nat) (i : InstNo)
  | migrateBlobReady (t : Nat) (i : InstNo)
  | ldFunctionLevelReset (t : Nat) (ld : LdNo)
  | perstAssert (t : Nat) (h : HeadNo)
  | linkDown (t : Nat) (h : HeadNo)
  | linkUp (t : Nat) (h : HeadNo) (speed width : Nat) (flitMode : Bool)
  | configRequest (t : Nat) (h : HeadNo) (tag : BitVec 16)
  | hdmDecoderCommit (t : Nat) (ld : LdNo) (base size ways skip : Nat)
  | msixUnmask (t : Nat) (ld : LdNo) (entry : BitVec 11)
  | registerWrite (t : Nat) (ld : LdNo) (i : InstNo) (off : BitVec 12) (value : Nat) (full poison : Bool)
  | get (t : Nat) (h : KHdr) (index : BitVec 16) (sub : Byte) (offset max : BitVec 32)
  | describe (t : Nat) (h : KHdr) (index : BitVec 16) (sub : Byte)
  | next (t : Nat) (h : KHdr) (index : BitVec 16) (sub : Byte)
  | kallekUnknownOp (t : Nat) (h : KHdr) (op : Byte)
  | jointOpen (t : Nat) (h : KHdr) (flags : Byte)
  | jointRead (t : Nat) (h : KHdr) (index : BitVec 16) (sub : Byte) (offset max : BitVec 32)
  | jointStage (t : Nat) (h : KHdr) (recs : List JRec)
  | jointStatement (t : Nat) (h : KHdr)
  | jointSign (t : Nat) (h : KHdr) (custodian : Byte) (sig : Bytes)
  | jointSignVerified (t : Nat) (slot : BitVec 6)
  | jointCommit (t : Nat) (h : KHdr)
  | jointAbort (t : Nat) (h : KHdr)
  | jointStatus (t : Nat) (h : KHdr)
  | prepareDurable (t : Nat) (slot : BitVec 6) (ok : Bool)
  | jointCut (t : Nat) (slot : BitVec 6) (holding : BitVec 14)
  | islandEpochSwitch (t : Nat) (island : Fin 33)
  | backupObjectsApplied (t : Nat)
  | cutRecordDurable (t : Nat)
  | digestPublished (t : Nat)
  | jointIdleExpiry (t : Nat) (slot : BitVec 6)
  | plumbRun (t : Nat)
  | islandSweep (t : Nat) (island : Fin 33) (mismatch : Bool)
  | shutdownReady (t : Nat)
  | monitorEvent (t : Nat) (sense : MonSense)
  | decisionIntervalEnd (t : Nat)
  | monitorTestEnd (t : Nat) (m : Fin 14) (pass : Bool)
  | meshCheck (t : Nat) (nets : List NetReading)
  | meshPatternReseed (t : Nat)
  | envAuth (t : Nat) (env : EnvAnswer)
  | envAuthRetry (t : Nat) (env : EnvAnswer)
  | envEnrolment (t : Nat) (env : EnvAnswer) (nets : List NetReading)
  | tamperInEdge (t : Nat) (input : Fin 4) (widthNs : Nat)
  | backupCheck (t : Nat) (nets : List NetReading) (kelvin cellMv : Nat) (levels : BitVec 4)
  | backupWatchEvent (t : Nat) (sense : MonSense) (cellPresent : Bool)
  | serviceWindowExpiry (t : Nat)
  | envLifeAccrual (t : Nat)
  | lcFuseSequenceDone (t : Nat) (unburnt : List (Nat × Nat))
  | debugChallengeReady (t : Nat)
  | debugChallengeExpiry (t : Nat)
  | fwManifestChecked (t : Nat)
  | fwStageBlock (t : Nat) (data : Bytes)
  | fwBlockWritten (t : Nat) (data : Bytes)
  | fwSwitch (t : Nat)
  | fwPartSwap (t : Nat) (bay : Option BayNo)
  | acuDrainEnd (t : Nat)
  | debugAccess (t : Nat) (isRead : Bool) (addr : BitVec 40) (len : BitVec 11)
  | evrSecondEnd (t : Nat)
  | doeDiscovery (t : Nat) (tr : Transport)
  | cdatTableAccess (t : Nat) (ld : LdNo)
  | getMeasurements (t : Nat) (tr : Transport) (first last : Fin 9) (signed : Bool)
  | challenge (t : Nat) (tr : Transport)
  | keyExchange (t : Nat) (tr : Transport) (key : ReqKey)
  | endSession (t : Nat) (n : BitVec 3)
  | heartbeat (t : Nat) (n : BitVec 3)
  | heartbeatLoss (t : Nat) (n : BitVec 3)
  | ideKeyProgram (t : Nat) (h : HeadNo) (mem : Bool) (session : BitVec 3) (key : Bytes)
  | mbxIdentify (t : Nat) (ld : LdNo)
  | identifyMemoryDevice (t : Nat) (ld : LdNo)
  | getSupportedLogs (t : Nat) (ld : LdNo)
  | getLog (t : Nat) (ld : LdNo)
  | getPoisonList (t : Nat) (ld : LdNo)
  | kallekTunnel (t : Nat) (ld : LdNo) (h : KHdr) (op : Byte) (body : Bytes)
  | mbxUnsupported (t : Nat) (ld : LdNo) (opcode : BitVec 16)
  | fmIdentify (t : Nat)
  | getLdInfo (t : Nat)
  | getLdAllocations (t : Nat) (h : HeadNo)
  | setLdAllocations (t : Nat) (h : HeadNo) (count mib : Nat)
  | getMultiHeadedInfo (t : Nat)
  | getHeadInfo (t : Nat)
  | getQosStatus (t : Nat) (h : HeadNo)
  | fmUnsupported (t : Nat) (opcode : BitVec 16)
  | entdaa (t : Nat) (addr : BitVec 7)
  | setEndpointId (t : Nat) (eid : Byte)
  | getEndpointId (t : Nat)
  | getEndpointUuid (t : Nat)
  | getMctpVersionSupport (t : Nat)
  | getMessageTypeSupport (t : Nat)
  | getVendorMessageSupport (t : Nat)
  | resetNDeassert (t : Nat)
  | perstDeassert (t : Nat) (h : HeadNo)
  | islandClockReturn (t : Nat) (island : Fin 33)
  | bayFrameEnd (t : Nat) (bay : BayNo) (frame : Nat)
  | fwPartSwapDone (t : Nat)
  | unboundAreaAccess (t : Nat) (ld : LdNo) (dpa : BitVec 27) (isRead : Bool) (tag : BitVec 16)
  | getVersion (t : Nat) (tr : Transport)
  | negotiateAlgorithms (t : Nat) (tr : Transport)
  | getCertificate (t : Nat) (tr : Transport) (slot : BitVec 3)
  deriving DecidableEq, Repr

end Sys2Proof
end

