-- ==== Sys2Proof/Machine/Sha.lean ====
section
/-! DEFINITION. The hash functions of FIPS 180-4 and FIPS 202, HMAC and the key derivations over them (R132, R222, R266). -/

namespace Sys2Proof.Sha

/-- Round constants of SHA-256, eight a row. -/
def k32 : List Nat :=
  [0xab1c5ed5923f82a459f111f13956c25be9b5dba5b5c0fbcf71374491428a2f98,
   0xc19bf1749bdc06a780deb1fe72be5d74550c7dc3243185be12835b01d807aa98,
   0x76f988da5cb0a9dc4a7484aa2de92c6f240ca1cc0fc19dc6efbe4786e49b69c1,
   0x1429296706ca6351d5a79147c6e00bf3bf597fc7b00327c8a831c66d983e5152,
   0x92722c8581c2c92e766a0abb650a735453380d134d2c6dfc2e1b213827b70a85,
   0x106aa070f40e3585d6990624d192e819c76c51a3c24b8b70a81a664ba2bfe8a1,
   0x682e6ff35b9cca4f4ed8aa4a391c0cb334b0bcb52748774c1e376c0819a4c116,
   0xc67178f2bef9a3f7a4506ceb90befffa8cc7020884c8781478a5636f748f82ee]

/-- Round constants of SHA-512, four a row. -/
def k64 : List Nat :=
  [0xe9b5dba58189dbbcb5c0fbcfec4d3b2f7137449123ef65cd428a2f98d728ae22,
   0xab1c5ed5da6d8118923f82a4af194f9b59f111f1b605d0193956c25bf348b538,
   0x550c7dc3d5ffb4e2243185be4ee4b28c12835b0145706fbed807aa98a3030242,
   0xc19bf174cf6926949bdc06a725c7123580deb1fe3b1696b172be5d74f27b896f,
   0x240ca1cc77ac9c650fc19dc68b8cd5b5efbe4786384f25e3e49b69c19ef14ad2,
   0x76f988da831153b55cb0a9dcbd41fbd44a7484aa6ea6e4832de92c6f592b0275,
   0xbf597fc7beef0ee4b00327c898fb213fa831c66d2db43210983e5152ee66dfab,
   0x142929670a0e6e7006ca6351e003826fd5a79147930aa725c6e00bf33da88fc2,
   0x53380d139d95b3df4d2c6dfc5ac42aed2e1b21385c26c92627b70a8546d22ffc,
   0x92722c851482353b81c2c92e47edaee6766a0abb3c77b2a8650a73548baf63de,
   0xc76c51a30654be30c24b8b70d0f89791a81a664bbc423001a2bfe8a14cf10364,
   0x106aa07032bbd1b8f40e35855771202ad69906245565a910d192e819d6ef5218,
   0x34b0bcb5e19b48a82748774cdf8eeb991e376c085141ab5319a4c116b8d2d0c8,
   0x682e6ff3d6b2b8a35b9cca4f7763e3734ed8aa4ae3418acb391c0cb3c5c95a63,
   0x8cc702081a6439ec84c87814a1f0ab7278a5636f43172f60748f82ee5defb2fc,
   0xc67178f2e372532bbef9a3f7b2c67915a4506cebde82bde990befffa23631e28,
   0xf57d4f7fee6ed178eada7dd6cde0eb1ed186b8c721c0c207ca273eceea26619c,
   0x1b710b35131c471b113f9804bef90dae0a637dc5a2c898a606f067aa72176fba,
   0x431d67c49c100d4c3c9ebe0a15c9bebc32caab7b40c7249328db77f523047d84,
   0x6c44198c4a4758175fcb6fab3ad6faec597f299cfc657e2a4cc5d4becb3e42b6]

/-- Parameters of a function of the SHA-2 family: word bits, rounds, rotations, constants. -/
structure Par where
  w : Nat
  rounds : Nat
  big0 : Nat × Nat × Nat
  big1 : Nat × Nat × Nat
  small0 : Nat × Nat × Nat
  small1 : Nat × Nat × Nat
  k : Nat → Nat

def par32 : Par :=
  { w := 32, rounds := 64, big0 := (2, 13, 22), big1 := (6, 11, 25), small0 := (7, 18, 3), small1 := (17, 19, 10),
    k := fun i => bits (k32.getD (i / 8) 0) (32 * (i % 8)) 32 }

def par64 : Par :=
  { w := 64, rounds := 80, big0 := (28, 34, 39), big1 := (14, 18, 41), small0 := (1, 8, 7), small1 := (19, 61, 6),
    k := fun i => bits (k64.getD (i / 4) 0) (64 * (i % 4)) 64 }

/-- Rotation right of a word of `w` bits. -/
def rotr (w n x : Nat) : Nat := (x >>> n) ||| ((x <<< (w - n)) % 2 ^ w)

def sigBig (w : Nat) (r : Nat × Nat × Nat) (x : Nat) : Nat := rotr w r.1 x ^^^ rotr w r.2.1 x ^^^ rotr w r.2.2 x
def sigSmall (w : Nat) (r : Nat × Nat × Nat) (x : Nat) : Nat := rotr w r.1 x ^^^ rotr w r.2.1 x ^^^ (x >>> r.2.2)

/-- Message schedule, newest word first. -/
def expand (p : Par) (m : List Nat) : List Nat :=
  ((List.range (p.rounds - 16)).foldl (fun ws _ =>
    ((sigSmall p.w p.small1 (ws.getD 1 0) + ws.getD 6 0 + sigSmall p.w p.small0 (ws.getD 14 0) + ws.getD 15 0) % 2 ^ p.w)
      :: ws) m.reverse).reverse

/-- One round on the eight working words. -/
def round (p : Par) (v : List Nat) (kw : Nat) : List Nat :=
  match v with
  | [a, b, c, d, e, f, g, h] =>
    let t1 := h + sigBig p.w p.big1 e + ((e &&& f) ^^^ ((2 ^ p.w - 1 - e) &&& g)) + kw
    let t2 := sigBig p.w p.big0 a + ((a &&& b) ^^^ (a &&& c) ^^^ (b &&& c))
    [(t1 + t2) % 2 ^ p.w, a, b, c, (d + t1) % 2 ^ p.w, e, f, g]
  | _ => v

def compress (p : Par) (h : List Nat) (block : Bytes) : List Nat :=
  let m := (List.range 16).map (fun i => Bytes.toNatBE (Bytes.slice block (i * (p.w / 8)) (p.w / 8)))
  let ws := expand p m
  let v := (ws.zipIdx).foldl (fun v e => round p v (e.1 + p.k e.2)) h
  List.zipWith (fun a b => (a + b) % 2 ^ p.w) h v

/-- Padding: 1 bit, zeros, the length in bits in two words. -/
def pad (p : Par) (m : Bytes) : Bytes :=
  let bl := 2 * p.w
  let z := (bl - (m.length + 1 + p.w / 4) % bl) % bl
  m ++ [0x80#8] ++ Bytes.zeros z ++ Bytes.ofNatBE (p.w / 4) (8 * m.length)

/-- Blocks of `n` bytes of a string, `fuel` at most. -/
def blocks (n : Nat) : Nat → Bytes → List Bytes
  | 0, _ => []
  | fuel + 1, bs => if bs.isEmpty then [] else bs.take n :: blocks n fuel (bs.drop n)

def hash (p : Par) (iv : List Nat) (n : Nat) (m : Bytes) : Bytes :=
  let q := pad p m
  let h := (blocks (2 * p.w) (q.length / (2 * p.w)) q).foldl (compress p) iv
  (h.flatMap (Bytes.ofNatBE (p.w / 8))).take n

def sha256 (m : Bytes) : Bytes :=
  hash par32 [0x6a09e667, 0xbb67ae85, 0x3c6ef372, 0xa54ff53a, 0x510e527f, 0x9b05688c, 0x1f83d9ab, 0x5be0cd19]
    32 m

def sha384 (m : Bytes) : Bytes :=
  hash par64 [0xcbbb9d5dc1059ed8, 0x629a292a367cd507, 0x9159015a3070dd17, 0x152fecd8f70e5939,
    0x67332667ffc00b31, 0x8eb44a8768581511, 0xdb0c2e0d64f98fa7, 0x47b5481dbefa4fa4] 48 m

def sha512 (m : Bytes) : Bytes :=
  hash par64 [0x6a09e667f3bcc908, 0xbb67ae8584caa73b, 0x3c6ef372fe94f82b, 0xa54ff53a5f1d36f1,
    0x510e527fade682d1, 0x9b05688c2b3e6c1f, 0x1f83d9abfb41bd6b, 0x5be0cd19137e2179] 64 m

/-- HMAC (FIPS 198-1) over a hash of block `bl`. -/
def hmac (hashf : Bytes → Bytes) (bl : Nat) (key m : Bytes) : Bytes :=
  let k := Bytes.fit bl (if bl < key.length then hashf key else key)
  hashf (k.map (· ^^^ 0x5C#8) ++ hashf (k.map (· ^^^ 0x36#8) ++ m))

def hmac256 : Bytes → Bytes → Bytes := hmac sha256 64
def hmac384 : Bytes → Bytes → Bytes := hmac sha384 128
def hmac512 : Bytes → Bytes → Bytes := hmac sha512 128

/-! ## FIPS 202 -/

/-- Rotation left of a lane. -/
def rotl64 (n x : Nat) : Nat := ((x <<< (n % 64)) % 2 ^ 64) ||| (x >>> (64 - n % 64))

/-- Rotation offsets of ρ, lane x + 5y. -/
def rho : List Nat :=
  [0, 1, 62, 28, 27, 36, 44, 6, 55, 20, 3, 10, 43, 25, 39, 41, 45, 15, 21, 8, 18, 2, 61, 56, 14]

/-- Round constants of ι. -/
def iota : List Nat :=
  [0x1, 0x8082, 0x800000000000808A, 0x8000000080008000, 0x808B, 0x80000001, 0x8000000080008081, 0x8000000000008009,
   0x8A, 0x88, 0x80008009, 0x8000000A] ++
  [0x8000808B, 0x800000000000008B, 0x8000000000008089, 0x8000000000008003, 0x8000000000008002, 0x8000000000000080,
   0x800A, 0x800000008000000A, 0x8000000080008081, 0x8000000000008080, 0x80000001, 0x8000000080008008]

def keccakRound (a : List Nat) (rc : Nat) : List Nat :=
  let l := fun x y => a.getD (x % 5 + 5 * (y % 5)) 0
  let c := (List.range 5).map (fun x => l x 0 ^^^ l x 1 ^^^ l x 2 ^^^ l x 3 ^^^ l x 4)
  let d := (List.range 5).map (fun x => c.getD ((x + 4) % 5) 0 ^^^ rotl64 1 (c.getD ((x + 1) % 5) 0))
  let th := (List.range 25).map (fun n => rotl64 (rho.getD n 0) (a.getD n 0 ^^^ d.getD (n % 5) 0))
  -- lane (x, y) of the permuted state is lane (x + 3y, x) of the rotated one
  let b := (List.range 25).map (fun n => th.getD ((n % 5 + 3 * (n / 5)) % 5 + 5 * (n % 5)) 0)
  let e := (List.range 25).map (fun n =>
    let at' := fun k => b.getD ((n % 5 + k) % 5 + 5 * (n / 5)) 0
    at' 0 ^^^ ((2 ^ 64 - 1 - at' 1) &&& at' 2))
  (e.headD 0 ^^^ rc) :: e.drop 1

def keccak (a : List Nat) : List Nat := iota.foldl keccakRound a

def lanesOf (bs : Bytes) : List Nat := (List.range 25).map (fun i => Bytes.fieldLE bs (8 * i) 8)

/-- Squeeze of `n` bytes at a rate. -/
def squeeze (rate : Nat) : Nat → List Nat → Bytes
  | 0, _ => []
  | k + 1, a => (a.flatMap (Bytes.ofNatLE 8)).take rate ++ squeeze rate k (keccak a)

/-- The sponge with a rate, a domain suffix byte and an output length. -/
def sponge (rate suffix n : Nat) (m : Bytes) : Bytes :=
  let z := rate - 1 - m.length % rate
  let p := if z = 0 then m ++ [BitVec.ofNat 8 (suffix + 0x80)]
    else m ++ [BitVec.ofNat 8 suffix] ++ Bytes.zeros (z - 1) ++ [0x80#8]
  let a := (blocks rate (p.length / rate) p).foldl (fun a b => keccak (List.zipWith (· ^^^ ·) a (lanesOf b)))
    (List.replicate 25 0)
  (squeeze rate (n / rate + 1) a).take n

def sha3_256 (m : Bytes) : Bytes := sponge 136 6 32 m
def sha3_512 (m : Bytes) : Bytes := sponge 72 6 64 m
def shake128 (n : Nat) (m : Bytes) : Bytes := sponge 168 0x1F n m
def shake256 (n : Nat) (m : Bytes) : Bytes := sponge 136 0x1F n m

end Sys2Proof.Sha
end

