-- ==== Sys2Proof/Machine/Lattice.lean ====
section
/-! DEFINITION. ML-KEM (FIPS 203) and ML-DSA (FIPS 204) on octet strings (R224, R225, R231). -/

namespace Sys2Proof.Lattice

abbrev Poly := List Nat

def powMod (b e m : Nat) : Nat := (List.range 23).foldl (fun acc i =>
  let a := acc * acc % m
  if bitOf e (22 - i) then a * b % m else a) (1 % m)

/-- The lowest `n` bits of `v` in reverse order. -/
def bitRev (n v : Nat) : Nat := (List.range n).foldl (fun acc i => 2 * acc + bits v i 1) 0

/-- A ring: modulus, root of unity, bits of its exponents, and depth of the transform. -/
structure Ring where
  q : Nat
  z : Nat
  depth : Nat

def kemRing : Ring := { q := 3329, z := 17, depth := 7 }
def dsaRing : Ring := { q := 8380417, z := 1753, depth := 8 }

def Ring.zeta (r : Ring) (k : Nat) : Nat := powMod r.z (bitRev r.depth k) r.q

def addP (r : Ring) (a b : Poly) : Poly := List.zipWith (fun x y => (x + y) % r.q) a b
def subP (r : Ring) (a b : Poly) : Poly := List.zipWith (fun x y => (x + (r.q - y % r.q)) % r.q) a b
def scaleP (r : Ring) (c : Nat) (a : Poly) : Poly := a.map (fun x => c * x % r.q)

/-- The transform of a block: node `k` of the tree of roots. -/
def nttAt (r : Ring) : Nat → Nat → Poly → Poly
  | 0, _, f => f
  | d + 1, k, f =>
    let h := f.length / 2
    let lo := f.take h
    let t := scaleP r (r.zeta k) (f.drop h)
    nttAt r d (2 * k) (addP r lo t) ++ nttAt r d (2 * k + 1) (subP r lo t)

def inttAt (r : Ring) : Nat → Nat → Poly → Poly
  | 0, _, f => f
  | d + 1, k, f =>
    let h := f.length / 2
    let a := inttAt r d (2 * k) (f.take h)
    let b := inttAt r d (2 * k + 1) (f.drop h)
    addP r a b ++ scaleP r (powMod (r.zeta k) (r.q - 2) r.q) (subP r a b)

def ntt (r : Ring) (f : Poly) : Poly := nttAt r r.depth 1 f
def intt (r : Ring) (f : Poly) : Poly := scaleP r (powMod (2 ^ r.depth) (r.q - 2) r.q) (inttAt r r.depth 1 f)

/-- Product in the transformed domain: coefficientwise, or by pairs modulo X² − γ for ML-KEM. -/
def mulN (r : Ring) (a b : Poly) : Poly :=
  if r.depth = 8 then List.zipWith (fun x y => x * y % r.q) a b
  else pairs 0 a b
where
  pairs (i : Nat) : Poly → Poly → Poly
    | a0 :: a1 :: as, b0 :: b1 :: bs =>
      let g := powMod r.z (2 * bitRev 7 i + 1) r.q
      (a0 * b0 + a1 * b1 % r.q * g) % r.q :: (a0 * b1 + a1 * b0) % r.q :: pairs (i + 1) as bs
    | _, _ => []

abbrev PVec := List Poly

def zeroP : Poly := List.replicate 256 0

def dotN (r : Ring) (a b : PVec) : Poly := (List.zipWith (mulN r) a b).foldl (addP r) zeroP

/-- Integer packing of `d`-bit values, lowest bits first. -/
def packBits (d : Nat) (f : List Nat) : Bytes :=
  Bytes.ofNatLE (f.length * d / 8) ((f.reverse).foldl (fun acc x => acc * 2 ^ d + x % 2 ^ d) 0)

def unpackBits (d n : Nat) (bs : Bytes) : List Nat :=
  let v := Bytes.toNatLE bs
  (upTo n).map (fun i => bits v (d * i) d)

/-- Consecutive pieces of `n` bytes. -/
def pieces (n k : Nat) (bs : Bytes) : List Bytes := (upTo k).map (fun i => (bs.drop (n * i)).take n)

/-! ## ML-KEM -/

structure KemPar where
  k : Nat
  du : Nat
  dv : Nat

def kem768 : KemPar := { k := 3, du := 10, dv := 4 }
def kem1024 : KemPar := { k := 4, du := 11, dv := 5 }

def q1 : Nat := 3329

def triples : Bytes → List Nat
  | a :: b :: c :: rest => (a.toNat + 256 * (b.toNat % 16)) :: (b.toNat / 16 + 16 * c.toNat) :: triples rest
  | _ => []

/-- SampleNTT; the squeeze is bounded, far past what any seed needs. -/
def sampleNtt (seed : Bytes) : Poly := ((triples (Sha.shake128 1680 seed)).filter (· < q1)).take 256

/-- Centred binomial sampling with η = 2. -/
def cbd2 (bs : Bytes) : Poly :=
  (Bytes.nibbles bs).zipIdx.map (fun e =>
    -- the low nibble of each byte comes first
    let x := (Bytes.nibbles bs).getD (e.2 / 2 * 2 + (1 - e.2 % 2)) 0
    ((bits x 0 1 + bits x 1 1) + (q1 - (bits x 2 1 + bits x 3 1))) % q1)

def prf (s : Bytes) (n : Nat) : Bytes := Sha.shake256 128 (s ++ [BitVec.ofNat 8 n])

def matrixA (p : KemPar) (rho : Bytes) : List PVec :=
  (upTo p.k).map (fun i => (upTo p.k).map (fun j => sampleNtt (rho ++ [BitVec.ofNat 8 j, BitVec.ofNat 8 i])))

/-- round(2^d x / q) mod 2^d. -/
def compress (d x : Nat) : Nat := (2 ^ d * x + q1 / 2) / q1 % 2 ^ d
def decompress (d y : Nat) : Nat := (q1 * y + 2 ^ (d - 1)) / 2 ^ d

def transpose (k : Nat) (m : List PVec) : List PVec := (upTo k).map (fun j => m.map (fun row => row.getD j []))

def pkeEncrypt (p : KemPar) (ek m r : Bytes) : Bytes :=
  let t := (pieces 384 p.k ek).map (unpackBits 12 256)
  let a := matrixA p (ek.drop (384 * p.k))
  let y := (upTo p.k).map (fun i => ntt kemRing (cbd2 (prf r i)))
  let e1 := (upTo p.k).map (fun i => cbd2 (prf r (p.k + i)))
  let e2 := cbd2 (prf r (2 * p.k))
  let u := List.zipWith (addP kemRing) ((transpose p.k a).map (fun row => intt kemRing (dotN kemRing row y))) e1
  let mu := (unpackBits 1 256 m).map (decompress 1)
  let v := addP kemRing (addP kemRing (intt kemRing (dotN kemRing t y)) e2) mu
  u.flatMap (fun f => packBits p.du (f.map (compress p.du))) ++ packBits p.dv (v.map (compress p.dv))

def pkeDecrypt (p : KemPar) (s : PVec) (c : Bytes) : Bytes :=
  let u := (pieces (32 * p.du) p.k c).map (fun b => (unpackBits p.du 256 b).map (decompress p.du))
  let v := (unpackBits p.dv 256 (c.drop (32 * p.du * p.k))).map (decompress p.dv)
  let w := subP kemRing v (intt kemRing (dotN kemRing s (u.map (ntt kemRing))))
  packBits 1 (w.map (compress 1))

/-- The modulus check of FIPS 203 on an encapsulation key (R225). -/
def kemEkOk (p : KemPar) (ek : Bytes) : Bool :=
  ((pieces 384 p.k ek).flatMap (unpackBits 12 256)).all (· < q1)

/-- ML-KEM.Encaps with message m: shared secret and ciphertext. -/
def kemEncaps (p : KemPar) (ek m : Bytes) : Bytes × Bytes :=
  let g := Sha.sha3_512 (m ++ Sha.sha3_256 ek)
  (g.take 32, pkeEncrypt p ek m (g.drop 32))

/-- The encapsulation key inside a decapsulation key: dk = secret ‖ ek ‖ H(ek) ‖ z. -/
def dkPublic (p : KemPar) (dk : Bytes) : Bytes := (dk.drop (384 * p.k)).take (384 * p.k + 32)

/-- ML-KEM.KeyGen from the seeds d and z: encapsulation and decapsulation key. -/
def kemKeyGen (p : KemPar) (d z : Bytes) : Bytes × Bytes :=
  let g := Sha.sha3_512 (d ++ [BitVec.ofNat 8 p.k])
  let rho := g.take 32
  let sigma := g.drop 32
  let s := (upTo p.k).map (fun i => ntt kemRing (cbd2 (prf sigma i)))
  let e := (upTo p.k).map (fun i => ntt kemRing (cbd2 (prf sigma (p.k + i))))
  let t := List.zipWith (fun row ei => addP kemRing (dotN kemRing row s) ei) (matrixA p rho) e
  let ek := t.flatMap (packBits 12) ++ rho
  (ek, s.flatMap (packBits 12) ++ ek ++ Sha.sha3_256 ek ++ z)

/-- ML-KEM.Decaps, with implicit rejection. -/
def kemDecaps (p : KemPar) (dk c : Bytes) : Bytes :=
  let s := (pieces 384 p.k dk).map (unpackBits 12 256)
  let ek := dkPublic p dk
  let h := (dk.drop (768 * p.k + 32)).take 32
  let z := (dk.drop (768 * p.k + 64)).take 32
  let m := pkeDecrypt p s c
  let g := Sha.sha3_512 (m ++ h)
  if pkeEncrypt p ek m (g.drop 32) = c then g.take 32 else Sha.shake256 32 (z ++ c)

/-! ## ML-DSA -/

structure DsaPar where
  k : Nat
  l : Nat
  eta : Nat
  tau : Nat
  ct : Nat
  beta : Nat
  omega : Nat

def dsa65 : DsaPar := { k := 6, l := 5, eta := 4, tau := 49, ct := 48, beta := 196, omega := 55 }
def dsa87 : DsaPar := { k := 8, l := 7, eta := 2, tau := 60, ct := 64, beta := 120, omega := 75 }

def q2 : Nat := 8380417
def gamma1 : Nat := 2 ^ 19
def gamma2 : Nat := (q2 - 1) / 32

def triples23 : Bytes → List Nat
  | a :: b :: c :: rest => (a.toNat + 256 * b.toNat + 65536 * (c.toNat % 128)) :: triples23 rest
  | _ => []

/-- RejNTTPoly. -/
def rejNtt (seed : Bytes) : Poly := ((triples23 (Sha.shake128 1680 seed)).filter (· < q2)).take 256

def dsaMatrix (p : DsaPar) (rho : Bytes) : List PVec :=
  (upTo p.k).map (fun i => (upTo p.l).map (fun j => rejNtt (rho ++ [BitVec.ofNat 8 j, BitVec.ofNat 8 i])))

/-- Absolute value of a coefficient's centred representative. -/
def absQ (x : Nat) : Nat := if x ≤ q2 / 2 then x else q2 - x

/-- Decompose with α = 2γ2: high part and low part modulo q. -/
def decompose (x : Nat) : Nat × Nat :=
  let a := 2 * gamma2
  let r0 := x % a
  let (hi, lo) := if gamma2 < r0 then (x + a - r0, (r0 + q2 - a) % q2) else (x - r0, r0)
  if hi = q2 - 1 then (0, (lo + q2 - 1) % q2) else (hi / a, lo)

def highBits (x : Nat) : Nat := (decompose x).1

/-- UseHint of one coefficient. -/
def useHint (h x : Nat) : Nat :=
  let (r1, r0) := decompose x
  if h = 0 then r1 else if 0 < r0 ∧ r0 ≤ q2 / 2 then (r1 + 1) % 16 else (r1 + 15) % 16

/-- SampleInBall. -/
def sampleInBall (p : DsaPar) (seed : Bytes) : Poly :=
  let st := Sha.shake256 1088 seed
  let signs := Bytes.toNatLE (st.take 8)
  ((List.range p.tau).foldl (fun (acc : Poly × Bytes) n =>
    let i := 256 - p.tau + n
    let rest := acc.2.dropWhile (fun b => decide (i < b.toNat))
    let j := (rest.headD 0).toNat
    let c := acc.1.set i (acc.1.getD j 0)
    (c.set j (if bitOf signs n then q2 - 1 else 1), rest.drop 1)) (zeroP, st.drop 8)).1

/-- A private key as FIPS 204 encodes it: ρ, K, s1, s2, t0. -/
structure DsaKey where
  rho : Bytes
  kk : Bytes
  s1 : PVec
  s2 : PVec
  t0 : PVec

/-- BitUnpack of values counted down from `top`, modulo q. -/
def unpackDown (top d : Nat) (bs : Bytes) : Poly := (unpackBits d 256 bs).map (fun x => (top + q2 - x) % q2)

/-- skDecode. -/
def dsaKeyOf (p : DsaPar) (sk : Bytes) : DsaKey :=
  let w := if p.eta = 2 then 3 else 4
  let s := (pieces (32 * w) (p.l + p.k) (sk.drop 128)).map (unpackDown p.eta w)
  { rho := sk.take 32, kk := (sk.drop 32).take 32, s1 := s.take p.l, s2 := s.drop p.l
    t0 := (pieces 416 p.k (sk.drop (128 + 32 * w * (p.l + p.k)))).map (unpackDown (2 ^ 12) 13) }

/-- Octets of a private key, before the public key that R274 appends. -/
def dsaSkLen (p : DsaPar) : Nat := 128 + 32 * (if p.eta = 2 then 3 else 4) * (p.l + p.k) + 416 * p.k

/-- Hint encoding of FIPS 204. -/
def packHint (p : DsaPar) (h : PVec) : Bytes :=
  let ones := h.map (fun f => (f.zipIdx.filter (fun e => e.1 = 1)).map (·.2))
  let pos := Bytes.fit p.omega (ones.flatten.map (BitVec.ofNat 8))
  let ends := (upTo p.k).map (fun i => BitVec.ofNat 8 ((ones.take (i + 1)).flatten.length))
  pos ++ ends

def increasing : List Nat → Bool
  | a :: b :: rest => decide (a < b) && increasing (b :: rest)
  | _ => true

/-- Decoding of the hint; none where it is malformed. -/
def unpackHint (p : DsaPar) (y : Bytes) : Option PVec :=
  let pos := (y.take p.omega).map (·.toNat)
  let ends := (y.drop p.omega).map (·.toNat)
  let starts := 0 :: ends.dropLast
  let ok := (List.zip starts ends).all (fun e => decide (e.1 ≤ e.2) && decide (e.2 ≤ p.omega)
    && increasing ((pos.drop e.1).take (e.2 - e.1)))
  if ok && (pos.drop (ends.getLastD 0)).all (· == 0) then
    some ((List.zip starts ends).map (fun e =>
      ((pos.drop e.1).take (e.2 - e.1)).foldl (fun f i => f.set i 1) zeroP))
  else none

/-- w1Encode: high bits, four bits each. -/
def packW1 (w1 : PVec) : Bytes := w1.flatMap (packBits 4)

/-- Mask polynomial vector of a signing attempt. -/
def expandMask (p : DsaPar) (rpp : Bytes) (kappa : Nat) : PVec :=
  (upTo p.l).map (fun r =>
    (unpackBits 20 256 (Sha.shake256 640 (rpp ++ Bytes.ofNatLE 2 (kappa + r)))).map
      (fun x => (gamma1 + q2 - x) % q2))

def normV (v : PVec) : Nat := v.flatten.foldl (fun m x => max m (absQ x)) 0

/-- One signing attempt with its counter κ: a signature, or a rejection (R231). -/
def dsaAttempt (p : DsaPar) (k : DsaKey) (mu rnd : Bytes) (attempt : Nat) : Option Bytes :=
  let rpp := Sha.shake256 64 (k.kk ++ rnd ++ mu)
  let y := expandMask p rpp (p.l * attempt)
  let a := dsaMatrix p k.rho
  let yn := y.map (ntt dsaRing)
  let w := a.map (fun row => intt dsaRing (dotN dsaRing row yn))
  let w1 := w.map (fun f => f.map highBits)
  let ct := Sha.shake256 p.ct (mu ++ packW1 w1)
  let cn := ntt dsaRing (sampleInBall p ct)
  let byC := fun (v : PVec) => v.map (fun f => intt dsaRing (mulN dsaRing cn (ntt dsaRing f)))
  let z := List.zipWith (addP dsaRing) y (byC k.s1)
  let wcs2 := List.zipWith (subP dsaRing) w (byC k.s2)
  let r0 := wcs2.map (fun f => f.map (fun x => (decompose x).2))
  let ct0 := byC k.t0
  let h := List.zipWith (fun f g => List.zipWith (fun x c => bit (highBits x != highBits ((x + c) % q2))) f g) wcs2 ct0
  if gamma1 - p.beta ≤ normV z ∨ gamma2 - p.beta ≤ normV r0 ∨ gamma2 ≤ normV ct0
      ∨ p.omega < (h.flatten.filter (· == 1)).length then none
  else some (ct ++ z.flatMap (fun f => packBits 20 (f.map (fun x => (gamma1 + q2 - x) % q2))) ++ packHint p h)

/-- ML-DSA verification against μ (R225). -/
def dsaVerify (p : DsaPar) (pk mu sig : Bytes) : Bool :=
  let rho := pk.take 32
  let t1 := (pieces 320 p.k (pk.drop 32)).map (unpackBits 10 256)
  let ct := sig.take p.ct
  let z := (pieces 640 p.l (sig.drop p.ct)).map (fun b => (unpackBits 20 256 b).map (fun x => (gamma1 + q2 - x) % q2))
  match unpackHint p (sig.drop (p.ct + 640 * p.l)) with
  | none => false
  | some h =>
    let cn := ntt dsaRing (sampleInBall p ct)
    let zn := z.map (ntt dsaRing)
    let w := List.zipWith (fun row t =>
      intt dsaRing (subP dsaRing (dotN dsaRing row zn)
        (mulN dsaRing cn (ntt dsaRing (t.map (fun x => x * 2 ^ 13 % q2)))))) (dsaMatrix p rho) t1
    let w1 := List.zipWith (fun f g => List.zipWith useHint f g) h w
    decide (normV z < gamma1 - p.beta) && Sha.shake256 p.ct (mu ++ packW1 w1) == ct

end Sys2Proof.Lattice
end

