-- ==== Sys2Proof/Config.lean ====
section
/-! DEFINITION. What a part fixes once and the manual does not print (keys burnt or fused, identifiers), and the free
values. Each is opaque: no proof can see what it is. -/

namespace Sys2Proof

/-- Free values (log entry 3): the byte a reader of an open value sees, by the number of free values drawn before. -/
opaque Config.freeByte : Nat → Byte

/-- Free values that are numbers (log entry 3), by the number of free values drawn before. -/
opaque Config.freeNat : Nat → Nat

/-- Bytes left in an engine's memory, which the manual does not fix (log entry 3): by the number of the content and the offset. -/
opaque Config.areaByte : Nat → Nat → Byte

/-- Bytes of a memory that a running processor changes, and of the boot ROM (R30): by the number of the content, the offset and the
device time; by the address. -/
opaque Config.storeByte : Nat → Nat → Nat → Byte
opaque Config.romByte : Nat → Byte

/-- OTP identity seed of the die, 32 bytes (R264). -/
opaque Config.identitySeed : Bytes

/-- Fuse conditioning key of the random island, AES-256 (R244). -/
opaque Config.conditioningKey : Bytes

/-- Debug Authority public keys 0 to 3 in ROM, x ‖ y of P-384; the digest rows 0 to 3 that the maker has burnt into OTP for them, and the
revocation fuses, bit k of key k (R405). -/
opaque Config.debugAuthorityKey : Nat → Bytes
opaque Config.authorityRow : Nat → Bytes
opaque Config.authorityRevoked : BitVec 4

/-- Staeno's vendor bits of the Provisional ID (R463). -/
opaque Config.vendorBits : BitVec 16

/-- The mesh pattern generator of the backup domain: the value that follows one (R380). -/
opaque Config.patternStep : Nat → Nat

/-- Staeno's firmware keys in ROM: P-384 x ‖ y and ML-DSA-87 (R408). -/
opaque Config.releaseKey : Bytes
opaque Config.releaseKeyDsa : Bytes

/-- The leaf public key, x ‖ y of P-384, of a certificate chain that verifies to the Staeno root key held in ROM; none where it
does not verify (R317). The manual gives no layout of the certificates. -/
opaque Config.chainLeaf : Bytes → Option Bytes

/-- SHA-384 of the boot ROM (R457). -/
opaque Config.romDigest : Bytes

/-- The manifest of a part as flash held it when the device left its maker (R465). -/
opaque Config.factoryManifest : Nat → Bytes

/-- What an answer carries where the manual leaves its content to a standard, by number: 1 the list of supported logs, 2 the
Command Effects Log, 3 Identify of the fabric manager, 4 the endpoint UUID, 5 the MCTP versions (R461 to R463). -/
opaque Config.standardAnswer : Nat → Bytes

/-- The device's certificate chain as held in external flash (R265). -/
opaque Config.certChain : Bytes

end Sys2Proof
end

