-- ==== Sys2Proof/Machine/Aes.lean ====
section
/-! DEFINITION. AES (FIPS 197) and the modes of SP 800-38A, 38B and 38D over it, on octet strings (R132, R135, R136, R137,
R176). -/

namespace Sys2Proof.Aes

/-- The S-box, 32 entries a row, entry x in byte x mod 32. -/
def sboxRows : List Nat :=
  [0xc072a49cafa2d4adf04759fa7dc982ca76abd7fe2b670130c56f6bf27b777c63,
   0x75b227ebe28012079a059618c323c7041531d871f1e5a534ccf73f362693fdb7,
   0xcf584c4a39becb6a5bb1fc20ed00d153842fe329b3d63b52a05a6e1b1a2c8309,
   0xd2f3ff1021dab6bcf5389d928f40a351a89f3c507f02f94585334d43fbaaefd0,
   0xdb0b5ede14b8ee4688902a22dc4f816073195d643d7ea7c41744975fec130ccd,
   0x8ae7a65eaf4566ca94ed58d6d37c8e779e4959162acd3c25c2406490a3a32e0,
   0x9e1dc186b95735610ef6034866b53e708a8bbd4b1f74dde8c6b4a61c2e2578ba,
   0x16bb54b00f2d99416842e6bf0d89a18cdf2855cee9871e9b948ed9691198f8e1]

/-- The inverse S-box, laid out the same way. -/
def invRows : List Nat :=
  [0xcbe9dec444438e3487ff2f9b8239e37cfbd7f3819ea340bf38a53630d56a0952,
   0x25d18b6d49a25b76b224d92866a12e084ec3fa420b954cee3d23c2a632947b54,
   0x849d8da75746155edab9edfd5048706c92b6655dcc5ca4d41698688664f6f872,
   0x6b8a130103bdafc1020f3fca8f1e2cd00645b3b80558e4f70ad3bc8c00abd890,
   0x6edf751ce837f9e28535ade72274ac9673e6b4f0cecff297eadc674f4111913a,
   0xf45acd78fec0db9a2079d2c64b3e56fc1bbe18aa0e62b76f89c5291d711af147,
   0xef9cc9939f7ae52d0d4ab519a97f51605fec8027591012b131c7078833a8dd1f,
   0x7d0c2155631469e126d677ba7e042b17619953833cbbebc8b0f52aae4d3be0a0]

/-- An entry of a byte table. -/
def entry (rows : List Nat) (x : Nat) : Nat := (rows.getD (x / 32) 0 >>> (8 * (x % 32))) % 256

def sub (x : Nat) : Nat := entry sboxRows x
def invSub (x : Nat) : Nat := entry invRows x

/-- Multiplication by x in the field of FIPS 197. -/
def xtime (a : Nat) : Nat := if a < 128 then 2 * a else (2 * a - 256) ^^^ 0x1B

/-- Multiplication by a constant below 16. -/
def times (c a : Nat) : Nat :=
  (if bitOf c 0 then a else 0) ^^^ (if bitOf c 1 then xtime a else 0)
    ^^^ (if bitOf c 2 then xtime (xtime a) else 0) ^^^ (if bitOf c 3 then xtime (xtime (xtime a)) else 0)

def xorN (a b : List Nat) : List Nat := List.zipWith (· ^^^ ·) a b

/-- One more word of the key schedule: word number `i` of a key of `nk` words, `done` newest first. -/
def nextWord (nk i : Nat) (done : List (List Nat)) : List Nat :=
  let t := done.headD []
  let rcon := (List.range (i / nk - 1)).foldl (fun c _ => xtime c) 1
  let t' :=
    if i % nk = 0 then xorN ((t.drop 1 ++ t.take 1).map sub) [rcon, 0, 0, 0]
    else if 6 < nk ∧ i % nk = 4 then t.map sub
    else t
  xorN (done.getD (nk - 1) []) t'

/-- The key as words. -/
def words : List Nat → List (List Nat)
  | a :: b :: c :: d :: rest => [a, b, c, d] :: words rest
  | _ => []

/-- Round keys of 16 bytes, first round first. -/
def schedule (key : Bytes) : List (List Nat) :=
  let k := words (key.map (·.toNat))
  let nk := k.length
  let all := ((List.range (4 * (nk + 7) - nk)).foldl (fun d j => nextWord nk (nk + j) d :: d) k.reverse).reverse
  (List.range (nk + 7)).map (fun r => ((all.drop (4 * r)).take 4).flatten)

/-- The byte order of ShiftRows and of its inverse. -/
def shiftOrder : List Nat := [0, 5, 10, 15, 4, 9, 14, 3, 8, 13, 2, 7, 12, 1, 6, 11]
def unshiftOrder : List Nat := [0, 13, 10, 7, 4, 1, 14, 11, 8, 5, 2, 15, 12, 9, 6, 3]

/-- MixColumns with a first row of coefficients. -/
def mix (c : List Nat) (s : List Nat) : List Nat :=
  (List.range 16).map (fun n =>
    (List.range 4).foldl (fun acc j => acc ^^^ times (c.getD ((j + 4 - n % 4) % 4) 0) (s.getD (n / 4 * 4 + j) 0)) 0)

def pick (order s : List Nat) : List Nat := order.map (fun n => s.getD n 0)

/-- AES of one block. -/
def encrypt (key block : Bytes) : Bytes :=
  let ks := schedule key
  let n := ks.length - 1
  let s0 := xorN (block.map (·.toNat)) (ks.headD [])
  let s := (List.range n).foldl (fun s r =>
    let u := pick shiftOrder (s.map sub)
    xorN (if r + 1 = n then u else mix [2, 3, 1, 1] u) (ks.getD (r + 1) [])) s0
  s.map (BitVec.ofNat 8)

/-- Inverse AES of one block. -/
def decrypt (key block : Bytes) : Bytes :=
  let ks := (schedule key).reverse
  let n := ks.length - 1
  let s0 := xorN (block.map (·.toNat)) (ks.headD [])
  let s := (List.range n).foldl (fun s r =>
    let u := xorN ((pick unshiftOrder s).map invSub) (ks.getD (r + 1) [])
    if r + 1 = n then u else mix [14, 11, 13, 9] u) s0
  s.map (BitVec.ofNat 8)

end Sys2Proof.Aes
end

