-- ==== Sys2Proof/Machine/Des.lean ====
section
/-! DEFINITION. DES and triple DES (SP 800-67), on octet strings (R131). -/

namespace Sys2Proof.Des

/-- The eight S-boxes; entry row × 16 + column is nibble row × 16 + column. -/
def sboxes : List Nat :=
  [0xd60ae3b5719428cf05a379cfb26d8e148359bc6a1d2e47f07095c6a38bf21d4e,
   0x9e50c76b24f31a8df2396c851d4ab7e05b96a10ce82f74d3a50cd27943b6e81f,
   0xc25b3ef478960da17ea5c21b03f8946d1fbce582a643907d824b7cd15f36e90a,
   0xe27cb5498d1a60f34825e31fd7bc096a9ea1c27430f65b8df4cb5821a9603ed7,
   0x354a90f6d2e17c8be0365c9f87dab1246893af051d74c2be9e0df3586ba714c2,
   0xd80671ebaf59c2346bd1a4073c825fe983b0ed1659c724fab57e43d08629fa1c,
   0xc32ef0597a418db6295086fae73cdb4168f2c53ea1947b0d16a579c3d80fe2b4,
   0xb65309cfd8a47e12853fda602ec914b729e0b65c473a8df17c05e39a1bf6482d]

/-- The permutations of the standard, as bit numbers counted from 1 at the left. -/
def pInit : List Nat :=
  (List.range 64).map (fun n => (58 + 2 * (n / 8) - 8 * (n % 8)) - (if n / 8 < 4 then 0 else 9))

def pFinal : List Nat :=
  (List.range 64).map (fun n => [40, 8, 48, 16, 56, 24, 64, 32].getD (n % 8) 0 - n / 8)

def pExpand : List Nat :=
  (List.range 48).map (fun n => (4 * (n / 6) + n % 6 + 31) % 32 + 1)

def pRound : List Nat :=
  [16, 7, 20, 21, 29, 12, 28, 17, 1, 15, 23, 26, 5, 18, 31, 10] ++
  [2, 8, 24, 14, 32, 27, 3, 9, 19, 13, 30, 6, 22, 11, 4, 25]

def pKey1 : List Nat :=
  [57, 49, 41, 33, 25, 17, 9, 1, 58, 50, 42, 34, 26, 18, 10, 2, 59, 51, 43, 35, 27, 19, 11, 3, 60, 52, 44, 36] ++
  [63, 55, 47, 39, 31, 23, 15, 7, 62, 54, 46, 38, 30, 22, 14, 6, 61, 53, 45, 37, 29, 21, 13, 5, 28, 20, 12, 4]

def pKey2 : List Nat :=
  [14, 17, 11, 24, 1, 5, 3, 28, 15, 6, 21, 10, 23, 19, 12, 4, 26, 8, 16, 7, 27, 20, 13, 2] ++
  [41, 52, 31, 37, 47, 55, 30, 40, 51, 45, 33, 48, 44, 49, 39, 56, 34, 53, 46, 42, 50, 36, 29, 32]

def shifts : List Nat := [1, 1, 2, 2, 2, 2, 2, 2, 1, 2, 2, 2, 2, 2, 2, 1]

/-- The bits of `v` (of `w` bits) named by a permutation, first named at the left. -/
def permute (p : List Nat) (w v : Nat) : Nat :=
  p.foldl (fun acc n => 2 * acc + bits v (w - n) 1) 0

/-- The sixteen round keys. -/
def schedule (key : Nat) : List Nat :=
  let cd := permute pKey1 64 key
  (shifts.foldl (fun (st : Nat × Nat × List Nat) sh =>
    let rot := fun x => ((x <<< sh) ||| (x >>> (28 - sh))) % 2 ^ 28
    let c := rot st.1
    let d := rot st.2.1
    (c, d, permute pKey2 56 (c * 2 ^ 28 + d) :: st.2.2)) (cd / 2 ^ 28, cd % 2 ^ 28, [])).2.2.reverse

/-- The cipher function f. -/
def feistel (r k : Nat) : Nat :=
  let x := permute pExpand 32 r ^^^ k
  let s := (sboxes.zipIdx).foldl (fun acc e =>
    let six := bits x (42 - 6 * e.2) 6
    16 * acc + bits e.1 (4 * (six / 32 * 32 + six % 2 * 16 + six / 2 % 16)) 4) 0
  permute pRound 32 s

def rounds (ks : List Nat) (block : Nat) : Nat :=
  let v := permute pInit 64 block
  let lr := ks.foldl (fun (lr : Nat × Nat) k => (lr.2, lr.1 ^^^ feistel lr.2 k)) (v / 2 ^ 32, v % 2 ^ 32)
  permute pFinal 64 (lr.2 * 2 ^ 32 + lr.1)

/-- Single DES of one block, under 8 key bytes. -/
def encrypt (key block : Bytes) : Bytes :=
  Bytes.ofNatBE 8 (rounds (schedule (Bytes.toNatBE key)) (Bytes.toNatBE block))

def decrypt (key block : Bytes) : Bytes :=
  Bytes.ofNatBE 8 (rounds (schedule (Bytes.toNatBE key)).reverse (Bytes.toNatBE block))

/-- The three DES keys of a double-length or triple-length key. -/
def parts (key : Bytes) : Bytes × Bytes × Bytes :=
  (key.take 8, (key.drop 8).take 8, if key.length < 24 then key.take 8 else (key.drop 16).take 8)

/-- TDES of one block, EDE. -/
def tdesEncrypt (key block : Bytes) : Bytes :=
  let (a, b, c) := parts key
  encrypt c (decrypt b (encrypt a block))

def tdesDecrypt (key block : Bytes) : Bytes :=
  let (a, b, c) := parts key
  decrypt a (encrypt b (decrypt c block))

/-- A byte with its lowest bit set so that it has odd parity (R182). -/
def oddParity (b : Byte) : Byte :=
  let n := popBits b.toNat
  if n % 2 = 1 then b else b ^^^ 1
where
  popBits (v : Nat) : Nat := ((List.range 8).filter (bitOf v)).length

end Sys2Proof.Des
end

