-- ==== Sys2Proof/Machine/Modes.lean ====
section
/-! DEFINITION. The modes of operation and MAC algorithms of the cipher engines, over AES and TDES (R134 to R139), and the
CTR_DRBG of SP 800-90A (R247). -/

namespace Sys2Proof.Modes

/-- A block cipher under a key: block length and both directions. -/
structure Cipher where
  n : Nat
  enc : Bytes → Bytes
  dec : Bytes → Bytes

def aes (key : Bytes) : Cipher := { n := 16, enc := Aes.encrypt key, dec := Aes.decrypt key }
def tdes (key : Bytes) : Cipher := { n := 8, enc := Des.tdesEncrypt key, dec := Des.tdesDecrypt key }

/-- The blocks of a string; the last may be partial. -/
def blocks (n : Nat) (bs : Bytes) : List Bytes := (upTo (ceilDiv bs.length n)).map (fun i => (bs.drop (n * i)).take n)

def ecb (f : Bytes → Bytes) (n : Nat) (m : Bytes) : Bytes := (blocks n m).flatMap f

def cbcEncrypt (c : Cipher) (iv m : Bytes) : Bytes :=
  ((blocks c.n m).foldl (fun (st : Bytes × Bytes) b =>
    let y := c.enc (Bytes.xor st.1 b)
    (y, st.2 ++ y)) (iv, [])).2

def cbcDecrypt (c : Cipher) (iv m : Bytes) : Bytes :=
  ((blocks c.n m).foldl (fun (st : Bytes × Bytes) b => (b, st.2 ++ Bytes.xor (c.dec b) st.1)) (iv, [])).2

/-- CFB with segments of `seg` bytes: 1 (CFB-8) or a block; the final segment may be partial (R136). -/
def cfb (c : Cipher) (seg : Nat) (decrypt : Bool) (iv m : Bytes) : Bytes :=
  ((blocks seg m).foldl (fun (st : Bytes × Bytes) b =>
    let y := Bytes.xor (c.enc st.1) b
    ((st.1 ++ (if decrypt then b else y)).drop b.length, st.2 ++ y)) (iv, [])).2

def ofb (c : Cipher) (iv m : Bytes) : Bytes :=
  ((blocks c.n m).foldl (fun (st : Bytes × Bytes) b =>
    let y := c.enc st.1
    (y, st.2 ++ Bytes.xor y b)) (iv, [])).2

/-- The counter block `j` blocks on: its rightmost 32 bits count, with no carry beyond (R136). -/
def counterAt (cb : Bytes) (j : Nat) : Bytes :=
  let k := cb.length - 4
  cb.take k ++ Bytes.ofNatBE 4 ((Bytes.toNatBE (cb.drop k) + j) % 2 ^ 32)

def ctr (c : Cipher) (cb m : Bytes) : Bytes :=
  ((blocks c.n m).zipIdx).flatMap (fun e => Bytes.xor (c.enc (counterAt cb e.2)) e.1)

/-! ## GCM (SP 800-38D) -/

/-- Multiplication in the field of GHASH. -/
def gmul (x y : Nat) : Nat :=
  ((List.range 128).foldl (fun (st : Nat × Nat) i =>
    let z := if bitOf x (127 - i) then st.1 ^^^ st.2 else st.1
    (z, (st.2 >>> 1) ^^^ (if bitOf st.2 0 then 0xE1 <<< 120 else 0))) (0, y)).1

def ghash (h : Nat) (bs : Bytes) : Nat :=
  (blocks 16 bs).foldl (fun acc b => gmul (acc ^^^ Bytes.toNatBE (Bytes.fit 16 b)) h) 0

/-- Zero padding to whole 16-byte blocks. -/
def pad16 (bs : Bytes) : Bytes := bs ++ Bytes.zeros ((16 - bs.length % 16) % 16)

/-- The tag over AAD and ciphertext with J0 = nonce ‖ 1 (R137). -/
def gcmTag (c : Cipher) (nonce aad ct : Bytes) : Bytes :=
  let h := Bytes.toNatBE (c.enc (Bytes.zeros 16))
  let s := ghash h (pad16 aad ++ pad16 ct ++ Bytes.ofNatBE 8 (8 * aad.length) ++ Bytes.ofNatBE 8 (8 * ct.length))
  Bytes.xor (Bytes.ofNatBE 16 s) (c.enc (nonce ++ [0, 0, 0, 1]))

/-- The keystream of GCM starts at J0 advanced by one. -/
def gcmCrypt (c : Cipher) (nonce m : Bytes) : Bytes := ctr c (nonce ++ [0, 0, 0, 2]) m

/-! ## MACs -/

def shiftLeft1 (n v : Nat) : Nat := (2 * v) % 2 ^ (8 * n)

/-- Doubling in the field of CMAC. -/
def double (n v : Nat) : Nat :=
  shiftLeft1 n v ^^^ (if bitOf v (8 * n - 1) then (if n = 16 then 0x87 else 0x1B) else 0)

/-- CMAC (SP 800-38B). -/
def cmac (c : Cipher) (m : Bytes) : Bytes :=
  let k1 := double c.n (Bytes.toNatBE (c.enc (Bytes.zeros c.n)))
  let k2 := double c.n k1
  let bs := blocks c.n m
  let lastB := bs.getLastD []
  let fin := if lastB.length = c.n then Bytes.xor lastB (Bytes.ofNatBE c.n k1)
    else Bytes.xor (Bytes.fit c.n (lastB ++ [0x80])) (Bytes.ofNatBE c.n k2)
  (bs.dropLast ++ [fin]).foldl (fun x b => c.enc (Bytes.xor x b)) (Bytes.zeros c.n)

/-- Padding methods 1 and 2 of ISO/IEC 9797-1 to whole 8-byte blocks (R138). -/
def isoPad (method : Nat) (m : Bytes) : Bytes :=
  let m' := if method = 2 then m ++ [0x80] else m
  m' ++ Bytes.zeros ((8 - m'.length % 8) % 8)

/-- MAC algorithm 1: CBC-MAC with TDES on every block. -/
def mac1 (key : Bytes) (method : Nat) (m : Bytes) : Bytes :=
  (blocks 8 (isoPad method m)).foldl (fun x b => Des.tdesEncrypt key (Bytes.xor x b)) (Bytes.zeros 8)

/-- MAC algorithm 3 (retail): CBC under K1, then decryption under K2 and encryption under K1. -/
def mac3 (key : Bytes) (method : Nat) (m : Bytes) : Bytes :=
  let k1 := key.take 8
  let k2 := (key.drop 8).take 8
  let x := (blocks 8 (isoPad method m)).foldl (fun x b => Des.encrypt k1 (Bytes.xor x b)) (Bytes.zeros 8)
  Des.encrypt k1 (Des.decrypt k2 x)

/-! ## CTR_DRBG (SP 800-90A, AES-256, with the derivation function) -/

/-- State of a CTR_DRBG: Key and V. -/
structure Ctr where
  key : Bytes
  v : Bytes

def bump128 (v : Bytes) : Bytes := Bytes.ofNatBE 16 ((Bytes.toNatBE v + 1) % 2 ^ 128)

/-- `n` output blocks and the V after them. -/
def ctrBlocks (key : Bytes) : Nat → Bytes → Bytes × Bytes
  | 0, v => ([], v)
  | n + 1, v =>
    let v' := bump128 v
    let (rest, v'') := ctrBlocks key n v'
    (Aes.encrypt key v' ++ rest, v'')

/-- CTR_DRBG_Update with 48 bytes. -/
def ctrUpdate (d : Ctr) (provided : Bytes) : Ctr :=
  let x := Bytes.xor (ctrBlocks d.key 3 d.v).1 (Bytes.fit 48 provided)
  { key := x.take 32, v := x.drop 32 }

/-- BCC: CBC-MAC of whole blocks. -/
def bcc (key m : Bytes) : Bytes :=
  (blocks 16 m).foldl (fun x b => Aes.encrypt key (Bytes.xor x b)) (Bytes.zeros 16)

/-- Block_Cipher_df to 48 bytes. -/
def df (input : Bytes) : Bytes :=
  let body := Bytes.ofNatBE 4 input.length ++ Bytes.ofNatBE 4 48 ++ input ++ [0x80]
  let s := body ++ Bytes.zeros ((16 - body.length % 16) % 16)
  let k0 := (upTo 32).map (BitVec.ofNat 8)
  let t := (upTo 3).flatMap (fun i => bcc k0 (Bytes.ofNatBE 4 i ++ Bytes.zeros 12 ++ s))
  let k := t.take 32
  let x1 := Aes.encrypt k (t.drop 32)
  let x2 := Aes.encrypt k x1
  x1 ++ x2 ++ Aes.encrypt k x2

def ctrInstantiate (seed : Bytes) : Ctr := ctrUpdate { key := Bytes.zeros 32, v := Bytes.zeros 16 } (df seed)

def ctrReseed (d : Ctr) (seed : Bytes) : Ctr := ctrUpdate d (df seed)

def ctrGenerate (d : Ctr) (n : Nat) : Bytes × Ctr :=
  let (o, v) := ctrBlocks d.key (ceilDiv n 16) d.v
  (o.take n, ctrUpdate { d with v := v } (Bytes.zeros 48))

end Sys2Proof.Modes
end

