-- ==== Sys2Proof/Machine/State.lean ====
section
/-! DEFINITION. The state of the VG4096 with its Envelope: every register, memory, queue, counter, mode and pin the manual
gives it, as plain data, and the state after reset. Each field's comment names the rule that gives it and its width;
`State.reset` gives each its reset value. -/

namespace Sys2Proof.Machine

/-- Why a command stops with a fault. No meaning of this model raises one: the manual gives every command of the table an
effect, and an event whose circumstance does not hold in the state has none (log entry 2). -/
inductive Fault where
  /-- Raised by nothing; safe. -/
  | unreachable
  deriving DecidableEq, Repr

/-- Why a command has no meaning. -/
inductive Refusal where
  /-- A row of the opcode table not modelled yet; raised by the arms of `exec` that say so; safe. -/
  | notModelled (mnemonic : String)
  deriving DecidableEq, Repr

/-! ## Modes, power and start-up -/

/-- What feeds the backup domain (R33, R388). -/
inductive Supply where
  | main | cell | ballast | dead
  deriving DecidableEq, Repr

/-- Why a start stands still (R361, R391, R414). -/
inductive StopCause where
  | running | rom | scrapped | enrolment | images
  deriving DecidableEq, Repr

structure Power where
  /-- PWR_GOOD as filtered (R476); 1 bit -/
  pwrGood : Bool := false
  /-- RESET_N asserted, as filtered (R478); 1 bit -/
  resetLow : Bool := false
  /-- VDD_IO lost: the backup domain has switched on its own (R476); 1 bit -/
  switched : Bool := false
  /-- supply of the backup domain (R33) -/
  supply : Supply := .dead
  /-- THERMTRIP_N driven low (R479); 1 bit -/
  thermtrip : Bool := false
  /-- StartupStep, OD 0xA002.01 (R365): 0 no start, 1 to 11 the step running, 12 complete; U8 -/
  step : Nat := 0
  /-- why the start stands still (R361) -/
  stop : StopCause := .running
  /-- device time at which the start began (R361) -/
  startT : Nat := 0
  /-- StartupStepUs, OD 0xA002.02 (R365): eleven U32 -/
  stepUs : List Nat := []
  /-- StartupCount, OD 0xA002.03 (R365); U64, class B -/
  startups : Nat := 0
  /-- ShutdownState, OD 0x4004.04 (R365); U8 -/
  shutdown : Nat := 0
  /-- XSPI_RESET_N driven low (R482); 1 bit -/
  xspiReset : Bool := false
  /-- mode set last recorded (R352); 8 bits -/
  modes : Nat := 0x80
  deriving DecidableEq, Repr

/-! ## Configuration -/

/-- The route content of a partition (R187): form and the stored prefixes, as digit lists with their route words. -/
structure Part where
  form : Nat := 0
  routes : List (List Nat × Nat) := []
  deriving DecidableEq, Repr

/-- Objects that joints write (R327): numbers by key `index * 256 + sub`, octet strings, versions (R336), and route
partitions. An unlisted object holds its default; an unlisted version is 0. -/
structure Cfg where
  vals : Map Nat := []
  octs : Map Bytes := []
  vers : Map Nat := []
  parts : Map Part := []
  partVers : Map Nat := []
  deriving DecidableEq, Repr

/-- One entry of the configuration log (R343, R344). -/
inductive CfgEntry where
  | snapshot (c : Cfg) (epoch : Nat)
  | prepare (serial : Nat) (recs : List JRec) (parts : Map Part)
  | cut (epoch serial : Nat)
  deriving DecidableEq, Repr

/-- A cut record of the cut ring (R343): epoch and serial. -/
structure CutRec where
  epoch : Nat
  serial : Nat
  deriving DecidableEq, Repr

/-! ## Keys -/

/-- Guard extension (R277). -/
structure Guard where
  nonce : Bool := false
  mode : Nat := 0
  lost : Bool := false
  limit : Nat := 0
  v : Nat := 0
  ceiling : Nat := 0
  deriving DecidableEq, Repr

/-- Content of a head slot with its extensions (R273, R274); the material is kept unmasked here and its mask beside the
memory (`Masks`). -/
structure Key where
  type : Nat := 0
  backed : Bool := false
  rfc6979 : Bool := false
  migrate : Bool := false
  engine : Nat := 0
  ext : Nat := 0
  tenant : Nat := 0
  maxAge : Nat := 0
  usage : Nat := 0
  created : Nat := 0
  kcv : Bytes := []
  material : Bytes := []
  guard : Option Guard := none
  deriving DecidableEq, Repr

/-- A slot at a head handle: its generation, kept when empty (R279), the epoch of its last write (R273), and its key. -/
structure Slot where
  gen : Nat := 0
  wepoch : Nat := 0
  key : Option Key := none
  deriving DecidableEq, Repr

/-- A token entry (R209). -/
structure Token where
  tenant : Nat
  inst : Nat
  time : Nat
  maxAge : Nat
  tag : Bytes
  key : Key
  deriving DecidableEq, Repr

/-- A shelf entry (R205, R209): one slot of a superseded run; the head's entry holds the content of the whole run, its
guard included, and the entries of its extensions stand for their places. -/
structure Shelf where
  tenant : Nat
  time : Nat
  handle : Nat
  isExt : Bool
  wepoch : Nat
  cut : Nat
  gen : Nat
  key : Option Key
  /-- superseded by a RESTRICT: its counter is that of the generation that follows (R147, R282) -/
  heir : Bool := false
  /-- deleted by a migration's save: it is claimed only below its ceiling (R318) -/
  moved : Bool := false
  deriving DecidableEq, Repr

/-- Content of a way of the token cache (R209). -/
inductive WayBody where
  | empty | token (k : Token) | shelf (k : Shelf)
  deriving DecidableEq, Repr

/-- A way of the token cache: its generation (R210) and its content. -/
structure Way where
  gen : Nat := 0
  body : WayBody := .empty
  deriving DecidableEq, Repr

/-- A derivation-cache entry (R208). -/
structure Deriv where
  aes : Bool
  tenant : Nat
  bdk : Nat
  bdkGen : Nat
  high : Nat
  ikid : Bytes
  written : Nat
  ikey : Bytes
  deriving DecidableEq, Repr

/-- Mask words and the pass over one masked memory (R270, R271): words W0 and W1, the phase of its entries, whether a pass runs, the
entries written since it took its word, whose phase bit is already that of the new word, the entries that passes left as they were, with
the phase bit and the word that they keep (R27), pass number, and whether the conditioner's stop has been recorded for the chain of R255. -/
structure Masks where
  w0 : Bytes := []
  w1 : Bytes := []
  phase : Bool := false
  running : Bool := false
  fresh : List Nat := []
  stale : Map (Bool × Bytes) := []
  passNo : Nat := 0
  chainNoted : Bool := false
  deriving DecidableEq, Repr

/-- A journal record (R152). -/
structure JourRec where
  slot : Nat
  nonce : Bool
  gen : Nat
  ceiling : Nat
  deriving DecidableEq, Repr

/-- A journal record standing in the stage (R148), and whether it is durable there (R149). -/
structure StageRec where
  r : JourRec
  durable : Bool
  postedT : Nat
  deriving DecidableEq, Repr

/-- A flash segment of the journal (R152), with the RootCheck of the root whose journal key made its CMAC. -/
structure JourSeg where
  under : Bytes
  epoch : Nat
  time : Nat
  snapshot : Bool
  last : Bool
  recs : List JourRec
  deriving DecidableEq, Repr

/-- The usage journal in flash, and its flush (R151, R153). -/
structure Journal where
  /-- journal stage in the vault, at most 128 records (R148) -/
  stage : List StageRec := []
  /-- half A of the journal area in flash (R153) -/
  halfA : List JourSeg := []
  /-- half B of the journal area in flash (R153) -/
  halfB : List JourSeg := []
  /-- the active half is B (R153); 1 bit -/
  activeB : Bool := false
  /-- segment of the flush in progress (R151) -/
  flushing : Option JourSeg := none
  /-- failed attempts of this flush (R151); 0 to 3 -/
  tries : Nat := 0
  /-- a flush waits 100 ms after its third failure (R151); 1 bit -/
  backoff : Bool := false
  /-- JournalState, OD 0x6020.07 (R156); 1 bit -/
  rejected : Bool := false
  deriving DecidableEq, Repr

/-- A key-log record (R291). -/
structure KeyLogRec where
  handle : Nat
  gen : Nat
  key : Option Key
  deriving DecidableEq, Repr

/-- A segment of the key log (R291), with the RootCheck and the KeyEra of the image key that sealed it; epoch 0 marks one that does
not check. It holds the records that end in it. -/
structure KeySeg where
  under : Bytes
  era : Nat
  epoch : Nat
  snapshot : Bool
  last : Bool
  recs : List KeyLogRec
  deriving DecidableEq, Repr

/-- The key log in flash, and its flush (R291). -/
structure KeyLog where
  /-- its two halves of 1,536 segments -/
  halfA : List KeySeg := []
  halfB : List KeySeg := []
  /-- the active half is B; 1 bit -/
  activeB : Bool := false
  /-- records appended and not yet durable -/
  queue : List KeyLogRec := []
  /-- failed attempts of this flush (R151); 0 to 3 -/
  tries : Nat := 0
  /-- device time before which no further attempt is made (R151) -/
  hold : Nat := 0
  /-- KeyLogState, OD 0x6021.02 (R296); 1 bit -/
  rejected : Bool := false
  deriving DecidableEq, Repr

/-- A BACKED entry (R268): generation, secret, and the leftmost 8 bytes of the CMAC over handle, generation and secret. -/
structure BackedEntry where
  gen : Nat
  secret : Bytes
  check : Bytes
  deriving DecidableEq, Repr

/-- A loader mark (R411): phase, part, next block, manifest digest, bays swapped, source. -/
structure LoaderMark where
  phase : Nat := 0
  part : Nat := 0
  next : Nat := 0
  manifest : Bytes := []
  bays : Nat := 0
  source : Bytes := []
  deriving DecidableEq, Repr

/-- The vault and what stands with it (R268): present fields, unmasked; their masks stand beside them (`Masks`). -/
structure Vault where
  /-- header magic (R268); 32 bits -/
  magic : Nat := 0
  /-- layout version (R268) -/
  layout : Nat := 0
  /-- RootState, OD 0x6000.01 (R296); 1 bit, true = absent -/
  rootAbsent : Bool := true
  /-- KeyEra, OD 0x6000.02 (R296); 32 bits -/
  keyEra : Nat := 0
  /-- RootCheck (R264); 8 bytes -/
  rootCheck : Bytes := []
  /-- SHA-256 of the certificate chain (R265); 32 bytes -/
  chainHash : Bytes := []
  /-- root K[0:63] (R264); 64 bytes -/
  root : Bytes := []
  /-- identity scalar d (R265); 48 bytes, and its check value -/
  idScalar : Bytes := []
  /-- leftmost 16 bytes of the CMAC of d (R268) -/
  idCheck : Bytes := []
  /-- JournalEpoch, OD 0x6020.02 (R156); 64 bits -/
  journalEpoch : Nat := 0
  /-- KeyLogEpoch, OD 0x6021.01 (R296); 64 bits -/
  keyLogEpoch : Nat := 0
  /-- FwSecurityVersionVault, OD 0xB000.09 (R415); 64 bits -/
  security : Nat := 0
  /-- progress mark of the loader at 0x0100 (R268, R411); 64 bytes -/
  mark : LoaderMark := {}
  /-- transition record at 0x0140 (R400): target, joint serial, device time -/
  transition : Option (Nat × Nat × Nat) := none
  /-- pending list (R268, R289): first word, of handle [17:0] and deletion mark [31], and generation; at most 512 -/
  pending : List (Nat × Nat) := []
  /-- BACKED entries by handle (R268), at most 1,024 -/
  backed : Map BackedEntry := []
  deriving DecidableEq, Repr

/-- Key stores of hub and control island. -/
structure Keys where
  /-- resident key slots by head handle (R204, R273); 262,144 × 64 B -/
  slots : Map Slot := []
  /-- EXT bits: extension handles with their head (R273); 262,144 bits -/
  ext : Map Nat := []
  /-- token cache (R209); 65,536 × 128 B -/
  cache : Map Way := []
  /-- derivation cache (R207, R208); 262,144 × 64 B -/
  deriv : Map Deriv := []
  /-- re-masking of slots and caches (R270) -/
  slotMask : Masks := {}
  /-- re-masking of the vault (R271) -/
  vaultMask : Masks := {}
  /-- the backup domain's mask register (R272); 256 bits -/
  nlfsr : Bytes := []
  /-- identity scalar in use: none before the vault check (R265) -/
  identity : Option Bytes := none
  /-- its public point x ‖ y, and the identity digest, OD 0x1000.03 (R265, R351); 96 and 32 bytes -/
  idPublic : Bytes := []
  idDigest : Bytes := []
  /-- substitute root under DEBUG (R294); 64 bytes -/
  subst : Option Bytes := none
  /-- volatile tenant counters under DEBUG (R294); 4,096 × 64 bits -/
  debugKum : Map Nat := []
  /-- key log (R291) -/
  log : KeyLog := {}
  /-- usage journal (R148 to R155) -/
  journal : Journal := {}
  deriving DecidableEq, Repr

/-! ## Routing memories -/

/-- A block of the prefix associative memory with its tag (R191, R192). -/
structure Block where
  part : Nat
  len : Nat
  since : Nat
  closed : Option Nat
  entries : List (List Nat × Nat)
  deriving DecidableEq, Repr

/-- A trie node (R195). -/
structure TNode where
  child : Option Nat := none
  route : Option Nat := none
  deriving DecidableEq, Repr

/-- A root slot of a trie partition (R196): base of the root array and the range of epochs it serves. -/
structure Root where
  part : Nat
  base : Nat
  since : Nat
  closed : Option Nat
  deriving DecidableEq, Repr

/-- Copies of one cut awaiting return (R202): time of the cut, blocks, and arrays by stage and base. -/
structure Ret where
  cutT : Nat
  blocks : List Nat
  arrays : List (Nat × Nat)
  deriving DecidableEq, Repr

structure Routes where
  /-- prefix associative memory and route word memory (R191, R192); 512 blocks × 256 entries -/
  blocks : Map Block := []
  /-- trie stage memories (R194, R195): arrays of ten nodes by stage × 65,536 + base -/
  arrays : Map (List TNode) := []
  /-- root slots (R196), two per partition -/
  roots : List Root := []
  /-- blocks and arrays that return to free 1,000 ns after their cut (R202) -/
  returns : List Ret := []
  deriving DecidableEq, Repr

/-! ## Operations -/

/-- Deadline classes (R42). -/
inductive DClass where
  | inlineC | express | standard | bulk
  deriving DecidableEq, Repr

/-- Engine kinds (R14). -/
inductive Kind where
  | bnc | cipher | lane | hub
  deriving DecidableEq, Repr

/-- A plan (R48): kind of engine, length L, charges per frame, core time, class, DMA bytes per frame and split. -/
structure Plan where
  kind : Kind := .hub
  w : Nat := 0
  len : Nat := 0
  charge : List Nat := []
  core : Nat := 0
  cls : DClass := .express
  dmaRead : Nat := 0
  dmaWrite : Nat := 0
  split : Nat := 1
  deriving DecidableEq, Repr

/-- The configuration record attached to an operation (R35, R37): what of the configuration its work reads. -/
structure Attach where
  epoch : Nat := 0
  tenant : Nat := 0
  part : Nat := 0
  matrix : Nat := 0
  fmt0Max : Nat := 12
  dukptCheck : Bool := true
  noncePrefix : Nat := 0
  termBase : Nat := 0
  termCount : Nat := 0
  derivMaxAge : Nat := 0
  tokenMaxAge : Nat := 0
  tokenQuota : Nat := 0
  tokenPolicy : Nat := 0
  ld : Nat := 0
  pasid : Nat := 0
  vector : Nat := 0
  /-- TenantAuthority of the instance's tenant (R280) -/
  authority : Nat := 0
  deriving DecidableEq, Repr

/-- What an operation will end with: status, output region bytes, result bytes, out_len, and the earliest device time at
which it may end (R173, R181, R183, R218). -/
structure Outcome where
  status : Nat
  out : Bytes := []
  res : Bytes := []
  outLen : Nat := 0
  due : Nat := 0
  /-- whether the operation has run: its round work started (R158) -/
  roundT : Option Nat := none
  /-- a self-check failure's cause (R230); 0 none -/
  selfFail : Nat := 0
  /-- derivation-cache rewrite at the completion (R179) -/
  deriv : Option (Nat × Deriv) := none
  /-- token to be inserted at the completion (R211) -/
  token : Option Token := none
  /-- the item of a key update message that was refused, and its handle (R436) -/
  item : Option (Nat × Nat) := none
  deriving DecidableEq, Repr

/-- The key work of an operation whose host input is still coming: the key with the value that its claim consumed (R57, R126, R146). -/
structure Job where
  key : Key
  v : Nat
  deriving DecidableEq, Repr

/-- Where an operation of a ring stands. -/
inductive Stage where
  /-- covered by a doorbell, not yet decided (R105) -/
  | covered
  /-- admitted to the hub: NOP or ROUTE_LOOKUP (R113) -/
  | atHub
  /-- admitted and booked (R52) -/
  | booked
  /-- its key fetch has been made and its outcome is fixed -/
  | running
  deriving DecidableEq, Repr

/-- A ring operation that the device owns (R105). -/
structure RingOp where
  count : Nat
  snap : Bytes
  /-- arrival of the covering doorbell at the port (R42) -/
  arr : Nat
  /-- admission round (R51) -/
  round : Nat
  stage : Stage := .covered
  att : Attach := {}
  plan : Plan := {}
  bay : Nat := 0xFF
  start : Nat := 0
  /-- its host data arrived after its booked time: it runs in background time (R57) -/
  suspended : Bool := false
  /-- route word found at admission (R189): not looked up, missed, found -/
  route : Option (Option Nat) := none
  /-- mismatched word among those that its route lookup read (R26, R28), of memory × 2^40 + word -/
  routeBad : Option Nat := none
  /-- start of the first segment (R218) -/
  t0 : Nat := 0
  outcome : Option Outcome := none
  /-- engines that hold its segments (R131, R139); of a BNC operation the producing engine, then the checking one (R228) -/
  engines : List Nat := []
  /-- the producing segment has ended and the check of R227 runs on the second BNC -/
  checking : Bool := false
  /-- no second BNC was free when the producing segment ended (R228) -/
  checkWaited : Bool := false
  /-- signing attempts made (R231) -/
  attempts : Nat := 0
  /-- host input bytes delivered by DMA (R126) -/
  input : Bytes := []
  /-- input bytes asked for (R126, R452) -/
  asked : Nat := 0
  /-- host reads of its input outstanding (R126, R313), oldest first: the device time at which each was issued (R453) -/
  asks : List Nat := []
  /-- what its segments work with while its input comes (R126) -/
  job : Option Job := none
  /-- output bytes that have gone to host memory (R126) -/
  sent : Nat := 0
  /-- all its output has gone to host memory (R126) -/
  written : Bool := false
  /-- the read-back of the last output byte is outstanding (R126), and when it was issued -/
  readBack : Bool := false
  backT : Nat := 0
  /-- DMA error seen (R127) -/
  dmaFault : Bool := false
  /-- key whose boundary reservation must be durable first (R149) -/
  waits : List Nat := []
  /-- bytes drawn from the bay's DRBG at the draw point (R249) -/
  drawn : Option Bytes := none
  /-- the message's signature has verified, and its cut has come (R311) -/
  kumVerified : Bool := false
  kumCutDone : Bool := false
  kumJoint : Option Nat := none
  /-- the operation is being ended by a squash once its reads retire (R311) -/
  squashed : Bool := false
  deriving DecidableEq, Repr

/-- Stage of an inline operation (R87). -/
inductive LaneStage where
  | toLookup | looked | packed
  deriving DecidableEq, Repr

/-- What the hub's chained lookup returned to a lane (R197). -/
structure LookRes where
  status : Nat := 0
  route : Nat := 0
  keyA : Option Key := none
  keyB : Option Key := none
  drawn : Option Bytes := none
  deriving DecidableEq, Repr

/-- An operation accepted by an inline lane (R36). -/
structure LaneOp where
  line : Bytes
  arr : Nat
  attachT : Nat
  att : Attach
  lane : Nat
  charge : Nat
  stage : LaneStage := .toLookup
  look : LookRes := {}
  outcome : Option Outcome := none
  waits : List Nat := []
  deriving DecidableEq, Repr

/-- A held read (R75): the master that issued it, its tag, its arrival at the hub, and the parity of the rule epoch at its check (R427). -/
structure Held where
  ld : Nat
  tag : Nat
  t : Nat
  parity : Nat := 0
  deriving DecidableEq, Repr

/-- Slot states (R73). -/
inductive SlotSt where
  | idle | pending | done
  deriving DecidableEq, Repr

/-- An inline slot (R68, R73) with its entry of the held-read table (R75). -/
structure InSlot where
  st : SlotSt := .idle
  req : Bytes := []
  result : Bytes := []
  held : Option Held := none
  op : Option LaneOp := none
  deriving DecidableEq, Repr

/-! ## Instances -/

/-- A capture of IPG_ERRCAP (R305); 128 bits. -/
structure ErrCap where
  value : Nat := 0
  ld : Nat := 0
  poison : Bool := false
  isRead : Bool := false
  off : Nat := 0
  time : Nat := 0
  deriving DecidableEq, Repr

/-- A reset in progress (R309 to R313): whether it squashes, its arrival, the drain deadline E, whether it ended a squash,
and whether the instance was freezing or frozen. -/
structure Reset where
  squash : Bool
  arr : Nat
  deadline : Nat
  didSquash : Bool
  toFrozen : Bool
  deriving DecidableEq, Repr

/-- A migration offer of this instance (R316). -/
structure Offer where
  bornT : Nat
  ready : Bool
  bytes : Bytes := []
  offerId : Bytes := []
  ecdh : Bytes := []
  kem : Bytes := []
  deriving DecidableEq, Repr

structure Inst where
  /-- InstanceState, STATE of IPG_STATUS (R301, R304): 0 to 5; 3 bits -/
  st : Nat := 0
  /-- FREEZE_DONE of IPG_STATUS (R304); 1 bit -/
  freezeDone : Bool := false
  /-- LAST_SQUASH of IPG_STATUS (R304); 1 bit -/
  lastSquash : Bool := false
  /-- RESET_DONE of IPG_STATUS (R304); 1 bit -/
  resetDone : Bool := false
  /-- reset in progress (R309 to R313) -/
  reset : Option Reset := none
  /-- submission bucket in units of 10^-9 token (R50) -/
  sub : Int := 0
  /-- core-time bucket in units of 10^-3 core-ns (R50, R95) -/
  core : Int := 0
  /-- device time to which the buckets are refilled (R308) -/
  bucketT : Nat := 0
  /-- deficit counter (R51), core-ns -/
  deficit : Nat := 0
  /-- submitted count S (R101); 16 bits -/
  s : Nat := 0
  /-- head count H (R101); 16 bits -/
  h : Nat := 0
  /-- ring entries (R98); 2,048 × 64 B -/
  ring : Map Bytes := []
  /-- operations the device owns (R105), by count order -/
  ops : List RingOp := []
  /-- staging pages (R98); 32 × 4 KiB, unlisted bytes read 0 -/
  staging : List Host.Cell := []
  /-- inline slots (R68); 1,024 × 128 B -/
  slots : Map InSlot := []
  /-- removed slots still PENDING (R71) -/
  leaving : List Nat := []
  /-- IPG_ERRCAP[k] with VALID bit k (R304, R305); 8 × 128 bits -/
  caps : Map ErrCap := []
  /-- IPG_ERRCAP_COUNT (R304); 32 bits -/
  capCount : Nat := 0
  /-- migration offer (R316) -/
  offer : Option Offer := none
  /-- save request staged (R317) and MigrateBlob (R319), with whether the blob is readable -/
  saveReq : Option Bytes := none
  blob : Option Bytes := none
  blobReady : Bool := false
  /-- configuration epoch of the save's cut (R318) -/
  saveEpoch : Nat := 0
  deriving DecidableEq, Repr

/-! ## Bays and admission -/

/-- Owner of a BNC's operand memory (R233). -/
inductive Owner where
  | nobody | tenant (t : Nat) | test
  deriving DecidableEq, Repr

/-- Content of an area of an engine's memory (R216, R235): zero, or what the work of that opcode or a test left, with the number of
the free values that its bytes are (log entry 3). -/
inductive Area where
  | zero | ofOp (op id : Nat) | test (id : Nat)
  deriving DecidableEq, Repr

/-- Memory of one engine. Of a BNC (R216): owner, key area, work area, I/O area; 32 KiB. Of a cipher engine (R131): key, state and
GHASH registers as `key`, its 16 KiB buffer as `io`. Of a lane (R30): registers as `key`, its 4 KiB buffer as `io`. -/
structure EngMem where
  owner : Owner := .nobody
  key : Area := .zero
  work : Area := .zero
  io : Area := .zero
  deriving DecidableEq, Repr

/-- A test running on one engine (R61, R62). -/
structure Test where
  engine : Nat
  reactive : Bool
  since : Nat
  deriving DecidableEq, Repr

/-- Why a bay is closing or out (R17, R65). -/
inductive BayOut where
  | inService | update | kat | katFailed | fault
  deriving DecidableEq, Repr

/-- A CTR_DRBG with its reserve (R247, R248, R250). -/
structure Drbg where
  /-- instantiated (R247); 1 bit -/
  inst : Bool := false
  /-- Key of SP 800-90A; 256 bits -/
  key : Bytes := []
  /-- V of SP 800-90A; 128 bits -/
  v : Bytes := []
  /-- DrbgCallsSinceReseed, OD 0x3020+b.02 (R262); 32 bits -/
  calls : Nat := 0
  /-- a reseed is requested (R250); 1 bit -/
  pending : Bool := false
  /-- seed blocks delivered for a reseed and not yet applied (R250) -/
  seed : Option Bytes := none
  /-- became exhausted while the conditioner was stopped (R252 c); 1 bit -/
  owed : Bool := false
  /-- random reserve (R248); 8 KiB -/
  reserve : Bytes := []
  /-- a refill call is under way (R248); 1 bit -/
  refill : Bool := false
  /-- its reserve has been filled since it was instantiated (R252); 1 bit -/
  filled : Bool := false
  deriving DecidableEq, Repr

structure Bay where
  /-- admission book (R46): 10,240 entries of 32 bits by frame mod 10,240; an unlisted entry is 0 -/
  book : Map Nat := []
  /-- BayState, OD 0x4010+b.01 (R67): 0 in service, 1 closing, 2 out -/
  st : Nat := 0
  /-- why it leaves (R17, R65) -/
  why : BayOut := .inService
  /-- engines out of service after a failed test, bit k (R66); 16 bits -/
  failed : Nat := 0
  /-- lag λ (R60), ns -/
  lag : Nat := 0
  /-- bay frame that runs (R60) -/
  frame : Nat := 0
  /-- BOOKED of device frames that have ended while the bay lags and whose bay frames have not, oldest first (R46, R60) -/
  past : List Nat := []
  /-- engine time that a reactive test already ended took from the bay frame that runs (R60, R61), ns -/
  gone : Nat := 0
  /-- LateCount, OD 0x4010+b.02 (R64); 64 bits -/
  late : Nat := 0
  /-- test running (R61, R62) -/
  test : Option Test := none
  /-- booked periodic test: its engine and its first frame (R62) -/
  testBook : Option (Nat × Nat) := none
  /-- device time of each engine's last test (R61, R159), by engine -/
  tested : Map Nat := []
  /-- engines awaiting a reactive test (R230, R61) -/
  testQueue : List Nat := []
  /-- memories of the bay's engines (R30, R131, R216), by engine -/
  mem : Map EngMem := []
  /-- random generator of the bay (R247) -/
  drbg : Drbg := {}
  deriving DecidableEq, Repr

/-- An inline lane (R36, R88): time of its last acceptance. -/
structure Lane where
  lastAccept : Option Nat := none
  deriving DecidableEq, Repr

structure Sched where
  /-- rotor of the BNC bays (R53) -/
  rotorBnc : Nat := 0
  /-- rotor of the cipher bays (R53) -/
  rotorCipher : Nat := 16
  /-- lane used last (R36); none after a start -/
  lastLane : Option Nat := none
  /-- inline lanes (R88), 16 -/
  lanes : Map Lane := []
  /-- instance that began the previous round's first pass (R51) -/
  drrStart : Option Nat := none
  /-- DMA books of each head (R57): read at 2h, write at 2h + 1, by frame -/
  dma : Map (Map Nat) := []
  /-- frames ended so far (R46) -/
  frameEnded : Nat := 0
  deriving DecidableEq, Repr

/-! ## Random island -/

/-- Units that take conditioned blocks (R246). -/
inductive Consumer where
  | root | inst (bay : Nat) | reseed (bay : Nat) | tableKey | evict | maskSlots | maskVault
  | jointNonce (slot : Nat) | debugNonce
  deriving DecidableEq, Repr

/-- A seed request (R246): priority, consumer, blocks wanted, blocks delivered. -/
structure SeedReq where
  prio : Nat
  who : Consumer
  need : Nat
  got : List Bytes := []
  deriving DecidableEq, Repr

/-- A noise channel (R239 to R243). -/
structure Chan where
  /-- ChannelState, OD 0x3002 (R262); 0 to 3 -/
  st : Nat := 0
  /-- ChannelFailCount, OD 0x3003 (R262); 32 bits -/
  fails : Nat := 0
  /-- failures since the last start (R242) -/
  failsStart : Nat := 0
  /-- windows completed since the island was enabled (R492); 64 bits -/
  windows : Nat := 0
  /-- in warm-up and start-up test (R243); 1 bit -/
  testing : Bool := false
  /-- time of the last failure (R242) -/
  failT : Nat := 0
  /-- value and length of the run of samples with which its last window ended (R240); none where none goes on -/
  run : Option (Bool × Nat) := none
  /-- cutoffs under which the window being filled is judged, where a cut has changed them since it began (R261) -/
  held : Option (Nat × Nat) := none
  deriving DecidableEq, Repr

structure Random where
  /-- random island enabled (R361 step 7); 1 bit -/
  on : Bool := false
  /-- noise channels 0 to 7 (R239) -/
  chans : Map Chan := []
  /-- conditioner stopped (R245); 1 bit -/
  stopped : Bool := true
  /-- device time at which the conditioner stopped, StopHoldMs counted from it (R256) -/
  stopT : Option Nat := none
  /-- held stopped to the next start after a failed known-answer test (R257); 1 bit -/
  katHold : Bool := false
  /-- replaced controller: StopHoldMs not counted (R259); 1 bit -/
  swapHold : Bool := false
  /-- ConditionedBlocks, OD 0x3001.03 (R262); 64 bits -/
  blocks : Nat := 0
  /-- ConditionerStops, OD 0x3001.04 (R262); 64 bits -/
  stops : Nat := 0
  /-- released windows waiting for the conditioner (R244) -/
  windows : List Bytes := []
  /-- seed requests in the order made (R246) -/
  reqs : List SeedReq := []
  /-- failure times within 600 s (R256) -/
  failTs : List Nat := []
  /-- table key of the token cache (R209); 256 bits -/
  tableKey : Option Bytes := none
  /-- seed of the hub's eviction generator (R211) and its draws since -/
  evictSeed : Option Bytes := none
  evictDraws : Nat := 0
  /-- SEEDING case (a) holds (R252); 1 bit -/
  awaiting : Bool := false
  /-- SEEDING has first ended since the island was enabled (R253); 1 bit -/
  seeded : Bool := false
  /-- conditioner known-answer test requested or running (R257); 1 bit -/
  katRunning : Bool := false
  /-- KatLastResult, OD 0x3004.02 (R262); 64 bits -/
  katLast : Nat := 0
  /-- channel under raw capture (R260), and the capture window of 64 KiB -/
  capture : Option Nat := none
  captured : Bytes := []
  deriving DecidableEq, Repr

/-! ## Joints -/

/-- State of a joint's prepare record (R343). -/
inductive Prep where
  | none | writing (since : Nat) | durable
  deriving DecidableEq, Repr

/-- A joint (R334 to R343). -/
structure Joint where
  /-- slot generation (R335); 10 bits -/
  gen : Nat := 0
  /-- JointState, OD 0xE010+j.02 (R351): 0 OPEN, 1 SEALED, 2 COMMITTED, 3 FAILED, 4 ABORTED -/
  st : Nat := 4
  /-- JointOpener, OD 0xE010+j.03 (R351); 16 bits -/
  opener : Nat := 0
  /-- path of the opener (R335) -/
  path : Path := .bare
  /-- role of the opener (R328) -/
  role : Nat := 0
  quorum : Bool := false
  /-- serial (R343); 64 bits -/
  serial : Nat := 0
  base : Nat := 0
  /-- nonce (R337); 32 bytes -/
  nonce : Bytes := []
  /-- the JOINT_OPEN whose reply waits for the nonce (R337) -/
  opening : Option KHdr := Option.none
  /-- staged records in staging order (R334) -/
  recs : List JRec := []
  /-- read set (R336): object keys, and partitions at 2^24 + p, with versions -/
  reads : List (Nat × Nat) := []
  /-- JointSignatures, OD 0xE010+j.04 (R351); 16 bits -/
  sigs : Nat := 0
  /-- signatures being verified (R338): custodian, signature, reply path and request id -/
  verifying : List (Nat × Bytes × KHdr) := []
  /-- device time of the last message (R335) -/
  lastMsg : Nat := 0
  /-- bytes of an incomplete image (R334): partition, bytes wanted, bytes staged -/
  image : Option (Nat × Nat × Nat) := Option.none
  prep : Prep := .none
  prepTries : Nat := 0
  /-- the commit that has begun (R340): header to reply to -/
  commit : Option KHdr := Option.none
  /-- device time at which its commit begins (R340) -/
  beginT : Nat := 0
  cutEpoch : Nat := 0
  cutT : Nat := 0
  final : Nat := 0
  /-- DURABLE (R343); 1 bit -/
  durable : Bool := false
  bytes : Nat := 0
  /-- nonce of the challenge that its verified DebugResponse answers (R406) -/
  chalNonce : Bytes := []
  deriving DecidableEq, Repr

structure Ctl where
  /-- configuration in force at the hub (R341) -/
  cfg : Cfg := {}
  /-- hub epoch register (R341, R345); 64 bits -/
  epoch : Nat := 0
  /-- open joints by slot (R335) -/
  joints : Map Joint := []
  /-- joints whose commit has begun, in the order they began (R340) -/
  commits : List Nat := []
  /-- saved instances as flash holds them while DEBUG changes volatile copies only (R318, R358) -/
  savedFlash : Map Inst := []
  /-- configuration log in flash (R343) -/
  cfgLog : List CfgEntry := []
  /-- segments of the configuration log's active half in use (R153, R291, R343) -/
  cfgLogUsed : Nat := 0
  /-- cut ring, device counters 3 to 50 (R343); 24 records -/
  cutRing : List CutRec := []
  /-- ConfigLogState, OD 0x1F00.03 (R351); 1 bit -/
  cfgRejected : Bool := false
  /-- epoch held by each island's copy (R347), 33 -/
  islandEpoch : Map Nat := []
  /-- SWEEP_FAIL of each island (R347); 33 bits -/
  sweepFail : Nat := 0
  /-- configuration of the previous epoch, as islands that have not yet switched hold it (R341, R348) -/
  prevCfg : Cfg := {}
  /-- device time of the last cut (R348) -/
  cutT : Nat := 0
  /-- backup-domain objects of the last cut not yet applied (R341); 1 bit -/
  backupPending : Bool := false
  /-- configuration as the backup domain holds it in its scope (R347, R348) -/
  backupCfg : Cfg := {}
  /-- ConfigDigest, LocalDigest, DigestEpoch (R346) -/
  digest : Bytes := []
  localDigest : Bytes := []
  digestEpoch : Nat := 0
  deriving DecidableEq, Repr

/-! ## Monitors and the backup domain -/

/-- State of one monitor (R350, R369). -/
structure Mon where
  /-- latch (R369); 1 bit -/
  latched : Bool := false
  /-- under test (R378); 1 bit -/
  testing : Bool := false
  /-- MonitorEvents, OD 0x2400+m.02 (R351); 64 bits -/
  events : Nat := 0
  /-- MonitorLastEventNs, OD 0x2400+m.03 (R351); 64 bits -/
  lastT : Nat := 0
  /-- MonitorTestResult, OD 0x2600+m.02 (R351); 64 bits -/
  result : Nat := 0
  deriving DecidableEq, Repr

structure Alarm where
  /-- monitors 0 to 13 (R350) -/
  mons : Map Mon := []
  /-- latch of the random island's alarm (R369); 1 bit -/
  random : Bool := false
  /-- latches set since the last decision (R373), with the detail of their records -/
  fresh : List (Nat × Bytes) := []
  /-- ExecutedClass, OD 0x2800.21 (R394); 0 to 5, 0xFF none -/
  executed : Nat := 0xFF
  /-- ALARM_N driven low (R377); 1 bit -/
  alarmN : Bool := false
  /-- tests waiting in the order of their cuts (R378) -/
  tests : List Nat := []
  /-- device time at which the running test began (R378) -/
  testT : Nat := 0
  /-- PLUMB raised by the most recent plumb run (R376); 1 bit -/
  plumbBad : Bool := false
  /-- a CLEAR-ROOT has been executed since the start (R340 step 1); 1 bit -/
  rootCleared : Bool := false
  deriving DecidableEq, Repr

/-- Latch register of the backup domain (R370): monitors, class executed, vault actions done (CLEAR-KEYS part, vault clear,
SCRAP mark). -/
structure LatchReg where
  mons : Nat := 0
  cls : Nat := 0xFF
  keysDone : Bool := false
  rootDone : Bool := false
  scrapDone : Bool := false
  deriving DecidableEq, Repr

/-- Enrolment record (R390). -/
structure EnvRec where
  serial : Bytes
  pubKey : Bytes
  identity : Bytes
  enrolled : Nat
  chargeUsed : Nat
  chargeFrac : Nat
  notes : Nat
  mesh : List (Nat × Nat)
  deriving DecidableEq, Repr

/-- A record of the event ring or the backup tail (R433): one part of 32 bytes. -/
structure EvRec where
  seq : Nat
  time : Nat
  code : Nat
  src : Nat
  flags : Nat
  args : Bytes
  deriving DecidableEq, Repr

structure Backup where
  /-- latch register (R370) -/
  latch : LatchReg := {}
  /-- EvrBackupTail (R440): records of the period, 1,024 × 32 B -/
  tail : List EvRec := []
  /-- records lost from the tail, and the code and the source of the last (R436, R440) -/
  tailLost : Nat := 0
  tailLostCode : Nat := 0
  tailLostSrc : Nat := 0
  /-- BallastMarks, OD 0xD000.0E (R387): 64 × 32 bits, in order written -/
  marks : List Nat := []
  /-- BallastMarksAcked, OD 0xD000.0F (R387); 64 bits -/
  marksAcked : Nat := 0
  /-- device time at entry to BACKUP (R385) -/
  entryT : Nat := 0
  /-- TAMPER_IN edge latches (R379); 4 bits -/
  edgeLatch : Nat := 0
  /-- TamperInEdges, OD 0x240A.04 to .07 (R394); 4 × 16 bits -/
  edges : Map Nat := []
  /-- TamperInLevels, OD 0x240A.08 (R394); 4 bits -/
  levels : Nat := 0
  /-- inputs already recorded since TAMPER_IN latched (R379); 4 bits -/
  tamperSeen : Nat := 0
  /-- consecutive failing checks per net (R367) -/
  meshFails : Map Nat := []
  /-- MeshNetFailMask, OD 0x2407.04 (R394); 4 bits -/
  meshMask : Nat := 0
  /-- mesh pattern generator (R380), and its reseeds -/
  pattern : Nat := 0
  patternSeeds : Nat := 0
  /-- Envelope contact closed (R367), Envelope seated is the enrolled one (R376) -/
  contact : Bool := false
  envGood : Bool := false
  /-- enrolment record (R390) -/
  env : Option EnvRec := none
  /-- EnvAuthCount, device counter 52 (R394); 64 bits -/
  authCount : Nat := 0
  /-- an authentication has failed once and is being retried (R381); 1 bit -/
  authRetry : Bool := false
  /-- EnvCellMv, OD 0xD000.08; EnvTemperatureDeciK, OD 0xD000.09 (R394); 16 bits each -/
  cellMv : Nat := 0
  tempDeciK : Nat := 0
  /-- remaining life set to 0 by a low cell voltage (R393); 1 bit -/
  lifeZero : Bool := false
  /-- service window: device time of its cut (R392) -/
  window : Option Nat := none
  deriving DecidableEq, Repr

/-! ## Event recorder -/

/-- Token bucket of an event code (R437): level in 10^-9 token, time of refill, events suppressed in the current second,
source of the last of them. -/
structure EvBucket where
  level : Nat
  t : Nat
  lost : Nat
  src : Nat
  deriving DecidableEq, Repr

structure Recorder where
  /-- event ring (R431): 65,536 × 32 B, oldest first -/
  ring : List EvRec := []
  /-- EvrHeadSeq, OD 0xC000.02 (R351); 64 bits -/
  head : Nat := 0
  /-- head at the last clear or at which the start resumed (R431) -/
  floor : Nat := 0
  /-- EvrSeqMark, device counter 54 (R432); 64 bits -/
  mark : Nat := 0
  /-- EvrSuppressed, OD 0xC000.06 (R351); 64 bits -/
  suppressed : Nat := 0
  /-- buckets of the codes that have one (R437) -/
  buckets : Map EvBucket := []
  /-- intake queue of 1,024 while the CC is replaced (R356), and of 64 before step 7 (R368) -/
  queue : List EvRec := []
  queueLost : Nat := 0
  deriving DecidableEq, Repr

/-! ## Life cycle, debug and firmware -/

/-- A row of life-cycle fuses (R396): six 32-bit words. -/
structure FuseRow where
  copy1 : Nat := 0
  copy2 : Nat := 0
  copy3 : Nat := 0
  beginMark : Nat := 0
  endMark : Nat := 0
  row : Nat := 0
  deriving DecidableEq, Repr

/-- A debug challenge (R404). -/
structure DebugChal where
  bytes : Bytes
  nonce : Bytes
  bornT : Nat
  scope : Nat
  ready : Bool
  /-- a response to it has verified (R404) -/
  answered : Bool := false
  deriving DecidableEq, Repr

structure Life where
  /-- fuse rows 0 to 3 (R396) -/
  rows : Map FuseRow := []
  /-- LifeCycleState, OD 0xA000.01 (R351): 0 to 5 -/
  st : Nat := 0
  /-- transition being burnt: target (R400) -/
  target : Option Nat := none
  /-- TransitionPending, OD 0xA000.03 (R351); 1 bit -/
  pending : Bool := false
  /-- LcFusesUnburnt, OD 0xA000.06 (R415); 16 bits -/
  unburnt : Nat := 0
  /-- DEBUG in effect (R352); 1 bit -/
  debug : Bool := false
  /-- DebugScopeGranted, OD 0xA001.05 (R415); 32 bits -/
  scope : Nat := 0
  /-- live challenge (R404) -/
  chal : Option DebugChal := none
  /-- DebugChallengeCount, device counter 53 (R404); 32 bits -/
  chalCount : Nat := 0
  /-- OTP security version thermometer (R413); 0 to 64 -/
  otpSecurity : Nat := 0
  /-- Debug Authority digest rows 0 to 3 in OTP, and the revocation fuses (R405); 4 × 256 and 4 bits -/
  authorityRows : List Bytes := [Config.authorityRow 0, Config.authorityRow 1, Config.authorityRow 2, Config.authorityRow 3]
  authorityRevoked : BitVec 4 := Config.authorityRevoked
  deriving DecidableEq, Repr

/-- A firmware part as loaded (R407, R415): version, security version, manifest digest. -/
structure FwPart where
  version : Nat := 0
  security : Nat := 0
  digest : Bytes := []
  deriving DecidableEq, Repr

structure Firmware where
  /-- manifest slots in flash (R465) by part -/
  slots : Map Bytes := []
  /-- parts as running (R415) -/
  parts : Map FwPart := []
  /-- blocks of each part's image in flash (R465): by part × 1,024 + block, digest of the block -/
  image : Map Bytes := []
  /-- staged manifest (R409) -/
  staged : Bytes := []
  /-- FwSource, OD 0xB000.02 (R415); 16 bytes -/
  source : Bytes := []
  /-- FwStageState, OD 0xB000.03 (R415); 0 to 3 -/
  stage : Nat := 0
  /-- FwStageBlocksChecked, OD 0xB000.04 (R415); 32 bits -/
  checked : Nat := 0
  /-- the block read has failed once (R409); 1 bit -/
  blockRetry : Nat := 0
  /-- FwActivationState, OD 0xB000.06 (R415); 0 to 4 -/
  act : Nat := 0
  /-- part mask of the committed activation (R410), 0 none -/
  mask : Nat := 0
  /-- LoaderPhase, OD 0x4004.05 (R365); 0 to 3 -/
  phase : Nat := 0
  /-- boot header in flash (R465): 64 KiB whose fields no rule of the manual reads -/
  header : Bytes := []
  /-- the two sectors of the flash mark with their sequence numbers (R411, R465) -/
  sectorA : Option (Nat × LoaderMark) := none
  sectorB : Option (Nat × LoaderMark) := none
  /-- the loader's own copy of its mark (R411): phase, part, next block, manifest digest, bays swapped, source -/
  markPhase : Nat := 0
  markPart : Nat := 0
  markNext : Nat := 0
  markDigest : Bytes := []
  baysSwapped : Nat := 0
  markSource : Bytes := []
  /-- recovery staging has named a source while no mark asks for a write to be resumed (R414); 1 bit -/
  recovery : Bool := false
  /-- parts swapped in this activation, bit p (R411) -/
  swapped : Nat := 0
  /-- part being replaced: 1 CC, 2 LM, 7 RNG_CTL, 8 BACKUP_PATCH (R356) -/
  replacing : Option Nat := none
  /-- device time at which its replacement began (R356) -/
  replaceT : Nat := 0
  deriving DecidableEq, Repr

/-! ## Access control -/

/-- ACU_CAPTURE (R425). -/
structure AcuCap where
  rule : Nat
  isRead : Bool
  master : Nat
  len : Nat
  addr : Nat
  epoch : Nat
  deriving DecidableEq, Repr

structure Acu where
  /-- active bank (R419): 256 × 128 bits, unlisted rules 0 -/
  active : Map Nat := []
  /-- shadow bank (R419) -/
  shadow : Map Nat := []
  /-- ACU_EPOCH (R425); 32 bits -/
  epoch : Nat := 0
  /-- DRAIN of ACU_CTRL (R425); 1 bit -/
  drain : Bool := false
  /-- ACU_CAPTURE with VALID (R425); 128 bits -/
  cap : Option AcuCap := none
  /-- ACU_COUNT (R425); 32 bits -/
  count : Nat := 0
  /-- DENIED of the TAP status (R424); 1 bit -/
  tapDenied : Bool := false
  /-- commit replies waiting for the drain (R341): header, epoch, time -/
  waiting : List (KHdr × Nat × Nat) := []
  deriving DecidableEq, Repr

/-! ## Link -/

structure Head where
  /-- HeadLinkState, OD 0x1110+h.01 (R467); 0 to 3 -/
  st : Nat := 0
  /-- HeadSpeedGTs, OD 0x1110+h.02 (R467) -/
  speed : Nat := 0
  /-- HeadWidth, OD 0x1110+h.03 (R467) -/
  width : Nat := 0
  /-- IDE stream keys of CXL.io and CXL.mem (R460) -/
  ideIo : Option Bytes := none
  ideMem : Option Bytes := none
  /-- LinkDownCount, OD 0x1110+h.06 (R467); 64 bits -/
  downs : Nat := 0
  /-- LD count (R445) and the count that applies at the next conventional reset (R462) -/
  lds : Nat := 16
  ldsNext : Nat := 16
  /-- PERST_N[h] asserted (R449); 1 bit -/
  perst : Bool := true
  /-- DMA book capacity and the frame from which it holds (R454) -/
  dmaCap : Nat := 0
  dmaFrom : Nat := 0
  dmaCapOld : Nat := 0
  /-- CDAT sequence number (R459) -/
  cdat : Nat := 0
  /-- DevLoad of the last 1,024 frames (R462), newest first -/
  load : List Nat := []
  deriving DecidableEq, Repr

/-- A secured session (R458): role, transport, roster code of JointOpener, time of the last heartbeat. -/
structure Session where
  role : Nat
  tr : Transport
  opener : Nat
  beat : Nat
  deriving DecidableEq, Repr

structure Link where
  heads : Map Head := []
  /-- split in force (R442); 0 to 2 -/
  split : Nat := 0
  /-- committed HDM decoders (R446): base by LD -/
  hdm : Map Nat := []
  /-- decoders whose Error Not Committed bit is set (R446), bit per LD -/
  hdmError : Nat := 0
  /-- unmasked MSI-X entries (R451), by LD × 2,048 + entry -/
  msixOpen : Map Bool := []
  /-- pending bits (R451) -/
  msixPend : Map Bool := []
  /-- message address and data of the MSI-X entries (R451), which host software writes, by LD × 2,048 + entry -/
  msixTable : Map (Nat × Nat) := []
  /-- secured sessions (R458), at most 8 -/
  sessions : Map Session := []
  /-- I3cDynamicAddress, OD 0x1130.01 (R467); 7 bits -/
  i3c : Nat := 0
  /-- MctpEid, OD 0x1130.02 (R467); 8 bits -/
  eid : Nat := 0
  /-- FlashDensityMbit, OD 0x1100.03 (R467) -/
  flashMbit : Nat := 0
  /-- stopped island clocks (R22): by island of R347, device time of the stop plus one -/
  clockStops : Map Nat := []
  /-- words that stand in the channels of stopped islands, oldest first (R22): the commands that brought them -/
  stalled : List Instr := []
  /-- messages of the outbox from this one on stand in the channels to the link island, whose clock is stopped (R22) -/
  outMark : Option Nat := none
  /-- Device Control of each LD's function (R452): Max_Read_Request_Size and Max_Payload_Size, bytes, at most 4,096 and 512 -/
  readSize : Map Nat := []
  payload : Map Nat := []
  /-- completion timeout of each LD's function, Device Control 2 (R453), ns; 50 us to 250 ms -/
  timeouts : Map Nat := []
  deriving DecidableEq, Repr

/-! ## What the device sends -/

/-- Messages the device sends to the outside. -/
inductive Out where
  /-- a DMA read of host memory: LD, PASID, address, octets (R126) -/
  | dmaRead (ld pasid addr len : Nat)
  /-- a DMA write to host memory (R126) -/
  | dmaWrite (ld pasid addr : Nat) (data : Bytes)
  /-- an answered CXL.mem read, with its DevLoad (R448) -/
  | read (ld tag load : Nat) (data : Bytes)
  /-- a read answered as poison (R299, R424) -/
  | poison (ld tag load : Nat)
  /-- completion of a MemInv or of a write (R447, R424) -/
  | done (ld tag load : Nat)
  /-- MSI-X message (R124, R451) -/
  | msix (ld vector : Nat)
  /-- Kallek reply (R332): the request's header, message code, status, body -/
  | kallek (h : KHdr) (op status : Nat) (body : Bytes)
  /-- SPDM or DOE answer: transport, name, fields -/
  | spdm (tr : Transport) (name : String) (body : Bytes)
  /-- mailbox or FM API answer: LD or FM, return code name, payload -/
  | mailbox (ld : Option Nat) (code : String) (body : Bytes)
  /-- configuration request answered, with Memory_Active and Memory_Active_Timeout, in s, of the device DVSEC, or Request Retry Status
  (R362, R450) -/
  | config (h tag : Nat) (retry memActive : Bool) (timeoutS : Nat)
  /-- MCTP control answer (R463) -/
  | mctp (name : String) (body : Bytes)
  /-- data of a debug read (R424) -/
  | debugRead (addr : Nat) (words : Bytes) (denied : Bool)
  /-- the binding value is written into the empty field of the Envelope with that serial (R391) -/
  | envBind (serial value : Bytes)
  deriving DecidableEq, Repr

/-- Attributes of a host-memory access (R452). -/
structure DmaAttrs where
  /-- a PASID prefix is sent -/
  prefixed : Bool
  relaxed : Bool
  noSnoop : Bool := false
  privileged : Bool := false
  execute : Bool := false
  deriving DecidableEq, Repr

/-- The attributes with which the DMA engine issues an access (R452). -/
def Out.dmaAttrs : Out → Option DmaAttrs
  | .dmaRead _ pasid _ _ => some { prefixed := pasid != 0, relaxed := true }
  | .dmaWrite _ pasid _ _ => some { prefixed := pasid != 0, relaxed := false }
  | .read _ _ _ _ => none
  | .poison _ _ _ => none
  | .done _ _ _ => none
  | .msix _ _ => none
  | .kallek _ _ _ _ => none
  | .spdm _ _ _ => none
  | .mailbox _ _ _ => none
  | .config _ _ _ _ _ => none
  | .mctp _ _ => none
  | .debugRead _ _ _ => none
  | .envBind _ _ => none

/-- A memory of programs and their data (R30), whose content the manual leaves to the image that is loaded: the number of the free values
that its bytes are (log entry 3), and bytes written over them. -/
structure Store where
  id : Nat := 0
  written : List Host.Cell := []
  deriving DecidableEq, Repr

/-- The machine. -/
structure State where
  /-- device time, ns (R6, R45); 64 bits -/
  now : Nat := 0
  power : Power := {}
  ctl : Ctl := {}
  vault : Vault := {}
  keys : Keys := {}
  routes : Routes := {}
  /-- instance contexts (R301), by instance number; an unlisted instance is UNASSIGNED -/
  insts : Map Inst := []
  /-- bays 0 to 27 (R14) -/
  bays : Map Bay := []
  sched : Sched := {}
  random : Random := {}
  alarm : Alarm := {}
  backup : Backup := {}
  evr : Recorder := {}
  life : Life := {}
  fw : Firmware := {}
  acu : Acu := {}
  link : Link := {}
  /-- dictionary counters of class V (R67, R97, R130, R156, R186, R214, R238, R296, R351), by key; unlisted counters read
  their default -/
  cnt : Map Nat := []
  /-- tenant KUM counters (R30, R288); 4,096 × 64 bits -/
  kumCtr : Map Nat := []
  /-- device counters kept by number (R268, R343): 0 KeyClock, 1 ConfigEpoch, 2 JointSerial, 51 ConfigLogEpoch; 64 bits -/
  devCtr : Map Nat := []
  /-- stored words whose integrity code does not match (R25 to R29): by memory × 2^40 + word, what their code differs by -/
  bad : Map Nat := []
  /-- words whose last source is not the one their memory usually has: first word's key, words, island (R26, R28) -/
  writers : List (Nat × Nat × Nat) := []
  /-- program memories (R30), by number: 2b the sequencer memory of bay b, 2b + 1 its microcode store, 64 the custody controller's memory,
  65 the Link Manager's, 66 the loader SRAM -/
  stores : Map Store := []
  /-- what the device has sent, oldest first -/
  outbox : List Out := []
  /-- the model's own counter of free values drawn (log entry 3) -/
  free : Nat := 0
  /-- commands waiting, first in first out -/
  pending : List Instr := []
  deriving DecidableEq, Repr

/-- The machine right after reset: a die as it leaves the wafer, life-cycle state RAW, main power absent, no Envelope
seated, every object at its default (log entry 4). -/
def State.reset : State := {}

end Sys2Proof.Machine
end

