-- ==== Sys2Proof/Machine/Ops.lean ====
section
/-! DEFINITION. The named operations over the state's tables and registers: sparse maps in canonical form, byte memories,
device time, the outbox, counters of the dictionary, per-instance and per-bay access. -/

namespace Sys2Proof.Machine

/-! ## Sparse maps -/

/-- What a key reads as; `d` is what unlisted keys hold. -/
def mget {β : Type} (d : β) (m : Map β) (k : Nat) : β :=
  match m with
  | [] => d
  | (k', v) :: rest => if k' = k then v else mget d rest k

/-- The entry of a key, if listed. -/
def mfind {β : Type} (m : Map β) (k : Nat) : Option β :=
  match m with
  | [] => none
  | (k', v) :: rest => if k' = k then some v else mfind rest k

/-- The map without a key. -/
def mdel {β : Type} (m : Map β) (k : Nat) : Map β :=
  match m with
  | [] => []
  | (k', v) :: rest => if k' = k then mdel rest k else (k', v) :: mdel rest k

/-- The map with a key listed, in place. -/
def mput {β : Type} (m : Map β) (k : Nat) (v : β) : Map β :=
  match m with
  | [] => [(k, v)]
  | (k', v') :: rest =>
    if k' < k then (k', v') :: mput rest k v
    else if k' = k then (k, v) :: rest
    else (k, v) :: (k', v') :: rest

/-- A write in canonical form: a key written to what it reads as unlisted is not listed. -/
def mset {β : Type} [DecidableEq β] (d : β) (m : Map β) (k : Nat) (v : β) : Map β :=
  if v = d then mdel m k else mput m k v

/-- The map that lists what a list of keys and contents lists. -/
def mofList {β : Type} (l : List (Nat × β)) : Map β := l.foldr (fun e m => mput m e.1 e.2) []

/-- Change of one key's content. -/
def mmod {β : Type} [DecidableEq β] (d : β) (m : Map β) (k : Nat) (f : β → β) : Map β :=
  mset d m k (f (mget d m k))

/-- Keys strictly rising. -/
def mrising {β : Type} : Map β → Bool
  | [] => true
  | [_] => true
  | (k, _) :: (k', v') :: rest => decide (k < k') && mrising ((k', v') :: rest)

/-- The canonical form: keys strictly rising and no key listed with what it reads as unlisted. -/
def mwf {β : Type} [DecidableEq β] (d : β) (m : Map β) : Bool :=
  mrising m && m.all (fun e => decide (e.2 ≠ d))

/-! ## Byte memories -/

/-- Memory in the form of the host's cells: what an unlisted address reads as is 0, the staging pool's content when pages
are assigned (R99). -/
def Memory.read (m : List Host.Cell) (a : Nat) : Byte := mget 0 m a

def Memory.write (m : List Host.Cell) (a : Nat) (b : Byte) : List Host.Cell := mset 0 m a b

def Memory.readN (m : List Host.Cell) (a : Nat) : Nat → Bytes
  | 0 => []
  | n + 1 => Memory.read m a :: Memory.readN m (a + 1) n

def Memory.writeN (m : List Host.Cell) (a : Nat) : Bytes → List Host.Cell
  | [] => m
  | b :: bs => Memory.writeN (Memory.write m a b) (a + 1) bs

/-- The canonical form of a memory. -/
def Memory.wf (m : List Host.Cell) : Bool := mwf (0 : Byte) m

/-! ## Device time, free values, outbox -/

/-- The event falls at device time `t`, a count of 64 bits (R6); device time never runs back. -/
def at_ (s : State) (t : Nat) : State := { s with now := max s.now (t % 2 ^ 64) }

/-- A message leaves the device. -/
def emit (s : State) (o : Out) : State := { s with outbox := s.outbox ++ [o] }

/-! ## Dictionary keys and counters -/

/-- Key of OD index.sub. -/
def odKey (index sub : Nat) : Nat := index * 256 + sub

/-- Key of subindex `sub` of instance i's index (R349). -/
def instKey (i sub : Nat) : Nat := odKey (0x8000 + i) sub

/-- A counter of the dictionary. -/
def counter (s : State) (key : Nat) : Nat := mget 0 s.cnt key

/-- A counter advanced by `n`, modulo 2^64. -/
def bumpBy (s : State) (key n : Nat) : State :=
  { s with cnt := mmod 0 s.cnt key (fun v => (v + n) % 2 ^ 64) }

/-- A counter advanced by one. -/
def bump (s : State) (key : Nat) : State := bumpBy s key 1

def setCounter (s : State) (key v : Nat) : State := { s with cnt := mset 0 s.cnt key v }

/-- A device counter kept by number (R268, R343). -/
def devCounter (s : State) (n : Nat) : Nat := mget 0 s.devCtr n

def setDevCounter (s : State) (n v : Nat) : State := { s with devCtr := mset 0 s.devCtr n v }

/-- KeyClock in seconds (R268). -/
def keyClock (s : State) : Nat := devCounter s 0

/-! ## Instances -/

def getInst (s : State) (i : Nat) : Inst := mget {} s.insts i

def setInst (s : State) (i : Nat) (x : Inst) : State := { s with insts := mset {} s.insts i x }

def modInst (s : State) (i : Nat) (f : Inst → Inst) : State := setInst s i (f (getInst s i))

def getSlot (x : Inst) (n : Nat) : InSlot := mget {} x.slots n

def setSlot (x : Inst) (n : Nat) (v : InSlot) : Inst := { x with slots := mset {} x.slots n v }

/-- The operation of count `c` that the device owns. -/
def findOp (x : Inst) (c : Nat) : Option RingOp := x.ops.find? (fun o => o.count == c)

/-- The operation of that count replaced. -/
def setOp (x : Inst) (o : RingOp) : Inst :=
  { x with ops := x.ops.map (fun o' => if o'.count == o.count then o else o') }

def dropOp (x : Inst) (c : Nat) : Inst := { x with ops := x.ops.filter (fun o => o.count != c) }

/-! ## Bays, heads, monitors -/

def getBay (s : State) (b : Nat) : Bay := mget {} s.bays b

def setBay (s : State) (b : Nat) (x : Bay) : State := { s with bays := mset {} s.bays b x }

def modBay (s : State) (b : Nat) (f : Bay → Bay) : State := setBay s b (f (getBay s b))

def getHead (s : State) (h : Nat) : Head := mget {} s.link.heads h

def modHead (s : State) (h : Nat) (f : Head → Head) : State :=
  { s with link := { s.link with heads := mmod {} s.link.heads h f } }

def getMon (s : State) (m : Nat) : Mon := mget {} s.alarm.mons m

def modMon (s : State) (m : Nat) (f : Mon → Mon) : State :=
  { s with alarm := { s.alarm with mons := mmod {} s.alarm.mons m f } }

def getChan (s : State) (n : Nat) : Chan := mget {} s.random.chans n

def modChan (s : State) (n : Nat) (f : Chan → Chan) : State :=
  { s with random := { s.random with chans := mmod {} s.random.chans n f } }

def getJoint (s : State) (j : Nat) : Joint := mget {} s.ctl.joints j

def setJoint (s : State) (j : Nat) (x : Joint) : State :=
  { s with ctl := { s.ctl with joints := mset {} s.ctl.joints j x } }

def modJoint (s : State) (j : Nat) (f : Joint → Joint) : State := setJoint s j (f (getJoint s j))

/-! ## Kinds of bays (R14, R15) -/

def isBncBay (b : Nat) : Bool := b < 16
def isCipherBay (b : Nat) : Bool := 16 ≤ b && b < 24
def isInlineBay (b : Nat) : Bool := 24 ≤ b && b < 28

/-- Engines of a bay when all are in service (R14). -/
def engineCount (b : Nat) : Nat := if isBncBay b then 8 else if isCipherBay b then 16 else 4

def kindOfBay (b : Nat) : Kind := if isBncBay b then .bnc else if isCipherBay b then .cipher else .lane

/-- Number of set bits among the lowest `n`. -/
def popCount (n v : Nat) : Nat := ((upTo n).filter (bitOf v)).length

/-- An engine of a bay is in service (R66). -/
def engineUp (b : Nat) (x : Bay) (k : Nat) : Bool := decide (k < engineCount b) && !bitOf x.failed k

/-- Engines in service, e of R47. -/
def enginesInService (s : State) (b : Nat) : Nat := engineCount b - popCount (engineCount b) (getBay s b).failed

/-- Host reads of its input that an operation has outstanding (R126). -/
def RingOp.reads (o : RingOp) : Nat := o.asks.length

/-! ## Island clocks (R22, R347) -/

/-- Islands by the numbers of R347; bay b is island 5 + b. -/
def islControl : Nat := 0
def islLink : Nat := 1
def islHub : Nat := 2
def islRandom : Nat := 3

/-- The clock of an island runs. -/
def islandRuns (s : State) (k : Nat) : Bool := mget 0 s.link.clockStops k == 0

/-- A word that meets a stopped clock stays in its channel until the clock returns (R22). -/
def stall (s : State) (c : Instr) : State := { s with link := { s.link with stalled := s.link.stalled ++ [c] } }

/-- A word that a command brings from an island, or from outside, to other islands: it leaves only an island whose clock runs, and
waits for a sink whose clock has stopped (R22). -/
def crossing (s : State) (source sink : List Nat) (c : Instr) (f : State → State) : State :=
  if source.all (islandRuns s) = false then s
  else if sink.all (islandRuns s) then f s
  else stall s c

/-- An event inside islands whose clocks run; where one has stopped it does not take place (R22; log entry 201). -/
def clocked (s : State) (islands : List Nat) (f : State → State) : State := if islands.all (islandRuns s) then f s else s

/-- The clock of a bay's island runs. -/
def bayClockRuns (s : State) (b : Nat) : Bool := islandRuns s (5 + b)

/-! ## The fabric integrity code (R25 to R29) -/

/-- Positions 1 to 71 of the extended Hamming code that are no power of 2: those of the 64 data bits, in order (R25). DESIGN CHOICE
(log entry 191): the manual names the code and not the arrangement of its columns; this is the textbook one. -/
def codePositions : List Nat := (upTo 72).filter (fun p => !(0 :: (upTo 7).map (2 ^ ·)).contains p)

/-- The check bits that a data bit at a position takes part in: seven of the position, one of overall parity. -/
def codeColumn (p : Nat) : Nat := p + 128 * ((1 + popCount 7 p) % 2)

/-- The eight check bits of a 64-bit word: a (72,64) extended Hamming code over its data bits (R25). -/
def fabricCode (d : Nat) : Nat :=
  (codePositions.zipIdx).foldl (fun c e => if bitOf d e.2 then Nat.xor c (codeColumn e.1) else c) 0

/-- Memories by their row of R30. -/
def memSlots : Nat := 0
def memCache : Nat := 1
def memDeriv : Nat := 2
def memRoutes : Nat := 4
def memTrie : Nat := 5
def memRing : Nat := 6
def memInline : Nat := 7
def memStaging : Nat := 8
def memBnc : Nat := 11
def memCipher : Nat := 12
def memLane : Nat := 14
def memJoints : Nat := 17
def memLoader : Nat := 19

/-- Key of a word of a memory among the mismatched ones. -/
def wordKey (mem w : Nat) : Nat := mem * 2 ^ 40 + w

/-- The code that a memory holds with a word of data `d`: the code its source made, unless the stored 72 bits have changed since
(R27). -/
def storedCode (s : State) (mem w d : Nat) : Nat := Nat.xor (fabricCode d) (mget 0 s.bad (wordKey mem w))

/-- A sink that reads the word finds a mismatch (R26, R28). -/
def wordFails (s : State) (mem w d : Nat) : Bool := storedCode s mem w d != fabricCode d

/-- One of `n` words from `w` on is mismatched: what a sink finds that reads them (R28, R29). -/
def wordsFail (s : State) (mem w n : Nat) : Bool :=
  s.bad.any (fun e => decide (wordKey mem w ≤ e.1) && decide (e.1 < wordKey mem w + n))

/-- Slots and caches are re-masked together (R271). -/
def memMasked (mem : Nat) : Bool := decide (mem ≤ 2)

/-- The mask word of the idle phase: what a running pass has taken, none while it waits (R270). -/
def idleWord (m : Masks) : Bytes := if m.phase then m.w0 else m.w1

/-- An entry is written: it stands under a word of the memory again, and under the new one, so that the pass skips it, once a running
pass has taken its word (R270). -/
def maskWrite (m : Masks) (key : Nat) : Masks :=
  let m := { m with stale := mdel m.stale key }
  if m.running ∧ idleWord m ≠ [] ∧ m.fresh.contains key = false then { m with fresh := m.fresh ++ [key] } else m

/-- Words of an entry of a masked memory of the hub. -/
def entryWords (mem : Nat) : Nat := if mem = memCache then 16 else 8

/-- A write of entries of the masked memories of the hub (R270). -/
def noteFresh (s : State) (mem w n : Nat) : State :=
  if memMasked mem then
    let m := (upTo (ceilDiv n (entryWords mem))).foldl (fun m j => maskWrite m (wordKey mem (w + entryWords mem * j))) s.keys.slotMask
    { s with keys := { s.keys with slotMask := m } }
  else s

/-- A write of a BACKED entry of the vault (R270). -/
def noteVault (s : State) (h : Nat) : State := { s with keys := { s.keys with vaultMask := maskWrite s.keys.vaultMask h } }

/-- Spans of words that a write of `n` words from a key on leaves to their source. -/
def keepWriters (l : List (Nat × Nat × Nat)) (k n : Nat) : List (Nat × Nat × Nat) :=
  l.filter (fun e => decide (e.1 + e.2.1 ≤ k) || decide (k + n ≤ e.1) || decide (e.1 < k) || decide (k + n < e.1 + e.2.1))

/-- A source writes `n` words: each takes the code of its new content (R27, R29). -/
def writeWords (s : State) (mem w n : Nat) : State :=
  noteFresh { s with bad := s.bad.filter (fun e => decide (e.1 < wordKey mem w) || decide (wordKey mem w + n ≤ e.1)) } mem w n

/-- The source of the words that follow is an island: the latest write of a word comes first (R26). -/
def noteWriter (s : State) (mem w n island : Nat) : State :=
  if n = 0 ∨ (s.writers = [] ∧ island = islLink) then s
  else { s with writers := (wordKey mem w, n, island) :: keepWriters s.writers (wordKey mem w) n }

/-- The island whose unit wrote a word last; `usual` where none other is noted (R28). -/
def writerOf (s : State) (key usual : Nat) : Nat :=
  ((s.writers.find? (fun e => decide (e.1 ≤ key) && decide (key < e.1 + e.2.1))).map (·.2.2)).getD usual

/-- The first mismatched word among `n` from `w` on. -/
def badWord (s : State) (mem w n : Nat) : Option Nat :=
  (s.bad.find? (fun e => decide (wordKey mem w ≤ e.1) && decide (e.1 < wordKey mem w + n))).map (·.1)

/-- The stored 72 bits of a word differ from what their source wrote by a syndrome. -/
def spoilWord (s : State) (mem w syndrome : Nat) : State :=
  { s with bad := mset 0 s.bad (wordKey mem w) (Nat.xor (mget 0 s.bad (wordKey mem w)) (syndrome % 256)) }

/-- Word addresses: 8 to a key slot or an entry of a ring, 16 to a way of the token cache or an inline slot, 8 to a derivation
entry; a ring, an instance's slots and its staging area take 16,384 words each. -/
def slotWord (h : Nat) : Nat := 8 * h
def wayWord (x : Nat) : Nat := 16 * x
def derivWord (term : Nat) : Nat := 8 * term
def ringWord (i e : Nat) : Nat := 16384 * i + 8 * e
def inlineWord (i n : Nat) : Nat := 16384 * i + 16 * n
def stagingWord (i off : Nat) : Nat := 16384 * i + off / 8

/-- Memory, first word and words of engine k of bay b: 32 KiB to a BNC, 16 KiB to a cipher engine, 4 KiB to a lane (R30). -/
def engineWords (b k : Nat) : Nat × Nat × Nat :=
  if isBncBay b then (memBnc, 4096 * (8 * b + k), 4096)
  else if isCipherBay b then (memCipher, 2048 * (16 * (b - 16) + k), 2048)
  else (memLane, 512 * (4 * (b - 24) + k), 512)

/-- A word of the memory of an engine is mismatched (R216). -/
def engineFails (s : State) (b k : Nat) : Bool := wordsFail s (engineWords b k).1 (engineWords b k).2.1 (engineWords b k).2.2

/-- An engine writes all of its memory (R27). -/
def writeEngine (s : State) (b k : Nat) : State := writeWords s (engineWords b k).1 (engineWords b k).2.1 (engineWords b k).2.2

/-- Words of the joint staging store: 2 MiB of words to a joint slot (log entry 230). -/
def jointWord (j : Nat) : Nat := 2 ^ 21 * j

/-! ## Engine memories (R131, R133, R216) -/

/-- Number of a new content of an engine's memory (log entry 3). -/
def freshArea (s : State) : Nat × State := (s.free, { s with free := s.free + 1 })

/-- What an area reads as at an offset. -/
def areaRead (a : Area) (off : Nat) : Byte :=
  match a with
  | .zero => 0
  | .ofOp _ id => Config.areaByte id off
  | .test id => Config.areaByte id off

/-- A program memory takes a new content (R30). -/
def reload (s : State) (n : Nat) : State :=
  let (id, s) := freshArea s
  { s with stores := mput s.stores n { id := id } }

/-- Apply a state change for each element of a list, in order. -/
def each {α : Type} (xs : List α) (s : State) (f : State → α → State) : State := xs.foldl f s

end Sys2Proof.Machine
end

