-- ==== Sys2Proof/Machine/Settings.lean ====
section
/-! DEFINITION. Values of the objects that joints write, as the hub's copy of the configuration holds them: an object never
written holds its default (R327). -/

namespace Sys2Proof.Machine

open Sys2Proof

/-- The value of a numeric object of a configuration; `d` is its default. -/
def setting (c : Cfg) (index sub d : Nat) : Nat := (mfind c.vals (odKey index sub)).getD d

/-- An object of instance i (R349). -/
def instSetting (c : Cfg) (i sub d : Nat) : Nat := setting c (0x8000 + i) sub d

/-- An octet string object. -/
def octets (c : Cfg) (index sub : Nat) : Bytes := (mfind c.octs (odKey index sub)).getD []

/-! ## Defaults of R67, R130, R97, R186, R214, and the objects that name them -/

def bookingCap (c : Cfg) : Nat := setting c 0x4000 0x03 900
/-- A rate or weight of instance i: 0 stands for the default under OD 0x4002 (R307). -/
def rateSetting (c : Cfg) (i sub defSub d : Nat) : Nat :=
  let v := instSetting c i sub 0
  if v = 0 then setting c 0x4002 defSub d else v

def schedWeight (c : Cfg) (i : Nat) : Nat := rateSetting c i 0x60 0x01 16
def submitRate (c : Cfg) (i : Nat) : Nat := rateSetting c i 0x61 0x02 2000000
def submitBurst (c : Cfg) (i : Nat) : Nat := rateSetting c i 0x62 0x03 8192
def coreRate (c : Cfg) (i : Nat) : Nat := rateSetting c i 0x63 0x04 16000
def coreBurst (c : Cfg) (i : Nat) : Nat := rateSetting c i 0x64 0x05 20000

def instTenant (c : Cfg) (i : Nat) : Nat := instSetting c i 0x01 0xFFFF
def instLd (c : Cfg) (i : Nat) : Nat := instSetting c i 0x02 0xFF
def instArea (c : Cfg) (i : Nat) : Nat := instSetting c i 0x03 0
def instPasid (c : Cfg) (i : Nat) : Nat := instSetting c i 0x05 0

def ringEntries (c : Cfg) (i : Nat) : Nat := instSetting c i 0x10 0
def stagingPages (c : Cfg) (i : Nat) : Nat := instSetting c i 0x11 0
def ringVector (c : Cfg) (i : Nat) : Nat := instSetting c i 0x12 0
def inlineSlots (c : Cfg) (i : Nat) : Nat := instSetting c i 0x20 0
def idleHold (c : Cfg) (i : Nat) : Nat := instSetting c i 0x21 400

def pinMatrix (c : Cfg) (i : Nat) : Nat := instSetting c i 0x40 (setting c 0x6030 0x01 0xDDFD)
def fmt0MaxPin (c : Cfg) (i : Nat) : Nat := instSetting c i 0x41 (setting c 0x6030 0x02 12)
def dukptCheck (c : Cfg) (i : Nat) : Nat := instSetting c i 0x42 (setting c 0x6030 0x03 1)

def routePartition (c : Cfg) (i : Nat) : Nat := instSetting c i 0x50 0
def derivTermBase (c : Cfg) (i : Nat) : Nat := instSetting c i 0x51 0
def derivTermCount (c : Cfg) (i : Nat) : Nat := instSetting c i 0x52 0
def derivMaxAge (c : Cfg) (i : Nat) : Nat := instSetting c i 0x53 86400
def tokenMaxAge (c : Cfg) (i : Nat) : Nat := instSetting c i 0x54 3600
def tokenPolicy (c : Cfg) (i : Nat) : Nat := instSetting c i 0x55 1
def tokenQuota (c : Cfg) (i : Nat) : Nat := instSetting c i 0x56 16

def partOwner (c : Cfg) (p : Nat) : Nat := setting c 0x5050 p 0xFFFF
def partForm (c : Cfg) (p : Nat) : Nat := setting c 0x5051 p 0

/-- TenantAuthority of tenant t (R296). -/
def tenantAuthority (c : Cfg) (t : Nat) : Nat := setting c (0x6050 + t / 256) (t % 256) 0xFFFFFFFF

/-! ## Books (R46, R47) -/

def bookEntry (s : State) (b frame : Nat) : Nat := mget 0 (getBay s b).book (frame % 10240)

def bookClosed (e : Nat) : Bool := bitOf e 16
def bookTest (e : Nat) : Bool := bitOf e 17
def bookTime (e : Nat) : Nat := e % 65536

/-- Booking capacity of a bay in a frame. -/
def bayCap (s : State) (b : Nat) : Nat := enginesInService s b * 2000 * bookingCap s.ctl.cfg / 1000

end Sys2Proof.Machine
end

