-- ==== Sys2Proof/Machine/Recorder.lean ====
section
/-! DEFINITION. The event recorder: records, sequence numbers, intake queues, rate limits, the backup tail (R431 to R441,
R356, R368). -/

namespace Sys2Proof.Machine

open Sys2Proof

/-- Source field of a record (R433). -/
def src (kind number : Nat) : Nat := kind * 4096 + number % 4096

def srcDevice : Nat := src 0 0
def srcBay (b : Nat) : Nat := src 3 b
def srcInst (i : Nat) : Nat := src 7 i

/-- The parts of a record before their sequence numbers are given (R433, R434). -/
def recParts (time code source flags : Nat) (args : Bytes) : List EvRec :=
  let n := max 1 (ceilDiv args.length 11)
  (upTo n).map (fun k =>
    { seq := 0, time := time, code := code, src := source
      flags := flags + 4 * k + (if k + 1 < n then 16 else 0)
      args := Bytes.slice args (11 * k) 11 })

/-- EvrSeqMark raised by 2^20 before the head reaches it; a mark that a CLEAR-ROOT has zeroed stays so (R432). -/
def raiseMark (r : Recorder) : Recorder :=
  if r.mark ≤ r.head + 1 ∧ ¬(r.mark = 0 ∧ r.head ≠ 0) then { r with mark := r.mark + 2 ^ 20 } else r

/-- One part stored under the next sequence number; the ring keeps the newest 65,536 (R431). -/
def storePart (r : Recorder) (e : EvRec) : Recorder :=
  let r := raiseMark r
  let ring := r.ring ++ [{ e with seq := r.head }]
  { r with ring := ring.drop (ring.length - 65536), head := r.head + 1 }

def storeParts (r : Recorder) (es : List EvRec) : Recorder := es.foldl storePart r

/-- EvrOldestSeq (R431). -/
def evrOldest (r : Recorder) : Nat := max (r.head - 65536) r.floor

/-- Room of the intake queue in force: 64 before step 7, 1,024 while the custody controller is replaced, none otherwise
(R368, R356). -/
def queueRoom (s : State) : Option Nat :=
  if 1 ≤ s.power.step ∧ s.power.step < 7 then some 64
  else if s.fw.replacing = some 1 then some 1024
  else none

/-- A record reaches the intake: stored, or queued while the recorder cannot take it. -/
def intake (s : State) (es : List EvRec) : State :=
  match queueRoom s with
  | none => { s with evr := storeParts s.evr es }
  | some room =>
    if s.evr.queue.length + es.length ≤ room then { s with evr := { s.evr with queue := s.evr.queue ++ es } }
    else
      { s with evr := { s.evr with queueLost := s.evr.queueLost + 1, suppressed := s.evr.suppressed + 1 } }

/-- EvrRate of a code, or EvrRateDefault where it is 0: rate and burst (R437). -/
def evrRate (c : Cfg) (code : Nat) : Nat × Nat :=
  let v := setting c (0xC040 + code / 4096 - 1) (code % 256) 0
  let v := if v = 0 then setting c 0xC020 0x01 (100 + 1000 * 2 ^ 32) else v
  (v % 2 ^ 32, v / 2 ^ 32)

/-- The bucket of a code refilled to now; full at its burst until first used. -/
def evrBucket (s : State) (code : Nat) : EvBucket :=
  let (rate, burst) := evrRate s.ctl.cfg code
  match mfind s.evr.buckets code with
  | none => { level := burst * 10 ^ 9, t := s.now, lost := 0, src := 0 }
  | some b => { b with level := min (burst * 10 ^ 9) (b.level + rate * (s.now - b.t)), t := s.now }

/-- An event of an exempt code: never suppressed. -/
def recordExempt (s : State) (code source : Nat) (args : Bytes) : State :=
  intake s (recParts s.now code source 0 args)

/-- An event of a limited code (R437). -/
def recordLimited (s : State) (code source : Nat) (args : Bytes) : State :=
  let b := evrBucket s code
  if 10 ^ 9 ≤ b.level then
    intake { s with evr := { s.evr with buckets := mput s.evr.buckets code { b with level := b.level - 10 ^ 9 } } }
      (recParts s.now code source 0 args)
  else
    { s with evr := { s.evr with
        buckets := mput s.evr.buckets code { b with lost := b.lost + 1, src := source }
        suppressed := s.evr.suppressed + 1 } }

/-- Codes that are never suppressed (R436); MONITOR_EVENT is exempt only for the event that sets a latch. -/
def exemptCodes : List Nat :=
  [0x1101, 0x1102, 0x1103, 0x1104, 0x1106, 0x2110, 0x2111, 0x4101, 0x5105, 0x6102, 0x6103, 0x7101, 0x7104, 0x7106, 0x7109]

def record (s : State) (code source : Nat) (args : Bytes) : State :=
  if exemptCodes.contains code then recordExempt s code source args else recordLimited s code source args

/-- The end of a second of device time: a summary for each code with suppressed events (R437). -/
def secondEnd (s : State) : State :=
  (s.evr.buckets).foldl (fun s e =>
    if 0 < e.2.lost then
      let s := recordExempt s 0x1102 srcDevice
        (Bytes.ofNatLE 2 e.1 ++ Bytes.ofNatLE 4 e.2.lost ++ Bytes.ofNatLE 2 e.2.src)
      { s with evr := { s.evr with buckets := mput s.evr.buckets e.1 { e.2 with lost := 0 } } }
    else s) s

/-- The queue is emptied into the ring, in its order; what was lost is recorded (R356, R368). -/
def drainQueue (s : State) : State :=
  let s' := { s with evr := { storeParts s.evr s.evr.queue with queue := [], queueLost := 0 } }
  if s.evr.queueLost = 0 then s'
  else { s' with evr := storeParts s'.evr (recParts s.now 0x1103 srcDevice 0 (Bytes.ofNatLE 4 s.evr.queueLost)) }

/-- A record of the backup domain's period: the tail holds records 1 to 1,023; further ones are counted in a summary kept in
slot 1,023 (R440). -/
def tailRecord (s : State) (time code source flags : Nat) (args : Bytes) : State :=
  let es := recParts time code source flags args
  let b := s.backup
  if b.tail.length + es.length ≤ 1023 ∧ b.tailLost = 0 then
    { s with backup := { b with tail := b.tail ++ (es.zipIdx.map (fun e => { e.1 with seq := b.tail.length + e.2 + 1 })) } }
  else
    { s with backup := { b with tailLost := b.tailLost + 1, tailLostCode := code, tailLostSrc := source } }

/-- The tail as it is read: its records, and the summary of what it lost. -/
def tailRecords (b : Backup) : List EvRec :=
  if b.tailLost = 0 then b.tail
  else b.tail ++ [{ seq := 1024, time := b.entryT, code := 0x1102, src := src 5 0, flags := 0
                    args := Bytes.slice (Bytes.ofNatLE 2 b.tailLostCode ++ Bytes.ofNatLE 4 b.tailLost
                      ++ Bytes.ofNatLE 2 b.tailLostSrc) 0 11 }]

/-- A record as its 32 bytes (R433). -/
def recBytes (e : EvRec) : Bytes :=
  Bytes.ofNatLE 8 e.seq ++ Bytes.ofNatLE 8 e.time ++ Bytes.ofNatLE 2 e.code ++ Bytes.ofNatLE 2 e.src
    ++ Bytes.ofNatLE 1 e.flags ++ Bytes.fit 11 e.args

/-! ## Modes in force (R352, R353) -/

/-- Any monitor latched, or the random island's alarm: latches are set at class HOLD and above only (R352, R369). -/
def alarmLatched (s : State) : Bool := s.alarm.random || s.alarm.mons.any (fun e => e.2.latched)

/-- A joint that is open and holds a signature (R338). -/
def custodyInForce (s : State) : Bool :=
  s.ctl.joints.any (fun e => decide (e.2.st ≤ 1) && decide (e.2.sigs ≠ 0))

def freezeInForce (s : State) : Bool := s.insts.any (fun e => e.2.st == 3 || e.2.st == 4)

/-- SEEDING (R252): the first seed is awaited, the conditioner is stopped, or an exhausted generator is owed a seed. -/
def seedingInForce (s : State) : Bool :=
  s.random.on && (s.random.awaiting || s.random.stopped || s.bays.any (fun e => e.2.drbg.owed))

def backupInForce (s : State) : Bool := !s.power.pwrGood

def serviceInForce (s : State) : Bool :=
  decide (s.power.step = 12) && !alarmLatched s && s.power.pwrGood && decide (s.power.shutdown = 0)

/-- ModesInForce, with bit 7 for BACKUP. -/
def modesNow (s : State) : Nat :=
  bit (serviceInForce s) + 2 * bit (custodyInForce s) + 4 * bit (s.fw.phase != 0) + 8 * bit (freezeInForce s)
    + 16 * bit (seedingInForce s) + 32 * bit s.life.debug + 64 * bit (alarmLatched s) + 128 * bit (backupInForce s)

/-- Main power is present and every island but the backup domain is held in reset: no start has begun (R364, R479). -/
def heldInReset (s : State) : Bool := s.power.pwrGood && s.power.step == 0

/-- Every change of the set of modes in force writes one record and counts in ModeChanges (R352). The recorder is held in reset with the
main domain: a change made by then is the first record of the start that follows (log entry 114). -/
def settle (s : State) : State :=
  let m := modesNow s
  if m = s.power.modes ∨ heldInReset s then s
  else
    let old := s.power.modes
    record (bump { s with power := { s.power with modes := m } } (odKey 0x4004 2)) 0x1104 srcDevice
      (Bytes.ofNatLE 1 old ++ Bytes.ofNatLE 1 m)

end Sys2Proof.Machine
end

