-- ==== Sys2Proof/Machine/KeyStore.lean ====
section
/-! DEFINITION. Resident key slots, the shelf, the token cache, key checks and claims, the journal stage (R140 to R152, R204
to R213, R273 to R279). -/

namespace Sys2Proof.Machine

open Sys2Proof

/-! ## Key types (R274) -/

/-- Octets of the material of a type; 0 for a code that is no type. -/
def materialLen (t : Nat) : Nat :=
  match t with
  | 0x01 => 16 | 0x02 => 24 | 0x03 => 16 | 0x04 => 24 | 0x05 => 32
  | 0x10 => 96 | 0x11 => 64 | 0x12 => 144 | 0x13 => 96 | 0x14 => 64 | 0x15 => 32
  | 0x20 => 900 | 0x21 => 260 | 0x22 => 1796 | 0x23 => 516
  | 0x30 => 2400 | 0x31 => 1184 | 0x32 => 3168 | 0x33 => 1568
  | 0x38 => 5984 | 0x39 => 1952 | 0x3A => 7488 | 0x3B => 2592
  | _ => 0

def typeKnown (t : Nat) : Bool := materialLen t != 0

/-- Extension slots that the material takes: 64 octets each beyond the first 32. -/
def materialExt (t : Nat) : Nat := ceilDiv (materialLen t - 32) 64

def isTdes (t : Nat) : Bool := t == 1 || t == 2
def isAes (t : Nat) : Bool := t == 3 || t == 4 || t == 5
def isSymmetric (t : Nat) : Bool := isTdes t || isAes t

/-- Types that may be BACKED. -/
def backedAllowed (t : Nat) : Bool := isSymmetric t || t == 0x10 || t == 0x14

/-- The public part of a key's material as R274 encodes it. -/
def publicPart (t : Nat) (m : Bytes) : Bytes :=
  match t with
  | 0x10 => m.drop 32
  | 0x12 => m.drop 48
  | 0x14 => m.drop 32
  | 0x20 => m.take 260
  | 0x22 => m.take 516
  | 0x30 => (m.drop 1152).take 1184
  | 0x32 => (m.drop 1536).take 1568
  | 0x38 => m.drop 4032
  | 0x3A => m.drop 4896
  | _ => m

/-- Check value (R278). -/
def kcvOf (t : Nat) (m : Bytes) : Bytes :=
  if isAes t then (Modes.cmac (Modes.aes m) (Bytes.zeros 16)).take 4
  else if isTdes t then (Des.tdesEncrypt m (Bytes.zeros 8)).take 4
  else (Sha.sha256 (publicPart t m)).take 4

/-- Block cipher of a symmetric key. -/
def cipherOf (k : Key) : Modes.Cipher := if isAes k.type then Modes.aes k.material else Modes.tdes k.material

/-- Block time t_blk of a type in tenths of ns (R131). -/
def blockTenths (t : Nat) : Nat := if t = 4 then 96 else if t = 5 then 112 else if isTdes t then 384 else 80

/-! ## Slots -/

def slotAt (s : State) (h : Nat) : Slot := mget {} s.keys.slots h

def isExt (s : State) (h : Nat) : Bool := (mfind s.keys.ext h).isSome

/-- Epoch `w` lies above epoch `e`, as a difference of 32-bit numbers (R273). -/
def epochAbove (w e : Nat) : Bool :=
  let d := (w % 2 ^ 32 + 2 ^ 32 - e % 2 ^ 32) % 2 ^ 32
  decide (0 < d) && decide (d < 2 ^ 31)

/-- The shelf entry that serves an operation of epoch `e` for a head handle: its cache index and content (R205). -/
def shelfFor (s : State) (h e : Nat) : Option (Nat × Shelf) :=
  s.keys.cache.findSome? (fun en =>
    match en.2.body with
    | .shelf k => if k.handle = h ∧ k.isExt = false ∧ epochAbove k.wepoch e = false ∧ e < k.cut then some (en.1, k) else none
    | _ => none)

/-- Where a key was found. -/
inductive Place where
  | resident (h : Nat)
  | shelved (x : Nat)
  | token (x : Nat)
  deriving DecidableEq, Repr

/-- The key that a handle names for an operation of epoch `e`, with the generation of its slot (R204, R205): what its slot has become
since then is nothing to the operation. -/
def keyByHandle (s : State) (h e : Nat) : Option (Key × Nat × Place) :=
  let sl := slotAt s h
  if epochAbove sl.wepoch e then
    match shelfFor s h e with
    | some (x, k) => k.key.map (fun key => (key, k.gen, .shelved x))
    | none => none
  else if isExt s h then none
  else sl.key.map (fun key => (key, sl.gen, .resident h))

/-- A token entry is within its age (R210). -/
def tokenFresh (s : State) (k : Token) : Bool := decide (s.now ≤ k.time + k.maxAge * 10 ^ 9)

def wayAt (s : State) (x : Nat) : Way := mget {} s.keys.cache x

/-- The key that a token reference names (R210). -/
def keyByToken (s : State) (ref : Nat) : Option (Key × Nat × Place) :=
  let w := wayAt s (ref % 65536)
  match w.body with
  | .token k => if w.gen = ref / 65536 ∧ tokenFresh s k then some (k.key, w.gen, .token (ref % 65536)) else none
  | _ => none

/-- A key field and its token bit (R110). -/
def keyRef (s : State) (field : Nat) (isToken : Bool) (e : Nat) : Option (Key × Nat × Place) :=
  if isToken then keyByToken s field else keyByHandle s field e

/-! ## Key checks (R122, R134, R141, R160, R220) -/

/-- Engine bits of a key (R273). -/
def engInline : Nat := 0
def engCipher : Nat := 1
def engBnc : Nat := 2
def engKdf : Nat := 3
def engWrap : Nat := 4

/-- What a role asks of a key: engine bit, types, usage bits, and the mode a device-nonce key must name (none where the role
takes no such key). -/
structure Role where
  engine : Nat
  types : List Nat
  usage : List Nat
  mode : Option Nat := none
  deriving DecidableEq, Repr

/-- Ways that hold the shelved run of the head entry at an index (R205). -/
def shelvedRun (s : State) (x : Nat) (k : Key) : List Nat :=
  match (wayAt s x).body with
  | .shelf e => s.keys.cache.filterMap (fun en => match en.2.body with
    | .shelf f => if f.cut = e.cut ∧ f.wepoch = e.wepoch ∧ e.handle ≤ f.handle ∧ f.handle ≤ e.handle + k.ext then some en.1 else none
    | _ => none)
  | _ => []

/-- A word of the key's run, or of the ways that hold it, is mismatched: it touches every operation that reads it (R28, R29). -/
def keyCorrupt (s : State) (k : Key) (p : Place) : Bool :=
  match p with
  | .resident h => wordsFail s memSlots (slotWord h) (8 * (1 + k.ext))
  | .shelved x => (x :: shelvedRun s x k).any (fun y => wordsFail s memCache (wayWord y) 16)
  | .token x => wordsFail s memCache (wayWord x) 16

/-- The key's age exceeds its maximum (R273). -/
def keyExpired (s : State) (k : Key) : Bool := decide (k.maxAge ≠ 0) && decide (k.maxAge * 86400 < keyClock s - k.created)

/-- A key with one of the payment bits PIN_IN, PIN_OUT, PIN_REF, DVV, DUKPT_BDK and EMV_IMK_AC serves no role that asks for none
of them (R161). -/
def paymentKept (k : Key) (r : Role) : Bool :=
  let bits := [4, 5, 6, 7, 8, 10]
  bits.any (bitOf k.usage) && !r.usage.any bits.contains

/-- Checks of presence, owner, engine, usage and age, in the order of R122; 0 where all pass. -/
def checkKey (s : State) (tenant : Nat) (r : Role) (found : Option (Key × Nat × Place)) : Nat :=
  match found with
  | none => 0x0301
  | some (k, _, p) =>
    if keyCorrupt s k p then 0x0801
    else if k.tenant ≠ tenant then 0x0302
    else if bitOf k.engine r.engine = false then 0x0303
    else if r.types.contains k.type = false ∨ r.usage.all (bitOf k.usage) = false ∨ paymentKept k r then 0x0304
    else if (match k.guard with
        | some g => g.nonce && (r.mode != some g.mode)
        | none => false) then 0x0304
    else if keyExpired s k then 0x0306
    else 0

/-! ## Journal stage (R148, R152) -/

def stageSize : Nat := 128

/-- A reservation record reaches the stage (R148); under DEBUG none is written (R294). -/
def postReservation (s : State) (r : JourRec) : State :=
  if s.life.debug then s
  else
    let j := s.keys.journal
    { s with keys := { s.keys with journal := { j with stage := j.stage ++ [{ r := r, durable := false, postedT := s.now }] } } }

/-- The stage has no room beside `owed` records that are to be posted first. -/
def stageFull (s : State) (owed : Nat := 0) : Bool := !s.life.debug && decide (stageSize ≤ s.keys.journal.stage.length + owed)

/-- A reservation of a key's slot is posted and not durable yet: values of its block wait for it too (R149). -/
def reservationOpen (s : State) (h gen : Nat) : Bool :=
  s.keys.journal.stage.any (fun r => r.r.slot == h && r.r.gen == gen && !r.durable)

/-- Result of a claim: refused, or the value consumed and whether it opened a block. -/
inductive Claim where
  | refused
  | stalled
  | value (v : Nat) (newBlock : Bool) (g : Guard)
  deriving DecidableEq, Repr

/-- The bound of a guard (R143, R145). -/
def guardBound (k : Key) (g : Guard) : Nat :=
  if g.nonce then (if isTdes k.type then 2 ^ 32 else 2 ^ 64) else g.limit

/-- A claim on a guard (R146): read, check, increment; `mayOpen` tells whether a new block may be opened, `owed` how many records of
the stage's room are spoken for (R148). -/
def claimGuard (s : State) (k : Key) (g : Guard) (mayOpen : Bool) (owed : Nat := 0) : Claim :=
  if g.lost ∨ guardBound k g ≤ g.v then .refused
  else if g.v < g.ceiling then .value g.v false { g with v := g.v + 1 }
  else if mayOpen = false then .refused
  else if stageFull s owed then .stalled
  else .value g.v true { g with v := g.v + 1, ceiling := g.ceiling + 65536 }

/-- The guard of a key written back where the key stands. -/
def putGuard (s : State) (p : Place) (g : Guard) : State :=
  match p with
  | .resident h =>
    let slots := mmod {} s.keys.slots h (fun sl => { sl with key := sl.key.map (fun k => { k with guard := some g }) })
    { s with keys := { s.keys with slots := slots } }
  | .shelved x =>
    let cache := mmod {} s.keys.cache x (fun w =>
      match w.body with
      | .shelf e => { w with body := .shelf { e with key := e.key.map (fun k => { k with guard := some g }) } }
      | _ => w)
    { s with keys := { s.keys with cache := cache } }
  | .token _ => s

/-- Head handle of a place. -/
def placeHandle (s : State) (p : Place) : Nat :=
  match p with
  | .resident h => h
  | .shelved x => (match (wayAt s x).body with | .shelf e => e.handle | _ => 0)
  | .token x => x

/-- The shelf entry of a head handle that the earliest cut after epoch `cut` made. -/
def nextShelf (s : State) (h cut : Nat) : Option (Nat × Shelf) :=
  s.keys.cache.foldl (fun best en => match en.2.body, best with
    | .shelf k, some (_, b) => if k.handle = h ∧ k.isExt = false ∧ cut < k.cut ∧ k.cut < b.cut then some (en.1, k) else best
    | .shelf k, none => if k.handle = h ∧ k.isExt = false ∧ cut < k.cut then some (en.1, k) else none
    | _, _ => best) none

/-- Where the counter of a guard stands: a shelved key that a RESTRICT superseded shares the counter of the generation that follows, so
no value is claimed twice (R147, R282). -/
def counterPlace (s : State) : Nat → Place → Place
  | 0, p => p
  | n + 1, p =>
    match p with
    | .shelved x => match (wayAt s x).body with
      | .shelf e =>
        if e.heir then match nextShelf s e.handle e.cut with
          | some (y, _) => counterPlace s n (.shelved y)
          | none => .resident e.handle
        else p
      | _ => p
    | _ => p

/-- The key with its generation at a place. -/
def keyAt (s : State) (p : Place) : Option (Key × Nat) :=
  match p with
  | .resident h => (slotAt s h).key.map (fun k => (k, (slotAt s h).gen))
  | .shelved x => match (wayAt s x).body with
    | .shelf e => e.key.map (fun k => (k, e.gen))
    | _ => none
  | .token x => match (wayAt s x).body with
    | .token t => some (t.key, (wayAt s x).gen)
    | _ => none

/-- A claim at a place may open a new block: not on a key that a migration has saved (R318). -/
def mayOpenBlock (s : State) (p : Place) : Bool :=
  match p with
  | .shelved x => (match (wayAt s x).body with | .shelf e => !e.moved | _ => true)
  | _ => true

/-- The claim of one guarded key (R146, R148, R152): status, state, the value consumed, and the handle whose reservation must
be durable before the operation's output leaves (R149). An unguarded key claims nothing. -/
def claimKey (s : State) (k : Key) (gen : Nat) (p : Place) (owed : Nat := 0) : Nat × State × Nat × Option Nat :=
  let p := counterPlace s s.keys.cache.length p
  let (k, gen) := (keyAt s p).getD (k, gen)
  match k.guard with
  | none => (0, s, 0, none)
  | some g =>
    let h := placeHandle s p
    match claimGuard s k g (mayOpenBlock s p) owed with
    | .refused => (0x0305, s, 0, none)
    | .stalled =>
      (0x0305, recordLimited (bump s (odKey 0x6020 6)) 0x5104 (src 2 0) (Bytes.ofNatLE 4 h), 0, none)
    | .value v newBlock g' =>
      let s1 := putGuard s p g'
      if newBlock then
        (0, postReservation s1 { slot := h, nonce := g.nonce, gen := gen, ceiling := g'.ceiling }, v,
          if s.life.debug then none else some h)
      else (0, s1, v, if reservationOpen s h gen then some h else none)

/-! ## Writing slots (R279, R289) -/

/-- The generation after `g`: modulo 2^32, skipping 0. -/
def nextGen (g : Nat) : Nat := if (g + 1) % 2 ^ 32 = 0 then 1 else (g + 1) % 2 ^ 32

/-- Handles of a run: the extension slots after a head. -/
def runExt (h n : Nat) : List Nat := (upTo n).map (fun j => h + 1 + j)

/-- Extension slots of a key: its material's and its guard's (R274). -/
def extCount (t : Nat) (guarded : Bool) : Nat := materialExt t + bit guarded

/-- The EXT bits of a key's run cleared. -/
def clearExt (s : State) (h : Nat) : State :=
  { s with keys := { s.keys with ext := s.keys.ext.filter (fun e => e.2 != h) } }

/-- A key written at a handle in epoch `e` with its next generation; none empties the slot and keeps the generation. A slot
word rewritten is whole again (R29). -/
def writeSlot (s : State) (h e : Nat) (k : Option Key) : State :=
  let s := clearExt s h
  let sl := slotAt s h
  let s := writeWords s memSlots (slotWord h) (8 * (1 + max (sl.key.elim 0 (·.ext)) (k.elim 0 (·.ext))))
  let gen := if k.isSome then nextGen sl.gen else sl.gen
  let run := match k with
    | some key => runExt h key.ext
    | none => []
  { s with keys := { s.keys with
      slots := mset {} s.keys.slots h { gen := gen, wepoch := e % 2 ^ 32, key := k }
      ext := run.foldl (fun m x => mput m x h) s.keys.ext } }

/-! ## The token cache (R209 to R212) -/

/-- Set of a token or a shelf entry: bits [12:0] of an AES-256 CMAC under the table key over the kind and the tag or the
handle. DESIGN CHOICE (log entry 235): the CMAC's 16 bytes are read as a little-endian number, so that these bits stand in its first two
bytes. -/
def cacheSet (key : Bytes) (kind : Byte) (what : Bytes) : Nat :=
  Bytes.toNatLE ((Modes.cmac (Modes.aes key) (kind :: what)).take 2) % 8192

/-- The eight entry indices of a set. -/
def setWays (st : Nat) : List Nat := (upTo 8).map (fun w => 8 * st + w)

/-- A way is written: its words take the codes of their new content (R27). -/
def putWay (s : State) (x : Nat) (w : Way) : State :=
  writeWords { s with keys := { s.keys with cache := mset {} s.keys.cache x w } } memCache (wayWord x) 16

/-- The lowest way with an empty body, else the aged-out token with the earliest time and then the lowest way (R211
case 2). -/
def freeWay (s : State) (st : Nat) : Option Nat :=
  match (setWays st).find? (fun x => (wayAt s x).body == .empty) with
  | some x => some x
  | none =>
    let aged := (setWays st).filterMap (fun x => match (wayAt s x).body with
      | .token k => if tokenFresh s k then none else some (k.time, x)
      | _ => none)
    (aged.foldl (fun (b : Option (Nat × Nat)) e => match b with
      | none => some e
      | some m => if e.1 < m.1 then some e else some m) none).map (·.2)

/-- One choice of the hub's eviction generator among `n` (R211): the manual gives it no algorithm, so it is a free value
(log entry 3). -/
def evictDraw (s : State) (n : Nat) : Nat × State :=
  (Config.freeNat s.free % max n 1,
    { s with free := s.free + 1, random := { s.random with evictDraws := s.random.evictDraws + 1 } })

/-- Instance that holds a token entry. -/
def tokenInst (s : State) (x : Nat) : Option Nat :=
  match (wayAt s x).body with
  | .token k => some k.inst
  | _ => none

/-- A token entry is given up: counted, and taken from its instance's TokensHeld. -/
def tokensHeld (s : State) (i : Nat) : Nat :=
  (s.keys.cache.filter (fun e => match e.2.body with | .token k => k.inst == i | _ => false)).length

/-- The way chosen among candidates by a policy (R211): 0 random, 1 oldest, 2 none. -/
def chooseWay (s : State) (policy : Nat) (cands : List Nat) : Option Nat × State :=
  if cands.isEmpty ∨ policy = 2 then (none, s)
  else if policy = 1 then
    let best := cands.foldl (fun (b : Option (Nat × Nat)) x =>
      let t := match (wayAt s x).body with | .token k => k.time | _ => 0
      match b with
      | none => some (t, x)
      | some m => if t < m.1 then some (t, x) else some m) none
    (best.map (·.2), s)
  else
    let (n, s) := evictDraw s cands.length
    (some (cands.getD n 0), s)

/-- The table key, while the cache accepts insertions: from the end of the first SEEDING on, and never during SEEDING (R209, R253,
R255). -/
def tableKeyInUse (s : State) : Option Bytes :=
  if s.random.seeded ∧ s.random.stopped = false ∧ seedingInForce s = false then s.random.tableKey else none

/-- An UNWRAP's insertion at its completion (R211): the reference, or none where it fails. -/
def insertToken (s : State) (quota policy : Nat) (tok : Token) : Option Nat × State :=
  match tableKeyInUse s with
  | none => (none, bump s (odKey 0x5001 5))
  | some key =>
    let st := cacheSet key 1 tok.tag
    let ways := setWays st
    match ways.find? (fun x => match (wayAt s x).body with
        | .token k => k.tenant == tok.tenant && k.tag == tok.tag && tokenFresh s k
        | _ => false) with
    | some x =>
      -- case 1: the entry is reused, its time renewed
      let w := wayAt s x
      let w' := match w.body with
        | .token k => { w with body := .token { k with time := s.now } }
        | _ => w
      (some (x + 65536 * w.gen), putWay s x w')
    | none =>
      let place := fun (s : State) (x : Nat) =>
        let w := wayAt s x
        let g := if (w.gen + 1) % 65536 = 0 then 1 else (w.gen + 1) % 65536
        (some (x + 65536 * g), putWay s x { gen := g, body := .token { tok with time := s.now } })
      match freeWay s st with
      | some x => place s x
      | none =>
        let toks := ways.filter (fun x => (tokenInst s x).isSome)
        let cands := if quota ≤ tokensHeld s tok.inst then toks.filter (fun x => tokenInst s x == some tok.inst) else toks
        match chooseWay s policy cands with
        | (some x, s) => place (bump s (odKey 0x5001 4)) x
        | (none, s) => (none, bump s (odKey 0x5001 5))

/-- A copy of a slot in the slot field of a way takes the code that the slot holds with it: a mismatched word stays mismatched (R27). -/
def carryCode (s : State) (h x : Nat) : State :=
  each (upTo 8) s (fun s j => spoilWord s memCache (wayWord x + 8 + j) (mget 0 s.bad (wordKey memSlots (slotWord h + j))))

/-- A shelf entry stands in a way. -/
def putShelf (s : State) (x : Nat) (e : Shelf) : State := carryCode (putWay s x { wayAt s x with body := .shelf e }) e.handle x

/-- One shelf entry placed in the set of its handle (R212); none where the set holds eight shelf entries. -/
def placeShelf (s : State) (e : Shelf) : Option State :=
  -- DESIGN CHOICE (log entry 194): before the first table key of a start is drawn, the set is that of a zero key
  let key := s.random.tableKey.getD (Bytes.zeros 32)
  let st := cacheSet key 2 (Bytes.ofNatLE 4 e.handle)
  match freeWay s st with
  | some x => some (putShelf s x e)
  | none =>
    match chooseWay s 0 ((setWays st).filter (fun x => (tokenInst s x).isSome)) with
    | (some x, s) => some (putShelf (bump s (odKey 0x5001 4)) x e)
    | (none, _) => none

/-- The run of a key shelved at the cut of epoch `cut` (R205); none where a set has no room. -/
def shelveRun (s : State) (h cut : Nat) (heir moved : Bool) : Option State :=
  let sl := slotAt s h
  match sl.key with
  | none => some s
  | some k =>
    let mk := fun (x : Nat) (ext : Bool) (c : Option Key) =>
      ({ tenant := k.tenant, time := s.now, handle := x, isExt := ext, wepoch := sl.wepoch, cut := cut, gen := sl.gen
         key := c, heir := heir, moved := moved } : Shelf)
    ((mk h false (some k)) :: (runExt h k.ext).map (fun x => mk x true none)).foldl
      (fun acc e => acc.bind (fun s => placeShelf s e)) (some s)

/-- The run that a cut shelved at a handle is followed by no generation of a RESTRICT: another item of the same joint replaced it, a
migration's save where `moved` holds (R318). -/
def disinherit (s : State) (h cut : Nat) (moved : Bool) : State :=
  { s with keys := { s.keys with cache := s.keys.cache.map (fun en => match en.2.body with
    | .shelf k => if k.handle = h ∧ k.cut = cut then (en.1, { en.2 with body := .shelf { k with heir := false, moved := k.moved || moved } })
      else en
    | _ => en) } }

/-- Epochs of operations still outstanding: ring operations admitted and inline operations in a lane. -/
def outstandingEpochs (s : State) : List Nat :=
  s.insts.flatMap (fun e =>
    (e.2.ops.filter (fun o => o.stage != .covered)).map (·.att.epoch)
      ++ e.2.slots.filterMap (fun sl => sl.2.op.map (·.att.epoch)))

/-- Shelf entries of joints that no operation of an earlier epoch still needs are freed (R206). -/
def freeShelf (s : State) : State :=
  let es := outstandingEpochs s
  let cache := s.keys.cache.filterMap (fun en => match en.2.body with
    | .shelf k =>
      if es.any (fun e => decide (e < k.cut)) then some en
      else if en.2.gen = 0 then none else some (en.1, { en.2 with body := .empty })
    | _ => some en)
  { s with keys := { s.keys with cache := cache } }

/-! ## The derivation cache (R207, R208) -/

/-- The entry of a terminal that an operation of a tenant may use: present, of that tenant, not aged out (R208). -/
def derivEntry (s : State) (term tenant maxAgeS : Nat) : Option Deriv :=
  match mfind s.keys.deriv term with
  | some d => if d.tenant = tenant ∧ s.now ≤ d.written + maxAgeS * 10 ^ 9 then some d else none
  | none => none

end Sys2Proof.Machine
end

