-- ==== Sys2Proof/Machine/Payment.lean ====
section
/-! DEFINITION. What the payment functions compute: PIN blocks of ISO 9564-1, decimalised verification values, DUKPT key
derivation and EMV cryptograms (R163 to R182). -/

namespace Sys2Proof.Payment

/-! ## PIN blocks (R163, R164, R165) -/

/-- The format codes of R78. -/
def fmtKnown (f : Nat) : Bool := f == 0 || f == 1 || f == 3 || f == 4

/-- Index of a format in PinXlateMatrix (R167). -/
def fmtIndex (f : Nat) : Nat := if f = 3 then 2 else if f = 4 then 3 else f

/-- The digits of a card number field: the first `len` nibbles (R78). -/
def panDigits (pan : Bytes) (len : Nat) : List Nat := (Bytes.nibbles pan).take len

/-- A list of nibbles filled to length `n`. -/
def fillTo (n x : Nat) (l : List Nat) : List Nat := l ++ List.replicate (n - l.length) x

/-- PAN field of formats 0 and 3: the 12 rightmost digits but for the check digit. -/
def panField0 (digits : List Nat) : Bytes :=
  let d := digits.dropLast
  Bytes.ofNibbles ([0, 0, 0, 0] ++ d.drop (d.length - 12))

/-- PAN field of format 4. -/
def panField4 (digits : List Nat) : Bytes := Bytes.ofNibbles (fillTo 32 0 ((digits.length - 12) :: digits))

/-- Clear PIN field of a PIN in a format, with the bytes drawn for its fill (R165). -/
def pinField (fmt : Nat) (pin : List Nat) (drawn : Bytes) : Bytes :=
  let head := fmt :: pin.length :: pin
  let fill := Bytes.nibbles (Bytes.fit 8 drawn)
  Bytes.ofNibbles (
    if fmt = 0 then fillTo 16 0xF head
    else if fmt = 1 then (head ++ fill).take 16
    else if fmt = 3 then (head ++ fill.map (fun b => 0xA + b % 6)).take 16
    else fillTo 16 0xA head ++ fill)

/-- Encipherment of a clear PIN field (R163). -/
def encipherPin (fmt : Nat) (key : Bytes) (digits : List Nat) (field : Bytes) : Bytes :=
  if fmt = 4 then Aes.encrypt key (Bytes.xor (Aes.encrypt key field) (panField4 digits))
  else if fmt = 1 then Des.tdesEncrypt key field
  else Des.tdesEncrypt key (Bytes.xor field (panField0 digits))

/-- Decipherment of a block to its clear PIN field. -/
def decipherPin (fmt : Nat) (key : Bytes) (digits : List Nat) (block : Bytes) : Bytes :=
  if fmt = 4 then Aes.decrypt key (Bytes.xor (Aes.decrypt key (Bytes.fit 16 block)) (panField4 digits))
  else if fmt = 1 then Des.tdesDecrypt key (Bytes.fit 8 block)
  else Bytes.xor (Des.tdesDecrypt key (Bytes.fit 8 block)) (panField0 digits)

/-- The PIN of a valid clear field; none where a check of R164 fails. -/
def pinOf (fmt : Nat) (field : Bytes) : Option (List Nat) :=
  let ns := Bytes.nibbles field
  let n := ns.getD 1 0
  let pin := (ns.drop 2).take n
  let fill := (ns.drop (2 + n)).take (14 - n)
  if ns.headD 16 = fmt ∧ 4 ≤ n ∧ n ≤ 12 ∧ pin.all (· ≤ 9)
      ∧ (fmt = 1 ∨ (fmt = 0 ∧ fill.all (· == 0xF)) ∨ (fmt = 3 ∧ fill.all (0xA ≤ ·)) ∨ (fmt = 4 ∧ fill.all (· == 0xA))) then
    some pin
  else none

/-- Bytes of a block in a format (R166): any unknown code occupies 16. -/
def blockLen (fmt : Nat) : Nat := if fmt = 0 ∨ fmt = 1 ∨ fmt = 3 then 8 else 16

/-- Whether a format's card number length rule holds (R168). -/
def panSuits (fmt panLen : Nat) : Bool :=
  if fmt = 0 ∨ fmt = 3 then 13 ≤ panLen else if fmt = 4 then 12 ≤ panLen else true

/-! ## Decimalised verification values (R174, R175) -/

/-- The three digits of a value under K1 and K2. -/
def dvv (key : Bytes) (digits : List Nat) (dateService : List Nat) : List Nat :=
  let ds := fillTo 32 0 (digits ++ dateService)
  let b1 := Bytes.ofNibbles (ds.take 16)
  let b2 := Bytes.ofNibbles ((ds.drop 16).take 16)
  let x := Des.encrypt (key.take 8) b1
  let y := Bytes.nibbles (Des.tdesEncrypt (key.take 16) (Bytes.xor x b2))
  ((y.filter (· ≤ 9)) ++ (y.filter (9 < ·)).map (· - 10)).take 3

/-! ## DUKPT (R177, R178, ANSI X9.24-3) -/

/-- Transaction counter of a KSN: the rightmost 21 bits, or the last 4 bytes. -/
def dukptCounter (aes : Bool) (ksn : Bytes) : Nat :=
  if aes then Bytes.toNatBE ((ksn.drop 8).take 4) else Bytes.toNatBE (ksn.take 10) % 2 ^ 21

/-- The counter rule: non-zero, at most 10 or 16 bits set. -/
def dukptCounterOk (aes : Bool) (ksn : Bytes) : Bool :=
  let c := dukptCounter aes ksn
  let n := ((upTo 32).filter (bitOf c)).length
  decide (0 < c) && decide (n ≤ if aes then 16 else 10)

/-- Initial key ID: the KSN with its counter cleared, or its first 8 bytes. -/
def dukptInitialId (aes : Bool) (ksn : Bytes) : Bytes :=
  if aes then ksn.take 8
  else Bytes.ofNatBE 10 (Bytes.toNatBE (ksn.take 10) / 2 ^ 21 * 2 ^ 21)

/-- The key variant mask of X9.24. -/
def c0Mask : Bytes := Bytes.ofNatBE 16 0xC0C0C0C000000000C0C0C0C000000000

/-- TDES initial key. -/
def tdesInitialKey (bdk ksn : Bytes) : Bytes :=
  let b := (dukptInitialId false ksn).take 8
  Des.tdesEncrypt bdk b ++ Des.tdesEncrypt (Bytes.xor bdk c0Mask) b

/-- Non-reversible key generation of X9.24. -/
def tdesStep (key reg : Bytes) : Bytes :=
  let half := fun (k : Bytes) =>
    let l := k.take 8
    let r := (k.drop 8).take 8
    Bytes.xor (Des.encrypt l (Bytes.xor reg r)) r
  half (Bytes.xor key c0Mask) ++ half key

/-- TDES transaction key: one step for each counter bit set, highest first. -/
def tdesTransactionKey (initial ksn : Bytes) : Bytes :=
  let c := dukptCounter false ksn
  let base := Bytes.toNatBE (dukptInitialId false ksn)
  ((List.range 21).foldl (fun (st : Bytes × Nat) i =>
    let b := 20 - i
    if bitOf c b then
      let cc := st.2 + 2 ^ b
      (tdesStep st.1 (Bytes.ofNatBE 8 ((base + cc) % 2 ^ 64)), cc)
    else st) (initial, 0)).1

/-- TDES working key of a variant (R178). -/
def tdesWorkingKey (data : Bool) (initial ksn : Bytes) : Bytes :=
  let k := tdesTransactionKey initial ksn
  if data then
    let v := Bytes.xor k (Bytes.ofNatBE 16 0x0000000000FF00000000000000FF0000)
    Des.tdesEncrypt v (v.take 8) ++ Des.tdesEncrypt v (v.drop 8)
  else Bytes.xor k (Bytes.ofNatBE 16 0x00000000000000FF00000000000000FF)

/-- Derivation of an AES key of the length of `key`: usage, and the 8 bytes that follow (X9.24-3). -/
def aesDerive (key : Bytes) (usage : Nat) (ctx : Bytes) : Bytes :=
  let bitsN := 8 * key.length
  let alg := if key.length = 16 then 2 else if key.length = 24 then 3 else 4
  ((List.range (ceilDiv bitsN 128)).flatMap (fun i =>
    Aes.encrypt key ([0x01, BitVec.ofNat 8 (i + 1)] ++ Bytes.ofNatBE 2 usage ++ Bytes.ofNatBE 2 alg
      ++ Bytes.ofNatBE 2 bitsN ++ ctx))).take key.length

def aesInitialKey (bdk ksn : Bytes) : Bytes := aesDerive bdk 0x8001 (ksn.take 8)

/-- AES working key: key derivation for each counter bit set, then the usage's key (R178). -/
def aesWorkingKey (data : Bool) (initial ksn : Bytes) : Bytes :=
  let c := dukptCounter true ksn
  let id := (ksn.drop 4).take 4
  let k := (List.range 32).foldl (fun (st : Bytes × Nat) i =>
    let b := 31 - i
    if bitOf c b then
      let cc := st.2 + 2 ^ b
      (aesDerive st.1 0x8000 (id ++ Bytes.ofNatBE 4 cc), cc)
    else st) (initial, 0)
  aesDerive k.1 (if data then 0x3001 else 0x1000) (id ++ Bytes.ofNatBE 4 c)

def dukptInitialKey (aes : Bool) (bdk ksn : Bytes) : Bytes :=
  if aes then aesInitialKey bdk ksn else tdesInitialKey bdk ksn

/-- Decipherment of the terminal's data under the working key (R178). -/
def dukptDecipher (aes data : Bool) (initial ksn m : Bytes) : Bytes :=
  if aes then
    let k := aesWorkingKey data initial ksn
    if data then Modes.cbcDecrypt (Modes.aes k) (Bytes.zeros 16) m else Modes.ecb (Aes.decrypt k) 16 m
  else
    let k := tdesWorkingKey data initial ksn
    if data then Modes.cbcDecrypt (Modes.tdes k) (Bytes.zeros 8) m else Modes.ecb (Des.tdesDecrypt k) 8 m

/-! ## EMV (R182) -/

def parity (k : Bytes) : Bytes := k.map Des.oddParity

/-- Card master key, option A. -/
def emvMasterKey (imk : Bytes) (digits : List Nat) (psn : Byte) : Bytes :=
  let ds := digits ++ Bytes.nibbles [psn]
  let y16 := ds.drop (ds.length - 16)
  let y := Bytes.ofNibbles (List.replicate (16 - y16.length) 0 ++ y16)
  parity (Des.tdesEncrypt imk y ++ Des.tdesEncrypt imk (y.map (~~~ ·)))

/-- Session key: common session key, or the master key itself. -/
def emvSessionKey (mk : Bytes) (common : Bool) (atc : Bytes) : Bytes :=
  if common then
    let h := fun (b : Byte) => Des.tdesEncrypt mk (atc ++ [b] ++ Bytes.zeros 5)
    parity (h 0xF0 ++ h 0x0F)
  else mk

def emvMac (sk m : Bytes) : Bytes := Modes.mac3 sk 2 m

/-- The response asked for: none, method 1, method 2. -/
def arpc (method : Nat) (sk arqc arc csu : Bytes) : Bytes :=
  if method = 1 then Des.tdesEncrypt sk (Bytes.xor arqc (arc ++ Bytes.zeros 6))
  else if method = 2 then (emvMac sk (arqc ++ csu)).take 4
  else []

end Sys2Proof.Payment
end

