-- ==== Sys2Proof/Machine/Operands.lean ====
section
/-! DEFINITION. The operand forms: descriptors and inline request lines, their malformation checks, and what each names
(R78, R83, R84, R110 to R121, R166 to R177). -/

namespace Sys2Proof.Machine

open Sys2Proof

/-! ## Fields of a descriptor (R110, R114, R115) -/

def dOp (d : Bytes) : Nat := Bytes.fieldLE d 1 1
def dVar (d : Bytes) : Nat := Bytes.fieldLE d 2 1
def dKctl (d : Bytes) : Nat := Bytes.fieldLE d 3 1
def dTag (d : Bytes) : Nat := Bytes.fieldLE d 4 4
def dKeyA (d : Bytes) : Nat := Bytes.fieldLE d 8 4
def dKeyB (d : Bytes) : Nat := Bytes.fieldLE d 0xC 4
def dNotify (d : Bytes) : Bool := bitOf (Bytes.fieldLE d 0 1) 5
def dInLoc (d : Bytes) : Nat := Bytes.fieldLE d 0x10 1 % 4
def dOutLoc (d : Bytes) : Nat := Bytes.fieldLE d 0x10 1 / 4 % 4
def dAux (d : Bytes) : Nat := Bytes.fieldLE d 0x12 2
def dInLen (d : Bytes) : Nat := Bytes.fieldLE d 0x14 4
def dInRef (d : Bytes) : Nat := Bytes.fieldLE d 0x18 8
def dOutRef (d : Bytes) : Nat := Bytes.fieldLE d 0x20 8
def dPrm (d : Bytes) : Bytes := Bytes.slice d 0x28 24

/-- Operation codes of R113. -/
def ringOps : List Nat :=
  [0x01, 0x02, 0x10, 0x11, 0x20, 0x21, 0x30, 0x31, 0x32, 0x33, 0x38, 0x39, 0x40, 0x41, 0x50, 0x52] ++
  [0x60, 0x61, 0x62, 0x63, 0x64, 0x66, 0x67, 0x68, 0x69, 0x6A, 0x6B, 0x70, 0x71]

/-- Operation codes of R81. -/
def inlineOps : List Nat := [0x01, 0x02, 0x10, 0x11, 0x20, 0x21, 0x30, 0x31, 0x32, 0x33]

def isLineOp (op : Nat) : Bool := inlineOps.contains op && op != 1
def isBufferOp (op : Nat) : Bool := ringOps.contains op && decide (0x38 ≤ op) && op != 0x50 && op != 0x52

/-- Public-key, key update and unwrap operations: staged regions only (R117). -/
def isStagedOnly (op : Nat) : Bool := decide (0x60 ≤ op)

def pubIn (d : Bytes) : Bool :=
  bitOf (dVar d) 1 && [0x61, 0x63, 0x67, 0x68, 0x6B].contains (dOp d)

/-! ## The line form, common to inline lines and ring descriptors (R78, R114) -/

/-- The fields of a line-form operation. -/
structure Line where
  op : Nat
  param : Nat
  route : Bool
  dlen : Nat
  keyA : Nat
  keyB : Nat
  panLen : Nat
  pan : Bytes
  data : Bytes
  deriving DecidableEq, Repr

def lineOfRequest (l : Bytes) : Line :=
  { op := Bytes.fieldLE l 0 1, param := Bytes.fieldLE l 2 1, route := bitOf (Bytes.fieldLE l 1 1) 0
    dlen := Bytes.fieldLE l 3 1, keyA := Bytes.fieldLE l 8 4, keyB := Bytes.fieldLE l 0xC 4
    panLen := Bytes.fieldLE l 0x10 1, pan := Bytes.slice l 0x11 10, data := Bytes.slice l 0x20 32 }

def lineOfDescriptor (d : Bytes) : Line :=
  { op := dOp d, param := dVar d, route := bitOf (Bytes.fieldLE d 0x1B 1) 0
    dlen := Bytes.fieldLE d 0x1C 1, keyA := dKeyA d, keyB := dKeyB d
    panLen := Bytes.fieldLE d 0x10 1, pan := Bytes.slice d 0x11 10, data := Bytes.slice d 0x20 32 }

def Line.fmtIn (l : Line) : Nat := l.param % 16
def Line.fmtOut (l : Line) : Nat := l.param / 16
def Line.digits (l : Line) : List Nat := Payment.panDigits l.pan l.panLen

/-- ROUTE is honoured by PIN_XLATE (R114, R78). -/
def Line.routed (l : Line) : Bool := l.route && l.op == 0x10

/-- Bytes of data that hold no input are zero, and the nibbles of DVV inputs are digits (R166, R170, R174, R176). -/
def lineDataOk (l : Line) : Bool :=
  let z := fun (a b : Nat) => Bytes.allZero ((l.data.take b).drop a)
  let nib := Bytes.nibbles l.data
  let dvvOk := (nib.take 7).all (· ≤ 9) && nib.getD 7 0 == 0
  match l.op with
  | 0x10 => z (Payment.blockLen l.fmtIn) 32
  | 0x11 => z (Payment.blockLen l.fmtIn) 16 && z (16 + Payment.blockLen l.fmtOut) 32
  | 0x20 => dvvOk && z 4 32
  | 0x21 => dvvOk && ((nib.drop 8).take 3).all (· ≤ 9) && nib.getD 11 0 == 0 && z 6 32
  | 0x30 => z l.dlen 32
  | 0x32 => z l.dlen 32
  | 0x31 => z l.dlen 16 && z (16 + l.param) 32
  | 0x33 => z l.dlen 16 && z (16 + l.param) 32
  | _ => z 0 32

/-- Nibbles after the pan_len-th are zero (R78). -/
def panRestOk (pan : Bytes) (panLen : Nat) : Bool := ((Bytes.nibbles pan).drop panLen).all (· == 0)

/-- ROUTE is reserved but for PIN_XLATE and ROUTE_LOOKUP; the parameter but for PIN and MAC operations. -/
def lineBitsOk (l : Line) : Bool :=
  (!l.route || l.op == 0x10 || l.op == 0x02)
    && (l.param == 0 || l.op == 0x10 || l.op == 0x11 || (decide (0x30 ≤ l.op) && decide (l.op ≤ 0x33)))

/-- Ranges of pan_len, dlen and param (check 6 of R85, check 4 of R121). -/
def lineLengthsOk (l : Line) : Bool :=
  decide (l.panLen ≤ 19) &&
  match l.op with
  | 0x10 => l.dlen == 0 && Payment.panSuits l.fmtIn l.panLen && (l.route || Payment.panSuits l.fmtOut l.panLen)
  | 0x11 => l.dlen == 0 && Payment.panSuits l.fmtIn l.panLen && Payment.panSuits l.fmtOut l.panLen
  | 0x20 => l.dlen == 0 && decide (12 ≤ l.panLen)
  | 0x21 => l.dlen == 0 && decide (12 ≤ l.panLen)
  | 0x30 => decide (1 ≤ l.dlen) && decide (l.dlen ≤ 32) && decide (4 ≤ l.param) && decide (l.param ≤ 8)
  | 0x31 => decide (1 ≤ l.dlen) && decide (l.dlen ≤ 16) && decide (4 ≤ l.param) && decide (l.param ≤ 8)
  | 0x32 => decide (l.dlen ≤ 32) && decide (4 ≤ l.param) && decide (l.param ≤ 16)
  | 0x33 => decide (l.dlen ≤ 16) && decide (4 ≤ l.param) && decide (l.param ≤ 16)
  | _ => l.dlen == 0

/-- 0x0202 or 0x0407 of the length check; 0 where it passes. -/
def lineLengthStatus (l : Line) : Nat :=
  if lineLengthsOk l = false then 0x0202 else if l.digits.all (· ≤ 9) = false then 0x0407 else 0

/-- Which key fields the operation uses. -/
def lineUsesA (l : Line) : Bool := decide (0x10 ≤ l.op)
def lineUsesB (l : Line) : Bool := (l.op == 0x10 && !l.route) || l.op == 0x11

/-- Checks 4 to 7 of R85 on an inline request line; 0 where they pass. -/
def checkRequest (b : Bytes) : Nat :=
  let l := lineOfRequest b
  if inlineOps.contains l.op = false then 0x0201
  else if Bytes.fieldLE b 1 1 / 2 ≠ 0 ∨ lineBitsOk l = false ∨ panRestOk l.pan l.panLen = false
      ∨ Bytes.allZero (Bytes.slice b 0x1B 5) = false ∨ lineDataOk l = false then 0x0203
  else if lineLengthStatus l ≠ 0 then lineLengthStatus l
  else if (lineUsesA l ∧ 2 ^ 18 ≤ l.keyA) ∨ (lineUsesB l ∧ 2 ^ 18 ≤ l.keyB) then 0x0206
  else 0

/-! ## Keys of a descriptor -/

def usesA (d : Bytes) : Bool :=
  let op := dOp d
  !(op == 0x01 || op == 0x02 || op == 0x41 || op == 0x70 || pubIn d)

def usesB (d : Bytes) : Bool :=
  (dOp d == 0x10 && !(lineOfDescriptor d).route) || dOp d == 0x11

def tokenA (d : Bytes) : Bool := bitOf (dKctl d) 0
def tokenB (d : Bytes) : Bool := bitOf (dKctl d) 1

/-! ## Regions (R115, R117, R120) -/

/-- A region: in host memory or staged, its place and its length. -/
structure Region where
  host : Bool
  ref : Nat
  len : Nat
  deriving DecidableEq, Repr

def curveLen (d : Bytes) : Nat := if bitOf (dVar d) 0 then 48 else 32
def rsaLen (d : Bytes) : Nat := if bitOf (dVar d) 0 then 512 else 256
def kemSet (d : Bytes) : Bool := bitOf (dVar d) 0

/-- The exact input length of a fixed-format operation (R117); none where a range applies. -/
def exactIn (d : Bytes) : Option Nat :=
  let n := curveLen d
  let pub := fun (k : Nat) => if pubIn d then k else 0
  match dOp d with
  | 0x60 => some n
  | 0x61 => some (3 * n + pub (2 * n))
  | 0x64 => some 64
  | 0x66 => some (rsaLen d)
  | 0x67 => some (rsaLen d + pub (rsaLen d + 4))
  | 0x68 => some (pub (if kemSet d then 1568 else 1184))
  | 0x69 => some (if kemSet d then 1568 else 1088)
  | 0x6A => some 64
  | 0x6B => some (64 + (if kemSet d then 4627 else 3309) + pub (if kemSet d then 2592 else 1952))
  | _ => none

def cipherMode (d : Bytes) : Nat := dVar d % 8
def cipherDecrypts (d : Bytes) : Bool := bitOf (dVar d) 3
def aadLen (d : Bytes) : Nat := if cipherMode d = 6 then dAux d else 0

/-- Plaintext or ciphertext length of CIPHER: input less AAD, less the tag of a GCM decryption. -/
def cipherLen (d : Bytes) : Nat :=
  dInLen d - aadLen d - (if cipherMode d = 6 ∧ cipherDecrypts d then 16 else 0)

/-- Items of a key update message, from its header as staged: the receipt is 160 + 16n bytes (R290). -/
def receiptLen (items : Nat) : Nat := 160 + 16 * items

/-- Output length of an operation that writes a region (R116, R117); `items` is the item count of a KUM. -/
def outLenOf (d : Bytes) (items : Nat) : Nat :=
  match dOp d with
  | 0x40 => cipherLen d
  | 0x41 => dInLen d
  | 0x60 => 2 * curveLen d
  | 0x62 => 64
  | 0x66 => rsaLen d
  | 0x67 => rsaLen d
  | 0x68 => if kemSet d then 1568 else 1088
  | 0x6A => if kemSet d then 4627 else 3309
  | 0x70 => receiptLen items
  | _ => 0

def dukptStaged (d : Bytes) : Bool := dOp d == 0x50 && bitOf (dVar d) 1

/-- The input region that a descriptor names. -/
def inRegion (d : Bytes) : Option Region :=
  match dOp d with
  | 0x50 => if dukptStaged d then some { host := false, ref := Bytes.fieldLE d 0x28 8, len := Bytes.fieldLE d 0x20 1 } else none
  | 0x52 => some { host := false, ref := Bytes.fieldLE d 0x30 8, len := Bytes.fieldLE d 0x2C 1 }
  | op =>
    if isBufferOp op ∧ dInLoc d ≠ 0 then some { host := dInLoc d == 2, ref := dInRef d, len := dInLen d } else none

/-- The output region that a descriptor names. -/
def outRegion (d : Bytes) (items : Nat) : Option Region :=
  match dOp d with
  | 0x50 => if dukptStaged d then some { host := false, ref := Bytes.fieldLE d 0x30 8, len := Bytes.fieldLE d 0x20 1 } else none
  | 0x52 => none
  | op =>
    if isBufferOp op ∧ dOutLoc d ≠ 0 then some { host := dOutLoc d == 2, ref := dOutRef d, len := outLenOf d items } else none

/-- Staging pages of a region. -/
def pagesOf (r : Option Region) : List Nat :=
  match r with
  | some r => if r.host ∨ r.len = 0 then [] else (upTo ((r.ref + r.len - 1) / 4096 + 1 - r.ref / 4096)).map (fun n => r.ref / 4096 + n)
  | none => []

/-! ## Malformation (R121) -/

/-- Bytes of an IV, counter block or nonce in prm for a mode and block size (R116). -/
def ivLen (mode blk : Nat) : Nat := if mode = 0 then 0 else if mode = 6 then 12 else blk

/-- An operation whose in_len is 0 takes no input region, whatever in_loc says: its in_ref is reserved (R116, R120). -/
def takesNone (d : Bytes) : Bool := dInLen d == 0

/-- Reserved bits, fields and values (check 3); `blk` is the block size of the key type that admission reads (R493). -/
def reservedOk (d : Bytes) (blk : Nat) : Bool :=
  let op := dOp d
  let v := dVar d
  let z := fun (a b : Nat) => Bytes.allZero ((d.take b).drop a)
  let head := Bytes.fieldLE d 0 1 % 32 == 0 && dKctl d / 4 == 0
  let varOk :=
    if op = 0x10 ∨ op = 0x11 ∨ (0x30 ≤ op ∧ op ≤ 0x33) then true
    else if op = 0x38 ∨ op = 0x39 then
      decide (v < 16) && (if v % 4 = 0 then v / 4 == 0 else decide (v % 4 < 3) && (v / 4 == 1 || v / 4 == 2))
    else if op = 0x40 then decide (v < 16) && v % 8 != 7
    else if op = 0x50 then decide (v < 8)
    else if op = 0x52 then decide (v < 16) && v % 4 != 3 && decide (v / 4 ≤ 1)
    else if op = 0x61 ∨ op = 0x67 ∨ op = 0x68 ∨ op = 0x6B then decide (v < 4)
    else if op = 0x63 then v == 0 || v == 2
    else if op = 0x60 ∨ op = 0x66 ∨ op = 0x69 ∨ op = 0x6A then decide (v < 2)
    else v == 0
  let refOk := fun (loc ref : Nat) => if loc = 0 then ref == 0 else loc == 2 || decide (ref < 2 ^ 17)
  let body :=
    if op = 0x01 then z 0x10 0x40
    else if isLineOp op then
      let l := lineOfDescriptor d
      Bytes.fieldLE d 0x1B 1 / 2 == 0 && (!l.route || op == 0x10 || op == 0x02) && z 0x1D 0x20
        && panRestOk l.pan l.panLen && lineDataOk l
    else if op = 0x50 then
      let aes := bitOf v 0
      (aes || z 0x1E 0x20) && Payment.dukptCounterOk aes (Bytes.slice d 0x14 12) && z 0x21 0x28 && z 0x38 0x40
        && (if bitOf v 1 then decide (Bytes.fieldLE d 0x28 8 < 2 ^ 17) && decide (Bytes.fieldLE d 0x30 8 < 2 ^ 17)
          else z (0x28 + Bytes.fieldLE d 0x20 1) 0x38)
    else if op = 0x52 then
      panRestOk (Bytes.slice d 0x11 10) (Bytes.fieldLE d 0x10 1)
        && (Bytes.nibbles (Bytes.slice d 0x1B 1)).all (· ≤ 9)
        && (v % 4 == 1 || z 0x1E 0x20) && (v % 4 == 2 || z 0x28 0x2C) && z 0x2D 0x30
        && decide (Bytes.fieldLE d 0x30 8 < 2 ^ 17) && z 0x38 0x40
    else
      decide (Bytes.fieldLE d 0x10 1 < 16) && dInLoc d != 3 && dOutLoc d != 3 && z 0x11 0x12
        && refOk (if takesNone d then 0 else dInLoc d) (dInRef d) && refOk (dOutLoc d) (dOutRef d)
        && (if op = 0x38 then z 0x28 0x40
          else if op = 0x39 then z (0x28 + min 16 (dAux d)) 0x40
          else if op = 0x40 then (v % 8 == 6 || dAux d == 0) && z (0x28 + ivLen (v % 8) blk) 0x40
          else dAux d == 0 && z 0x28 0x40)
  head && varOk && body

/-- Length ranges (check 4), but for the plan length; `t` is the type that admission reads. -/
def lengthStatus (d : Bytes) (t : Nat) : Nat :=
  let op := dOp d
  let blk := if isTdes t then 8 else 16
  let n := dInLen d
  let hostLong := (dInLoc d == 2 && decide (1048576 < n)) || (dOutLoc d == 2 && decide (1048576 < outLenOf d 0))
  let ok (b : Bool) : Nat := if b then 0 else 0x0202
  if isLineOp op then lineLengthStatus (lineOfDescriptor d)
  else if op = 0x01 then 0
  else if op = 0x38 ∨ op = 0x39 then
    ok (decide (n ≤ 1048576) && (decide (1 ≤ n) || dVar d % 4 == 0) && decide (4 ≤ dAux d) && decide (dAux d ≤ blk))
  else if op = 0x40 then
    ok (decide (1 ≤ n) && !hostLong &&
      (if cipherMode d = 6 then decide (dAux d + (if cipherDecrypts d then 16 else 0) ≤ n)
        else if cipherMode d ≤ 1 then n % blk == 0 else true))
  else if op = 0x41 then ok (decide (1 ≤ n) && decide (n ≤ 4096))
  else if op = 0x50 then
    let dl := Bytes.fieldLE d 0x20 1
    let b := if bitOf (dVar d) 0 then 16 else 8
    ok (if bitOf (dVar d) 2 then decide (8 ≤ dl) && decide (dl ≤ 64) && dl % b == 0 && (bitOf (dVar d) 1 || decide (dl ≤ 16))
      else dl == b)
  else if op = 0x52 then
    let pl := Bytes.fieldLE d 0x10 1
    if pl < 12 ∨ 19 < pl ∨ Bytes.fieldLE d 0x2C 1 = 0 then 0x0202
    else if (Payment.panDigits (Bytes.slice d 0x11 10) pl).all (· ≤ 9) = false then 0x0407
    else 0
  else if op = 0x62 then ok (decide (n ≤ 4096))
  else if op = 0x63 then ok (decide (64 + (if pubIn d then 32 else 0) ≤ n) && decide (n ≤ 4096))
  else if op = 0x70 ∨ op = 0x71 then ok (decide (1 ≤ n) && decide (n ≤ 4096))
  else match exactIn d with
    | some k => ok (n == k)
    | none => 0x0202

/-- Handles and terminal numbers in range (check 5). -/
def handlesOk (d : Bytes) : Bool :=
  (!usesA d || tokenA d || decide (dKeyA d < 2 ^ 18)) && (!usesB d || tokenB d || decide (dKeyB d < 2 ^ 18))
    && (dOp d != 0x50 || decide (Bytes.fieldLE d 0x10 4 < 2 ^ 18))

/-- The rules of R120 but for conflicts: `pages` staging pages are backed. -/
def regionsOk (d : Bytes) (pages items : Nat) : Bool :=
  let op := dOp d
  let message := op == 0x40 || op == 0x38 || op == 0x39 || op == 0x41 || op == 0x62 || op == 0x63 || op == 0x70
    || op == 0x71 || op == 0x50 || op == 0x52
  let fits := fun (r : Option Region) => match r with
    | none => true
    | some r =>
      if r.host then decide (0 < r.len) && decide (r.ref + r.len ≤ 2 ^ 64) && decide (r.len ≤ 1048576)
      else decide (r.ref + r.len ≤ 4096 * pages) && decide (r.len ≤ if message then 4096 else 8192)
  let hostAllowed := op == 0x40 || op == 0x38 || op == 0x39 || op == 0x41
  let locs :=
    if isBufferOp op then
      let takes := op != 0x41 && dInLen d != 0
      let gives := outLenOf d items != 0
      (takes == (dInLoc d != 0)) && (gives == (dOutLoc d != 0))
        && (hostAllowed || (dInLoc d != 2 && dOutLoc d != 2))
        && (op != 0x40 || !gives || dInLoc d == dOutLoc d)
    else true
  locs && fits (inRegion d) && fits (outRegion d items)

end Sys2Proof.Machine
end

