-- ==== Sys2Proof/Machine/Dict.lean ====
section
/-! DEFINITION. The object dictionary: every object of the manual with its type, rights, persistence, range and default (R325
to R330 and the object tables R67, R97, R130, R156, R186, R214, R238, R262, R296, R324, R351, R365, R394, R415, R441, R467). -/

namespace Sys2Proof.Machine

open Sys2Proof

/-- Rights of a column: 0 none, 1 R, 2 W, 3 Q (R326). -/
abbrev Right := Nat

/-- An object's descriptor (R326). -/
structure Obj where
  type : Nat
  ten : Right
  op : Right
  cus : Right
  mak : Right := 0
  /-- 0 V, 1 N, 2 B, 3 F -/
  kept : Nat
  maxLen : Nat
  lo : Nat := 0
  hi : Nat := 0
  dflt : Nat := 0
  local_ : Bool := false
  tightenDown : Bool := false
  tightenUp : Bool := false
  trigger : Bool := false
  deriving DecidableEq, Repr

/-- Type codes by width in bytes. -/
def typeOf (w : Nat) : Nat := if w = 1 then 1 else if w = 2 then 2 else if w = 4 then 3 else 4

/-- A numeric object of `w` bytes over its whole range. -/
def num (w ten op cus kept d : Nat) : Obj :=
  { type := typeOf w, ten := ten, op := op, cus := cus, kept := kept, maxLen := w, hi := 2 ^ (8 * w) - 1, dflt := d }

/-- A numeric object with a range of its own. -/
def ranged (w ten op cus kept d lo hi : Nat) : Obj := { num w ten op cus kept d with lo := lo, hi := hi }

/-- An object whose write acts once (R326). -/
def trig (w ten op cus lo hi : Nat) : Obj := { ranged w ten op cus 0 0 lo hi with trigger := true }

def octs (n ten op cus kept : Nat) : Obj := { type := 0x10, ten := ten, op := op, cus := cus, kept := kept, maxLen := n }
def text (n ten op cus kept : Nat) : Obj := { octs n ten op cus kept with type := 0x11 }

def asLocal (o : Obj) : Obj := { o with local_ := true }

/-! ## Monitors (R350, R351, R366, R394) -/

/-- Factory limit, and the least and greatest user value, of limit n of monitor m; none where there is no such limit. -/
def monLimit (m n : Nat) : Option (Nat × Nat × Nat) :=
  let glitch := fun (n : Nat) => match n with
    | 1 => some (80, 40, 80)
    | 2 => some (2000, 1000, 2000)
    | _ => none
  let slow := fun (n : Nat) => match n with
    | 1 => some (60, 30, 60)
    | 2 => some (60, 30, 60)
    | 3 => some (10, 2, 10)
    | _ => none
  match m with
  | 0 => glitch n
  | 1 => slow n
  | 2 => glitch n
  | 3 => slow n
  | 4 => slow n
  | 5 => match n with
    | 1 => some (150, 50, 150)
    | 2 => some (50, 20, 50)
    | 3 => some (1000, 250, 1000)
    | _ => none
  | 6 => match n with
    | 1 => some (228, 228, 273)
    | 2 => some (398, 323, 398)
    | 3 => some (100, 10, 100)
    | _ => none
  | 7 => match n with
    | 1 => some (200, 50, 200)
    | 2 => some (200, 50, 200)
    | 3 => some (2, 1, 2)
    | _ => none
  | 8 => if n = 1 then some (5, 1, 5) else none
  | 9 => match n with
    | 1 => some (1800, 1800, 2400)
    | 2 => some (1000, 200, 1000)
    | _ => none
  | 13 => match n with
    | 1 => some (2400, 2400, 3000)
    | 2 => some (4000, 3900, 4000)
    | _ => none
  | _ => none

/-- DefaultClass and MinClass of monitor m. -/
def monClasses (m : Nat) : Nat × Nat :=
  match m with
  | 0 => (2, 1)
  | 2 => (2, 1)
  | 4 => (1, 0)
  | 7 => (3, 3)
  | 8 => (3, 3)
  | 9 => (3, 3)
  | 10 => (3, 1)
  | 13 => (4, 4)
  | _ => (1, 1)

/-- Limits that may only be raised: TEMP, CELL and VBAT .11 (R367). -/
def monRaises (m n : Nat) : Bool := n == 1 && (m == 6 || m == 9 || m == 13)

def dictMon (m sub : Nat) : Option Obj :=
  if sub = 4 then some (num 1 0 1 1 3 (monClasses m).1)
  else if sub = 5 then some (num 1 0 1 1 3 (monClasses m).2)
  else if 1 ≤ sub ∧ sub ≤ 3 then (monLimit m sub).map (fun l => num 4 0 1 1 3 l.1)
  else if 0x11 ≤ sub ∧ sub ≤ 0x13 then
    (monLimit m (sub - 0x10)).map (fun l =>
      { ranged 4 0 1 3 1 l.1 l.2.1 l.2.2 with tightenDown := !monRaises m (sub - 0x10), tightenUp := monRaises m (sub - 0x10) })
  else none

def dictMonState (m sub : Nat) : Option Obj :=
  match sub with
  | 1 => some (num 1 0 1 1 0 0)
  | 2 => some (num 8 0 1 1 0 0)
  | 3 => some (num 8 0 1 1 0 0)
  | 4 => if m = 7 then some (num 1 0 1 1 0 0) else if m = 10 then some (num 2 0 1 1 0 0) else none
  | 5 => if m = 10 then some (num 2 0 1 1 0 0) else none
  | 6 => if m = 10 then some (num 2 0 1 1 0 0) else none
  | 7 => if m = 10 then some (num 2 0 1 1 0 0) else none
  | 8 => if m = 10 then some (num 1 0 1 1 0 0) else none
  | _ => none

/-! ## Random (R262) -/

def dictRandom (index sub : Nat) : Option Obj :=
  if index = 0x3000 then
    match sub with
    | 0x01 => some (num 2 0 1 1 3 41)
    | 0x02 => some (num 2 0 1 1 3 800)
    | 0x03 => some (num 2 0 1 1 3 1024)
    | 0x04 => some (num 2 0 1 1 3 1024)
    | 0x05 => some (num 4 0 1 1 3 1048576)
    | 0x06 => some (num 4 0 1 1 3 16777216)
    | 0x07 => some (num 1 0 1 1 3 4)
    | 0x08 => some (num 1 0 1 1 3 16)
    | 0x09 => some (num 4 0 1 1 3 10000)
    | 0x0A => some (num 2 1 1 1 3 500)
    | 0x11 => some { ranged 2 0 1 3 1 41 16 41 with tightenDown := true }
    | 0x12 => some { ranged 2 0 1 3 1 800 600 800 with tightenDown := true }
    | 0x15 => some { ranged 4 0 1 3 1 1048576 1024 1048576 with tightenDown := true }
    | 0x16 => some { ranged 4 0 1 3 1 16777216 132096 16777216 with tightenDown := true }
    | 0x17 => some { ranged 1 0 1 3 1 4 4 8 with tightenUp := true }
    | 0x18 => some { ranged 1 0 1 3 1 16 1 16 with tightenDown := true }
    | 0x19 => some { ranged 4 0 1 3 1 10000 100 10000 with tightenDown := true }
    | _ => none
  else if index = 0x3001 then
    match sub with
    | 1 => some (num 1 1 1 1 0 0)
    | 2 => some (num 1 0 1 1 0 0)
    | 3 => some (num 8 0 1 1 0 0)
    | 4 => some (num 8 0 1 1 0 0)
    | _ => none
  else if index = 0x3002 then (if 1 ≤ sub ∧ sub ≤ 8 then some (num 1 0 1 1 0 0) else none)
  else if index = 0x3003 then (if 1 ≤ sub ∧ sub ≤ 8 then some (num 4 0 1 1 0 0) else none)
  else if index = 0x3004 then
    match sub with
    | 1 => some (trig 2 0 2 2 0 0xFFFF)
    | 2 => some (num 8 0 1 1 0 0)
    | _ => none
  else if index = 0x3005 then (if sub = 1 then some { num 1 0 1 1 0 0xFF with mak := 2 } else none)
  else if 0x3020 ≤ index ∧ index ≤ 0x303B then
    match sub with
    | 1 => some (num 1 0 1 1 0 0)
    | 2 => some (num 4 0 1 1 0 0)
    | 3 => some (num 8 0 1 1 0 0)
    | 4 => some (num 8 0 1 1 0 0)
    | _ => none
  else none

/-! ## Scheduler, modes (R67, R365) -/

def dictSched (index sub : Nat) : Option Obj :=
  if index = 0x4000 then
    match sub with
    | 1 => some (num 4 1 1 1 3 2000)
    | 2 => some (num 4 1 1 1 3 10240)
    | 3 => some (ranged 2 1 1 3 1 900 500 900)
    | 4 => some (num 4 1 1 1 3 100)
    | _ => none
  else if index = 0x4001 then
    match sub with
    | 1 => some (num 4 1 1 1 3 210)
    | 2 => some (num 4 1 1 1 3 100000)
    | 3 => some (num 4 1 1 1 3 1000000)
    | 4 => some (num 4 1 1 1 3 20000000)
    | _ => none
  else if index = 0x4002 then
    match sub with
    | 1 => some (ranged 1 0 2 2 1 16 1 255)
    | 2 => some (num 4 0 2 2 1 2000000)
    | 3 => some (num 4 0 2 2 1 8192)
    | 4 => some (num 4 0 2 2 1 16000)
    | 5 => some (num 4 0 2 2 1 20000)
    | _ => none
  else if index = 0x4003 then (if 1 ≤ sub ∧ sub ≤ 6 then some (num 8 0 1 1 0 0) else none)
  else if index = 0x4004 then
    match sub with
    | 1 => some (num 1 0 1 1 0 0)
    | 2 => some (num 8 0 1 1 0 0)
    | 3 => some (trig 1 0 2 2 1 1)
    | 4 => some (num 1 0 1 1 0 0)
    | 5 => some (num 1 0 1 1 0 0)
    | _ => none
  else if 0x4010 ≤ index ∧ index ≤ 0x402B then
    let b := index - 0x4010
    match sub with
    | 1 => some (num 1 0 1 1 0 0)
    | 2 => some (num 8 0 1 1 0 0)
    | 3 => some (num 4 0 1 1 0 0)
    | 4 => some (num 1 0 1 1 0 (engineCount b))
    | _ => none
  else none

/-! ## Tables and pools (R97, R130, R214) -/

/-- Nodes of a stage (R194), as the default of TrieStageNodesFree. -/
def stageNodes (stage : Nat) : Nat :=
  if stage = 0 then 6144 else if stage = 1 then 26624 else if stage ≤ 16 then 65536 else 16384

def dictTables (index sub : Nat) : Option Obj :=
  match index with
  | 0x5000 => match sub with
    | 1 => some (num 4 1 1 1 3 262144)
    | 2 => some (num 4 0 1 1 0 0)
    | _ => none
  | 0x5001 => match sub with
    | 1 => some (num 4 1 1 1 3 65536)
    | 2 => some (num 4 0 1 1 0 0)
    | 3 => some (num 4 0 1 1 0 0)
    | 4 => some (num 8 0 1 1 0 0)
    | 5 => some (num 8 0 1 1 0 0)
    | _ => none
  | 0x5002 => if sub = 1 then some (num 4 1 1 1 3 262144) else none
  | 0x5010 => match sub with
    | 1 => some (num 4 1 1 1 3 131072)
    | 2 => some (num 2 0 1 1 0 512)
    | 3 => some (num 4 1 1 1 3 1048576)
    | _ => none
  | 0x5011 => if 1 ≤ sub ∧ sub ≤ 0x13 then some (num 4 0 1 1 0 (stageNodes (sub - 1))) else none
  | 0x5040 => match sub with
    | 1 => some (num 4 0 1 1 3 65536)
    | 2 => some (num 4 0 1 1 0 65536)
    | 3 => some (num 2 1 1 1 3 100)
    | _ => none
  | 0x5041 => match sub with
    | 1 => some (num 4 0 1 1 3 262144)
    | 2 => some (num 4 0 1 1 0 262144)
    | _ => none
  | 0x5042 => match sub with
    | 1 => some (num 4 0 1 1 3 8192)
    | 2 => some (num 4 0 1 1 0 8192)
    | _ => none
  | 0x5050 => if 1 ≤ sub then some (num 2 0 2 2 1 0xFFFF) else none
  | 0x5051 => if 1 ≤ sub then some (ranged 1 0 2 2 1 0 0 2) else none
  | 0x5052 => if 1 ≤ sub then some (num 4 0 1 1 0 0) else none
  | 0x5053 => if 1 ≤ sub then some (num 8 0 1 1 0 0) else none
  | _ => none

/-! ## Keys, journal, payment, public key (R156, R186, R238, R296) -/

def dictKeys (index sub : Nat) : Option Obj :=
  if 0x6050 ≤ index ∧ index ≤ 0x605F then some (num 4 1 1 3 1 0xFFFFFFFF)
  else if 0x6060 ≤ index ∧ index ≤ 0x606F then some (num 8 1 1 1 2 0)
  else match index with
  | 0x6000 => match sub with
    | 1 => some (num 1 1 1 1 2 1)
    | 2 => some (num 4 0 1 1 2 0)
    | 3 => some (num 8 1 1 1 2 0)
    | _ => none
  | 0x6001 => match sub with
    | 1 => some (num 4 0 1 1 3 2000)
    | 2 => some (num 8 0 1 1 3 (250 + 60000 * 2 ^ 32))
    | _ => none
  | 0x6002 => match sub with
    | 1 => some (num 2 0 1 1 0 0)
    | 2 => some (num 2 0 1 1 0 0)
    | 3 => some (num 2 0 1 1 0 0)
    | 4 => some (num 8 0 1 1 0 0)
    | 5 => some (num 8 0 1 1 0 0)
    | _ => none
  | 0x6020 => match sub with
    | 1 => some (num 4 1 1 1 3 65536)
    | 2 => some (num 8 0 1 1 2 0)
    | 3 => some (num 2 0 1 1 0 0)
    | 4 => some (num 2 0 1 1 3 128)
    | 5 => some (num 8 0 1 1 0 0)
    | 6 => some (num 8 0 1 1 0 0)
    | 7 => some (num 1 0 1 1 0 0)
    | 8 => some (num 4 0 1 1 3 16777216)
    | 9 => some (trig 1 0 0 3 1 1)
    | _ => none
  | 0x6021 => match sub with
    | 1 => some (num 8 0 1 1 2 0)
    | 2 => some (num 1 0 1 1 0 0)
    | 3 => some (trig 1 0 0 3 1 1)
    | _ => none
  | 0x6030 => match sub with
    | 1 => some (num 2 0 2 2 1 0xDDFD)
    | 2 => some (ranged 1 0 2 2 1 12 4 12)
    | 3 => some (ranged 1 0 2 2 1 1 0 1)
    | _ => none
  | 0x6040 =>
    if 0x10 ≤ sub ∧ sub ≤ 0x1F then some (num 4 0 1 1 0 0)
    else match sub with
    | 1 => some (num 8 0 1 1 0 0)
    | 2 => some (num 8 0 1 1 0 0)
    | 3 => some (num 8 0 1 1 0 0)
    | 4 => some (num 4 0 1 1 0 0)
    | 5 => some (num 8 0 1 1 0 0)
    | 6 => some (num 8 1 1 1 3 (17 + 24 * 2 ^ 16 + 24 * 2 ^ 32 + 30 * 2 ^ 48))
    | _ => none
  | _ => none

/-! ## Identity, link, configuration, events (R351, R441, R467) -/

/-- Codes never suppressed have no EvrRate object (R441); codes that exist (R436). -/
def limitedCodes : List Nat :=
  [0x1105] ++ (upTo 14).map (0x2101 + ·) ++ [0x2112, 0x2113, 0x2114, 0x3101, 0x4102, 0x4103, 0x5101, 0x5102, 0x5103, 0x5104]
    ++ [0x6101, 0x7102, 0x7103, 0x7105, 0x7107, 0x7108]

def dictCommon (index sub : Nat) : Option Obj :=
  match index with
  | 0x1000 => match sub with
    | 1 => some (text 32 1 1 1 3)
    | 2 => some (text 32 1 1 1 3)
    | 3 => some (octs 32 1 1 1 2)
    | 4 => some (text 32 1 1 1 0)
    | 5 => some (num 8 1 1 1 0 0)
    | _ => none
  | 0x1100 => match sub with
    | 1 => some (asLocal (num 1 0 1 1 0 0))
    | 2 => some (asLocal (num 4 1 1 1 3 60412))
    | 3 => some (asLocal (num 4 0 1 1 0 0))
    | 4 => some (asLocal (num 8 0 1 1 0 0))
    | _ => none
  | 0x1120 => if sub = 1 then some (asLocal (num 1 0 1 1 0 0)) else none
  | 0x1130 => match sub with
    | 1 => some (asLocal (num 1 0 1 1 0 0))
    | 2 => some (asLocal (num 1 0 1 1 0 0))
    | _ => none
  | 0x1180 => if 1 ≤ sub ∧ sub ≤ 0x40 then some (asLocal (octs 16 0 2 2 1)) else none
  | 0x1181 => match sub with
    | 1 => some (asLocal (num 4 0 1 1 0 0))
    | 2 => some (asLocal (octs 16 0 1 1 0))
    | 3 => some (asLocal (num 4 0 1 1 0 0))
    | 4 => some (asLocal (trig 1 0 2 2 1 1))
    | _ => none
  | 0x1182 => if 1 ≤ sub ∧ sub ≤ 0xC0 then some (asLocal (octs 16 0 1 1 0)) else none
  | 0x1F00 => match sub with
    | 1 => some (num 8 1 1 1 2 0)
    | 2 => some (num 8 0 1 1 2 0)
    | 3 => some (num 1 0 1 1 0 0)
    | 4 => some (trig 1 0 0 3 1 1)
    | 5 => some (num 1 0 1 1 0 0)
    | _ => none
  | 0x1F01 => match sub with
    | 1 => some (octs 32 1 1 1 0)
    | 2 => some (octs 32 0 1 1 0)
    | 3 => some (num 8 1 1 1 0 0)
    | _ => none
  | 0x1F02 => match sub with
    | 1 => some (num 2 0 1 1 3 1)
    | 2 => some (num 8 0 1 1 0 0)
    | 3 => some (num 8 0 1 1 0 0)
    | _ => none
  | 0x2800 =>
    if 1 ≤ sub ∧ sub ≤ 14 then some (ranged 1 0 1 3 1 (monClasses (sub - 1)).1 (monClasses (sub - 1)).2 5)
    else match sub with
    | 0x20 => some (trig 1 0 0 3 1 1)
    | 0x21 => some (num 1 0 1 1 0 0xFF)
    | 0x22 => some (num 2 0 1 1 0 0)
    | _ => none
  | 0x7000 => match sub with
    | 1 => some (ranged 1 0 1 3 1 2 2 16)
    | 2 => some (num 1 0 1 1 0 0)
    | _ => none
  | 0x9000 => if sub = 1 then some (asLocal (ranged 1 0 2 2 1 0 0 2)) else none
  | 0xC000 => match sub with
    | 1 => some (num 4 0 1 1 3 65536)
    | 2 => some (num 8 0 1 1 0 0)
    | 3 => some (num 8 0 1 1 0 0)
    | 4 => some (octs (65536 * 32) 0 1 1 0)
    | 5 => some (trig 1 0 0 3 1 1)
    | 6 => some (num 8 0 1 1 0 0)
    | 7 => some (octs 32768 0 1 1 2)
    | 8 => some (num 8 0 1 1 2 0)
    | _ => none
  | 0xC020 => if sub = 1 then some (num 8 0 1 3 1 (100 + 1000 * 2 ^ 32)) else none
  | 0xE000 => match sub with
    | 1 => some (num 1 0 1 1 3 64)
    | 2 => some (num 2 0 1 1 3 4096)
    | 3 => some (num 4 0 1 1 3 1048576)
    | 4 => some (ranged 4 0 2 2 1 900 60 3600)
    | 5 => some (num 1 0 1 1 0 0)
    | 6 => some (num 4 0 1 1 0 0)
    | 7 => some (num 8 0 1 1 0 0)
    | 8 => some (num 8 0 1 1 0 0)
    | _ => none
  | _ => none

/-! ## Life cycle, firmware, Envelope (R351, R365, R394, R415) -/

def dictLife (index sub : Nat) : Option Obj :=
  match index with
  | 0xA000 => match sub with
    | 1 => some (num 1 1 1 1 3 0)
    | 2 => some { trig 1 0 0 3 0 0xFF with mak := 2 }
    | 3 => some (num 1 0 1 1 0 0)
    | 4 => some (num 1 0 1 1 3 0)
    | 5 => some (num 1 0 1 1 3 3)
    | 6 => some (num 2 0 1 1 3 0)
    | _ => none
  | 0xA001 => match sub with
    | 1 => some (trig 4 0 2 2 0 0xFFFFFFFF)
    | 2 => some (octs 128 0 1 1 0)
    | 3 => some { octs 160 0 2 2 0 with trigger := true }
    | 4 => some (num 1 1 1 1 0 0)
    | 5 => some (num 4 1 1 1 0 0)
    | 6 => some (num 1 0 1 1 3 0)
    | 7 => some (num 4 0 1 1 2 0)
    | _ => none
  | 0xA002 => match sub with
    | 1 => some (num 1 0 1 1 0 1)
    | 2 => some (octs 44 0 1 1 0)
    | 3 => some (num 8 0 1 1 2 0)
    | _ => none
  | 0xB000 => match sub with
    | 1 => some (octs 65536 0 2 2 0)
    | 2 => some (octs 16 0 2 2 0)
    | 3 => some (num 1 0 1 1 0 0)
    | 4 => some (num 4 0 1 1 0 0)
    | 5 => some (trig 2 0 1 3 0 0xFFFF)
    | 6 => some (num 1 0 1 1 0 0)
    | 7 => some (num 4 0 1 1 0 0)
    | 8 => some (num 1 1 1 1 3 0)
    | 9 => some (num 8 1 1 1 2 0)
    | _ => none
  | 0xD000 => (match sub with
    | 0x01 => some (octs 16 0 1 1 1)
    | 0x02 => some (octs 32 0 1 1 1)
    | 0x03 => some (num 8 0 1 1 1 0)
    | 0x04 => some (num 8 0 1 1 2 0)
    | 0x05 => some (num 2 0 1 1 0 1000)
    | 0x06 => some (trig 1 0 0 3 1 1)
    | 0x07 => some (num 2 0 1 1 0 0)
    | 0x08 => some (num 2 0 1 1 0 0)
    | 0x09 => some (num 2 0 1 1 0 0)
    | 0x0A => some (num 8 0 1 1 3 1600000)
    | 0x0B => some (num 4 0 1 1 3 20)
    | 0x0C => some (ranged 1 0 1 3 1 0 0 15)
    | 0x0D => some (num 8 0 1 1 2 0)
    | 0x0E => some (octs 256 0 1 1 3)
    | 0x0F => some (num 8 0 1 1 3 0)
    | _ => none).map asLocal
  | _ => none

/-! ## Instances (R349) -/

def dictInst (sub : Nat) : Option Obj :=
  match sub with
  | 0x01 => some (num 2 1 1 3 1 0xFFFF)
  | 0x02 => some (asLocal (num 1 1 2 2 1 0xFF))
  | 0x03 => some (asLocal (num 1 1 2 2 1 0))
  | 0x04 => some (num 1 1 1 1 1 0)
  | 0x05 => some (asLocal (ranged 4 1 2 2 1 0 0 (2 ^ 20 - 1)))
  | 0x10 => some (ranged 2 1 2 2 1 0 0 2048)
  | 0x11 => some (ranged 1 1 2 2 1 0 0 32)
  | 0x12 => some (num 2 1 2 2 1 0)
  | 0x13 => some (num 8 1 1 1 0 0)
  | 0x14 => some (num 8 1 1 1 0 0)
  | 0x15 => some (num 8 1 1 1 0 0)
  | 0x16 => some (num 8 1 1 1 0 0)
  | 0x20 => some (ranged 2 1 2 2 1 0 0 1024)
  | 0x21 => some (ranged 2 2 2 2 1 400 0 400)
  | 0x22 => some (num 8 1 1 1 0 0)
  | 0x23 => some (num 8 1 1 1 0 0)
  | 0x24 => some (num 8 1 1 1 0 0)
  | 0x30 => some (asLocal (num 4 1 2 2 1 0))
  | 0x40 => some (num 2 1 2 2 1 0xDDFD)
  | 0x41 => some (ranged 1 1 2 2 1 12 4 12)
  | 0x42 => some (ranged 1 1 2 2 1 1 0 1)
  | 0x43 => some (num 8 1 1 1 0 0)
  | 0x44 => some (num 8 1 1 1 0 0)
  | 0x50 => some (num 1 1 2 2 1 0)
  | 0x51 => some (ranged 4 1 2 2 1 0 0 262144)
  | 0x52 => some (ranged 4 1 2 2 1 0 0 262144)
  | 0x53 => some (ranged 4 2 2 2 1 86400 1 604800)
  | 0x54 => some (ranged 4 2 2 2 1 3600 1 86400)
  | 0x55 => some (ranged 1 2 2 2 1 1 0 2)
  | 0x56 => some (ranged 4 1 2 2 1 16 0 65536)
  | 0x57 => some (num 4 1 1 1 0 0)
  | 0x60 => some (num 1 1 2 2 1 0)
  | 0x61 => some (ranged 4 1 2 2 1 0 0 160000000)
  | 0x62 => some (ranged 4 1 2 2 1 0 0 1048576)
  | 0x63 => some (ranged 4 1 2 2 1 0 0 128000)
  | 0x64 => some (ranged 4 1 2 2 1 0 0 2000000)
  | 0x65 => some (num 4 1 1 1 0 0)
  | 0x66 => some { num 8 1 1 1 0 0 with type := 0x08 }
  | 0x67 => some (num 8 1 1 1 0 0)
  | 0x70 => some (trig 1 2 2 2 1 2)
  | 0x71 => some (num 8 1 1 1 0 0)
  | 0x72 => some (ranged 1 1 2 2 0 0 0 1)
  | 0x73 => some (trig 1 0 2 2 1 1)
  | 0x74 => some { octs 6186 0 2 2 0 with trigger := true }
  | 0x75 => some (octs 65536 0 1 1 1)
  | 0x76 => some { octs 69648 0 2 2 0 with trigger := true }
  | 0x77 => some (trig 1 0 2 2 1 1)
  | 0x78 => some (octs 1832 0 1 1 0)
  | _ => none

/-- The object at index.sub, if it exists; subindex 0 is `highestSub`. -/
def dictAt (index sub : Nat) : Option Obj :=
  if sub = 0 ∧ ¬(0x6050 ≤ index ∧ index ≤ 0x606F) then none
  else if 0x2000 ≤ index ∧ index ≤ 0x200D then dictMon (index - 0x2000) sub
  else if 0x2400 ≤ index ∧ index ≤ 0x240D then dictMonState (index - 0x2400) sub
  else if 0x2600 ≤ index ∧ index ≤ 0x260D then
    match sub with
    | 1 => some (trig 1 0 2 2 1 1)
    | 2 => some (num 8 0 1 1 0 0)
    | _ => none
  else if 0x3000 ≤ index ∧ index ≤ 0x30FF then dictRandom index sub
  else if 0x4000 ≤ index ∧ index ≤ 0x40FF then dictSched index sub
  else if 0x5000 ≤ index ∧ index ≤ 0x50FF then dictTables index sub
  else if 0x6000 ≤ index ∧ index ≤ 0x60FF then dictKeys index sub
  else if 0x7010 ≤ index ∧ index ≤ 0x701F then
    match sub with
    | 1 => some (octs 96 0 1 3 1)
    | 2 => some (ranged 1 0 1 3 1 0 0 1)
    | 3 => some (text 32 0 1 3 1)
    | _ => none
  else if 0x7040 ≤ index ∧ index ≤ 0x704F then
    match sub with
    | 1 => some { asLocal (octs 96 0 1 3 1) with mak := 2 }
    | 2 => some { asLocal (ranged 1 0 1 3 1 0 0 1) with mak := 2 }
    | _ => none
  else if 0x8000 ≤ index ∧ index ≤ 0x8FFF then dictInst sub
  else if 0x9010 ≤ index ∧ index ≤ 0x904F then
    match sub with
    | 1 => some (asLocal (ranged 1 0 2 2 1 0 0 1))
    | 2 => some (asLocal (num 2 0 1 1 0 0))
    | _ => none
  else if 0x1110 ≤ index ∧ index ≤ 0x1113 then
    (match sub with
    | 1 => some (num 1 0 1 1 0 0)
    | 2 => some (num 1 1 1 1 0 0)
    | 3 => some (num 1 1 1 1 0 0)
    | 4 => some (num 1 1 1 1 0 0)
    | 5 => some (ranged 1 1 1 3 1 0 0 1)
    | 6 => some (num 8 0 1 1 0 0)
    | 7 => some (num 4 1 1 1 0 0)
    | _ => none).map asLocal
  else if 0xA000 ≤ index ∧ index ≤ 0xB000 ∨ index = 0xD000 then dictLife index sub
  else if 0xB011 ≤ index ∧ index ≤ 0xB018 then
    match sub with
    | 1 => some (num 4 1 1 1 0 0)
    | 2 => some (num 8 0 1 1 0 0)
    | 3 => some (octs 32 0 1 1 0)
    | _ => none
  else if 0xC040 ≤ index ∧ index ≤ 0xC046 then
    if limitedCodes.contains ((index - 0xC040 + 1) * 4096 + sub + 256) then some (num 8 0 1 3 1 0) else none
  else if 0xE010 ≤ index ∧ index ≤ 0xE04F then
    match sub with
    | 1 => some (num 2 0 1 1 0 0)
    | 2 => some (num 1 0 1 1 0 0)
    | 3 => some (num 2 0 1 1 0 0)
    | 4 => some (num 2 0 1 1 0 0)
    | _ => none
  else dictCommon index sub

/-- Subindices of an index, in ascending order (R325). -/
def subsOf (index : Nat) : List Nat := (upTo 256).filter (fun sub => (dictAt index sub).isSome)

/-- Every index that may hold objects, in ascending order. -/
def allIndices : List Nat :=
  [0x1000, 0x1100] ++ (upTo 4).map (0x1110 + ·) ++ [0x1120, 0x1130, 0x1180, 0x1181, 0x1182, 0x1F00, 0x1F01, 0x1F02]
    ++ (upTo 14).map (0x2000 + ·) ++ (upTo 14).map (0x2400 + ·) ++ (upTo 14).map (0x2600 + ·) ++ [0x2800]
    ++ (upTo 6).map (0x3000 + ·) ++ (upTo 28).map (0x3020 + ·) ++ (upTo 5).map (0x4000 + ·) ++ (upTo 28).map (0x4010 + ·)
    ++ [0x5000, 0x5001, 0x5002, 0x5010, 0x5011, 0x5040, 0x5041, 0x5042, 0x5050, 0x5051, 0x5052, 0x5053]
    ++ [0x6000, 0x6001, 0x6002, 0x6020, 0x6021, 0x6030, 0x6040] ++ (upTo 32).map (0x6050 + ·) ++ [0x7000]
    ++ (upTo 16).map (0x7010 + ·) ++ (upTo 16).map (0x7040 + ·) ++ (upTo 4096).map (0x8000 + ·) ++ [0x9000]
    ++ (upTo 64).map (0x9010 + ·) ++ [0xA000, 0xA001, 0xA002, 0xB000] ++ (upTo 8).map (0xB011 + ·) ++ [0xC000, 0xC020]
    ++ (upTo 7).map (0xC040 + ·) ++ [0xD000, 0xE000] ++ (upTo 64).map (0xE010 + ·)

/-- The 32-byte descriptor (R326). -/
def descriptor (o : Obj) : Bytes :=
  Bytes.ofNatLE 1 o.type ++ Bytes.ofNatLE 1 (o.ten + 4 * o.op + 16 * o.cus + 64 * o.mak) ++ Bytes.ofNatLE 1 o.kept
    ++ Bytes.ofNatLE 1 (bit o.local_ + 2 * bit o.tightenDown + 4 * bit o.tightenUp + 8 * bit o.trigger)
    ++ Bytes.ofNatLE 4 o.maxLen ++ Bytes.ofNatLE 8 o.lo ++ Bytes.ofNatLE 8 o.hi ++ Bytes.ofNatLE 8 o.dflt

/-- The object is a number. -/
def Obj.isNum (o : Obj) : Bool := decide (o.type < 0x10)

end Sys2Proof.Machine
end

