-- ==== Sys2Proof/Machine/RouteTables.lean ====
section
/-! DEFINITION. Routing by card prefix: the associative and the trie form, their copy-on-write changes, route records and
VG1024 images (R187 to R203). -/

namespace Sys2Proof.Machine

open Sys2Proof

/-- A stored prefix with its route word. -/
abbrev RouteEntry := List Nat × Nat

/-! ## Lookup -/

/-- Epoch `e` lies in [since, closed). -/
def inForce (since : Nat) (closed : Option Nat) (e : Nat) : Bool :=
  decide (since ≤ e) && (match closed with | none => true | some u => decide (e < u))

/-- `p` equals the first digits of `d`. -/
def isHead : List Nat → List Nat → Bool
  | [], _ => true
  | _ :: _, [] => false
  | a :: as, b :: bs => a == b && isHead as bs

/-- The associative search (R192): the match of greatest length among the visible blocks. -/
def assocLookup (r : Routes) (part e : Nat) (digits : List Nat) : Option Nat :=
  let hits := r.blocks.filterMap (fun b =>
    if b.2.part = part ∧ inForce b.2.since b.2.closed e then
      (b.2.entries.find? (fun en => isHead en.1 digits)).map (fun en => (b.2.len, en.2))
    else none)
  (hits.foldl (fun (m : Option (Nat × Nat)) h => match m with
    | none => some h
    | some x => if x.1 < h.1 then some h else some x) none).map (·.2)

/-- The array at a base of a stage: ten nodes (R194). -/
def trieArray (arrays : Map (List TNode)) (stage base : Nat) : List TNode := mget [] arrays (stage * 65536 + base)

/-- The walk of R196 from an array, over the digits left. -/
def trieWalk (arrays : Map (List TNode)) : Nat → Nat → List Nat → Option Nat → Option Nat
  | _, _, [], found => found
  | stage, base, d :: ds, found =>
    let node := (trieArray arrays stage base).getD d {}
    let found := match node.route with
      | some w => some w
      | none => found
    match node.child with
    | none => found
    | some b => trieWalk arrays (stage + 1) b ds found

def trieLookup (r : Routes) (part e : Nat) (digits : List Nat) : Option Nat :=
  match r.roots.find? (fun x => x.part == part && inForce x.since x.closed e) with
  | none => none
  | some x => trieWalk r.arrays 0 x.base digits none

/-- The route word of the longest stored prefix of a partition for an operation of epoch `e` (R189); none is ROUTE_MISS. -/
def routeLookup (s : State) (part e : Nat) (digits : List Nat) : Option Nat :=
  if part = 0 then none
  else match assocLookup s.routes part e digits with
    | some w => some w
    | none => trieLookup s.routes part e digits

/-! ## Words that a lookup reads (R26, R191, R194) -/

/-- Word of the route word memory that holds the entry found in the associative form: two route words to a word. -/
def assocWord (r : Routes) (part e : Nat) (digits : List Nat) : Option Nat :=
  let hits := r.blocks.filterMap (fun b =>
    if b.2.part = part ∧ inForce b.2.since b.2.closed e then
      (b.2.entries.findIdx? (fun en => isHead en.1 digits)).map (fun n => (b.2.len, (256 * b.1 + n) / 2))
    else none)
  (hits.foldl (fun (m : Option (Nat × Nat)) h => match m with
    | none => some h
    | some x => if x.1 < h.1 then some h else some x) none).map (·.2)

/-- Word of a node of a stage memory. -/
def trieWord (stage node : Nat) : Nat := 2 ^ 17 * stage + node

/-- Words of the nodes that a walk reads. -/
def trieWords (arrays : Map (List TNode)) : Nat → Nat → List Nat → List Nat
  | _, _, [] => []
  | stage, base, d :: ds =>
    trieWord stage (base + d) :: (match ((trieArray arrays stage base).getD d {}).child with
      | none => []
      | some b => trieWords arrays (stage + 1) b ds)

/-- Words that the lookup of a partition reads, by memory: of the entry found, or of the nodes walked. -/
def routeWords (s : State) (part e : Nat) (digits : List Nat) : List (Nat × Nat) :=
  if part = 0 then []
  else match assocWord s.routes part e digits with
    | some w => [(memRoutes, w)]
    | none => match s.routes.roots.find? (fun x => x.part == part && inForce x.since x.closed e) with
      | none => []
      | some x => (trieWords s.routes.arrays 0 x.base digits).map (fun w => (memTrie, w))

/-- The first mismatched word that a lookup reads. -/
def routeFault (s : State) (part e : Nat) (digits : List Nat) : Option Nat :=
  ((routeWords s part e digits).find? (fun w => wordsFail s w.1 w.2 1)).map (fun w => wordKey w.1 w.2)

/-- The routing memories as a cut leaves them: the words of every block and array that it writes take its codes (R27). -/
def writeRoutes (s : State) (r : Routes) : State :=
  let blocks := (r.blocks.filter (fun b => (mfind s.routes.blocks b.1).map (·.entries) != some b.2.entries)).map (·.1)
  let arrays := (r.arrays.filter (fun a => mfind s.routes.arrays a.1 != some a.2)).map (·.1)
  let s := each blocks s (fun s n => writeWords s memRoutes (128 * n) 128)
  let s := each arrays s (fun s k => writeWords s memTrie (trieWord (k / 65536) (k % 65536)) 10)
  { s with routes := r }

/-- Fields of a route word (R190). -/
def routeZone (w : Nat) : Nat := bits w 0 18
def routeFmt (w : Nat) : Nat := bits w 18 4
def routeKeep (w : Nat) : Bool := bitOf w 22

/-! ## Contents -/

/-- Order of prefixes in a partition's content: digit by digit, a prefix before what extends it. -/
def digitsLt : List Nat → List Nat → Bool
  | [], [] => false
  | [], _ :: _ => true
  | _ :: _, [] => false
  | a :: as, b :: bs => if a = b then digitsLt as bs else decide (a < b)

/-- SET of a prefix (R199). -/
def routeSet : List RouteEntry → List Nat → Nat → List RouteEntry
  | [], p, w => [(p, w)]
  | e :: rest, p, w =>
    if e.1 = p then (p, w) :: rest
    else if digitsLt e.1 p then e :: routeSet rest p w
    else (p, w) :: e :: rest

def routeDel (l : List RouteEntry) (p : List Nat) : List RouteEntry := l.filter (fun e => e.1 != p)

def routeGet (l : List RouteEntry) (p : List Nat) : Option Nat := (l.find? (fun e => e.1 == p)).map (·.2)

/-! ## Free blocks and nodes -/

/-- The lowest free block (R191). -/
def freeBlock (r : Routes) : Option Nat := (upTo 512).find? (fun n => (mfind r.blocks n).isNone)

def blocksFree (r : Routes) : Nat := 512 - r.blocks.length

def stageUsed (arrays : Map (List TNode)) (stage : Nat) : Nat :=
  10 * (arrays.filter (fun e => e.1 / 65536 == stage)).length

def nodesFree (r : Routes) (stage : Nat) : Nat := stageNodes stage - stageUsed r.arrays stage

/-- The lowest free array base of a stage. -/
def freeBase (arrays : Map (List TNode)) (stage : Nat) : Option Nat :=
  ((upTo (stageNodes stage / 10)).find? (fun n => (mfind arrays (stage * 65536 + 10 * n)).isNone)).map (10 * ·)

/-! ## Copy-on-write in the associative form (R202) -/

/-- A block being formed: the block it comes from, its length and content. -/
structure WorkBlock where
  src : Option Nat
  len : Nat
  before : List RouteEntry
  entries : List RouteEntry
  deriving DecidableEq, Repr

/-- A new prefix goes into the first block of its length with room, behind its entries, else into a block of its own. DESIGN CHOICE (log
entry 241): the manual does not say which of several blocks with room takes it, nor at which entry. -/
def insertWork : List WorkBlock → RouteEntry → List WorkBlock
  | [], e => [{ src := none, len := e.1.length, before := [], entries := [e] }]
  | w :: rest, e =>
    if w.len = e.1.length ∧ w.entries.length < 256 then { w with entries := w.entries ++ [e] } :: rest
    else w :: insertWork rest e

/-- What a joint leaves a partition to start from: what it held, nothing after a CLEAR or a change of its form, or an image with its
handle base. -/
inductive Load where
  | kept
  | empty
  | image (b : Bytes) (base : Nat)
  deriving DecidableEq, Repr

/-- The blocks of a partition as the new content makes them. -/
def workBlocks (r : Routes) (part : Nat) (content : List RouteEntry) : List WorkBlock :=
  let olds := (r.blocks.filter (fun b => b.2.part == part && b.2.closed.isNone)).map (fun b =>
    ({ src := some b.1, len := b.2.len, before := b.2.entries
       entries := b.2.entries.filterMap (fun e => (routeGet content e.1).map (fun w => (e.1, w))) } : WorkBlock))
  let held := olds.flatMap (fun w => w.before.map (·.1))
  (content.filter (fun e => !held.contains e.1)).foldl insertWork olds

/-- One block closed at the cut epoch, and its copy opened, an empty one where the changes leave it none of its prefixes. -/
def switchBlock (part cut : Nat) (acc : Option (Routes × List Nat)) (w : WorkBlock) : Option (Routes × List Nat) :=
  match acc with
  | none => none
  | some (r, closed) =>
    if w.entries = w.before then some (r, closed)
    else
      let fresh := (freeBlock r).map (fun n =>
        { r with blocks := mput r.blocks n { part := part, len := w.len, since := cut, closed := none, entries := w.entries } })
      fresh.map (fun r => match w.src with
        | none => (r, closed)
        | some n => ({ r with blocks := (r.blocks.map (fun b => if b.1 = n then (n, { b.2 with closed := some cut }) else b)) },
            n :: closed))

/-- The associative form of a partition takes a content at the cut; none where blocks run out. -/
def assocApply (r : Routes) (part cut : Nat) (content : List RouteEntry) : Option (Routes × List Nat) :=
  (workBlocks r part content).foldl (switchBlock part cut) (some (r, []))

/-- Every block of a partition closed at the cut. -/
def closeBlocks (r : Routes) (part cut : Nat) : Routes × List Nat :=
  let bs := (r.blocks.filter (fun b => b.2.part == part && b.2.closed.isNone)).map (·.1)
  ({ r with blocks := r.blocks.map (fun b => if bs.contains b.1 then (b.1, { b.2 with closed := some cut }) else b) }, bs)

/-! ## Copy-on-write in the trie form (R202) -/

/-- Content below an array: the paths to its routes. -/
def trieContent (arrays : Map (List TNode)) : Nat → Nat → Nat → List RouteEntry
  | 0, _, _ => []
  | fuel + 1, stage, base =>
    ((trieArray arrays stage base).zipIdx).flatMap (fun e =>
      (match e.1.route with | some w => [([e.2], w)] | none => [])
        ++ (match e.1.child with
          | some b => (trieContent arrays fuel (stage + 1) b).map (fun x => (e.2 :: x.1, x.2))
          | none => []))

/-- Entries of a content that begin with a digit, with that digit taken off. -/
def below (content : List RouteEntry) (d : Nat) : List RouteEntry :=
  content.filterMap (fun e => match e.1 with
    | x :: rest => if x = d ∧ rest ≠ [] then some (rest, e.2) else none
    | [] => none)

/-- Arrays under construction: the memory, whether room lasted, and, where equal arrays of a stage are placed once, the arrays placed. -/
structure TrieWork where
  arrays : Map (List TNode)
  ok : Bool := true
  placed : Option (List Nat) := none
  deriving DecidableEq, Repr

/-- A list without repeats, in order of first occurrence. -/
def distinct (l : List Nat) : List Nat := l.foldl (fun acc x => if acc.contains x then acc else acc ++ [x]) []

/-- Every array that walks from some arrays of a stage reach, each once. -/
def trieReach (arrays : Map (List TNode)) : Nat → Nat → List Nat → List (Nat × Nat)
  | 0, _, _ => []
  | fuel + 1, stage, bases =>
    bases.map (fun b => (stage, b))
      ++ trieReach arrays fuel (stage + 1) (distinct (bases.flatMap (fun b => (trieArray arrays stage b).filterMap (·.child))))

/-- The array of a stage already placed with these nodes, where equal arrays are placed once. -/
def samePlaced (w : TrieWork) (stage : Nat) (nodes : List TNode) : Option Nat :=
  ((w.placed.getD []).find? (fun k => k / 65536 == stage && mget [] w.arrays k == nodes)).map (· % 65536)

/-- An array placed in free nodes of its stage. -/
def placeArray (w : TrieWork) (stage : Nat) (nodes : List TNode) : Option Nat × TrieWork :=
  match samePlaced w stage nodes, freeBase w.arrays stage with
  | some b, _ => (some b, w)
  | none, none => (none, { w with ok := false })
  | none, some b => (some b, { w with arrays := mput w.arrays (stage * 65536 + b) nodes, placed := w.placed.map (fun l => (stage * 65536 + b) :: l) })

/-- An array for a content at a stage: the old one where its content is unchanged, else a fresh array, a copy of the old one with its
links; none where the content is empty and no array is needed. -/
def trieBuild : Nat → TrieWork → Nat → Option Nat → List RouteEntry → Bool → Option Nat × TrieWork
  | 0, w, _, _, _, _ => (none, w)
  | fuel + 1, w, stage, old, content, keepEmpty =>
    match (match old with
      | some b => if trieContent w.arrays (fuel + 1) stage b = content ∧ (keepEmpty ∨ content ≠ []) then some b else none
      | none => none) with
    | some b => (some b, w)
    | none =>
      let oldNodes := match old with
        | some b => trieArray w.arrays stage b
        | none => []
      if content.isEmpty ∧ keepEmpty = false then (none, w)
      else
        let (nodes, w) := (upTo 10).foldl (fun (acc : List TNode × TrieWork) d =>
          let child := (oldNodes.getD d {}).child
          let (c, w') := trieBuild fuel acc.2 (stage + 1) child (below content d) child.isSome
          (acc.1 ++ [{ child := c, route := routeGet content [d] }], w')) ([], w)
        placeArray w stage nodes

/-! ## VG1024 images in the stage memories (R200, R201) -/

def imageCounts (b : Bytes) : List Nat := (upTo 19).map (fun s => Bytes.fieldLE b (8 + 4 * s) 4)

/-- Node number `n` of an image, counted over all sections. -/
def imageNode (b : Bytes) (n : Nat) : Nat := Bytes.fieldLE b (128 + 8 * n) 8

/-- First node number of a section. -/
def sectionStart (counts : List Nat) (s : Nat) : Nat := (counts.take s).foldl (· + ·) 0

/-- The ten nodes of an image's array. -/
def imageArray (b : Bytes) (s at_ : Nat) : List Nat := (upTo 10).map (fun d => imageNode b (sectionStart (imageCounts b) s + at_ + d))

/-- The base of the child array that an image's node names. -/
def imageChild (v : Nat) : Option Nat := if bitOf v 33 then some (bits v 34 16) else none

/-- The route word of an image's node in this device's form. -/
def imageRoute (base v : Nat) : Option Nat :=
  if bitOf v 32 then some (base + bits v 0 16 + bits v 16 4 * 2 ^ 18 + bits v 20 8 * 2 ^ 24) else none

/-- Arrays of an image that walks from some arrays of a stage reach, by stage, each once. -/
def imageReach (b : Bytes) : Nat → Nat → List Nat → List (List Nat)
  | 0, _, _ => []
  | fuel + 1, s, arrays => arrays :: imageReach b fuel (s + 1) (distinct (arrays.flatMap (fun a => (imageArray b s a).filterMap imageChild)))

/-- The arrays of one stage of an image relocated, given where those of the next stage went. -/
def relocateStage (b : Bytes) (base s : Nat) (arrays : List Nat) (next : Map Nat) (w : TrieWork) : Map Nat × TrieWork :=
  arrays.foldl (fun acc a =>
    let nodes := (imageArray b s a).map (fun v => ({ child := (imageChild v).map (mget 0 next), route := imageRoute base v } : TNode))
    match placeArray acc.2 s nodes with
    | (some n, w) => (mput acc.1 a n, w)
    | (none, w) => (acc.1, w)) ([], w)

/-- The arrays of an image that walks from its root array reach, relocated; the base of the root array (R201; log entry 83). -/
def relocateImage (b : Bytes) (base : Nat) (w : TrieWork) : Nat × TrieWork :=
  let root := Bytes.fieldLE b 0x54 4
  let (at_, w) := ((imageReach b 19 0 [root]).zipIdx).foldr (fun e acc => relocateStage b base e.2 e.1 acc.1 acc.2) (([], w) : Map Nat × TrieWork)
  (mget 0 at_ root, w)

/-- The trie form of a partition takes a content at the cut, from the arrays of an image where one is loaded; every array that only
walks from the old root reach is given up, and one that no walk reaches is free at once (R201, R202). None where nodes run out. -/
def trieApply (r : Routes) (part cut : Nat) (load : Load) (share : Bool) (content : List RouteEntry) :
    Option (Routes × List (Nat × Nat)) :=
  let old := (r.roots.find? (fun x => x.part == part && x.closed.isNone)).map (·.base)
  let (src, w) := match load with
    | .image b base => let (n, w) := relocateImage b base { arrays := r.arrays }; (some n, w)
    | .kept => (old, { arrays := r.arrays })
    | .empty => (none, { arrays := r.arrays, placed := if share then some [] else none })
  if w.ok = false then none
  else match trieBuild 19 w 0 src content true with
  | (some base, w) =>
    if w.ok = false then none
    else if old = some base then some (r, [])
    else
      let olds := trieReach r.arrays 19 0 old.toList
      let news := trieReach w.arrays 19 0 [base]
      let roots := r.roots.map (fun x => if x.part = part ∧ x.closed.isNone then { x with closed := some cut } else x)
      let arrays := w.arrays.filter (fun e => (mfind r.arrays e.1).isSome || news.contains (e.1 / 65536, e.1 % 65536))
      some ({ r with arrays := arrays, roots := roots ++ [{ part := part, base := base, since := cut, closed := none }] },
        olds.filter (fun e => !news.contains e))
  | (none, _) => none

/-- Everything a partition holds in either form is closed at the cut: what a change of form or an emptying does (R188). -/
def closePart (r : Routes) (part cut : Nat) : Routes × List Nat × List (Nat × Nat) :=
  let arrs := (r.roots.filter (fun x => x.part == part && x.closed.isNone)).flatMap (fun x => trieReach r.arrays 19 0 [x.base])
  let (r, bs) := closeBlocks r part cut
  ({ r with
      roots := r.roots.map (fun x => if x.part = part ∧ x.closed.isNone then { x with closed := some cut } else x) },
    bs, arrs)

/-- A partition takes a form and a content at the cut epoch from what the joint leaves it to start from; what it gives up returns later
(R202); `share` places equal arrays of a stage once. None where blocks or nodes run out: 0x0602. DESIGN CHOICE (log entry 242): blocks of
a partition that a CLEAR empties are given up, not copied as empty ones. -/
def applyPart (r : Routes) (part cut : Nat) (oldForm : Nat) (load : Load) (share : Bool) (p : Part) : Option (Routes × List Nat × List (Nat × Nat)) :=
  let (r, bs, arrs) := if p.form = oldForm then (r, [], []) else closePart r part cut
  if p.form = 1 then
    let (r, gone) := if load = .kept then (r, []) else closeBlocks r part cut
    (assocApply r part cut p.routes).map (fun x => (x.1, x.2 ++ gone ++ bs, arrs))
  else if p.form = 2 then (trieApply r part cut load share p.routes).map (fun x => (x.1, bs, x.2 ++ arrs))
  else some (r, bs, arrs)

/-- The routing memories once the copies of all cuts up to a time have returned to free (R202). -/
def returnedBy (r : Routes) (t : Nat) : Routes :=
  let due := r.returns.filter (fun x => decide (x.cutT ≤ t))
  let bs := due.flatMap (·.blocks)
  let arrs := (due.flatMap (·.arrays)).map (fun e => e.1 * 65536 + e.2)
  { r with
    blocks := r.blocks.filter (fun b => !bs.contains b.1)
    arrays := r.arrays.filter (fun a => !arrs.contains a.1)
    roots := r.roots.filter (fun x => x.closed.isNone || !arrs.contains x.base)
    returns := r.returns.filter (fun x => decide (t < x.cutT)) }

/-- Copies whose 1,000 ns have passed return to free (R202). -/
def returnCopies (s : State) : State := if s.now < 1000 then s else { s with routes := returnedBy s.routes (s.now - 1000) }

/-! ## Route records (R198, R199) -/

/-- A route record with the image that follows it. -/
structure RouteRec where
  rop : Nat
  part : Nat
  len : Nat
  digits : List Nat
  route : Nat
  aux : Nat
  image : Bytes
  deriving DecidableEq, Repr

def parseRoute (b : Bytes) : RouteRec :=
  let len := Bytes.fieldLE b 2 1
  { rop := Bytes.fieldLE b 0 1, part := Bytes.fieldLE b 1 1, len := len
    digits := (Bytes.nibbles (Bytes.slice b 4 10)).take len
    route := Bytes.fieldLE b 0x10 4, aux := Bytes.fieldLE b 0x14 4, image := b.drop 24 }

/-- Reserved bytes and nibbles zero, and the route word's rules (R190, R199). -/
def routeReserved (b : Bytes) (r : RouteRec) : Bool :=
  let nib := Bytes.nibbles (Bytes.slice b 4 10)
  Bytes.fieldLE b 3 1 == 0 && Bytes.fieldLE b 0xE 2 == 0 && (nib.drop (min r.len 19)).all (· == 0)
    && (if r.rop = 1 then !bitOf r.route 23 && !(routeKeep r.route && routeFmt r.route != 0) else r.route == 0)
    && (if r.rop = 4 then decide (r.aux < 2 ^ 18) else r.aux == 0)

/-! ## VG1024 images (R200, R201) -/

/-- CRC-32 of IEEE 802.3. -/
def crc32 (bs : Bytes) : Nat :=
  (bs.foldl (fun c b =>
    (List.range 8).foldl (fun c _ => if bitOf c 0 then (c >>> 1) ^^^ 0xEDB88320 else c >>> 1) (c ^^^ b.toNat)) 0xFFFFFFFF)
    ^^^ 0xFFFFFFFF

/-- The header of an image and its length agree (R200, R201). DESIGN CHOICE (log entry 202): the list of R201 names neither the fields
that R200 gives as zero nor the root array, which must lie inside section 0. -/
def imageHeaderOk (b : Bytes) : Bool :=
  let counts := imageCounts b
  let total := counts.foldl (· + ·) 0
  Bytes.fieldLE b 0 4 == 0x56471024 && Bytes.fieldLE b 4 2 == 2 && Bytes.fieldLE b 6 2 == 0
    && counts.all (fun n => n % 10 == 0) && Bytes.fieldLE b 0x58 4 == total && decide (total ≤ 131056)
    && b.length == 128 + 8 * total && Bytes.allZero (Bytes.slice b 0x60 32)
    && decide (Bytes.fieldLE b 0x54 4 + 10 ≤ counts.headD 0)
    && crc32 (b.drop 128) == Bytes.fieldLE b 0x5C 4

/-- Every node obeys R201 for an image handle base. -/
def imageNodesOk (b : Bytes) (base : Nat) : Bool :=
  let counts := imageCounts b
  (upTo 19).all (fun s => (upTo (counts.getD s 0)).all (fun j =>
    let v := imageNode b (sectionStart counts s + j)
    (if bitOf v 33 then decide (s < 18) && decide (bits v 34 16 + 10 ≤ counts.getD (s + 1) 0) else true)
      && bits v 28 4 == 0 && decide (base + bits v 0 16 < 2 ^ 18)))

/-- The content of an image in the form of this device (R201). -/
def imageContent (b : Bytes) (base : Nat) : Nat → Nat → Nat → List RouteEntry
  | 0, _, _ => []
  | fuel + 1, s, at_ =>
    ((imageArray b s at_).zipIdx).flatMap (fun e =>
      ((imageRoute base e.1).toList.map (fun w => ([e.2], w)))
        ++ (match imageChild e.1 with
          | some c => (imageContent b base fuel (s + 1) c).map (fun x => (e.2 :: x.1, x.2))
          | none => []))

def imageRoutes (b : Bytes) (base : Nat) : List RouteEntry := imageContent b base 19 0 (Bytes.fieldLE b 0x54 4)

/-- Checks of a route record at its point of the joint, in the order of R199; 0 where all pass. `form` and `content` are
those of the partition at that point, `formAtCut` its form at the cut, `mayPart` whether the path may change the
partition, `whole` whether its image has been staged to the last byte (R334). -/
def checkRoute (b : Bytes) (form formAtCut : Nat) (content : List RouteEntry) (mayPart whole : Bool) : Nat :=
  let r := parseRoute b
  if r.rop = 0 ∨ 4 < r.rop then 0x0203
  else if routeReserved b r = false then 0x0203
  else if r.part = 0 ∨ (if r.rop ≤ 2 then r.len = 0 ∨ 19 < r.len else r.len ≠ 0) then 0x0202
  else if form ≠ 1 ∧ form ≠ 2 then 0x0203
  else if r.digits.all (· ≤ 9) = false then 0x0407
  else if mayPart = false then 0x0302
  else if r.rop = 4 ∧ (formAtCut ≠ 2 ∨ (whole ∧ (imageHeaderOk r.image = false ∨ imageNodesOk r.image r.aux = false))) then 0x0203
  else if r.rop = 2 ∧ (routeGet content r.digits).isNone then 0x0601
  else 0

/-- Effect of a record on a content. -/
def applyRoute (r : RouteRec) (content : List RouteEntry) : List RouteEntry :=
  match r.rop with
  | 1 => routeSet content r.digits r.route
  | 2 => routeDel content r.digits
  | 3 => []
  | _ => (imageRoutes r.image r.aux).foldl (fun l e => routeSet l e.1 e.2) []

end Sys2Proof.Machine
end

