-- ==== Sys2Proof/Machine/Plans.lean ====
section
/-! DEFINITION. Plans: segments, charges, classes, split and DMA bytes of every ring operation (R42, R43, R48, R55 to R57),
and the charges of inline lines (R59, R81). -/

namespace Sys2Proof.Machine

open Sys2Proof

/-- A stretch of work: offset from the start of the plan, duration, engines in parallel. -/
structure Seg where
  off : Nat
  dur : Nat
  par : Nat
  deriving DecidableEq, Repr

/-- Time of a segment that falls into frame `j` of the plan. -/
def segIn (j : Nat) (g : Seg) : Nat :=
  g.par * (min (g.off + g.dur) (2000 * (j + 1)) - max g.off (2000 * j))

/-- A plan from its segments and wall span (R48); `bytes` of a host buffer are charged in the read and in the write DMA book (R57). -/
def planOf (kind : Kind) (segs : List Seg) (w : Nat) (bytes split : Nat) : Plan :=
  let l := ceilDiv w 2000
  { kind := kind, w := w, len := l
    charge := (upTo l).map (fun j => segs.foldl (fun a g => a + segIn j g) 0)
    core := segs.foldl (fun a g => a + g.par * g.dur) 0
    dmaRead := ceilDiv bytes (max l 1), dmaWrite := ceilDiv bytes (max l 1), split := split }

/-- Bounds, frames and longest plans of the classes (R42). -/
def classFrames : DClass → Nat
  | .inlineC => 0
  | .express => 50
  | .standard => 500
  | .bulk => 10000

def classLmax : DClass → Nat
  | .inlineC => 0
  | .express => 46
  | .standard => 496
  | .bulk => 9996

/-- The shortest class at or above a minimum that holds a plan of length `l` (R43). -/
def classFor (lo : DClass) (l : Nat) : DClass :=
  match lo with
  | .express => if l ≤ 46 then .express else if l ≤ 496 then .standard else .bulk
  | .standard => if l ≤ 496 then .standard else .bulk
  | c => c

/-- Blocks of `n` bytes. -/
def blocksOf (n blk : Nat) : Nat := ceilDiv n blk

/-- Duration of a symmetric segment over `n` blocks of `tenths`, rounded up to a whole ns. -/
def segNs (n tenths : Nat) : Nat := ceilDiv (2000 + n * tenths) 10

/-- Blocks that a CIPHER operation runs in all (R55, R137). -/
def cipherBlocks (d : Bytes) (t : Nat) : Nat :=
  let blk := if isTdes t then 8 else 16
  if cipherMode d = 2 then cipherLen d
  else if cipherMode d = 6 then blocksOf (aadLen d) 16 + blocksOf (cipherLen d) 16
  else blocksOf (cipherLen d) blk

/-- The segment of one of `k` parallel parts of a CIPHER operation (R55, R139). -/
def cipherSegNs (d : Bytes) (t k : Nat) : Nat :=
  segNs (ceilDiv (cipherBlocks d t) k + (if cipherMode d = 6 then 1 else 0)) (blockTenths t)

/-- A plan of one or more equal cipher segments, with the DMA gaps of a host buffer of `bytes` (R57). -/
def bufferPlan (seg k bytes : Nat) (host : Bool) : Plan :=
  let gap := if host then 4000 else 0
  planOf .cipher [{ off := gap, dur := seg, par := k }] (gap + seg + gap) (if host then bytes else 0) k

/-- The plan's DMA charges lie within a head's books (R56). -/
def dmaSmall (cap : Nat) (p : Plan) : Bool := decide (p.dmaRead ≤ cap) && decide (p.dmaWrite ≤ cap)

/-- Split k, halved until the plan passes the DMA check (R56). DESIGN CHOICE (log entry 192): an odd k is halved rounding down. -/
def splitPlan (mk : Nat → Plan) (cap : Nat) : Nat → Nat → Plan
  | 0, _ => mk 1
  | fuel + 1, k => if k ≤ 1 ∨ dmaSmall cap (mk k) then mk k else splitPlan mk cap fuel (k / 2)

def cipherPlan (d : Bytes) (t cap : Nat) : Plan :=
  let host := dInLoc d == 2
  let mk := fun k => bufferPlan (cipherSegNs d t k) k (dInLen d) host
  if host ∧ (cipherMode d = 0 ∨ 5 ≤ cipherMode d) then splitPlan mk cap 5 (min 16 (ceilDiv (dInLen d) 65536))
  else mk 1

/-- Segment time of MAC_GEN and MAC_VERIFY (R55). DESIGN CHOICE (log entry 231): a CMAC of no data is booked as one block, as the line
form's row has it; the row of the buffer form gives n blocks. -/
def macSegNs (d : Bytes) (t : Nat) : Nat :=
  if dVar d % 4 = 0 then segNs (max 1 (blocksOf (dInLen d) (if isTdes t then 8 else 16))) (blockTenths t)
  else segNs (blocksOf (dInLen d) 8 + 2) 384

/-- Sequential BNC segments in µs. -/
def bncSeq (us : List Nat) : Plan :=
  let segs := (us.foldl (fun (acc : List Seg × Nat) u => (acc.1 ++ [{ off := acc.2, dur := 1000 * u, par := 1 }], acc.2 + 1000 * u))
    ([], 0))
  planOf .bnc segs.1 segs.2 0 1

/-- A CRT private operation: two halves, then the verifying segment (R55). -/
def rsaPlan (half verify : Nat) : Plan :=
  planOf .bnc [{ off := 0, dur := 1000 * half, par := 2 }, { off := 1000 * half, dur := 1000 * verify, par := 1 }]
    (1000 * (half + verify)) 0 1

/-- A key update message: verify, gap of 200 µs, receipt (R55). -/
def kumPlan (verify : Nat) : Plan :=
  planOf .bnc [{ off := 0, dur := 1000 * verify, par := 1 }, { off := 1000 * (verify + 200), dur := 150000, par := 1 }]
    (1000 * (verify + 350)) 0 1

/-- Fixed time of one engine in ns, EXPRESS. -/
def fixedPlan (ns : Nat) : Plan := bufferPlan ns 1 0 false

/-- Booked time of a ring PIN_XLATE (R55): by the output format of its line or of the route found. DESIGN CHOICE (log entry 232): the
table has no row for a line that names no route and an unknown format: into an unknown format 480 ns are booked, as for a route word's,
and from an unknown format into 0, 1 or 3 400 ns. -/
def pinXlateNs (fmtIn : Nat) (fmtOut : Option Nat) : Nat :=
  match fmtOut with
  | some f => if Payment.fmtKnown f then (if fmtIn = 4 ∨ f = 4 then 480 else 400) else 480
  | none => 480

/-- The output format of a PIN_XLATE: of the line, or of its route word (R169, R190). -/
def outFormat (l : Line) (route : Option Nat) : Option Nat :=
  if l.routed then route.map (fun w => if routeKeep w then l.fmtIn else routeFmt w) else some l.fmtOut

/-- The plan of a descriptor: key type that admission reads, head's DMA book capacity, route found, sig_alg of a KUM. -/
def basePlan (d : Bytes) (t cap : Nat) (route : Option Nat) (sigAlg : Nat) : Plan × DClass :=
  let p384 := bitOf (dVar d) 0
  match dOp d with
  | 0x10 =>
    let l := lineOfDescriptor d
    (fixedPlan (pinXlateNs l.fmtIn (outFormat l route)), .express)
  | 0x11 => (fixedPlan 480, .express)
  | 0x20 => (fixedPlan 480, .express)
  | 0x21 => (fixedPlan 480, .express)
  | 0x30 => (fixedPlan (segNs (blocksOf (lineOfDescriptor d).dlen 8 + 2) 384), .express)
  | 0x31 => (fixedPlan (segNs (blocksOf (lineOfDescriptor d).dlen 8 + 2) 384), .express)
  | 0x32 => (fixedPlan (segNs (max 1 (blocksOf (lineOfDescriptor d).dlen 16)) (blockTenths t)), .express)
  | 0x33 => (fixedPlan (segNs (max 1 (blocksOf (lineOfDescriptor d).dlen 16)) (blockTenths t)), .express)
  | 0x38 => (bufferPlan (macSegNs d t) 1 (dInLen d) (dInLoc d == 2), if dInLoc d = 2 then .bulk else .express)
  | 0x39 => (bufferPlan (macSegNs d t) 1 (dInLen d) (dInLoc d == 2), if dInLoc d = 2 then .bulk else .express)
  | 0x40 => (cipherPlan d t cap, if dInLoc d = 2 then .bulk else .express)
  | 0x41 => (bufferPlan (segNs (blocksOf (dInLen d) 16) 112) 1 (dInLen d) (dOutLoc d == 2),
      if dOutLoc d = 2 then .bulk else .express)
  | 0x50 => (fixedPlan (if bitOf (dVar d) 0 then 1600 else 2400), .express)
  | 0x52 => (fixedPlan 1200, .express)
  | 0x60 => if p384 then (bncSeq [64, 86], .standard) else (bncSeq [24, 34], .express)
  | 0x61 => if p384 then (bncSeq [86], .standard) else (bncSeq [34], .express)
  | 0x62 => (bncSeq [18, 28], .express)
  | 0x63 => (bncSeq [28], .express)
  | 0x64 => (bncSeq [24], .express)
  | 0x66 => if p384 then (rsaPlan 1220 60, .bulk) else (rsaPlan 160 16, .standard)
  | 0x67 => if p384 then (bncSeq [60], .bulk) else (bncSeq [16], .standard)
  | 0x68 => (bncSeq [if p384 then 28 else 20], .standard)
  | 0x69 => (bncSeq [if p384 then 36 else 26], .standard)
  | 0x6A => (bncSeq [9000, 60], .bulk)
  | 0x6B => (bncSeq [60], .standard)
  | 0x70 => (kumPlan (if sigAlg = 2 then 60 else 86), .standard)
  | 0x71 => (fixedPlan 2000, .standard)
  | _ => ({}, .express)

/-- The plan with its class (R43). -/
def planFor (d : Bytes) (t cap : Nat) (route : Option Nat) (sigAlg : Nat) : Plan :=
  let (p, lo) := basePlan d t cap route sigAlg
  { p with cls := classFor lo p.len }

/-- Operations that draw from the bay's DRBG (R55): the RFC 6979 attribute of the key spares an ECDSA signature. -/
def needsRandom (d : Bytes) (rfc6979 : Bool) (route : Option Nat) : Bool :=
  match dOp d with
  | 0x10 =>
    match outFormat (lineOfDescriptor d) route with
    | some f => f == 1 || f == 3 || f == 4
    | none => false
  | 0x41 => true
  | 0x60 => !rfc6979
  | 0x66 => true
  | 0x68 => true
  | 0x6A => true
  | 0x70 => true
  | _ => false

/-! ## Inline lines (R59, R81) -/

/-- Round-unit clocks of a line at the largest count its fields permit. -/
def lineClocks (l : Line) : Nat :=
  let c := fun (f : Nat) => if f = 4 then 28 else 48
  match l.op with
  | 0x10 => c l.fmtIn + (if l.route then 48 else c l.fmtOut)
  | 0x11 => c l.fmtIn + c l.fmtOut
  | 0x20 => 64
  | 0x21 => 64
  | 0x30 => (ceilDiv l.dlen 8 + 2) * 16
  | 0x31 => (ceilDiv l.dlen 8 + 2) * 16
  | 0x32 => (max 1 (ceilDiv l.dlen 16) + 1) * 14
  | 0x33 => (max 1 (ceilDiv l.dlen 16) + 1) * 14
  | _ => 10

/-- Lane time booked and charged: clocks × 0.8 ns, rounded up, of at least 10 clocks. -/
def lineCharge (l : Line) : Nat := ceilDiv (max 10 (lineClocks l) * 8) 10

/-- A line treated as random-needing at admission (R81, R83). -/
def lineNeedsRandom (l : Line) : Bool :=
  l.op == 0x10 && (l.route || l.fmtOut == 1 || l.fmtOut == 3 || l.fmtOut == 4)

end Sys2Proof.Machine
end

