-- ==== Sys2Proof/Machine/Admission.lean ====
section
/-! DEFINITION. Buckets, books, completion entries and the admission of ring descriptors (R46 to R66, R101, R102, R111, R112,
R121, R123, R124, R307, R308, R354). -/

namespace Sys2Proof.Machine

open Sys2Proof

/-! ## Buckets (R50, R307, R308) -/

/-- The buckets of an instance refilled to device time `now` at a configuration's values. -/
def refilled (c : Cfg) (i now : Nat) (x : Inst) : Inst :=
  let dt := now - x.bucketT
  { x with
    sub := min (Int.ofNat (submitBurst c i * 10 ^ 9)) (x.sub + Int.ofNat (submitRate c i * dt))
    core := min (Int.ofNat (coreBurst c i * 10 ^ 6)) (x.core + Int.ofNat (coreRate c i * dt))
    bucketT := max now x.bucketT }

def refill (s : State) (i : Nat) : State := modInst s i (refilled s.ctl.cfg i s.now)

/-- Buckets filled to their bursts (R308). -/
def fillBuckets (s : State) (i : Nat) : State :=
  modInst s i (fun x => { x with
    sub := Int.ofNat (submitBurst s.ctl.cfg i * 10 ^ 9), core := Int.ofNat (coreBurst s.ctl.cfg i * 10 ^ 6), bucketT := s.now })

def oneToken : Int := 1000000000

/-- Frames, counted from the frame in which the command arrived at `arr`, until a bucket that holds `level` at `now` refills to
`need` at `rate` a ns (R58). DESIGN CHOICE (log entry 190): a refill of more frames than the 16-bit hint holds, or at a rate of 0,
gives 0xFFFF although the need lies within the burst. -/
def refillFrames (now arr : Nat) (level need : Int) (rate burst : Nat) : Nat :=
  if Int.ofNat burst < need ∨ rate = 0 then 0xFFFF
  else min 0xFFFF (max 1 (ceilDiv ((need - level).toNat + (now - 2000 * (arr / 2000)) * rate) (rate * 2000)))

/-! ## Charges of a book (R46) -/

def setBook (s : State) (b frame e : Nat) : State :=
  modBay s b (fun x => { x with book := mset 0 x.book (frame % 10240) e })

/-- Charges added to consecutive frames from `frame`. -/
def addCharges (s : State) (b : Nat) : Nat → List Nat → State
  | _, [] => s
  | frame, c :: cs => addCharges (setBook s b frame (bookEntry s b frame + c)) b (frame + 1) cs

/-- An entry of a closing bay is CLOSED as its last booking ends (R65). -/
def lessCharge (s : State) (b frame c : Nat) : State :=
  let e := bookEntry s b frame
  let e' := e - min c (bookTime e)
  setBook s b frame (if (getBay s b).st = 1 ∧ bookTime e' = 0 ∧ bookClosed e' = false then e' + 65536 else e')

/-- Charges taken from the frames at or after `since`. -/
def dropCharges (s : State) (b since : Nat) : Nat → List Nat → State
  | _, [] => s
  | frame, c :: cs => dropCharges (if since ≤ frame then lessCharge s b frame c else s) b since (frame + 1) cs

/-! ## DMA books (R57, R454) -/

def headOf (s : State) (i : Nat) : Nat := instLd s.ctl.cfg i / 16

def dmaCapAt (s : State) (h frame : Nat) : Nat :=
  let x := getHead s h
  if frame < x.dmaFrom then x.dmaCapOld else x.dmaCap

/-- Book number of a head's reads (false) or writes (true). -/
def dmaKey (h : Nat) (wr : Bool) : Nat := 2 * h + bit wr

def dmaEntry (s : State) (k frame : Nat) : Nat := mget 0 (mget [] s.sched.dma k) (frame % 10240)

def setDma (s : State) (k frame v : Nat) : State :=
  { s with sched := { s.sched with dma := mset [] s.sched.dma k (mset 0 (mget [] s.sched.dma k) (frame % 10240) v) } }

def dmaFits (s : State) (h start : Nat) (p : Plan) : Bool :=
  (p.dmaRead == 0 && p.dmaWrite == 0) || (upTo p.len).all (fun j =>
    decide (dmaEntry s (dmaKey h false) (start + j) + p.dmaRead ≤ dmaCapAt s h (start + j))
      && decide (dmaEntry s (dmaKey h true) (start + j) + p.dmaWrite ≤ dmaCapAt s h (start + j)))

def addDma (s : State) (h start : Nat) (p : Plan) : State :=
  if p.dmaRead = 0 ∧ p.dmaWrite = 0 then s
  else (upTo p.len).foldl (fun s j =>
    let s := setDma s (dmaKey h false) (start + j) (dmaEntry s (dmaKey h false) (start + j) + p.dmaRead)
    setDma s (dmaKey h true) (start + j) (dmaEntry s (dmaKey h true) (start + j) + p.dmaWrite)) s

/-- DMA charges of a plan booked at `start` taken from the frames at or after `since` (R44, R57). -/
def dropDma (s : State) (h start since : Nat) (p : Plan) : State :=
  if p.dmaRead = 0 ∧ p.dmaWrite = 0 then s
  else ((upTo p.len).filter (fun j => decide (since ≤ start + j))).foldl (fun s j =>
    let s := setDma s (dmaKey h false) (start + j) (dmaEntry s (dmaKey h false) (start + j) - p.dmaRead)
    setDma s (dmaKey h true) (start + j) (dmaEntry s (dmaKey h true) (start + j) - p.dmaWrite)) s

/-! ## Rings (R101, R102) -/

def phaseOf (n c : Nat) : Nat := 1 - c / max n 1 % 2

def ringEntry (s : State) (i c : Nat) : Bytes :=
  Bytes.fit 64 (mget [] (getInst s i).ring (c % max (ringEntries s.ctl.cfg i) 1))

/-- A completion entry (R111). -/
def completionEntry (n : Nat) (o : RingOp) (status epoch bay hint outLen lat : Nat) (res : Bytes) : Bytes :=
  Bytes.ofNatLE 1 (128 * phaseOf n o.count + 64 + 32 * bit (dNotify o.snap)) ++ Bytes.ofNatLE 1 (dOp o.snap)
    ++ Bytes.ofNatLE 2 status ++ Bytes.ofNatLE 4 (dTag o.snap) ++ Bytes.ofNatLE 2 (epoch % 65536) ++ Bytes.ofNatLE 1 bay
    ++ Bytes.ofNatLE 1 res.length ++ Bytes.ofNatLE 2 hint ++ [0, 0] ++ Bytes.ofNatLE 4 outLen
    ++ Bytes.ofNatLE 4 (min lat 0xFFFFFFFF) ++ Bytes.fit 40 res

/-- H after a completion: the lowest count not completed, S where none is owned (R123). -/
def headAfter (x : Inst) : Nat := match x.ops with
  | [] => x.s
  | o :: _ => o.count

/-- Payment functions of the payment counters (R186). -/
def isPayment (op : Nat) : Bool := (decide (0x10 ≤ op) && decide (op ≤ 0x33)) || op == 0x50 || op == 0x52

/-- Index of a decline status in DeclineCount (R67). -/
def declineSub (st : Nat) : Option Nat :=
  match st with
  | 0x0101 => some 1
  | 0x0102 => some 2
  | 0x0103 => some 3
  | 0x0104 => some 4
  | 0x0701 => some 5
  | 0x0801 => some 6
  | _ => none

/-- Counters that an operation's ending status advances (R67, R130, R97, R186, R238); `done` and `declined` are the
instance's subindices for its kind. `atAdmission` tells a decline from an end with 0x0801. -/
def countStatus (s : State) (i op st done declined : Nat) (atAdmission : Bool) : State :=
  let s := if st ≤ 1 then bump s (instKey i done) else s
  let s := match declineSub st with
    | some k =>
      let s := bump s (instKey i declined)
      if atAdmission then bump s (odKey 0x4003 k) else s
    | none => s
  let s := if st = 0x0407 then bump s (instKey i 0x43) else s
  let s := if (st = 0x0404 ∨ st = 0x0406) ∧ isPayment op then bump s (instKey i 0x44) else s
  if 0x0401 ≤ st ∧ st ≤ 0x0403 then bump s (odKey 0x6040 2) else s

/-- A late completion: counts and record (R64). -/
def noteLate (s : State) (i bay op st past : Nat) : State :=
  let s := bump s (instKey i 0x67)
  let s := if bay < 28 then modBay s bay (fun b => { b with late := b.late + 1 }) else s
  record s 0x6101 (srcInst i) (Bytes.ofNatLE 2 i ++ Bytes.ofNatLE 1 bay ++ Bytes.ofNatLE 1 op ++ Bytes.ofNatLE 2 st
    ++ Bytes.ofNatLE 4 past)

/-- An MSI-X message on a vector of an LD; a masked entry keeps it pending (R451). -/
def sendMsix (s : State) (ld v : Nat) : State :=
  let k := ld * 2048 + v % 2048
  if mget false s.link.msixOpen k then emit s (.msix ld v)
  else { s with link := { s.link with msixPend := mset false s.link.msixPend k true } }

/-- The completion entry of a ring operation is written, ownership ends, H advances, and the ring's vector is signalled
(R108, R111, R112, R123, R124; none during a reset, R313). `bay` is 0xFF for an entry completed at admission. -/
def completeRing (s : State) (i : Nat) (o : RingOp) (status epoch bay hint outLen : Nat) (res : Bytes) : State :=
  let n := ringEntries s.ctl.cfg i
  let entry := completionEntry n o status epoch bay hint outLen (s.now - o.arr) res
  let w := ringWord i (o.count % max n 1)
  let s := modInst (noteWriter (writeWords s memRing w 8) memRing w 8 (if bay < 28 then 5 + bay else islHub)) i (fun x =>
    let x := dropOp { x with ring := mset [] x.ring (o.count % max n 1) entry } o.count
    { x with h := headAfter x })
  let s := countStatus s i (dOp o.snap) status 0x13 0x14 (bay == 0xFF)
  let s := if dNotify o.snap ∧ (getInst s i).st ≠ 2 then sendMsix s o.att.ld o.att.vector else s
  freeShelf s

/-! ## Checks before the plan (R52, R354, R493) -/

def frozen (x : Inst) : Bool := x.st == 3 || x.st == 4 || x.st == 5

/-- 0x0104 by mode for a ring operation: while the custody controller's image is replaced, without a root, after a rejected
configuration log, from an orderly shutdown; no other mode declines, and DEBUG exempts none of these (R354). -/
def ringForbidden (s : State) (d : Bytes) : Bool :=
  (s.fw.replacing == some 1 && dOp d == 0x70)
    || (s.vault.rootAbsent && (usesA d || usesB d || dOp d == 0x70 || dOp d == 0x71))
    || s.ctl.cfgRejected || s.power.shutdown != 0

def inlineForbidden (s : State) (l : Line) : Bool :=
  (s.vault.rootAbsent && lineUsesA l) || s.ctl.cfgRejected || s.power.shutdown != 0

/-- Hint of a seeding decline (R252). -/
def seedingHint (s : State) : Nat := if s.random.stopped then 0xFFFF else 500

/-- The key of key_a as admission reads it: its type where it is symmetric and of the tenant, else AES-128 (R493). -/
def admissionKey (s : State) (i : Nat) (d : Bytes) : Option Key :=
  if usesA d then
    match keyRef s (dKeyA d) (tokenA d) s.ctl.epoch with
    | some (k, _, _) => if k.tenant = instTenant s.ctl.cfg i then some k else none
    | none => none
  else none

def admissionType (s : State) (i : Nat) (d : Bytes) : Nat :=
  match admissionKey s i d with
  | some k => if isSymmetric k.type then k.type else 3
  | none => 3

/-- Bytes of the staged input that a key update message's plan and receipt depend on: items and sig_alg (R280). -/
def kumHead (x : Inst) (d : Bytes) : Nat × Nat :=
  if dOp d = 0x70 then
    ((Memory.read x.staging (dInRef d + 7)).toNat, (Memory.read x.staging (dInRef d + 6)).toNat)
  else (0, 0)

/-- Pages in conflict (R109) with other admitted operations of the instance. -/
def pageConflict (x : Inst) (o : RingOp) (items : Nat) : Bool :=
  let ins := pagesOf (inRegion o.snap)
  let outs := pagesOf (outRegion o.snap items)
  (x.ops.filter (fun p => p.count != o.count && (p.stage == .booked || p.stage == .running))).any (fun p =>
    let pi := pagesOf (inRegion p.snap)
    let po := pagesOf (outRegion p.snap (kumHead x p.snap).1)
    outs.any (fun g => pi.contains g || po.contains g) || ins.any po.contains)

/-- The route of a ring operation found at its admission (R189). -/
def admissionRoute (s : State) (i : Nat) (d : Bytes) : Option (Option Nat) :=
  let l := lineOfDescriptor d
  if dOp d = 0x02 ∨ (dOp d = 0x10 ∧ l.route) then
    some (routeLookup s (routePartition s.ctl.cfg i) s.ctl.epoch l.digits)
  else none

/-- The first mismatched word that the lookup at admission reads; what consumes the route word finds it (R26, R28). -/
def admissionFault (s : State) (i : Nat) (d : Bytes) : Option Nat :=
  let l := lineOfDescriptor d
  if (admissionRoute s i d).isSome then routeFault s (routePartition s.ctl.cfg i) s.ctl.epoch l.digits else none

def opPlan (s : State) (i : Nat) (o : RingOp) : Plan :=
  planFor o.snap (admissionType s i o.snap) (dmaCapAt s (headOf s i) (s.now / 2000)) ((admissionRoute s i o.snap).join)
    (kumHead (getInst s i) o.snap).2

/-- Status of the first failing check of malformation (R121); 0 where the entry is sound. -/
def malformed (s : State) (i : Nat) (o : RingOp) : Nat :=
  let d := o.snap
  let x := getInst s i
  let t := admissionType s i d
  let items := (kumHead x d).1
  if Bytes.fieldLE d 0 1 / 64 ≠ 2 * phaseOf (ringEntries s.ctl.cfg i) o.count then 0x0204
  else if ringOps.contains (dOp d) = false then 0x0201
  else if reservedOk d (if isTdes t then 8 else 16) = false then 0x0203
  else if lengthStatus d t ≠ 0 then lengthStatus d t
  else if 9996 < (opPlan s i o).len then 0x0202
  else if handlesOk d = false then 0x0206
  else if regionsOk d (stagingPages s.ctl.cfg i) items = false ∨ pageConflict x o items then 0x0205
  else 0

/-- Whether the operation draws (R55), under the key and route that admission reads. -/
def opNeedsRandom (s : State) (i : Nat) (d : Bytes) : Bool :=
  needsRandom d (match admissionKey s i d with | some k => k.rfc6979 | none => false) ((admissionRoute s i d).join)

/-- The checks of R52 that come before the plan: status and hint; 0 where all pass. The buckets are refilled. -/
def preStatus (s : State) (i : Nat) (o : RingOp) : Nat × Nat :=
  let x := getInst s i
  if frozen x then (0x0701, 0)
  else if alarmLatched s then (0x0801, 0)
  else if x.sub < oneToken then (0x0102, refillFrames s.now o.arr x.sub oneToken (submitRate s.ctl.cfg i) (submitBurst s.ctl.cfg i * 10 ^ 9))
  else if malformed s i o ≠ 0 then (malformed s i o, 0)
  else if ringForbidden s o.snap then (0x0104, 0)
  else if opNeedsRandom s i o.snap ∧ seedingInForce s then (0x0103, seedingHint s)
  else (0, 0)

/-! ## Booking (R52, R53) -/

def kindBays (k : Kind) : List Nat :=
  match k with
  | .bnc => upTo 16
  | .cipher => (upTo 8).map (16 + ·)
  | _ => []

def rotor (s : State) (k : Kind) : Nat := if k = .cipher then s.sched.rotorCipher else s.sched.rotorBnc

/-- Bays of a kind from its rotor. -/
def baysFrom (s : State) (k : Kind) : List Nat :=
  let bs := kindBays k
  bs.filter (rotor s k ≤ ·) ++ bs.filter (· < rotor s k)

def fitsCharges (s : State) (b cap : Nat) : Nat → List Nat → Bool
  | _, [] => true
  | frame, c :: cs =>
    let e := bookEntry s b frame
    !bookClosed e && decide (bookTime e + c ≤ cap) && fitsCharges s b cap (frame + 1) cs

def fitsBay (s : State) (b start : Nat) (p : Plan) : Bool :=
  (getBay s b).st == 0 && fitsCharges s b (bayCap s b) start p.charge

/-- The earliest start, then the first bay from the rotor, at which a plan fits, from `start` over `n` starts. -/
def findStart (s : State) (h : Nat) (p : Plan) : Nat → Nat → Option (Nat × Nat)
  | 0, _ => none
  | n + 1, start =>
    match (if dmaFits s h start p then (baysFrom s p.kind).find? (fun b => fitsBay s b start p) else none) with
    | some b => some (start, b)
    | none => findStart s h p n (start + 1)

def nextAfter (k : Kind) (b : Nat) : Nat :=
  if k = .cipher then (if b = 23 then 16 else b + 1) else (if b = 15 then 0 else b + 1)

def moveRotor (s : State) (k : Kind) (b : Nat) : State :=
  if k = .cipher then { s with sched := { s.sched with rotorCipher := nextAfter k b } }
  else { s with sched := { s.sched with rotorBnc := nextAfter k b } }

/-- Default of NoncePrefix: the low 20 bits of the identity digest × 4,096 + i (R144; log entry 17). -/
def prefixDefault (s : State) (i : Nat) : Nat := Bytes.toNatBE (Bytes.fit 32 s.keys.idDigest) % 2 ^ 20 * 4096 + i

/-- NoncePrefix of an instance. -/
def noncePrefix (s : State) (i : Nat) : Nat := instSetting s.ctl.cfg i 0x30 (prefixDefault s i)

/-- The configuration record attached at admission or at S2 (R35, R37). -/
def attachOf (s : State) (i : Nat) : Attach :=
  let c := s.ctl.cfg
  { epoch := s.ctl.epoch, tenant := instTenant c i, part := routePartition c i, matrix := pinMatrix c i
    fmt0Max := fmt0MaxPin c i, dukptCheck := dukptCheck c i == 1
    noncePrefix := noncePrefix s i, termBase := derivTermBase c i, termCount := derivTermCount c i
    derivMaxAge := derivMaxAge c i, tokenMaxAge := tokenMaxAge c i, tokenQuota := tokenQuota c i, tokenPolicy := tokenPolicy c i
    ld := instLd c i, pasid := instPasid c i, vector := ringVector c i, authority := tenantAuthority c (instTenant c i) }

/-- Max_Read_Request_Size and Max_Payload_Size of an LD's function, bytes (R452). PRESUMED (log entry 233): 512 and 128 until host
software sets them, the values of PCI Express. -/
def readSize (s : State) (ld : Nat) : Nat := max 1 (mget 512 s.link.readSize ld)
def payloadSize (s : State) (ld : Nat) : Nat := max 1 (mget 128 s.link.payload ld)

/-- Host reads outstanding on a head (R452). -/
def headReads (s : State) (h : Nat) : Nat :=
  s.insts.foldl (fun a e => e.2.ops.foldl (fun a o => if o.att.ld / 16 = h then a + o.reads + bit o.readBack else a) a) 0

/-- Reads that an operation issues next: of what it has not asked for yet, as many as the tags of its head leave room for (R452). -/
def readsDue (s : State) (o : RingOp) (r : Region) : Nat :=
  min (512 - headReads s (o.att.ld / 16)) (ceilDiv (r.len - o.asked) (readSize s o.att.ld))

/-- The next reads of a host region (R126, R452). -/
def askRegion (s : State) (o : RingOp) (r : Region) : State × RingOp :=
  let size := readSize s o.att.ld
  let n := readsDue s o r
  (each (upTo n) s (fun s k =>
      emit s (.dmaRead o.att.ld o.att.pasid (r.ref + o.asked + size * k) (min size (r.len - o.asked - size * k)))),
    { o with asked := min r.len (o.asked + size * n), asks := o.asks ++ List.replicate n s.now })

/-- An operation with host input asks for more of it, unless a request has failed or it is being ended (R126, R127). -/
def askInput (s : State) (o : RingOp) : State × RingOp :=
  match inRegion o.snap with
  | some r => if r.host ∧ o.squashed = false ∧ o.dmaFault = false then askRegion s o r else (s, o)
  | none => (s, o)

/-- The route word returned with a line-form completion: res[32:35] (R112, R114, R169). -/
def routeRes (o : RingOp) (st : Nat) (res : Bytes) : Bytes :=
  if isLineOp (dOp o.snap) then
    if st ≤ 1 then Bytes.fit 32 res ++ Bytes.ofNatLE 4 ((o.route.join).getD 0)
    else match o.route with
      | some (some w) => if st = 0x0801 ∨ st = 0x0802 ∨ st = 0x0702 then [] else Bytes.zeros 32 ++ Bytes.ofNatLE 4 w
      | _ => []
  else if st ≤ 1 then res else []

/-- A lookup at admission that found no route counts in RoutePartMisses (R189). -/
def countMiss (s : State) (o : RingOp) : State := if o.route = some none then bump s (odKey 0x5053 o.att.part) else s

/-- The decision on one descriptor (R52). A decline that follows a found route returns its word (R112, R189): whether an operation
needs random bytes follows from its route, so a decline for want of a seed does too. -/
def decide1 (s : State) (i : Nat) (o : RingOp) : State :=
  let s := refill s i
  let c := s.ctl.cfg
  let o := { o with att := attachOf s i }
  let (st, hint) := preStatus s i o
  let spent := st ≠ 0x0701 ∧ st ≠ 0x0801 ∧ (oneToken ≤ (getInst s i).sub)
  let s := if spent then modInst s i (fun x => { x with sub := x.sub - oneToken }) else s
  if st ≠ 0 then
    let s := if st = 0x0204 then bump s (instKey i 0x15) else s
    completeRing s i o st s.ctl.epoch 0xFF hint 0 (if st = 0x0103 then routeRes { o with route := admissionRoute s i o.snap } st [] else [])
  else
    let o := { o with route := admissionRoute s i o.snap, routeBad := admissionFault s i o.snap }
    let s := countMiss s o
    let p := opPlan s i o
    let need : Int := Int.ofNat (p.core * 1000)
    let x := getInst s i
    if x.core < need then
      completeRing s i o 0x0102 s.ctl.epoch 0xFF (refillFrames s.now o.arr x.core need (coreRate c i) (coreBurst c i * 10 ^ 6)) 0
        (routeRes o 0x0102 [])
    else if dOp o.snap = 1 ∨ dOp o.snap = 2 then modInst s i (fun x => setOp x { o with stage := .atHub })
    else
      let fd := s.now / 2000
      let a := o.arr / 2000
      let sMin := fd + 1
      let sMax := a + classFrames p.cls - 2 - p.len
      match findStart s (headOf s i) p (sMax + 1 - sMin) sMin with
      | some (start, b) =>
        let s := addDma (addCharges s b start p.charge) (headOf s i) start p
        let (s, o) := askInput s { o with stage := .booked, plan := p, bay := b, start := start }
        moveRotor (modInst s i (fun x => setOp { x with core := x.core - need } o)) p.kind b
      | none =>
        let last := fd + 10240 - p.len
        let hint := match findStart s (headOf s i) p (last + 1 - (sMax + 1)) (sMax + 1) with
          | some (f, _) => min 0xFFFF (f - sMax)
          | none => 0xFFFF
        completeRing s i o 0x0101 s.ctl.epoch 0xFF hint 0 (routeRes o 0x0101 [])

/-! ## Rounds (R51) -/

/-- The next undecided descriptor of an instance in rounds up to `r`. -/
def nextCovered (x : Inst) (r : Nat) : Option RingOp :=
  x.ops.find? (fun o => o.stage == .covered && decide (o.round ≤ r))

/-- Core time that a descriptor costs in the ordering: 0 where R52 declines it before its plan. -/
def orderCost (s : State) (i : Nat) (o : RingOp) : Nat :=
  let s := refill s i
  if (preStatus s i o).1 ≠ 0 ∨ dOp o.snap ≤ 2 then 0 else (opPlan s i o).core

/-- An instance takes its descriptors in ring order while its counter covers them. -/
def takeDescriptors (r i : Nat) : Nat → State → State
  | 0, s => s
  | n + 1, s =>
    let x := getInst s i
    match nextCovered x r with
    | none => modInst s i (fun x => { x with deficit := 0 })
    | some o =>
      let cost := orderCost s i o
      if cost ≤ x.deficit then
        takeDescriptors r i n (decide1 (modInst s i (fun x => { x with deficit := x.deficit - cost })) i o)
      else s

/-- Instances with undecided descriptors, from instance `start` on. -/
def contenders (s : State) (r start : Nat) : List Nat :=
  let is := (s.insts.filter (fun e => (nextCovered e.2 r).isSome)).map (·.1)
  is.filter (start ≤ ·) ++ is.filter (· < start)

def drrPass (r start : Nat) (s : State) : State :=
  (contenders s r start).foldl (fun s i =>
    takeDescriptors r i 2049 (modInst s i (fun x => { x with deficit := x.deficit + schedWeight s.ctl.cfg i * 512 }))) s

/-- Passes until every descriptor of the round is decided; the bound exceeds what the longest plan at the least weight
needs for full rings. -/
def drrPasses (r start : Nat) : Nat → State → State
  | 0, s => s
  | n + 1, s => if (contenders s r start).isEmpty then s else drrPasses r start n (drrPass r start s)

/-- One round of admission (R51): the first pass starts with the instance after the one that began the previous round's. -/
def admitRound (s : State) (r : Nat) : State :=
  let start := match s.sched.drrStart with
    | none => 0
    | some i => (i + 1) % 4096
  match contenders s r start with
  | [] => s
  | i :: _ => drrPasses r start 40000000 { s with sched := { s.sched with drrStart := some i } }

/-- Rounds that have ended and hold undecided descriptors, in order. -/
def dueRounds (s : State) (upto : Nat) : List Nat :=
  let rs := s.insts.flatMap (fun e => (e.2.ops.filter (fun o => o.stage == .covered && decide (o.round < upto))).map (·.round))
  (rs.foldl (fun (acc : List Nat) r => if acc.contains r then acc else acc.filter (· < r) ++ [r] ++ acc.filter (r < ·)) [])

end Sys2Proof.Machine
end

