-- ==== Sys2Proof/Machine/Drbg.lean ====
section
/-! DEFINITION. The bay DRBGs, their reserves and draws, and the seed requests of the random island (R246 to R252). -/

namespace Sys2Proof.Machine

open Sys2Proof

/-- ReseedInterval and ReseedLimit (R250, R262). -/
def reseedInterval (s : State) : Nat := setting s.ctl.cfg 0x3000 0x15 (2 ^ 20)
def reseedLimit (s : State) : Nat := setting s.ctl.cfg 0x3000 0x16 (2 ^ 24)

def modDrbg (s : State) (b : Nat) (f : Drbg → Drbg) : State := modBay s b (fun x => { x with drbg := f x.drbg })

def drbgOf (s : State) (b : Nat) : Drbg := (getBay s b).drbg

/-- The generator is instantiated and below its limit (R250). -/
def drbgServes (s : State) (b : Nat) : Bool := (drbgOf s b).inst && decide ((drbgOf s b).calls < reseedLimit s)

/-- A request joins the queue of its consumer, once (R246); `first` puts a request already made at priority 1. -/
def requestSeed (s : State) (prio : Nat) (who : Consumer) (need : Nat) : State :=
  let rs := s.random.reqs
  if rs.any (fun r => r.who == who) then
    { s with random := { s.random with reqs := rs.map (fun r => if r.who = who then { r with prio := min r.prio prio } else r) } }
  else { s with random := { s.random with reqs := rs ++ [{ prio := prio, who := who, need := need }] } }

/-- At ReseedInterval a generator requests a reseed, at ReseedLimit at priority 1, and one that becomes exhausted while the
conditioner is stopped owes a seed (R250, R252); `newly` tells that it reaches its limit now. A seed already delivered is awaited
no more. -/
def askReseed (s : State) (b : Nat) (newly : Bool) : State :=
  let d := drbgOf s b
  let ask := fun (s : State) (prio : Nat) => if d.seed.isNone then requestSeed s prio (.reseed b) 2 else s
  if reseedLimit s ≤ d.calls then
    ask (modDrbg s b (fun d => { d with pending := true, owed := d.owed || (newly && s.random.stopped) })) 1
  else if reseedInterval s ≤ d.calls then ask (modDrbg s b (fun d => { d with pending := true })) 3
  else s

/-- The call count advances. -/
def countCall (s : State) (b : Nat) : State := askReseed (modDrbg s b (fun d => { d with calls := d.calls + 1 })) b true

/-- One generate call of `n` bytes (R247). -/
def generate (s : State) (b n : Nat) : Bytes × State :=
  let d := drbgOf s b
  let (o, c) := Modes.ctrGenerate { key := d.key, v := d.v } n
  (o, countCall (modDrbg s b (fun d => { d with key := c.key, v := c.v })) b)

/-- The reserve is refilled by one generate call of 2 KiB (R248). -/
def refillReserve (s : State) (b : Nat) : State :=
  let (o, s) := generate s b 2048
  modDrbg s b (fun d => { d with reserve := d.reserve ++ o, refill := false, filled := d.filled || decide (8192 ≤ d.reserve.length + o.length) })

/-- A refill is due: the reserve holds 6 KiB or less and the generator can serve. -/
def refillDue (s : State) (b : Nat) : Bool := decide ((drbgOf s b).reserve.length ≤ 6144) && drbgServes s b

/-- A reseed that has arrived is applied (R247, R250). -/
def applyReseed (s : State) (b : Nat) : State :=
  match (drbgOf s b).seed with
  | some seed =>
    let d := drbgOf s b
    let c := Modes.ctrReseed { key := d.key, v := d.v } seed
    let s := modDrbg s b (fun d => { d with key := c.key, v := c.v, calls := 0, pending := false, owed := false, seed := none })
    let s := bump s (odKey (0x3020 + b) 3)
    if refillDue s b then modDrbg s b (fun d => { d with refill := true }) else s
  | none => s

/-- What the DRBG serves before a call that is asked for: a reseed that has arrived, then the refills due (R248). -/
def serveFirst (s : State) (b : Nat) : State :=
  each (upTo 4) (applyReseed s b) (fun s _ => if refillDue s b then refillReserve s b else s)

/-- A draw of `n` bytes in a bay (R248, R249); none where it cannot be served, which is counted. -/
def draw (s : State) (b n : Nat) : Option Bytes × State :=
  if 256 < n then
    let s := serveFirst s b
    if drbgServes s b then
      let (o, s) := generate s b n
      (some o, s)
    else (none, bump s (odKey (0x3020 + b) 4))
  else
    let s := if (drbgOf s b).reserve.length < n then serveFirst s b else s
    let r := (drbgOf s b).reserve
    if r.length < n then (none, bump s (odKey (0x3020 + b) 4))
    else
      let s := modDrbg s b (fun d => { d with reserve := r.drop n })
      (some (r.take n), if refillDue s b then modDrbg s b (fun d => { d with refill := true }) else s)

end Sys2Proof.Machine
end

