-- ==== Sys2Proof/Machine/Raise.lean ====
section
/-! DEFINITION. Raising a monitor: when it is armed, its class, its latch and its record (R366 to R369, R392). -/

namespace Sys2Proof.Machine

open Sys2Proof

/-! ## Arming (R368, R392) -/

/-- A monitor that watches the Envelope. -/
def envMonitor (m : Nat) : Bool := m == 7 || m == 8 || m == 9

/-- A monitor detects events on main power. -/
def armed (s : State) (m : Nat) : Bool :=
  s.power.pwrGood && s.life.st != 5
    && (if m ≤ 6 ∨ m = 10 then decide (1 ≤ s.power.step)
        else if envMonitor m then decide (4 ≤ s.power.step) && decide (2 ≤ s.life.st) && s.backup.window.isNone
        else if m = 11 then decide (7 ≤ s.power.step)
        else if m = 12 then decide (11 ≤ s.power.step)
        else false)

/-! ## Latches and classes (R366, R373) -/

def boolsToNat (n : Nat) (f : Nat → Bool) : Nat := (upTo n).foldl (fun a k => a + bit (f k) * 2 ^ k) 0

/-- LatchedMonitors: bit m, and bit 15 for the random island's alarm. -/
def latchedMask (s : State) : Nat := boolsToNat 14 (fun m => (getMon s m).latched) + 2 ^ 15 * bit s.alarm.random

/-- ResponseClass of a monitor as the backup domain holds it. -/
def backupClass (s : State) (m : Nat) : Nat := setting s.ctl.backupCfg 0x2800 (m + 1) (monClasses m).1

/-- ResponseClass of monitor m; the random island's alarm is decided as HOLD. DESIGN CHOICE (log entry 251): until step 10 of a start has
restored the configuration, the monitors that the backup domain shares have the class that it holds. -/
def monClass (s : State) (m : Nat) : Nat :=
  if m = 15 then 1
  else if s.power.step ≤ 10 ∧ (envMonitor m ∨ m = 10) then backupClass s m
  else setting s.ctl.cfg 0x2800 (m + 1) (monClasses m).1

/-- The arguments of a monitor's record (R436): class executed, latched monitors, detail. -/
def monArgs (s : State) (cls : Nat) (detail : Bytes) : Bytes :=
  Bytes.ofNatLE 1 cls ++ Bytes.ofNatLE 2 (latchedMask s) ++ detail

/-! ## Events (R369) -/

/-- Measured value, or the fields of a detail, in 8 bytes (R436). -/
def detail (v : Nat) : Bytes := Bytes.ofNatLE 8 v

/-- An event of a monitor: counted; a NOTE is recorded, a latch is set or found set. -/
def raiseMonitor (s : State) (m : Nat) (d : Bytes) : State :=
  let s := modMon s m (fun x => { x with events := x.events + 1, lastT := s.now })
  if monClass s m = 0 then recordLimited s (0x2101 + m) (src 6 m) (monArgs s 0 d)
  else if (getMon s m).latched then recordLimited s (0x2101 + m) (src 6 m) (monArgs s s.alarm.executed d)
  else
    let s := modMon s m (fun x => { x with latched := true })
    { s with alarm := { s.alarm with fresh := s.alarm.fresh ++ [(m, d)] } }

/-- An event of an armed monitor whose condition holds. -/
def raiseIf (s : State) (m : Nat) (d : Bytes) (c : Bool) : State := if armed s m && c then raiseMonitor s m d else s

end Sys2Proof.Machine
end

