-- ==== Sys2Proof/Machine/RingRun.lean ====
section
/-! DEFINITION. How an admitted operation runs: the start of its segments, key fetch and claim, the verdict it will end with
and when, and its input and output regions (R108, R122, R126, R146, R149, R172, R173, R491). -/

namespace Sys2Proof.Machine

open Sys2Proof

/-! ## The operation a command acts on -/

/-- Device time before which no segment of an operation starts: its booked bay frame, after the leading gap of a host-buffer
plan (R57, R491). -/
def startTime (s : State) (o : RingOp) : Nat :=
  2000 * (o.start + (if o.plan.dmaRead = 0 ∧ o.plan.dmaWrite = 0 then 0 else 2)) + (getBay s o.bay).lag

/-! ## Engines of a bay (R131, R228, R491) -/

/-- Engines that an operation keeps at work: all of its segments', and the second BNC alone once its check runs (R228). -/
def heldEngines (o : RingOp) : List Nat := if o.checking then o.engines.getLast?.toList else o.engines

/-- End of the booked time of a host-buffer operation's segments (R57, R60). -/
def bookedEnd (s : State) (o : RingOp) : Nat := 2000 * (o.start + o.plan.len - 2) + (getBay s o.bay).lag

/-- The host data of a running operation has not come by the end of its booked time: its segments are suspended and its engines
released (R57). -/
def dataLate (s : State) (o : RingOp) : Bool := o.job.isSome && o.outcome == none && decide (bookedEnd s o < s.now)

/-- Engines of a bay that running operations hold. -/
def busyEngines (s : State) (b : Nat) : List Nat :=
  s.insts.flatMap (fun e => (e.2.ops.filter (fun o => o.bay == b && o.stage == .running && !dataLate s o)).flatMap heldEngines)

/-- Engines of a bay free for a segment, lowest first: in service, at no work, under no test and awaiting no reactive test (R66, R230,
R237). -/
def freeEngines (s : State) (b : Nat) (avoid : List Nat) : List Nat :=
  let x := getBay s b
  let busy := busyEngines s b
  (upTo (engineCount b)).filter (fun k =>
    engineUp b x k && !busy.contains k && !avoid.contains k && !x.testQueue.contains k && (x.test.map (·.engine)) != some k)

/-- The lowest-numbered free engine of a bay outside `avoid` (R228; for the first segment log entry 13). -/
def freeEngine (s : State) (b : Nat) (avoid : List Nat) : Option Nat := (freeEngines s b avoid).head?

def modMem (s : State) (b k : Nat) (f : EngMem → EngMem) : State := modBay s b (fun x => { x with mem := mmod {} x.mem k f })

/-- The memory of an engine zeroed (R133, R234). -/
def clearMem (s : State) (b k : Nat) (o : Owner) : State :=
  writeEngine (modMem s b k (fun _ => { owner := o, key := .zero, work := .zero, io := .zero })) b k

/-- The whole operand memory of a BNC wiped under R234, with its new owner; counted in PkOperandWipes (R238). -/
def wipeBnc (s : State) (b k : Nat) (o : Owner) : State := bump (clearMem s b k o) (odKey 0x6040 3)

/-- A segment begins on a cipher engine: its registers and its buffer take the segment's content (R131). -/
def seatEngine (s : State) (b op k : Nat) : State :=
  let (id, s) := freshArea s
  writeEngine (modMem s b k (fun m => { m with key := .ofOp op id, io := .ofOp op id })) b k

/-- The operation's segments begin on cipher engines. -/
def seatAll (s : State) (o : RingOp) (es : List Nat) : State := each es s (fun s k => seatEngine s o.bay (dOp o.snap) k)

/-- Engines for the segments of a cipher plan: one for each, all distinct (R131, R139). -/
def seatsOf (s : State) (o : RingOp) : List Nat :=
  if o.plan.kind = .cipher then (freeEngines s o.bay []).take (max o.plan.split 1) else []

/-- Every segment of a cipher plan has an engine. -/
def seatsEnough (s : State) (o : RingOp) : Bool := o.plan.kind != .cipher || (seatsOf s o).length == max o.plan.split 1

/-- All the input of an operation is at hand: staged, or delivered by DMA (R57, R126). -/
def inputReady (o : RingOp) : Bool :=
  match inRegion o.snap with
  | some r => !r.host || decide (r.len ≤ o.input.length)
  | none => true

/-- The booked operation of count `c`, if its segment can start now and its snapshot passes `sel`: host input goes on coming while its
segments run (R126). -/
def startable (s : State) (i c : Nat) (sel : Bytes → Bool) : Option RingOp :=
  match findOp (getInst s i) c with
  | some o =>
    if o.stage = .booked ∧ sel o.snap ∧ startTime s o ≤ s.now ∧ o.dmaFault = false ∧ o.squashed = false
        ∧ bayClockRuns s o.bay ∧ islandRuns s islHub ∧ seatsEnough s o then some o
    else none
  | none => none

/-- Input bytes of an operation: host bytes delivered, or the staged region (R115). -/
def inputOf (s : State) (i : Nat) (o : RingOp) : Bytes :=
  match inRegion o.snap with
  | some r => if r.host then o.input.take r.len else Memory.readN (getInst s i).staging r.ref r.len
  | none => []

/-! ## Words that an operation reads (R26, R28) -/

/-- A FABRIC event: source and sink island, memory (R28, R436). -/
def raiseFabric (s : State) (source sink mem : Nat) : State :=
  settle (raiseIf s 11 (detail (source + 256 * sink + 65536 * mem)) true)

/-- The first mismatched word that the operation reads, with its memory: of its ring entry, which the bay's sequencer reads, or of its
staged input, which its engine reads. -/
def wordBad (s : State) (i : Nat) (o : RingOp) : Option (Nat × Nat) :=
  match badWord s memRing (ringWord i (o.count % max (ringEntries s.ctl.cfg i) 1)) 8 with
  | some key => some (memRing, key)
  | none => match inRegion o.snap with
    | some r =>
      if r.host then none
      else (badWord s memStaging (stagingWord i r.ref) (ceilDiv (r.ref % 8 + r.len) 8)).map (fun key => (memStaging, key))
    | none => none

/-- A mismatched word of the engines of an operation is found by what reads it: the engine that wrote it (R26, R216). -/
def engineBad (s : State) (o : RingOp) : Bool := o.engines.any (fun k => engineFails s o.bay k)

/-- FABRIC on a word of an engine's memory, whose source and sink are its bay. -/
def raiseEngine (s : State) (b : Nat) : State := raiseFabric s (5 + b) (5 + b) (engineWords b 0).1

/-! ## Verdicts -/

/-- An execution failure: the operation ends at once (R122). -/
def failNow (s : State) (st : Nat) : Outcome := { status := st, due := s.now }

/-- The operation runs, on its engines; with a verdict, it ends with it at its time. A mismatched word among what it reads raises
FABRIC and ends it with 0x0801 (R28). -/
def beginOp (s : State) (i : Nat) (o : RingOp) (oc : Option Outcome) : State :=
  let o := if o.plan.kind = .cipher then { o with engines := seatsOf s o } else o
  let s := if o.plan.kind = .cipher then seatAll s o o.engines else s
  let oc := if (wordBad s i o).isSome then some (failNow s 0x0801) else oc
  let s := match wordBad s i o with
    | some (mem, key) => raiseFabric s (writerOf s key islLink) (5 + o.bay) mem
    | none => s
  modInst s i (fun x => setOp x { o with stage := .running, t0 := s.now, outcome := oc })

/-- The verdict of an operation is fixed. -/
def fixOutcome (s : State) (i : Nat) (o : RingOp) (oc : Outcome) : State := beginOp s i o (some oc)

/-- Duration of each parallel segment of a one-stage plan. -/
def segTime (p : Plan) : Nat := p.core / max p.split 1

/-- Result of the key work of an operation: refused, or the key with the value its claim consumed. -/
inductive Fetched where
  | refused (st : Nat)
  | got (k : Key) (gen : Nat) (v : Nat)
  deriving DecidableEq, Repr

/-- A key read with a mismatched word raises FABRIC at every read, found by the island that unmasks it (R26, R28, R29); the word's
source is the re-masking unit of the hub. -/
def slotMismatch (s : State) (sink : Nat) (found : Option (Key × Nat × Place)) : State :=
  match found with
  | some (_, _, .resident _) => raiseFabric s islHub sink memSlots
  | some _ => raiseFabric s islHub sink memCache
  | none => s

/-- What the key checks leave that end with a status: a mismatched word found is an event. -/
def refusedKey (s : State) (sink st : Nat) (found : Option (Key × Nat × Place)) : State :=
  if st = 0x0801 then slotMismatch s sink found else s

/-- The guard of a key is lost: every use of the key is refused (R155, R277). -/
def keyLost (k : Key) : Bool := k.guard.any (·.lost)

/-- Key fetch: the checks of R122 in order, NONCE_SUPPLIED where `supplied` holds, then the claim where `claims` asks for
it, and the refusal of a lost guard where it does not; with the handles whose reservation the output waits for (R149). `sink` is the
island that unmasks the key, `owed` what the journal stage must keep room for (R148). -/
def fetchKey (s : State) (sink tenant : Nat) (r : Role) (found : Option (Key × Nat × Place)) (supplied : Key → Bool)
    (claims : Key → Bool) (owed : Nat := 0) : Fetched × State × List Nat :=
  let st := checkKey s tenant r found
  if st ≠ 0 then (.refused st, refusedKey s sink st found, [])
  else match found with
    | none => (.refused 0x0301, s, [])
    | some (k, gen, p) =>
      if supplied k then (.refused 0x0307, s, [])
      else if claims k then
        let (st, s, v, w) := claimKey s k gen p owed
        if st ≠ 0 then (.refused st, s, []) else (.got k gen v, s, w.toList)
      else if keyLost k then (.refused 0x0305, s, [])
      else (.got k gen 0, s, [])

/-- No nonce is supplied; every guarded key claims. -/
def noNonce : Key → Bool := fun _ => false
def always : Key → Bool := fun _ => true

/-- key_a of a descriptor for an operation. -/
def keyAOf (s : State) (o : RingOp) : Option (Key × Nat × Place) := keyRef s (dKeyA o.snap) (tokenA o.snap) o.att.epoch
def keyBOf (s : State) (o : RingOp) : Option (Key × Nat × Place) := keyRef s (dKeyB o.snap) (tokenB o.snap) o.att.epoch

/-- Handles on whose reservations the operation's output waits, added (R149). -/
def withWaits (o : RingOp) (w : List Nat) : RingOp := { o with waits := o.waits ++ w }

/-- The host region that takes an operation's output bytes. -/
def hostRegion (o : RingOp) (out : Bytes) : Option Region :=
  match outRegion o.snap 0 with
  | some r => if r.host ∧ out ≠ [] then some r else none
  | none => none

/-- Writes of output bytes to host memory from an address on, none longer than the function's Max_Payload_Size (R126, R452). -/
def hostWrites (s : State) (o : RingOp) (a : Nat) (out : Bytes) : State :=
  let size := payloadSize s o.att.ld
  each (upTo (ceilDiv out.length size)) s (fun s k => emit s (.dmaWrite o.att.ld o.att.pasid (a + size * k) ((out.drop (size * k)).take size)))

/-- Bytes of the output that the operation has produced and not sent yet go to its host region (R126). -/
def sendBytes (s : State) (i : Nat) (o : RingOp) (r : Region) (out : Bytes) : State × RingOp :=
  let o' := { o with sent := max o.sent out.length }
  (modInst (hostWrites s o (r.ref + o.sent) (out.drop o.sent)) i (fun x => setOp x o'), o')

/-- Once the last byte of the output has gone it is read back, behind the writes (R126, R452). -/
def readLast (s : State) (i : Nat) (o : RingOp) (r : Region) (out : Bytes) : State :=
  modInst (emit s (.dmaRead o.att.ld o.att.pasid (r.ref + out.length - 1) 1)) i
    (fun x => setOp x { o with written := true, readBack := true, backT := s.now })

/-- The rest of the output goes to the host region of a finished operation and its last byte is read back, where the head has a tag
left (R126, R149, R452). -/
def hostOutput (s : State) (i : Nat) (o : RingOp) (r : Region) (out : Bytes) : State :=
  let (s, o) := sendBytes s i o r out
  if headReads s (o.att.ld / 16) < 512 then readLast s i o r out else s

/-! ## What ends a ring operation -/

/-- Promised time of a ring operation (R49). -/
def promised (o : RingOp) : Nat := 2000 * (o.start + o.plan.len + 2)

/-- The booking of an operation from frame `f` on, in its bay's book and in the DMA books, is given back (R44, R57, R63, R128). -/
def releaseBooking (s : State) (o : RingOp) (f : Nat) : State :=
  if o.stage = .booked ∨ o.stage = .running then
    dropDma (dropCharges s o.bay f o.start o.plan.charge) (o.att.ld / 16) o.start f o.plan
  else s

/-- Staged output is written immediately before the completion, on success only (R108, R112). -/
def writeStaged (s : State) (i : Nat) (o : RingOp) (out : Bytes) : State :=
  match outRegion o.snap 0 with
  | some r =>
    if r.host then s
    else
      let n := ceilDiv (r.ref % 8 + out.length) 8
      noteWriter (writeWords (modInst s i (fun x => { x with staging := Memory.writeN x.staging r.ref out })) memStaging
        (stagingWord i r.ref) n) memStaging (stagingWord i r.ref) n (5 + o.bay)
  | none => s

/-- The end of an admitted operation: late or not, output, completion (R49, R64, R108, R111, R112). `released` tells that its
outcome's outputs are released. An operation whose data came after its booked time is late whenever it ends (R57). -/
def endRing (s : State) (i : Nat) (o : RingOp) (st outLen : Nat) (out res : Bytes) : State :=
  let late := (decide (promised o < s.now) || (o.suspended && st == 0)) && o.stage != .atHub
  let st' := if st = 0 ∧ late then 1 else st
  let s := if late then noteLate s i o.bay (dOp o.snap) st' (s.now - promised o) else s
  let s := if st' ≤ 1 then writeStaged s i o out else s
  completeRing s i o st' o.att.epoch (if o.stage = .atHub then 0xFF else o.bay) 0 (if st' ≤ 1 then outLen else 0)
    (routeRes o st' res)

/-- An operation ended from outside by a reset or a response: nothing of its staged output is written, its remaining booking
is released from the next frame, and it waits for its DMA reads to retire (R128, R311). -/
def cutShort (s : State) (i : Nat) (o : RingOp) (st : Nat) : State :=
  let s := releaseBooking s o (s.now / 2000 + 1)
  if o.reads = 0 ∧ o.readBack = false then endRing s i o st 0 [] []
  else modInst s i (fun x => setOp x { o with squashed := true, waits := []
                                            , outcome := some { status := st, due := s.now } })

/-! ## Inline operations -/

/-- The bay of a lane (R14): lanes 0 to 15 in bays 24 to 27. -/
def laneBay (l : Nat) : Nat := 24 + l / 4

/-- The operation of an inline slot that a lane holds at a stage, if its request passes `sel`. -/
def inlineAt (s : State) (i n : Nat) (st : LaneStage) (sel : Bytes → Bool) : Option LaneOp :=
  match (getSlot (getInst s i) n).op with
  | some o => if o.stage = st ∧ sel o.line ∧ bayClockRuns s (laneBay o.lane) then some o else none
  | none => none

/-- No line that the same lane accepted earlier still awaits its round work: a lane runs round work in order of acceptance (R88). -/
def laneFirst (s : State) (o : LaneOp) : Bool :=
  !s.insts.any (fun e => e.2.slots.any (fun sl => match sl.2.op with
    | some p => p.lane == o.lane && p.stage != .packed && decide (p.attachT < o.attachT)
    | none => false))

def setLaneOp (s : State) (i n : Nat) (o : Option LaneOp) : State :=
  modInst s i (fun x => setSlot x n { getSlot x n with op := o })

/-- The verdict of a line in its lane is fixed (R86, R87); a mismatched word of its request line raises FABRIC and ends it with
0x0801 (R28). -/
def fixLine (s : State) (i n : Nat) (o : LaneOp) (oc : Outcome) : State :=
  if wordsFail s memInline (inlineWord i n) 8 then
    raiseFabric (setLaneOp s i n (some { o with stage := .packed, look := {}, outcome := some (failNow s 0x0801) })) islLink
      (5 + laneBay o.lane) memInline
  else if engineFails s (laneBay o.lane) (o.lane % 4) then
    raiseEngine (setLaneOp s i n (some { o with stage := .packed, look := {}, outcome := some (failNow s 0x0801) })) (laneBay o.lane)
  else setLaneOp s i n (some { o with stage := .packed, outcome := some oc })

end Sys2Proof.Machine
end

