-- ==== Sys2Proof/Machine/Curve.lean ====
section
/-! DEFINITION. Modular arithmetic, the elliptic curves P-256, P-384 (FIPS 186-5) and Ed25519 (RFC 8032), and raw RSA
(RFC 8017) (R220 to R225). -/

namespace Sys2Proof.Curve

/-- `b ^ e mod m`, over the lowest `n` bits of `e`. -/
def powMod (n b e m : Nat) : Nat :=
  (List.range n).foldl (fun acc i =>
    let a := acc * acc % m
    if bitOf e (n - 1 - i) then a * b % m else a) (1 % m)

/-- Inverse modulo a prime of at most `n` bits. -/
def inv (n p a : Nat) : Nat := powMod n (a % p) (p - 2) p

def subMod (p a b : Nat) : Nat := (a + (p - b % p)) % p

/-! ## Short Weierstrass curves with a = −3 -/

/-- A curve: octets of a field element, field prime, b, base point, order. -/
structure Par where
  len : Nat
  p : Nat
  b : Nat
  gx : Nat
  gy : Nat
  n : Nat

def p256 : Par :=
  { len := 32
    p := 0xffffffff00000001000000000000000000000000ffffffffffffffffffffffff
    b := 0x5ac635d8aa3a93e7b3ebbd55769886bc651d06b0cc53b0f63bce3c3e27d2604b
    gx := 0x6b17d1f2e12c4247f8bce6e563a440f277037d812deb33a0f4a13945d898c296
    gy := 0x4fe342e2fe1a7f9b8ee7eb4a7c0f9e162bce33576b315ececbb6406837bf51f5
    n := 0xffffffff00000000ffffffffffffffffbce6faada7179e84f3b9cac2fc632551 }

def p384 : Par :=
  { len := 48
    p := 0xfffffffffffffffffffffffffffffffffffffffffffffffffffffffffffffffeffffffff0000000000000000ffffffff
    b := 0xb3312fa7e23ee7e4988e056be3f82d19181d9c6efe8141120314088f5013875ac656398d8a2ed19d2a85c8edd3ec2aef
    gx := 0xaa87ca22be8b05378eb1c71ef320ad746e1d3b628ba79b9859f741e082542a385502f25dbf55296c3a545e3872760ab7
    gy := 0x3617de4a96262c6f5d9e98bf9292dc29f8f41dbd289a147ce9da3113b5f0b8c00a60b1ce1d7e819d7a431d7c90ea0e5f
    n := 0xffffffffffffffffffffffffffffffffffffffffffffffffc7634d81f4372ddf581a0db248b0a77aecec196accc52973 }

/-- The point at infinity is `none`. -/
abbrev Pt := Option (Nat × Nat)

def Par.bits (c : Par) : Nat := 8 * c.len

def onCurve (c : Par) (x y : Nat) : Bool := y * y % c.p == (x * x * x + (c.p - 3) * x + c.b) % c.p

def add (c : Par) : Pt → Pt → Pt
  | none, q => q
  | some a, none => some a
  | some (x1, y1), some (x2, y2) =>
    if x1 = x2 ∧ (y1 + y2) % c.p = 0 then none
    else
      let l := if x1 = x2 then (3 * x1 * x1 + c.p - 3) * inv c.bits c.p (2 * y1) % c.p
        else subMod c.p y2 y1 * inv c.bits c.p (subMod c.p x2 x1) % c.p
      let x3 := subMod c.p (l * l) (x1 + x2)
      some (x3, subMod c.p (l * subMod c.p x1 x3) y1)

def mul (c : Par) (k : Nat) (q : Pt) : Pt :=
  (List.range c.bits).foldl (fun acc i =>
    let d := add c acc acc
    if bitOf k (c.bits - 1 - i) then add c d q else d) none

def base (c : Par) : Pt := some (c.gx, c.gy)

/-- x ‖ y, big-endian. -/
def encode (c : Par) : Pt → Bytes
  | none => Bytes.zeros (2 * c.len)
  | some (x, y) => Bytes.ofNatBE c.len x ++ Bytes.ofNatBE c.len y

/-- What a point's encoding is refused with, in the row order of R225: out of range, then off the curve; the zero
encoding is the point at infinity. -/
inductive PtCheck where
  | range | off | good (x y : Nat)

def checkPoint (c : Par) (bs : Bytes) : PtCheck :=
  let x := Bytes.toNatBE (bs.take c.len)
  let y := Bytes.toNatBE ((bs.drop c.len).take c.len)
  if c.p ≤ x ∨ c.p ≤ y then .range
  else if (x = 0 ∧ y = 0) ∨ onCurve c x y = false then .off
  else .good x y

/-- bits2int of FIPS 186-5 modulo n: the digest has the length of the order. -/
def digestInt (c : Par) (d : Bytes) : Nat := Bytes.toNatBE (d.take c.len) % c.n

/-- An ECDSA signature with nonce `k`: r and s. -/
def ecdsaSign (c : Par) (d k : Nat) (digest : Bytes) : Nat × Nat :=
  match mul c k (base c) with
  | none => (0, 0)
  | some (x, _) =>
    let r := x % c.n
    (r, inv c.bits c.n k * (digestInt c digest + r * d) % c.n)

/-- The ECDSA equation for valid r, s and point. -/
def ecdsaVerify (c : Par) (q : Pt) (digest : Bytes) (r s : Nat) : Bool :=
  let w := inv c.bits c.n s
  match add c (mul c (digestInt c digest * w % c.n) (base c)) (mul c (r * w % c.n) q) with
  | none => false
  | some (x, _) => x % c.n == r

/-- DRBG nonce (R222). -/
def drawnNonce (c : Par) (draw : Bytes) : Nat := Bytes.toNatBE draw % (c.n - 1) + 1

/-- HMAC_DRBG of RFC 6979: state K, V and the first `n` candidates. -/
def rfc6979 (c : Par) (d : Nat) (digest : Bytes) : List Nat :=
  let h := if c.len = 32 then Sha.hmac256 else Sha.hmac384
  let x := Bytes.ofNatBE c.len d ++ Bytes.ofNatBE c.len (digestInt c digest)
  let v0 := List.replicate c.len (1 : Byte)
  let k0 := Bytes.zeros c.len
  let k1 := h k0 (v0 ++ [0x00] ++ x)
  let v1 := h k1 v0
  let k2 := h k1 (v1 ++ [0x01] ++ x)
  let v2 := h k2 v1
  let t1 := h k2 v2
  let k3 := h k2 (t1 ++ [0x00])
  let v3 := h k3 t1
  let t2 := h k3 v3
  [Bytes.toNatBE t1, Bytes.toNatBE t2]

/-- The first of two candidates in [1, n − 1] (R222). -/
def rfc6979Nonce (c : Par) (d : Nat) (digest : Bytes) : Option Nat :=
  (rfc6979 c d digest).find? (fun k => decide (1 ≤ k) && decide (k < c.n))

/-! ## Ed25519 -/

def edP : Nat := 2 ^ 255 - 19
def edL : Nat := 2 ^ 252 + 27742317777372353535851937790883648493
def edD : Nat := (edP - 121665) * inv 255 edP 121666 % edP

/-- Extended coordinates X, Y, Z, T. -/
abbrev EdPt := Nat × Nat × Nat × Nat

def edAdd (a b : EdPt) : EdPt :=
  let (x1, y1, z1, t1) := a
  let (x2, y2, z2, t2) := b
  let m := subMod edP y1 x1 * subMod edP y2 x2 % edP
  let n := (y1 + x1) * (y2 + x2) % edP
  let c := 2 * t1 * t2 * edD % edP
  let d := 2 * z1 * z2 % edP
  let e := subMod edP n m
  let f := subMod edP d c
  let g := (d + c) % edP
  let h := (n + m) % edP
  (e * f % edP, g * h % edP, f * g % edP, e * h % edP)

def edZero : EdPt := (0, 1, 1, 0)

def edMul (k : Nat) (q : EdPt) : EdPt :=
  (List.range 256).foldl (fun acc i =>
    let d := edAdd acc acc
    if bitOf k (255 - i) then edAdd d q else d) edZero

def edEq (a b : EdPt) : Bool :=
  a.1 * b.2.2.1 % edP == b.1 * a.2.2.1 % edP && a.2.1 * b.2.2.1 % edP == b.2.1 * a.2.2.1 % edP

def edBase : EdPt :=
  let x := 15112221349535400772501151409588531511454012693041857206046113283949847762202
  let y := 46316835694926478169428394003475163141307993866256225615783033603165251855960
  (x, y, 1, x * y % edP)

def edEncode (a : EdPt) : Bytes :=
  let zi := inv 255 edP a.2.2.1
  let x := a.1 * zi % edP
  let y := a.2.1 * zi % edP
  Bytes.ofNatLE 32 (y + x % 2 * 2 ^ 255)

/-- y of an encoding, and its sign bit. -/
def edRawY (bs : Bytes) : Nat := Bytes.toNatLE (bs.take 32) % 2 ^ 255

/-- Decoding of RFC 8032 for y below p. -/
def edDecode (bs : Bytes) : Option EdPt :=
  let y := edRawY bs
  let sign := Bytes.toNatLE (bs.take 32) / 2 ^ 255
  let u := subMod edP (y * y) 1
  let v := (edD * y * y + 1) % edP
  let t := u * inv 255 edP v % edP
  let r0 := powMod 255 t ((edP + 3) / 8) edP
  let r := if r0 * r0 % edP = t then r0 else r0 * powMod 255 2 ((edP - 1) / 4) edP % edP
  if r * r % edP = t ∧ ¬ (r = 0 ∧ sign = 1) then
    let x := if r % 2 = sign then r else edP - r
    some (x, y, 1, x * y % edP)
  else none

/-- One of the eight points of small order. -/
def edSmall (a : EdPt) : Bool := edEq (edMul 8 a) edZero

/-- The secret scalar and the second half of the expanded seed. -/
def edExpand (seed : Bytes) : Nat × Bytes :=
  let h := Sha.sha512 seed
  let a := Bytes.toNatLE (h.take 32)
  (2 ^ 254 + a % 2 ^ 254 / 8 * 8, h.drop 32)

def edPublic (seed : Bytes) : Bytes := edEncode (edMul (edExpand seed).1 edBase)

def edSign (seed pub m : Bytes) : Bytes :=
  let (a, pre) := edExpand seed
  let r := Bytes.toNatLE (Sha.sha512 (pre ++ m)) % edL
  let rEnc := edEncode (edMul r edBase)
  let k := Bytes.toNatLE (Sha.sha512 (rEnc ++ pub ++ m)) % edL
  rEnc ++ Bytes.ofNatLE 32 ((r + k * a) % edL)

/-- The cofactored equation [8][S]B = [8]R + [8][k]A. -/
def edEquation (a r : EdPt) (pub sig m : Bytes) : Bool :=
  let s := Bytes.toNatLE ((sig.drop 32).take 32)
  let k := Bytes.toNatLE (Sha.sha512 (sig.take 32 ++ pub ++ m)) % edL
  edEq (edMul 8 (edMul s edBase)) (edAdd (edMul 8 r) (edMul 8 (edMul k a)))

/-! ## RSA -/

/-- The raw private operation by CRT and Garner's method (R223), with the blinding values of the draw. -/
def rsaCrt (n p q dp dq qi rp rq x : Nat) : Nat :=
  let a := powMod (n / 2 + 64) (x % p) (dp + rp * (p - 1)) p
  let b := powMod (n / 2 + 64) (x % q) (dq + rq * (q - 1)) q
  b + q * (qi * subMod p a b % p)

def rsaPublic (x e m : Nat) : Nat := powMod 17 (x % m) e m

end Sys2Proof.Curve
end

