-- ==== Sys2Proof/Machine/RootKeys.lean ====
section
/-! DEFINITION. The root, the keys derived from it, the device identity, and the free values that stand for what the manual
leaves open (R263 to R267, R294). -/

namespace Sys2Proof.Machine

open Sys2Proof

/-- `n` free bytes (log entry 3). -/
def freeBytes (s : State) (n : Nat) : Bytes × State :=
  ((upTo n).map (fun j => Config.freeByte (s.free + j)), { s with free := s.free + n })

/-! ## Derivation (R264) -/

/-- One block of the SP 800-108 KDF in counter mode with AES-256 CMAC. -/
def kdfBlock (kdk label ctx : Bytes) (bitLen i : Nat) : Bytes :=
  Modes.cmac (Modes.aes kdk) (Bytes.ofNatBE 1 i ++ label ++ [0] ++ ctx ++ Bytes.ofNatBE 2 bitLen)

/-- The KDF: `bitLen` bits, in whole bytes. -/
def kdf (kdk label ctx : Bytes) (bitLen : Nat) : Bytes :=
  ((upTo (ceilDiv bitLen 128)).flatMap (fun i => kdfBlock kdk label ctx bitLen (i + 1))).take (bitLen / 8)

/-- The root in force: the vault's, or the substitute under DEBUG (R294). -/
def rootInForce (s : State) : Bytes := s.keys.subst.getD s.vault.root

def rootLow (root : Bytes) : Bytes := Bytes.slice root 0 32
def rootHigh (root : Bytes) : Bytes := Bytes.slice root 32 32

def vaultCheckKey (root : Bytes) : Bytes := kdf (rootLow root) (Bytes.ofText "VGVC") [] 256
def imageKey (root : Bytes) (keyEra : Nat) : Bytes := kdf (rootLow root) (Bytes.ofText "VGIM") (Bytes.ofNatLE 4 keyEra) 256
def journalKey (root : Bytes) : Bytes := kdf (rootLow root) (Bytes.ofText "VGJ1") [] 256
def configKey (root : Bytes) : Bytes := kdf (rootLow root) (Bytes.ofText "VGCF") [] 256

/-- RootCheck (R264). -/
def rootCheckOf (root : Bytes) : Bytes := (Modes.cmac (Modes.aes (rootLow root)) (Bytes.zeros 16)).take 8

/-! ## Identity (R265) -/

/-- The identity scalar of a root. -/
def identityScalar (root : Bytes) : Nat :=
  Curve.drawnNonce Curve.p384 (kdf (rootHigh root) (Bytes.ofText "VGID") (Bytes.fit 32 Config.identitySeed) 448)

def identityScalarBytes (root : Bytes) : Bytes := Bytes.ofNatBE 48 (identityScalar root)

/-- Check value of d as the vault holds it (R268). -/
def identityCheckOf (root : Bytes) : Bytes :=
  (Modes.cmac (Modes.aes (vaultCheckKey root)) (identityScalarBytes root)).take 16

/-- x ‖ y of a P-384 private scalar. -/
def publicOfScalar (d : Nat) : Bytes := Curve.encode Curve.p384 (Curve.mul Curve.p384 d (Curve.base Curve.p384))

/-- The identity of a root comes into use (R265). -/
def setIdentity (s : State) (root : Bytes) : State :=
  let d := identityScalar root
  let xy := publicOfScalar d
  { s with keys := { s.keys with identity := some (Bytes.ofNatBE 48 d), idPublic := xy, idDigest := Sha.sha256 (4 :: xy) } }

/-- No identity is presented (R267). -/
def dropIdentity (s : State) : State := { s with keys := { s.keys with identity := none, idPublic := [], idDigest := [] } }

/-- The identity public key in use; none where the device presents no identity (R267). -/
def identityPublic (s : State) : Option Bytes := s.keys.identity.map (fun _ => s.keys.idPublic)

/-- The identity digest in force; zero where the device presents no identity (R265, R337). -/
def identityDigest (s : State) : Bytes := if s.keys.identity.isSome then s.keys.idDigest else Bytes.zeros 32

/-- r ‖ s of a P-384 signature with SHA-384 under the identity key, over a drawn nonce (R266). -/
def identitySign (s : State) (nonce msg : Bytes) : Bytes :=
  let d := Bytes.toNatBE (s.keys.identity.getD [])
  let (r, v) := Curve.ecdsaSign Curve.p384 d (Curve.drawnNonce Curve.p384 nonce) (Sha.sha384 msg)
  Bytes.ofNatBE 48 r ++ Bytes.ofNatBE 48 v

/-- r ‖ s verifies over a message under a P-384 public key x ‖ y with SHA-384. -/
def p384Verify (xy msg sig : Bytes) : Bool :=
  match Curve.checkPoint Curve.p384 (Bytes.fit 96 xy) with
  | .good x y =>
    let r := Bytes.toNatBE (Bytes.slice sig 0 48)
    let v := Bytes.toNatBE (Bytes.slice sig 48 48)
    sig.length == 96 && r != 0 && v != 0 && decide (r < Curve.p384.n) && decide (v < Curve.p384.n)
      && Curve.ecdsaVerify Curve.p384 (some (x, y)) (Sha.sha384 msg) r v
  | _ => false

/-- The first BNC bay whose generator can serve, for draws made by the custody controller (R266; log entry 12): none before SEEDING
first ends, when no DRBG gives output (R253). -/
def servingBay (s : State) : Option Nat := if s.random.seeded then (upTo 16).find? (fun b => drbgServes s b) else none

/-- A draw made by the custody controller. -/
def controllerDraw (s : State) (n : Nat) : Option Bytes × State :=
  match servingBay s with
  | some b => draw s b n
  | none => (none, s)

/-! ## Tenant counters (R288, R294) -/

/-- The stored KUM counter of a tenant: its monotonic counter, or under DEBUG the volatile copy. -/
def kumCounter (s : State) (t : Nat) : Nat :=
  if s.life.debug then (mfind s.keys.debugKum t).getD (mget 0 s.kumCtr t) else mget 0 s.kumCtr t

/-- A tenant counter raised. -/
def setKumCounter (s : State) (t v : Nat) : State :=
  if s.life.debug then { s with keys := { s.keys with debugKum := mput s.keys.debugKum t v } }
  else { s with kumCtr := mset 0 s.kumCtr t v }

end Sys2Proof.Machine
end

