-- ==== Sys2Proof/Machine/KeyItems.lean ====
section
/-! DEFINITION. Attribute blocks, carriages, key update messages and their items, wrapped tokens (R273 to R290). -/

namespace Sys2Proof.Machine

open Sys2Proof

/-! ## Attribute blocks (R273, R276, R281) -/

structure Attr where
  type : Nat
  flags : Nat
  engine : Nat
  ext : Nat
  tenant : Nat
  maxAge : Nat
  usage : Nat
  gen : Nat
  wepoch : Nat
  created : Nat
  kcv : Bytes
  limit : Nat
  deriving DecidableEq, Repr

def parseAttr (b : Bytes) : Attr :=
  { type := Bytes.fieldLE b 0 1, flags := Bytes.fieldLE b 1 1, engine := Bytes.fieldLE b 2 1, ext := Bytes.fieldLE b 3 1
    tenant := Bytes.fieldLE b 4 2, maxAge := Bytes.fieldLE b 6 2, usage := Bytes.fieldLE b 8 4, gen := Bytes.fieldLE b 12 4
    wepoch := Bytes.fieldLE b 16 4, created := Bytes.fieldLE b 20 4, kcv := Bytes.slice b 24 4, limit := Bytes.fieldLE b 28 4 }

def Attr.guarded (a : Attr) : Bool := bitOf a.flags 1
def Attr.nonce (a : Attr) : Bool := bitOf a.flags 2
def Attr.mode (a : Attr) : Nat := a.flags / 32

/-- Fields that a message writes as zero (R281). -/
def Attr.zeroOk (a : Attr) : Bool :=
  a.ext == 0 && a.gen == 0 && a.wepoch == 0 && a.created == 0 && decide (a.engine < 64) && decide (a.usage < 2 ^ 21)
    && (a.guarded || (!a.nonce && a.mode == 0 && a.limit == 0))
    && (!a.guarded || (if a.nonce then a.limit == 0 else a.mode == 0))

/-- The guard that an attribute block gives; `aux` is the limit of a GENERATE item (R281). -/
def Attr.guard (a : Attr) (aux : Nat) : Option Guard :=
  if a.guarded then
    some { nonce := a.nonce, mode := if a.nonce then a.mode else 0
           limit := if a.nonce then 0 else if aux ≠ 0 then aux else a.limit * 65536 }
  else none

/-- The key that an attribute block and a material make. -/
def Attr.key (a : Attr) (aux created : Nat) (m : Bytes) : Key :=
  { type := a.type, backed := bitOf a.flags 0, rfc6979 := bitOf a.flags 3, migrate := bitOf a.flags 4, engine := a.engine
    ext := extCount a.type a.guarded, tenant := a.tenant, maxAge := a.maxAge, usage := a.usage, created := created
    kcv := kcvOf a.type m, material := m, guard := a.guard aux }

/-- Usage bits [10:4], exclusive of all others (R276, R161). -/
def paymentUsage (u : Nat) : Nat := bits u 4 7

/-- The rules of R276 but for BACKED entries. -/
def attrRules (k : Key) : Bool :=
  typeKnown k.type
    && (paymentUsage k.usage == 0 || k.usage == paymentUsage k.usage * 16)
    && (!bitOf k.usage 20 || k.usage == 2 ^ 20 || k.usage == 2 ^ 20 + 2 ^ 12)
    && k.engine != 0 && decide (k.engine < 32)
    && (if bitOf k.engine engInline || bitOf k.engine engCipher then isSymmetric k.type && k.guard.isSome else k.guard.isNone)
    && (!k.rfc6979 || k.type == 0x10 || k.type == 0x12)
    && (match k.guard with
        | some g => !g.nonce || (decide (1 ≤ g.mode) && decide (g.mode ≤ 6))
        | none => true)
    && (!k.backed || backedAllowed k.type)

/-- The exponent of an RSA key is odd and lies from 3 to below 2^17 (R223). -/
def rsaExponentOk (t : Nat) (m : Bytes) : Bool :=
  let n := if t = 0x20 ∨ t = 0x21 then 256 else 512
  let e := Bytes.toNatBE (Bytes.slice m n 4)
  !(t == 0x20 || t == 0x21 || t == 0x22 || t == 0x23) || (e % 2 == 1 && decide (3 ≤ e) && decide (e < 2 ^ 17))

/-! ## ANSI X9.143 key blocks (R283; log entry 14) -/

def hexDigit (b : Byte) : Option Nat :=
  let n := b.toNat
  if 48 ≤ n ∧ n ≤ 57 then some (n - 48) else if 65 ≤ n ∧ n ≤ 70 then some (n - 55)
  else if 97 ≤ n ∧ n ≤ 102 then some (n - 87) else none

/-- Bytes from an even number of hexadecimal characters. -/
def unhex : Bytes → Option Bytes
  | [] => some []
  | [_] => none
  | h :: l :: rest =>
    match hexDigit h, hexDigit l, unhex rest with
    | some a, some b, some r => some (BitVec.ofNat 8 (16 * a + b) :: r)
    | _, _, _ => none

/-- A decimal number from characters. -/
def decimal (bs : Bytes) : Option Nat :=
  bs.foldl (fun acc b => match acc with
    | some v => if 48 ≤ b.toNat ∧ b.toNat ≤ 57 then some (10 * v + (b.toNat - 48)) else none
    | none => none) (some 0)

/-- Length of the optional blocks that follow a 16-character header. -/
def optionalLen : Nat → Bytes → Option Nat
  | 0, _ => some 0
  | n + 1, bs =>
    match unhex (Bytes.slice bs 2 2) with
    | none => none
    | some l =>
      let short := Bytes.toNatBE l
      let len := if short ≠ 0 then some short
        else match unhex (Bytes.slice bs 4 2) with
          | some k => (unhex (Bytes.slice bs 6 (2 * Bytes.toNatBE k))).map Bytes.toNatBE
          | none => none
      match len with
      | some v => if v < 4 then none else (optionalLen n (bs.drop v)).map (v + ·)
      | none => none

/-- A key of the key derivation binding method: `mac` selects the authentication key. -/
def kbDerive (kbpk : Key) (mac : Bool) : Bytes :=
  let n := kbpk.material.length
  let alg := match n, isAes kbpk.type with
    | 16, false => 0
    | 24, false => 1
    | 16, true => 2
    | 24, true => 3
    | _, _ => 4
  let c := cipherOf kbpk
  ((upTo (ceilDiv n c.n)).flatMap (fun i =>
    Modes.cmac c (Bytes.ofNatBE 1 (i + 1) ++ Bytes.ofNatBE 2 (bit mac) ++ [0] ++ Bytes.ofNatBE 2 alg ++ Bytes.ofNatBE 2 (8 * n)))).take n

/-- Content of a block that opened: key usage, algorithm and mode of use as characters, and the key. -/
structure KeyBlock where
  usage : Bytes
  alg : Byte
  mode : Byte
  key : Bytes
  deriving DecidableEq, Repr

/-- A block of version B or D opened under its protection key; none where its form or its authenticator is wrong. -/
def openKeyBlock (kbpk : Key) (b : Bytes) : Option KeyBlock :=
  let macLen := if isAes kbpk.type then 16 else 8
  let version : Byte := if isAes kbpk.type then 68 else 66
  match decimal (Bytes.slice b 1 4), decimal (Bytes.slice b 12 2) with
  | some len, some nOpt =>
    if b.take 1 ≠ [version] ∨ len ≠ b.length ∨ b.length < 16 + 2 * macLen then none
    else match optionalLen nOpt (b.drop 16) with
      | none => none
      | some o =>
        let head := b.take (16 + o)
        let body := b.drop (16 + o)
        match unhex (body.take (body.length - 2 * macLen)), unhex (body.drop (body.length - 2 * macLen)) with
        | some ct, some mac =>
          let c := fun (k : Bytes) => if isAes kbpk.type then Modes.aes k else Modes.tdes k
          let plain := Modes.cbcDecrypt (c (kbDerive kbpk false)) mac ct
          let bitLen := Bytes.toNatBE (plain.take 2)
          if ct.length = 0 ∨ ct.length % macLen ≠ 0 ∨ Modes.cmac (c (kbDerive kbpk true)) (head ++ plain) ≠ mac then none
          else if bitLen % 8 ≠ 0 ∨ plain.length < 2 + bitLen / 8 then none
          else some { usage := Bytes.slice b 5 2, alg := Bytes.at' b 7, mode := Bytes.at' b 8
                      key := (plain.drop 2).take (bitLen / 8) }
        | _, _ => none
  | _, _ => none

/-- Usage bits that a block's key usage and mode of use allow (R283). -/
def blockAllows (kb : KeyBlock) : List Nat :=
  let m := kb.mode.toNat
  let one := fun (chars : List Nat) (b : Nat) => if chars.contains m then [b] else []
  if kb.usage = Bytes.ofText "P0" then [4, 5, 6]
  else if kb.usage = Bytes.ofText "C0" then [7]
  else if kb.usage = Bytes.ofText "B0" then [8, 9]
  else if kb.usage = Bytes.ofText "E0" then [10]
  else if kb.usage = Bytes.ofText "M3" ∨ kb.usage = Bytes.ofText "M6" then one [71, 67] 2 ++ one [86, 67] 3
  else if kb.usage = Bytes.ofText "D0" then one [69, 66] 0 ++ one [68, 66] 1
  else if kb.usage = Bytes.ofText "K0" then [18]
  else []

/-- The block's algorithm and key length suit the type, and every requested usage bit is allowed. -/
def blockSuits (kb : KeyBlock) (a : Attr) : Bool :=
  ((isTdes a.type && kb.alg == 84) || (isAes a.type && kb.alg == 65)) && kb.key.length == materialLen a.type
    && (upTo 32).all (fun b => !bitOf a.usage b || (blockAllows kb).contains b)

/-! ## Carriages (R283 to R285) -/

def carriageRole (carriage : Nat) : Role :=
  { engine := engWrap, types := if carriage = 1 then [1, 2, 3, 4, 5] else [5], usage := [18] }

/-- The material carried: status 0x0406 where the block or tag is wrong, 0x0304 where it does not suit the attributes. -/
def openCarriage (carriage : Nat) (wrap : Key) (aad body : Bytes) (a : Attr) : Nat × Bytes :=
  if carriage = 1 then
    match openKeyBlock wrap body with
    | none => (0x0406, [])
    | some kb => if blockSuits kb a then (0, kb.key) else (0x0304, [])
  else
    let n := body.length - 28
    let c := Modes.aes wrap.material
    let ct := (body.drop 12).take n
    if Modes.gcmTag c (body.take 12) aad ct = body.drop (12 + n) then (0, Modes.gcmCrypt c (body.take 12) ct) else (0x0406, [])

/-! ## Key update messages (R280, R281) -/

structure Item where
  cmd : Nat
  carriage : Nat
  handle : Nat
  expect : Nat
  aux : Nat
  attr : Attr
  /-- item header and attribute block, the AAD of carriage 2 -/
  aad : Bytes
  body : Bytes
  deriving DecidableEq, Repr

/-- One item at the front of a string, and what follows; a status where its layout is wrong. -/
def parseItem (b : Bytes) : Except Nat (Item × Bytes) :=
  let cmd := Bytes.fieldLE b 0 1
  let carriage := Bytes.fieldLE b 1 1
  let bodyLen := Bytes.fieldLE b 2 2
  let head := if cmd = 2 then 16 else 48
  let attr := parseAttr (if cmd = 2 then [] else (b.drop 16).take 32)
  let body := (b.drop head).take bodyLen
  if b.length < 16 then .error 0x0202
  else if cmd = 0 ∨ 5 < cmd then .error 0x0203
  else if b.length < head + bodyLen then .error 0x0202
  else if (cmd = 1 ∧ carriage ≠ 1 ∧ carriage ≠ 2) ∨ (cmd ≠ 1 ∧ carriage ≠ 0) then .error 0x0203
  else if cmd ≠ 2 ∧ attr.zeroOk = false then .error 0x0203
  else if (cmd = 2 ∨ cmd = 3) ∧ Bytes.fieldLE b 12 4 ≠ 0 then .error 0x0203
  else if cmd = 4 ∧ (attr.guarded = false ∨ attr.nonce) ∧ Bytes.fieldLE b 12 4 ≠ 0 then .error 0x0203
  else if (cmd = 2 ∨ cmd = 3 ∨ cmd = 4) ∧ bodyLen ≠ 0 then .error 0x0202
  else if cmd = 5 ∧ (bodyLen < 2 ∨ 32 < bodyLen ∨ Bytes.fieldLE body 0 1 + 1 ≠ bodyLen) then .error 0x0202
  else if cmd = 1 ∧ carriage = 2 ∧ typeKnown attr.type ∧ bodyLen ≠ materialLen attr.type + 28 then .error 0x0202
  else .ok ({ cmd := cmd, carriage := carriage, handle := Bytes.fieldLE b 4 4, expect := Bytes.fieldLE b 8 4
              aux := Bytes.fieldLE b 12 4, attr := attr, aad := b.take 48, body := body }, b.drop (head + bodyLen))

def parseItems : Nat → Bytes → Except Nat (List Item × Bytes)
  | 0, b => .ok ([], b)
  | n + 1, b =>
    match parseItem b with
    | .error e => .error e
    | .ok (it, rest) =>
      match parseItems n rest with
      | .error e => .error e
      | .ok (its, rest) => .ok (it :: its, rest)

/-- A key update message. -/
structure Kum where
  sigAlg : Nat
  tenant : Nat
  counter : Nat
  identity : Bytes
  items : List Item
  /-- the bytes that are signed, and the signature -/
  signed : Bytes
  sig : Bytes
  deriving DecidableEq, Repr

def kumMagic : Nat := 0x4B554D01

def kumSigLen (alg : Nat) : Nat := if alg = 1 then 96 else if alg = 2 then 3309 else 0

/-- Structure of a message (R287, first row): its parts, or 0x0202 or 0x0203. -/
def parseKum (m : Bytes) (ring : Bool) : Except Nat Kum :=
  let alg := Bytes.fieldLE m 6 1
  let n := Bytes.fieldLE m 7 1
  if Bytes.fieldLE m 0 4 ≠ kumMagic ∨ Bytes.fieldLE m 4 2 ≠ m.length ∨ 4096 < m.length ∨ m.length < 64 ∨ n = 0 ∨ 16 < n then
    .error 0x0202
  else if alg = 0 ∨ 3 < alg ∨ (ring ∧ alg = 3) ∨ Bytes.allZero (Bytes.slice m 0x0A 6) = false
      ∨ Bytes.allZero (Bytes.slice m 0x38 8) = false then .error 0x0203
  else match parseItems n (m.drop 64) with
    | .error e => .error e
    | .ok (its, rest) =>
      if rest.length ≠ kumSigLen alg then .error 0x0202
      else .ok { sigAlg := alg, tenant := Bytes.fieldLE m 8 2, counter := Bytes.fieldLE m 0x10 8, identity := Bytes.slice m 0x18 32
                 items := its, signed := m.take (m.length - kumSigLen alg), sig := rest }

/-- A key may sign for a message: a KUM_AUTH key of the tenant of the algorithm's type. -/
def mayAuthorise (m : Kum) (k : Key) : Bool :=
  k.tenant == m.tenant && bitOf k.usage 20 && (if m.sigAlg = 1 then k.type == 0x12 || k.type == 0x13 else k.type == 0x38 || k.type == 0x39)

/-- The tenant's authority key that a handle names for an epoch: 0x0301 where it is absent or none of the message's, 0x0801 where a word
of it is mismatched (R28, R287). -/
def authorityKey (s : State) (m : Kum) (found : Option (Key × Nat × Place)) : Except Nat Key :=
  match found with
  | some (k, _, p) => if keyCorrupt s k p then .error 0x0801 else if mayAuthorise m k then .ok k else .error 0x0301
  | none => .error 0x0301

/-- μ of FIPS 204 for a message with an empty context string. -/
def dsaMu (pk m : Bytes) : Bytes := Sha.shake256 64 (Sha.shake256 64 pk ++ [0, 0] ++ m)

/-- The message's signature verifies under its authority (R280). -/
def kumSigned (k : Key) (m : Kum) : Bool :=
  let pub := publicPart k.type k.material
  if m.sigAlg = 1 then p384Verify pub m.signed m.sig else Lattice.dsaVerify Lattice.dsa65 pub (dsaMu pub m.signed) m.sig

/-- 32 bytes for each GENERATE item. -/
def generateBytes (m : Kum) : Nat := 32 * (m.items.filter (fun it => it.cmd == 4)).length

/-! ## Items at the cut (R281, R282, R287, R289) -/

/-- What an item that passes its checks does to its handle: a command of R281, or 6 for a key that a migration's restore writes (R322);
`moved` tells a deletion by a migration's save (R318). -/
structure ItemOut where
  cmd : Nat
  handle : Nat
  gen : Nat
  key : Option Key
  moved : Bool := false
  deriving DecidableEq, Repr

/-- The slots as the earlier items leave them. -/
def trial (s : State) (done : List ItemOut) : State := done.foldl (fun s it => writeSlot s it.handle 0 it.key) s

/-- Head handle of the key that occupies a slot. -/
def occupant (s : State) (x : Nat) : Option Nat :=
  match mfind s.keys.ext x with
  | some h => some h
  | none => if (slotAt s x).key.isSome then some x else none

/-- The extension run of an item's key: every slot is empty or part of the key at the handle. -/
def runFree (s : State) (h n : Nat) : Bool := (h :: runExt h n).all (fun x => (occupant s x).getD h == h)

def tdesParity (t : Nat) (m : Bytes) : Bytes := if isTdes t then m.map Des.oddParity else m

/-- What RESTRICT may change (R281). -/
def restrictOk (k : Key) (a : Attr) : Bool :=
  let sub := fun (new old : Nat) => (upTo 32).all (fun b => !bitOf new b || bitOf old b)
  a.type == k.type && bitOf a.flags 0 == k.backed && a.guarded == k.guard.isSome && bitOf a.flags 3 == k.rfc6979
    && (!bitOf a.flags 4 || k.migrate) && sub a.engine k.engine && sub a.usage k.usage
    && (a.maxAge == k.maxAge || (decide (0 < a.maxAge) && decide (a.maxAge < k.maxAge)))
    && (match k.guard with
        | some g => a.nonce == g.nonce && (if g.nonce then a.mode == g.mode else a.limit == g.limit / 65536)
        | none => true)

/-- What the items of a message have claimed: the handles of the guarded keys, each claimed once (R145, R146), and those whose
reservations must be durable before its output leaves (R149). -/
structure Claims where
  handles : List Nat := []
  waits : List Nat := []
  deriving DecidableEq, Repr

/-- Key checks and claim of a carriage or parent key for an epoch (R287), which the custody controller unmasks; the stage keeps room for
the `owed` records of the items before it. -/
def fetchCarrier (s : State) (claimed : Claims) (epoch owed tenant h : Nat) (r : Role) : Except Nat Key × State × Claims :=
  if 2 ^ 18 ≤ h then (.error 0x0206, s, claimed)
  else match fetchKey s islControl tenant r (keyByHandle s h epoch) noNonce (fun _ => !claimed.handles.contains h) owed with
    | (.refused st, s, _) => (.error st, s, claimed)
    | (.got k _ _, s, w) => (.ok k, s, { handles := h :: claimed.handles, waits := claimed.waits ++ w })

/-- The material of the key that a RESTRICT leaves in its slot, with its integrity code checked (R26, R28). -/
def keptMaterial (s tr : State) (h : Nat) (sl : Slot) : Except Nat Bytes × State :=
  match sl.key with
  | some k => if keyCorrupt tr k (.resident h) then (.error 0x0801, raiseFabric s islHub islControl memSlots) else (.ok k.material, s)
  | none => (.error 0x0301, s)

/-- Material and status of an item before its attributes: carriage and parent keys, then the carriage's MAC or tag. -/
def itemMaterial (s tr : State) (claimed : Claims) (epoch owed tenant : Nat) (it : Item) (sl : Slot) (gen : Nat) (rand : Bytes) :
    Except Nat Bytes × State × Claims :=
  let t := it.attr.type
  match it.cmd with
  | 1 =>
    match fetchCarrier s claimed epoch owed tenant it.aux (carriageRole it.carriage) with
    | (.error st, s, cl) => (.error st, s, cl)
    | (.ok w, s, cl) =>
      let (st, m) := openCarriage it.carriage w it.aad it.body it.attr
      (if st = 0 then .ok m else .error st, s, cl)
  | 3 =>
    let (m, s) := keptMaterial s tr it.handle sl
    (m, s, claimed)
  | 4 => (if isSymmetric t then .ok (tdesParity t (rand.take (materialLen t))) else .error 0x0304, s, claimed)
  | _ =>
    match fetchCarrier s claimed epoch owed tenant it.aux { engine := engKdf, types := [3, 4, 5], usage := [19] } with
    | (.error st, s, cl) => (.error st, s, cl)
    | (.ok p, s, cl) =>
      let ctx := Bytes.ofNatLE 2 tenant ++ Bytes.ofNatLE 4 it.handle ++ Bytes.ofNatLE 4 gen
      (if isSymmetric t then .ok (tdesParity t (kdf p.material (it.body.drop 1) ctx (8 * materialLen t))) else .error 0x0304, s, cl)

/-- The key an item installs; RESTRICT keeps the material, creation time and guard. -/
def itemKey (it : Item) (sl : Slot) (created : Nat) (m : Bytes) : Key :=
  let k := it.attr.key (if it.cmd = 4 then it.aux else 0) created m
  match it.cmd, sl.key with
  | 3, some old => { k with created := old.created, guard := old.guard }
  | _, _ => k

/-- Handles of the valid BACKED entries once the earlier items of a joint have taken effect (R276). -/
def backedAfter (s : State) (done : List ItemOut) : List Nat :=
  done.foldl (fun l d => l.filter (· != d.handle) ++ (if (d.key.map (·.backed)).getD false then [d.handle] else []))
    (s.vault.backed.map (·.1))

/-- A RESTRICT of a guarded key and its restore: the cut posts a reservation record (R282, R322). -/
def postsRecord (cmd : Nat) (k : Option Key) : Bool := (cmd == 3 || cmd == 6) && ((k.bind (·.guard)).isSome)

/-- Reservation records that the cut of these items posts (R148, R282). -/
def itemPosts (its : List ItemOut) : Nat := (its.filter (fun d => postsRecord d.cmd d.key)).length

/-- The stage has room for `n` more records (R148). -/
def stageRoom (s : State) (n : Nat) : Bool := s.life.debug || decide (s.keys.journal.stage.length + n ≤ stageSize)

/-- The checks of one item in the order of R287, after the items already passed; with what is claimed. DESIGN CHOICE (log entry 239): the
limit of 1,024 BACKED entries (R276) holds for every item that writes a BACKED key but a RESTRICT, whose entry stands already; so also
for one that replaces a BACKED key while all 1,024 are taken. -/
def checkItem (s : State) (claimed : Claims) (epoch tenant : Nat) (done : List ItemOut) (it : Item) (rand : Bytes) :
    Except Nat ItemOut × State × Claims :=
  let tr := trial s done
  let h := it.handle
  let n := if it.cmd = 2 then 0 else extCount it.attr.type it.attr.guarded
  let sl := slotAt tr h
  let gen := if it.cmd = 2 then sl.gen else nextGen sl.gen
  if 2 ^ 18 ≤ h + n then (.error 0x0206, s, claimed)
  else if runFree tr h n = false then (.error 0x0602, s, claimed)
  else if (if it.expect = 0 then sl.key.isSome else sl.gen != it.expect) then (.error 0x0901, s, claimed)
  else if (sl.key.map (·.tenant)).getD tenant ≠ tenant then (.error 0x0302, s, claimed)
  else if it.cmd = 2 then (.ok { cmd := 2, handle := h, gen := gen, key := none }, s, claimed)
  else if it.attr.tenant ≠ tenant then (.error 0x0302, s, claimed)
  else match itemMaterial s tr claimed epoch (itemPosts done) tenant it sl gen rand with
    | (.error st, s, cl) => (.error st, s, cl)
    | (.ok m, s, cl) =>
      let k := itemKey it sl (keyClock s) m
      if attrRules k = false ∨ rsaExponentOk k.type m = false ∨ (it.cmd = 3 ∧ (sl.key.map (restrictOk · it.attr)).getD false = false)
      then (.error 0x0304, s, cl)
      else if it.cmd ≠ 3 ∧ k.backed ∧ 1024 ≤ (backedAfter s done).length then (.error 0x0602, s, cl)
      else if postsRecord it.cmd k ∧ stageRoom s (itemPosts done + 1) = false then (.error 0x0305, bump s (odKey 0x6020 6), cl)
      else if Bytes.allZero it.attr.kcv = false ∧ it.attr.kcv ≠ k.kcv then (.error 0x0404, s, cl)
      else (.ok { cmd := it.cmd, handle := h, gen := gen, key := some k }, s, cl)

/-- The items of a message in order: what they do, or the status, number and handle of the first refused. -/
def checkItems (s : State) (claimed : Claims) (epoch tenant : Nat) (j : Nat) (done : List ItemOut) (rand : Bytes) :
    List Item → Except (Nat × Nat × Nat) (List ItemOut) × State × Claims
  | [] => (.ok done, s, claimed)
  | it :: rest =>
    match checkItem s claimed epoch tenant done it rand with
    | (.error st, s, cl) => (.error (st, j, it.handle), s, cl)
    | (.ok o, s, cl) => checkItems s cl epoch tenant (j + 1) (done ++ [o]) (if it.cmd = 4 then rand.drop 32 else rand) rest

/-- First word of a pending entry: handle [17:0] and, for a deletion, the mark [31] (log entry 196). -/
def pendingWord (h : Nat) (deleted : Bool) : Nat := h + 2 ^ 31 * bit deleted

def pendingHandle (w : Nat) : Nat := w % 2 ^ 31

/-- The pending list with a handle's new generation (R289). -/
def addPending (l : List (Nat × Nat)) (h g : Nat) (deleted : Bool) : List (Nat × Nat) :=
  l.filter (fun e => pendingHandle e.1 != h) ++ [(pendingWord h deleted, g)]

/-- Check value of a BACKED entry (R268): the leftmost 8 bytes of the CMAC over handle, generation and secret. -/
def backedCheck (s : State) (h g : Nat) (secret : Bytes) : Bytes :=
  (Modes.cmac (Modes.aes (vaultCheckKey s.vault.root)) (Bytes.ofNatLE 4 h ++ Bytes.ofNatLE 4 g ++ secret)).take 8

/-- The entry that a BACKED key takes in the vault. -/
def backedEntry (s : State) (h g : Nat) (k : Key) : BackedEntry :=
  let secret := Bytes.slice k.material 0 32
  { gen := g, secret := secret, check := backedCheck s h g secret }

/-- The run that an item replaces is shelved as it stood before the joint: once, at the joint's first item on the handle (R205). -/
def shelveItem (s : State) (epoch : Nat) (it : ItemOut) : Option State :=
  if (slotAt s it.handle).wepoch = epoch % 2 ^ 32 then some (if it.cmd = 3 then s else disinherit s it.handle epoch it.moved)
  else shelveRun s it.handle epoch (it.cmd == 3) it.moved

/-- The key that an item writes: a RESTRICT keeps the guard as it stands, with what the joint's other items have claimed of it (R147,
R282). -/
def writtenKey (s : State) (it : ItemOut) : Option Key :=
  match it.key, (slotAt s it.handle).key with
  | some k, some old => some (if it.cmd = 3 then { k with guard := old.guard } else k)
  | k, _ => k

/-- One item takes effect at the cut of `epoch`: the replaced run is shelved, the slot is written, the vault entry, the
pending list, the key log and the journal follow. None where the shelf has no room (R212). -/
def applyItem (s : State) (epoch : Nat) (it : ItemOut) : Option State :=
  match shelveItem s epoch it with
  | none => none
  | some s =>
    let orphan := (mfind s.vault.backed it.handle).isSome && !(((slotAt s it.handle).key.map (·.backed)).getD false)
    let key := writtenKey s it
    let s := writeSlot s it.handle epoch key
    if s.life.debug then some s
    else
      let s := if orphan then setCounter s (odKey 0x6002 2) (counter s (odKey 0x6002 2) - 1) else s
      let backed := match key with
        | some k => if k.backed then mput s.vault.backed it.handle (backedEntry s it.handle it.gen k) else mdel s.vault.backed it.handle
        | none => mdel s.vault.backed it.handle
      let s := { noteVault s it.handle with
        vault := { s.vault with backed := backed, pending := addPending s.vault.pending it.handle it.gen key.isNone }
        keys := { (noteVault s it.handle).keys with log := { s.keys.log with queue := s.keys.log.queue ++ [{ handle := it.handle, gen := it.gen, key := key }] } } }
      match key.bind (·.guard) with
      | some g => some (if postsRecord it.cmd key then postReservation s { slot := it.handle, nonce := g.nonce, gen := it.gen, ceiling := g.ceiling } else s)
      | none => some s

def applyItems (s : State) (epoch : Nat) (its : List ItemOut) : Option State :=
  its.foldl (fun acc it => acc.bind (fun s => applyItem s epoch it)) (some s)

/-- Pending list room for the handles of a joint (R289). -/
def pendingFits (s : State) (its : List ItemOut) : Bool :=
  s.life.debug || decide ((its.foldl (fun l it => addPending l it.handle it.gen it.key.isNone) s.vault.pending).length ≤ 512)

/-- The receipt before its signature (R290). -/
def receiptBody (m : Kum) (msg : Bytes) (epoch : Nat) (its : List ItemOut) : Bytes :=
  Bytes.ofNatLE 4 0x52435401 ++ Bytes.ofNatLE 2 (160 + 16 * its.length) ++ Bytes.ofNatLE 1 its.length ++ Bytes.ofNatLE 1 m.sigAlg
    ++ Bytes.ofNatLE 2 m.tenant ++ Bytes.zeros 6 ++ Bytes.ofNatLE 8 m.counter ++ Bytes.ofNatLE 8 epoch ++ Sha.sha256 msg
    ++ its.flatMap (fun it => Bytes.ofNatLE 1 it.cmd ++ [0] ++ Bytes.ofNatLE 2 0 ++ Bytes.ofNatLE 4 it.handle
      ++ Bytes.ofNatLE 4 it.gen ++ Bytes.fit 4 ((it.key.map (·.kcv)).getD []))

/-- A refused message: counted and recorded. Cause and, where no item is at fault, item and handle are coded by no rule: free
values (log entry 3). -/
def kumRefused (s : State) (status tenant : Nat) (item : Option (Nat × Nat)) : State :=
  let (f, s) := freeBytes s 6
  let where_ := match item with
    | some (j, h) => Bytes.ofNatLE 1 j ++ Bytes.ofNatLE 4 h
    | none => f.drop 1
  record (bump s (odKey 0x6002 5)) 0x4103 (src 9 tenant)
    (Bytes.ofNatLE 2 status ++ f.take 1 ++ where_ ++ Bytes.ofNatLE 2 tenant)

/-! ## Tokens (R285, R211) -/

structure WrappedToken where
  carriage : Nat
  tenant : Nat
  attr : Attr
  aad : Bytes
  body : Bytes
  deriving DecidableEq, Repr

def tokenMagic : Nat := 0x544B0001

/-- Structure of a wrapped token: its parts, or 0x0202 or 0x0203. -/
def parseToken (m : Bytes) : Except Nat WrappedToken :=
  let a := parseAttr (Bytes.slice m 16 32)
  if Bytes.fieldLE m 0 4 ≠ tokenMagic ∨ m.length < 48 ∨ Bytes.fieldLE m 8 2 + 48 ≠ m.length then .error 0x0202
  else if Bytes.allZero (Bytes.slice m 5 3) = false ∨ Bytes.allZero (Bytes.slice m 12 4) = false ∨ a.zeroOk = false
      ∨ (Bytes.fieldLE m 4 1 ≠ 1 ∧ Bytes.fieldLE m 4 1 ≠ 2) then .error 0x0203
  else if Bytes.fieldLE m 4 1 = 2 ∧ typeKnown a.type ∧ m.length ≠ 48 + materialLen a.type + 28 then .error 0x0202
  else .ok { carriage := Bytes.fieldLE m 4 1, tenant := Bytes.fieldLE m 10 2, attr := a, aad := m.take 48, body := m.drop 48 }

/-- A token's key: no extension, no guard, neither CIPHER nor INLINE (R211, R285), and the other rules of R276. -/
def tokenKeyOk (k : Key) : Bool :=
  attrRules k && k.ext == 0 && k.guard.isNone && !k.backed && !bitOf k.engine engInline && !bitOf k.engine engCipher

end Sys2Proof.Machine
end

