-- ==== Sys2Proof/Machine/FlashLogs.lean ====
section
/-! DEFINITION. The usage journal and the key log in flash: their segments as bytes, which of them count, what a replay takes from them,
and how segments are added (R151 to R155, R291 to R293). -/

namespace Sys2Proof.Machine

open Sys2Proof

/-! ## Slots as bytes (R273, R274, R277) -/

def guardBytes (h : Nat) (g : Guard) : Bytes :=
  Bytes.ofNatLE 1 g.mode ++ Bytes.ofNatLE 1 (bit g.lost) ++ [0, 0] ++ Bytes.ofNatLE 4 h ++ Bytes.ofNatLE 8 g.limit
    ++ Bytes.ofNatLE 8 g.v ++ Bytes.ofNatLE 8 g.ceiling ++ Bytes.zeros 32

/-- The attribute block and the masked part of a key's run, unmasked: 32 bytes, and the material in its slots. -/
def attrBytes (gen wepoch : Nat) (k : Key) : Bytes :=
  let nonce := match k.guard with
    | some g => g.nonce
    | none => false
  let flags := bit k.backed + 2 * bit k.guard.isSome + 4 * bit nonce + 8 * bit k.rfc6979 + 16 * bit k.migrate
  Bytes.ofNatLE 1 k.type ++ Bytes.ofNatLE 1 flags ++ Bytes.ofNatLE 1 k.engine ++ Bytes.ofNatLE 1 k.ext ++ Bytes.ofNatLE 2 k.tenant
    ++ Bytes.ofNatLE 2 k.maxAge ++ Bytes.ofNatLE 4 k.usage ++ Bytes.ofNatLE 4 gen ++ Bytes.ofNatLE 4 wepoch
    ++ Bytes.ofNatLE 4 k.created ++ Bytes.fit 4 k.kcv ++ Bytes.zeros 4

def materialBytes (k : Key) : Bytes := Bytes.fit (32 + 64 * materialExt k.type) k.material

/-- The unmasked bytes of a key's run: head slot, material extensions, guard extension. -/
def slotBytes (h gen wepoch : Nat) (k : Key) : Bytes :=
  attrBytes gen wepoch k ++ materialBytes k
    ++ (match k.guard with
      | some g => guardBytes h g
      | none => [])

/-- The key that the bytes of a run hold. -/
def keyOfBytes (b : Bytes) : Key :=
  let a := parseAttr b
  let m := (b.drop 32).take (materialLen a.type)
  let g := b.drop (64 + 64 * materialExt a.type)
  { type := a.type, backed := bitOf a.flags 0, rfc6979 := bitOf a.flags 3, migrate := bitOf a.flags 4, engine := a.engine
    ext := a.ext, tenant := a.tenant, maxAge := a.maxAge, usage := a.usage, created := a.created, kcv := a.kcv, material := m
    guard := if a.guarded then
        some { nonce := a.nonce, mode := Bytes.fieldLE g 0 1, lost := bitOf (Bytes.fieldLE g 1 1) 0, limit := Bytes.fieldLE g 8 8
               v := Bytes.fieldLE g 16 8, ceiling := Bytes.fieldLE g 24 8 }
      else none }

/-! ## Journal segments (R152, R154) -/

/-- A record of 16 bytes. -/
def jourRecOf (b : Bytes) : JourRec :=
  let w := Bytes.fieldLE b 0 4
  { slot := w % 2 ^ 18, nonce := bitOf w 18, gen := Bytes.fieldLE b 4 4, ceiling := Bytes.fieldLE b 8 8 }

/-- A segment that does not check. -/
def badJourSeg : JourSeg := { under := [], epoch := 0, time := 0, snapshot := false, last := false, recs := [] }

/-- What 4,096 bytes of the journal area hold under a root: a segment, where its magic and its CMAC check (R154). -/
def jourSegOf (root b : Bytes) : JourSeg :=
  let flags := Bytes.fieldLE b 0x18 1
  if b.length = 4096 ∧ Bytes.fieldLE b 0 4 = 0x4A475601 ∧ b.drop 0xFF0 = Modes.cmac (Modes.aes (journalKey root)) (b.take 0xFF0) then
    { under := rootCheckOf root, epoch := Bytes.fieldLE b 8 8, time := Bytes.fieldLE b 16 8, snapshot := bitOf flags 0, last := bitOf flags 1
      recs := (upTo (min 252 (Bytes.fieldLE b 4 4))).map (fun k => jourRecOf (Bytes.slice b (0x20 + 16 * k) 16)) }
  else badJourSeg

/-- A segment is valid for the root in the vault. -/
def jourValid (s : State) (g : JourSeg) : Bool := g.epoch != 0 && g.under == s.vault.rootCheck

/-- The highest of some epochs; 0 of none. -/
def maxEpoch (l : List Nat) : Nat := l.foldl max 0

/-- Epochs of the valid segments of a half. -/
def jourEpochs (s : State) (l : List JourSeg) : List Nat := (l.filter (jourValid s)).map (·.epoch)

/-- The highest valid epoch of the journal (R154 step 1). -/
def jourBest (s : State) : Nat := maxEpoch (jourEpochs s s.keys.journal.halfA ++ jourEpochs s s.keys.journal.halfB)

/-- A log is accepted where its highest valid epoch is the one kept, or the next (R154 step 2). -/
def epochOk (kept best : Nat) : Bool := best == kept || best == kept + 1

/-- A replay under way: what it has taken, and the content and last epoch of a snapshot not yet complete. -/
structure Replay (α : Type) where
  taken : List α := []
  snap : Option (List α × Nat) := none
  deriving Repr

/-- One valid segment replayed: the last complete snapshot takes the place of what stood before it (R154 step 3). -/
def replaySeg {α : Type} (r : Replay α) (epoch : Nat) (snapshot last : Bool) (recs : List α) : Replay α :=
  if snapshot = false then { taken := r.taken ++ recs, snap := none }
  else
    let body := match r.snap with
      | some (l, e) => if e + 1 = epoch then l ++ recs else recs
      | none => recs
    if last then { taken := body, snap := none } else { r with snap := some (body, epoch) }

/-- Records of the half that holds the highest valid epoch, from its last complete snapshot on, and last those of the stage (R154
steps 3 and 4). -/
def journalRecs (s : State) : List JourRec :=
  let j := s.keys.journal
  let half := if (jourEpochs s j.halfB).contains (jourBest s) then j.halfB else j.halfA
  ((half.filter (jourValid s)).foldl (fun (r : Replay JourRec) g => replaySeg r g.epoch g.snapshot g.last g.recs) {}).taken
    ++ (j.stage.filter (·.durable)).map (·.r)

/-- A segment programmed in the active half. -/
def putSegment (j : Journal) (seg : JourSeg) : Journal :=
  if j.activeB then { j with halfB := j.halfB ++ [seg] } else { j with halfA := j.halfA ++ [seg] }

/-- Segments of the active half in use. -/
def segmentsUsed (j : Journal) : Nat := if j.activeB then j.halfB.length else j.halfA.length

/-- Records of a snapshot: the ceilings of every guarded key (R153). -/
def snapshotRecs (s : State) : List JourRec :=
  s.keys.slots.filterMap (fun e => match e.2.key with
    | some k => k.guard.map (fun g => { slot := e.1, nonce := g.nonce, gen := e.2.gen, ceiling := g.ceiling })
    | none => none)

/-- Segments of a snapshot from an epoch on. DESIGN CHOICE (log entry 240): with no guarded key to write, one segment of no record is the
snapshot, first and last, where R152 gives a count of 1 to 252. -/
def snapshotSegs (s : State) (epoch : Nat) : List JourSeg :=
  let rs := snapshotRecs s
  let n := max 1 (ceilDiv rs.length 252)
  (upTo n).map (fun k => { under := s.vault.rootCheck, epoch := epoch + k, time := s.now, snapshot := true, last := k + 1 == n
                           recs := (rs.drop (252 * k)).take 252 })

/-- The idle half erased and a snapshot written to it, where the journal goes on (R153). -/
def snapshotJournal (s : State) : State :=
  let segs := snapshotSegs s (s.vault.journalEpoch + 1)
  let j := s.keys.journal
  let j := if j.activeB then { j with halfA := segs, activeB := false } else { j with halfB := segs, activeB := true }
  bumpBy { s with vault := { s.vault with journalEpoch := s.vault.journalEpoch + segs.length }, keys := { s.keys with journal := j } }
    (odKey 0x6020 5) segs.length

/-! ## Key-log segments (R291) -/

/-- Payload of a segment of 16 KiB: header of 32 bytes and tag of 16 apart (R152, R291). -/
def segPayload : Nat := 16336

/-- Segments of 16 KiB that an entry of a log takes. -/
def logSegments (bytes : Nat) : Nat := max 1 (ceilDiv bytes segPayload)

/-- A record as flash holds it: a BACKED key without its secret. -/
def logged (r : KeyLogRec) : KeyLogRec :=
  { r with key := r.key.map (fun k => if k.backed then { k with material := Bytes.zeros 32 ++ k.material.drop 32 } else k) }

/-- Bytes of a record in a segment: handle, generation, ext, and the slots or a deletion mark (log entry 197). -/
def keyLogBytes (r : KeyLogRec) : Nat := 9 + (match r.key with
  | some k => 64 * (1 + k.ext)
  | none => 0)

/-- One record at the front of a segment's content, and what follows. -/
def keyLogRecOf (b : Bytes) : KeyLogRec × Bytes :=
  let ext := Bytes.fieldLE b 8 1
  let body := b.drop 9
  if ext = 0xFF then ({ handle := Bytes.fieldLE b 0 4, gen := Bytes.fieldLE b 4 4, key := none }, body)
  else ({ handle := Bytes.fieldLE b 0 4, gen := Bytes.fieldLE b 4 4, key := some (keyOfBytes body) }, body.drop (64 * (1 + ext)))

/-- A number of records, and what follows the last. -/
def keyLogRecsOf : Nat → Bytes → List KeyLogRec × Bytes
  | 0, b => ([], b)
  | n + 1, b =>
    let (r, rest) := keyLogRecOf b
    let (rs, rest) := keyLogRecsOf n rest
    (r :: rs, rest)

/-- A segment that does not check. -/
def badKeySeg : KeySeg := { under := [], era := 0, epoch := 0, snapshot := false, last := false, recs := [] }

/-- What 16 KiB of the key-log area hold under a root and a KeyEra, after the bytes that a record begun in the segment before has left:
a segment, where its magic and its tag check, and the bytes of a record that goes on in the next. -/
def keySegOf (root : Bytes) (era : Nat) (carry b : Bytes) : KeySeg × Bytes :=
  let flags := Bytes.fieldLE b 0x18 1
  let c := Modes.aes (imageKey root era)
  let nonce := Bytes.ofNatLE 4 0x4B4C4F47 ++ Bytes.slice b 8 8
  let ct := Bytes.slice b 32 segPayload
  if b.length = 16384 ∧ Bytes.fieldLE b 0 4 = 0x4B4C4F47 ∧ Modes.gcmTag c nonce (b.take 32) ct = b.drop (32 + segPayload) then
    let (rs, rest) := keyLogRecsOf (Bytes.fieldLE b 4 4) (carry ++ Modes.gcmCrypt c nonce ct)
    ({ under := rootCheckOf root, era := era, epoch := Bytes.fieldLE b 8 8, snapshot := bitOf flags 0, last := bitOf flags 1, recs := rs },
      if Bytes.allZero rest then [] else rest)
  else (badKeySeg, carry)

/-- A half of the key-log area as bytes, segment by segment. -/
def keySegsOf (root : Bytes) (era : Nat) : Bytes → List Bytes → List KeySeg
  | _, [] => []
  | carry, b :: rest =>
    let (g, carry) := keySegOf root era carry b
    g :: keySegsOf root era carry rest

/-- A segment is valid for the root and the KeyEra in the vault. -/
def keyValid (s : State) (g : KeySeg) : Bool := g.epoch != 0 && g.under == s.vault.rootCheck && g.era == s.vault.keyEra

def keyEpochs (s : State) (l : List KeySeg) : List Nat := (l.filter (keyValid s)).map (·.epoch)

/-- The highest valid epoch of the key log. -/
def keyBest (s : State) : Nat := maxEpoch (keyEpochs s s.keys.log.halfA ++ keyEpochs s s.keys.log.halfB)

/-- Records of the half that holds the highest valid epoch, from its last complete snapshot on. -/
def keyLogRecs (s : State) : List KeyLogRec :=
  let l := s.keys.log
  let half := if (keyEpochs s l.halfB).contains (keyBest s) then l.halfB else l.halfA
  ((half.filter (keyValid s)).foldl (fun (r : Replay KeyLogRec) g => replaySeg r g.epoch g.snapshot g.last g.recs) {}).taken

/-- Records in segments: each stands in the segment in which it ends; one is not begun where fewer than the nine bytes of its head have
room (log entry 197). -/
structure Packing where
  done : List (List KeyLogRec) := []
  cur : List KeyLogRec := []
  room : Nat := segPayload
  deriving Repr

def packRec (p : Packing) (r : KeyLogRec) : Packing :=
  let n := keyLogBytes r
  if p.room < 9 then { done := p.done ++ [p.cur], cur := [r], room := segPayload - n }
  else if n ≤ p.room then { p with cur := p.cur ++ [r], room := p.room - n }
  else { done := p.done ++ [p.cur], cur := [r], room := segPayload - (n - p.room) }

def packSegs (rs : List KeyLogRec) : List (List KeyLogRec) :=
  let p := rs.foldl packRec {}
  p.done ++ [p.cur]

/-- Segments over records, from the epoch after KeyLogEpoch on. -/
def keySegs (s : State) (snapshot : Bool) (rs : List KeyLogRec) : List KeySeg :=
  let l := packSegs (rs.map logged)
  l.zipIdx.map (fun e => { under := s.vault.rootCheck, era := s.vault.keyEra, epoch := s.vault.keyLogEpoch + 1 + e.2, snapshot := snapshot
                           last := snapshot && e.2 + 1 == l.length, recs := e.1 })

/-- Segments programmed in the active half. -/
def putKeySegs (l : KeyLog) (segs : List KeySeg) : KeyLog :=
  if l.activeB then { l with halfB := l.halfB ++ segs } else { l with halfA := l.halfA ++ segs }

/-- Segments of the active half in use. -/
def keySegsUsed (l : KeyLog) : Nat := if l.activeB then l.halfB.length else l.halfA.length

/-- What the log holds last of a handle's generation. -/
def lastLogged (s : State) (h gen : Nat) : Option Key :=
  (((keyLogRecs s).filter (fun r => r.handle == h && r.gen == gen)).getLast?).bind (·.key)

/-- The key that a snapshot writes for a slot. DESIGN CHOICE (log entry 238): for one with a mismatched word, what the log held of it
before. -/
def snapshotKey (s : State) (h : Nat) (sl : Slot) : Option Key :=
  sl.key.bind (fun k => if keyCorrupt s k (.resident h) then lastLogged s h sl.gen else some k)

/-- Slots whose run has a mismatched word. -/
def corruptSlots (s : State) : List Nat :=
  (s.keys.slots.filter (fun e => e.2.key.any (fun k => keyCorrupt s k (.resident e.1)))).map (·.1)

/-- The idle half erased and a snapshot of the key store written to it, where the log goes on (R291); the custody controller, which reads
every slot for it, finds the mismatched ones (R26, R28). -/
def snapshotKeys (s : State) : State :=
  let s := each (corruptSlots s) s (fun s _ => raiseFabric s islHub islControl memSlots)
  let segs := keySegs s true (s.keys.slots.map (fun e => { handle := e.1, gen := e.2.gen, key := snapshotKey s e.1 e.2 }))
  let l := s.keys.log
  let l := if l.activeB then { l with halfA := segs, activeB := false } else { l with halfB := segs, activeB := true }
  { s with vault := { s.vault with keyLogEpoch := s.vault.keyLogEpoch + segs.length }, keys := { s.keys with log := l } }

/-- A new log at KeyLogEpoch + 1, of the key store as it stands; nothing waits for it (R293, R295). -/
def newKeyLog (s : State) : State :=
  snapshotKeys { s with keys := { s.keys with log := { s.keys.log with queue := [], tries := 0, hold := 0 } } }

/-- What follows a CLEAR-KEYS in flash (R155, R295): a new key log, and, where the journal is not rejected, a fresh snapshot of it, so
that no record left in flash is replayed for a generation to come (log entry 198). -/
def freshLogs (s : State) : State :=
  let s := newKeyLog s
  if s.keys.journal.rejected then s else snapshotJournal s

end Sys2Proof.Machine
end

