-- ==== Sys2Proof/Machine/AccessRules.lean ====
section
/-! DEFINITION. Masters, the internal address map, region rules of the access-control unit, its violations, and the check of an LD's
access (R416 to R426, R430, R446, R460). -/

namespace Sys2Proof.Machine

open Sys2Proof

/-! ## Masters (R416) -/

def ccMaster : Nat := 0x40
def loaderMaster : Nat := 0x41
def managerMaster : Nat := 0x42
def debugMaster : Nat := 0x43
def dmaMaster : Nat := 0x44
def laneMaster : Nat := 0x48
def cipherMaster : Nat := 0x49
def bncMaster : Nat := 0x4A
def sequencerMaster : Nat := 0x4B
def randomMaster : Nat := 0x4C
def remaskMaster : Nat := 0x4D
def responseMaster : Nat := 0x4E

/-- The master identity of the engines of a bay. -/
def engineMaster (b : Nat) : Nat := if isBncBay b then bncMaster else if isCipherBay b then cipherMaster else laneMaster

/-! ## The internal address map (R418): base and size of each region -/

def rgAreas : Nat × Nat := (0x100000000, 0x80000000)
def rgSlots : Nat × Nat := (0x200000000, 0x1000000)
def rgTokens : Nat × Nat := (0x201000000, 0x800000)
def rgDeriv : Nat × Nat := (0x202000000, 0x1000000)
def rgRoutes : Nat × Nat := (0x203000000, 0x1000000)
def rgPools : Nat × Nat := (0x204000000, 0x4000000)
def rgRingPool : Nat × Nat := (0x204000000, 0x1000000)
def rgSlotPool : Nat × Nat := (0x205000000, 0x1000000)
def rgStaging : Nat × Nat := (0x206000000, 0x2000000)
def rgContexts : Nat × Nat := (0x208000000, 0x200000)
def rgVault : Nat × Nat := (0x400000000, 0x10000)
def rgCounters : Nat × Nat := (0x400010000, 0x10000)
def rgTail : Nat × Nat := (0x400020000, 0x8000)
def rgEvents : Nat × Nat := (0x410000000, 0x200000)
def rgJoints : Nat × Nat := (0x420000000, 0x1000000)
def rgCc : Nat × Nat := (0x430000000, 0x200000)
def rgSram : Nat × Nat := (0x431000000, 0x40000)
def rgRom : Nat × Nat := (0x432000000, 0x20000)
def rgOtp : Nat × Nat := (0x433000000, 0x800)
def rgManager : Nat × Nat := (0x500000000, 0x100000)
def rgLink : Nat × Nat := (0x510000000, 0x2000)
def rgBays : Nat × Nat := (0x600000000, 28 * 0x1000000)
def rgCapture : Nat × Nat := (0x700000000, 0x10000)

/-- Bytes of an engine's memory (R30). -/
def engineBytes (b : Nat) : Nat := if isBncBay b then 0x8000 else if isCipherBay b then 0x4000 else 0x1000

/-- Operand memories or buffers of a bay, its sequencer memory, its microcode store. -/
def rgEngines (b : Nat) : Nat × Nat := (0x600000000 + 0x1000000 * b, engineCount b * engineBytes b)
def rgSequencer (b : Nat) : Nat × Nat := (0x600800000 + 0x1000000 * b, 0x10000)
def rgMicrocode (b : Nat) : Nat × Nat := (0x600C00000 + 0x1000000 * b, 0x8000)

/-- Regions but the bays and the raw capture window, ROM and OTP. -/
def coreRegions : List (Nat × Nat) :=
  [rgAreas, rgSlots, rgTokens, rgDeriv, rgRoutes, rgPools, rgContexts, rgVault, rgCounters, rgTail, rgEvents, rgJoints, rgCc, rgSram]
    ++ [rgManager, rgLink]

/-- Every region. -/
def allRegions : List (Nat × Nat) := coreRegions ++ [rgRom, rgOtp, rgBays, rgCapture]

def holdsAddr (g : Nat × Nat) (addr : Nat) : Bool := decide (g.1 ≤ addr) && decide (addr < g.1 + g.2)

/-- An address holds memory: one outside every region is denied to all (R418). -/
def mapped (addr : Nat) : Bool := allRegions.any (fun g => holdsAddr g addr)

/-! ## Rules (R419) -/

/-- The fields of a rule that can be written: its reserved bits read 0. -/
def ruleFields (r : Nat) : Nat := Nat.land r (0xF0FFFF000FFFFFFF * 2 ^ 64 + 0x0FFFFFFF * 2 ^ 32)

/-- A rule over a region for one master. -/
def mkRule (denies rd wr : Bool) (master : Nat) (g : Nat × Nat) : Nat :=
  2 ^ 127 + bit denies * 2 ^ 126 + bit rd * 2 ^ 125 + bit wr * 2 ^ 124 + master * 2 ^ 112
    + (g.1 + g.2 - 1) / 4096 * 2 ^ 64 + g.1 / 4096 * 2 ^ 32

def ruleValid (r : Nat) : Bool := bitOf r 127
def ruleDenies (r : Nat) : Bool := bitOf r 126
def ruleMaster (r : Nat) : Nat := bits r 112 8
def ruleMask (r : Nat) : Nat := bits r 104 8
def ruleLimit (r : Nat) : Nat := bits r 64 28
def ruleBase (r : Nat) : Nat := bits r 32 28

/-- A rule speaks of a master and a direction. -/
def ruleSpeaks (r master : Nat) (isRead : Bool) : Bool :=
  ruleValid r && decide (Nat.lor (ruleMaster r) (ruleMask r) = Nat.lor master (ruleMask r)) && bitOf r (if isRead then 125 else 124)

/-- A rule matches an access: master, page and direction. -/
def ruleMatches (r master addr : Nat) (isRead : Bool) : Bool :=
  ruleSpeaks r master isRead && decide (ruleBase r ≤ addr / 4096) && decide (addr / 4096 ≤ ruleLimit r)

/-- A rule matches some part of an access to a range of whole pages, split at each of them (R423). -/
def ruleMeets (r master base size : Nat) (isRead : Bool) : Bool :=
  ruleSpeaks r master isRead && decide (ruleBase r < (base + size) / 4096) && decide (base / 4096 ≤ ruleLimit r)

/-- The lowest rule of the active bank that denies, or allows, an access. -/
def decidingRule (s : State) (denies : Bool) (master addr : Nat) (isRead : Bool) : Option Nat :=
  (s.acu.active.find? (fun e => ruleDenies e.2 == denies && ruleMatches e.2 master addr isRead)).map (·.1)

/-- A rule matches every part of an access to a range of whole pages. -/
def ruleCovers (r master base size : Nat) (isRead : Bool) : Bool :=
  ruleSpeaks r master isRead && decide (ruleBase r ≤ base / 4096) && decide ((base + size) / 4096 ≤ ruleLimit r + 1)

/-- The rule that stops some part of an access to some pages, with the first address that it denies: the lowest DENY rule, or 0x101
where no ALLOW rule covers a range (R422 steps 3 and 5). -/
def decidingOver (s : State) (master : Nat) (ranges : List (Nat × Nat)) (isRead : Bool) : Option (Nat × Nat) :=
  ranges.findSome? (fun g =>
    match s.acu.active.find? (fun e => ruleDenies e.2 && ruleMeets e.2 master g.1 g.2 isRead) with
    | some e => some (e.1, max g.1 (4096 * ruleBase e.2))
    | none =>
      if s.acu.active.any (fun e => !ruleDenies e.2 && ruleCovers e.2 master g.1 g.2 isRead) then none else some (0x101, g.1))

/-! ## Firmware, debug and user rules (R420, R421, R430) -/

/-- What the firmware rules allow each master: read, write, region. The table of R421, row by row; a bay's own region is checked by bay
number beside the rule. -/
def allowances : List (Nat × Bool × Bool × (Nat × Nat)) :=
  (coreRegions ++ [rgRom, rgOtp]).map (fun g => (ccMaster, true, true, g))
  ++ [(loaderMaster, true, true, rgSram), (loaderMaster, true, false, rgRom), (loaderMaster, true, false, rgOtp), (loaderMaster, true, true, rgVault)]
  ++ [(loaderMaster, false, true, rgCc), (loaderMaster, false, true, rgManager)]
  ++ (upTo 28).flatMap (fun b => [(loaderMaster, false, true, rgSequencer b), (loaderMaster, false, true, rgMicrocode b)])
  ++ [(managerMaster, true, true, rgManager), (managerMaster, true, true, rgLink), (managerMaster, true, false, rgContexts)]
  ++ [(dmaMaster, true, true, rgPools), (dmaMaster, false, true, rgSram)] ++ (upTo 8).map (fun k => (dmaMaster, true, true, rgEngines (16 + k)))
  ++ [(laneMaster, true, false, rgSlots), (laneMaster, true, false, rgRoutes), (laneMaster, true, true, rgSlotPool)]
  ++ (upTo 4).map (fun k => (laneMaster, true, true, rgEngines (24 + k)))
  ++ [(cipherMaster, true, false, rgSlots), (cipherMaster, true, false, rgTokens), (cipherMaster, true, true, rgDeriv), (cipherMaster, true, true, rgPools)]
  ++ [(cipherMaster, true, true, (0x610000000, 8 * 0x1000000))]
  ++ [(bncMaster, true, false, rgSlots), (bncMaster, true, false, rgTokens), (bncMaster, true, true, rgStaging), (bncMaster, true, true, (0x600000000, 16 * 0x1000000))]
  ++ [(sequencerMaster, true, false, rgContexts), (sequencerMaster, true, true, rgRingPool), (sequencerMaster, true, true, rgSlotPool)]
  ++ [(sequencerMaster, true, false, rgStaging), (sequencerMaster, true, true, rgBays)]
  ++ [(randomMaster, false, true, rgCapture)]
  ++ [rgSlots, rgTokens, rgDeriv, rgVault].map (fun g => (remaskMaster, true, true, g))
  ++ (coreRegions ++ [rgBays, rgCapture]).map (fun g => (responseMaster, false, true, g))

/-- Rules 0 to 159 as the signed image sets them. DESIGN CHOICE (log entry 50): they stand in the order of the table of R421. -/
def firmwareRules : Map Nat := allowances.zipIdx.map (fun e => (e.2, mkRule false e.1.2.1 e.1.2.2.1 e.1.1 e.1.2.2.2))

/-- What a granted scope opens to the debug master (R430): read, write, region. -/
def debugAllowances (scope : Nat) : List (Bool × Bool × (Nat × Nat)) :=
  (if bitOf scope 1 then [(true, true, rgCc), (true, true, rgSram), (true, false, rgRom), (true, false, rgJoints), (true, false, rgEvents), (true, false, rgTail)]
    else [])
  ++ (if bitOf scope 2 then [(true, false, rgBays), (false, true, (0x600800000, 27 * 0x1000000 + 0x408000))] else [])
  ++ (if bitOf scope 3 then [(true, true, rgManager), (true, false, rgLink)] else [])
  ++ (if bitOf scope 4 then [(true, false, rgCapture)] else [])

/-- Rules 160 to 191 in DEBUG. The 56 sequencer memories and microcode stores are more than these rules can name one by one: one rule
spans them, and the check of a debug write beside it admits nothing else of the bays (log entry 50). -/
def debugRules (scope : Nat) : Map Nat := (debugAllowances scope).zipIdx.map (fun e => (160 + e.2, mkRule false e.1.1 e.1.2.1 debugMaster e.1.2.2))

/-- User rules of a configuration, by rule number. -/
def userRules (c : Cfg) : Map Nat :=
  (upTo 64).filterMap (fun n =>
    let v := ruleFields (Bytes.toNatLE (octets c 0x1180 (n + 1)))
    if v = 0 then none else some (192 + n, v))

/-- The rules of a configuration and of debug authorisation, as the controller writes them into the shadow bank; its own since step 7. -/
def rulesFor (s : State) (c : Cfg) : Map Nat :=
  (if 7 ≤ s.power.step then firmwareRules else []) ++ (if s.life.debug then debugRules s.life.scope else []) ++ userRules c

/-- A sequencer memory or a microcode store. -/
def bayStore (addr : Nat) : Bool := (upTo 28).any (fun b => holdsAddr (rgSequencer b) addr || holdsAddr (rgMicrocode b) addr)

/-- Steps 3 and 5 of R422 for a master that is no LD, with the number of its bay where it has one: the rule that denies, or 0x101. -/
def ruleDenied (s : State) (master bay addr : Nat) (isRead : Bool) : Option Nat :=
  match decidingRule s true master addr isRead with
  | some r => some r
  | none =>
    let own := !holdsAddr rgBays addr || !([cipherMaster, bncMaster, sequencerMaster].contains master) || (addr - rgBays.1) / 0x1000000 == bay
    let store := master != debugMaster || isRead || !holdsAddr rgBays addr || bayStore addr
    if mapped addr && own && store && (decidingRule s false master addr isRead).isSome then none else some 0x101

/-! ## Violations (R425, R426) -/

/-- A denied part: counted, captured when it is the first, recorded. -/
def violation (s : State) (rule master len addr : Nat) (isRead : Bool) : State :=
  let a := s.acu
  let cap := match a.cap with
    | some c => some c
    | none => some { rule := rule, isRead := isRead, master := master, len := len, addr := addr, epoch := a.epoch }
  record { s with acu := { a with cap := cap, count := min 0xFFFFFFFF (a.count + 1) } } 0x3101 (src 0xB 0)
    (Bytes.ofNatLE 1 master ++ Bytes.ofNatLE 2 rule ++ Bytes.ofNatLE 1 (bit isRead) ++ Bytes.ofNatLE 5 addr
      ++ Bytes.ofNatLE 2 len)

/-- Parts of a transfer of `len` bytes, split at each 4 KiB boundary, that rules stop: rule, address, bytes (R423). Which pages of its
ranges a transfer takes is not said: denied ones first (log entry 207). -/
def deniedParts (s : State) (master : Nat) (ranges : List (Nat × Nat)) (isRead : Bool) (len : Nat) : List (Nat × Nat × Nat) :=
  let pages := ranges.flatMap (fun g => (upTo (g.2 / 4096)).map (fun k => g.1 + 4096 * k))
  let hits := (pages.filterMap (fun a => (ruleDenied s master 0 a isRead).map (fun r => (r, a)))).take (ceilDiv len 4096)
  hits.zipIdx.map (fun e => (e.1.1, e.1.2, min 4096 (len - 4096 * e.2)))

/-- The denied parts of a DMA transfer: each a violation, and FABRIC found by the link island, with the access-control unit, which is
no island, as its source (R423, R424; log entry 207). -/
def dmaViolation (s : State) (ranges : List (Nat × Nat)) (len mem : Nat) (isRead : Bool) : State :=
  each (deniedParts s dmaMaster ranges isRead len) s (fun s p =>
    raiseIf (violation s p.1 dmaMaster p.2.2 p.2.1 isRead) 11 (detail (0xFF + 256 * islLink + 65536 * mem)) true)

/-! ## Responses to an LD (R424, R448) -/

/-- DevLoad of head h: the booking of its quadrant's inline bay in a frame. -/
def devLoad (s : State) (h frame : Nat) : Nat :=
  let b := 24 + h % 4
  let used := 100 * bookTime (bookEntry s b frame)
  let cap := bayCap s b
  if used < 50 * cap then 0 else if used < 80 * cap then 1 else if used < 95 * cap then 2 else 3

/-- The DevLoad that a response to an LD carries now. -/
def loadOf (s : State) (ld : Nat) : Nat := devLoad s (ld / 16) (s.now / 2000)

def answerRead (s : State) (ld tag : Nat) (data : Bytes) : State := emit s (.read ld tag (loadOf s ld) data)
def answerPoison (s : State) (ld tag : Nat) : State := emit s (.poison ld tag (loadOf s ld))
def answerDone (s : State) (ld tag : Nat) : State := emit s (.done ld tag (loadOf s ld))

/-! ## Heads and LDs (R297, R324, R442, R443) -/

/-- Heads of a split (R297). -/
def headsOf (split : Nat) : Nat := if split = 0 then 1 else if split = 1 then 2 else 4

/-- Heads of the split in force. -/
def headsNow (s : State) : Nat := headsOf s.link.split

/-- A head carries CXL.io and CXL.mem: it exists and is up in flit mode. -/
def headUp (s : State) (h : Nat) : Bool := s.power.pwrGood && decide (h < headsNow s) && (getHead s h).st == 2

/-- LdEnabled of an LD (R324). -/
def ldEnabled (c : Cfg) (d : Nat) : Bool := setting c (0x9010 + d) 1 0 == 1

/-- Start-up is complete and main power is present: instance areas answer (R362). -/
def serving (s : State) : Bool := s.power.step == 12 && s.power.pwrGood

/-- An instance is assigned and bound to an enabled LD (R298, R300). -/
def bound (s : State) (ld i : Nat) : Bool := instLd s.ctl.cfg i == ld && (getInst s i).st != 0 && ldEnabled s.ctl.cfg ld

/-- The LD's decoder is committed (R446). -/
def decoded (s : State) (ld : Nat) : Bool := (mfind s.link.hdm ld).isSome

/-- An access mastered by an LD reaches the area of an instance: its head is up, the instance bound to it and assigned, its decoder
committed. -/
def reaches (s : State) (ld i : Nat) : Bool := serving s && headUp s (ld / 16) && bound s ld i && decoded s ld

/-! ## LD accesses (R298, R418, R422, R424, R446, R460) -/

/-- Internal address of an offset in the area of instance i. -/
def areaAddr (i off : Nat) : Nat := 0x100000000 + 0x80000 * i + off

/-- Link IDE is required on the LD's head and its CXL.mem stream is not Secure. -/
def ideLacking (s : State) (ld : Nat) : Bool :=
  setting s.ctl.cfg (0x1110 + ld / 16) 5 0 == 1 && (getHead s (ld / 16)).ideMem.isNone

/-- The rule that denies an LD's access to an instance bound to it, if any does. -/
def ldDenied (s : State) (ld i off : Nat) (isRead : Bool) : Option Nat :=
  if ideLacking s ld then some 0x100 else decidingRule s true ld (areaAddr i off) isRead

/-- Link and hub island have their clocks: an access takes its way (R22). -/
def portRuns (s : State) : Bool := islandRuns s islLink && islandRuns s islHub

/-- The completion of a write, as if it had been performed (R424, R448); a read has its data. -/
def complete (s : State) (isRead : Bool) (ld tag : Nat) : State := if isRead then s else answerDone s ld tag

/-- An access that no committed decoder claims, completed as the CXL specification has it: ones for a read (R446; PRESUMED, log
entry 249). -/
def unclaimed (s : State) (isRead : Bool) (ld tag : Nat) : State :=
  if isRead then answerRead s ld tag (List.replicate 64 0xFF) else answerDone s ld tag

/-- A denied access: poison for a read, a write completed and dropped, and the violation kept (R424). -/
def deny (s : State) (rule ld addr : Nat) (isRead : Bool) (tag : Nat) : State :=
  violation (if isRead then answerPoison s ld tag else answerDone s ld tag) rule ld 64 addr isRead

/-- An access of an LD to the area of an instance, brought by a command: while a clock on its way stands still, so does its word (R22);
without flit mode on its head there is none (R443); where it names a binding that does not exist, there is none; permitted, it has its
effect, and a write its completion. -/
def ldAccess (s : State) (c : Instr) (ld i off : Nat) (isRead : Bool) (tag : Nat) (f : State → State) : State :=
  if portRuns s = false then stall s c
  else if headUp s (ld / 16) = false then s
  else if serving s = false then complete (f s) isRead ld tag
  else if bound s ld i = false then s
  else if decoded s ld = false then unclaimed s isRead ld tag
  else match ldDenied s ld i off isRead with
    | none => complete (f s) isRead ld tag
    | some r => deny s r ld (areaAddr i (off / 64 * 64)) isRead tag

end Sys2Proof.Machine
end

