-- ==== Sys2Proof/Machine/Epoch.lean ====
section
/-! DEFINITION. Joint slots and the cut: opening and closing a joint's slot, the advance of the epoch, the record of a commit
(R335, R340, R341, R343, R345). -/

namespace Sys2Proof.Machine

open Sys2Proof

/-! ## Joint slots (R335) -/

def jointOpen (j : Joint) : Bool := decide (j.st ≤ 1)

/-- Open joints of the device. -/
def openJoints (s : State) : List (Nat × Joint) := s.ctl.joints.filter (fun e => jointOpen e.2)

/-- Bytes of the staging store in use (R31). -/
def stagingUsed (s : State) : Nat := (openJoints s).foldl (fun a e => a + e.2.bytes) 0

def stagingStore : Nat := 16 * 2 ^ 20

/-- The lowest slot that holds no open joint (log entry 15). -/
def freeJointSlot (s : State) : Option Nat := (upTo 64).find? (fun j => !jointOpen (getJoint s j))

def jointIdOf (slot : Nat) (j : Joint) : Nat := slot + 64 * j.gen

/-- A joint opened in a slot: next generation, next serial (R335, R343). -/
def openSlot (s : State) (slot : Nat) (j : Joint) : State :=
  let g := if ((getJoint s slot).gen + 1) % 1024 = 0 then 1 else ((getJoint s slot).gen + 1) % 1024
  let serial := devCounter s 2 + 1
  setJoint (setDevCounter s 2 serial) slot
    { j with gen := g, st := 0, serial := serial, base := s.ctl.epoch, lastMsg := s.now }

/-- Joints whose commits have begun, in the order in which they begin (R340). -/
def queueCommit (s : State) (slot t : Nat) : State :=
  let before := fun (k : Nat) => decide ((getJoint s k).beginT ≤ t)
  let l := s.ctl.commits.filter before ++ [slot] ++ s.ctl.commits.filter (fun k => !before k)
  let s := modJoint s slot (fun j => { j with beginT := t })
  { s with ctl := { s.ctl with commits := l } }

/-- A Kallek reply (R332). -/
def kReply (s : State) (h : KHdr) (op status : Nat) (body : Bytes) : State := emit s (.kallek h op status body)

/-- The signatures still under verification of a joint that closes are answered (R332, R338). -/
def answerSigns (s : State) (j : Joint) : State := each j.verifying s (fun s v => kReply s v.2.2 0x14 0x0902 [])

/-- A joint's staging store freed: it ends in a final state, and no commit of it waits (R340). -/
def closeJoint (s : State) (slot st final : Nat) : State :=
  modJoint { s with ctl := { s.ctl with commits := s.ctl.commits.filter (· != slot) } } slot (fun j =>
    { j with st := st, final := final, recs := [], reads := [], bytes := 0, sigs := 0, verifying := [], image := none
             commit := none, prep := .none, chalNonce := [] })

/-- The event record of a commit (R340, R436), and its counters. -/
def commitRecord (s : State) (slot status epoch : Nat) : State :=
  let j := getJoint s slot
  let s := bump s (odKey 0xE000 (if status = 0 then 7 else 8))
  record s 0x4101 (src 8 slot) (Bytes.ofNatLE 2 (jointIdOf slot j) ++ Bytes.ofNatLE 8 j.serial ++ Bytes.ofNatLE 2 j.opener
    ++ Bytes.ofNatLE 2 j.recs.length ++ Bytes.ofNatLE 2 status ++ Bytes.ofNatLE 8 epoch)

/-! ## The cut (R341) -/

/-- Every island but the backup domain has taken the epoch in force. -/
def islandsTaken (s : State) : Bool := (upTo 33).all (fun k => k == 4 || mget 0 s.ctl.islandEpoch k == s.ctl.epoch)

/-- The epoch register advances by one; control and hub change with it, the other islands follow; ConfigEpoch is written
(R341, R343). -/
def advanceEpoch (s : State) : State :=
  let e := s.ctl.epoch + 1
  let ie := mput (mput s.ctl.islandEpoch 0 e) 2 e
  setDevCounter { s with ctl := { s.ctl with epoch := e, prevCfg := s.ctl.cfg, islandEpoch := ie, cutT := s.now
                                            , backupPending := true } } 1 e

/-- No joint is cut while the custody controller is being replaced or after a CLEAR-ROOT (R340 step 1, R345). -/
def cutForbidden (s : State) : Bool := s.fw.replacing == some 1 || s.alarm.rootCleared

end Sys2Proof.Machine
end

