-- ==== Sys2Proof/Machine/LineOps.lean ====
section
/-! DEFINITION. The line-form operations, run by a lane or by a cipher engine with the same results (R81 to R86, R114, R160 to
R176). -/

namespace Sys2Proof.Machine

open Sys2Proof

abbrev Result := Host.Outcome State Fault Refusal

/-! ## Roles (R82, R160) -/

/-- Key types that a PIN role accepts for a format code: any listed type where the code is none of R78's. -/
def pinTypes (fmt : Nat) : List Nat :=
  if fmt = 0 ∨ fmt = 1 ∨ fmt = 3 then [1, 2] else if fmt = 4 then [3, 4, 5] else [1, 2, 3, 4, 5]

/-- Role of key_a for an engine class. -/
def lineRoleA (l : Line) (eng : Nat) : Role :=
  match l.op with
  | 0x10 => { engine := eng, types := pinTypes l.fmtIn, usage := [4] }
  | 0x11 => { engine := eng, types := pinTypes l.fmtIn, usage := [4] }
  | 0x20 => { engine := eng, types := [1], usage := [7] }
  | 0x21 => { engine := eng, types := [1], usage := [7] }
  | 0x30 => { engine := eng, types := [1], usage := [2] }
  | 0x31 => { engine := eng, types := [1], usage := [3] }
  | 0x32 => { engine := eng, types := [3, 4, 5], usage := [2] }
  | _ => { engine := eng, types := [3, 4, 5], usage := [3] }

/-- Role of key_b or the route's zone key; `fmt` is the format that selects its type. -/
def lineRoleB (l : Line) (fmt eng : Nat) : Role :=
  { engine := eng, types := pinTypes fmt, usage := [if l.op = 0x10 then 5 else 6] }

def lineHasB (l : Line) : Bool := l.op == 0x10 || l.op == 0x11

/-! ## Key and route work common to lanes and rings -/

/-- What the key and route work of a line-form operation gives. -/
structure LineKeys where
  status : Nat := 0
  route : Option (Option Nat) := none
  keyA : Option Key := none
  keyB : Option Key := none
  waits : List Nat := []
  deriving DecidableEq, Repr

/-- key_a with its claim, the route, then key_b or the route's zone key with its claim (checks 10 to 12 of R85, R122). One key
in two roles claims once (R145). `route` is the result of the operation's route lookup, where it made one: it stays, whatever the
key work finds (R79, R169). -/
def lineKeys (s : State) (l : Line) (sink tenant eng : Nat) (route : Option (Option Nat)) (foundA : Option (Key × Nat × Place))
    (findB : Nat → Option (Key × Nat × Place)) : LineKeys × State :=
  let (fa, s, wa) := if lineUsesA l then fetchKey s sink tenant (lineRoleA l eng) foundA noNonce always
    else (.got {} 0 0, s, [])
  match fa with
  | .refused st => ({ status := st, route := route }, s)
  | .got ka _ _ =>
    if route = some none then ({ status := 0x0601, route := route, waits := wa }, s)
    else if lineHasB l = false then ({ route := route, keyA := some ka, waits := wa }, s)
    else
      let fmt := (outFormat l (route.join)).getD 0
      let foundB := findB (if l.routed then routeZone ((route.join).getD 0) else l.keyB)
      let same := (foundB.map (fun x => x.2.2)) == (foundA.map (fun x => x.2.2))
      let (fb, s, wb) := fetchKey s sink tenant (lineRoleB l fmt eng) foundB noNonce (fun _ => !same)
      match fb with
      | .refused st => ({ status := st, route := route, waits := wa }, s)
      | .got kb _ _ => ({ route := route, keyA := some ka, keyB := some kb, waits := wa ++ wb }, s)

/-! ## Verdict of a line (R166 to R176) -/

/-- What a line comes to: status, output, and whether its full round work ran (R172). -/
structure LineEnd where
  status : Nat
  out : Bytes := []
  full : Bool := true
  deriving DecidableEq, Repr

/-- Step a of R171. -/
def lineStepA (l : Line) (route : Option Nat) (matrix : Nat) : Bool :=
  match l.op with
  | 0x10 =>
    match outFormat l route with
    | some f => Payment.fmtKnown l.fmtIn && Payment.fmtKnown f && bitOf matrix (4 * Payment.fmtIndex l.fmtIn + Payment.fmtIndex f)
        && Payment.panSuits f l.panLen
    | none => false
  | 0x11 => Payment.fmtKnown l.fmtIn && Payment.fmtKnown l.fmtOut
  | _ => true

/-- Bytes that the operation draws for its fill: 8 into formats 1, 3 and 4 (R165). -/
def lineDraws (l : Line) (route : Option Nat) (matrix : Nat) : Bool :=
  l.op == 0x10 && lineStepA l route matrix && (outFormat l route).getD 0 != 0

/-- PIN translation, step c (R166, R167). -/
def xlate (l : Line) (fmtOut : Nat) (ka kb : Bytes) (fmt0Max : Nat) (drawn : Bytes) : LineEnd :=
  match Payment.pinOf l.fmtIn (Payment.decipherPin l.fmtIn ka l.digits (l.data.take (Payment.blockLen l.fmtIn))) with
  | none => { status := 0x0407 }
  | some pin =>
    if fmtOut = 0 ∧ fmt0Max < pin.length then { status := 0x0407 }
    else { status := 0, out := Payment.encipherPin fmtOut kb l.digits (Payment.pinField fmtOut pin drawn) }

/-- PIN verification (R170). -/
def pinCompare (l : Line) (ka kb : Bytes) : LineEnd :=
  let a := Payment.pinOf l.fmtIn (Payment.decipherPin l.fmtIn ka l.digits (l.data.take (Payment.blockLen l.fmtIn)))
  let b := Payment.pinOf l.fmtOut (Payment.decipherPin l.fmtOut kb l.digits
    ((l.data.drop 16).take (Payment.blockLen l.fmtOut)))
  match a, b with
  | some p, some q => { status := if p = q then 0 else 0x0404 }
  | _, _ => { status := 0x0407 }

/-- A MAC compared with the one supplied. -/
def macVerdict (mac supplied : Bytes) : LineEnd := { status := if mac = supplied then 0 else 0x0406 }

/-- The verdict of a line whose keys and route have passed. -/
def lineVerdict (l : Line) (ka kb : Bytes) (route : Option Nat) (matrix fmt0Max : Nat) (drawn : Option Bytes) : LineEnd :=
  let msg := l.data.take l.dlen
  let given := (l.data.drop 16).take l.param
  if lineStepA l route matrix = false then { status := 0x0407, full := false }
  else if lineDraws l route matrix ∧ drawn = none then { status := 0x0501, full := false }
  else match l.op with
    | 0x10 => xlate l ((outFormat l route).getD 0) ka kb fmt0Max (drawn.getD [])
    | 0x11 => pinCompare l ka kb
    | 0x20 =>
      { status := 0, out := Bytes.ofNibbles (Payment.dvv ka l.digits ((Bytes.nibbles l.data).take 7) ++ [0]) }
    | 0x21 =>
      let nib := Bytes.nibbles l.data
      { status := if Payment.dvv ka l.digits (nib.take 7) = (nib.drop 8).take 3 then 0 else 0x0404 }
    | 0x30 => { status := 0, out := (Modes.mac3 ka 1 msg).take l.param }
    | 0x31 => macVerdict ((Modes.mac3 ka 1 msg).take l.param) given
    | 0x32 => { status := 0, out := (Modes.cmac (Modes.aes ka) msg).take l.param }
    | 0x33 => macVerdict ((Modes.cmac (Modes.aes ka) msg).take l.param) given
    | _ => { status := 0 }

def keyBytes (k : Option Key) : Bytes := (k.map (·.material)).getD []

/-! ## On a ring -/

/-- FABRIC on a word of the routing memories, which the custody controller wrote (R26, R28). -/
def raiseRoute (s : State) (sink key : Nat) : State := raiseFabric s islControl sink (key / 2 ^ 40)

/-- A line-form operation of a ring runs in its cipher engine (R114, R171 to R173); the engine checks the route word that it takes. -/
def ringLine (opcode i c : Nat) (s : State) : State :=
  match startable s i c (fun d => dOp d == opcode) with
  | none => s
  | some o =>
    if o.routeBad.isSome then fixOutcome (raiseRoute s (5 + o.bay) (o.routeBad.getD 0)) i o (failNow s 0x0801) else
    let l := lineOfDescriptor o.snap
    let (lk, s) := lineKeys s l (5 + o.bay) o.att.tenant engCipher o.route (keyAOf s o)
      (fun h => if l.routed then keyByHandle s h o.att.epoch else keyBOf s o)
    if lk.status ≠ 0 then fixOutcome s i o (failNow s lk.status)
    else
      let route := o.route.join
      let (drawn, s) := if lineDraws l route o.att.matrix then draw s o.bay 8 else (none, s)
      let v := lineVerdict l (keyBytes lk.keyA) (keyBytes lk.keyB) route o.att.matrix o.att.fmt0Max drawn
      fixOutcome s i (withWaits o lk.waits)
        { status := v.status, res := v.out, outLen := v.out.length
          due := if v.full then s.now + segTime o.plan else s.now
          roundT := if v.full then some s.now else none }

/-- NOP and ROUTE_LOOKUP are decided by the hub at admission and completed at once, with bay 0xFF (R113, R184). -/
def ringHub (opcode i c : Nat) (s : State) : State :=
  match findOp (getInst s i) c with
  | some o =>
    if o.stage = .atHub ∧ dOp o.snap = opcode then
      match o.routeBad, o.route with
      | some key, _ => endRing (raiseRoute s islHub key) i o 0x0801 0 [] []
      | none, some none => endRing s i o 0x0601 0 [] []
      | none, _ => endRing s i o 0 0 [] []
    else s
  | none => s

/-! ## In a lane -/

/-- The round work of a line in its lane (R87 stages S5 to S8), in the lane's order (R88); the key and route work came with its
lookup. -/
def inlineLine (opcode i n : Nat) (s : State) : State :=
  match inlineAt s i n .looked (fun b => Bytes.fieldLE b 0 1 == opcode) with
  | none => s
  | some o =>
    if laneFirst s o = false then s else
    let l := lineOfRequest o.line
    let route := if l.routed ∨ l.op = 0x02 then some o.look.route else none
    let v := lineVerdict l (keyBytes o.look.keyA) (keyBytes o.look.keyB) route o.att.matrix o.att.fmt0Max o.look.drawn
    fixLine s i n o { status := v.status, out := v.out, outLen := v.out.length, due := s.now
                      roundT := if v.full then some s.now else none }

/-- A line-form operation on the path that names it. -/
def lineOp (opcode t : Nat) (op : OpRef) (s : State) : State :=
  match op with
  | .ring i c => ringLine opcode i.toNat c.toNat (at_ s t)
  | .inline i n => inlineLine opcode i.toNat n.toNat (at_ s t)

/-- A hub operation on a ring, or its line in a lane. -/
def hubOp (opcode t : Nat) (op : OpRef) (s : State) : State :=
  match op with
  | .ring i c => ringHub opcode i.toNat c.toNat (at_ s t)
  | .inline i n => inlineLine opcode i.toNat n.toNat (at_ s t)

/-! ## Meanings -/

/-- NOP (R113, R81). -/
def execNop (t : Nat) (op : OpRef) (s : State) : Result := .next (hubOp 0x01 t op s)

/-- ROUTE_LOOKUP (R189, R184). -/
def execRouteLookup (t : Nat) (op : OpRef) (s : State) : Result := .next (hubOp 0x02 t op s)

/-- PIN_XLATE (R166 to R169, R171). -/
def execPinXlate (t : Nat) (op : OpRef) (s : State) : Result := .next (lineOp 0x10 t op s)

/-- PIN_VERIFY (R170, R171). -/
def execPinVerify (t : Nat) (op : OpRef) (s : State) : Result := .next (lineOp 0x11 t op s)

/-- DVV_GEN (R174, R175). -/
def execDvvGen (t : Nat) (op : OpRef) (s : State) : Result := .next (lineOp 0x20 t op s)

/-- DVV_VERIFY (R174, R175). -/
def execDvvVerify (t : Nat) (op : OpRef) (s : State) : Result := .next (lineOp 0x21 t op s)

/-- MAC_RETAIL_GEN (R176). -/
def execMacRetailGen (t : Nat) (op : OpRef) (s : State) : Result := .next (lineOp 0x30 t op s)

/-- MAC_RETAIL_VERIFY (R176). -/
def execMacRetailVerify (t : Nat) (op : OpRef) (s : State) : Result := .next (lineOp 0x31 t op s)

/-- CMAC_GEN (R176). -/
def execCmacGen (t : Nat) (op : OpRef) (s : State) : Result := .next (lineOp 0x32 t op s)

/-- CMAC_VERIFY (R176). -/
def execCmacVerify (t : Nat) (op : OpRef) (s : State) : Result := .next (lineOp 0x33 t op s)

end Sys2Proof.Machine
end

