-- ==== Sys2Proof/Machine/CipherOps.lean ====
section
/-! DEFINITION. The buffer-form symmetric operations and the ring-only payment functions: CIPHER in its seven modes, MACs,
RANDOM, DUKPT_DECRYPT, EMV_ARQC, UNWRAP (R116, R134 to R149, R177 to R184, R211, R285). -/

namespace Sys2Proof.Machine

open Sys2Proof

/-! ## CIPHER -/

/-- IV material of a device-nonce encryption from prefix and counter value, and what is returned at res[16:31] (R142). -/
def deviceNonce (k : Key) (mode pfx v : Nat) : Bytes × Bytes :=
  let p := Bytes.ofNatBE 4 pfx
  if mode = 6 then
    let n := p ++ Bytes.ofNatBE 8 v
    (n, Bytes.fit 16 n)
  else
    let blk := if isAes k.type then p ++ Bytes.ofNatBE 8 v ++ Bytes.zeros 4 else p ++ Bytes.ofNatBE 4 v
    let iv := if mode = 5 then blk else (cipherOf k).enc blk
    (iv, Bytes.fit 16 iv)

/-- The output of a mode on its data (R135, R136, R137). -/
def cipherData (c : Modes.Cipher) (mode : Nat) (dec : Bool) (iv m : Bytes) : Bytes :=
  match mode with
  | 0 => Modes.ecb (if dec then c.dec else c.enc) c.n m
  | 1 => if dec then Modes.cbcDecrypt c iv m else Modes.cbcEncrypt c iv m
  | 2 => Modes.cfb c 1 dec iv m
  | 3 => Modes.cfb c c.n dec iv m
  | 4 => Modes.ofb c iv m
  | 5 => Modes.ctr c iv m
  | _ => Modes.gcmCrypt c iv m

/-- Role of a CIPHER key: the types of the mode and the usage of the direction; a device-nonce key only in its own mode
(R134, R135, R141). -/
def cipherRole (mode : Nat) (dec : Bool) : Role :=
  { engine := engCipher, types := if mode = 6 then [3, 4, 5] else [1, 2, 3, 4, 5], usage := [bit dec], mode := some mode }

def isNonceKey (k : Key) : Bool := match k.guard with
  | some g => g.nonce
  | none => false

/-- Whether a CIPHER use claims: usage-limit keys always, device-nonce keys for encryption only (R141, R145). -/
def cipherClaims (dec : Bool) (k : Key) : Bool := !(dec && isNonceKey k)

/-- What a CIPHER operation comes to at `due`, of the input that is at hand: the segments of a split one run on as many engines and
their result is that of the unsplit operation (R116, R135 to R139, R142). GMAC has no output region: it reports what res returns (R111,
R137). The plaintext of a GCM decryption whose tag does not match goes to a host region all the same (R127). -/
def cipherOutcome (s : State) (i : Nat) (o : RingOp) (k : Key) (v due : Nat) : Outcome :=
  let d := o.snap
  let mode := cipherMode d
  let dec := cipherDecrypts d
  let cph := cipherOf k
  let issued := isNonceKey k && !dec
  let (iv, shown) := if issued then deviceNonce k mode o.att.noncePrefix v else ((dPrm d).take (ivLen mode cph.n), [])
  let input := inputOf s i o
  let aad := input.take (aadLen d)
  let m := (input.drop (aadLen d)).take (cipherLen d)
  let out := cipherData cph mode dec iv m
  let tag := if mode = 6 then Modes.gcmTag cph iv aad (if dec then m else out) else []
  let ok := !(mode == 6 && dec) || tag == input.drop (dInLen d - 16)
  let res := if dec then [] else if mode = 6 ∨ issued then Bytes.fit 16 tag ++ Bytes.fit 16 shown else []
  { status := if ok then 0 else 0x0406, out := out, res := res, outLen := if out = [] then res.length else out.length
    due := due, roundT := some o.t0 }

/-- The key work of a buffer operation is done: with all its input at hand its verdict is fixed, else its segments work with what comes
(R57, R126). -/
def beginJob (s : State) (i : Nat) (o : RingOp) (k : Key) (v : Nat) (end_ : RingOp → Outcome) : State :=
  if inputReady o then fixOutcome s i o (end_ { o with t0 := s.now }) else beginOp s i { o with job := some { key := k, v := v } } none

/-- A CIPHER operation runs (R116, R122). -/
def ringCipher (mode i c : Nat) (s : State) : State :=
  match startable s i c (fun d => dOp d == 0x40 && cipherMode d == mode) with
  | none => s
  | some o =>
    let d := o.snap
    let dec := cipherDecrypts d
    let supplied := fun (k : Key) => isNonceKey k && !dec &&
      !Bytes.allZero ((dPrm d).take (ivLen mode (if isTdes k.type then 8 else 16)))
    let (f, s, w) := fetchKey s (5 + o.bay) o.att.tenant (cipherRole mode dec) (keyAOf s o) supplied (cipherClaims dec)
    match f with
    | .refused st => fixOutcome s i o (failNow s st)
    | .got k _ v =>
      beginJob s i (withWaits o w) k v (fun o => cipherOutcome s i o k v (s.now + segTime o.plan))

def cipherOp (mode t : Nat) (op : OpRef) (s : State) : State :=
  match op with
  | .ring i c => ringCipher mode i.toNat c.toNat (at_ s t)
  | .inline _ _ => at_ s t

/-! ## MACs of the buffer form -/

/-- Role of a MAC key: CMAC takes any symmetric key, algorithm 1 TDES, algorithm 3 double-length TDES (R134, R135, R138). -/
def macRole (alg : Nat) (verify : Bool) : Role :=
  { engine := engCipher, types := if alg = 0 then [1, 2, 3, 4, 5] else if alg = 1 then [1, 2] else [1]
    usage := [if verify then 3 else 2] }

def macOf (alg pad : Nat) (k : Key) (m : Bytes) : Bytes :=
  if alg = 0 then Modes.cmac (cipherOf k) m else if alg = 1 then Modes.mac1 k.material pad m else Modes.mac3 k.material pad m

/-- What a MAC of the buffer form comes to at `due` (R116, R138). -/
def macOutcome (s : State) (i : Nat) (o : RingOp) (k : Key) (due : Nat) : Outcome :=
  let d := o.snap
  let verify := dOp d == 0x39
  let mac := (macOf (dVar d % 4) (dVar d / 4) k (inputOf s i o)).take (dAux d)
  let ok := !verify || mac == (dPrm d).take (dAux d)
  { status := if ok then 0 else 0x0406, res := if verify then [] else mac, outLen := if verify then 0 else mac.length
    due := due, roundT := some o.t0 }

def ringMac (verify : Bool) (i c : Nat) (s : State) : State :=
  match startable s i c (fun d => dOp d == (if verify then 0x39 else 0x38)) with
  | none => s
  | some o =>
    let d := o.snap
    let alg := dVar d % 4
    let (f, s, w) := fetchKey s (5 + o.bay) o.att.tenant (macRole alg verify) (keyAOf s o) noNonce always
    match f with
    | .refused st => fixOutcome s i o (failNow s st)
    | .got k _ v => beginJob s i (withWaits o w) k v (fun o => macOutcome s i o k (s.now + segTime o.plan))

/-! ## Host input that comes while the segments run (R57, R126) -/

/-- What the operation comes to with the key work of its job. -/
def jobOutcome (s : State) (i : Nat) (o : RingOp) (j : Job) (due : Nat) : Outcome :=
  if dOp o.snap = 0x40 then cipherOutcome s i o j.key j.v due else macOutcome s i o j.key due

/-- All the input has come: the segments end at their time, or at once where only their data held them. DESIGN CHOICE (log entry 236): a
suspended operation takes its engines again when they are free and works for the whole of its segments' time, in background time; which
needs another command where they are not free. -/
def inputDone (s : State) (i : Nat) (o : RingOp) (j : Job) : State :=
  if o.suspended then
    if seatsEnough s o then
      let o := { o with engines := seatsOf s o }
      modInst (seatAll s o o.engines) i
        (fun x => setOp x { o with job := none, outcome := some (jobOutcome s i o j (s.now + segTime o.plan)) })
    else s
  else
    modInst s i (fun x => setOp x { o with job := none, outcome := some (jobOutcome s i o j (max s.now (o.t0 + segTime o.plan))) })

/-- Whole blocks of the output that the operation has produced: all of it once its segments have ended, before that a part in
proportion to the time that has passed and of the input that has come. DESIGN CHOICE (log entry 237): the manual says that output is
written as it is produced, and not at what pace. -/
def produced (s : State) (i : Nat) (o : RingOp) : Bytes :=
  match o.outcome, o.job with
  | some oc, _ =>
    let n := oc.out.length
    if oc.due ≤ s.now then oc.out else oc.out.take (16 * ((n - ceilDiv (n * (oc.due - s.now)) (segTime o.plan)) / 16))
  | none, some j =>
    let n := cipherLen o.snap
    let out := (jobOutcome s i o j s.now).out
    out.take (16 * (min ((o.input.length - aadLen o.snap) / 16) (n * (s.now - o.t0) / segTime o.plan / 16)))
  | none, none => []

def macOp (verify : Bool) (t : Nat) (op : OpRef) (s : State) : State :=
  match op with
  | .ring i c => ringMac verify i.toNat c.toNat (at_ s t)
  | .inline _ _ => at_ s t

/-! ## RANDOM -/

/-- RANDOM draws at the start of its segment (R248, R249). -/
def ringRandom (i c : Nat) (s : State) : State :=
  match startable s i c (fun d => dOp d == 0x41) with
  | none => s
  | some o =>
    let (r, s) := draw s o.bay (dInLen o.snap)
    match r with
    | none => fixOutcome s i o (failNow s 0x0501)
    | some out =>
      fixOutcome s i o { status := 0, out := out, outLen := out.length, due := s.now + segTime o.plan, roundT := some s.now }

/-! ## DUKPT_DECRYPT -/

def dukptRole (aes pin : Bool) : Role :=
  { engine := engKdf, types := if aes then [3, 4, 5] else [1], usage := if pin then [8, 9] else [8] }

/-- Status of the key checks of a DUKPT decryption in the order of R122: a terminal outside the tenant's partition is a fault of
ownership (R179, R184). -/
def dukptStatus (s : State) (o : RingOp) (r : Role) (term : Nat) (found : Option (Key × Nat × Place)) : Nat :=
  let st := checkKey s o.att.tenant r found
  if (st = 0 ∨ (0x0303 ≤ st ∧ st ≤ 0x0306)) ∧ (term < o.att.termBase ∨ o.att.termBase + o.att.termCount ≤ term) then 0x0302 else st

/-- The verdict of a DUKPT decryption is due at the end of its fixed time, whatever it is (R181). DESIGN CHOICE (log entry 193): an
entry rewritten while DukptCounterCheck is 0 takes the highest counter 0, since counters are then not recorded (R180); for a BDK that
a token reference names, the handle and generation kept and compared are the cache index and the generation of its way. -/
def ringDukpt (i c : Nat) (s : State) : State :=
  match startable s i c (fun d => dOp d == 0x50) with
  | none => s
  | some o =>
    let d := o.snap
    let aes := bitOf (dVar d) 0
    let data := bitOf (dVar d) 2
    let term := Bytes.fieldLE d 0x10 4
    let ksn := Bytes.slice d 0x14 (if aes then 12 else 10)
    let dlen := Bytes.fieldLE d 0x20 1
    let found := keyAOf s o
    let st := dukptStatus s o (dukptRole aes (!data)) term found
    if st ≠ 0 then fixOutcome (refusedKey s (5 + o.bay) st found) i o (failNow s st)
    else if (derivEntry s term o.att.tenant o.att.derivMaxAge).isSome ∧ wordsFail s memDeriv (derivWord term) 8 then
      fixOutcome (raiseFabric s islHub (5 + o.bay) memDeriv) i o (failNow s 0x0801)
    else
      let (f, s, w) := fetchKey s (5 + o.bay) o.att.tenant (dukptRole aes (!data)) found noNonce always
      match f with
      | .refused st => fixOutcome s i o (failNow s st)
      | .got k gen _ =>
        let o := withWaits o w
        let h := (found.map (fun x => placeHandle s x.2.2)).getD 0
        let ikid := (Payment.dukptInitialId aes ksn).take 8
        let ctr := Payment.dukptCounter aes ksn
        let entry := (derivEntry s term o.att.tenant o.att.derivMaxAge).filter
          (fun e => e.aes == aes && e.bdk == h && e.bdkGen == gen && e.ikid == ikid)
        let due := s.now + segTime o.plan
        let replayed := match entry with
          | some e => o.att.dukptCheck && decide (ctr ≤ e.high)
          | none => false
        if replayed then fixOutcome s i o { status := 0x0404, due := due, roundT := some s.now }
        else
          let s := match entry with
            | some e =>
              if o.att.dukptCheck then { s with keys := { s.keys with deriv := mput s.keys.deriv term { e with high := ctr } } }
              else s
            | none => s
          let ikey := match entry with
            | some e => e.ikey
            | none => Payment.dukptInitialKey aes k.material ksn
          let input := if dukptStaged d then inputOf s i o else Bytes.slice d 0x28 dlen
          let out := Payment.dukptDecipher aes data ikey ksn input
          let rewrite := match entry with
            | some _ => none
            | none => some (term, ({ aes := aes, tenant := o.att.tenant, bdk := h, bdkGen := gen
                                     high := if o.att.dukptCheck then ctr else 0, ikid := ikid, written := 0, ikey := ikey } : Deriv))
          fixOutcome s i o
            { status := 0, out := out, res := if dukptStaged d then [] else out, outLen := dlen, due := due
              roundT := some s.now, deriv := rewrite }

/-! ## EMV_ARQC -/

def emvRole : Role := { engine := engKdf, types := [1], usage := [10] }

/-- EMV_ARQC is due at the end of its fixed time once the key checks have passed (R182, R183). -/
def ringEmv (i c : Nat) (s : State) : State :=
  match startable s i c (fun d => dOp d == 0x52) with
  | none => s
  | some o =>
    let d := o.snap
    let (f, s, w) := fetchKey s (5 + o.bay) o.att.tenant emvRole (keyAOf s o) noNonce always
    match f with
    | .refused st => fixOutcome s i o (failNow s st)
    | .got k _ _ =>
      let digits := Payment.panDigits (Bytes.slice d 0x11 10) (Bytes.fieldLE d 0x10 1)
      let mk := Payment.emvMasterKey k.material digits (Bytes.at' d 0x1B)
      let sk := Payment.emvSessionKey mk (dVar d / 4 % 4 == 0) (Bytes.slice d 0x1C 2)
      let arqc := Bytes.slice d 0x20 8
      let ok := Payment.emvMac sk (inputOf s i o) == arqc
      let res := if ok then Payment.arpc (dVar d % 4) sk arqc (Bytes.slice d 0x1E 2) (Bytes.slice d 0x28 4) else []
      fixOutcome s i (withWaits o w)
        { status := if ok then 0 else 0x0404, res := res, outLen := res.length, due := s.now + segTime o.plan
          roundT := some s.now }

def ringOnly (f : Nat → Nat → State → State) (t : Nat) (op : OpRef) (s : State) : State :=
  match op with
  | .ring i c => f i.toNat c.toNat (at_ s t)
  | .inline _ _ => at_ s t

/-! ## Meanings -/

/-- MAC_GEN (R116, R138). -/
def execMacGen (t : Nat) (op : OpRef) (s : State) : Result := .next (macOp false t op s)

/-- MAC_VERIFY (R116, R138). -/
def execMacVerify (t : Nat) (op : OpRef) (s : State) : Result := .next (macOp true t op s)

/-- CIPHER, ECB (R135). -/
def execCipherEcb (t : Nat) (op : OpRef) (s : State) : Result := .next (cipherOp 0 t op s)

/-- CIPHER, CBC (R135). -/
def execCipherCbc (t : Nat) (op : OpRef) (s : State) : Result := .next (cipherOp 1 t op s)

/-- CIPHER, CFB-8 (R135). -/
def execCipherCfb8 (t : Nat) (op : OpRef) (s : State) : Result := .next (cipherOp 2 t op s)

/-- CIPHER, CFB-128 (R135, R136). -/
def execCipherCfb128 (t : Nat) (op : OpRef) (s : State) : Result := .next (cipherOp 3 t op s)

/-- CIPHER, OFB (R135, R136). -/
def execCipherOfb (t : Nat) (op : OpRef) (s : State) : Result := .next (cipherOp 4 t op s)

/-- CIPHER, CTR (R135, R136). -/
def execCipherCtr (t : Nat) (op : OpRef) (s : State) : Result := .next (cipherOp 5 t op s)

/-- CIPHER, GCM (R137). -/
def execCipherGcm (t : Nat) (op : OpRef) (s : State) : Result := .next (cipherOp 6 t op s)

/-- RANDOM (R116, R249). -/
def execRandom (t : Nat) (op : OpRef) (s : State) : Result := .next (ringOnly ringRandom t op s)

/-- DUKPT_DECRYPT (R177 to R181). -/
def execDukptDecrypt (t : Nat) (op : OpRef) (s : State) : Result := .next (ringOnly ringDukpt t op s)

/-- EMV_ARQC (R182, R183). -/
def execEmvArqc (t : Nat) (op : OpRef) (s : State) : Result := .next (ringOnly ringEmv t op s)

end Sys2Proof.Machine
end

