-- ==== Sys2Proof/Machine/PublicKey.lean ====
section
/-! DEFINITION. The public-key operations of the big-number cores, their operand memories and their time points (R215 to
R236). -/

namespace Sys2Proof.Machine

open Sys2Proof

/-! ## Segments on a BNC (R228, R233, R234) -/

/-- A segment of a tenant's operation begins on a BNC: a change of owner wipes first (R234). Its work area holds what it leaves there,
its I/O area its inputs; its key area holds private material where the segment uses some (R216). -/
def enterSegment (s : State) (b k tenant op : Nat) (secret : Bool) : State :=
  let s := if (mget {} (getBay s b).mem k).owner = .tenant tenant then s else wipeBnc s b k (.tenant tenant)
  let (id, s) := freshArea s
  writeEngine (modMem s b k (fun m => { m with key := if secret then .ofOp op id else .zero, work := .ofOp op id, io := .ofOp op id })) b k

/-- Words of the key area and of the I/O area of a BNC (R216). -/
def keyArea : Nat := 1024
def ioArea : Nat := 512

/-- The last step of a segment writes its outputs to the I/O area (R216). -/
def leaveOutput (s : State) (b k op : Nat) : State :=
  let (id, s) := freshArea s
  writeWords (modMem s b k (fun m => { m with io := .ofOp op id })) (engineWords b k).1 ((engineWords b k).2.1 + 3584) ioArea

/-- A segment ends: the key area is zeroed (R234). -/
def leaveSegment (s : State) (b k : Nat) : State :=
  writeWords (modMem s b k (fun m => { m with key := .zero })) (engineWords b k).1 (engineWords b k).2.1 keyArea

/-! ## Verify-before-release (R227, R228) -/

/-- Operations whose result a second BNC checks. -/
def checkedOp (op : Nat) : Bool := [0x60, 0x62, 0x66, 0x6A, 0x70].contains op

/-- Length of the checking segment, ns (R55, R218). -/
def checkNs (d : Bytes) : Nat :=
  let big := bitOf (dVar d) 0
  match dOp d with
  | 0x60 => if big then 86000 else 34000
  | 0x62 => 28000
  | 0x66 => if big then 60000 else 16000
  | 0x6A => 60000
  | _ => 86000

/-- A value was produced: its check is made before anything is released, and a check that fails ends with 0x0405. -/
def checkWanted (o : RingOp) (oc : Outcome) : Bool :=
  checkedOp (dOp o.snap) && (oc.status == 0 || oc.status == 0x0405)

/-- The producing segment has ended (R228): key areas are zeroed, and the check begins on the BNC of the other RSA half, or on the
lowest-numbered free BNC of the bay. Where none is free the operation waits, and its check then takes its whole time. -/
def beginCheck (s : State) (i : Nat) (o : RingOp) (oc : Outcome) : State × RingOp × Outcome :=
  let s := each o.engines s (fun s k => leaveSegment (leaveOutput s o.bay k (dOp o.snap)) o.bay k)
  let second := match dOp o.snap, o.engines with
    | 0x66, _ :: k :: _ => some k
    | _, _ => freeEngine s o.bay o.engines
  match second with
  | none =>
    let o := { o with checkWaited := true }
    (modInst s i (fun x => setOp x o), o, oc)
  | some k =>
    let oc := if o.checkWaited then { oc with due := max oc.due (s.now + checkNs o.snap) } else oc
    let o := { o with engines := o.engines.filter (· != k) ++ [k], checking := true, outcome := some oc }
    (modInst (enterSegment s o.bay k o.att.tenant (dOp o.snap) false) i (fun x => setOp x o), o, oc)

/-! ## What a public-key operation comes to -/

/-- Status, microseconds from t0, output region bytes, result bytes, cause of a failed self-check. -/
structure PkEnd where
  status : Nat
  us : Nat
  out : Bytes := []
  res : Bytes := []
  cause : Nat := 0
  deriving DecidableEq, Repr

/-- A produced value that its check refused (R229, R230). -/
def selfFail (cause us : Nat) : PkEnd := { status := 0x0405, us := us, cause := cause }

def p384Of (d : Bytes) : Bool := bitOf (dVar d) 0
def curveOf (d : Bytes) : Curve.Par := if p384Of d then Curve.p384 else Curve.p256

/-! ## ECDSA and ECDH (R222, R225, R227) -/

def ecdsaSignEnd (d : Bytes) (k : Key) (digest drawn : Bytes) : PkEnd :=
  let c := curveOf d
  let us := if p384Of d then 150 else 58
  let x := Bytes.toNatBE (k.material.take c.len)
  match (if k.rfc6979 then Curve.rfc6979Nonce c x digest else some (Curve.drawnNonce c drawn)) with
  | none => selfFail 2 us
  | some n =>
    let (r, v) := Curve.ecdsaSign c x n digest
    if r = 0 ∨ v = 0 then selfFail 3 us
    else
      let ok := match Curve.checkPoint c (Bytes.slice k.material c.len (2 * c.len)) with
        | .good px py => Curve.ecdsaVerify c (some (px, py)) digest r v
        | _ => false
      if ok then { status := 0, us := us, out := Bytes.ofNatBE c.len r ++ Bytes.ofNatBE c.len v } else selfFail 1 us

/-- ECDSA verification of digest ‖ r ‖ s under x ‖ y, with the refusals of R225 in row order. -/
def ecdsaVerifyEnd (d pub input : Bytes) : PkEnd :=
  let c := curveOf d
  let early := if p384Of d then 3 else 2
  let late := if p384Of d then 86 else 34
  let r := Bytes.toNatBE (Bytes.slice input c.len c.len)
  let v := Bytes.toNatBE (Bytes.slice input (2 * c.len) c.len)
  match Curve.checkPoint c pub with
  | .range => { status := 0x0403, us := early }
  | .off => { status := 0x0401, us := early }
  | .good x y =>
    if r = 0 ∨ v = 0 then { status := 0x0402, us := early }
    else if c.n ≤ r ∨ c.n ≤ v then { status := 0x0403, us := early }
    else { status := if Curve.ecdsaVerify c (some (x, y)) (input.take c.len) r v then 0 else 0x0404, us := late }

def ecdhEnd (k : Key) (peer : Bytes) : PkEnd :=
  match Curve.checkPoint Curve.p256 peer with
  | .range => { status := 0x0403, us := 2 }
  | .off => { status := 0x0401, us := 2 }
  | .good x y =>
    match Curve.mul Curve.p256 (Bytes.toNatBE (k.material.take 32)) (some (x, y)) with
    | some (sx, sy) =>
      if Curve.onCurve Curve.p256 sx sy then { status := 0, us := 24, res := Bytes.ofNatBE 32 sx } else selfFail 4 24
    | none => selfFail 4 24

/-! ## Ed25519 (R224, R225) -/

def edSignEnd (k : Key) (m : Bytes) : PkEnd :=
  let pub := Bytes.slice k.material 32 32
  let sig := Curve.edSign (k.material.take 32) pub m
  let ok := match Curve.edDecode pub, Curve.edDecode sig with
    | some a, some r => Curve.edEquation a r pub sig m
    | _, _ => false
  if ok then { status := 0, us := 46, out := sig } else selfFail 1 46

def edVerifyEnd (pub sig m : Bytes) : PkEnd :=
  if Curve.edP ≤ Curve.edRawY pub ∨ Curve.edP ≤ Curve.edRawY sig then { status := 0x0403, us := 4 }
  else match Curve.edDecode pub, Curve.edDecode sig with
    | some a, some r =>
      if Curve.edSmall a ∨ Curve.edSmall r then { status := 0x0401, us := 4 }
      else if Curve.edL ≤ Bytes.toNatLE ((sig.drop 32).take 32) then { status := 0x0403, us := 4 }
      else { status := if Curve.edEquation a r pub sig m then 0 else 0x0404, us := 28 }
    | _, _ => { status := 0x0401, us := 4 }

/-! ## RSA (R223, R225) -/

def rsaUs (d : Bytes) : Nat := if p384Of d then 1280 else 176

def rsaPrivateEnd (d : Bytes) (k : Key) (input drawn : Bytes) : PkEnd :=
  let n := rsaLen d
  let field := fun (off len : Nat) => Bytes.toNatBE (Bytes.slice k.material off len)
  let h := n / 2
  let m := field 0 n
  let e := field n 4
  let x := Bytes.toNatBE input
  if x = 0 then { status := 0x0402, us := 1 }
  else if m ≤ x then { status := 0x0403, us := 1 }
  else
    let p := field (n + 4) h
    let q := field (n + 4 + h) h
    let y := if p = 0 ∨ q = 0 then 0
      else Curve.rsaCrt (8 * n) p q (field (n + 4 + 2 * h) h) (field (n + 4 + 3 * h) h) (field (n + 4 + 4 * h) h)
        (Bytes.toNatBE (drawn.take 8)) (Bytes.toNatBE (drawn.drop 8)) x
    if Curve.rsaPublic y e m = x then { status := 0, us := rsaUs d, out := Bytes.ofNatBE n y } else selfFail 1 (rsaUs d)

/-- y^e mod n; with PUB_IN the modulus and exponent are checked first. -/
def rsaPublicEnd (d pub input : Bytes) : PkEnd :=
  let n := rsaLen d
  let m := Bytes.toNatBE (pub.take n)
  let e := Bytes.toNatBE (Bytes.slice pub n 4)
  let x := Bytes.toNatBE (input.take n)
  if pubIn d && (!bitOf m (8 * n - 1) || m % 2 == 0) then { status := 0x0403, us := 1 }
  else if pubIn d && (e % 2 == 0 || decide (e < 3) || decide (2 ^ 17 ≤ e)) then { status := 0x0403, us := 1 }
  else if x = 0 then { status := 0x0402, us := 1 }
  else if m ≤ x then { status := 0x0403, us := 1 }
  else { status := 0, us := if p384Of d then 60 else 16, out := Bytes.ofNatBE n (Curve.rsaPublic x e m) }

/-! ## ML-KEM and ML-DSA (R224, R225) -/

def kemPar (d : Bytes) : Lattice.KemPar := if kemSet d then Lattice.kem1024 else Lattice.kem768
def dsaPar (d : Bytes) : Lattice.DsaPar := if kemSet d then Lattice.dsa87 else Lattice.dsa65

def kemEncapsEnd (d ek drawn : Bytes) : PkEnd :=
  if Lattice.kemEkOk (kemPar d) ek = false then { status := 0x0403, us := 2 }
  else
    let (secret, ct) := Lattice.kemEncaps (kemPar d) ek drawn
    { status := 0, us := if kemSet d then 28 else 20, out := ct, res := secret }

def kemDecapsEnd (d : Bytes) (k : Key) (ct : Bytes) : PkEnd :=
  { status := 0, us := if kemSet d then 36 else 26, res := Lattice.kemDecaps (kemPar d) k.material ct }

def dsaSigLen (d : Bytes) : Nat := if kemSet d then 4627 else 3309

def dsaVerifyEnd (d pub input : Bytes) : PkEnd :=
  { status := if Lattice.dsaVerify (dsaPar d) pub (input.take 64) (Bytes.slice input 64 (dsaSigLen d)) then 0 else 0x0404
    us := 60 }

/-! ## Roles and draws (R220, R221) -/

def pkRole (d : Bytes) : Role :=
  let big := bitOf (dVar d) 0
  match dOp d with
  | 0x60 => { engine := engBnc, types := [if big then 0x12 else 0x10], usage := [11] }
  | 0x61 => { engine := engBnc, types := if big then [0x12, 0x13] else [0x10, 0x11], usage := [12] }
  | 0x62 => { engine := engBnc, types := [0x14], usage := [11] }
  | 0x63 => { engine := engBnc, types := [0x14, 0x15], usage := [12] }
  | 0x64 => { engine := engBnc, types := [0x10], usage := [13] }
  | 0x66 => { engine := engBnc, types := [if big then 0x22 else 0x20], usage := [14] }
  | 0x67 => { engine := engBnc, types := if big then [0x22, 0x23] else [0x20, 0x21], usage := [15] }
  | 0x68 => { engine := engBnc, types := if big then [0x32, 0x33] else [0x30, 0x31], usage := [16] }
  | 0x69 => { engine := engBnc, types := [if big then 0x32 else 0x30], usage := [17] }
  | 0x6A => { engine := engBnc, types := [if big then 0x3A else 0x38], usage := [11] }
  | _ => { engine := engBnc, types := if big then [0x3A, 0x3B] else [0x38, 0x39], usage := [12] }

def pkDraw (d : Bytes) (k : Key) : Nat :=
  match dOp d with
  | 0x60 => if k.rfc6979 then 0 else if p384Of d then 56 else 40
  | 0x66 => 16
  | 0x68 => 32
  | 0x6A => 32
  | _ => 0

/-- Operations that use a private key: their key area holds it (R216). -/
def pkSecret (d : Bytes) : Bool := [0x60, 0x62, 0x64, 0x66, 0x69, 0x6A].contains (dOp d)

/-- The public key of a verification or public operation: of the input with PUB_IN, else the slot's public part, with the
input that remains. -/
def pkPublic (d : Bytes) (k : Key) (input : Bytes) : Bytes × Bytes :=
  if pubIn d = false then (publicPart k.type k.material, input)
  else match dOp d with
    | 0x61 => (input.drop (3 * curveLen d), input)
    | 0x63 => (Bytes.slice input 64 32, input.take 64 ++ input.drop 96)
    | 0x67 => (input.drop (rsaLen d), input)
    | 0x68 => (input, [])
    | _ => (input.drop (64 + dsaSigLen d), input)

/-- What a public-key operation comes to once its key, its draw and its input are at hand. -/
def pkEnd (d : Bytes) (k : Key) (input drawn : Bytes) : PkEnd :=
  let (pub, rest) := pkPublic d k input
  match dOp d with
  | 0x60 => ecdsaSignEnd d k input drawn
  | 0x61 => ecdsaVerifyEnd d pub rest
  | 0x62 => edSignEnd k input
  | 0x63 => edVerifyEnd pub (rest.take 64) (rest.drop 64)
  | 0x64 => ecdhEnd k input
  | 0x66 => rsaPrivateEnd d k input drawn
  | 0x67 => rsaPublicEnd d pub rest
  | 0x68 => kemEncapsEnd d pub drawn
  | 0x69 => kemDecapsEnd d k input
  | _ => dsaVerifyEnd d pub rest

/-- Length reported for a result: of the output region, else of what res returns (R111). -/
def pkOutLen (e : PkEnd) : Nat := if e.out.length = 0 then e.res.length else e.out.length

/-- Engines that start with the first segment: one, and for an RSA private operation both halves (R55, R228). -/
def pkEngines (s : State) (b : Nat) (d : Bytes) : Option (List Nat) :=
  match freeEngine s b [] with
  | none => none
  | some k => if dOp d = 0x66 then (freeEngine s b [k]).map (fun j => [k, j]) else some [k]

/-- The outcome of a public-key operation from its t0. -/
def pkOutcome (s : State) (e : PkEnd) : Outcome :=
  { status := e.status, out := e.out, res := e.res, outLen := pkOutLen e, due := s.now + 1000 * e.us, roundT := some s.now
    selfFail := e.cause }

/-- The first segment of an operation begins on its engines. -/
def enterAll (s : State) (b tenant : Nat) (d : Bytes) (es : List Nat) : State :=
  each es s (fun s k => enterSegment s b k tenant (dOp d) (pkSecret d))

/-- A public-key operation starts at its t0: key checks, draw, validation and result, each with its time point (R218, R220,
R221, R225). An ML-DSA signature runs by attempts (R231). -/
def ringPublic (opcode i c : Nat) (s : State) : State :=
  match startable s i c (fun d => dOp d == opcode) with
  | none => s
  | some o =>
    let d := o.snap
    match pkEngines s o.bay d with
    | none => s
    | some es =>
      let s := enterAll s o.bay o.att.tenant d es
      let o := { o with engines := es }
      let early := fun (st : Nat) => ({ status := st, due := s.now + 1000 } : Outcome)
      let (f, s, w) := if pubIn d then (.got {} 0 0, s, []) else fetchKey s (5 + o.bay) o.att.tenant (pkRole d) (keyAOf s o) noNonce always
      match f with
      | .refused st => fixOutcome s i o (early st)
      | .got k _ _ =>
        let n := pkDraw d k
        let (r, s) := if n = 0 then (some [], s) else draw s o.bay n
        match r with
        | none => fixOutcome s i o (early 0x0501)
        | some drawn =>
          let o := withWaits o w
          if dOp d = 0x6A then beginOp s i { o with drawn := some drawn } none
          else fixOutcome s i o (pkOutcome s (pkEnd d k (inputOf s i o) drawn))

/-! ## ML-DSA signing attempts (R231, R232, R63) -/

/-- Setup and attempt times in µs, and a_max (R231, R238). -/
def dsaTimes (d : Bytes) : Nat × Nat × Nat := if kemSet d then (24, 30, 299) else (17, 24, 374)

/-- Time after t0 at which the next attempt of an operation ends, ns. -/
def attemptEnd (d : Bytes) (attempts : Nat) : Nat := 1000 * ((dsaTimes d).1 + (dsaTimes d).2.1 * (attempts + 1))

/-- A mismatched word of its engines ends an operation that reads it, with FABRIC (R28, R216). -/
def engineMismatch (s : State) (i : Nat) (o : RingOp) : State :=
  modInst (raiseEngine s o.bay) i (fun x => setOp x { o with outcome := some (failNow s 0x0801) })

/-- An attempt ends: a signature ends the segment and its check begins on the second BNC; a rejection leaves another attempt to
make. -/
def dsaAttemptDone (i c : Nat) (s : State) : State :=
  match findOp (getInst s i) c with
  | some o =>
    if o.stage = .running ∧ o.outcome = none ∧ dOp o.snap = 0x6A ∧ o.squashed = false
        ∧ o.t0 + attemptEnd o.snap o.attempts ≤ s.now ∧ bayClockRuns s o.bay then
      let d := o.snap
      let p := dsaPar d
      if engineBad s o then engineMismatch s i o
      else match keyAOf s o with
      | none => s
      | some (k, _, _) =>
        let mu := inputOf s i o
        let sk := k.material.take (Lattice.dsaSkLen p)
        let a := o.attempts + 1
        match Lattice.dsaAttempt p (Lattice.dsaKeyOf p sk) mu (o.drawn.getD []) o.attempts with
        | none => modInst s i (fun x => setOp x { o with attempts := a })
        | some sig =>
          let us := (dsaTimes d).1 + (dsaTimes d).2.1 * a + 60
          let ok := Lattice.dsaVerify p (k.material.drop (Lattice.dsaSkLen p)) mu sig
          let e : PkEnd := if ok then { status := 0, us := us, out := sig } else selfFail 1 us
          let due := max (o.t0 + 1000 * us) (s.now + 60000)
          let oc : Outcome := { status := e.status, out := e.out, outLen := e.out.length, due := due, roundT := some o.t0
                                selfFail := e.cause }
          (beginCheck s i { o with attempts := a, outcome := some oc } oc).1
    else s
  | none => s

/-! ## Meanings -/

/-- ECDSA_SIGN (R218, R220, R222, R227). -/
def execEcdsaSign (t : Nat) (op : OpRef) (s : State) : Result := .next (ringOnly (ringPublic 0x60) t op s)

/-- ECDSA_VERIFY (R218, R220, R225). -/
def execEcdsaVerify (t : Nat) (op : OpRef) (s : State) : Result := .next (ringOnly (ringPublic 0x61) t op s)

/-- ED25519_SIGN (R218, R224). -/
def execEd25519Sign (t : Nat) (op : OpRef) (s : State) : Result := .next (ringOnly (ringPublic 0x62) t op s)

/-- ED25519_VERIFY (R218, R225). -/
def execEd25519Verify (t : Nat) (op : OpRef) (s : State) : Result := .next (ringOnly (ringPublic 0x63) t op s)

/-- ECDH_P256 (R218, R225, R227, R230). -/
def execEcdhP256 (t : Nat) (op : OpRef) (s : State) : Result := .next (ringOnly (ringPublic 0x64) t op s)

/-- RSA_PRIVATE (R218, R223, R227). -/
def execRsaPrivate (t : Nat) (op : OpRef) (s : State) : Result := .next (ringOnly (ringPublic 0x66) t op s)

/-- RSA_PUBLIC (R218, R225). -/
def execRsaPublic (t : Nat) (op : OpRef) (s : State) : Result := .next (ringOnly (ringPublic 0x67) t op s)

/-- MLKEM_ENCAPS (R218, R224, R225). -/
def execMlkemEncaps (t : Nat) (op : OpRef) (s : State) : Result := .next (ringOnly (ringPublic 0x68) t op s)

/-- MLKEM_DECAPS (R218, R224, R225). -/
def execMlkemDecaps (t : Nat) (op : OpRef) (s : State) : Result := .next (ringOnly (ringPublic 0x69) t op s)

/-- MLDSA_SIGN (R218, R221, R224, R231). -/
def execMldsaSign (t : Nat) (op : OpRef) (s : State) : Result := .next (ringOnly (ringPublic 0x6A) t op s)

/-- MLDSA_VERIFY (R218, R225). -/
def execMldsaVerify (t : Nat) (op : OpRef) (s : State) : Result := .next (ringOnly (ringPublic 0x6B) t op s)

/-- MLDSA_ATTEMPT_END (R231, R232). -/
def execMldsaAttemptEnd (t : Nat) (op : OpRef) (s : State) : Result := .next (ringOnly dsaAttemptDone t op s)

end Sys2Proof.Machine
end

