-- ==== Sys2Proof/Machine/KumOps.lean ====
section
/-! DEFINITION. Key update messages on a ring, their cut and receipt, and UNWRAP (R55, R211, R280 to R290). -/

namespace Sys2Proof.Machine

open Sys2Proof

/-- A number of 32-byte draws, then one of 56 bytes (R287, R222). -/
def kumDraws (b : Nat) : Nat → State → Option Bytes × State
  | 0, s => draw s b 56
  | n + 1, s =>
    match draw s b 32 with
    | (none, s) => (none, s)
    | (some r, s) =>
      match kumDraws b n s with
      | (some rest, s) => (some (r ++ rest), s)
      | (none, s) => (none, s)

/-- Time of a message's signature verdict and of its item checks, µs from t0 (R287). -/
def kumVerifyUs (m : Kum) : Nat := if m.sigAlg = 2 then 60 else 86
def kumItemsUs (m : Kum) : Nat := kumVerifyUs m + 200
def kumReceiptUs (m : Kum) : Nat := kumVerifyUs m + 350

/-- Checks at 1 µs but for the draws (R287): the message with its authority, or a status. -/
def kumEarly (s : State) (tenant : Nat) (found : Option (Key × Nat × Place)) (msg : Bytes) : Except Nat (Kum × Key) :=
  match parseKum msg true with
  | .error st => .error st
  | .ok m =>
    if m.tenant ≠ tenant then .error 0x0302
    else if m.identity ≠ identityDigest s then .error 0x0404
    else (authorityKey s m found).map (fun k => (m, k))

/-- The authority key of an operation's tenant, as its admission attached it (R37, R280). -/
def authorityOf (s : State) (o : RingOp) : Option (Key × Nat × Place) := keyByHandle s o.att.authority o.att.epoch

/-- The custody controller opens a joint for a message that verifies; its commit begins at `t`, and takes its place among the others
(R335, R340; log entry 16). -/
def openKumJoint (s : State) (i t : Nat) (msg : Bytes) : Option Nat × State :=
  match freeJointSlot s with
  | some j =>
    if stagingStore < stagingUsed s + msg.length then (none, s)
    else
      (some j, queueCommit (openSlot s j { opener := 0xFFFE, path := .bare, role := 0, bytes := msg.length
                                           recs := [{ kind := 3, sub := 0, index := BitVec.ofNat 16 i, data := msg }] }) j t)
  | none => (none, s)

/-- A KUM begins at its t0: its checks at 1 µs, then its signature and counter (R287). -/
def ringKum (i c : Nat) (s : State) : State :=
  match startable s i c (fun d => dOp d == 0x70) with
  | none => s
  | some o =>
    match pkEngines s o.bay o.snap with
    | none => s
    | some es =>
      let s := enterAll s o.bay o.att.tenant o.snap es
      let o := { o with engines := es }
      let end_ := fun (st us : Nat) => ({ status := st, due := s.now + 1000 * us } : Outcome)
      let msg := inputOf s i o
      match kumEarly s o.att.tenant (authorityOf s o) msg with
      | .error st => fixOutcome (refusedKey s (5 + o.bay) st (authorityOf s o)) i o (end_ st 1)
      | .ok (m, auth) =>
        match kumDraws o.bay (generateBytes m / 32) s with
        | (none, s) => fixOutcome s i o (end_ 0x0501 1)
        | (some rand, s) =>
          if kumSigned auth m = false ∨ m.counter ≤ kumCounter s m.tenant then fixOutcome s i o (end_ 0x0404 (kumVerifyUs m))
          else
            let (j, s) := openKumJoint s i (s.now + 1000 * kumVerifyUs m) msg
            beginOp s i { o with drawn := some rand, kumVerified := true, kumJoint := j } none

/-- The outcome of a message's items: refused, with the item at fault, or applied. -/
inductive KumEnd where
  | refused (status : Nat) (item : Option (Nat × Nat)) (s : State)
  | cut (its : List ItemOut) (waits : List Nat) (s : State)

/-- The custody controller's checks and the cut (R287, R288, R340). -/
def kumCutNow (s : State) (o : RingOp) (m : Kum) : KumEnd :=
  if m.counter ≤ kumCounter s m.tenant then .refused 0x0404 none s
  else
    let s := setKumCounter s m.tenant m.counter
    if cutForbidden s then .refused 0x0104 none s
    else match checkItems s {} o.att.epoch m.tenant 0 [] (o.drawn.getD []) m.items with
    | (.error (st, j, h), s, _) => .refused st (some (j, h)) s
    | (.ok its, s, cl) =>
      if o.kumJoint = none ∨ pendingFits s its = false then .refused 0x0903 none s
      else match applyItems (advanceEpoch s) (s.ctl.epoch + 1) its with
        | none => .refused 0x0602 none s
        | some s => .cut its cl.waits (freeShelf (bump s (odKey 0x6002 4)))

/-- The end of a message's joint: its commit record and its slot freed. -/
def endKumJoint (s : State) (o : RingOp) (status epoch : Nat) : State :=
  match o.kumJoint with
  | some j => closeJoint (commitRecord (answerSigns s (getJoint s j)) j status epoch) j (if status = 0 then 2 else 3) status
  | none => s

/-- KUM_CUT on a ring operation. -/
def ringKumCut (i c : Nat) (s : State) : State :=
  match findOp (getInst s i) c with
  | some o =>
    let msg := inputOf s i o
    match parseKum msg true with
    | .error _ => s
    | .ok m =>
      if o.kumVerified ∧ o.outcome = none ∧ o.squashed = false ∧ o.t0 + 1000 * kumItemsUs m ≤ s.now ∧ islandsTaken s
          ∧ s.acu.drain = false ∧ (o.kumJoint = none ∨ s.ctl.commits.head? = o.kumJoint) then
        match kumCutNow s o m with
        | .refused st item s =>
          let s := endKumJoint s o st 0
          modInst s i (fun x => setOp x { o with kumJoint := none, outcome := some { status := st, due := s.now, item := item } })
        | .cut its w s =>
          let s := endKumJoint s o 0 s.ctl.epoch
          let body := receiptBody m msg s.ctl.epoch its
          let sig := identitySign s ((o.drawn.getD []).drop (generateBytes m)) body
          let out := body ++ sig
          let due := max (o.t0 + 1000 * kumReceiptUs m) s.now
          let oc : Outcome := if p384Verify s.keys.idPublic body sig then { status := 0, out := out, outLen := out.length, due := due, roundT := some o.t0 }
            else { status := 0x0405, due := due, roundT := some o.t0, selfFail := 1 }
          -- the receipt's signing segment holds the identity key (R216, R266)
          let s := each o.engines s (fun s k => enterSegment s o.bay k o.att.tenant 0x70 true)
          modInst s i (fun x => setOp x { withWaits o w with kumJoint := none, kumCutDone := true, outcome := some oc })
      else s
  | none => s

/-! ## UNWRAP (R285, R211) -/

/-- A wrapped token opened for an instance: status and, where it passes, its key. -/
def unwrapToken (s : State) (tenant : Nat) (wrap : Key) (msg : Bytes) : Except Nat Key :=
  match parseToken msg with
  | .error st => .error st
  | .ok t =>
    if t.tenant ≠ tenant ∨ t.attr.tenant ≠ tenant then .error 0x0302
    else
      let (st, m) := openCarriage t.carriage wrap t.aad t.body t.attr
      let k := t.attr.key 0 (keyClock s) m
      if st ≠ 0 then .error st
      else if tokenKeyOk k = false then .error 0x0304
      else if Bytes.allZero t.attr.kcv = false ∧ t.attr.kcv ≠ k.kcv then .error 0x0404
      else .ok k

/-- UNWRAP runs: key checks, carriage, attributes; the token is inserted at the completion. -/
def ringUnwrap (i c : Nat) (s : State) : State :=
  match startable s i c (fun d => dOp d == 0x71) with
  | none => s
  | some o =>
    let msg := inputOf s i o
    let (f, s, w) := fetchKey s (5 + o.bay) o.att.tenant (carriageRole (Bytes.fieldLE msg 4 1)) (keyAOf s o) noNonce always
    match f with
    | .refused st => fixOutcome s i o (failNow s st)
    | .got wrap _ _ =>
      let o := withWaits o w
      match unwrapToken s o.att.tenant wrap msg with
      | .error st => fixOutcome s i o (failNow s st)
      | .ok k =>
        let tok : Token := { tenant := o.att.tenant, inst := i, time := 0, maxAge := o.att.tokenMaxAge
                             tag := Sha.sha256 (Bytes.ofNatLE 2 o.att.tenant ++ msg), key := k }
        fixOutcome s i o { status := 0, due := s.now + segTime o.plan, roundT := some s.now, token := some tok }

/-! ## Meanings -/

/-- KUM (R287). -/
def execKum (t : Nat) (op : OpRef) (s : State) : Result := .next (ringOnly ringKum t op s)

/-- UNWRAP (R285, R211). -/
def execUnwrap (t : Nat) (op : OpRef) (s : State) : Result := .next (ringOnly ringUnwrap t op s)

/-- KUM_CUT (R287, R288, R289, R205). -/
def execKumCut (t : Nat) (op : OpRef) (s : State) : Result := .next (ringOnly (fun i c s => clocked s [islControl, islHub] (ringKumCut i c)) t op s)

end Sys2Proof.Machine
end

