-- ==== Sys2Proof/Machine/Completion.lean ====
section
/-! DEFINITION. The end of ring operations: the last segment, verify-before-release, early ends by reset, response or fault, DMA
and journal events (R49, R63, R108, R122 to R128, R149, R179, R211, R227 to R236, R311). -/

namespace Sys2Proof.Machine

open Sys2Proof

/-! ## Self-check failures (R230) -/

/-- BNC number in the device: eight to a bay (R15). -/
def bncNumber (b k : Nat) : Nat := 8 * b + k

/-- Engines of an operation whose memory still holds its work: those that no other operation and no test has taken since. -/
def ownEngines (s : State) (i : Nat) (o : RingOp) : List Nat :=
  let others := busyEngines (modInst s i (fun x => dropOp x o.count)) o.bay
  o.engines.filter (fun k => !others.contains k && ((getBay s o.bay).test.map (·.engine)) != some k)

/-- An operation leaves its engines: a cipher engine is zeroed (R133), a BNC keeps what its segment leaves but for its key area; an
abort wipes it whole and leaves it to nobody (R234). -/
def leaveEngines (s : State) (i : Nat) (o : RingOp) (aborted : Bool) : State :=
  if o.plan.kind = .cipher then each (ownEngines s i o) s (fun s k => clearMem s o.bay k .nobody)
  else if aborted then each (ownEngines s i o) s (fun s k => wipeBnc s o.bay k .nobody)
  else each (ownEngines s i o) s (fun s k => leaveSegment s o.bay k)

/-- The engines of a suspended operation are released (R57). -/
def suspendOp (s : State) (i : Nat) (o : RingOp) : State × RingOp :=
  if dataLate s o ∧ o.suspended = false then
    (leaveEngines (modInst s i (fun x => setOp x { o with suspended := true, engines := [] })) i o false, { o with suspended := true, engines := [] })
  else (s, o)

/-- What follows a SELFCHECK_FAIL, in order (R230): the wipe comes first. -/
def selfCheckFailed (s : State) (i : Nat) (o : RingOp) (cause : Nat) : State :=
  let s := leaveEngines s i o true
  let (f, s) := freeBytes s 2
  let nums := Bytes.fit 2 (o.engines.map (fun k => BitVec.ofNat 8 (bncNumber o.bay k)) ++ f)
  let s := record s 0x6102 (srcBay o.bay) (Bytes.ofNatLE 1 (dOp o.snap) ++ Bytes.ofNatLE 4 (dKeyA o.snap)
    ++ Bytes.ofNatLE 1 o.bay ++ nums ++ Bytes.ofNatLE 1 cause)
  let s := bump (bump s (odKey 0x6040 1)) (odKey 0x6040 (0x10 + o.bay))
  modBay s o.bay (fun b => { b with testQueue := b.testQueue ++ o.engines.filter (fun k => !b.testQueue.contains k) })

/-! ## Bookings given back (R63) -/

/-- Charges of a plan in frames from `f` on. -/
def restCharges (o : RingOp) (f : Nat) : Nat :=
  ((o.plan.charge.zipIdx.filter (fun e => decide (f ≤ o.start + e.2))).map (·.1)).foldl (· + ·) 0

/-- The core time of an operation's charges from the following frame on goes back to its instance's bucket. -/
def returnCore (s : State) (i : Nat) (o : RingOp) : State :=
  let back := restCharges o (s.now / 2000 + 1)
  let s := refill s i
  modInst s i (fun x => { x with core := min (Int.ofNat (coreBurst s.ctl.cfg i * 10 ^ 6)) (x.core + Int.ofNat (back * 1000)) })

/-- The rest of an ML-DSA booking is released from the following frame and its core time returned. -/
def releaseRest (s : State) (i : Nat) (o : RingOp) : State := returnCore (releaseBooking s o (s.now / 2000 + 1)) i o

/-- The end of an ML-DSA signing segment's account (R63, R232). -/
def dsaAccount (s : State) (i : Nat) (o : RingOp) : State :=
  let s := if counter s (odKey 0x6040 4) < o.attempts then setCounter s (odKey 0x6040 4) o.attempts else s
  if (dsaTimes o.snap).2.2 < o.attempts then bump s (odKey 0x6040 5) else releaseRest s i o

/-! ## The end of a running operation -/

/-- The derivation-cache entry that a completing decryption rewrites (R179). -/
def rewriteDeriv (s : State) (oc : Outcome) : State :=
  match oc.deriv with
  | some (term, d) =>
    writeWords { s with keys := { s.keys with deriv := mput s.keys.deriv term { d with written := s.now } } } memDeriv (derivWord term) 8
  | none => s

/-- The token that a completing UNWRAP inserts under the configuration of its admission: status, result bytes (R37, R211). -/
def insertAtEnd (s : State) (att : Attach) (oc : Outcome) : Nat × Bytes × State :=
  match oc.token with
  | none => (oc.status, oc.res, s)
  | some tok =>
    match insertToken s att.tokenQuota att.tokenPolicy tok with
    | (some r, s) => (0, Bytes.ofNatLE 4 r, s)
    | (none, s) => (0x0602, [], s)

/-- A key update message whose cut has not come: its joint is aborted, and its counter updated alone once its signature has verified
(R288, R311). -/
def abandonKum (s : State) (i : Nat) (o : RingOp) : State :=
  if o.kumVerified ∧ o.kumCutDone = false then
    let m := parseKum (inputOf s i o) true
    let s := match m with
      | .ok m =>
        if o.t0 + 1000 * kumVerifyUs m ≤ s.now ∧ kumCounter s m.tenant < m.counter then setKumCounter s m.tenant m.counter else s
      | .error _ => s
    match o.kumJoint with
    | some j => closeJoint (answerSigns s (getJoint s j)) j 4 0x0702
    | none => s
  else s

/-- The end of an operation whose verdict is fixed (R111, R112, R218). -/
def finishRing (s : State) (i : Nat) (o : RingOp) (oc : Outcome) : State :=
  let st := if o.dmaFault ∧ oc.status ≤ 1 then 0x0207 else oc.status
  let s := if st = 0x0405 then selfCheckFailed s i o oc.selfFail else leaveEngines s i o (st == 0x0801)
  let s := if st = 0 ∧ o.plan.kind = .bnc ∧ checkedOp (dOp o.snap) = false then
      each (ownEngines s i o) s (fun s k => leaveOutput s o.bay k (dOp o.snap)) else s
  let s := if dOp o.snap = 0x6A ∧ o.attempts ≠ 0 then dsaAccount s i o else s
  let s := if dOp o.snap = 0x70 ∧ st ≠ 0 ∧ o.kumCutDone = false then kumRefused (abandonKum s i o) st o.att.tenant oc.item else s
  if st ≠ 0 then endRing s i o st 0 [] []
  else
    let s := rewriteDeriv s oc
    let (st, res, s) := insertAtEnd s o.att oc
    endRing s i o st (if oc.token.isSome then res.length else oc.outLen) oc.out res

/-! ## Ends from outside (R28, R128, R158, R234, R311) -/

/-- An admitted operation ends at once with 0x0702, 0x0801 or 0x0802: engines and operand memory are wiped, its booking is
released, no output leaves. -/
def endEarly (s : State) (i : Nat) (o : RingOp) (st : Nat) : State :=
  let s := leaveEngines s i o true
  let s := abandonKum s i o
  let s := if dOp o.snap = 0x6A ∧ o.outcome.isSome then returnCore s i o else s
  cutShort s i { o with engines := [] } st

/-! ## The device side of DMA (R417, R421, R424) -/

/-- Memory that the DMA engine reaches on the device side for an operation: the buffers of its engines, or of its whole bay before it
has any; the staging pool for other work. A transfer takes the whole of them (log entry 207). -/
def dmaRanges (o : RingOp) : List (Nat × Nat) :=
  let base := 0x600000000 + 0x1000000 * o.bay
  if o.plan.kind ≠ .cipher then [(0x206000000, 0x2000000)]
  else if o.engines = [] then [(base, 0x40000)]
  else o.engines.map (fun k => (base + 0x4000 * k, 0x4000))

/-- A transfer that a user rule denies: the operation that issued it ends with 0x0801, and no data moves. -/
def denyDma (s : State) (i : Nat) (o : RingOp) (len : Nat) (isRead : Bool) : State :=
  settle (endEarly (dmaViolation s (dmaRanges o) len (if o.plan.kind = .cipher then memCipher else memStaging) isRead) i o 0x0801)

/-! ## The last segment -/

/-- Every DMA request of the operation has retired (R126). -/
def dmaRetired (o : RingOp) : Bool := o.reads == 0 && !o.readBack

/-- The last segment has ended, its reservations are durable and its host requests have retired: what is left of the output of a host
buffer goes out and is read back, then the operation ends (R126, R149). A GCM decryption writes its output whether the tag matches or not
(R127). -/
def ringRelease (s : State) (i : Nat) (o : RingOp) (oc : Outcome) : State :=
  if oc.due ≤ s.now ∧ o.waits = [] ∧ dmaRetired o then
    match (if o.written = false then hostRegion o oc.out else none) with
    | some r =>
      (match decidingOver s dmaMaster (dmaRanges o) true with
      | some _ => denyDma s i o oc.out.length true
      | none => hostOutput s i o r oc.out)
    | none => finishRing s i o oc
  else s

/-- Output that an operation produces while its segments run goes to its host region, once no reservation holds it (R126, R149). -/
def sendProduced (s : State) (i : Nat) (o : RingOp) : State :=
  let out := produced s i o
  match (if o.waits = [] ∧ o.squashed = false ∧ o.dmaFault = false ∧ o.sent < out.length then hostRegion o out else none) with
  | some r =>
    (match decidingOver s dmaMaster (dmaRanges o) true with
    | some _ => denyDma s i o (out.length - o.sent) true
    | none => (sendBytes s i o r out).1)
  | none => s

/-- A running operation that still lacks host data: past its booked time its engines are released; where the data has come since, it takes
engines again (R57). -/
def lackingStep (s : State) (i : Nat) (o : RingOp) (j : Job) : State :=
  let (s, o) := suspendOp s i o
  if inputReady o then inputDone s i o j else sendProduced s i o

/-- The segment has come to its end, and its engine has read its memory: a mismatched word ends the operation with 0x0801 (R28, R216). -/
def checkedEnd (s : State) (i : Nat) (o : RingOp) (oc : Outcome) : State × RingOp × Outcome :=
  if oc.due ≤ s.now + (if o.checking = false ∧ checkWanted o oc then checkNs o.snap else 0) ∧ oc.status ≠ 0x0801 ∧ engineBad s o then
    let oc := failNow s 0x0801
    let o := { o with outcome := some oc }
    (modInst (raiseEngine s o.bay) i (fun x => setOp x o), o, oc)
  else (s, o, oc)

/-- SEGMENT_END on a ring operation: the producing segment of a checked operation ends and its check begins, or its last segment or
time point has come (R218, R228). -/
def ringSegmentEnd (i c : Nat) (s : State) : State :=
  match findOp (getInst s i) c with
  | some o =>
    match o.outcome with
    | some oc =>
      if o.squashed = false ∧ bayClockRuns s o.bay then
        let (s, o, oc) := checkedEnd s i o oc
        if checkWanted o oc ∧ o.checking = false then
          if oc.due ≤ s.now + checkNs o.snap then
            let (s, o, oc) := beginCheck s i o oc
            if o.checking then ringRelease s i o oc else s
          else s
        else if s.now < oc.due then sendProduced s i o
        else ringRelease s i o oc
      else s
    | none => match o.job with
      | some j => if o.squashed = false ∧ o.dmaFault = false ∧ bayClockRuns s o.bay then lackingStep s i o j else s
      | none => s
  | none => s

/-! ## Ends from outside (R128, R311) -/

/-- A descriptor covered and not yet decided ends with a status, not admitted (R311). -/
def endCovered (s : State) (i : Nat) (o : RingOp) (st : Nat) : State :=
  completeRing s i { o with att := attachOf s i } st s.ctl.epoch 0xFF 0 0 []

/-- What an operation that already waits for its DMA to retire will end with. -/
def endWaiting (s : State) (i : Nat) (o : RingOp) (st : Nat) : State :=
  modInst s i (fun x => setOp x { o with outcome := o.outcome.map (fun oc => { oc with status := st }) })

/-- Every admitted operation of an instance whose completion has not been written ends with a status (R128, R311, R323). -/
def endAdmitted (s : State) (i st : Nat) : State :=
  each ((getInst s i).ops.filter (fun o => o.stage != .covered)) s (fun s o =>
    if o.squashed then (if st = 0x0802 then endWaiting s i o st else s) else endEarly s i o st)

/-! ## DMA (R126, R127) -/

/-- The last outstanding request of an operation has retired: a squashed or failed operation ends. -/
def dmaSettled (s : State) (i : Nat) (o : RingOp) : State :=
  if dmaRetired o = false then modInst s i (fun x => setOp x o)
  else if o.squashed then
    let s := modInst s i (fun x => setOp x o)
    endRing s i o ((o.outcome.map (·.status)).getD 0x0702) 0 [] []
  else if o.dmaFault then
    let oc := match o.outcome with
      | some oc => if 1 < oc.status then oc else { status := 0x0207, due := s.now }
      | none => { status := 0x0207, due := s.now }
    finishRing (modInst s i (fun x => setOp x o)) i o oc
  else match o.outcome with
    | some oc => if o.written then finishRing (modInst s i (fun x => setOp x o)) i o oc else modInst s i (fun x => setOp x o)
    | none => modInst s i (fun x => setOp x o)

/-- Requests outstanding once `got` bytes of the `asked` have come, in requests of a size. -/
def requestsLeft (size asked got : Nat) : Nat := if asked ≤ got then 0 else ceilDiv asked size - got / size

/-- Input that a completion brings; requests retire in the order in which they were made (R126, R453). -/
def takeInput (s : State) (o : RingOp) (bs : Bytes) : RingOp :=
  let input := (o.input ++ bs).take o.asked
  { o with input := input, asks := o.asks.drop (o.asks.length - requestsLeft (readSize s o.att.ld) o.asked input.length) }

/-- What a DMA read completion brings to an operation: data, or an error, after which it takes no more data and only lets its requests
retire (R127). -/
def dmaArrives (s : State) (o : RingOp) (d : DmaData) : RingOp :=
  if o.reads ≠ 0 then
    match d with
    | .ok bs => if o.dmaFault then { o with asks := o.asks.drop 1 } else takeInput s o bs
    | _ => { o with dmaFault := true, asks := o.asks.drop 1 }
  else if o.readBack then
    match d with
    | .ok _ => { o with readBack := false }
    | _ => { o with readBack := false, dmaFault := true }
  else o

/-- Bytes that a completion brings for an operation that takes them. -/
def dmaBytes (o : RingOp) (d : DmaData) : Nat := match d with
  | .ok bs => if o.reads ≠ 0 ∧ o.squashed = false ∧ o.dmaFault = false then bs.length else 0
  | _ => 0

/-- What follows the arrival for the operation itself: one that is to end ends once its last request has retired; another asks for more,
and goes on with what has come. -/
def dmaFollows (s : State) (i : Nat) (o : RingOp) : State :=
  if o.squashed ∨ o.dmaFault then dmaSettled s i o
  else
    let (s, o) := askInput (modInst s i (fun x => setOp x o)) o
    let s := modInst s i (fun x => setOp x o)
    match o.outcome, o.job with
    | none, some j => if bayClockRuns s o.bay then lackingStep s i o j else s
    | _, _ => dmaSettled s i o

/-- An operation has host input that it has not asked for yet. -/
def asksMore (o : RingOp) : Bool :=
  (o.stage == .booked || o.stage == .running) && !o.squashed && !o.dmaFault
    && (match inRegion o.snap with | some r => r.host && decide (o.asked < r.len) | none => false)

/-- The other operations of a head ask for more once a tag has come free (R452). -/
def pumpHead (s : State) (h : Nat) : State :=
  each (s.insts.flatMap (fun e => (e.2.ops.filter (fun o => o.att.ld / 16 == h && asksMore o)).map (fun o => (e.1, o.count)))) s (fun s e =>
    match findOp (getInst s e.1) e.2 with
    | some o => let (s, o) := askInput s o; modInst s e.1 (fun x => setOp x o)
    | none => s)

/-- A DMA completion: its bytes are written on the device side, where a user rule may deny them (R417, R424). -/
def ringDma (d : DmaData) (i c : Nat) (s : State) : State :=
  match findOp (getInst s i) c with
  | some o =>
    if dmaRetired o then s
    else match (if 0 < dmaBytes o d then decidingOver s dmaMaster (dmaRanges o) false else none) with
      | some _ => denyDma s i { dmaArrives s o d with input := o.input } (dmaBytes o d) false
      | none => pumpHead (dmaFollows s i (dmaArrives s o d)) (o.att.ld / 16)
  | none => s

/-- Completion timeout of an LD's function, ns: 10 ms until host software sets it (R453). -/
def completionTimeout (s : State) (ld : Nat) : Nat := mget 10000000 s.link.timeouts ld

/-- The oldest request of an operation has been outstanding for its function's completion timeout. -/
def timedOut (s : State) (o : RingOp) : Bool :=
  match o.asks with
  | t :: _ => decide (t + completionTimeout s o.att.ld ≤ s.now)
  | [] => o.readBack && decide (o.backT + completionTimeout s o.att.ld ≤ s.now)

/-- A read that times out is an error completion (R453). -/
def ringTimeout (i c : Nat) (s : State) : State :=
  match findOp (getInst s i) c with
  | some o => if timedOut s o then ringDma .error i c s else s
  | none => s

/-! ## Reservations (R148, R149) -/

/-- The oldest reservation of a handle that is not yet durable becomes so. -/
def markDurable (h : Nat) : List StageRec → List StageRec
  | [] => []
  | r :: rest => if r.r.slot = h ∧ r.durable = false then { r with durable := true } :: rest else r :: markDurable h rest

def dropWait (h : Nat) (ws : List Nat) : List Nat := ws.filter (· != h)

def reservationDurable (s : State) (h : Nat) : State :=
  let j := s.keys.journal
  let stage := markDurable h j.stage
  let s := { s with keys := { s.keys with journal := { j with stage := stage } } }
  if stage.any (fun r => r.r.slot == h && !r.durable) then s
  else
    let f := fun (x : Inst) =>
      { x with ops := x.ops.map (fun o => { o with waits := dropWait h o.waits })
               slots := x.slots.map (fun e => (e.1, { e.2 with op := e.2.op.map (fun o => { o with waits := dropWait h o.waits }) })) }
    { s with insts := s.insts.map (fun e => (e.1, f e.2)) }

/-! ## Meanings -/

/-- SEGMENT_END (R218, R491): the end of a segment is a word that its bay sends to the hub. -/
def execSegmentEnd (t : Nat) (op : OpRef) (s : State) : Result :=
  .next (ringOnly (fun i c s => crossing s [] [islHub] (.segmentEnd t op) (ringSegmentEnd i c)) t op s)

/-- DMA_READ_COMPLETION (R126, R127). -/
def execDmaReadCompletion (t : Nat) (op : OpRef) (d : DmaData) (s : State) : Result :=
  .next (ringOnly (fun i c s => crossing s [] [islLink, islHub] (.dmaReadCompletion t op d) (ringDma d i c)) t op s)

/-- DMA_COMPLETION_TIMEOUT: an error completion (R453, R127). -/
def execDmaCompletionTimeout (t : Nat) (op : OpRef) (s : State) : Result :=
  .next (ringOnly (fun i c s => crossing s [islLink] [islHub] (.dmaCompletionTimeout t op) (ringTimeout i c)) t op s)

/-- JOURNAL_RESERVATION_DURABLE (R24, R149): the vault's answer crosses from the control island to the hub. -/
def execJournalReservationDurable (t : Nat) (h : BitVec 18) (s : State) : Result :=
  .next (crossing (at_ s t) [islControl] [islHub] (.journalReservationDurable t h) (fun s => reservationDurable s h.toNat))

end Sys2Proof.Machine
end

