-- ==== Sys2Proof/Machine/Inline.lean ====
section
/-! DEFINITION. The inline windows: slots, held reads, dispatch to lanes, lookups and result lines (R34 to R36, R59, R68 to R95,
R197). -/

namespace Sys2Proof.Machine

open Sys2Proof

/-! ## Access to an instance's area (R299, R304, R305, R362) -/

/-- The first access of a kind is captured, every access counted (R304, R305). -/
def capture (s : State) (i k value ld off : Nat) (isRead poison : Bool) : State :=
  modInst s i (fun x =>
    { x with
      capCount := min 0xFFFFFFFF (x.capCount + 1)
      caps := if (mfind x.caps k).isSome then x.caps
        else mput x.caps k { value := value, ld := ld, poison := poison, isRead := isRead, off := off, time := s.now } })

/-- A part of the area is backed (R299); a removed slot still PENDING answers reads only (R71). -/
def backed (s : State) (i off : Nat) (isRead : Bool) : Bool :=
  let c := s.ctl.cfg
  if off < 0x1000 then true
  else if 0x10000 ≤ off ∧ off < 0x30000 then
    let n := (off - 0x10000) / 128
    decide (n < inlineSlots c i) || (isRead && (getInst s i).leaving.contains n)
  else if 0x40000 ≤ off ∧ off < 0x60000 then decide ((off - 0x40000) / 64 < ringEntries c i)
  else if 0x60000 ≤ off then decide ((off - 0x60000) / 4096 < stagingPages c i)
  else false

/-- An access to an unbacked address: poison for a read, a drop for a write, captured as kind UNBACKED once service runs
(R299, R362). -/
def unbacked (s : State) (ld i off : Nat) (isRead poison : Bool) (tag : Nat) : State :=
  let s := if isRead then answerPoison s ld tag else s
  if serving s then capture s i 6 0xFFFF ld off isRead poison else s

/-! ## Result lines (R79, R80) -/

def idleLine : Bytes := Bytes.zeros 64

def pendingLine (req : Bytes) : Bytes :=
  [0x40, Bytes.at' req 0] ++ [0, 0] ++ Bytes.slice req 4 4 ++ Bytes.zeros 56

/-- A DONE line. `unit` is the lane number, or 0x80 for a line that the hub wrote. -/
def resultLine (req : Bytes) (status epoch unit hint lat route : Nat) (out : Bytes) : Bytes :=
  let ok := decide (status ≤ 1)
  let hide := status == 0x0801 || status == 0x0802 || status == 0x0702
  [0x80, Bytes.at' req 0] ++ Bytes.ofNatLE 2 status ++ Bytes.slice req 4 4 ++ Bytes.ofNatLE 2 (epoch % 65536)
    ++ Bytes.ofNatLE 1 unit ++ Bytes.ofNatLE 1 (if ok then out.length else 0) ++ Bytes.ofNatLE 2 hint
    ++ Bytes.ofNatLE 2 (min lat 0xFFFF) ++ Bytes.ofNatLE 4 (if hide then 0 else route) ++ Bytes.zeros 12
    ++ Bytes.fit 32 (if ok then out else [])

/-- A held read is answered, to the master that issued it (R75). -/
def answerHeld (s : State) (h : Option Held) (line : Bytes) : State :=
  match h with
  | some h => answerRead s h.ld h.tag line
  | none => s

/-- The island whose units write a line of the hub's memories where none other is noted: result lines the hub, all others the link
island. -/
def usualSource (mem w : Nat) : Nat := if mem = memInline ∧ w % 16 = 8 then islHub else islLink

/-- A line of the hub's memories answers a read; a mismatched word of it is found by the link island, which raises FABRIC, with the island
that wrote it, and returns poison (R28). -/
def answerLine (s : State) (ld tag mem w : Nat) (line : Bytes) : State :=
  match badWord s mem w 8 with
  | some key => answerPoison (raiseFabric s (writerOf s key (usualSource mem w)) islLink mem) ld tag
  | none => answerRead s ld tag line

/-- A result line is written by a unit of an island: the slot is DONE and its held read is answered; a removed slot becomes unbacked
(R71, R73, R75). -/
def writeLine (s : State) (i n island : Nat) (line : Bytes) : State :=
  let x := getInst s i
  let sl := getSlot x n
  let w := inlineWord i n + 8
  let s := answerHeld (noteWriter (writeWords s memInline w 8) memInline w 8 island) sl.held line
  if x.leaving.contains n then
    modInst s i (fun x => { setSlot x n {} with leaving := x.leaving.filter (· != n) })
  else modInst s i (fun x => setSlot x n { sl with st := .done, result := line, held := none, op := none })

/-- A line ends with a status in its lane (R79, R87, R90): late lines are counted and marked. -/
def endLine (s : State) (i n : Nat) (o : LaneOp) (st : Nat) (out : Bytes) : State :=
  let lat := s.now - o.arr
  let late := decide (201 < lat)
  let st' := if st = 0 ∧ late then 1 else st
  let op := Bytes.fieldLE o.line 0 1
  let s := countStatus s i op st' 0x22 0x23 false
  let s := if late then noteLate s i (laneBay o.lane) op st' (lat - 201) else s
  freeShelf (writeLine s i n (5 + laneBay o.lane) (resultLine o.line st' o.att.epoch o.lane 0 lat o.look.route out))

/-- A line decided by the hub at S2 (R85); one written late is counted, of no bay (R64, R90). -/
def hubLine (s : State) (i n arr : Nat) (req : Bytes) (st hint : Nat) : State :=
  let lat := s.now - arr
  let s := countStatus s i (Bytes.fieldLE req 0 1) st 0x22 0x23 true
  let s := if 201 < lat then noteLate s i 0xFF (Bytes.fieldLE req 0 1) st (lat - 201) else s
  writeLine s i n islHub (resultLine req st s.ctl.epoch 0x80 hint (s.now - arr) 0 [])

/-! ## Dispatch (R36, R59, R85, R88, R95) -/

/-- Lanes in rotation after the one used last. -/
def laneRotation (s : State) : List Nat :=
  let start := match s.sched.lastLane with
    | some l => (l + 1) % 16
    | none => 0
  (upTo 16).map (fun k => (start + k) % 16)

/-- Operations that a lane holds. -/
def laneHolds (s : State) (l : Nat) : Nat :=
  s.insts.foldl (fun a e => a + (e.2.slots.filter (fun sl => match sl.2.op with | some o => o.lane == l | none => false)).length) 0

def laneReady (s : State) (l : Nat) : Bool :=
  let b := getBay s (laneBay l)
  b.st == 0 && engineUp (laneBay l) b (l % 4) && (b.test.map (·.engine)) != some (l % 4) && bayClockRuns s (laneBay l)
    && decide (laneHolds s l < 2)
    && (match (mget {} s.sched.lanes l).lastAccept with
        | some t => decide (t + 100 ≤ s.now)
        | none => true)

/-- The book of a lane's bay has room in the frame of now. -/
def laneRoom (s : State) (l charge : Nat) : Bool :=
  let b := laneBay l
  let e := bookEntry s b (s.now / 2000)
  !bookClosed e && decide (bookTime e + charge ≤ bayCap s b)

/-- A lane takes a line: its time is booked and charged (R59, R95), and the line stands in the lane's buffer (R30). -/
def takeLane (s : State) (i n arr l charge : Nat) (line : Bytes) : State :=
  let f := s.now / 2000
  let att := attachOf s i
  let s := setBook s (laneBay l) f (bookEntry s (laneBay l) f + charge)
  let s := { s with sched := { s.sched with lastLane := some l, lanes := mset {} s.sched.lanes l { lastAccept := some s.now } } }
  let (id, s) := freshArea s
  let s := writeEngine (modMem s (laneBay l) (l % 4) (fun m => { m with io := .ofOp (Bytes.fieldLE line 0 1) id })) (laneBay l) (l % 4)
  modInst s i (fun x =>
    let x := { x with core := x.core - Int.ofNat (charge * 1000) }
    setSlot x n { getSlot x n with op := some { line := line, arr := arr, attachT := s.now, att := att, lane := l, charge := charge } })

/-- Checks 1 to 8 of R85 on an accepted line: status and hint. -/
def lineStatus (s : State) (i arr : Nat) (line : Bytes) : Nat × Nat :=
  let x := getInst s i
  let l := lineOfRequest line
  if frozen x then (0x0701, 0)
  else if alarmLatched s then (0x0801, 0)
  else if x.sub < oneToken then (0x0102, refillFrames s.now arr x.sub oneToken (submitRate s.ctl.cfg i) (submitBurst s.ctl.cfg i * 10 ^ 9))
  else if checkRequest line ≠ 0 then (checkRequest line, 0)
  else if inlineForbidden s l then (0x0104, 0)
  else if lineNeedsRandom l ∧ seedingInForce s then (0x0103, seedingHint s)
  else (0, 0)

/-- An accepted line is decided: checks 1 to 9 (R85). -/
def dispatchLine (s : State) (i n arr : Nat) (line : Bytes) : State :=
  let s := refill s i
  let (st, hint) := lineStatus s i arr line
  let spent := st ≠ 0x0701 ∧ st ≠ 0x0801 ∧ oneToken ≤ (getInst s i).sub
  let s := if spent then modInst s i (fun x => { x with sub := x.sub - oneToken }) else s
  if st ≠ 0 then hubLine s i n arr line st hint
  else
    let charge := lineCharge (lineOfRequest line)
    match (laneRotation s).find? (fun l => laneReady s l && laneRoom s l charge) with
    | some l => takeLane s i n arr l charge line
    | none => hubLine s i n arr line 0x0101 1

/-- A full-line write to a request line (R73, R311). -/
def requestWrite (s : State) (ld i n arr : Nat) (line : Bytes) : State :=
  let off := 0x10000 + 128 * n
  if reaches s ld i = false then s
  else if backed s i off false = false then unbacked s ld i off false false 0
  else if (getSlot (getInst s i) n).st = .pending then bump s (instKey i 0x24)
  else
    let line := Bytes.fit 64 line
    let s := modInst (writeWords s memInline (inlineWord i n) 8) i (fun x => setSlot x n { getSlot x n with st := .pending, req := line, result := [] })
    if (getInst s i).st = 2 then hubLine s i n arr line 0x0703 0 else dispatchLine s i n arr line

/-! ## Reads and dropped writes (R73 to R76) -/

/-- A read of a result line (R73, R75, R76). -/
def resultRead (s : State) (ld i n tag : Nat) : State :=
  let off := 0x10000 + 128 * n + 64
  if serving s = false then unbacked s ld i off true false tag
  else if reaches s ld i = false then s
  else if backed s i off true = false then unbacked s ld i off true false tag
  else
    let x := getInst s i
    let sl := getSlot x n
    let hold := modInst s i (fun x => setSlot x n { sl with held := some { ld := ld, tag := tag, t := s.now, parity := s.acu.epoch % 2 } })
    match sl.st with
    | .done => answerLine s ld tag memInline (inlineWord i n + 8) sl.result
    | .pending => if sl.held.isSome then answerRead s ld tag (pendingLine sl.req) else hold
    | .idle => if sl.held.isSome ∨ idleHold s.ctl.cfg i = 0 ∨ x.st = 2 then answerRead s ld tag idleLine else hold

/-- The idle hold of a slot runs out (R76). -/
def idleExpiry (s : State) (i n : Nat) : State :=
  let sl := getSlot (getInst s i) n
  match sl.st, sl.held with
  | .idle, some h =>
    if h.t + idleHold s.ctl.cfg i ≤ s.now then
      modInst (answerHeld s (some h) idleLine) i (fun x => setSlot x n { sl with held := none })
    else s
  | _, _ => s

def dropKind : InlineDrop → Nat
  | .partialWrite => 0
  | .poisoned => 1
  | .resultLine => 2

/-- A dropped write to the inline window (R74). -/
def droppedWrite (s : State) (ld i n : Nat) (k : InlineDrop) (off : Nat) : State :=
  let at_ := 0x10000 + 128 * n + off
  if reaches s ld i = false then s
  else if backed s i at_ false = false then unbacked s ld i at_ false (k == .poisoned) 0
  else capture (bump s (instKey i 0x24)) i (dropKind k) n ld at_ false (k == .poisoned)

/-! ## Lookup and result (R85 to R87, R197) -/

/-- The chained lookup of a line at the hub: key_a, route, key_b, claims, and the draw of S5 (R85 checks 10 to 12, R146,
R249); the lane checks the route word that it takes. DESIGN CHOICE (log entry 245): a lookup that finds no route counts in RoutePartMisses
where 0x0601 is the line's status, not where its key_a fails first. -/
def lookupLine (s : State) (i n : Nat) : State :=
  match inlineAt s i n .toLookup (fun _ => true) with
  | none => s
  | some o =>
    let l := lineOfRequest o.line
    let e := o.att.epoch
    let route := if l.routed ∨ l.op = 2 then some (routeLookup s o.att.part e l.digits) else none
    let fault := if route.isSome then routeFault s o.att.part e l.digits else none
    if fault.isSome then
      fixLine (raiseRoute s (5 + laneBay o.lane) (fault.getD 0)) i n { o with look := { status := 0x0801 } } (failNow s 0x0801)
    else
    let (lk, s) := lineKeys s l (5 + laneBay o.lane) o.att.tenant engInline route (keyByHandle s l.keyA e) (fun h => keyByHandle s h e)
    let s := if lk.status = 0x0601 then bump s (odKey 0x5053 o.att.part) else s
    let o := { o with waits := lk.waits }
    let word := (lk.route.join).getD 0
    if lk.status ≠ 0 then
      fixLine s i n { o with look := { status := lk.status, route := word } } { status := lk.status, due := s.now }
    else
      let (drawn, s) := if lineDraws l route.join o.att.matrix then draw s (laneBay o.lane) 8 else (none, s)
      let (id, s) := freshArea s
      let s := modMem s (laneBay o.lane) (o.lane % 4) (fun m => { m with key := .ofOp l.op id })
      setLaneOp s i n (some { o with stage := .looked
                                     look := { route := word, keyA := lk.keyA, keyB := lk.keyB, drawn := drawn } })

/-- The result line of a packed operation reaches the hub once its reservations are durable (R149). -/
def lineResult (s : State) (i n : Nat) : State :=
  match (getSlot (getInst s i) n).op with
  | some o =>
    match o.outcome with
    | some oc => if o.stage = .packed ∧ o.waits = [] ∧ oc.due ≤ s.now ∧ bayClockRuns s (laneBay o.lane) then endLine s i n o oc.status oc.out else s
    | none => s
  | none => s

/-- Island of the lane that holds a slot's operation, where one does. -/
def laneIsland (s : State) (i n : Nat) : List Nat := ((getSlot (getInst s i) n).op.map (fun o => 5 + laneBay o.lane)).toList

/-- Every line of an instance that a lane holds ends with a status. -/
def endLines (s : State) (i st : Nat) : State :=
  each (getInst s i).slots s (fun s e => match e.2.op with
    | some o => endLine s i e.1 { o with look := {} } st []
    | none => s)

/-! ## Meanings -/

/-- INLINE_REQUEST_WRITE (R59, R73, R85). -/
def execInlineRequestWrite (arr t : Nat) (ld : LdNo) (i : InstNo) (slot : BitVec 10) (line : Bytes) (s : State) : Result :=
  .next (ldAccess (at_ s t) (.inlineRequestWrite arr t ld i slot line) ld.toNat i.toNat (0x10000 + 128 * slot.toNat) false 0
    (fun s => requestWrite s ld.toNat i.toNat slot.toNat arr line))

/-- INLINE_RESULT_READ (R73, R75, R76). -/
def execInlineResultRead (t : Nat) (ld : LdNo) (i : InstNo) (slot : BitVec 10) (tag : BitVec 16) (s : State) : Result :=
  .next (ldAccess (at_ s t) (.inlineResultRead t ld i slot tag) ld.toNat i.toNat (0x10000 + 128 * slot.toNat + 64) true tag.toNat
    (fun s => resultRead s ld.toNat i.toNat slot.toNat tag.toNat))

/-- INLINE_DROPPED_WRITE (R74). -/
def execInlineDroppedWrite (t : Nat) (ld : LdNo) (i : InstNo) (slot : BitVec 10) (kind : InlineDrop) (off : BitVec 7)
    (s : State) : Result :=
  .next (ldAccess (at_ s t) (.inlineDroppedWrite t ld i slot kind off) ld.toNat i.toNat (0x10000 + 128 * slot.toNat + off.toNat) false 0
    (fun s => droppedWrite s ld.toNat i.toNat slot.toNat kind off.toNat))

/-- INLINE_IDLE_HOLD_EXPIRY (R76). -/
def execInlineIdleHoldExpiry (t : Nat) (i : InstNo) (slot : BitVec 10) (s : State) : Result :=
  .next (clocked (at_ s t) [islHub] (fun s => idleExpiry s i.toNat slot.toNat))

/-- INLINE_LOOKUP: the lane's lookup crosses to the hub (R22, R197, R85). -/
def execInlineLookup (t : Nat) (i : InstNo) (slot : BitVec 10) (s : State) : Result :=
  .next (crossing (at_ s t) (laneIsland s i.toNat slot.toNat) [islHub] (.inlineLookup t i slot) (fun s => lookupLine s i.toNat slot.toNat))

/-- INLINE_RESULT_WRITE: the lane's line crosses to the hub (R22, R87, R90). -/
def execInlineResultWrite (t : Nat) (i : InstNo) (slot : BitVec 10) (s : State) : Result :=
  .next (crossing (at_ s t) (laneIsland s i.toNat slot.toNat) [islHub] (.inlineResultWrite t i slot) (fun s => lineResult s i.toNat slot.toNat))

end Sys2Proof.Machine
end

