-- ==== Sys2Proof/Machine/Instances.lean ====
section
/-! DEFINITION. Instance resets, freezes and the clean state of an instance (R106, R300 to R315, R323). -/

namespace Sys2Proof.Machine

open Sys2Proof

/-! ## Outstanding work (R312, R313, R315) -/

/-- Slots of an instance that are PENDING. -/
def pendingSlots (x : Inst) : List Nat := (x.slots.filter (fun e => e.2.st == .pending)).map (·.1)

/-- No operation is outstanding: no owned ring entry, hence no DMA, and no PENDING slot. -/
def quiet (x : Inst) : Bool := x.ops.isEmpty && (pendingSlots x).isEmpty

/-- Bounds of the classes, ns (R42). -/
def classBound : DClass → Nat
  | .inlineC => 210
  | .express => 100000
  | .standard => 1000000
  | .bulk => 20000000

/-- End of the class bound of a ring operation. -/
def opBoundEnd (s : State) (i : Nat) (o : RingOp) : Nat :=
  o.arr + classBound (if o.stage = .covered then (opPlan s i o).cls else o.plan.cls)

/-- The drain deadline E (R312). -/
def drainDeadline (s : State) (i : Nat) : Nat :=
  let x := getInst s i
  let ring := x.ops.foldl (fun m o => max m (opBoundEnd s i o)) s.now
  x.slots.foldl (fun m e => match e.2.op with
    | some o => max m (o.arr + 210)
    | none => m) ring

/-! ## Resets (R309 to R313) -/

/-- Every outstanding operation of an instance ends with 0x0702 (R311, R94). -/
def squashAll (s : State) (i : Nat) : State :=
  let s := each ((getInst s i).ops.filter (fun o => o.stage == .covered)) s (fun s o => endCovered s i o 0x0702)
  endLines (endAdmitted s i 0x0702) i 0x0702

/-- Held reads on IDLE slots are answered at once (R311). -/
def answerIdle (s : State) (i : Nat) : State :=
  each (getInst s i).slots s (fun s e =>
    if e.2.st = .idle ∧ e.2.held.isSome then
      modInst (answerHeld s e.2.held idleLine) i (fun x => setSlot x e.1 { e.2 with held := none })
    else s)

/-- A reset request arrives at the hub (R309 to R311). -/
def requestReset (s : State) (i : Nat) (squash : Bool) : State :=
  let x := getInst s i
  if x.st = 0 ∨ x.st = 5 then s
  else match x.reset with
    | some r =>
      if squash && !r.squash then
        squashAll (modInst s i (fun x => { x with reset := some { r with squash := true, didSquash := true } })) i
      else s
    | none =>
      let r : Reset := { squash := squash, arr := s.now, deadline := drainDeadline s i, didSquash := squash
                         toFrozen := decide (x.st = 3) || decide (x.st = 4) }
      let s := answerIdle (modInst s i (fun x => { x with st := 2, reset := some r })) i
      if squash then squashAll s i else s

/-- An operation of a drain still outstanding at E is squashed (R312). -/
def drainOver (s : State) (i : Nat) : State :=
  let x := getInst s i
  match x.reset with
  | some r =>
    if r.squash = false ∧ r.deadline ≤ s.now ∧ quiet x = false then
      squashAll (modInst s i (fun x => { x with reset := some { r with didSquash := true } })) i
    else s
  | none => s

/-- A re-formed ring with zeroed staging pages (R100, R106). -/
def reformRing (x : Inst) : Inst := { x with s := 0, h := 0, ring := [], ops := [], staging := [] }

/-- What a reset report leaves of the area (R313 steps 1 to 4). -/
def cleanInst (x : Inst) : Inst := { reformRing x with slots := [], leaving := [], caps := [], capCount := 0, deficit := 0 }

/-- A reset is reported once nothing is outstanding (R313). -/
def reportReset (s : State) (i : Nat) : State :=
  let x := getInst s i
  match x.reset with
  | some r =>
    if quiet x then
      let s := modInst s i (fun x =>
        { cleanInst x with
          st := if r.toFrozen then 4 else 1
          freezeDone := x.freezeDone || r.toFrozen
          lastSquash := r.didSquash, resetDone := true, reset := none })
      sendMsix (bump s (instKey i 0x71)) (instLd s.ctl.cfg i) (ringVector s.ctl.cfg i)
    else s
  | none => s

/-- Squash of every instance bound to an LD (R309, R449). -/
def squashLd (s : State) (ld : Nat) : State :=
  each (s.insts.map (·.1)) s (fun s i => if instLd s.ctl.cfg i = ld then requestReset s i true else s)

/-! ## Freezes (R314, R315) -/

/-- A joint's write of Freeze at its cut; a freeze during a reset takes effect at its report (R310). -/
def writeFreeze (s : State) (i v : Nat) : State :=
  let x := getInst s i
  if v = 1 then
    if x.st = 1 then modInst s i (fun x => { x with st := 3 })
    else if x.st = 2 then modInst s i (fun x => { x with reset := x.reset.map (fun r => { r with toFrozen := true }) })
    else s
  else if x.st = 3 ∨ x.st = 4 then modInst s i (fun x => { x with st := 1 })
  else s

/-- The last outstanding work of a freeze has ended (R315). -/
def freezeDone (s : State) (i : Nat) : State :=
  let x := getInst s i
  if x.st = 3 ∧ quiet x then
    sendMsix (modInst s i (fun x => { x with st := 4, freezeDone := true })) (instLd s.ctl.cfg i) (ringVector s.ctl.cfg i)
  else s

/-! ## Meanings -/

/-- RESET_DRAIN: the request crosses to the hub (R22, R309 to R312). -/
def execResetDrain (t : Nat) (i : InstNo) (s : State) : Result :=
  .next (settle (crossing (at_ s t) [] [islHub] (.resetDrain t i) (fun s => requestReset s i.toNat false)))

/-- RESET_SQUASH (R22, R309 to R311). -/
def execResetSquash (t : Nat) (i : InstNo) (s : State) : Result :=
  .next (settle (crossing (at_ s t) [] [islHub] (.resetSquash t i) (fun s => requestReset s i.toNat true)))

/-- RESET_DRAIN_DEADLINE (R312). -/
def execResetDrainDeadline (t : Nat) (i : InstNo) (s : State) : Result := .next (clocked (at_ s t) [islHub] (fun s => drainOver s i.toNat))

/-- RESET_REPORT (R313). -/
def execResetReport (t : Nat) (i : InstNo) (s : State) : Result := .next (settle (clocked (at_ s t) [islHub] (fun s => reportReset s i.toNat)))

/-- FREEZE_COMPLETE (R315). -/
def execFreezeComplete (t : Nat) (i : InstNo) (s : State) : Result := .next (settle (clocked (at_ s t) [islHub] (fun s => freezeDone s i.toNat)))

end Sys2Proof.Machine
end

