-- ==== Sys2Proof/Machine/Port.lean ====
section
/-! DEFINITION. The register page, doorbells, ring and staging writes, and other CXL.mem accesses (R98 to R108, R299, R304,
R305, R447). -/

namespace Sys2Proof.Machine

open Sys2Proof

/-! ## Doorbells (R104, R105) -/

/-- S − H modulo 65,536: k of R104. -/
def owned (x : Inst) : Nat := (x.s + 65536 - x.h % 65536) % 65536

/-- A ring-side write that is dropped: counted in RingWriteErrors and captured (R104, R107, R108). -/
def ringDrop (s : State) (i k value ld off : Nat) (poison : Bool) : State :=
  capture (bump s (instKey i 0x16)) i k value ld off false poison

/-- The descriptors that a doorbell covers, snapped in count order (R105). -/
def coverOps (s : State) (i arr : Nat) (from_ n : Nat) : List RingOp :=
  (upTo n).map (fun k =>
    let c := (from_ + k) % 65536
    { count := c, snap := ringEntry s i c, arr := arr, round := arr / 100 })

/-- A doorbell at the hub (R104 to R106). -/
def doorbellAt (s : State) (ld i arr tail : Nat) (full poison : Bool) : State :=
  let x := getInst s i
  let n := (tail + 65536 - x.s % 65536) % 65536
  if reaches s ld i = false then s
  else if x.st = 2 ∨ x.st = 5 then s
  else if ringEntries s.ctl.cfg i = 0 ∨ full = false ∨ poison ∨ (n ≠ 0 ∧ ringEntries s.ctl.cfg i < owned x + n) then
    ringDrop s i 3 tail ld 0x100 poison
  else
    let new := coverOps s i arr x.s n
    modInst s i (fun x => { x with s := tail, ops := x.ops ++ new })

/-! ## Ring and staging writes (R107, R108) -/

/-- Entries that the device owns. -/
def entryOwned (x : Inst) (n j : Nat) : Bool := x.ops.any (fun o => o.count % max n 1 == j)

def entryWrite (s : State) (ld i j : Nat) (data : Bytes) (full poison : Bool) : State :=
  let off := 0x40000 + 64 * j
  if reaches s ld i = false then s
  else if backed s i off false = false then unbacked s ld i off false poison 0
  else if full = false ∨ poison ∨ entryOwned (getInst s i) (ringEntries s.ctl.cfg i) j then ringDrop s i 4 j ld off poison
  else modInst (noteWriter (writeWords s memRing (ringWord i j) 8) memRing (ringWord i j) 8 islLink) i (fun x => { x with ring := mset [] x.ring j (Bytes.fit 64 data) })

/-- Pages that the device owns: those of every covered entry whose snapshot is not stale (R108). -/
def ownedPages (s : State) (i : Nat) : List Nat :=
  let x := getInst s i
  let n := ringEntries s.ctl.cfg i
  x.ops.flatMap (fun o =>
    if Bytes.fieldLE o.snap 0 1 / 64 ≠ 2 * phaseOf n o.count then []
    else pagesOf (inRegion o.snap) ++ pagesOf (outRegion o.snap (kumHead x o.snap).1))

/-- First enabled byte of a line write, or the first byte where none is. -/
def firstByte (en : Nat) : Nat := ((upTo 64).find? (bitOf en)).getD 0

/-- The words of a line in which some byte is enabled: those take the code of the flit's words (R26, R27). -/
def writeLineWords (s : State) (w en : Nat) : State :=
  each (upTo 8) s (fun s j =>
    if bits en (8 * j) 8 = 0 then s else noteWriter (writeWords s memStaging (w + j) 1) memStaging (w + j) 1 islLink)

/-- The enabled bytes of a line written. -/
def writeEnabled (m : List Host.Cell) (a en : Nat) (data : Bytes) : List Host.Cell :=
  (upTo 64).foldl (fun m k => if bitOf en k then Memory.write m (a + k) (Bytes.at' data k) else m) m

def stagingWrite (s : State) (ld i off : Nat) (data : Bytes) (en : Nat) (poison : Bool) : State :=
  let line := off / 64 * 64
  let at_ := 0x60000 + line + firstByte en
  if reaches s ld i = false then s
  else if backed s i (0x60000 + line) false = false then unbacked s ld i at_ false poison 0
  else if poison ∨ (ownedPages s i).contains (line / 4096) then ringDrop s i 5 (line / 4096) ld at_ poison
  else modInst (writeLineWords s (stagingWord i line) en) i (fun x => { x with staging := writeEnabled x.staging line en data })

/-! ## The register page (R304) -/

/-- Offset and width of the registers. -/
def pageRegs : List (Nat × Nat) :=
  [(0x000, 4), (0x008, 4), (0x00C, 4), (0x010, 8), (0x018, 8), (0x020, 4), (0x028, 4), (0x02C, 4), (0x030, 4)] ++
  [(0x100, 4), (0x104, 4), (0x108, 4), (0x10C, 4), (0x1F0, 4), (0x1F4, 4)] ++ (upTo 8).map (fun k => (0x200 + 16 * k, 16))

/-- The register that an offset falls in. -/
def regAt (off : Nat) : Option Nat := (pageRegs.find? (fun r => decide (r.1 ≤ off) && decide (off < r.1 + r.2))).map (·.1)

/-- VALID of IPG_ERRCAP_VALID. -/
def capValid (x : Inst) : Nat := x.caps.foldl (fun a e => a + 2 ^ e.1) 0

def capWord (x : Inst) (k : Nat) : Nat :=
  match mfind x.caps k with
  | some c => c.value * 2 ^ 96 + c.ld * 2 ^ 85 + bit c.poison * 2 ^ 84 + bit c.isRead * 2 ^ 83 + c.off * 2 ^ 64 + c.time
  | none => 0

/-- IPG_MODES (R304). -/
def pageModes (s : State) (i : Nat) : Nat := modesNow s % 128 - 8 * bit (freezeInForce s) + 8 * bit (frozen (getInst s i))

/-- IPG_STATUS. -/
def pageStatus (x : Inst) : Nat := x.st + 8 * bit x.resetDone + 16 * bit x.lastSquash + 32 * bit x.freezeDone

def log2 (n : Nat) : Nat := ((upTo 12).find? (fun k => 2 ^ k == n)).getD 0

/-- The value that a register of the page reads as (R103, R304). -/
def pageRead (s : State) (i off : Nat) : Nat :=
  let c := s.ctl.cfg
  let x := refilled c i s.now (getInst s i)
  match off with
  | 0x000 => instLd c i % 64 * 2 ^ 24 + instTenant c i % 4096 * 2 ^ 12 + i
  | 0x008 => pageStatus x
  | 0x00C => match x.reset with
    | some r => if r.squash then 2 else 1
    | none => 0
  | 0x010 => s.ctl.epoch
  | 0x018 => s.now
  | 0x020 => pageModes s i
  | 0x028 => (x.sub / oneToken).toNat
  | 0x02C => ((x.core / 1000) % (2 ^ 32)).toNat
  | 0x030 => counter s (instKey i 0x67) % 2 ^ 32
  | 0x100 => x.s
  | 0x104 => x.h + 2 ^ 16 * x.ops.length
  | 0x108 => stagingPages c i * 2 ^ 16 + phaseOf (ringEntries c i) x.s * 16 + log2 (ringEntries c i)
  | 0x10C => idleHold c i * 2 ^ 16 + inlineSlots c i
  | 0x1F0 => capValid x
  | 0x1F4 => x.capCount
  | _ => if 0x200 ≤ off ∧ off < 0x280 then capWord x ((off - 0x200) / 16) else 0

/-- IPG_ERRCAP_VALID: write 1 to clear; COUNT starts again when VALID becomes all zero. -/
def clearCaps (x : Inst) (v : Nat) : Inst :=
  let caps := x.caps.filter (fun e => !bitOf v e.1)
  { x with caps := caps, capCount := if caps.isEmpty && !x.caps.isEmpty then 0 else x.capCount }

def regWrite (s : State) (i r v : Nat) : State :=
  match r with
  | 0x008 => modInst s i (fun x => { x with resetDone := x.resetDone && !bitOf v 3, freezeDone := x.freezeDone && !bitOf v 5 })
  | 0x00C => if bitOf v 1 then requestReset s i true else if bitOf v 0 then requestReset s i false else s
  | 0x1F0 => modInst s i (fun x => clearCaps x v)
  | _ => s

/-- A write to the register page. -/
def pageWrite (s : State) (ld i off v : Nat) (full poison : Bool) : State :=
  if reaches s ld i = false then s
  else match regAt off with
    | none => s
    | some r =>
      if r = 0x100 then doorbellAt s ld i s.now (v % 65536) full poison
      else if full = false ∨ poison then capture s i 7 0xFFFF ld off false poison
      else regWrite s i r v

/-! ## Other accesses -/

/-- The 64 bytes of a line of the register page. -/
def pageLine (s : State) (i line : Nat) : Bytes :=
  (upTo 64).map (fun k => match pageRegs.find? (fun r => decide (r.1 ≤ line + k) && decide (line + k < r.1 + r.2)) with
    | some r => Bytes.at' (Bytes.ofNatLE r.2 (pageRead s i r.1)) (line + k - r.1)
    | none => 0)

/-- A read of a backed line other than a result line: register page, request line (the line accepted last, or zeros: R73), ring entry,
staging page. -/
def lineRead (s : State) (ld i off tag : Nat) : State :=
  let line := off / 64 * 64
  if line < 0x1000 then answerRead s ld tag (pageLine s i line)
  else if line < 0x30000 then
    let n := (line - 0x10000) / 128
    if line % 128 = 64 then resultRead s ld i n tag
    else answerLine s ld tag memInline (inlineWord i n) (Bytes.fit 64 (getSlot (getInst s i) n).req)
  else if line < 0x60000 then
    let j := (line - 0x40000) / 64
    answerLine s ld tag memRing (ringWord i j) (Bytes.fit 64 (mget [] (getInst s i).ring j))
  else answerLine s ld tag memStaging (stagingWord i (line - 0x60000)) (Memory.readN (getInst s i).staging (line - 0x60000) 64)

/-- An access to an offset that no backed part holds (R299); a read that a backed part holds is answered with its line. -/
def unbackedAt (s : State) (ld i off : Nat) (isRead poison : Bool) (tag : Nat) : State :=
  if serving s = false then unbacked s ld i off isRead poison tag
  else if reaches s ld i = false then s
  else if backed s i off isRead then (if isRead then lineRead s ld i off tag else s)
  else unbacked s ld i off isRead poison tag

/-- A write of an LD to the area of an instance, under the access check (R422). No row of the table gives a write a tag (log entry
250). -/
def areaWrite (s : State) (c : Instr) (ld : LdNo) (i : InstNo) (off : Nat) (f : State → State) : State :=
  ldAccess s c ld.toNat i.toNat off false 0 f

/-- The instance that an LD's access at a DPA meets (R298). -/
def instAt (s : State) (ld dpa : Nat) : Option Nat :=
  ((s.insts.map (·.1)).find? (fun i => bound s ld i && instArea s.ctl.cfg i == dpa / 0x80000))

/-- Address with which a denied access at a DPA is captured: of the instance's area, or the DPA itself (R422). -/
def deniedAddr (s : State) (ld dpa : Nat) : Nat :=
  match instAt s ld dpa with
  | some i => areaAddr i (dpa % 0x80000 / 64 * 64)
  | none => dpa / 64 * 64

/-- MemInv: completed at once; without the IDE stream that its head requires it is denied first (R447, R460). -/
def memInvAt (s : State) (c : Instr) (ld dpa tag : Nat) : State :=
  if islandRuns s islLink = false then stall s c
  else if headUp s (ld / 16) = false then s
  else if serving s && decoded s ld && ideLacking s ld then violation (answerDone s ld tag) 0x100 ld 64 (deniedAddr s ld dpa) false
  else answerDone s ld tag

/-! ## Meanings -/

/-- DOORBELL (R104, R105). -/
def execDoorbell (arr t : Nat) (ld : LdNo) (i : InstNo) (tail : BitVec 16) (full poison : Bool) (s : State) : Result :=
  .next (areaWrite (at_ s t) (.doorbell arr t ld i tail full poison) ld i 0x100
    (fun s => doorbellAt s ld.toNat i.toNat arr tail.toNat full poison))

/-- RING_ENTRY_WRITE (R107). -/
def execRingEntryWrite (t : Nat) (ld : LdNo) (i : InstNo) (entry : BitVec 11) (data : Bytes) (full poison : Bool) (s : State) :
    Result :=
  .next (areaWrite (at_ s t) (.ringEntryWrite t ld i entry data full poison) ld i (0x40000 + 64 * entry.toNat)
    (fun s => entryWrite s ld.toNat i.toNat entry.toNat data full poison))

/-- STAGING_PAGE_WRITE (R108). -/
def execStagingPageWrite (t : Nat) (ld : LdNo) (i : InstNo) (off : BitVec 17) (data : Bytes) (enables : BitVec 64)
    (poison : Bool) (s : State) : Result :=
  .next (areaWrite (at_ s t) (.stagingPageWrite t ld i off data enables poison) ld i (0x60000 + off.toNat)
    (fun s => stagingWrite s ld.toNat i.toNat off.toNat data enables.toNat poison))

/-- UNBACKED_ACCESS (R69, R98, R299). -/
def execUnbackedAccess (t : Nat) (ld : LdNo) (i : InstNo) (off : BitVec 19) (isRead poison : Bool) (tag : BitVec 16)
    (s : State) : Result :=
  .next (ldAccess (at_ s t) (.unbackedAccess t ld i off isRead poison tag) ld.toNat i.toNat off.toNat isRead tag.toNat
    (fun s => unbackedAt s ld.toNat i.toNat off.toNat isRead poison tag.toNat))

/-- MEM_SPEC_RD: accepted and discarded (R447). -/
def execMemSpecRd (t : Nat) (_ld : LdNo) (_dpa : BitVec 27) (s : State) : Result := .next (at_ s t)

/-- MEM_INV (R447, R460). -/
def execMemInv (t : Nat) (ld : LdNo) (dpa : BitVec 27) (tag : BitVec 16) (s : State) : Result :=
  .next (memInvAt (at_ s t) (.memInv t ld dpa tag) ld.toNat dpa.toNat tag.toNat)

/-- REGISTER_WRITE (R104, R304, R305, R309). -/
def execRegisterWrite (t : Nat) (ld : LdNo) (i : InstNo) (off : BitVec 12) (value : Nat) (full poison : Bool) (s : State) :
    Result :=
  .next (settle (areaWrite (at_ s t) (.registerWrite t ld i off value full poison) ld i off.toNat
    (fun s => pageWrite s ld.toNat i.toNat off.toNat value full poison)))

end Sys2Proof.Machine
end

