-- ==== Sys2Proof/Machine/BayTests.lean ====
section
/-! DEFINITION. Admission rounds, the frames of the bays, their built-in tests, and bays leaving service and returning (R17,
R47, R51, R60 to R62, R65, R66, R89, R159, R230, R234, R235, R259). -/

namespace Sys2Proof.Machine

open Sys2Proof

/-! ## Admission rounds (R51) -/

/-- Every round that has ended by now is decided, in order. -/
def roundsEnd (s : State) : State := each (dueRounds s (s.now / 100)) s admitRound

/-! ## Bay frames (R60) -/

/-- Longest test of an engine of a bay, ns (R61). -/
def testCap (b : Nat) : Nat := if isInlineBay b then 4000 else 40000

/-- Part of the time from `a` to `z` that a test begun at `since` takes. -/
def testOverlap (b since a z : Nat) : Nat := min z (since + testCap b) - max a since

/-- Length of a bay frame: 2,000 ns, and with a lag the background slice given up. -/
def bayFrameLen (lag : Nat) : Nat := if lag = 0 then 2000 else max 1800 (2000 - lag)

/-- Engine time that reactive tests take from a bay frame. -/
def reactiveTime (s : State) (b a z : Nat) : Nat :=
  let x := getBay s b
  x.gone + (match x.test with
    | some t => if t.reactive then testOverlap b t.since a z else 0
    | none => 0)

/-- Engine time that an ML-DSA signature past its booking takes of a bay frame: all of it while it signs, and to the end of its
verifying segment then (R63). -/
def overrun (o : RingOp) (start len : Nat) : Nat :=
  match o.outcome with
  | some oc => min len (oc.due - start)
  | none => len

/-- Engine time of bay frame `f` that signatures of the bay which have outlasted their bookings take (R63). -/
def overrunning (s : State) (b f start len : Nat) : Nat :=
  (s.insts.map (fun e => ((e.2.ops.filter (fun o =>
    o.bay == b && o.stage == .running && dOp o.snap == 0x6A && decide (o.start + o.plan.charge.length ≤ f))).map
      (fun o => overrun o start len)).foldl (· + ·) 0)).foldl (· + ·) 0

/-- The lag with which bay frame `f + 1` starts, where bay frame `f` started with `lag` and held `booked` core-ns of work: it grows by
the shortfall over the engines that work, and a lagging bay's shorter frames recover it (R60). -/
def lagAfter (s : State) (b f lag booked : Nat) : Nat :=
  let len := bayFrameLen lag
  let start := 2000 * f + lag
  let r := reactiveTime s b start (start + len)
  let e := enginesInService s b
  let avail := e * len - r - overrunning s b f start len
  lag + len - 2000 + ceilDiv (booked - avail) (max 1 (e - bit (decide (0 < r))))

/-- Bay frame `f` ends. -/
def endBayFrame (s : State) (b f booked : Nat) : State :=
  let lag := lagAfter s b f (getBay s b).lag booked
  modBay s b (fun x => { x with frame := f + 1, lag := lag, past := x.past.drop 1, gone := 0 })

/-- Bay frames run: the bay is not out and its clock runs. -/
def framesRun (s : State) (b : Nat) : Bool := (getBay s b).st != 2 && bayClockRuns s b

/-- A device frame ends: without a lag the bay frame ends with it; a lagging bay keeps what was booked in it for its own frame. -/
def deviceFrame (s : State) (f b : Nat) : State :=
  let x := getBay s b
  let booked := bookTime (bookEntry s b f)
  if framesRun s b = false ∨ f < x.frame then s
  else if x.lag = 0 then endBayFrame s b f booked
  else modBay s b (fun x => { x with past := x.past ++ [booked] })

/-- BAY_FRAME_END: bay frame `f` of a lagging bay ends on the bay's own count. -/
def bayFrame (s : State) (b f : Nat) : State :=
  let x := getBay s b
  if framesRun s b ∧ x.lag ≠ 0 ∧ x.frame = f ∧ 2000 * f + x.lag + bayFrameLen x.lag ≤ s.now then
    endBayFrame s b f (x.past.head?.getD (bookTime (bookEntry s b f)))
  else s

/-! ## Closing and leaving (R17, R65) -/

/-- The device frame that the entry of a book at an index describes: the first from the frame that runs on (R46). -/
def entryFrame (s : State) (k : Nat) : Nat :=
  let n := s.sched.frameEnded
  n + (k + 10240 - n % 10240) % 10240

/-- No frame from the present one on holds a booking of the bay. -/
def bookingsPassed (s : State) (b : Nat) : Bool :=
  (getBay s b).book.all (fun e => bookTime e.2 == 0 || decide (entryFrame s e.1 < s.now / 2000))

/-- Every entry without a booking is CLOSED. -/
def closeEntries (s : State) (b f : Nat) : State :=
  each (upTo 10240) s (fun s j =>
    let e := bookEntry s b (f + j)
    if bookTime e = 0 ∧ bookClosed e = false then setBook s b (f + j) (e + 65536) else s)

/-- A bay begins closing (R65); a bay that is closing or out stays so, and before step 7 of a start no bay runs. DESIGN CHOICE (log entry
260): a test of one engine that is booked in it and has not begun is given up; its frames stay booked until they pass. -/
def closeBay (s : State) (b : Nat) (why : BayOut) : State :=
  if (getBay s b).st ≠ 0 ∨ s.power.step < 8 then s
  else modBay (closeEntries s b (s.now / 2000)) b (fun x => { x with st := 1, why := why, testBook := none })

/-- Operations that a bay has admitted: booked or running in it, or in one of its lanes. -/
def bayBusy (s : State) (b : Nat) : Bool :=
  s.insts.any (fun e =>
    e.2.ops.any (fun o => o.bay == b && (o.stage == .booked || o.stage == .running))
      || e.2.slots.any (fun sl => match sl.2.op with | some o => laneBay o.lane == b | none => false))

/-- A DRBG and its reserve as they are without a seed (R247, R259). -/
def freshDrbg : Drbg := {}

/-- A BNC enters TEST (R235): a tenant's memory is zeroed first, and then the whole holds test content. -/
def enterTest (s : State) (b k : Nat) : State :=
  let s := match (mget {} (getBay s b).mem k).owner with
    | .tenant _ => wipeBnc s b k .test
    | _ => clearMem s b k .test
  let (id, s) := freshArea s
  modMem s b k (fun m => { m with key := .test id, work := .test id, io := .test id })

/-- Test, recovery or update of a BNC ends: its content stays, and nobody owns it (R235). -/
def leaveTest (s : State) (b k : Nat) : State := modMem s b k (fun m => { m with owner := .nobody })

/-- Every BNC of a bay enters TEST: at the bay's recovery, test or microcode update. -/
def testMemories (s : State) (b : Nat) : State := if isBncBay b then each (upTo 8) s (fun s k => enterTest s b k) else s

/-- A closing bay whose last booked frame has passed and whose work has completed leaves (R65): its reserve is zeroed and its
DRBG uninstantiated (R259). One that nothing but a past fault of its clock took out asks for its seed at once. -/
def leaveBay (s : State) (b : Nat) : State :=
  let x := getBay s b
  if x.st = 1 ∧ bookingsPassed s b ∧ bayBusy s b = false ∧ x.test = none then
    let s := testMemories (modBay s b (fun x => { x with st := 2, drbg := freshDrbg })) b
    if x.why = .fault ∧ bayClockRuns s b then requestSeed s 1 (.inst b) 3 else s
  else s

/-- Firmware parts that a bay runs, as a mask (R407). -/
def bayParts (b : Nat) : Nat := if isBncBay b then 2 ^ 3 + 2 ^ 6 else if isCipherBay b then 2 ^ 4 else 2 ^ 5

/-- An activation names a part of the bay. -/
def bayNamed (s : State) (b : Nat) : Bool := Nat.land s.fw.mask (bayParts b) != 0

/-- What holds a bay out: a failed test to the next start (R258), its new image not loaded yet, its part in its write phase
(R412), a stopped clock (R22). -/
def bayHeld (s : State) (b : Nat) : Bool :=
  let x := getBay s b
  x.why == .katFailed || x.why == .kat || (x.why == .update && !bitOf s.fw.baysSwapped b)
    || (s.fw.markPhase == 1 && bayNamed s b) || bayClockRuns s b == false

/-- A bay returns with an empty book, once its DRBG has its seed and its reserve is full; while the conditioner is stopped it
returns without them (R65, R259). -/
def returnBay (s : State) (b : Nat) : State :=
  let x := getBay s b
  if x.st = 2 ∧ 1 ≤ s.power.step ∧ bayHeld s b = false ∧ ((x.drbg.inst ∧ x.drbg.reserve.length = 8192) ∨ s.random.stopped) then
    let s := modBay s b (fun x => { x with st := 0, why := .inService, book := [], lag := 0, frame := s.now / 2000, past := [], gone := 0 })
    -- a bay that returns without a seeded DRBG or a full reserve leaves SEEDING (a) to come (R252, R259)
    let s := if x.drbg.inst ∧ x.drbg.reserve.length = 8192 then s else { s with random := { s.random with awaiting := s.random.on } }
    if isBncBay b then each (upTo 8) s (fun s k => leaveTest s b k) else s
  else s

/-- A bay made ready to return asks for its seed at priority 1 (R246, R258, R259). -/
def readyBay (s : State) (b : Nat) : State :=
  requestSeed (modBay s b (fun x => { x with why := .fault })) 1 (.inst b) 3

/-! ## Single-engine tests (R61, R62, R89, R159) -/

/-- Frames of a test: 40 µs on an engine, 4 µs on a lane. -/
def testFrames (b : Nat) : Nat := if isInlineBay b then 2 else 20

/-- Engine k of a bay has no work: no segment, and a lane no accepted operation. -/
def engineIdle (s : State) (b k : Nat) : Bool :=
  if isInlineBay b then
    !s.insts.any (fun e => e.2.slots.any (fun sl => match sl.2.op with | some o => o.lane == 4 * (b - 24) + k | none => false))
  else !(busyEngines s b).contains k

/-- No test may begin on an engine out of service, at work, or beside another test of its bay. -/
def testable (s : State) (b k : Nat) : Bool :=
  let x := getBay s b
  x.st == 0 && x.test == none && engineUp b x k && engineIdle s b k && bayClockRuns s b

/-- The test's frames have room against the full engine time (R47, R62). -/
def testFits (s : State) (b f : Nat) : Bool :=
  (upTo (testFrames b)).all (fun j =>
    let e := bookEntry s b (f + j)
    !bookClosed e && !bookTest e && decide (bookTime e + 2000 ≤ enginesInService s b * 2000))

/-- Period of the single-engine tests: 10 s on cipher engines and lanes (R159), and the same on BNCs (DESIGN CHOICE, log entry 199: no
rule gives theirs). -/
def testPeriod : Nat := 10 ^ 10

/-- Device time of an engine's last test. -/
def lastTested (s : State) (b k : Nat) : Nat := mget 0 (getBay s b).tested k

/-- The engine of a bay whose periodic test is due and was longest ago. -/
def dueEngine (s : State) (b : Nat) : Option Nat :=
  let x := getBay s b
  let due := (upTo (engineCount b)).filter (fun k => engineUp b x k && !x.testQueue.contains k && decide (lastTested s b k + testPeriod ≤ s.now))
  due.foldl (fun best k => match best with
    | some m => if lastTested s b k < lastTested s b m then some k else best
    | none => some k) none

/-- A due test of a bay is booked in the earliest frames that have room, with TEST; one whose frames have passed is booked again
(R62). -/
def bookTests (s : State) (b : Nat) : State :=
  let f := s.now / 2000
  let s := match (getBay s b).testBook with
    | some (_, f0) => if f0 + testFrames b ≤ f then modBay s b (fun x => { x with testBook := none }) else s
    | none => s
  let x := getBay s b
  if x.st ≠ 0 ∨ x.test.isSome ∨ x.testBook.isSome ∨ bayClockRuns s b = false then s
  else match dueEngine s b with
    | none => s
    | some k =>
      match (upTo (10239 - testFrames b)).find? (fun j => testFits s b (f + 1 + j)) with
      | none => s
      | some j =>
        let s := each (upTo (testFrames b)) s (fun s n => setBook s b (f + 1 + j + n) (bookEntry s b (f + 1 + j + n) + 2000 + 2 ^ 17))
        modBay s b (fun x => { x with testBook := some (k, f + 1 + j) })

/-- A test begins on an engine: a BNC enters TEST (R235). -/
def beginTest (s : State) (b k : Nat) (reactive : Bool) : State :=
  let s := modBay s b (fun x => { x with test := some { engine := k, reactive := reactive, since := s.now }
                                         testQueue := x.testQueue.filter (· != k) })
  if isBncBay b then enterTest s b k else s

/-- A booked test begins in its TEST frames. -/
def bookedTest (s : State) (b k : Nat) : State :=
  match (getBay s b).testBook with
  | some (e, f) =>
    if e = k ∧ testable s b k ∧ 2000 * f + (getBay s b).lag ≤ s.now ∧ s.now / 2000 < f + testFrames b then
      modBay (beginTest s b k false) b (fun x => { x with testBook := none })
    else s
  | none => s

/-- What calls for a reactive test of an engine: it heads the queue of R230, or the queue is empty and a fault was indicated or its
periodic test has been overdue for 60 s (R61). -/
def reactiveCalled (s : State) (b k : Nat) (fault : Bool) : Bool :=
  match (getBay s b).testQueue with
  | h :: _ => h == k
  | [] => fault || decide (lastTested s b k + testPeriod + 60 * 10 ^ 9 ≤ s.now)

/-- A reactive test begins, only while the bay does not lag. -/
def reactiveTest (s : State) (b k : Nat) (fault : Bool) : State :=
  if testable s b k ∧ (getBay s b).lag = 0 ∧ reactiveCalled s b k fault then beginTest s b k true else s

/-- Start of the bay frame that runs. -/
def bayFrameStart (s : State) (b : Nat) : Nat :=
  let x := getBay s b
  if x.lag = 0 then s.now / 2000 * 2000 else 2000 * x.frame + x.lag

/-- A test ends: a BNC's memory keeps the test content without an owner; a failed engine leaves service (R66, R235). -/
def endTest (s : State) (b k : Nat) (pass : Bool) : State :=
  match (getBay s b).test with
  | some t =>
    if t.engine ≠ k then s
    else
      let took := if t.reactive then testOverlap b t.since (bayFrameStart s b) s.now else 0
      let s := modBay s b (fun x => { x with test := none, tested := mput x.tested k s.now, gone := x.gone + took
                                             failed := if pass then x.failed else putBit x.failed k true })
      let s := if isBncBay b then leaveTest s b k else s
      if pass then s
      else record s 0x6103 (srcBay b) (Bytes.ofNatLE 1 b ++ Bytes.ofNatLE 1 k ++ Bytes.ofNatLE 1 (if t.reactive then 2 else 1))
  | none => s

/-! ## Meanings -/

/-- ADMISSION_ROUND_END (R51). -/
def execAdmissionRoundEnd (t : Nat) (s : State) : Result := .next (clocked (at_ s t) [islHub] roundsEnd)

/-- BAY_FRAME_END (R60). -/
def execBayFrameEnd (t : Nat) (bay : BayNo) (frame : Nat) (s : State) : Result := .next (bayFrame (at_ s t) bay.val frame)

/-- PERIODIC_TEST_START (R62, R159). -/
def execPeriodicTestStart (t : Nat) (bay : BayNo) (engine : BitVec 4) (s : State) : Result :=
  .next (bookedTest (at_ s t) bay.val engine.toNat)

/-- REACTIVE_TEST_START (R61). -/
def execReactiveTestStart (t : Nat) (bay : BayNo) (call : TestCall) (s : State) : Result :=
  .next (reactiveTest (at_ s t) bay.val call.engine.toNat call.fault)

/-- ENGINE_TEST_END (R66, R159). -/
def execEngineTestEnd (t : Nat) (bay : BayNo) (engine : BitVec 4) (pass : Bool) (s : State) : Result :=
  .next (clocked (at_ s t) [5 + bay.val] (fun s => endTest s bay.val engine.toNat pass))

/-- BAY_LEAVE (R17, R65). -/
def execBayLeave (t : Nat) (bay : BayNo) (s : State) : Result := .next (leaveBay (at_ s t) bay.val)

end Sys2Proof.Machine
end

