-- ==== Sys2Proof/Machine/Objects.lean ====
section
/-! DEFINITION. What objects read as: settings from the configuration in force, counters, and views of the state (R325, R333,
R349, R351 and the object tables), with the life-cycle fuses that some of them show (R396, R397). -/

namespace Sys2Proof.Machine

open Sys2Proof

/-! ## Life-cycle fuses (R395 to R397) -/

/-- A group of 6 fuses is present when at least 4 read burnt. -/
def groupBurnt (w lo : Nat) : Bool := decide (4 ≤ popCount 6 (bits w lo 6))

/-- The mark of target state t (1 to 5) in a begin or end word. -/
def markBurnt (w t : Nat) : Bool := groupBurnt w (6 * (t - 1))

def fuseRow (s : State) (r : Nat) : FuseRow := mget {} s.life.rows r

def anyMark (w : Nat) : Bool := (upTo 5).any (fun k => markBurnt w (k + 1))

/-- The row in force: the highest whose begin word holds a mark, row 0 when none does. -/
def rowInForce (s : State) : Nat :=
  (upTo 4).foldl (fun r k => if anyMark (fuseRow s k).beginMark then k else r) 0

/-- Rows above the row in force that hold no mark. -/
def rowsFree (s : State) : Nat :=
  ((upTo 4).filter (fun k => decide (rowInForce s < k) && !anyMark (fuseRow s k).beginMark)).length

/-- Code of a life-cycle state. -/
def lcCode (t : Nat) : Nat :=
  match t with
  | 0 => 0
  | 1 => 0x3F
  | 2 => 0xFFF
  | 3 => 0x3FFFF
  | 4 => 0x1FFFFFF
  | _ => 0xFFFFFFFF

/-- The highest target of a row that satisfies a test, or none. -/
def topTarget (p : Nat → Bool) : Option Nat := (upTo 5).foldl (fun r k => if p (k + 1) then some (k + 1) else r) none

/-- The open transition of a row: begin mark present, end mark absent, highest target. -/
def openTransition (w : FuseRow) : Option Nat := topTarget (fun t => markBurnt w.beginMark t && !markBurnt w.endMark t)

/-- State of the highest end mark, RAW where there is none. -/
def lastEnded (w : FuseRow) : Nat := (topTarget (fun t => markBurnt w.endMark t)).getD 0

/-- The vote of one copy. -/
def copyVote (w : FuseRow) (c : Nat) : Option Nat :=
  match openTransition w with
  | some t =>
    let prev := lcCode (lastEnded w)
    if Nat.land c prev = prev ∧ Nat.land c (lcCode t) = c then some t else none
  | none => (upTo 6).find? (fun t => c == lcCode t)

/-- The vote over the three copies: the state with at least two votes, else SCRAPPED (R397). -/
def lcVote (w : FuseRow) : Nat :=
  let vs := [w.copy1, w.copy2, w.copy3].map (copyVote w)
  ((upTo 6).find? (fun t => decide (2 ≤ (vs.filter (· == some t)).length))).getD 5

/-! ## Pools (R70, R71, R99) -/

/-- What the assigned instances draw. -/
def usedBy (s : State) (f : Nat → Nat) : Nat := ((s.insts.filter (fun e => e.2.st != 0)).map (fun e => f e.1)).foldl (· + ·) 0

def groupsOf16 (n : Nat) : Nat := ceilDiv n 16 * 16

/-- Slots of an instance drawn from the pool: those backed, and the groups of removed slots still PENDING. -/
def slotsDrawn (s : State) (i : Nat) : Nat :=
  let n := groupsOf16 (inlineSlots s.ctl.cfg i)
  let groups := (getInst s i).leaving.foldl (fun (acc : List Nat) k => if acc.contains (k / 16) then acc else acc ++ [k / 16]) []
  n + 16 * (groups.filter (fun g => decide (n ≤ 16 * g))).length

def slotsFree (s : State) : Nat := 65536 - usedBy s (slotsDrawn s)
def entriesFree (s : State) : Nat := 262144 - usedBy s (ringEntries s.ctl.cfg)
def pagesFree (s : State) : Nat := 8192 - usedBy s (stagingPages s.ctl.cfg)

/-! ## Views -/

/-- A channel is healthy: enabled, not excluded, past its start-up test, not captured. -/
def chanHealthy (s : State) (n : Nat) : Bool := s.random.on && (getChan s n).st == 0 && !(getChan s n).testing

def healthyCount (s : State) : Nat := ((upTo 8).filter (chanHealthy s)).length

/-- SeedState (R262). -/
def seedState (s : State) : Nat := if s.random.on && s.random.stopped then 2 else if seedingInForce s || !s.random.on then 0 else 1

/-- DrbgState of a bay (R262). -/
def drbgState (s : State) (b : Nat) : Nat :=
  let d := drbgOf s b
  if d.inst = false then 0 else if reseedLimit s ≤ d.calls then 3 else if d.pending then 2 else 1

/-- MonitorState. -/
def monState (x : Mon) : Nat := if x.testing then 2 else bit x.latched

def partManifest (s : State) (p : Nat) : Bytes := (mfind s.fw.slots p).getD (Config.factoryManifest p)

/-- A number in ASCII decimal. -/
def decimalText (n : Nat) : Bytes := Bytes.ofText (toString n)

/-- FirmwareRelease (R489). -/
def releaseText (s : State) : Bytes :=
  let r := Bytes.fieldLE (partManifest s 1) 8 4
  decimalText (r / 2 ^ 24) ++ Bytes.ofText "." ++ decimalText (r / 2 ^ 16 % 256) ++ Bytes.ofText "." ++ decimalText (r % 2 ^ 16)

def envCapacity : Nat := 1600000

/-- EnvLifeRemainingPermille (R393). -/
def envLife (s : State) : Nat :=
  match s.backup.env with
  | some e => if s.backup.lifeZero then 0 else 1000 * (envCapacity - e.chargeUsed) / envCapacity
  | none => 1000

def windowRemaining (s : State) : Nat :=
  match s.backup.window with
  | some t => ceilDiv (t + 600 * 10 ^ 9 - s.now) (10 ^ 9)
  | none => 0

/-- ACU_CAPTURE as its 16 bytes (R425). -/
def captureBytes (c : Option AcuCap) : Bytes :=
  match c with
  | none => Bytes.zeros 16
  | some c => Bytes.ofNatLE 16 (2 ^ 127 + c.rule * 2 ^ 118 + bit c.isRead * 2 ^ 117 + c.master * 2 ^ 109 + c.len * 2 ^ 96
      + c.addr % 2 ^ 40 * 2 ^ 56 + c.epoch % 65536 * 2 ^ 40)

/-- A Debug Authority key of the ROM is usable: a digest row of OTP holds its SHA-256 and its revocation fuse is unburnt (R405). -/
def debugKeyUsable (s : State) (k : Nat) : Bool :=
  decide (k < 4) && s.life.authorityRows.contains (Sha.sha256 (Config.debugAuthorityKey k)) && !bitOf s.life.authorityRevoked.toNat k

/-- Words of a challenge readable (R404). -/
def challengeReady (s : State) : Bool := match s.life.chal with
  | some c => c.ready
  | none => false

def custodiansEnabled (c : Cfg) : Nat := ((upTo 16).filter (fun k => setting c (0x7010 + k) 2 0 == 1)).length

/-- Computed numeric views by index and subindex; none where the object is a setting, a constant or a counter. -/
def viewCommon (s : State) (index sub : Nat) : Option Nat :=
  match index, sub with
  | 0x1000, 5 => some s.now
  | 0x1100, 1 => some (boolsToNat 4 (fun h => (getHead s h).st == 2))
  | 0x1100, 3 => some s.link.flashMbit
  | 0x1120, 1 => some s.link.sessions.length
  | 0x1130, 1 => some s.link.i3c
  | 0x1130, 2 => some s.link.eid
  | 0x1181, 1 => some s.acu.epoch
  | 0x1181, 3 => some s.acu.count
  | 0x1F00, 1 => some (devCounter s 1)
  | 0x1F00, 2 => some (devCounter s 51)
  | 0x1F00, 3 => some (bit s.ctl.cfgRejected)
  | 0x1F00, 5 => some s.ctl.cutRing.length
  | 0x1F01, 3 => some s.ctl.digestEpoch
  | 0x2800, 0x21 => some s.alarm.executed
  | 0x2800, 0x22 => some (latchedMask s)
  | 0x3001, 1 => some (seedState s)
  | 0x3001, 2 => some (boolsToNat 8 (chanHealthy s))
  | 0x3001, 3 => some s.random.blocks
  | 0x3001, 4 => some s.random.stops
  | 0x3004, 2 => some s.random.katLast
  | 0x3005, 1 => some (s.random.capture.getD 0xFF)
  | 0x4004, 1 => some (modesNow s)
  | 0x4004, 4 => some s.power.shutdown
  | 0x4004, 5 => some s.fw.phase
  | 0x5000, 2 => some ((s.keys.slots.filter (fun e => e.2.key.isSome)).length + s.keys.ext.length)
  | 0x5001, 2 => some (s.keys.cache.filter (fun e => match e.2.body with | .token _ => true | _ => false)).length
  | 0x5001, 3 => some (s.keys.cache.filter (fun e => match e.2.body with | .shelf _ => true | _ => false)).length
  | 0x5010, 2 => some (blocksFree s.routes)
  | 0x5040, 2 => some (slotsFree s)
  | 0x5041, 2 => some (entriesFree s)
  | 0x5042, 2 => some (pagesFree s)
  | 0x6000, 1 => some (bit s.vault.rootAbsent)
  | 0x6000, 2 => some s.vault.keyEra
  | 0x6000, 3 => some (keyClock s)
  | 0x6002, 1 => some s.vault.backed.length
  | 0x6002, 3 => some s.vault.pending.length
  | 0x6020, 2 => some s.vault.journalEpoch
  | 0x6020, 3 => some s.keys.journal.stage.length
  | 0x6020, 7 => some (bit s.keys.journal.rejected)
  | 0x6021, 1 => some s.vault.keyLogEpoch
  | 0x6021, 2 => some (bit s.keys.log.rejected)
  | 0x7000, 2 => some (custodiansEnabled s.ctl.cfg)
  | 0xA000, 1 => some s.life.st
  | 0xA000, 3 => some (bit s.life.pending)
  | 0xA000, 4 => some (rowInForce s)
  | 0xA000, 5 => some (rowsFree s)
  | 0xA000, 6 => some s.life.unburnt
  | 0xA001, 4 => some (if s.life.debug then 2 else bit (challengeReady s))
  | 0xA001, 5 => some s.life.scope
  | 0xA001, 6 => some (boolsToNat 4 (debugKeyUsable s))
  | 0xA001, 7 => some s.life.chalCount
  | 0xA002, 1 => some s.power.step
  | 0xA002, 3 => some s.power.startups
  | 0xB000, 3 => some s.fw.stage
  | 0xB000, 4 => some s.fw.checked
  | 0xB000, 6 => some s.fw.act
  | 0xB000, 7 => some s.fw.baysSwapped
  | 0xB000, 8 => some s.life.otpSecurity
  | 0xB000, 9 => some s.vault.security
  | 0xC000, 2 => some s.evr.head
  | 0xC000, 3 => some (evrOldest s.evr)
  | 0xC000, 6 => some s.evr.suppressed
  | 0xC000, 8 => some s.evr.mark
  | 0xD000, 3 => some ((s.backup.env.map (·.enrolled)).getD 0)
  | 0xD000, 4 => some ((s.backup.env.map (·.chargeUsed)).getD 0)
  | 0xD000, 5 => some (envLife s)
  | 0xD000, 7 => some (windowRemaining s)
  | 0xD000, 8 => some s.backup.cellMv
  | 0xD000, 9 => some s.backup.tempDeciK
  | 0xD000, 0x0D => some s.backup.authCount
  | 0xD000, 0x0F => some s.backup.marksAcked
  | 0xE000, 5 => some (openJoints s).length
  | 0xE000, 6 => some (stagingUsed s)
  | _, _ => none

/-- The default that DESCRIBE shows: of NoncePrefix as R144 computes it, of the payment settings as 0x6030 gives it (R186), else the
table's. -/
def shownDefault (s : State) (index sub : Nat) (o : Obj) : Nat :=
  if 0x8000 ≤ index ∧ index ≤ 0x8FFF then
    if sub = 0x30 then prefixDefault s (index - 0x8000)
    else if 0x40 ≤ sub ∧ sub ≤ 0x42 then setting s.ctl.cfg 0x6030 (sub - 0x3F) o.dflt
    else o.dflt
  else o.dflt

/-- Computed views of an instance's objects (R349). -/
def viewInst (s : State) (i sub : Nat) : Option Nat :=
  let c := s.ctl.cfg
  let x := refilled c i s.now (getInst s i)
  match sub with
  | 0x04 => some x.st
  | 0x30 => some (noncePrefix s i)
  | 0x40 => some (pinMatrix c i)
  | 0x41 => some (fmt0MaxPin c i)
  | 0x42 => some (dukptCheck c i)
  | 0x57 => some (if x.st = 0 then 0 else tokensHeld s i)
  | 0x65 => some (x.sub / oneToken).toNat
  | 0x66 => some ((x.core / 1000) % (2 ^ 64)).toNat
  | 0x72 => some (bit (x.st == 3 || x.st == 4))
  | _ => none

/-- Computed numeric views. -/
def viewNum (s : State) (index sub : Nat) : Option Nat :=
  if 0x8000 ≤ index ∧ index ≤ 0x8FFF then viewInst s (index - 0x8000) sub
  else if 0x1110 ≤ index ∧ index ≤ 0x1113 then
    let x := getHead s (index - 0x1110)
    match sub with
    | 1 => some x.st
    | 2 => some x.speed
    | 3 => some x.width
    | 4 => some (bit x.ideIo.isSome + 2 * bit x.ideMem.isSome)
    | 6 => some x.downs
    | 7 => some (dmaCapAt s (index - 0x1110) (s.now / 2000))
    | _ => none
  else if 0x2400 ≤ index ∧ index ≤ 0x240D then
    let x := getMon s (index - 0x2400)
    match sub with
    | 1 => some (monState x)
    | 2 => some x.events
    | 3 => some x.lastT
    | 4 => some (if index = 0x2407 then s.backup.meshMask else mget 0 s.backup.edges 0)
    | 5 => some (mget 0 s.backup.edges 1)
    | 6 => some (mget 0 s.backup.edges 2)
    | 7 => some (mget 0 s.backup.edges 3)
    | 8 => some s.backup.levels
    | _ => none
  else if 0x2600 ≤ index ∧ index ≤ 0x260D ∧ sub = 2 then some (getMon s (index - 0x2600)).result
  else if index = 0x3002 then some (getChan s (sub - 1)).st
  else if index = 0x3003 then some (getChan s (sub - 1)).fails
  else if 0x3020 ≤ index ∧ index ≤ 0x303B then
    match sub with
    | 1 => some (drbgState s (index - 0x3020))
    | 2 => some (drbgOf s (index - 0x3020)).calls
    | _ => none
  else if 0x4010 ≤ index ∧ index ≤ 0x402B then
    let b := index - 0x4010
    match sub with
    | 1 => some (getBay s b).st
    | 2 => some (getBay s b).late
    | 3 => some (getBay s b).lag
    | 4 => some (enginesInService s b)
    | _ => none
  else if index = 0x5011 then some (nodesFree s.routes (sub - 1))
  else if index = 0x5052 then some ((mget {} s.ctl.cfg.parts sub).routes.length)
  else if 0x6060 ≤ index ∧ index ≤ 0x606F then some (kumCounter s ((index - 0x6060) * 256 + sub))
  else if 0x9010 ≤ index ∧ index ≤ 0x904F ∧ sub = 2 then
    some (s.insts.filter (fun e => e.2.st != 0 && instLd s.ctl.cfg e.1 == index - 0x9010)).length
  else if 0xB011 ≤ index ∧ index ≤ 0xB018 then
    let p := mget {} s.fw.parts (index - 0xB010)
    match sub with
    | 1 => some p.version
    | 2 => some p.security
    | _ => none
  else if 0xE010 ≤ index ∧ index ≤ 0xE04F then
    let j := getJoint s (index - 0xE010)
    match sub with
    | 1 => some (if jointOpen j then jointIdOf (index - 0xE010) j else 0)
    | 2 => some (if j.gen = 0 then 0 else j.st)
    | 3 => some j.opener
    | 4 => some j.sigs
    | _ => none
  else viewCommon s index sub

/-- Octets and texts that are not settings. -/
def viewOcts (s : State) (index sub : Nat) : Option Bytes :=
  if 0x8000 ≤ index ∧ index ≤ 0x8FFF then
    let x := getInst s (index - 0x8000)
    match sub with
    | 0x75 => some (if x.blobReady then x.blob.getD [] else [])
    | 0x78 => some (match x.offer with
      | some o => if o.ready then o.bytes else []
      | none => [])
    | _ => some []
  else if 0xB011 ≤ index ∧ index ≤ 0xB018 then some (mget {} s.fw.parts (index - 0xB010)).digest
  else match index, sub with
  | 0x1000, 1 => some (Bytes.ofText "VG4096-FB")
  | 0x1000, 2 => some (Bytes.ofText "B0")
  | 0x1000, 3 => some (if s.keys.identity.isSome then s.keys.idDigest else [])
  | 0x1000, 4 => some (releaseText s)
  | 0x1181, 2 => some (captureBytes s.acu.cap)
  | 0x1182, n => some (Bytes.ofNatLE 16 (mget 0 s.acu.active (n - 1)))
  | 0x1F01, 1 => some s.ctl.digest
  | 0x1F01, 2 => some s.ctl.localDigest
  | 0xA001, 2 => some (match s.life.chal with
    | some c => if c.ready then c.bytes else []
    | none => [])
  | 0xA001, 3 => some []
  | 0xA002, 2 => some ((upTo 11).flatMap (fun k => Bytes.ofNatLE 4 (s.power.stepUs.getD k 0)))
  | 0xB000, 1 => some s.fw.staged
  | 0xB000, 2 => some s.fw.source
  | 0xC000, 4 => some (s.evr.ring.flatMap recBytes)
  | 0xC000, 7 => some ((tailRecords s.backup).flatMap recBytes)
  | 0xD000, 1 => some ((s.backup.env.map (·.serial)).getD [])
  | 0xD000, 2 => some ((s.backup.env.map (·.identity)).getD [])
  | 0xD000, 0x0E => some ((upTo 64).flatMap (fun k => Bytes.ofNatLE 4 (s.backup.marks.getD k 0)))
  | _, _ => none

/-- Default of an octet string that joints write: zero for user rules, else empty. -/
def octDefault (index : Nat) : Bytes := if index = 0x1180 then Bytes.zeros 16 else []

/-- The value of an object that exists, as GET returns it (R326, R333). -/
def objValue (s : State) (index sub : Nat) (o : Obj) : Bytes :=
  if o.isNum then
    let v :=
      if o.trigger then 0
      else match viewNum s index sub with
        | some v => v
        | none =>
          if o.kept = 1 then setting s.ctl.cfg index sub o.dflt
          else if o.kept = 3 then o.dflt
          else counter s (odKey index sub)
    Bytes.ofNatLE o.maxLen v
  else match viewOcts s index sub with
    | some b => b
    | none => (mfind s.ctl.cfg.octs (odKey index sub)).getD (octDefault index)

end Sys2Proof.Machine
end

