-- ==== Sys2Proof/Machine/LifeFuses.lean ====
section
/-! DEFINITION. The burning of life-cycle fuses: a transition's begin mark, its copies and end mark, and the vault's transition
record (R398, R400). -/

namespace Sys2Proof.Machine

open Sys2Proof

/-- The six fuses of the mark of target t. -/
def markMask (t : Nat) : Nat := 0x3F * 2 ^ (6 * (t - 1))

/-- The row that a transition burns: the lowest free row above the row in force for re-personalisation, else the row in
force (R400). -/
def transitionRow (s : State) (t : Nat) : Nat :=
  if s.life.st = 4 ∧ t = 2 then
    ((upTo 4).find? (fun k => decide (rowInForce s < k) && !anyMark (fuseRow s k).beginMark)).getD (rowInForce s)
  else rowInForce s

def modRow (s : State) (r : Nat) (f : FuseRow → FuseRow) : State :=
  { s with life := { s.life with rows := mmod {} s.life.rows r f } }

/-- Word w of a row in the order of R396, and the row with that word replaced. -/
def rowWord (r : FuseRow) (w : Nat) : Nat :=
  match w with
  | 0 => r.copy1
  | 1 => r.copy2
  | 2 => r.copy3
  | 3 => r.beginMark
  | 4 => r.endMark
  | _ => r.row

def putWord (r : FuseRow) (w v : Nat) : FuseRow :=
  match w with
  | 0 => { r with copy1 := v }
  | 1 => { r with copy2 := v }
  | 2 => { r with copy3 := v }
  | 3 => { r with beginMark := v }
  | 4 => { r with endMark := v }
  | _ => { r with row := v }

/-- What a transition to t burns into each word of its row. -/
def wordTarget (t w : Nat) : Nat := if w < 3 then lcCode t else if w < 5 then markMask t else 0

/-- One word burnt, but for the fuses that would not. -/
def burnWord (t : Nat) (left : List (Nat × Nat)) (r : FuseRow) (w : Nat) : FuseRow :=
  let want := wordTarget t w
  let stay := boolsToNat 32 (fun b => bitOf want b && left.contains (w, b))
  putWord r w (Nat.lor (rowWord r w) (want - stay))

/-- Words in the order in which a transition burns them: begin mark, copies, end mark (R398). -/
def burnWords : List Nat := [3, 0, 1, 2, 4]

/-- The fuses of a transition to t in the order in which they are burnt, as word and bit. -/
def burnOrder (t : Nat) : List (Nat × Nat) :=
  burnWords.flatMap (fun w => ((upTo 32).filter (bitOf (wordTarget t w))).map (fun b => (w, b)))

/-- A row with one fuse burnt. -/
def burnFuse (r : FuseRow) (e : Nat × Nat) : FuseRow := putWord r e.1 (Nat.lor (rowWord r e.1) (2 ^ e.2))

/-- The burning of a transition to t is cut short: the fuses before some point of the order have been burnt, but for those that would not
read burnt. Where it stood and which those are the manual leaves to the moment: free values (log entry 253). -/
def burnCut (s : State) (t : Nat) (words : List Nat) : State :=
  let order := (burnOrder t).filter (fun e => words.contains e.1)
  let left := Config.freeNat (s.free + 1)
  let reached := (order.take (Config.freeNat s.free % (order.length + 1))).zipIdx.filter (fun e => !bitOf left e.2)
  let s := { s with free := s.free + 2 }
  modRow s (transitionRow s t) (fun r => (reached.map (·.1)).foldl burnFuse r)

/-- A transition begins and is pending until its end mark stands. A transition already in progress is pre-empted where it stands, and its
end mark is never burnt (R398). -/
def beginTransition (s : State) (t : Nat) : State :=
  let s := match s.life.target with
    | some u => if s.life.pending ∧ u ≠ t then burnCut s u [3, 0, 1, 2] else s
    | none => s
  { s with life := { s.life with target := some t, pending := true } }

/-- The sequence of R398 ends: begin mark, copies and end mark are burnt; each fuse that did not read burnt is left, counted and
recorded. -/
def burnSequence (s : State) (t : Nat) (unburnt : List (Nat × Nat)) : State :=
  let r := transitionRow s t
  let left := unburnt.filter (fun e =>
    burnWords.contains e.1 && bitOf (wordTarget t e.1) e.2 && !bitOf (rowWord (fuseRow s r) e.1) e.2)
  let s := modRow s r (fun w => burnWords.foldl (burnWord t left) w)
  let s := { s with life := { s.life with target := none, pending := false, unburnt := s.life.unburnt + left.length } }
  each left s (fun s e => record s 0x7105 srcDevice (Bytes.ofNatLE 1 r ++ Bytes.ofNatLE 1 e.1 ++ Bytes.ofNatLE 1 e.2))

end Sys2Proof.Machine
end

