-- ==== Sys2Proof/Machine/Random.lean ====
section
/-! DEFINITION. The random island: noise channels, conditioner, seed delivery, known-answer tests, re-masking passes and the
generation of the root (R239 to R263, R270 to R272). -/

namespace Sys2Proof.Machine

open Sys2Proof

/-! ## Values in force (R261, R262) -/

def rctCutoff (s : State) : Nat := setting s.ctl.cfg 0x3000 0x11 41
def aptCutoff (s : State) : Nat := setting s.ctl.cfg 0x3000 0x12 800
def minHealthy (s : State) : Nat := setting s.ctl.cfg 0x3000 0x17 4
def failHold (s : State) : Nat := setting s.ctl.cfg 0x3000 0x18 16
def stopHoldMs (s : State) : Nat := setting s.ctl.cfg 0x3000 0x19 10000

/-! ## Health tests (R240) -/

/-- Samples of a window: bit 7 of each byte first (R244). -/
def sampleBits (w : Bytes) : List Bool := w.flatMap (fun b => (upTo 8).map (fun k => bitOf b.toNat (7 - k)))

/-- Length of the longest run of one value, and the run with which the samples end; `v` and `cur` are the run that goes on into them. -/
def runsOf : Bool → Nat → Nat → List Bool → Nat × Bool × Nat
  | v, cur, best, [] => (max cur best, v, cur)
  | v, cur, best, b :: bs => if b = v then runsOf v (cur + 1) best bs else runsOf b 1 (max cur best) bs

/-- The cutoffs under which a channel's window is judged (R261). -/
def cutoffsOf (s : State) (x : Chan) : Nat × Nat := x.held.getD (rctCutoff s, aptCutoff s)

/-- The repetition count test goes on from window to window (R240): a run that ended the window before counts where the first sample
extends it, since a run that lies wholly before the window was judged with its own (R261). -/
def rctRuns (x : Chan) (w : Bytes) : Nat × Bool × Nat :=
  match sampleBits w with
  | [] => (0, x.run.getD (false, 0))
  | b :: bs => runsOf b (match x.run with | some (v, cur) => if v = b then cur + 1 else 1 | none => 1) 0 bs

def rctFails (s : State) (x : Chan) (w : Bytes) : Bool := decide ((cutoffsOf s x).1 ≤ (rctRuns x w).1)

def aptFails (s : State) (x : Chan) (w : Bytes) : Bool :=
  match sampleBits w with
  | [] => false
  | b :: bs => decide ((cutoffsOf s x).2 ≤ 1 + (bs.filter (· == b)).length)

/-! ## The island's alarm (R256, R492) -/

/-- The alarm is latched; its record is written by the decision of its interval (R373), at once where it is already latched. -/
def randomAlarm (s : State) (cause bay : Nat) : State :=
  let args := Bytes.ofNatLE 1 cause ++ Bytes.ofNatLE 1 bay
  if s.alarm.random then recordExempt s 0x2110 (src 4 0xFFF) args
  else { s with alarm := { s.alarm with random := true, fresh := s.alarm.fresh ++ [(15, args)] } }

/-- Case 2 of R256: so many failures of any channels within 600 s. -/
def failuresAlarm (s : State) : State :=
  let ts := s.random.failTs.filter (fun t => decide (s.now < t + 600 * 10 ^ 9))
  if failHold s ≤ ts.length ∧ s.alarm.random = false then randomAlarm s 2 0xFF else s

/-! ## Masks in use (R255, R270 to R272) -/

def liveWord (m : Masks) : Bytes := if m.phase then m.w1 else m.w0
def deliverMask (m : Masks) (w : Bytes) : Masks := if m.phase then { m with w0 := w } else { m with w1 := w }

/-- Phase bit of an entry by its first word: a pass flips it, a write during the pass does, and an entry whose code a pass found
mismatched keeps its own (R27). -/
def entryPhase (m : Masks) (key : Nat) : Bool :=
  match mfind m.stale key with
  | some (p, _) => p
  | none => if m.running ∧ m.fresh.contains key then !m.phase else m.phase

/-- The word under which an entry stands: that of its phase, or the one under which a mismatched entry was left (R27). -/
def entryWord (m : Masks) (key : Nat) : Bytes :=
  match mfind m.stale key with
  | some (_, w) => w
  | none => if entryPhase m key then m.w1 else m.w0

/-- Masked content as a memory stores it: its exclusive-or with the mask word, repeated over it (R270). -/
def storedMasked (m : Masks) (key : Nat) (content : Bytes) : Bytes :=
  Bytes.xor content ((List.replicate (ceilDiv content.length 32) (Bytes.fit 32 (entryWord m key))).flatten)

/-- Masked content of a key's run as the slot memory stores it: bytes 0x20 to 0x3F of its head and its material extensions, each slot
under the word of its own phase bit (R270, R271). -/
def storedMaterial (s : State) (h : Nat) (k : Key) : Bytes :=
  let content := Bytes.fit (32 + 64 * materialExt k.type) k.material
  storedMasked s.keys.slotMask (wordKey memSlots (slotWord h)) (content.take 32)
    ++ (upTo (materialExt k.type)).flatMap (fun j =>
      storedMasked s.keys.slotMask (wordKey memSlots (slotWord (h + 1 + j))) ((content.drop (32 + 64 * j)).take 64))

/-- The ikey of a derivation entry as its memory stores it (R271). -/
def storedIkey (s : State) (term : Nat) (d : Deriv) : Bytes :=
  storedMasked s.keys.slotMask (wordKey memDeriv (derivWord term)) d.ikey

/-- The slot field of a token or of a shelved head as the token cache stores it (R209, R271). -/
def storedSlotField (s : State) (x : Nat) (h gen wepoch : Nat) (k : Key) : Bytes :=
  storedMasked s.keys.slotMask (wordKey memCache (wayWord x)) (slotBytes h gen wepoch k)

/-- The masked rows of the vault beside the BACKED entries, which stand by their handles (R268): root key, identity. -/
def vaultRowRoot : Nat := 2 ^ 18
def vaultRowIdentity : Nat := 2 ^ 18 + 1

/-- Root K[0:63] as the vault stores it (R268, R271). -/
def storedRoot (s : State) : Bytes := storedMasked s.keys.vaultMask vaultRowRoot s.vault.root

/-- The identity scalar and its check value as the vault stores them. -/
def storedIdentity (s : State) : Bytes := storedMasked s.keys.vaultMask vaultRowIdentity (s.vault.idScalar ++ s.vault.idCheck)

/-- The secret of a BACKED entry as the vault stores it. -/
def storedSecret (s : State) (h : Nat) (e : BackedEntry) : Bytes := storedMasked s.keys.vaultMask h e.secret

/-- The chained mask key while the conditioner is stopped (log entry 20). -/
def chainWord (m : Masks) : Bytes :=
  Modes.ecb (Modes.aes (Bytes.fit 32 (liveWord m))).enc 16 (Bytes.ofNatLE 32 m.passNo)

def setMask (s : State) (vault : Bool) (m : Masks) : State :=
  if vault then { s with keys := { s.keys with vaultMask := m } } else { s with keys := { s.keys with slotMask := m } }

def maskOf (s : State) (vault : Bool) : Masks := if vault then s.keys.vaultMask else s.keys.slotMask

/-- A pass waits for its word. -/
def maskWaits (m : Masks) : Bool := m.running && idleWord m == []

/-- A pass that waits takes the chained word; a record once per stop says so (R255). Before SEEDING first ends, a pass goes on waiting
for its first mask key (R253). -/
def chainMask (s : State) (vault : Bool) : State :=
  let m := maskOf s vault
  if maskWaits m = false ∨ s.random.seeded = false then s
  else
    let noted := s.keys.slotMask.chainNoted || s.keys.vaultMask.chainNoted
    let s := setMask s vault { deliverMask m (chainWord m) with chainNoted := true }
    let s := { s with random := { s.random with reqs := s.random.reqs.filter (fun r => r.who != (if vault then .maskVault else .maskSlots)) } }
    if noted then s else record s 0x2114 (src 4 0xFFF) []

/-! ## Conditioner (R244, R245) -/

/-- Channels not excluded and not captured. -/
def channelsLeft (s : State) : Nat := ((upTo 8).filter (fun n => (getChan s n).st == 0)).length

/-- The conditioner stops (R245): its windows go, and a block that was not delivered. DESIGN CHOICE (log entry 246): a block that a request
has already been given is delivered, so that the request keeps it. -/
def stopConditioner (s : State) : State :=
  if s.random.stopped then s
  else
    let s := { s with random := { s.random with stopped := true, stopT := some s.now, stops := s.random.stops + 1, windows := [] } }
    chainMask (chainMask s false) true

/-- The conditioner restarts once enough channels are healthy and nothing holds it stopped (R245, R257, R259). -/
def restartConditioner (s : State) : State :=
  if s.random.stopped ∧ s.random.on ∧ minHealthy s ≤ channelsLeft s ∧ s.random.katHold = false ∧ s.random.swapHold = false then
    { s with
      random := { s.random with stopped := false, stopT := none }
      keys := { s.keys with slotMask := { s.keys.slotMask with chainNoted := false }
                            vaultMask := { s.keys.vaultMask with chainNoted := false } } }
  else s

/-- The conditioner stops below MinHealthyChannels. -/
def checkConditioner (s : State) : State := if channelsLeft s < minHealthy s then stopConditioner s else s

/-- One block: AES-256 CBC-MAC of a window. -/
def conditionedBlock (w : Bytes) : Bytes :=
  let c := Modes.aes Config.conditioningKey
  (Modes.cbcEncrypt c (Bytes.zeros 16) (Bytes.fit 128 w)).drop 112

/-! ## Channels (R241 to R243) -/

/-- A channel fails a test: excluded, counted, recorded; failures within 600 s raise the alarm. -/
def failChannel (s : State) (n test : Nat) : State :=
  let x := getChan s n
  let startup := x.testing
  let k := x.failsStart + 1
  let s := modChan s n (fun x =>
    { x with st := if 3 ≤ k then 2 else 1, testing := false, fails := x.fails + 1, failsStart := k, failT := s.now
             windows := x.windows + 1, run := none, held := none })
  let ts := (s.random.failTs.filter (fun t => decide (s.now < t + 600 * 10 ^ 9))) ++ [s.now]
  let s := { s with random := { s.random with failTs := ts } }
  let s := record s 0x2113 (src 4 n) (Bytes.ofNatLE 1 (test + 128 * bit startup) ++ Bytes.ofNatLE 8 (x.windows + 1))
  failuresAlarm (checkConditioner s)

/-- CHANNEL_FAIL: a channel that runs fails a test. -/
def channelFails (s : State) (n test : Nat) : State :=
  if s.random.on ∧ (getChan s n).st ≤ 1 ∧ ((getChan s n).st = 0 ∨ (getChan s n).testing) then failChannel s n test else s

/-- A channel's window is over: the run with which it ended goes on, and the next is judged by the cutoffs in force. -/
def windowOver (x : Chan) (w : Bytes) : Chan := { x with windows := x.windows + 1, run := some (rctRuns x w).2, held := none }

/-- Result of the health tests on a window as the capture window holds it: [0] repetition count failed, [1] adaptive proportion failed
(log entry 200). -/
def healthResult (s : State) (x : Chan) (w : Bytes) : Byte := BitVec.ofNat 8 (bit (rctFails s x w) + 2 * bit (aptFails s x w))

/-- A window of a channel ends (R241): released where both tests pass; a captured channel's goes with its test results to the capture
window (R260). DESIGN CHOICE (log entry 248): where the capture window is full, its oldest bytes go. -/
def windowEnds (s : State) (n : Nat) (w : Bytes) : State :=
  let x := getChan s n
  if s.random.on = false then s
  else if x.st = 3 then
    let all := s.random.captured ++ w ++ [healthResult s x w]
    let s := modChan s n (fun x => windowOver x w)
    { s with random := { s.random with captured := all.drop (all.length - 65536) } }
  else if chanHealthy s n = false then modChan s n (fun x => { x with windows := x.windows + 1, held := none })
  else if rctFails s x w then failChannel s n 1
  else if aptFails s x w then failChannel s n 2
  else
    let s := modChan s n (fun x => windowOver x w)
    if s.random.stopped then s else { s with random := { s.random with windows := s.random.windows ++ [w] } }

/-- A second after its failure an excluded channel is tested again (R242), by the cutoffs in force (R261). -/
def channelRetests (s : State) (n : Nat) : State :=
  let x := getChan s n
  if s.random.on ∧ x.st = 1 ∧ x.testing = false ∧ x.failT + 10 ^ 9 ≤ s.now then modChan s n (fun x => { x with testing := true, held := none })
  else s

/-- A start-up test ends (R243). -/
def startupTestEnds (s : State) (n : Nat) (w : Bytes) : State :=
  let x := { getChan s n with run := none }
  if s.random.on = false ∨ x.testing = false then s
  else if rctFails s x w then failChannel s n 1
  else if aptFails s x w then failChannel s n 2
  else restartConditioner (modChan s n (fun x => { x with st := 0, testing := false, windows := x.windows + 1, run := none, held := none }))

/-! ## Seed delivery (R246, R252, R253, R263) -/

/-- Requests that are served before SEEDING first ends (R253). -/
def startConsumer (r : SeedReq) : Bool :=
  match r.who with
  | .root => true
  | .inst _ => true
  | .tableKey => true
  | .evict => true
  | .reseed _ => r.prio == 1
  | _ => false

/-- The request that the next block serves: lowest priority number, then the order made. -/
def nextRequest (s : State) : Option SeedReq :=
  let rs := if s.random.seeded = false then s.random.reqs.filter startConsumer else s.random.reqs
  [1, 2, 3].findSome? (fun p => rs.find? (fun r => r.prio == p))

/-- SEEDING under (a) ends once the start's requests are served and every DRBG in service is instantiated and its reserve filled, be it
drawn on since (R252). -/
def seedingCheck (s : State) : State :=
  if s.random.awaiting ∧ (s.random.reqs.any startConsumer = false)
      ∧ s.bays.all (fun e => e.2.st != 0 || (e.2.drbg.inst && e.2.drbg.filled)) then
    { s with random := { s.random with awaiting := false, seeded := true } }
  else s

/-- RootMade of the row in force. -/
def rootMade (s : State) : Bool := groupBurnt (fuseRow s (rowInForce s)).row 0

/-- Header magic of the vault (R268). -/
def vaultMagic : Nat := 0x5641554C

/-- The root is generated, masked into the vault, and RootMade is burnt (R263, R265; the chain's hash with it, log entry 18).
KeyClock, configuration epoch, joint serials and log epoch count from here (R268, R343, R345). -/
def makeRoot (s : State) (root : Bytes) : State :=
  let r := rowInForce s
  let rows := mmod {} s.life.rows r (fun w => { w with row := Nat.lor w.row 0x3F })
  let s := noteVault (noteVault s vaultRowRoot) vaultRowIdentity
  let v := { s.vault with magic := vaultMagic, layout := 1, rootAbsent := false, root := root, rootCheck := rootCheckOf root
                          chainHash := Sha.sha256 Config.certChain, idScalar := identityScalarBytes root
                          idCheck := identityCheckOf root }
  setIdentity { s with vault := v, life := { s.life with rows := rows }, devCtr := [] } root

/-- The personalisation string of a bay (R247). -/
def bayPers (s : State) (b : Nat) : Bytes := Bytes.ofNatLE 1 b ++ Bytes.ofNatLE 8 s.now

/-- The blocks of a request reach their consumer. -/
def serveSeed (s : State) (who : Consumer) (seed : Bytes) : State :=
  match who with
  | .root => makeRoot s seed
  | .inst b =>
    let c := Modes.ctrInstantiate (seed ++ bayPers s b)
    modDrbg s b (fun _ => { inst := true, key := c.key, v := c.v, refill := true })
  | .reseed b => modDrbg s b (fun d => { d with seed := some seed })
  | .tableKey => { s with random := { s.random with tableKey := some seed } }
  | .evict => { s with random := { s.random with evictSeed := some seed, evictDraws := 0 } }
  | .maskSlots => { s with keys := { s.keys with slotMask := deliverMask s.keys.slotMask seed } }
  | .maskVault => { s with keys := { s.keys with vaultMask := deliverMask s.keys.vaultMask seed } }
  | .jointNonce j =>
    let x := getJoint s j
    match x.opening with
    | some h =>
      kReply (modJoint s j (fun x => { x with nonce := seed, opening := none })) h 0x10 0
        (Bytes.ofNatLE 2 (jointIdOf j x) ++ Bytes.zeros 6 ++ Bytes.ofNatLE 8 x.serial ++ Bytes.ofNatLE 8 x.base ++ seed)
    | none => s
  | .debugNonce => { s with life := { s.life with chal := s.life.chal.map (fun c => { c with nonce := seed }) } }

/-- A conditioned block is delivered; a block that nothing waits for is dropped (log entry 19). -/
def deliverBlock (s : State) (b : Bytes) : State :=
  match nextRequest s with
  | none => s
  | some r =>
    let got := r.got ++ [b]
    if got.length < r.need then
      { s with random := { s.random with reqs := s.random.reqs.map (fun q => if q.who = r.who then { q with got := got } else q) } }
    else
      serveSeed { s with random := { s.random with reqs := s.random.reqs.filter (fun q => q.who != r.who) } } r.who got.flatten

/-- CONDITIONED_BLOCK: the oldest released window is conditioned. -/
def blockDone (s : State) : State :=
  match s.random.windows with
  | w :: ws =>
    if s.random.on ∧ s.random.stopped = false ∧ s.random.katRunning = false then
      seedingCheck (deliverBlock { s with random := { s.random with windows := ws, blocks := s.random.blocks + 1 } }
        (conditionedBlock w))
    else s
  | [] => s

/-! ## Bay DRBGs (R248, R250) -/

/-- A generate call of a bay ends: a refill's output joins the reserve, after a reseed that has arrived (R248). -/
def callDone (s : State) (b : Nat) : State :=
  let s := if (drbgOf s b).refill then applyReseed s b else s
  if (drbgOf s b).refill ∧ drbgServes s b then
    let s := refillReserve s b
    seedingCheck (if refillDue s b then modDrbg s b (fun d => { d with refill := true }) else s)
  else s

/-- Every DRBG is uninstantiated and its reserve zeroed; each but that of a bay held out starts afresh at priority 1, with a new table
key (R259, R246). -/
def reinstantiate (s : State) : State :=
  let s := each (upTo 28) s (fun s b =>
    if (getBay s b).st = 2 ∧ bayHeld s b then modBay s b (fun x => { x with drbg := freshDrbg })
    else requestSeed (modBay s b (fun x => { x with drbg := freshDrbg })) 1 (.inst b) 3)
  requestSeed { s with random := { s.random with awaiting := s.random.on, tableKey := none } } 2 .tableKey 2

/-- The random island is enabled (R243, R246, R252, R257, R361 step 7). -/
def enableRandom (s : State) : State :=
  let fresh : Chan := { st := 0, testing := true }
  let s := { s with random := { on := true, stopped := false, awaiting := true, katRunning := true
                                chans := (upTo 8).map (fun n => (n, fresh)) } }
  let s := if s.life.st = 2 ∧ rootMade s = false then requestSeed s 1 .root 4 else s
  let s := each (upTo 28) s (fun s b => if (getBay s b).st = 2 then s else requestSeed s 1 (.inst b) 3)
  requestSeed (requestSeed s 2 .tableKey 2) 2 .evict 1

/-! ## Known-answer tests (R256 to R258) -/

def katResult (s : State) (target : Nat) (pass : Bool) : State :=
  { s with random := { s.random with katLast := (target + 2 ^ 16 * bit pass + 2 ^ 17 * (s.now / 1000)) % 2 ^ 64 } }

/-- The conditioner's test ends. -/
def condKat (s : State) (pass : Bool) : State :=
  if s.random.katRunning = false then s
  else
    let s := katResult { s with random := { s.random with katRunning := false } } 0x0100 pass
    if pass then s
    else randomAlarm (stopConditioner { s with random := { s.random with katHold := true } }) 3 0xFF

/-- A bay's DRBG has failed its test: the bay stays out until the next start. -/
def drbgFailed (s : State) (b : Nat) : State :=
  let s := modBay s b (fun x => { x with st := 2, why := .katFailed, drbg := freshDrbg })
  randomAlarm { s with random := { s.random with reqs := s.random.reqs.filter (fun r => r.who != .inst b) } } 4 b

/-- A requested test of a bay's DRBG ends, while the bay is out for it. -/
def drbgKat (s : State) (b : Nat) (pass : Bool) : State :=
  if (getBay s b).st = 2 ∧ (getBay s b).why = .kat then
    let s := katResult s (0x0200 + b) pass
    if pass then readyBay s b else drbgFailed s b
  else s

/-- The conditioner has been stopped for StopHoldMs (R256). -/
def stopHeld (s : State) : State :=
  match s.random.stopT with
  | some t => if s.random.stopped ∧ s.random.swapHold = false ∧ t + stopHoldMs s * 10 ^ 6 ≤ s.now ∧ s.alarm.random = false
      then randomAlarm s 1 0xFF else s
  | none => s

/-! ## Re-masking (R255, R270 to R272) -/

/-- A pass begins: it asks for its word, or takes the chained word while the conditioner is stopped; on backup power the vault's
word comes from the feedback register, whose function the manual does not give (log entry 3). -/
def passStarts (s : State) (vault : Bool) : State :=
  let m := maskOf s vault
  if m.running then s
  else
    let m := { m with running := true, passNo := m.passNo + 1 }
    if backupInForce s then
      if vault = false then s
      else
        let (f, s) := freeBytes s 32
        setMask { s with keys := { s.keys with nlfsr := f } } vault (deliverMask m (Bytes.xor (Bytes.fit 32 (liveWord m)) f))
    else if s.random.on = false then s
    else if s.random.stopped ∧ s.random.seeded then chainMask (setMask s vault m) vault
    else requestSeed (setMask s vault m) 2 (if vault then .maskVault else .maskSlots) 2

/-- Entries of slots and caches in which a pass finds a mismatched word (R27): memory and entry, each once. -/
def mismatchedEntries (s : State) : List (Nat × Nat) :=
  (s.bad.filter (fun e => memMasked (e.1 / 2 ^ 40))).foldl (fun l e =>
    let mem := e.1 / 2 ^ 40
    let n := (mem, e.1 % 2 ^ 40 / entryWords mem)
    if l.contains n then l else l ++ [n]) []

/-- A pass leaves an entry whose code does not match as it is (R27). -/
def leaveStale (m : Masks) (key : Nat) : Masks :=
  if m.fresh.contains key ∨ (mfind m.stale key).isSome then m else { m with stale := mput m.stale key (m.phase, liveWord m) }

/-- A pass ends: it has rewritten every entry under the new word but those written since it began and those whose code does not match,
which it leaves and raises FABRIC for (R27, R270); the old word is zeroed. -/
def passEnds (s : State) (vault : Bool) : State :=
  let m := maskOf s vault
  if m.running ∧ idleWord m ≠ [] then
    let left := if vault then [] else mismatchedEntries s
    let s := each left s (fun s e => raiseFabric s islHub islHub e.1)
    let m := left.foldl (fun m e => leaveStale m (wordKey e.1 (e.2 * entryWords e.1))) m
    setMask s vault (if m.phase then { m with phase := false, running := false, fresh := [], w1 := [] }
                     else { m with phase := true, running := false, fresh := [], w0 := [] })
  else s

/-! ## Meanings -/

/-- Island that runs a pass: the hub, the control island for the vault on main power, the backup domain on backup. -/
def maskIsland (s : State) (vault : Bool) : List Nat := if vault then (if s.power.pwrGood then [islControl] else []) else [islHub]

/-- NOISE_WINDOW_END (R240, R241). -/
def execNoiseWindowEnd (t : Nat) (ch : ChanNo) (samples : Bytes) (s : State) : Result :=
  .next (settle (clocked (at_ s t) [islRandom] (fun s => windowEnds s ch.val samples)))

/-- CHANNEL_FAIL (R242, R245, R256). -/
def execChannelFail (t : Nat) (ch : ChanNo) (apt : Bool) (s : State) : Result :=
  .next (settle (clocked (at_ s t) [islRandom] (fun s => channelFails s ch.val (if apt then 2 else 1))))

/-- CHANNEL_RETEST (R242). -/
def execChannelRetest (t : Nat) (ch : ChanNo) (s : State) : Result := .next (clocked (at_ s t) [islRandom] (fun s => channelRetests s ch.val))

/-- CHANNEL_STARTUP_TEST_END (R243, R245). -/
def execChannelStartupTestEnd (t : Nat) (ch : ChanNo) (samples : Bytes) (s : State) : Result :=
  .next (settle (clocked (at_ s t) [islRandom] (fun s => startupTestEnds s ch.val samples)))

/-- CONDITIONED_BLOCK (R244, R246). -/
def execConditionedBlock (t : Nat) (s : State) : Result :=
  .next (settle (crossing (at_ s t) [islRandom] [islHub] (.conditionedBlock t) blockDone))

/-- DRBG_GENERATE_DONE (R248, R250). -/
def execDrbgGenerateDone (t : Nat) (bay : BayNo) (s : State) : Result := .next (settle (clocked (at_ s t) [5 + bay.val] (fun s => callDone s bay.val)))

/-- DRBG_RESEED (R250). -/
def execDrbgReseed (t : Nat) (bay : BayNo) (s : State) : Result := .next (settle (clocked (at_ s t) [5 + bay.val] (fun s => applyReseed s bay.val)))

/-- STOP_HOLD_EXPIRY (R256). -/
def execStopHoldExpiry (t : Nat) (s : State) : Result := .next (settle (clocked (at_ s t) [islRandom] stopHeld))

/-- CONDITIONER_KAT_DONE (R257). -/
def execConditionerKatDone (t : Nat) (pass : Bool) (s : State) : Result := .next (settle (clocked (at_ s t) [islRandom] (fun s => condKat s pass)))

/-- DRBG_KAT_DONE (R258). -/
def execDrbgKatDone (t : Nat) (bay : BayNo) (pass : Bool) (s : State) : Result := .next (settle (clocked (at_ s t) [5 + bay.val] (fun s => drbgKat s bay.val pass)))

/-- REMASK_PASS_START (R255, R270, R271, R272). -/
def execRemaskPassStart (t : Nat) (vault : Bool) (s : State) : Result := .next (clocked (at_ s t) (maskIsland s vault) (fun s => passStarts s vault))

/-- REMASK_PASS_END (R270). -/
def execRemaskPassEnd (t : Nat) (vault : Bool) (s : State) : Result := .next (clocked (at_ s t) (maskIsland s vault) (fun s => passEnds s vault))

/-- KEYCLOCK_TICK: seconds from the root's generation, on main power and on the cell (R268). -/
def execKeyclockTick (t : Nat) (s : State) : Result :=
  let s := at_ s t
  .next (if s.vault.rootAbsent then s else setDevCounter s 0 ((keyClock s + 1) % 2 ^ 64))

/-- EVICTION_RESEED (R211, R246). -/
def execEvictionReseed (t : Nat) (s : State) : Result :=
  let s := at_ s t
  .next (if s.random.on then requestSeed s 2 .evict 1 else s)

end Sys2Proof.Machine
end

