-- ==== Sys2Proof/Machine/Responses.lean ====
section
/-! DEFINITION. The responses of the response controller: what each class does, in the order of R372, and the latch register of
the backup domain (R295, R370 to R374). -/

namespace Sys2Proof.Machine

open Sys2Proof

/-! ## Actions (R295, R371) -/

/-- Work in flight ends with 0x0802 CLEARED (R93, R128, R237). -/
def clearWork (s : State) : State :=
  each (s.insts.map (·.1)) s (fun s i => endLines (endAdmitted s i 0x0802) i 0x0802)

/-- The operand memories of every BNC and the buffers of every other engine zeroed, owned by nobody (R235, R295). Only the wipes that
the ended operations call for are counted in PkOperandWipes (R234, R238). -/
def wipeOperands (s : State) : State :=
  each (upTo 28) s (fun s b => modBay s b (fun x => { x with mem := [] }))

/-- Every word of some memories is rewritten: each is whole again (R29). -/
def wholeMemories (s : State) (mems : List Nat) : State := { s with bad := s.bad.filter (fun e => !mems.contains (e.1 / 2 ^ 40)) }

/-- The keys of the token cache, the shelf and the derivation cache are gone. -/
def clearCaches (s : State) : State :=
  wholeMemories { s with keys := { s.keys with cache := [], deriv := [] } } [memCache, memDeriv]

/-- The joint was opened through the session of that number. -/
def openedBy (j : Joint) (n : Nat) : Bool := match j.path with
  | .session k => k.toNat == n
  | _ => false

/-- Sessions end; the joints that they opened stay, out of reach of any later session (R335, R458). -/
def endSessions (s : State) (p : Nat → Session → Bool) : State :=
  let gone := (s.link.sessions.filter (fun e => p e.1 e.2)).map (·.1)
  { s with
    link := { s.link with sessions := s.link.sessions.filter (fun e => !p e.1 e.2) }
    ctl := { s.ctl with joints := s.ctl.joints.map (fun e => (e.1, if gone.any (openedBy e.2) then { e.2 with path := .bare } else e.2)) } }

/-- Sessions end and link streams become Insecure (R458, R460). -/
def clearSessions (s : State) : State :=
  each (upTo 4) (endSessions s (fun _ _ => true)) (fun s h => modHead s h (fun x => { x with ideIo := none, ideMem := none }))

/-- CLEAR-SESSION's items. -/
def clearSession (s : State) : State := reinstantiate (clearSessions (wipeOperands (clearCaches s)))

/-- Every resident slot and EXT bit zeroed (R295, R477). -/
def clearSlots (s : State) : State := wholeMemories { s with keys := { s.keys with slots := [], ext := [] } } [memSlots]

/-- The vault's part of CLEAR-KEYS: BACKED entries, pending list and journal stage are cleared and KeyEra advances. -/
def clearVaultKeys (s : State) : State :=
  { s with
    vault := { s.vault with backed := [], pending := [], keyEra := (s.vault.keyEra + 1) % 2 ^ 32 }
    keys := { s.keys with journal := { s.keys.journal with stage := [], flushing := none, tries := 0, backoff := false } } }

/-- The bulk clear of CLEAR-ROOT: the whole vault and the monotonic counters (R371, R432). -/
def clearVault (s : State) : State :=
  let s := { s with
    vault := {}, kumCtr := [], devCtr := []
    ctl := { s.ctl with cutRing := [] }
    keys := { s.keys with journal := { s.keys.journal with stage := [], flushing := none, tries := 0, backoff := false }
                          vaultMask := {}, log := { s.keys.log with queue := [], tries := 0, hold := 0 } }
    backup := { s.backup with env := none, envGood := false, authCount := 0, lifeZero := false }
    evr := { s.evr with mark := 0 }
    life := { s.life with chalCount := 0 }
    power := { s.power with startups := 0 }
    alarm := { s.alarm with rootCleared := true } }
  if s.life.debug then s else dropIdentity s

/-- A part is being swapped: an image of the control or random island, or a bay out for its update. -/
def swapRunning (s : State) : Bool :=
  s.fw.replacing.isSome || s.bays.any (fun e => e.2.why == .update && e.2.st != 0)

/-- The activation ends with nothing more activated. -/
def endActivation (s : State) : State :=
  { s with fw := { s.fw with mask := 0, act := 0, phase := if s.fw.stage = 1 then 1 else 0 } }

/-- The write stops where it stands, resumable from its mark (R412). -/
def haltActivation (s : State) : State := { s with fw := { s.fw with act := 0, phase := if s.fw.stage = 1 then 1 else 0 } }

/-- A CLEAR-ROOT or SCRAP lets the loader finish the part in writing, or the swap in progress, and activates nothing more
(R359, R412); the flash mark stays. -/
def stopActivation (s : State) : State :=
  if s.fw.act = 1 ∨ swapRunning s then s
  else if s.fw.act = 4 then haltActivation s
  else endActivation s

/-- The actions of a class that the class already executed has not taken, in the order of R372. -/
def takeActions (s : State) (done cls : Nat) : State :=
  let has := fun (k : Nat) => decide (k ≤ cls) && decide (done < k)
  let s := if has 2 then clearWork s else s
  let s := if has 4 then clearVault (stopActivation s) else s
  let s := if has 3 then (if cls < 4 then freshLogs (clearSlots (clearVaultKeys s)) else clearSlots s) else s
  let s := if has 2 then clearSession s else s
  if has 5 then beginTransition s 5 else s

/-! ## Classes (R366, R369, R373) -/

/-- The latch register as a decision leaves it (R370); until step 5 of a start has read it, it keeps what it holds (R363). -/
def writeLatchReg (s : State) (cls : Nat) : State :=
  let l := s.backup.latch
  let early := decide (1 ≤ s.power.step) && decide (s.power.step ≤ 5)
  { s with backup := { s.backup with latch :=
      { mons := if early then Nat.lor l.mons (latchedMask s) else latchedMask s
        cls := if early ∧ l.cls ≠ 0xFF then max l.cls cls else cls
        keysDone := l.keysDone || decide (3 ≤ cls), rootDone := l.rootDone || decide (4 ≤ cls)
        scrapDone := l.scrapDone || decide (cls = 5) } } }

/-- ExecutedClass as a number of actions done: none is 0. -/
def executedNow (s : State) : Nat := if s.alarm.executed = 0xFF then 0 else s.alarm.executed

/-- The records of a decision, in ascending order of monitor, the random island last. -/
def decisionRecords (s : State) (cls : Nat) : State :=
  each ((upTo 14) ++ [15]) s (fun s m =>
    match s.alarm.fresh.find? (fun e => e.1 == m) with
    | some (_, d) =>
      if m = 15 then recordExempt s 0x2110 (src 4 0xFFF) d
      else recordExempt s (0x2101 + m) (src 6 m) (monArgs s cls d)
    | none => s)

/-- A decision over the latches set since the last one (R373, R374). -/
def decide_ (s : State) : State :=
  match s.alarm.fresh with
  | [] => s
  | fresh =>
    let done := executedNow s
    let cls := fresh.foldl (fun c e => max c (monClass s e.1)) done
    let s := decisionRecords s cls
    let s := { s with alarm := { s.alarm with fresh := [], executed := cls, alarmN := s.alarm.alarmN || s.power.pwrGood } }
    let s := if 3 ≤ cls then { s with backup := { s.backup with window := none } } else s
    writeLatchReg (takeActions s done cls) cls

end Sys2Proof.Machine
end

