-- ==== Sys2Proof/Machine/Monitors.lean ====
section
/-! DEFINITION. The monitors on main power: when one is armed, when its condition qualifies, its latch and record, its tests, the
Envelope's checks and enrolment, the service window, and the acknowledgement of alarms (R28, R29, R158, R366 to R393). -/

namespace Sys2Proof.Machine

open Sys2Proof

/-! ## Limits (R367) -/

/-- Limit n of monitor m in force. -/
def limitIn (c : Cfg) (m n : Nat) : Nat := setting c (0x2000 + m) (0x10 + n) ((monLimit m n).elim 0 (·.1))

def limitOf (s : State) (m n : Nat) : Nat := limitIn s.ctl.cfg m n

/-! ## Conditions (R367) -/

def glitchHolds (c : Cfg) (m mv ps : Nat) : Bool := decide (limitIn c m 1 < mv) && decide (limitIn c m 2 ≤ ps)

def slowHolds (c : Cfg) (m below above us : Nat) : Bool :=
  (decide (limitIn c m 1 < below) || decide (limitIn c m 2 < above)) && decide (limitIn c m 3 ≤ us)

def tempHolds (lo hi kelvin : Nat) : Bool := decide (kelvin < lo) || decide (hi < kelvin)

def cellHolds (c : Cfg) (mv ns : Nat) : Bool := decide (mv < limitIn c 9 1) && decide (limitIn c 9 2 ≤ ns)

def contactHolds (c : Cfg) (us : Nat) : Bool := decide (limitIn c 8 1 ≤ us)

/-! ## Withheld outputs (R158) -/

/-- The round work of an outcome ran within 200 ns of now. -/
def ranJustNow (s : State) (oc : Option Outcome) : Bool :=
  match oc with
  | some o => (match o.roundT with
    | some t => decide (t ≤ s.now) && decide (s.now ≤ o.due + 200)
    | none => false)
  | none => false

/-- Operations whose round work just ran in one of the bays, and whose output is not released, end with 0x0801. -/
def withhold (s : State) (inBays : Nat → Bool) : State :=
  each s.insts s (fun s e =>
    let s := each (e.2.ops.filter (fun o => inBays o.bay && ranJustNow s o.outcome && !o.squashed && !o.written)) s
      (fun s o => endEarly s e.1 o 0x0801)
    each e.2.slots s (fun s sl =>
      match sl.2.op with
      | some o => if inBays (laneBay o.lane) && ranJustNow s o.outcome then endLine s e.1 sl.1 { o with look := {} } 0x0801 []
          else s
      | none => s))

/-- Cipher and inline bays. -/
def symmetricBay (b : Nat) : Bool := isCipherBay b || isInlineBay b

/-- A CLOCK event of an island with its condition (R436). -/
def clockEvent (s : State) (island cond : Nat) (c : Bool) : State :=
  if armed s 5 && c && island != 4 then
    withhold (raiseMonitor s 5 (detail (island + 256 * cond))) (fun b => symmetricBay b && island == 5 + b)
  else s

/-- An island's clock stands still from now on: what the device sends from then on waits in the channels to the link island while that
is the one (R22). -/
def holdClock (s : State) (island : Nat) : State :=
  { s with link := { s.link with
      clockStops := mput s.link.clockStops island (s.now + 1)
      outMark := if island = islLink then some s.outbox.length else s.link.outMark } }

/-- An island's clock stops (R22): a bay whose clock stops closes (R17). -/
def stopClock (s : State) (island : Nat) : State :=
  let s := if islandRuns s island then holdClock s island else s
  if 5 ≤ island ∧ island < 33 then closeBay s (island - 5) .fault else s

/-! ## Fabric mismatches (R28, R29) -/

/-- The operation that read a mismatched word is not released: it ends with 0x0801, and a word bound for a host becomes
poison. -/
def spoilOp (s : State) (op : Option OpRef) (hostWord : Bool) : State :=
  match op with
  | none => s
  | some (.ring i c) =>
    match findOp (getInst s i.toNat) c.toNat with
    | some o => if o.stage = .covered ∨ o.squashed then s else endEarly s i.toNat o 0x0801
    | none => s
  | some (.inline i n) =>
    let sl := getSlot (getInst s i.toNat) n.toNat
    let s := match sl.held, hostWord with
      | some h, true =>
        answerPoison (modInst s i.toNat (fun x => setSlot x n.toNat { getSlot x n.toNat with held := none })) h.ld h.tag
      | _, _ => s
    match sl.op with
    | some o => endLine s i.toNat n.toNat { o with look := {} } 0x0801 []
    | none => s

/-! ## TAMPER_IN (R379, R392) -/

/-- Inputs that the open service window keeps quiet. -/
def tamperQuiet (s : State) : Nat := if s.backup.window.isSome then setting s.ctl.cfg 0xD000 0x0C 0 else 0

/-- A sample of the inputs: the first activation is an event, each further input writes one record. -/
def tamperSample (s : State) (levels : Nat) : State :=
  let quiet := tamperQuiet s
  if armed s 10 = false then s
  else
    let s := { s with backup := { s.backup with levels := levels % 16 } }
    let active := fun (n : Nat) => !bitOf quiet n && (bitOf levels n || bitOf s.backup.edgeLatch n)
    each (upTo 4) s (fun s n =>
      if active n && !bitOf s.backup.tamperSeen n then
        let s := { s with backup := { s.backup with tamperSeen := putBit s.backup.tamperSeen n true } }
        if (getMon s 10).latched then recordLimited s 0x210B (src 6 10) (monArgs s s.alarm.executed (detail n))
        else raiseMonitor s 10 (detail n)
      else s)

/-- A low-to-high transition of an input: from 20 ns on it latches; a shorter one may or may not (log entry 3). -/
def tamperEdge (s : State) (n width : Nat) : State :=
  let takes := decide (20 ≤ width) || Config.freeNat s.free % 2 == 1
  let s := if width < 20 then { s with free := s.free + 1 } else s
  if takes = false then s
  else
    let edges := mmod 0 s.backup.edges n (fun v => min 0xFFFF (v + 1))
    let latch := if bitOf (tamperQuiet s) n then s.backup.edgeLatch else putBit s.backup.edgeLatch n true
    { s with backup := { s.backup with edges := edges, edgeLatch := latch } }

/-! ## MONITOR_EVENT -/

/-- What a detector measures, taken at the moment it qualifies (R367, R490). -/
def monitorSense (s : State) (m : MonSense) : State :=
  let c := s.ctl.cfg
  match m with
  | .glitch sram mv ps =>
    let k := if sram then 2 else 0
    if armed s k && glitchHolds c k mv ps then
      let s := raiseMonitor s k (detail mv)
      if sram then s else withhold s symmetricBay
    else s
  | .slow k below above us =>
    if k.val = 1 ∨ k.val = 3 ∨ k.val = 4 then
      raiseIf s k.val (detail (if limitIn c k.val 1 < below then below else above)) (slowHolds c k.val below above us)
    else s
  | .clockShort island p => clockEvent s island 1 (decide (limitIn c 5 1 < p))
  | .clockFreq island p => clockEvent s island 2 (decide (limitIn c 5 2 < p))
  | .clockStop island => clockEvent (if s.power.pwrGood && island != 4 then stopClock s island else s) island 3 true
  | .temp kelvin us =>
    raiseIf s 6 (detail kelvin) (tempHolds (limitIn c 6 1) (limitIn c 6 2) kelvin && decide (limitIn c 6 3 ≤ us))
  | .envOpen us =>
    let s := if us = 0 ∨ contactHolds c us then { s with backup := { s.backup with contact := decide (us = 0) } } else s
    raiseIf s 8 (detail us) (decide (us ≠ 0) && contactHolds c us)
  | .cell mv ns => raiseIf s 9 (detail mv) (cellHolds c mv ns)
  | .tamperSample v => tamperSample s v.toNat
  | .fabric a b mem hostWord op word differs =>
    if s.power.pwrGood then
      raiseIf (spoilOp (if differs = 0 then s else spoilWord s mem word.toNat differs.toNat) op hostWord) 11
        (detail (a + 256 * b + 65536 * mem)) true
    else s

/-! ## Tests (R378) -/

/-- The test of a monitor begins. -/
def startTest (s : State) (m : Nat) : State :=
  modMon { s with alarm := { s.alarm with testT := s.now } } m (fun x => { x with testing := true })

/-- A test is requested at a cut. -/
def requestTest (s : State) (m : Nat) : State :=
  let tests := s.alarm.tests ++ [m]
  let s := { s with alarm := { s.alarm with tests := tests } }
  if tests.length = 1 then startTest s m else s

/-- The running test ends; the next in order begins. -/
def testEnds (s : State) (m : Nat) (pass : Bool) : State :=
  match s.alarm.tests with
  | k :: rest =>
    if k ≠ m ∨ s.power.pwrGood = false then s
    else
      let s := { s with alarm := { s.alarm with tests := rest } }
      let s := modMon s m (fun x => { x with testing := false, result := (bit pass + 2 * (s.now / 1000)) % 2 ^ 64 })
      let s := match rest with
        | n :: _ => startTest s n
        | [] => s
      let s := record s 0x2112 (src 6 m) (Bytes.ofNatLE 1 m ++ Bytes.ofNatLE 1 (bit pass))
      if pass then s else raiseMonitor s m (detail 0)
  | [] => s

/-! ## Mesh checks (R380) -/

/-- A value deviates from its reference by more than `lim` per thousand. -/
def deviates (v ref lim : Nat) : Bool := decide (lim * ref < 1000 * (max v ref - min v ref))

/-- A check of one net fails; capacitance is measured on main power only (R384). -/
def netFails (c : Cfg) (withCap : Bool) (ref : Nat × Nat) (r : NetReading) : Bool :=
  deviates r.res ref.1 (limitIn c 7 1) || (withCap && deviates r.cap ref.2 (limitIn c 7 2)) || !r.patternOk

/-- The net that the MESH test has open now, each for one check of 40 µs; it is not watched (R378; the order of the nets, by number, is
log entry 206). -/
def netUnderTest (s : State) : Option Nat :=
  if s.alarm.tests.head? = some 7 ∧ s.now < s.alarm.testT + 160000 then some ((s.now - s.alarm.testT) / 40000) else none

/-- A check of the nets: consecutive failures are counted, failing nets shown; the nets that have failed often enough in a row
are answered. A net under test keeps what it showed. -/
def checkNets (s : State) (c : Cfg) (withCap : Bool) (nets : List NetReading) : State × Nat :=
  match s.backup.env with
  | none => (s, 0)
  | some e =>
    let open_ := netUnderTest s
    let watched := fun (k : Nat) => open_ != some k
    let fails := (upTo 4).map (fun k =>
      match nets[k]?, e.mesh[k]? with
      | some r, some ref => watched k && netFails c withCap ref r
      | _, _ => false)
    let counts := (upTo 4).map (fun k =>
      if watched k = false then mget 0 s.backup.meshFails k
      else if fails.getD k false then mget 0 s.backup.meshFails k + 1 else 0)
    let meshFails := (upTo 4).foldl (fun m k => mset 0 m k (counts.getD k 0)) s.backup.meshFails
    let mask := boolsToNat 4 (fun k => if watched k then fails.getD k false else bitOf s.backup.meshMask k)
    let fired := boolsToNat 4 (fun k => fails.getD k false && decide (limitIn c 7 3 ≤ counts.getD k 0))
    ({ s with backup := { s.backup with meshFails := meshFails, meshMask := mask } }, fired)

/-- The pattern generator gives the patterns of a check: its value moves on (R380). -/
def drivePatterns (s : State) : State := { s with backup := { s.backup with pattern := Config.patternStep s.backup.pattern } }

/-- MESH_CHECK on main power. -/
def meshCheck (s : State) (nets : List NetReading) : State :=
  if s.power.pwrGood ∧ 4 ≤ s.power.step then
    let (s, fired) := checkNets (drivePatterns s) s.ctl.cfg true nets
    raiseIf s 7 (detail fired) (fired != 0)
  else s

/-- The pattern generator takes a word from the random island, while SEEDING is not in effect; the manual does not say from which blocks:
a free value (log entry 252). -/
def reseedPattern (s : State) : State :=
  if s.power.pwrGood ∧ s.random.on ∧ seedingInForce s = false then
    { s with backup := { s.backup with pattern := Config.freeNat s.free, patternSeeds := s.backup.patternSeeds + 1 }, free := s.free + 1 }
  else s

/-! ## Authentication (R381, R389) -/

/-- The device's binding value. -/
def bindingValue : Bytes := Sha.sha256 (Bytes.ofText "VGEB" ++ Config.identitySeed)

/-- The challenge of an authentication. -/
def envChallenge (count : Nat) (serial : Bytes) : Bytes :=
  Sha.sha256 (Bytes.ofText "VGENV" ++ Bytes.ofNatLE 8 count ++ serial)

/-- r ‖ s verifies over a message under a P-256 public key x ‖ y with SHA-256. -/
def p256Verify (xy msg sig : Bytes) : Bool :=
  match Curve.checkPoint Curve.p256 (Bytes.fit 64 xy) with
  | .good x y =>
    let r := Bytes.toNatBE (Bytes.slice sig 0 32)
    let v := Bytes.toNatBE (Bytes.slice sig 32 32)
    sig.length == 64 && r != 0 && v != 0 && decide (r < Curve.p256.n) && decide (v < Curve.p256.n)
      && Curve.ecdsaVerify Curve.p256 (some (x, y)) (Sha.sha256 msg) r v
  | _ => false

/-- The answer's signature verifies and it came in time; a field never written is taken as zeros (log entry 21). -/
def answerGood (count : Nat) (serial key : Bytes) (a : EnvAnswer) : Bool :=
  a.present && p256Verify key (envChallenge count serial ++ Bytes.fit 32 a.binding ++ Bytes.ofNatLE 2 a.tempDeciK) a.sig
    && decide (a.answerMs ≤ 50)

/-- The seated Envelope is the enrolled one. -/
def envPasses (count : Nat) (e : EnvRec) (a : EnvAnswer) : Bool :=
  answerGood count e.serial e.pubKey a && a.serial == e.serial && a.binding == bindingValue

/-- A record of the Envelope: on backup it goes to the tail (R440). -/
def recordLife (s : State) (level : Nat) : State :=
  if backupInForce s then tailRecord s s.now 0x7103 (src 5 0) 0 (Bytes.ofNatLE 1 level) else record s 0x7103 (src 5 0) (Bytes.ofNatLE 1 level)

/-- Life levels crossed are recorded once each (R393). -/
def noteLife (s : State) : State :=
  let level := if envLife s = 0 then 3 else if envLife s ≤ 50 then 2 else if envLife s ≤ 250 then 1 else 0
  match s.backup.env with
  | some e =>
    if e.notes < level then
      let s := { s with backup := { s.backup with env := some { e with notes := level } } }
      each [1, 2, 3] s (fun s l => if e.notes < l ∧ l ≤ level then recordLife s l else s)
    else s
  | none => s

/-- What an authentication reads besides its verdict: the contact, the temperature, the cell voltage (R389, R393). -/
def readEnvelope (s : State) (a : EnvAnswer) : State :=
  let b := s.backup
  let seen := a.present && decide (a.answerMs ≤ 50)
  { s with backup := { b with
      authCount := b.authCount + 1, contact := a.present
      tempDeciK := if seen then a.tempDeciK % 65536 else b.tempDeciK
      cellMv := if a.present then a.cellMv % 65536 else b.cellMv
      lifeZero := b.lifeZero || (a.present && decide (a.cellMv < 2700)) } }

/-- An authentication is made: its verdict, and the state with what it read. -/
def authenticate (s : State) (e : EnvRec) (a : EnvAnswer) : Bool × State :=
  let s := readEnvelope s a
  let ok := envPasses s.backup.authCount e a
  (ok, noteLife { s with backup := { s.backup with envGood := ok || s.backup.envGood } })

/-- The periodic authentication, or its retry; a second failure is an ENV_PRESENT event (R381). In an open service window none is made, and
only the contact is seen (R392). -/
def envAuth (s : State) (a : EnvAnswer) (retry : Bool) : State :=
  match s.backup.env with
  | none => s
  | some e =>
    if s.power.pwrGood = false ∨ s.power.step < 4 ∨ s.life.st < 2 ∨ s.life.st = 5 then s
    else if s.backup.window.isSome then { s with backup := { s.backup with contact := a.present } }
    else if s.backup.authRetry ≠ retry then s
    else
      let (ok, s) := authenticate s e a
      if ok then { s with backup := { s.backup with authRetry := false } }
      else if retry = false then { s with backup := { s.backup with authRetry := true } }
      else raiseIf { s with backup := { s.backup with authRetry := false, envGood := false } } 8 (detail 0) true

/-! ## Enrolment (R390, R391) -/

/-- The first step of an enrolment that fails. -/
def enrolFails (count : Nat) (a : EnvAnswer) (nets : List NetReading) : Option Nat :=
  if a.present = false ∨ a.closedMs < 1000 then some 1
  else if a.certOk = false then some 2
  else if a.binding ≠ [] ∧ a.binding ≠ bindingValue then some 3
  else if answerGood count a.serial a.pubKey a = false then some 4
  else if a.cellMv < 3000 then some 5
  else if nets.length ≠ 4 ∨ nets.any (fun r => !r.patternOk) then some 6
  else none

/-- The enrolment record of a chip. -/
def enrolRecord (s : State) (a : EnvAnswer) (nets : List NetReading) : EnvRec :=
  let mesh := nets.map (fun r => (r.res, r.cap))
  match s.backup.env with
  | some e =>
    if e.serial = a.serial then { e with pubKey := a.pubKey, identity := Sha.sha256 (4 :: a.pubKey), mesh := mesh }
    else { serial := a.serial, pubKey := a.pubKey, identity := Sha.sha256 (4 :: a.pubKey), enrolled := keyClock s
           chargeUsed := 0, chargeFrac := 0, notes := 0, mesh := mesh }
  | none =>
    { serial := a.serial, pubKey := a.pubKey, identity := Sha.sha256 (4 :: a.pubKey), enrolled := keyClock s
      chargeUsed := 0, chargeFrac := 0, notes := 0, mesh := mesh }

/-- The binding value goes into a field that was never written (R391 step 7). -/
def bindEnvelope (s : State) (a : EnvAnswer) : State := if a.binding = [] then emit s (.envBind a.serial bindingValue) else s

/-- An enrolment is tried: its success and its effect. Refused before its fourth step, it has authenticated nothing. -/
def enrol (s : State) (a : EnvAnswer) (nets : List NetReading) : Bool × State :=
  let before := { s with backup := { s.backup with contact := a.present } }
  let s := readEnvelope s a
  match enrolFails s.backup.authCount a nets with
  | some k => (false, record (if k < 4 then before else s) 0x7102 (src 5 0) (Bytes.ofNatLE 1 k))
  | none =>
    let same := (s.backup.env.map (·.serial)) == some a.serial
    let s := bindEnvelope s a
    let b := s.backup
    let s := { s with backup := { b with
      env := some (enrolRecord s a nets), envGood := true, authRetry := false, window := none, meshFails := [], meshMask := 0
      lifeZero := same && b.lifeZero } }
    (true, record s 0x7101 (src 5 0) (Bytes.slice a.serial 0 8))

/-- An enrolment within the service window. -/
def enrolInWindow (s : State) (a : EnvAnswer) (nets : List NetReading) : State :=
  if s.power.pwrGood ∧ s.backup.window.isSome then (enrol s a nets).2 else s

/-! ## The service window (R392) -/

/-- The cut that opens it: on main power, while an Envelope is enrolled. -/
def openWindow (s : State) : State :=
  if s.power.pwrGood ∧ s.backup.env.isSome then { s with backup := { s.backup with window := some s.now, authRetry := false } }
  else s

/-- It closes, and every check starts afresh. -/
def closeWindow (s : State) : State :=
  if s.backup.window.isSome then { s with backup := { s.backup with window := none, meshFails := [] } } else s

def windowEnds_ (s : State) : State :=
  match s.backup.window with
  | some t => if t + 600 * 10 ^ 9 ≤ s.now then closeWindow s else s
  | none => s

/-! ## Life accounting (R393, R487) -/

/-- The largest x below 2^b with x^10 * d ≤ n. -/
def tenthRoot (n d : Nat) : Nat → Nat → Nat
  | 0, x => x
  | b + 1, x =>
    let y := x + 2 ^ b
    tenthRoot n d b (if y ^ 10 * d ≤ n then y else x)

/-- Whole degrees Celsius of a temperature in tenths of a kelvin. -/
def degreesC (deciK : Nat) : Int := (2 * Int.ofNat deciK - 5463) / 20

/-- The ageing allowance over 1 / d of an hour, in units of 2^-32 µAh, rounded down. -/
def ageing (t : Int) (d : Nat) : Nat :=
  let k := (t - 30).toNat
  tenthRoot ((20 * 2 ^ 32) ^ 10 * 2 ^ k) (d ^ 10) 64 0

/-- Rows of the backup current curve: degrees and tenths of µA. -/
def backupCurve : List (Int × Nat) := [(-40, 20), (0, 30), (25, 50), (40, 80), (55, 140), (70, 250), (85, 450), (95, 660)]

/-- Backup current over 1 / 460,800 of an hour, in units of 2^-32 µAh, rounded down. -/
def backupCharge (t : Int) : Nat :=
  let step := fun (lo hi : Int × Nat) =>
    let w := (hi.1 - lo.1).toNat
    (lo.2 * w + (hi.2 - lo.2) * (t - lo.1).toNat) * 2 ^ 32 / (w * 10 * 460800)
  if t ≤ -40 then 20 * 2 ^ 32 / (10 * 460800)
  else if 95 ≤ t then 660 * 2 ^ 32 / (10 * 460800)
  else match (backupCurve.zip backupCurve.tail).find? (fun p => decide (p.1.1 ≤ t) && decide (t < p.2.1)) with
    | some (lo, hi) => step lo hi
    | none => 0

/-- Charge in units of 2^-32 µAh is accounted. -/
def addCharge (s : State) (q : Nat) : State :=
  match s.backup.env with
  | some e =>
    let f := e.chargeFrac + q
    noteLife { s with backup := { s.backup with
      env := some { e with chargeFrac := f % 2 ^ 32, chargeUsed := e.chargeUsed + f / 2 ^ 32 } } }
  | none => s

/-! ## Acknowledgement (R256, R376, R387) -/

/-- The cause of a monitor's latch is still present at the cut. -/
def causePresent (s : State) (holding m : Nat) : Bool :=
  if m ≤ 6 ∨ m = 9 ∨ m = 13 then bitOf holding m
  else if m = 7 then s.backup.meshMask != 0
  else if m = 8 then bitOf holding m || !s.backup.envGood || s.backup.env.isNone
  else if m = 10 then s.backup.levels != 0
  else if m = 12 then s.alarm.plumbBad
  else false

/-- A cause of the random island's alarm that still holds (R492). -/
def randomCause (s : State) : Option (Nat × Nat) :=
  let held := match s.random.stopT with
    | some t => s.random.stopped && !s.random.swapHold && decide (t + stopHoldMs s * 10 ^ 6 ≤ s.now)
    | none => false
  let recent := (s.random.failTs.filter (fun t => decide (s.now < t + 600 * 10 ^ 9))).length
  if held then some (1, 0xFF)
  else if failHold s ≤ recent then some (2, 0xFF)
  else if s.random.katHold then some (3, 0xFF)
  else (s.bays.find? (fun e => e.2.why == .katFailed)).map (fun e => (4, e.1))

/-- One monitor's latch at the acknowledging cut. -/
def ackMonitor (s : State) (holding m : Nat) : State :=
  if (getMon s m).latched = false then s
  else if causePresent s holding m then modMon s m (fun x => { x with events := x.events + 1 })
  else
    let s := modMon s m (fun x => { x with latched := false })
    let s := { s with alarm := { s.alarm with fresh := s.alarm.fresh.filter (fun e => e.1 != m) } }
    if m = 10 then { s with backup := { s.backup with edgeLatch := 0, tamperSeen := 0 } } else s

/-- The random island's alarm at the acknowledging cut: raised again where its cause holds. -/
def ackRandom (s : State) : State :=
  if s.alarm.random = false then s
  else
    let s := { s with alarm := { s.alarm with random := false, fresh := s.alarm.fresh.filter (fun e => e.1 != 15) } }
    match randomCause s with
    | some (c, b) => randomAlarm s c b
    | none => s

/-- The cut of a joint that writes AlarmAck; `holding` tells of the level monitors and of the presence contact how they stand then. -/
def alarmAck (s : State) (holding serial : Nat) : State :=
  let s := { s with backup := { s.backup with contact := !bitOf holding 8 } }
  let before := latchedMask s
  let s := ackRandom (each (upTo 14) s (fun s m => ackMonitor s holding m))
  let after := latchedMask s
  let marks := 2 ^ s.backup.marks.length - 1
  let s := { s with backup := { s.backup with marksAcked := marks, latch := { s.backup.latch with mons := after } } }
  let s := if after = 0 then
      { s with alarm := { s.alarm with executed := 0xFF, alarmN := false }, backup := { s.backup with latch := {} } }
    else s
  record s 0x2111 srcDevice (Bytes.ofNatLE 2 (before - Nat.land before after) ++ Bytes.ofNatLE 2 after ++ Bytes.ofNatLE 8 serial)

/-! ## Meanings -/

/-- MONITOR_EVENT (R367, R369, R490). -/
def execMonitorEvent (t : Nat) (sense : MonSense) (s : State) : Result := .next (settle (monitorSense (at_ s t) sense))

/-- DECISION_INTERVAL_END (R373). -/
def execDecisionIntervalEnd (t : Nat) (s : State) : Result :=
  let s := at_ s t
  .next (if s.power.pwrGood then settle (decide_ s) else s)

/-- MONITOR_TEST_END (R378). -/
def execMonitorTestEnd (t : Nat) (m : Fin 14) (pass : Bool) (s : State) : Result := .next (settle (testEnds (at_ s t) m.val pass))

/-- MESH_CHECK (R380). -/
def execMeshCheck (t : Nat) (nets : List NetReading) (s : State) : Result := .next (settle (meshCheck (at_ s t) nets))

/-- MESH_PATTERN_RESEED (R380). -/
def execMeshPatternReseed (t : Nat) (s : State) : Result := .next (reseedPattern (at_ s t))

/-- ENV_AUTH (R381, R389). -/
def execEnvAuth (t : Nat) (env : EnvAnswer) (s : State) : Result := .next (settle (envAuth (at_ s t) env false))

/-- ENV_AUTH_RETRY (R381). -/
def execEnvAuthRetry (t : Nat) (env : EnvAnswer) (s : State) : Result := .next (settle (envAuth (at_ s t) env true))

/-- ENV_ENROLMENT (R391, R392). -/
def execEnvEnrolment (t : Nat) (env : EnvAnswer) (nets : List NetReading) (s : State) : Result :=
  .next (enrolInWindow (at_ s t) env nets)

/-- TAMPER_IN_EDGE (R379, R484). -/
def execTamperInEdge (t : Nat) (input : Fin 4) (widthNs : Nat) (s : State) : Result :=
  .next (tamperEdge (at_ s t) input.val widthNs)

/-- SERVICE_WINDOW_EXPIRY (R392). -/
def execServiceWindowExpiry (t : Nat) (s : State) : Result := .next (windowEnds_ (at_ s t))

/-- ENV_LIFE_ACCRUAL: the ageing allowance of 60 s on main power (R393). -/
def execEnvLifeAccrual (t : Nat) (s : State) : Result :=
  let s := at_ s t
  .next (if s.power.pwrGood then addCharge s (ageing (degreesC s.backup.tempDeciK) 60) else s)

end Sys2Proof.Machine
end

