-- ==== Sys2Proof/Machine/BackupWatch.lean ====
section
/-! DEFINITION. The reduced watch on backup power: checks, decisions, ballast marks, the tail, and the loss of the cell (R272,
R382 to R388, R440). -/

namespace Sys2Proof.Machine

open Sys2Proof

/-- The backup domain runs on the cell (R33, R382). -/
def onBackup (s : State) : Bool := backupInForce s && s.power.supply == .cell

/-- Main power is present and step 4 of a start has not begun: the backup domain's own CELL comparator and presence contact watch, since
they are never disarmed (R368). -/
def watchesEarly (s : State) : Bool := s.power.pwrGood && decide (s.power.step < 4)

/-- A monitor of the backup watch detects (R366, R368). -/
def backupArmed (s : State) (m : Nat) : Bool :=
  (onBackup s || watchesEarly s) && s.life.st != 5 && (m == 6 || m == 10 || decide (2 ≤ s.life.st))

/-! ## What is lost with all supply (R33, R370, R386) -/

/-- The backup domain loses all supply: its memories and counters, latch register and tail. -/
def loseSupply (s : State) : State :=
  let s := clearVault s
  { s with
    power := { s.power with supply := .dead }
    backup := { s.backup with latch := {}, tail := [], tailLost := 0, tailLostCode := 0, tailLostSrc := 0, edgeLatch := 0, edges := [], tamperSeen := 0
                              levels := 0, meshFails := [], meshMask := 0 }
    keys := { s.keys with nlfsr := [] } }

/-! ## Decisions (R373, R374, R385, R386) -/

/-- The class whose vault actions the latch register shows as done (R370, R382). -/
def latchDone (l : LatchReg) : Nat :=
  if l.cls = 0xFF then 0
  else if 3 ≤ l.cls ∧ l.keysDone = false ∧ l.rootDone = false then min l.cls 2
  else if 4 ≤ l.cls ∧ l.rootDone = false then 3
  else if l.cls = 5 ∧ l.scrapDone = false then 4
  else l.cls

/-- A ballast mark is written: marks 0 to 62 for any such class, mark 63 for SCRAP only (R387). -/
def writeMark (s : State) (cls : Nat) (cellGone : Bool) : State :=
  let n := s.backup.marks.length
  if n < 63 ∨ (n = 63 ∧ cls = 5) then
    { s with backup := { s.backup with
        marks := s.backup.marks ++ [s.backup.latch.mons % 2 ^ 14 + cls * 2 ^ 14 + bit cellGone * 2 ^ 17] } }
  else s

/-- The actions of a class on backup that `done` has not taken (R385). -/
def backupActions (s : State) (done cls : Nat) (cellGone : Bool) : State :=
  let s := if 4 ≤ cls ∧ done < 4 then clearVault s
    else if cls = 3 ∧ done < 3 then clearVaultKeys s
    else s
  if 4 ≤ cls ∧ done < cls then writeMark s cls cellGone else s

/-- The class executed, kept with the latches in the latch register. -/
def setLatch (s : State) (mons cls : Nat) : State :=
  { s with backup := { s.backup with latch :=
      { mons := mons, cls := cls
        keysDone := decide (3 ≤ cls), rootDone := decide (4 ≤ cls), scrapDone := decide (cls = 5) } } }

/-- A record of the tail, which holds those of a BACKUP period (R440). -/
def periodRecord (s : State) (m : Nat) (args : Bytes) : State :=
  if onBackup s then tailRecord s s.now (0x2101 + m) (src 6 m) 0 args else s

/-- A decision over the monitors found, each with its detail, in ascending order; a monitor already latched only keeps its
latch. `one` writes a single record for all. -/
def backupDecide (s : State) (found : List (Nat × Bytes)) (floor : Nat) (cellGone one : Bool) : State :=
  let l := s.backup.latch
  let new := found.filter (fun e => !bitOf l.mons e.1)
  let notes := new.filter (fun e => backupClass s e.1 == 0)
  let sets := new.filter (fun e => backupClass s e.1 != 0)
  let held := if l.cls = 0xFF then 0 else l.cls
  let cls := sets.foldl (fun c e => max c (max floor (backupClass s e.1))) (if floor ≠ 0 ∧ found ≠ [] then max held floor else held)
  let mons := sets.foldl (fun m e => putBit m e.1 true) l.mons
  let done := latchDone l
  let s := each notes s (fun s e =>
    periodRecord s e.1 (Bytes.ofNatLE 1 0 ++ Bytes.ofNatLE 2 l.mons ++ e.2))
  if cls = 0 then s
  else
    let s := setLatch s mons cls
    let s := backupActions s done cls cellGone
    let recs := if one then found.take 1 else sets
    each recs s (fun s e =>
      periodRecord s e.1 (Bytes.ofNatLE 1 cls ++ Bytes.ofNatLE 2 mons ++ e.2))

/-! ## Checks (R384) -/

/-- One check's findings, in ascending order of monitor. -/
def backupFindings (s : State) (fired kelvin cellMv : Nat) : List (Nat × Bytes) :=
  let c := s.ctl.backupCfg
  let find := fun (m : Nat) (holds : Bool) (d : Bytes) => if backupArmed s m && holds then [(m, d)] else []
  let active := Nat.lor s.backup.levels s.backup.edgeLatch
  let first := ((upTo 4).find? (bitOf active)).getD 0
  find 6 (tempHolds 228 398 kelvin) (detail kelvin)
    ++ find 7 (fired != 0) (detail fired)
    ++ find 10 (active != 0) (detail first)
    ++ find 13 (decide (cellMv < limitIn c 13 1) || decide (limitIn c 13 2 < cellMv)) (detail cellMv)

/-- Inputs first seen active while TAMPER_IN is already latched write one record each (R379). -/
def tamperTail (s : State) (wasLatched : Bool) : State :=
  let active := Nat.lor s.backup.levels s.backup.edgeLatch
  let new := (upTo 4).filter (fun n => bitOf active n && !bitOf s.backup.tamperSeen n)
  let rest := if wasLatched then new else new.drop 1
  let s := { s with backup := { s.backup with tamperSeen := new.foldl (fun m n => putBit m n true) s.backup.tamperSeen } }
  each rest s (fun s n => tailRecord s s.now 0x210B (src 6 10) 0
    (Bytes.ofNatLE 1 s.backup.latch.cls ++ Bytes.ofNatLE 2 s.backup.latch.mons ++ detail n))

/-- A check on backup ends. -/
def backupCheck (s : State) (nets : List NetReading) (kelvin cellMv levels : Nat) : State :=
  if onBackup s = false ∨ s.life.st = 5 then s
  else
    let t : Int := Int.ofNat kelvin - 273
    let s := addCharge s (ageing t 460800 + backupCharge t)
    let s := { s with backup := { s.backup with levels := levels % 16, cellMv := cellMv % 65536, tempDeciK := kelvin * 10 % 65536 } }
    let (s, fired) := checkNets (drivePatterns s) s.ctl.backupCfg false nets
    let was := bitOf s.backup.latch.mons 10
    let s := backupDecide s (backupFindings s fired kelvin cellMv) 0 false false
    if backupArmed s 10 then tamperTail s was else s

/-! ## Continuous watches (R383, R385, R386) -/

/-- A CELL or ENV_PRESENT event: on backup CLEAR-ROOT at least, one tail record, the mark, and without the cell the domain then dies
(R385, R386); during steps 1 to 3 of a start an event like any other, whose record waits in the queue (R368, R369); while the main domain is
held in reset, the backup domain's own decision. -/
def watchEvent (s : State) (m : Nat) (d : Bytes) (cellPresent : Bool) : State :=
  let s := if backupArmed s m = false then s
    else if onBackup s then backupDecide s [(m, d)] (if backupClass s m = 5 then 5 else 4) (!cellPresent) true
    else if 1 ≤ s.power.step then raiseMonitor s m d
    else backupDecide s [(m, d)] 0 (!cellPresent) true
  if onBackup s && !cellPresent then loseSupply s else s

/-- What the continuous watches report. -/
def backupWatch (s : State) (m : MonSense) (cellPresent : Bool) : State :=
  let c := s.ctl.backupCfg
  if onBackup s = false ∧ watchesEarly s = false then s
  else match m with
    | .cell mv ns => if cellHolds c mv ns then watchEvent s 9 (detail mv) cellPresent else s
    | .envOpen us =>
      if us = 0 then { s with backup := { s.backup with contact := true } }
      else if contactHolds c us then watchEvent { s with backup := { s.backup with contact := false } } 8 (detail us) cellPresent else s
    | .glitch _ _ _ => s
    | .slow _ _ _ _ => s
    | .clockShort _ _ => s
    | .clockFreq _ _ => s
    | .clockStop _ => s
    | .temp _ _ => s
    | .tamperSample _ => s
    | .fabric _ _ _ _ _ _ _ => s

/-! ## Meanings -/

/-- BACKUP_CHECK (R384). -/
def execBackupCheck (t : Nat) (nets : List NetReading) (kelvin cellMv : Nat) (levels : BitVec 4) (s : State) : Result :=
  .next (backupCheck (at_ s t) nets kelvin cellMv levels.toNat)

/-- BACKUP_WATCH_EVENT (R383, R385, R386). -/
def execBackupWatchEvent (t : Nat) (sense : MonSense) (cellPresent : Bool) (s : State) : Result :=
  .next (settle (backupWatch (at_ s t) sense cellPresent))

end Sys2Proof.Machine
end

