-- ==== Sys2Proof/Machine/Kallek.lean ====
section
/-! DEFINITION. The Kallek protocol: paths, roles and scopes, what of the dictionary a role sees, and the messages GET, DESCRIBE
and NEXT (R325 to R333, R349, R356, R362, R402, R414, R438). -/

namespace Sys2Proof.Machine

open Sys2Proof

/-! ## Roles (R328) -/

/-- Roles of requests: the position of the role's rights in an access byte, then the return path and recovery staging. -/
def roleTenant : Nat := 0
def roleOperator : Nat := 1
def roleMaker : Nat := 3
def roleReturn : Nat := 4
def roleRecovery : Nat := 5

/-- States that permit a MAKER session (R395). -/
def makerState (s : State) : Bool := s.life.st == 0 || s.life.st == 1 || s.life.st == 2 || s.life.st == 4

/-- The return path is offered: DEPLOYED or RETURNED, the root absent (R402). -/
def returnOffered (s : State) : Bool := (s.life.st == 3 || s.life.st == 4) && s.vault.rootAbsent

/-- What becomes of a Kallek request before it is served. -/
inductive Gate where
  /-- no reply -/
  | silent
  /-- the mailbox command of an LD, or the fabric-manager command, that carries it returns Busy -/
  | busy (ld : Option Nat)
  /-- a reply with a status -/
  | refuse (status : Nat)
  /-- served in a role, for an instance on the tenant path -/
  | go (role inst : Nat)
  deriving DecidableEq, Repr

/-- The mailbox that carries a path, if one does: of an LD, or of the FM-owned LD. -/
def pathLd (s : State) (p : Path) : Option (Option Nat) :=
  match p with
  | .tenant ld _ => some (some ld.toNat)
  | .session n => (match mfind s.link.sessions n.toNat with
    | some x => (match x.tr with
      | .doe ld => some (some ld.toNat)
      | .fmDoe _ => some none
      | .mctp => none)
    | none => none)
  | _ => none

/-- The role that a path gives; the status with which it is refused where it gives none. -/
def pathRole (s : State) (p : Path) : Gate :=
  match p with
  | .tenant ld i =>
    if instLd s.ctl.cfg i.toNat ≠ ld.toNat ∨ (getInst s i.toNat).st = 0 then .refuse 0x0302
    else if (getInst s i.toNat).st = 2 then .refuse 0x0703
    else .go roleTenant i.toNat
  | .session n =>
    (match mfind s.link.sessions n.toNat with
    | some x =>
      if x.role = roleOperator then .go roleOperator 0xFFFF
      else if x.role = roleMaker ∧ makerState s then .go roleMaker 0xFFFF
      else .refuse 0x0302
    | none => .refuse 0x0302)
  | .returnPath => if returnOffered s then .go roleReturn 0xFFFF else .refuse 0x0302
  | _ => .refuse 0x0302

/-- The islands that carry and serve a request have their clocks (R22): the link island is taken to hold the I3C target, whose island
the manual does not name (log entry 234). -/
def pathRuns (s : State) : Bool := islandRuns s islControl && islandRuns s islLink

/-- The gate that every request passes: the start (R362, R414), a replaced controller or Link Manager (R356), the header
(R332), the role (R328), an instance reset (R311). -/
def gate (s : State) (h : KHdr) : Gate :=
  let head := fun (g : Gate) => if h.version ≠ 1 ∨ h.lengthOk = false then .refuse 0x0202 else g
  if s.power.pwrGood = false then .silent
  else if s.power.stop ≠ .running then
    (if s.power.stop = .images ∧ h.path = .recovery then head (.go roleRecovery 0xFFFF) else .silent)
  else if s.power.step < 8 then .silent
  else if s.fw.replacing = some 2 ∧ (pathLd s h.path).isSome then .busy ((pathLd s h.path).getD none)
  else if s.power.step < 11 ∨ s.fw.replacing = some 1 then .refuse 0x0104
  else head (pathRole s h.path)

/-- Two requests come from one opener: the same instance, the same session, the same open path. -/
def samePath (a b : Path) : Bool :=
  match a, b with
  | .tenant _ i, .tenant _ j => i == j
  | .session m, .session n => m == n
  | .returnPath, .returnPath => true
  | .recovery, .recovery => true
  | _, _ => false

/-- The header of the Kallek request that a command brings. -/
def kallekHdr (c : Instr) : Option KHdr :=
  match c with
  | .get _ h _ _ _ _ | .describe _ h _ _ | .next _ h _ _ | .kallekUnknownOp _ h _ | .jointOpen _ h _ | .jointRead _ h _ _ _ _
  | .jointStage _ h _ | .jointStatement _ h | .jointSign _ h _ _ | .jointCommit _ h | .jointAbort _ h | .jointStatus _ h
  | .kallekTunnel _ _ h _ _ => some h
  | _ => none

/-- A request of the path waits in a channel. -/
def pathWaits (s : State) (p : Path) : Bool := s.link.stalled.any (fun c => (kallekHdr c).any (fun h => samePath h.path p))

/-- A signature that came by the path is still under verification. -/
def signsPending (s : State) (p : Path) : Bool :=
  (openJoints s).any (fun e => e.2.verifying.any (fun v => samePath v.2.2.path p))

/-- A request reaches the custody controller: the clocks on its way run, and none that came by its path before it still waits (R22, R332). -/
def pathFree (s : State) (p : Path) : Bool := pathRuns s && !pathWaits s p

/-- A request whose effect is `f`: requests of one path are processed in the order in which they arrive (R332), so one that finds an
earlier one under way waits in its channel. A JOINT_SIGN and a JOINT_COMMIT take their place behind signatures of their own (R338,
R340): for them `behind` is false. -/
def kallekWord (s : State) (h : KHdr) (behind : Bool) (c : Instr) (f : State → State) : State :=
  if pathFree s h.path = false ∨ (behind ∧ signsPending s h.path) then stall s c else f s

/-- A request is served, or answered as its gate says; each receives one reply (R332). -/
def kallek (s : State) (h : KHdr) (op : Nat) (serve : Nat → Nat → State) : State :=
  match gate s h with
  | .silent => s
  | .busy ld => emit s (.mailbox ld "Busy" [])
  | .refuse st => kReply s h op st []
  | .go role inst => serve role inst

/-! ## Rights and scope (R326, R328, R329) -/

/-- Roster objects (R339). -/
def isRoster (index sub : Nat) : Bool :=
  (index == 0x7000 && sub == 1) || (decide (0x7010 ≤ index) && decide (index ≤ 0x701F)) || (decide (0x7040 ≤ index) && decide (index ≤ 0x704F))

/-- Objects of MAKER (R260, R339, R399). -/
def makerRight (s : State) (index sub : Nat) : Right :=
  if index = 0xA000 ∧ sub = 2 then (if makerState s then 2 else 0)
  else if index = 0x3005 ∧ sub = 1 then (if s.life.debug ∧ bitOf s.life.scope 4 then 2 else 0)
  else if 0x7040 ≤ index ∧ index ≤ 0x704F then (if s.life.st ≤ 2 then 2 else 0)
  else 0

/-- Right of a role on an object in the state at hand. -/
def rightOf (s : State) (role index sub : Nat) (o : Obj) : Right :=
  if role = roleTenant then o.ten
  else if role = roleOperator then (if s.life.st ≤ 2 ∧ isRoster index sub then 2 else o.op)
  else if role = roleMaker then makerRight s index sub
  else 0

/-- An object lies in the scope of a role: the tenant path reaches its own instance, what is indexed by its own tenant or
partition, and device-wide objects that its column shows (R328). -/
def inScope (s : State) (role inst index sub : Nat) (o : Obj) : Bool :=
  if role = roleTenant then
    let t := instTenant s.ctl.cfg inst
    if 0x8000 ≤ index ∧ index ≤ 0x8FFF then index == 0x8000 + inst
    else if 0x6050 ≤ index ∧ index ≤ 0x606F then (index % 16) * 256 + sub == t
    else if 0x5050 ≤ index ∧ index ≤ 0x5053 then partOwner s.ctl.cfg sub == t
    else decide (1 ≤ o.ten)
  else role == roleOperator || role == roleMaker

/-- Tables whose subindex 0 is an entry of their own. -/
def zeroIsEntry (index : Nat) : Bool := decide (0x6050 ≤ index) && decide (index ≤ 0x606F)

/-- Objects that the return path reads (R402). -/
def returnReads : List (Nat × Nat) :=
  [(0xA000, 1), (0x6000, 1), (0xA001, 2), (0xA001, 4), (0xA001, 5), (0x2800, 0x22)]

/-- The object of a role at index.sub that it may read; none where it may not. -/
def readable1 (s : State) (role inst index sub : Nat) : Option Obj :=
  match dictAt index sub with
  | some o =>
    if role = roleReturn then (if returnReads.contains (index, sub) then some o else none)
    else if inScope s role inst index sub o ∧ 1 ≤ rightOf s role index sub o then some o else none
  | none => none

/-- Subindex 0 of an index as an object: a U8 with the highest subindex in use, read by every role that reads any object of the
index (R325). -/
def subZero (s : State) (role inst index : Nat) : Option Obj :=
  if zeroIsEntry index then none
  else
    let subs := subsOf index
    if subs.any (fun k => (readable1 s role inst index k).isSome) then some { num 1 1 1 1 3 (subs.getLastD 0) with mak := 1 } else none

def readable (s : State) (role inst index sub : Nat) : Option Obj :=
  if sub = 0 ∧ zeroIsEntry index = false then (if role = roleReturn then none else subZero s role inst index)
  else readable1 s role inst index sub

/-- The object of a role at index.sub that exists for it, be it only for DESCRIBE and as the target of a write in a quorum joint
(R329). -/
def visible (s : State) (role inst index sub : Nat) : Option Obj :=
  match readable s role inst index sub with
  | some o => some o
  | none =>
    match dictAt index sub with
    | some o => if inScope s role inst index sub o ∧ 2 ≤ o.cus then some o else none
    | none => none

/-! ## Reading (R333, R438) -/

/-- Index of the first record of a read of EvrRecords: the number that the offset resolves to, or the oldest. -/
def evrFrom (r : Recorder) (offset : Nat) : Nat :=
  let lo := evrOldest r
  let n := lo + (offset + 2 ^ 32 - lo % 2 ^ 32) % 2 ^ 32
  if n ≤ r.head then n else lo

/-- Bytes of a GET: total length, and the bytes from an offset. -/
def readBytes (s : State) (index sub : Nat) (o : Obj) (offset max : Nat) : Nat × Bytes :=
  if index = 0xC000 ∧ sub = 4 then
    let r := s.evr
    let from_ := evrFrom r offset
    (32 * (r.head - evrOldest r), ((r.ring.filter (fun e => decide (from_ ≤ e.seq))).take (max / 32)).flatMap recBytes)
  else
    let v := if sub = 0 ∧ zeroIsEntry index = false then Bytes.ofNatLE 1 o.dflt else objValue s index sub o
    (v.length, (v.drop offset).take (min max 73712))

/-- Body of a GET reply, or its status. -/
def getBody (s : State) (role inst index sub offset max : Nat) : Except Nat Bytes :=
  match readable s role inst index sub with
  | none => .error 0x0203
  | some o =>
    if index = 0xC000 ∧ sub = 4 ∧ 65536 < max then .error 0x0202
    else
      let (total, b) := readBytes s index sub o offset max
      .ok (Bytes.ofNatLE 1 o.type ++ Bytes.zeros 3 ++ Bytes.ofNatLE 4 total ++ b)

def kReplyExcept (s : State) (h : KHdr) (op : Nat) (r : Except Nat Bytes) : State :=
  match r with
  | .ok b => kReply s h op 0 b
  | .error st => kReply s h op st []

def kGet (s : State) (h : KHdr) (index sub offset max : Nat) : State :=
  kallek s h 0x01 (fun role inst =>
    if role = roleRecovery then kReply s h 0x01 0x0203 []
    else kReplyExcept s h 0x01 (getBody s role inst index sub offset max))

def kDescribe (s : State) (h : KHdr) (index sub : Nat) : State :=
  kallek s h 0x02 (fun role inst =>
    match visible s role inst index sub with
    | some o => if role = roleReturn then kReply s h 0x02 0x0203 [] else kReply s h 0x02 0 (descriptor { o with dflt := shownDefault s index sub o })
    | none => kReply s h 0x02 0x0203 [])

/-- Subindices that an index may show, 0 first. -/
def shownSubs (index : Nat) : List Nat := if zeroIsEntry index then subsOf index else 0 :: subsOf index

/-- The next index.sub visible to a role, in ascending order. -/
def nextVisible (s : State) (role inst index sub : Nat) : Option (Nat × Nat) :=
  (allIndices.filter (fun x => decide (index ≤ x))).findSome? (fun x =>
    ((shownSubs x).find? (fun k => (decide (index < x) || decide (sub < k)) && (visible s role inst x k).isSome)).map (fun k => (x, k)))

def kNext (s : State) (h : KHdr) (index sub : Nat) : State :=
  kallek s h 0x03 (fun role inst =>
    if role = roleReturn ∨ role = roleRecovery then kReply s h 0x03 0x0203 []
    else match nextVisible s role inst index sub with
      | some (x, k) => kReply s h 0x03 0 (Bytes.ofNatLE 2 x ++ Bytes.ofNatLE 1 k)
      | none => kReply s h 0x03 0 [0xFF, 0xFF, 0xFF])

/-! ## Meanings -/

/-- GET (R333, R438). -/
def execGet (t : Nat) (h : KHdr) (index : BitVec 16) (sub : Byte) (offset max : BitVec 32) (s : State) : Result :=
  .next (kallekWord (at_ s t) h true (.get t h index sub offset max) (fun s => kGet s h index.toNat sub.toNat offset.toNat max.toNat))

/-- DESCRIBE (R326, R329). -/
def execDescribe (t : Nat) (h : KHdr) (index : BitVec 16) (sub : Byte) (s : State) : Result :=
  .next (kallekWord (at_ s t) h true (.describe t h index sub) (fun s => kDescribe s h index.toNat sub.toNat))

/-- NEXT (R333). -/
def execNext (t : Nat) (h : KHdr) (index : BitVec 16) (sub : Byte) (s : State) : Result :=
  .next (kallekWord (at_ s t) h true (.next t h index sub) (fun s => kNext s h index.toNat sub.toNat))

/-- KALLEK_UNKNOWN_OP (R332). -/
def execKallekUnknownOp (t : Nat) (h : KHdr) (op : Byte) (s : State) : Result :=
  .next (kallekWord (at_ s t) h true (.kallekUnknownOp t h op) (fun s => kallek s h op.toNat (fun _ _ => kReply s h op.toNat 0x0201 [])))

end Sys2Proof.Machine
end

