-- ==== Sys2Proof/Machine/Migration.lean ====
section
/-! DEFINITION. Migration: offers, saves and restores of an instance with its keys (R316 to R323). -/

namespace Sys2Proof.Machine

open Sys2Proof

/-! ## Offers (R316) -/

def offerBody (j : Nat) (id identity ecdh ek : Bytes) : Bytes :=
  Bytes.ofNatLE 4 0x4D4F4601 ++ Bytes.ofNatLE 2 1832 ++ [0, 0] ++ Bytes.ofNatLE 2 j ++ Bytes.zeros 6 ++ Bytes.fit 16 id
    ++ Bytes.fit 32 identity ++ Bytes.zeros 8 ++ Bytes.fit 96 ecdh ++ Bytes.fit 1568 ek

/-- A number of draws of the custody controller in order; none where one of them cannot be served. -/
def controllerDraws : List Nat → State → Option (List Bytes) × State
  | [], s => (some [], s)
  | n :: ns, s =>
    match controllerDraw s n with
    | (none, s) => (none, s)
    | (some r, s) =>
      match controllerDraws ns s with
      | (some rs, s) => (some (r :: rs), s)
      | (none, s) => (none, s)

/-- The offer becomes readable: its identifier, its ephemeral keys and its signature's nonce are drawn. -/
def offerReady (s : State) (j : Nat) : State :=
  match (getInst s j).offer with
  | some o =>
    if o.ready ∨ s.keys.identity = none then s
    else match controllerDraws [16, 56, 32, 32, 56] s with
      | (some [id, e, d, z, n], s) =>
        let priv := Curve.drawnNonce Curve.p384 e
        let (ek, dk) := Lattice.kemKeyGen Lattice.kem1024 d z
        let body := offerBody j id (identityDigest s) (publicOfScalar priv) ek
        modInst s j (fun x => { x with offer := some { o with
          ready := true, bytes := body ++ identitySign s n body, offerId := id, ecdh := Bytes.ofNatBE 48 priv, kem := dk } })
      | (_, s) => s
  | none => s

/-- An offer lives 600 s. -/
def offerExpires (s : State) (j : Nat) : State :=
  match (getInst s j).offer with
  | some o => if o.bornT + 600 * 10 ^ 9 ≤ s.now then modInst s j (fun x => { x with offer := none }) else s
  | none => s

/-! ## Saves (R317 to R320) -/

/-- Length of an SPDM certificate chain as its own header gives it. -/
def chainLen (b : Bytes) : Nat := Bytes.fieldLE b 0 2

def offerOf (req : Bytes) : Bytes := req.take 1832
def saveChain (req : Bytes) : Bytes := (req.drop 1832).take (chainLen (req.drop 1832))
def saveList (req : Bytes) : Bytes := req.drop (1832 + chainLen (req.drop 1832))

/-- Handles of a save request's key list. -/
def saveHandles (req : Bytes) : List Nat :=
  let l := saveList req
  (upTo (Bytes.fieldLE l 0 2)).map (fun k => Bytes.fieldLE l (2 + 4 * k) 4)

/-- Lengths and layout of a save request and its offer. -/
def saveLayoutOk (req : Bytes) : Bool :=
  let o := offerOf req
  let l := saveList req
  decide (1832 + 2 ≤ req.length) && decide (4 ≤ chainLen (req.drop 1832)) && decide (chainLen (req.drop 1832) ≤ 4096)
    && decide (2 ≤ l.length) && decide (Bytes.fieldLE l 0 2 ≤ 64) && l.length == 2 + 4 * Bytes.fieldLE l 0 2
    && Bytes.fieldLE o 0 4 == 0x4D4F4601 && Bytes.fieldLE o 4 2 == 1832 && Bytes.fieldLE o 6 2 == 0
    && Bytes.allZero (Bytes.slice o 0x0A 6) && Bytes.allZero (Bytes.slice o 0x40 8)

/-- Digest of an identity public key (R265). -/
def keyDigest (xy : Bytes) : Bytes := Sha.sha256 (4 :: xy)

/-- A chain's leaf has a digest and its key signed a message. -/
def chainSigned (chain digest msg sig : Bytes) : Bool :=
  match Config.chainLeaf chain with
  | some leaf => keyDigest leaf == digest && p384Verify leaf msg sig
  | none => false

/-- Status of a handle in a save's list; a key whose words do not match cannot be read (R28). -/
def saveHandleStatus (s : State) (tenant h : Nat) : Nat :=
  if 2 ^ 18 ≤ h then 0x0301
  else match keyByHandle s h s.ctl.epoch with
    | none => 0x0301
    | some (k, _, p) => if keyCorrupt s k p then 0x0801 else if k.tenant ≠ tenant then 0x0302 else if k.migrate = false then 0x0304 else 0

/-- Derivation-cache entries of an instance that a save of certain keys carries: offset and entry. -/
def saveDerivs (s : State) (i : Nat) (handles : List Nat) : List (Nat × Deriv) :=
  let c := s.ctl.cfg
  let lo := derivTermBase c i
  s.keys.deriv.filterMap (fun e =>
    if lo ≤ e.1 ∧ e.1 < lo + derivTermCount c i ∧ (derivEntry s e.1 (instTenant c i) (derivMaxAge c i)).isSome
        ∧ handles.contains e.2.bdk
    then some (e.1 - lo, e.2) else none)

/-- Bytes of the payload of a save. -/
def savePayloadLen (s : State) (i : Nat) (handles : List Nat) : Nat :=
  560 + (handles.map (fun h => 8 + 64 * (1 + ((keyByHandle s h s.ctl.epoch).map (·.1.ext)).getD 0))).foldl (· + ·) 0
    + 68 * (saveDerivs s i handles).length

/-- Checks of a save request in the order of R317; 0 where all pass. -/
def saveStatus (s : State) (i : Nat) (req : Bytes) : Nat :=
  let x := getInst s i
  if x.st = 1 then 0x0701
  else if x.st ≠ 4 ∨ quiet x = false then 0x0704
  else if saveLayoutOk req = false then 0x0202
  else if chainSigned (saveChain req) (Bytes.slice (offerOf req) 0x20 32) ((offerOf req).take 0x6C8) ((offerOf req).drop 0x6C8) = false
  then 0x0404
  else
    let bad := ((saveHandles req).map (saveHandleStatus s (instTenant s.ctl.cfg i))).find? (· != 0)
    match bad with
    | some st => st
    | none =>
      if 65536 < 0x710 + 96 + savePayloadLen s i (saveHandles req) then 0x0903
      else if (servingBay s).isNone then 0x0103
      else if s.life.debug then 0x0104
      else 0

/-- N objects of an integer type that the instance record carries, with their widths. -/
def carriedSubs : List (Nat × Nat) :=
  (upTo 256).filterMap (fun sub => match dictInst sub with
    | some o => if o.kept = 1 ∧ o.isNum ∧ sub ≠ 4 then some (sub, o.maxLen) else none
    | none => none)

/-- A number as `n` bytes, two's complement. -/
def intBytes (n : Nat) (v : Int) : Bytes := Bytes.ofNatLE n (v % (2 ^ (8 * n) : Int)).toNat

/-- The instance record (R320). -/
def instRecord (s : State) (i : Nat) : Bytes :=
  let x := refilled s.ctl.cfg i s.now (getInst s i)
  Bytes.fit 512 (carriedSubs.flatMap (fun e => match dictInst e.1 with
      | some o => Bytes.fit e.2 (objValue s (0x8000 + i) e.1 o)
      | none => [])
    ++ Bytes.ofNatLE 2 x.s ++ Bytes.ofNatLE 2 (ringEntries s.ctl.cfg i) ++ Bytes.ofNatLE 4 (x.sub / oneToken).toNat
    ++ intBytes 8 (x.core / 1000))

/-- SHA-256 of the public part of a tenant's authority key, zero where it has none. -/
def authorityDigest (s : State) (tenant : Nat) : Bytes :=
  match keyByHandle s (tenantAuthority s.ctl.cfg tenant) s.ctl.epoch with
  | some (k, _, _) => Sha.sha256 (publicPart k.type k.material)
  | none => Bytes.zeros 32

/-- The tenant record. -/
def tenantRecord (s : State) (tenant : Nat) : Bytes :=
  Bytes.ofNatLE 8 (kumCounter s tenant) ++ Bytes.ofNatLE 4 (tenantAuthority s.ctl.cfg tenant) ++ authorityDigest s tenant ++ Bytes.zeros 4

/-- A guard as it travels: v = C. -/
def travelling (k : Key) : Key := { k with guard := k.guard.map (fun g => { g with v := g.ceiling }) }

def keyRecord (h gen wepoch : Nat) (k : Key) : Bytes :=
  Bytes.ofNatLE 4 h ++ Bytes.ofNatLE 1 k.ext ++ Bytes.zeros 3 ++ slotBytes h gen wepoch (travelling k)

def derivRecord (off : Nat) (d : Deriv) : Bytes :=
  Bytes.ofNatLE 4 off ++ Bytes.ofNatLE 2 (1 + 2 * bit d.aes) ++ Bytes.ofNatLE 2 d.tenant ++ Bytes.ofNatLE 4 d.bdk
    ++ Bytes.ofNatLE 4 d.bdkGen ++ Bytes.ofNatLE 4 d.high ++ Bytes.fit 8 d.ikid ++ Bytes.ofNatLE 8 d.written ++ Bytes.fit 32 d.ikey

/-- The payload as it stands at the cut. -/
def savePayload (s : State) (i : Nat) (handles : List Nat) : Bytes :=
  instRecord s i ++ tenantRecord s (instTenant s.ctl.cfg i)
    ++ handles.flatMap (fun h => match keyByHandle s h s.ctl.epoch with
      | some (k, gen, _) => keyRecord h gen (slotAt s h).wepoch k
      | none => [])
    ++ (saveDerivs s i handles).flatMap (fun e => derivRecord e.1 e.2)

/-- Deletion items of the listed keys. -/
def saveDeletes (s : State) (handles : List Nat) : List ItemOut :=
  handles.map (fun h => { cmd := 2, handle := h, gen := (slotAt s h).gen, key := none, moved := true })

/-- The save's cut (R318): `before` is the state before the cut, whose instance and keys the blob holds. -/
def saveCut (before s : State) (i : Nat) (req : Bytes) : State :=
  modInst s i (fun x => { x with st := 5, saveReq := some req, blob := some (savePayload before i (saveHandles req)), blobReady := false
                                 saveEpoch := s.ctl.epoch })

/-- One-step key derivation of SP 800-56C with SHA-384, 256 bits. -/
def migrationKey (z1 z2 offerId src dst : Bytes) : Bytes :=
  (Sha.sha384 (Bytes.ofNatBE 4 1 ++ z1 ++ z2 ++ Bytes.ofText "VGMIG" ++ offerId ++ src ++ dst)).take 32

/-- x coordinate of a P-384 agreement; none where the point is bad. -/
def agree384 (d : Nat) (xy : Bytes) : Option Bytes :=
  match Curve.checkPoint Curve.p384 (Bytes.fit 96 xy) with
  | .good x y => (match Curve.mul Curve.p384 d (some (x, y)) with
    | some (zx, _) => some (Bytes.ofNatBE 48 zx)
    | none => none)
  | _ => none

def blobHeader (len i tenant keys : Nat) (offerId src dst : Bytes) (epoch : Nat) (ecdh ct nonce : Bytes) : Bytes :=
  Bytes.ofNatLE 4 0x4D424C01 ++ Bytes.ofNatLE 4 len ++ Bytes.ofNatLE 2 i ++ Bytes.ofNatLE 2 tenant ++ Bytes.ofNatLE 1 keys
    ++ Bytes.zeros 3 ++ Bytes.fit 16 offerId ++ Bytes.fit 32 src ++ Bytes.fit 32 dst ++ Bytes.ofNatLE 8 epoch ++ Bytes.zeros 8
    ++ Bytes.fit 96 ecdh ++ Bytes.fit 1568 ct ++ Bytes.fit 12 nonce ++ Bytes.zeros 4

/-- The blob is sealed and becomes readable (R318, R319). -/
def blobReady (s : State) (i : Nat) : State :=
  let x := getInst s i
  match x.saveReq, x.blob with
  | some req, some payload =>
    if x.st ≠ 5 ∨ x.blobReady then s
    else match controllerDraws [56, 32, 12, 56] s with
      | (some [e, m, nonce, n], s) =>
        let o := offerOf req
        let id := Bytes.slice o 0x10 16
        let dst := Bytes.slice o 0x20 32
        let priv := Curve.drawnNonce Curve.p384 e
        let (z2, ct) := Lattice.kemEncaps Lattice.kem1024 (Bytes.slice o 0xA8 1568) m
        let k := migrationKey ((agree384 priv (Bytes.slice o 0x48 96)).getD (Bytes.zeros 48)) z2 id (identityDigest s) dst
        let len := 0x710 + payload.length + 96
        let head := blobHeader len i (instTenant s.ctl.cfg i) (saveHandles req).length id (identityDigest s) dst x.saveEpoch
          (publicOfScalar priv) ct nonce
        let c := Modes.gcmCrypt (Modes.aes k) nonce payload
        let body := head ++ c ++ Modes.gcmTag (Modes.aes k) nonce head c
        modInst s i (fun x => { x with blob := some (body ++ identitySign s n body), blobReady := true })
      | (_, s) => s
  | _, _ => s

/-! ## Restores (R321, R322) -/

/-- A restore request taken apart. -/
structure RestoreReq where
  blob : Bytes
  chain : Bytes
  place : Bytes
  deriving DecidableEq, Repr

def parseRestore (req : Bytes) : Option RestoreReq :=
  let n := Bytes.fieldLE req 4 4
  let m := chainLen (req.drop n)
  if Bytes.fieldLE req 0 4 ≠ 0x4D424C01 ∨ n < 0x710 + 96 + 560 ∨ 65536 < n ∨ m < 4 ∨ 4096 < m ∨ req.length ≠ n + m + 16 then none
  else
    let b := req.take n
    let p := req.drop (n + m)
    if Bytes.allZero (Bytes.slice b 0x0D 3) = false ∨ Bytes.allZero (Bytes.slice b 0x68 8) = false
        ∨ Bytes.allZero (Bytes.slice b 0x6FC 4) = false ∨ 64 < Bytes.fieldLE b 0x0C 1 ∨ Bytes.allZero (p.drop 9) = false then none
    else some { blob := b, chain := (req.drop n).take m, place := p }

def RestoreReq.tenant (r : RestoreReq) : Nat := Bytes.fieldLE r.place 0 2
def RestoreReq.ld (r : RestoreReq) : Nat := Bytes.fieldLE r.place 2 1
def RestoreReq.area (r : RestoreReq) : Nat := Bytes.fieldLE r.place 3 1
def RestoreReq.termBase (r : RestoreReq) : Nat := Bytes.fieldLE r.place 4 4
def RestoreReq.part (r : RestoreReq) : Nat := Bytes.fieldLE r.place 8 1

/-- The payload opened with the live offer. -/
def openBlob (o : Offer) (b : Bytes) : Option Bytes :=
  let n := b.length - 0x710 - 96
  let head := b.take 0x700
  let ct := (b.drop 0x700).take n
  match agree384 (Bytes.toNatBE o.ecdh) (Bytes.slice b 0x70 96) with
  | none => none
  | some z1 =>
    let z2 := Lattice.kemDecaps Lattice.kem1024 o.kem (Bytes.slice b 0xD0 1568)
    let k := migrationKey z1 z2 (Bytes.slice b 0x10 16) (Bytes.slice b 0x20 32) (Bytes.slice b 0x40 32)
    let nonce := Bytes.slice b 0x6F0 12
    if Modes.gcmTag (Modes.aes k) nonce head ct = (b.drop (0x700 + n)).take 16 then some (Modes.gcmCrypt (Modes.aes k) nonce ct) else none

/-- Key records at the front of a string: handle and key. -/
def keyRecords : Nat → Bytes → Option (List (Nat × Key) × Bytes)
  | 0, b => some ([], b)
  | n + 1, b =>
    let len := 8 + 64 * (1 + Bytes.fieldLE b 4 1)
    if b.length < len then none
    else (keyRecords n (b.drop len)).map (fun r => ((Bytes.fieldLE b 0 4, keyOfBytes ((b.take len).drop 8)) :: r.1, r.2))

def derivOf (b : Bytes) : Nat × Deriv :=
  (Bytes.fieldLE b 0 4,
    { aes := bitOf (Bytes.fieldLE b 4 2) 1, tenant := Bytes.fieldLE b 6 2, bdk := Bytes.fieldLE b 8 4, bdkGen := Bytes.fieldLE b 12 4
      high := Bytes.fieldLE b 16 4, ikid := Bytes.slice b 20 8, written := Bytes.fieldLE b 28 8, ikey := Bytes.slice b 36 32 })

/-- What a payload holds. -/
structure Carried where
  record : Bytes
  kumCounter : Nat
  authority : Nat
  authorityDigest : Bytes
  keys : List (Nat × Key)
  derivs : List (Nat × Deriv)
  deriving DecidableEq, Repr

def parsePayload (n : Nat) (p : Bytes) : Option Carried :=
  match keyRecords n (p.drop 560) with
  | none => none
  | some (ks, rest) =>
    if rest.length % 68 ≠ 0 then none
    else some { record := p.take 512, kumCounter := Bytes.fieldLE p 512 8, authority := Bytes.fieldLE p 520 4
                authorityDigest := Bytes.slice p 524 32, keys := ks
                derivs := (upTo (rest.length / 68)).map (fun j => derivOf (Bytes.slice rest (68 * j) 68)) }

/-- Offset of a carried object in the instance record. -/
def carriedAt (sub : Nat) : Nat := ((carriedSubs.takeWhile (fun e => e.1 != sub)).map (·.2)).foldl (· + ·) 0

def carriedLen : Nat := (carriedSubs.map (·.2)).foldl (· + ·) 0

/-- A carried object's value. -/
def Carried.value (c : Carried) (sub : Nat) : Nat :=
  Bytes.fieldLE c.record (carriedAt sub) (((carriedSubs.find? (fun e => e.1 == sub)).map (·.2)).getD 0)

/-- Two ranges of terminals have a terminal in common. -/
def rangesMeet (b1 n1 b2 n2 : Nat) : Bool := decide (0 < n1) && decide (0 < n2) && decide (b1 < b2 + n2) && decide (b2 < b1 + n1)

/-- The derivation range of an instance obeys R207 in a configuration. -/
def derivRangeOk (c : Cfg) (ids : List Nat) (i tenant base count : Nat) : Bool :=
  base % 256 == 0 && count % 256 == 0 && decide (base + count ≤ 262144)
    && ids.all (fun k => k == i || instTenant c k == tenant || instTenant c k == 0xFFFF
      || !rangesMeet base count (derivTermBase c k) (derivTermCount c k))

/-- Instances that are assigned. -/
def assignedIds (s : State) : List Nat := (s.insts.filter (fun e => e.2.st != 0)).map (·.1)

/-- Checks of a restore request's own content, in the order of R321: what is carried, or the status. -/
def openRestore (s : State) (j : Nat) (quorum : Bool) (req : Bytes) : Except Nat (RestoreReq × Carried) :=
  match parseRestore req with
  | none => .error 0x0202
  | some r =>
    let b := r.blob
    match (getInst s j).offer with
    | none => .error 0x0404
    | some o =>
      if o.ready = false ∨ Bytes.slice b 0x10 16 ≠ o.offerId ∨ Bytes.slice b 0x40 32 ≠ identityDigest s then .error 0x0404
      else if chainSigned r.chain (Bytes.slice b 0x20 32) (b.take (b.length - 96)) (b.drop (b.length - 96)) = false then .error 0x0404
      else match openBlob o b with
        | none => .error 0x0406
        | some p =>
          match parsePayload (Bytes.fieldLE b 0x0C 1) p with
          | none => .error 0x0202
          | some c =>
            if quorum = false ∧ (Bytes.allZero c.authorityDigest ∨ authorityDigest s r.tenant ≠ c.authorityDigest) then .error 0x0902
            else .ok (r, c)

/-- The next check of R321 with those before it: every key's run is empty and BACKED keys fit in the vault, after the items of the
joint that come before it. -/
def restoreContent (s : State) (done : List ItemOut) (j : Nat) (quorum : Bool) (req : Bytes) : Except Nat (RestoreReq × Carried) :=
  match openRestore s j quorum req with
  | .error st => .error st
  | .ok (r, c) =>
    if c.keys.all (fun e => decide (e.1 + e.2.ext < 2 ^ 18)
        && (e.1 :: runExt e.1 e.2.ext).all (fun x => (occupant (trial s done) x).isNone)) = false
      ∨ 1024 < (backedAfter s done).length + (c.keys.filter (fun e => e.2.backed)).length then .error 0x0602
    else .ok (r, c)

/-- The pools and the derivation range have room for what a restore carries; not in DEBUG (R321). -/
def restoreRoom (s : State) (j : Nat) (r : RestoreReq) (c : Carried) : Nat :=
  if slotsFree s < groupsOf16 (c.value 0x20) ∨ entriesFree s < c.value 0x10 ∨ pagesFree s < c.value 0x11 then 0x0602
  else if derivRangeOk s.ctl.cfg (assignedIds s) j r.tenant r.termBase (c.value 0x52) = false then 0x0302
  else if s.life.debug then 0x0104
  else 0

/-- Checks of a restore request as it is staged, in the order of R321. -/
def restoreStatus (s : State) (j : Nat) (quorum : Bool) (req : Bytes) : Nat :=
  match restoreContent s [] j quorum req with
  | .error st => st
  | .ok (r, c) => restoreRoom s j r c

/-- The keys that a restore writes (R322), at their handles with new generations; each guard resumes at v = C. -/
def restoreItems (s : State) (r : RestoreReq) (c : Carried) : List ItemOut :=
  c.keys.map (fun e => { cmd := 6, handle := e.1, gen := nextGen (slotAt s e.1).gen, key := some { e.2 with tenant := r.tenant } })

/-- The configuration as a restore changes it: the carried settings, with the placement's tenant, LD, area, terminal base and
partition; TenantAuthority where it was unset and its key was carried. -/
def restoreCfg (c : Cfg) (j : Nat) (r : RestoreReq) (k : Carried) : Cfg :=
  let place := fun (sub : Nat) => match sub with
    | 0x01 => r.tenant
    | 0x02 => r.ld
    | 0x03 => r.area
    | 0x50 => r.part
    | 0x51 => r.termBase
    | _ => k.value sub
  let vals := carriedSubs.foldl (fun m e => mput m (instKey j e.1) (place e.1)) c.vals
  let key := odKey (0x6050 + r.tenant / 256) (r.tenant % 256)
  let unset := (mfind c.vals key).getD 0xFFFFFFFF == 0xFFFFFFFF
  { c with vals := if unset && k.keys.any (fun e => e.1 == k.authority) then mput vals key k.authority else vals }

/-- A carried number read as two's complement of 8 bytes. -/
def int64 (v : Nat) : Int := if v < 2 ^ 63 then Int.ofNat v else Int.ofNat v - 2 ^ 64

/-- The restore's cut (R322), after the configuration has changed and its keys have been written. -/
def restoreCut (s : State) (j : Nat) (r : RestoreReq) (c : Carried) : State :=
  let cfg := s.ctl.cfg
  let tail := c.record.drop carriedLen
  let ss := Bytes.fieldLE tail 0 2
  let sub := Int.ofNat (Bytes.fieldLE tail 4 4) * oneToken
  let core := int64 (Bytes.fieldLE tail 8 8) * 1000
  let s := each c.derivs s (fun s d =>
    let e := { d.2 with tenant := r.tenant, bdkGen := (slotAt s d.2.bdk).gen }
    writeWords { s with keys := { s.keys with deriv := mput s.keys.deriv (r.termBase + d.1) e } } memDeriv (derivWord (r.termBase + d.1)) 8)
  let s := setKumCounter s r.tenant (max (kumCounter s r.tenant) c.kumCounter)
  modInst s j (fun x =>
    { cleanInst x with
      st := 1, s := ss, h := ss, offer := none, bucketT := s.now
      sub := min sub (Int.ofNat (submitBurst cfg j * 10 ^ 9)), core := min core (Int.ofNat (coreBurst cfg j * 10 ^ 6)) })

/-- Saves and restores are refused while HOLD is latched and while a coupled bundle activates (R323, R357). -/
def moveRefused (s : State) (bundle : Bool) : Nat :=
  if alarmLatched s then 0x0801 else if bundle then 0x0104 else 0

/-! ## Meanings -/

/-- MIGRATE_OFFER_READY (R316). -/
def execMigrateOfferReady (t : Nat) (i : InstNo) (s : State) : Result := .next (clocked (at_ s t) [islControl] (fun s => offerReady s i.toNat))

/-- MIGRATE_OFFER_EXPIRY (R316). -/
def execMigrateOfferExpiry (t : Nat) (i : InstNo) (s : State) : Result := .next (clocked (at_ s t) [islControl] (fun s => offerExpires s i.toNat))

/-- MIGRATE_BLOB_READY (R318, R319). -/
def execMigrateBlobReady (t : Nat) (i : InstNo) (s : State) : Result := .next (clocked (at_ s t) [islControl] (fun s => blobReady s i.toNat))

end Sys2Proof.Machine
end

