-- ==== Sys2Proof/Machine/LifeDebug.lean ====
section
/-! DEFINITION. Life-cycle transitions as joints request them, and debug authorisation (R294, R358, R395 to R406). -/

namespace Sys2Proof.Machine

open Sys2Proof

/-! ## Transitions (R399, R400) -/

/-- Every firmware part in flash is signed. -/
def allSigned (s : State) : Bool := (upTo 8).all (fun k => Bytes.fieldLE (partManifest s (k + 1)) 0x0C 4 % 2 == 0)

/-- Preconditions of PERSONALISED to DEPLOYED. -/
def deployable (s : State) : Bool :=
  !s.vault.rootAbsent && Config.certChain != [] && Sha.sha256 Config.certChain == s.vault.chainHash && s.backup.env.isSome

/-- Authority and preconditions of a transition to a target; 0 where they hold. -/
def transitionStatus (s : State) (role : Nat) (quorum : Bool) (target : Nat) : Nat :=
  let maker := decide (role = roleMaker)
  match s.life.st, target with
  | 0, 1 => if maker then 0 else 0x0203
  | 1, 2 => if maker = false then 0x0203 else if allSigned s then 0 else 0x0404
  | 2, 3 => if quorum = false then 0x0902 else if deployable s then 0 else 0x0301
  | 3, 4 => if quorum ∨ (role = roleReturn ∧ s.vault.rootAbsent ∧ bitOf s.life.scope 8) then 0 else 0x0902
  | 4, 2 => if maker = false then 0x0203 else if 0 < rowsFree s then 0 else 0x0602
  | 5, _ => 0x0203
  | 3, 5 => if quorum then 0 else 0x0902
  | _, 5 => if maker then 0 else 0x0203
  | _, _ => 0x0203

/-- Modes in which a committed transition is declined. In RAW and TESTED DEBUG is always in effect and declines none. -/
def transitionDeclined (s : State) (target : Nat) : Bool :=
  s.life.pending || (s.life.debug && decide (2 ≤ s.life.st) && target != 4 && !(s.life.st == 4 && target == 2))

/-- A class executed as a decision with no monitor latched; the service window closes, ALARM does not begin. -/
def executeUnlatched (s : State) (cls : Nat) : State :=
  let s := takeActions s (executedNow s) cls
  { s with backup := { s.backup with window := none } }

/-- The cut of a joint with a transition: its record, the vault's transition record, and what the target asks for before the
fuses. -/
def startTransition (s : State) (target serial : Nat) : State :=
  let s := record s 0x7104 srcDevice (Bytes.ofNatLE 1 target ++ Bytes.ofNatLE 8 serial)
  let s := if s.vault.rootAbsent then s else { s with vault := { s.vault with transition := some (target, serial, s.now) } }
  if target = 4 then beginTransition (executeUnlatched s 4) 4
  else if target = 5 then executeUnlatched s 5
  else beginTransition s target

/-! ## Scopes (R402 to R404) -/

/-- A scope obeys R403 in the state at hand. -/
def scopeOk (s : State) (scope : Nat) : Bool :=
  Nat.land scope 0x11F == scope
    && (!bitOf scope 8 || (scope == 0x100 && s.life.st == 3 && s.vault.rootAbsent))

/-- A scope that the return path may ask for. -/
def returnScopeOk (s : State) (scope : Nat) : Bool :=
  if s.life.st = 3 then scope == 0x100 else Nat.land scope 0x11F == scope && !bitOf scope 8

/-- Checks of a write of DebugScopeRequest. -/
def scopeStatus (s : State) (role scope : Nat) : Nat :=
  if scopeOk s scope = false ∨ (role = roleReturn ∧ returnScopeOk s scope = false) then 0x0203
  else if s.life.st ≤ 1 ∨ s.life.st = 5 ∨ s.life.debug then 0x0104
  else if seedingInForce s then 0x0103
  else 0

/-- The cut of a request: an earlier challenge lapses, the count advances, the nonce is asked for. -/
def startChallenge (s : State) (scope : Nat) : State :=
  let reqs := s.random.reqs.filter (fun r => r.who != .debugNonce)
  let s := { s with
    random := { s.random with reqs := reqs }
    life := { s.life with chalCount := (s.life.chalCount + 1) % 2 ^ 32
                          chal := some { bytes := [], nonce := [], bornT := s.now, scope := scope, ready := false } } }
  requestSeed s 2 .debugNonce 2

/-- die_tag. -/
def dieTag : Bytes := (Sha.sha256 (Bytes.ofText "VGDT" ++ Config.identitySeed)).take 16

/-- The 128 bytes of a challenge. -/
def challengeBytes (s : State) (c : DebugChal) : Bytes :=
  Bytes.ofNatLE 4 0x44424301 ++ Bytes.ofNatLE 2 128 ++ Bytes.ofNatLE 1 s.life.st ++ Bytes.ofNatLE 1 (bit s.vault.rootAbsent)
    ++ Bytes.ofNatLE 4 c.scope ++ Bytes.ofNatLE 4 s.life.chalCount ++ Bytes.fit 32 c.nonce
    ++ (if s.vault.rootAbsent then Bytes.zeros 32 else identityDigest s) ++ dieTag ++ Bytes.ofNatLE 8 s.vault.security ++ Bytes.zeros 24

/-- The challenge becomes readable once its nonce is there. -/
def challengeReads (s : State) : State :=
  match s.life.chal with
  | some c =>
    if c.ready = false ∧ c.nonce ≠ [] then
      { s with life := { s.life with chal := some { c with bytes := challengeBytes s c, bornT := s.now, ready := true } } }
    else s
  | none => s

/-- It lives 600 s. -/
def challengeLapses (s : State) : State :=
  match s.life.chal with
  | some c => if c.ready ∧ c.answered = false ∧ c.bornT + 600 * 10 ^ 9 ≤ s.now then { s with life := { s.life with chal := none } } else s
  | none => s

/-! ## Responses (R405) -/

def responseScope (d : Bytes) : Nat := Bytes.fieldLE d 8 4

/-- The joint of a response needs a quorum. -/
def responseQuorum (s : State) (d : Bytes) : Bool := s.life.st == 3 && responseScope d != 0x100

/-- Checks of a response in their order; 0 where all pass. -/
def debugResponseStatus (s : State) (quorum : Bool) (d : Bytes) : Nat :=
  let key := Bytes.fieldLE d 6 1
  if d.length ≠ 160 ∨ Bytes.fieldLE d 0 4 ≠ 0x44425201 ∨ Bytes.fieldLE d 4 2 ≠ 160 ∨ Bytes.fieldLE d 7 1 ≠ 0
      ∨ Bytes.fieldLE d 0x0C 4 ≠ 0 then 0x0202
  else match s.life.chal with
    | none => 0x0404
    | some c =>
      if c.ready = false ∨ c.answered ∨ Sha.sha384 c.bytes ≠ Bytes.slice d 0x10 48 then 0x0404
      else if debugKeyUsable s key = false then 0x0301
      else if Nat.land (responseScope d) c.scope ≠ responseScope d ∨ scopeOk s (responseScope d) = false then 0x0203
      else if p384Verify (Config.debugAuthorityKey key) (d.take 64) (d.drop 64) = false then 0x0404
      else if responseQuorum s d ∧ quorum = false then 0x0902
      else 0

/-! ## Entry to DEBUG (R294, R358, R406) -/

/-- What waits for an answer on a joint that is given up is answered. -/
def answerWaiting (s : State) (j : Joint) : State :=
  let s := answerSigns s j
  let s := match j.commit with
    | some h => kReply s h 0x15 0x0104 []
    | none => s
  match j.opening with
  | some h => kReply s h 0x10 0x0103 []
  | none => s

/-- An open joint is aborted: 1 idle, 2 DEBUG, 3 by message (R335, R358). -/
def abortJoint (s : State) (slot cause : Nat) : State :=
  let j := getJoint s slot
  let s := answerWaiting s j
  let s := { s with
    ctl := { s.ctl with commits := s.ctl.commits.filter (· != slot) }
    random := { s.random with reqs := s.random.reqs.filter (fun r => r.who != .jointNonce slot) } }
  let s := record s 0x4102 (src 8 slot) (Bytes.ofNatLE 2 (jointIdOf slot j) ++ Bytes.ofNatLE 8 j.serial ++ Bytes.ofNatLE 1 cause)
  modJoint (closeJoint s slot 4 0) slot (fun x => { x with opening := none })

/-- Instances that are saved. -/
def savedInsts (m : Map Inst) : Map Inst := m.filter (fun e => e.2.st == 5)

/-- What is on its way to flash when DEBUG begins stops where it stands; flash keeps the saved instances (R294, R358). -/
def leaveFlash (s : State) : State :=
  { s with
    ctl := { s.ctl with savedFlash := savedInsts s.insts }
    keys := { s.keys with journal := { s.keys.journal with flushing := none, tries := 0, backoff := false } } }

/-- The actions of R294 under a substitute root formed from a nonce. -/
def substitute (s : State) (nonce : Bytes) : State :=
  let root := Sha.sha512 (nonce ++ Bytes.ofText "VGSUBST")
  let s := reinstantiate (wipeOperands (clearCaches (clearSlots (clearWork (leaveFlash s)))))
  setIdentity { s with keys := { s.keys with subst := some root, debugKum := [] } } root

/-- DEBUG begins at the cut of the joint `own` that holds the verified response; every other open joint is aborted. -/
def enterDebug (s : State) (own scope : Nat) (nonce : Bytes) : State :=
  let s := each ((openJoints s).filter (fun e => e.1 != own)) s (fun s e => abortJoint s e.1 2)
  let s := substitute s nonce
  let s := { s with life := { s.life with debug := true, scope := scope, chal := none } }
  record s 0x7106 srcDevice (Bytes.ofNatLE 4 scope)

/-- DEBUG of RAW and TESTED at the end of start-up step 7 (R395). -/
def openDebug (s : State) : State :=
  let s := substitute s (Bytes.zeros 32)
  { s with life := { s.life with debug := true, scope := 0x1F } }

/-! ## Meanings -/

/-- DEBUG_CHALLENGE_READY (R404). -/
def execDebugChallengeReady (t : Nat) (s : State) : Result := .next (clocked (at_ s t) [islControl] challengeReads)

/-- DEBUG_CHALLENGE_EXPIRY (R404). -/
def execDebugChallengeExpiry (t : Nat) (s : State) : Result := .next (clocked (at_ s t) [islControl] challengeLapses)

end Sys2Proof.Machine
end

