-- ==== Sys2Proof/Machine/FirmwareUpdate.lean ====
section
/-! DEFINITION. Firmware: manifests, staging, activation by write, switch and swap, and the security floor (R356, R357, R359,
R407 to R413, R489). -/

namespace Sys2Proof.Machine

open Sys2Proof

/-! ## Manifests (R407, R408) -/

def mfCount (m : Bytes) : Nat := Bytes.fieldLE m 0x18 1
def mfReqCount (m : Bytes) : Nat := Bytes.fieldLE m 0x1A 2
def mfBlocks (m : Bytes) : Nat := Bytes.fieldLE m 0x1C 4
def mfFlags (m : Bytes) : Nat := Bytes.fieldLE m 0x0C 4
def mfSecurity (m : Bytes) : Nat := Bytes.fieldLE m 0x10 8

/-- A part entry: part, bundle, version, size, first block. -/
structure MfPart where
  part : Nat
  bundle : Nat
  version : Nat
  size : Nat
  first : Nat
  zero : Bool
  deriving DecidableEq, Repr

def mfPart (m : Bytes) (k : Nat) : MfPart :=
  let e := Bytes.slice m (0x40 + 16 * k) 16
  { part := Bytes.fieldLE e 0 1, bundle := Bytes.fieldLE e 2 1, version := Bytes.fieldLE e 4 4, size := Bytes.fieldLE e 8 4
    first := Bytes.fieldLE e 12 4, zero := Bytes.fieldLE e 1 1 == 0 && Bytes.fieldLE e 3 1 == 0 }

def mfParts (m : Bytes) : List MfPart := (upTo (mfCount m)).map (mfPart m)

/-- A requirement: part, needed part, lowest and highest version. -/
structure MfReq where
  part : Nat
  needs : Nat
  lo : Nat
  hi : Nat
  zero : Bool
  deriving DecidableEq, Repr

def mfReqs (m : Bytes) : List MfReq :=
  (upTo (mfReqCount m)).map (fun k =>
    let e := Bytes.slice m (0x40 + 16 * mfCount m + 12 * k) 12
    { part := Bytes.fieldLE e 0 1, needs := Bytes.fieldLE e 1 1, lo := Bytes.fieldLE e 4 4, hi := Bytes.fieldLE e 8 4
      zero := Bytes.fieldLE e 2 2 == 0 })

def mfDigestsAt (m : Bytes) : Nat := 0x40 + 16 * mfCount m + 12 * mfReqCount m

def mfDigest (m : Bytes) (b : Nat) : Bytes := Bytes.slice m (mfDigestsAt m + 32 * b) 32

/-- Length of the signed part. -/
def mfSigned (m : Bytes) : Nat := mfDigestsAt m + 32 * mfBlocks m

/-! ## The flash map (R465) -/

/-- Base of a part's manifest slot, 64 KiB each in part order. -/
def manifestAddr (p : Nat) : Nat := 0x20000 + 0x10000 * (p - 1)

/-- Base of a part's image. -/
def imageAddr (p : Nat) : Nat :=
  match p with
  | 1 => 0x100000
  | 2 => 0x300000
  | _ => 0x400000 + 0x20000 * (p - 3)

/-- The 4 KiB block of flash that holds block j of a part's image. -/
def imageBlock (p j : Nat) : Nat := imageAddr p / 4096 + j

/-- Base and size of each region: boot header, loader mark, manifest slots, images, certificate chain, journal, key log, configuration
log. -/
def flashMap : List (Nat × Nat) :=
  [(0, 0x10000), (0x10000, 0x10000), (0x20000, 0x80000), (0x100000, 0x400000), (0x500000, 0x10000), (0x1000000, 0x1000000)
  , (0x2000000, 0x3000000), (0x5000000, 0x3000000)]

/-- The device never reads or writes above this address. -/
def flashLimit : Nat := 0x8000000

/-- Largest image of a part. -/
def partMax (p : Nat) : Nat :=
  match p with
  | 1 => 2 ^ 21
  | 2 => 2 ^ 20
  | 3 => 32768
  | 4 => 73728
  | 5 => 49152
  | 6 => 16384
  | 7 => 65536
  | 8 => 8192
  | _ => 0

def mfPartBlocks (p : MfPart) : Nat := ceilDiv p.size 4096

/-- Layout, counts and lengths agree (R409). -/
def mfLayoutOk (m : Bytes) : Bool :=
  let ps := mfParts m
  decide (0x40 ≤ m.length) && decide (m.length ≤ 65536) && Bytes.fieldLE m 0 4 == 0x4D4E4601 && Bytes.fieldLE m 4 4 == m.length
    && decide (mfFlags m < 4) && Bytes.fieldLE m 0x19 1 == 0 && Bytes.allZero (Bytes.slice m 0x20 32)
    && decide (1 ≤ mfCount m) && decide (mfCount m ≤ 8) && decide (mfReqCount m ≤ 64) && decide (1 ≤ mfBlocks m)
    && decide (mfBlocks m ≤ 1024)
    && m.length == mfSigned m + (if bitOf (mfFlags m) 0 then 0 else 96 + 4627)
    && ps.all (fun p => p.zero && decide (1 ≤ p.part) && decide (p.part ≤ 8) && decide (p.bundle ≤ 4) && decide (1 ≤ p.size)
      && decide (p.size ≤ partMax p.part) && decide (p.first + mfPartBlocks p ≤ mfBlocks m))
    && (upTo 9).all (fun k => decide ((ps.filter (fun p => p.part == k)).length ≤ 1))
    && (ps.map mfPartBlocks).foldl (· + ·) 0 == mfBlocks m
    && (mfReqs m).all (fun r => r.zero && decide (1 ≤ r.part) && decide (r.part ≤ 8) && decide (1 ≤ r.needs) && decide (r.needs ≤ 8))

/-- Both signatures verify under Staeno's firmware keys. -/
def mfSignatures (m : Bytes) : Bool :=
  let n := mfSigned m
  let body := m.take n
  p384Verify Config.releaseKey body ((m.drop n).take 96)
    && Lattice.dsaVerify Lattice.dsa87 Config.releaseKeyDsa (dsaMu Config.releaseKeyDsa body) (m.drop (n + 96))

/-- The floor of R413. -/
def securityFloor (s : State) : Nat := max s.life.otpSecurity s.vault.security

/-- Checks of a manifest in the order of R409; 0 where all pass. -/
def manifestStatus (s : State) (m : Bytes) : Nat :=
  let unsigned := bitOf (mfFlags m) 0
  if mfLayoutOk m = false then 0x0202
  else if unsigned ∧ 2 ≤ s.life.st then 0x0203
  else if unsigned = false ∧ mfSignatures m = false then 0x0404
  else if mfSecurity m < securityFloor s then 0x0203
  else 0

/-! ## Loader marks (R411, R465) -/

/-- The mark as the loader itself holds it. -/
def workMark (s : State) : LoaderMark :=
  { phase := s.fw.markPhase, part := s.fw.markPart, next := s.fw.markNext, manifest := s.fw.markDigest, bays := s.fw.baysSwapped
    source := s.fw.markSource }

/-- Sequence number of a sector of the flash mark; 0 where it holds none. -/
def sectorSeq (x : Option (Nat × LoaderMark)) : Nat := (x.map (·.1)).getD 0

/-- Sector B of the flash mark is the newer one. -/
def newerB (s : State) : Bool := decide (sectorSeq s.fw.sectorA < sectorSeq s.fw.sectorB)

/-- The flash mark: that of the newer sector. -/
def flashMark (s : State) : LoaderMark := ((if newerB s then s.fw.sectorB else s.fw.sectorA).map (·.2)).getD {}

/-- The older sector takes a mark with the next sequence number. -/
def writeFlashMark (s : State) (m : LoaderMark) : State :=
  let n := max (sectorSeq s.fw.sectorA) (sectorSeq s.fw.sectorB) + 1
  { s with fw := if newerB s then { s.fw with sectorA := some (n, m) } else { s.fw with sectorB := some (n, m) } }

/-- The mark written into the vault and into the flash mark; a vault that a CLEAR-ROOT has cleared takes none (R359). -/
def noteMark (s : State) : State :=
  let m := workMark s
  let s := writeFlashMark s m
  if s.alarm.rootCleared then s else { s with vault := { s.vault with mark := m } }

/-- The loader takes a mark over. -/
def takeMark (s : State) (m : LoaderMark) : State :=
  { s with fw := { s.fw with markPhase := m.phase, markPart := m.part, markNext := m.next, markDigest := m.manifest
                             baysSwapped := m.bays, markSource := m.source } }

/-! ## Staging (R409) -/

/-- FwSource: LD, PASID, address. -/
def sourceRead (s : State) (src : Bytes) (block : Nat) : State :=
  emit s (.dmaRead (Bytes.fieldLE src 0 1) (Bytes.fieldLE src 4 4) (Bytes.fieldLE src 8 8 + 4096 * block) 4096)

/-- A joint's FwManifest at its cut replaces a staged release. -/
def stageManifest (s : State) (m : Bytes) : State :=
  { s with fw := { s.fw with staged := m, stage := 0, checked := 0, blockRetry := 0, phase := if s.fw.phase = 1 then 0 else s.fw.phase } }

/-- A joint's FwSource at its cut; a write that lost its source resumes from it (R412). -/
def setSource (s : State) (src : Bytes) : State :=
  let s := { s with fw := { s.fw with source := src } }
  if s.fw.act = 4 then
    sourceRead (noteMark { s with fw := { s.fw with act := 1, markSource := src, blockRetry := 0 } }) src s.fw.markNext
  else s

/-- The staged manifest has been checked. -/
def manifestChecked (s : State) : State :=
  if s.fw.stage ≠ 0 ∨ s.fw.staged = [] ∨ s.fw.mask ≠ 0 then s
  else
    let st := manifestStatus s s.fw.staged
    if st = 0 then sourceRead { s with fw := { s.fw with stage := 1, checked := 0, blockRetry := 0 } } s.fw.source 0
    else record { s with fw := { s.fw with stage := 3 } } 0x7107 srcDevice (Bytes.ofNatLE 2 st)

/-- Base and size of loader SRAM (R418). -/
def loaderSram : Nat × Nat := (0x431000000, 0x40000)

/-- A block arrives in loader SRAM by DMA; where a user rule denies the write none does, and the loader takes a bus error (R421, R424). -/
def loaderTakes (s : State) (data : Bytes) : Option Bytes × State :=
  match decidingOver s dmaMaster [loaderSram] false with
  | some _ => (none, dmaViolation s [loaderSram] data.length memLoader false)
  | none => (some data, s)

/-- A block of the manifest has arrived and matches its digest. -/
def blockGood (m : Bytes) (b : Nat) (data : Option Bytes) : Bool :=
  data.any (fun d => Sha.sha256 (Bytes.fit 4096 d) == mfDigest m b)

/-- LOADER begins with the first block read (R352): the change of modes has its record before the block is judged. -/
def loaderBegins (s : State) : State := if s.fw.phase = 0 then settle { s with fw := { s.fw with phase := 1 } } else s

/-- A staged block has been read. -/
def stageBlock (s : State) (data : Bytes) : State :=
  if s.fw.stage ≠ 1 then s
  else
    let (data, s) := loaderTakes (loaderBegins s) data
    let f := s.fw
    let done_ := fun (f : Firmware) => if f.phase = 1 then { f with phase := 0 } else f
    if blockGood f.staged f.checked data then
      let f := { f with checked := f.checked + 1, blockRetry := 0 }
      if mfBlocks f.staged ≤ f.checked then { s with fw := done_ { f with stage := 2 } }
      else sourceRead { s with fw := f } f.source f.checked
    else if f.blockRetry = 0 then sourceRead { s with fw := { f with blockRetry := 1 } } f.source f.checked
    else { s with fw := done_ { f with stage := 3, blockRetry := 0 } }

/-! ## Committing an activation (R357, R410) -/

def inMask (mask : Nat) (p : MfPart) : Bool := bitOf mask p.part

def partsMask (ps : List MfPart) : Nat := ps.foldl (fun a p => a + 2 ^ p.part) 0

/-- A mask is exactly one coupled bundle, or one part outside every bundle. -/
def maskOk (m : Bytes) (mask : Nat) : Bool :=
  let ps := (mfParts m).filter (inMask mask)
  match ps with
  | [] => false
  | p :: rest =>
    partsMask ps == mask
      && (if p.bundle = 0 then rest.isEmpty else ps == (mfParts m).filter (fun q => q.bundle == p.bundle))

/-- The activation named by the mask is a coupled bundle. -/
def isBundle (m : Bytes) (mask : Nat) : Bool := (mfParts m).any (fun p => inMask mask p && p.bundle != 0)

/-- Version that a manifest gives a part. -/
def versionIn (m : Bytes) (p : Nat) : Nat := (((mfParts m).find? (fun e => e.part == p)).map (·.version)).getD 0

/-- The manifest of part p once the named parts are replaced. -/
def manifestAfter (s : State) (mask p : Nat) : Bytes := if bitOf mask p then s.fw.staged else partManifest s p

/-- Every part's requirements hold with the named parts replaced. -/
def requirementsHold (s : State) (mask : Nat) : Bool :=
  (upTo 8).all (fun k =>
    let m := manifestAfter s mask (k + 1)
    ((mfReqs m).filter (fun r => r.part == k + 1)).all (fun r =>
      let v := versionIn (manifestAfter s mask r.needs) r.needs
      decide (r.lo ≤ v) && decide (v ≤ r.hi)))

/-- Conditions of a commit that writes FwActivate, in order; 0 where all hold. -/
def activateStatus (s : State) (mask : Nat) : Nat :=
  if s.fw.stage ≠ 2 ∨ s.fw.mask ≠ 0 ∨ s.fw.act ≠ 0 ∨ s.life.debug then 0x0104
  else if maskOk s.fw.staged mask = false then 0x0203
  else if requirementsHold s mask = false then 0x0203
  else 0

/-- A coupled bundle has begun and has not finished. -/
def bundleRunning (s : State) : Bool := s.fw.act != 0 && isBundle s.fw.staged s.fw.mask

/-! ## Write phase (R411, R412) -/

/-- Blocks of the named parts in the order written. -/
def writeOrder (s : State) : List (Nat × Nat) :=
  (upTo 9).flatMap (fun k => match (mfParts s.fw.staged).find? (fun p => p.part == k && inMask s.fw.mask p) with
    | some p => (upTo (mfPartBlocks p)).map (fun j => (k, p.first + j))
    | none => [])

/-- The next block to write: its part and its index in the manifest. -/
def nextWrite (s : State) : Option (Nat × Nat) :=
  (writeOrder s).find? (fun e => decide (s.fw.markPart < e.1) || (e.1 == s.fw.markPart && decide (s.fw.markNext ≤ e.2)))

/-- A pending activation may begin. -/
def mayBegin (s : State) : Bool :=
  s.fw.mask != 0 && s.fw.act == 0 && !s.life.debug && s.power.step == 12 && s.power.pwrGood && !s.alarm.rootCleared
    && !(isBundle s.fw.staged s.fw.mask && freezeInForce s)

/-- It begins: its mark is written. -/
def tryBegin (s : State) : State :=
  if mayBegin s then
    let s := { s with fw := { s.fw with act := 1, phase := 3, markPhase := 1, markPart := 0, markNext := 0, baysSwapped := 0, swapped := 0
                                        markDigest := Sha.sha256 s.fw.staged, markSource := s.fw.source, blockRetry := 0 } }
    match nextWrite s with
    | some (p, b) => sourceRead (noteMark { s with fw := { s.fw with markPart := p, markNext := b } }) s.fw.markSource b
    | none => noteMark s
  else s

/-- The cut of a joint with an activation. -/
def commitActivation (s : State) (mask : Nat) : State := { s with fw := { s.fw with mask := mask, phase := 2 } }

/-- Whether the loader goes on to the part of the next block: in DEBUG and after a CLEAR-ROOT only the part in writing is
finished (R359). -/
def goesOn (s : State) (p : Nat) : Bool := p == s.fw.markPart || (!s.life.debug && !s.alarm.rootCleared)

/-- A block has been read, and where it matches its digest programmed over the part's image and read back. -/
def blockWritten (s : State) (data : Bytes) : State :=
  if s.fw.act ≠ 1 ∨ s.power.pwrGood = false ∨ s.power.step ≠ 12 then s
  else match nextWrite s with
    | none => s
    | some (p, b) =>
      if goesOn s p = false then s
      else
      let (data, s) := loaderTakes s data
      if blockGood s.fw.staged b data then
        let first := (((mfParts s.fw.staged).find? (fun e => e.part == p)).map (·.first)).getD 0
        let image := mput s.fw.image (imageBlock p (b - first)) (mfDigest s.fw.staged b)
        let s := noteMark { s with fw := { s.fw with image := image, markPart := p, markNext := b + 1, blockRetry := 0 } }
        match nextWrite s with
        | some (q, c) => if goesOn s q then sourceRead s s.fw.markSource c else if s.alarm.rootCleared then haltActivation s else s
        | none => if s.alarm.rootCleared then haltActivation s else s
      else if s.fw.blockRetry < 3 then
        sourceRead { s with fw := { s.fw with blockRetry := s.fw.blockRetry + 1 } } s.fw.markSource b
      else
        record (noteMark { s with fw := { s.fw with act := 4, markPart := p, markNext := b, blockRetry := 0 } }) 0x7108 (src 0xA p)
          (Bytes.ofNatLE 1 p ++ Bytes.ofNatLE 4 b)

/-! ## Switch (R411) -/

/-- The staged manifest stands in the slot of each named part. -/
def switchSlots (s : State) : State :=
  let slots := (upTo 9).foldl (fun m p => if bitOf s.fw.mask p then mput m p s.fw.staged else m) s.fw.slots
  noteMark { s with fw := { s.fw with slots := slots, markPhase := 2, swapped := 0, baysSwapped := 0 } }

def switchNow (s : State) : State :=
  if s.fw.act = 1 ∧ s.fw.markPhase = 1 ∧ nextWrite s = none ∧ s.alarm.rootCleared = false ∧ s.power.pwrGood ∧ s.power.step = 12 then
    let s := switchSlots s
    { s with fw := { s.fw with act := 2 } }
  else s

/-! ## Swap (R356, R411) -/

/-- Memories that a part's image is loaded into (R407). -/
def partStores (p : Nat) : List Nat :=
  match p with
  | 1 => [64]
  | 2 => [65]
  | 3 => (upTo 16).map (2 * ·)
  | 4 => (upTo 8).flatMap (fun k => [2 * (16 + k), 2 * (16 + k) + 1])
  | 5 => (upTo 4).map (fun k => 2 * (24 + k))
  | 6 => (upTo 16).map (2 * · + 1)
  | _ => []

/-- A part as its manifest slot describes it, its image in its memories. -/
def loadPart (s : State) (p : Nat) : State :=
  let s := each (partStores p) s reload
  let m := partManifest s p
  let f : FwPart := { version := versionIn m p, security := mfSecurity m, digest := Sha.sha256 m }
  { s with fw := { s.fw with parts := mput s.fw.parts p f } }

/-- Swaps in their order: parts, then bays as 100 + b. -/
def swapOrder (s : State) : List Nat :=
  ([1, 2, 7, 8].filter (bitOf s.fw.mask))
    ++ (((upTo 4).map (24 + ·)) ++ ((upTo 8).map (16 + ·)) ++ upTo 16).filterMap (fun b => if bayNamed s b then some (100 + b) else none)

/-- A swap is done; a bay out to the next start loads its image then. -/
def swapDone (s : State) (k : Nat) : Bool :=
  if k < 100 then bitOf s.fw.swapped k else bitOf s.fw.baysSwapped (k - 100) || (getBay s (k - 100)).why == .katFailed

def nextSwap (s : State) : Option Nat := (swapOrder s).find? (fun k => !swapDone s k)

/-- No commit of a joint, nor of a ring KUM, is in progress (R359). -/
def noCommit (s : State) : Bool :=
  s.ctl.commits.isEmpty && !s.insts.any (fun e => e.2.ops.any (fun o => o.kumVerified && !o.kumCutDone && o.outcome.isNone))

/-- The replacement of a part outside the bays begins. -/
def beginReplace (s : State) (p : Nat) : State :=
  let s := noteMark { s with fw := { s.fw with replacing := some p, replaceT := s.now, act := 3, markPhase := 3, markPart := p } }
  if p = 7 then stopConditioner { s with random := { s.random with swapHold := true } } else s

/-! ## The end of an activation (R411, R413) -/

/-- Smallest security version among the manifests in force. -/
def leastSecurity (s : State) : Nat := (upTo 8).foldl (fun a k => min a (mfSecurity (partManifest s (k + 1)))) (2 ^ 64 - 1)

/-- The floor is raised; neither value is lowered. -/
def raiseFloor (s : State) (fuse : Bool) : State :=
  let v := leastSecurity s
  { s with
    vault := { s.vault with security := max s.vault.security v }
    life := { s.life with otpSecurity := if fuse then max s.life.otpSecurity (min 64 v) else s.life.otpSecurity } }

/-- The loader's marks cleared. -/
def clearLoaderMarks (s : State) : State :=
  noteMark (takeMark s {})

/-- The named parts run their new images. -/
def loadNamed (s : State) : State := each (upTo 9) s (fun s p => if bitOf s.fw.mask p then loadPart s p else s)

/-- An activation whose last swap has ended ends; after a CLEAR-ROOT nothing more follows the swap that was running. -/
def activationStep (s : State) : State :=
  if s.fw.act ≠ 3 ∨ swapRunning s then s
  else if s.alarm.rootCleared then endActivation s
  else if (nextSwap s).isSome then s
  else
    let mask := s.fw.mask
    let s := clearLoaderMarks (raiseFloor (loadNamed s) (bitOf (mfFlags s.fw.staged) 1))
    let s := { s with fw := { s.fw with mask := 0, act := 0, phase := 0, stage := 0, checked := 0, staged := [] } }
    record s 0x7109 srcDevice (Bytes.ofNatLE 2 mask ++ Bytes.ofNatLE 8 s.vault.security)

/-- The part that a bay's swap brings: of a BNC bay its sequencers, or its microcode alone. -/
def bayPart (mask b : Nat) : Nat := if isBncBay b then (if bitOf mask 3 then 3 else 6) else if isCipherBay b then 4 else 5

/-- A bay runs the activated image. -/
def baySwapped (s : State) (b : Nat) : State := noteMark { s with fw := { s.fw with baysSwapped := putBit s.fw.baysSwapped b true } }

/-- The next swap begins; the CC's waits until no commit is in progress, a bay's until the bay is in service. -/
def partSwap (s : State) (bay : Option Nat) : State :=
  if (s.fw.act ≠ 2 ∧ s.fw.act ≠ 3) ∨ swapRunning s ∨ s.alarm.rootCleared ∨ s.power.pwrGood = false then s
  else match nextSwap s, bay with
    | some k, none => if 100 ≤ k ∨ (k = 1 ∧ noCommit s = false) then s else beginReplace s k
    | some k, some b =>
      if k = 100 + b ∧ (getBay s b).st = 0 then
        closeBay (noteMark { s with fw := { s.fw with act := 3, markPhase := 3, markPart := bayPart s.fw.mask b } }) b .update
      else s
    | none, _ => activationStep { s with fw := { s.fw with act := 3 } }

/-- JointIdleS timers stood still while the custody controller was replaced. -/
def shiftIdle (s : State) (ns : Nat) : State :=
  each (openJoints s) s (fun s e => modJoint s e.1 (fun j => { j with lastMsg := j.lastMsg + ns }))

/-- What the end of a replacement lifts. -/
def endReplace (s : State) (p : Nat) : State :=
  let ns := s.now - s.fw.replaceT
  let s := loadPart { s with fw := { s.fw with replacing := none, swapped := putBit s.fw.swapped p true } } p
  if p = 1 then shiftIdle (drainQueue s) ns
  else if p = 7 then
    restartConditioner { s with random := { s.random with swapHold := false, stopT := s.random.stopT.map (· + ns) } }
  else s

/-- A bay that is out for its update, its image not loaded yet. -/
def bayLoading (s : State) : Option Nat :=
  (upTo 28).find? (fun b => (getBay s b).st == 2 && (getBay s b).why == .update && !bitOf s.fw.baysSwapped b)

/-- A swap ends: a part's restrictions lift; a bay has loaded its image and asks for its seed. -/
def swapEnds (s : State) : State :=
  if s.power.pwrGood = false then s
  else match s.fw.replacing with
    | some p => activationStep (endReplace s p)
    | none =>
      match bayLoading s with
      | some b => requestSeed (baySwapped (reload (reload s (2 * b)) (2 * b + 1)) b) 1 (.inst b) 3
      | none => s

/-- A bay returns; one that returns after its part has switched runs the new image (R412). -/
def bayReturns (s : State) (b : Nat) : State :=
  let out := (getBay s b).st = 2
  let s := returnBay s b
  if out ∧ (getBay s b).st = 0 then
    activationStep (if (s.fw.act = 2 ∨ s.fw.act = 3) ∧ bayNamed s b then baySwapped s b else s)
  else s

/-! ## Meanings -/

/-- FW_MANIFEST_CHECKED (R409). -/
def execFwManifestChecked (t : Nat) (s : State) : Result := .next (settle (clocked (at_ s t) [islControl] manifestChecked))

/-- FW_STAGE_BLOCK (R409). -/
def execFwStageBlock (t : Nat) (data : Bytes) (s : State) : Result := .next (settle (clocked (at_ s t) [islControl] (fun s => stageBlock s data)))

/-- FW_BLOCK_WRITTEN (R411, R412). -/
def execFwBlockWritten (t : Nat) (data : Bytes) (s : State) : Result := .next (settle (clocked (at_ s t) [islControl] (fun s => blockWritten s data)))

/-- FW_SWITCH (R411). -/
def execFwSwitch (t : Nat) (s : State) : Result := .next (clocked (at_ s t) [islControl] switchNow)

/-- FW_PART_SWAP (R411, R356, R65). -/
def execFwPartSwap (t : Nat) (bay : Option BayNo) (s : State) : Result :=
  .next (settle (clocked (at_ s t) [islControl] (fun s => partSwap s (bay.map (·.val)))))

/-- FW_PART_SWAP_DONE (R411, R413, R356). -/
def execFwPartSwapDone (t : Nat) (s : State) : Result := .next (settle (clocked (at_ s t) [islControl] swapEnds))

/-- BAY_RETURN (R17, R65, R412). -/
def execBayReturn (t : Nat) (bay : BayNo) (s : State) : Result := .next (settle (bayReturns (at_ s t) bay.val))

end Sys2Proof.Machine
end

