-- ==== Sys2Proof/Machine/Staging.lean ====
section
/-! DEFINITION. What a joint's records would make of the configuration, and the checks of a record as it is staged (R199, R317,
R321, R326 to R331, R334 to R337, R399 to R409, R420). -/

namespace Sys2Proof.Machine

open Sys2Proof

/-! ## Records (R334) -/

def recKey (r : JRec) : Nat := odKey r.index.toNat r.sub.toNat
def recValue (r : JRec) : Nat := Bytes.toNatLE r.data

/-- A record written out: header and content. -/
def jrecBytes (r : JRec) : Bytes :=
  Bytes.ofNatLE 1 r.kind.toNat ++ Bytes.ofNatLE 1 r.sub.toNat ++ Bytes.ofNatLE 2 r.index.toNat ++ Bytes.ofNatLE 4 r.data.length ++ r.data

/-- IMAGE_PART records joined to the image they carry on. -/
def mergeImages (recs : List JRec) : List JRec :=
  (recs.foldl (fun (acc : List JRec) r => match r.kind, acc with
    | 4, last :: rest => { last with data := last.data ++ r.data } :: rest
    | _, _ => r :: acc) []).reverse

/-- A record loads an image. -/
def loadsImage (r : JRec) : Bool := r.kind == 2 && Bytes.fieldLE r.data 0 1 == 4

/-- Bytes that an image wants; 0 while its header is not there. -/
def imageWants (image : Bytes) : Nat := if image.length < 0x5C then 0 else 128 + 8 * Bytes.fieldLE image 0x58 4

/-- The incomplete image that a list of records ends with: partition, bytes wanted, bytes staged. -/
def openImage (recs : List JRec) : Option (Nat × Nat × Nat) :=
  match (mergeImages recs).getLast? with
  | some r =>
    let image := r.data.drop 24
    if loadsImage r ∧ (image.length < 0x5C ∨ image.length < imageWants image) then
      some (Bytes.fieldLE r.data 1 1, imageWants image, image.length)
    else none
  | none => none

/-- Staged bytes that a record counts (R335). -/
def recCost (r : JRec) : Nat := if r.kind = 2 then (if loadsImage r then r.data.length - 24 else 24) else r.data.length

def recsCost (rs : List JRec) : Nat := (rs.map recCost).foldl (· + ·) 0

/-! ## The configuration that records would produce -/

/-- A WRITE of a class N object; a change of RoutePartForm empties the partition (R188). -/
def applyWrite (c : Cfg) (r : JRec) : Cfg :=
  match dictAt r.index.toNat r.sub.toNat with
  | some o =>
    if o.kept ≠ 1 ∨ o.trigger then c
    else
      let p := r.sub.toNat
      let c := if r.index = 0x5051 ∧ (recValue r) ≠ partForm c p then { c with parts := mset {} c.parts p { form := (recValue r), routes := [] } }
        else c
      if o.isNum then { c with vals := mput c.vals (recKey r) (recValue r) } else { c with octs := mput c.octs (recKey r) r.data }
  | none => c

/-- A route record. -/
def applyRouteRec (c : Cfg) (r : JRec) : Cfg :=
  let q := parseRoute r.data
  { c with parts := mset {} c.parts q.part { form := partForm c q.part, routes := applyRoute q (mget {} c.parts q.part).routes } }

def applyRec (c : Cfg) (r : JRec) : Cfg := if r.kind = 1 then applyWrite c r else if r.kind = 2 then applyRouteRec c r else c

/-- The configuration after records in staging order. -/
def draft (c : Cfg) (recs : List JRec) : Cfg := (mergeImages recs).foldl applyRec c

/-! ## Versions (R336) -/

/-- Some column lets a joint write the object. -/
def jointWritable (o : Obj) : Bool := decide (2 ≤ o.ten) || decide (2 ≤ o.op) || decide (2 ≤ o.cus) || decide (2 ≤ o.mak)

/-- Read-set key of a partition. -/
def partKey (p : Nat) : Nat := 2 ^ 24 + p

/-- The version that a read-set key holds. -/
def versionOf (c : Cfg) (k : Nat) : Nat := if 2 ^ 24 ≤ k then mget 0 c.partVers (k - 2 ^ 24) else mget 0 c.vers k

/-- Read-set key of a record, where it has one. -/
def recReads (r : JRec) : Option Nat :=
  if r.kind = 1 then some (recKey r) else if r.kind = 2 then some (partKey (Bytes.fieldLE r.data 1 1)) else none

/-! ## Rights (R328, R329, R337, R402, R414) -/

/-- Objects of the return path and when they are accepted. -/
def returnWrites (s : State) (index sub v : Nat) : Bool :=
  (index == 0xA001 && (sub == 1 || sub == 3))
    || (index == 0xA000 && sub == 2 && v == 4 && s.life.st == 3 && bitOf s.life.scope 8)
    || (index == 0x2800 && sub == 0x20 && s.life.scope != 0)

/-- A WRITE names an object that the role may write, with a quorum where it needs one. -/
def mayWrite (s : State) (role inst index sub v : Nat) : Option Obj :=
  match dictAt index sub with
  | some o =>
    if role = roleReturn then (if returnWrites s index sub v then some o else none)
    else if role = roleRecovery then (if index = 0xB000 ∧ sub = 2 then some o else none)
    else if inScope s role inst index sub o ∧ (2 ≤ rightOf s role index sub o ∨ 2 ≤ o.cus) then some o else none
  | none => none

/-- A transition for which the owner's quorum is the authority (R399). -/
def transitionQuorum (s : State) (role v : Nat) : Bool :=
  (s.life.st == 2 && v == 3) || (s.life.st == 3 && v == 5) || (s.life.st == 3 && v == 4 && role != roleReturn)

/-- MigrateRestoreReq of an instance. -/
def isRestore (index sub : Nat) : Bool := decide (0x8000 ≤ index) && decide (index ≤ 0x8FFF) && sub == 0x76

/-- A WRITE that needs a quorum: by the column of the opener's role, or as its own rule says (R321, R337, R399, R406). -/
def writeQuorum (s : State) (role index sub v : Nat) (data : Bytes) (o : Obj) : Bool :=
  if role = roleReturn ∨ role = roleRecovery then false
  else if index = 0xA000 ∧ sub = 2 then transitionQuorum s role v
  else rightOf s role index sub o != 2
    || (index == 0xA001 && sub == 3 && responseQuorum s data)
    || (isRestore index sub && restoreStatus s (index - 0x8000) false data == 0x0902)

/-- A record that needs a quorum. -/
def recQuorum (s : State) (role : Nat) (r : JRec) : Bool :=
  if r.kind = 1 then
    match dictAt r.index.toNat r.sub.toNat with
    | some o => writeQuorum s role r.index.toNat r.sub.toNat (recValue r) r.data o
    | none => false
  else r.kind == 3 && Bytes.fieldLE r.data 6 1 == 3

/-! ## Values (R331 and the tables' own ranges) -/

def powerOfTwo (v : Nat) : Bool := (upTo 12).any (fun k => 2 ^ k == v)

/-- Values that an instance object takes beyond its range. -/
def instValueOk (sub v : Nat) : Bool :=
  match sub with
  | 0x01 => decide (v < 4096) || v == 0xFFFF
  | 0x02 => decide (v < 64) || v == 0xFF
  | 0x10 => v == 0 || (decide (16 ≤ v) && powerOfTwo v)
  | 0x20 => v % 16 == 0
  | 0x51 => v % 256 == 0
  | 0x52 => v % 256 == 0
  | _ => true

/-- A user rule denies, and matches no master but LD, DMA and debug, whether it is valid or not (R420). -/
def userRuleOk (r : Nat) : Bool :=
  ruleDenies r && ([ccMaster, loaderMaster, managerMaster] ++ (upTo 7).map (0x48 + ·)).all (fun m =>
    decide (Nat.lor (ruleMaster r) (ruleMask r) ≠ Nat.lor m (ruleMask r)))

/-- Values that an object takes beyond its range. -/
def valueOk (index sub v : Nat) : Bool :=
  if 0x8000 ≤ index ∧ index ≤ 0x8FFF then instValueOk sub v
  else if index = 0x5050 then decide (v < 4096) || v == 0xFFFF
  else if 0x6050 ≤ index ∧ index ≤ 0x605F then decide (v < 2 ^ 18) || v == 0xFFFFFFFF
  else if index = 0x3004 then v == 0x100 || (decide (0x200 ≤ v) && decide (v < 0x200 + 28))
  else if index = 0x3005 then decide (v < 8) || v == 0xFF
  else if index = 0x1180 then userRuleOk v
  else true

/-- Checks that belong to one object, as its chapter gives them; 0 where they pass. -/
def objectStatus (s : State) (role : Nat) (quorum : Bool) (index sub v : Nat) (data : Bytes) : Nat :=
  if 0x8000 ≤ index ∧ index ≤ 0x8FFF then
    let i := index - 0x8000
    if sub = 0x74 then (if moveRefused s false ≠ 0 then moveRefused s false else saveStatus s i data)
    else if sub = 0x76 then
      if moveRefused s false ≠ 0 then moveRefused s false
      else if (getInst s i).st ≠ 0 then 0x0302
      else restoreStatus s i quorum data
    else 0
  else if index = 0xA000 ∧ sub = 2 then transitionStatus s role quorum v
  else if index = 0xA001 ∧ sub = 1 then scopeStatus s role v
  else if index = 0xA001 ∧ sub = 3 then debugResponseStatus s quorum data
  else if index = 0xB000 ∧ sub = 1 then (if s.fw.mask ≠ 0 then 0x0104 else 0)
  else 0

/-- A WRITE as it is staged. -/
def writeStatus (s : State) (role inst : Nat) (quorum : Bool) (r : JRec) : Nat :=
  let index := r.index.toNat
  let sub := r.sub.toNat
  match mayWrite s role inst index sub (recValue r) with
  | none => 0x0203
  | some o =>
    -- the size of a response is a check of its own list (R405)
    if (if o.isNum then r.data.length ≠ o.maxLen else o.maxLen < r.data.length) then 0x0202
    else if o.isNum ∧ ((recValue r) < o.lo ∨ o.hi < (recValue r)) then 0x0203
    else if valueOk index sub (recValue r) = false then 0x0203
    -- a write whose own list of checks says where the quorum stands among them
    else if (index = 0xA000 ∧ sub = 2) ∨ (rightOf s role index sub o = 2 ∧ ((index = 0xA001 ∧ sub = 3) ∨ isRestore index sub)) then
      objectStatus s role quorum index sub (recValue r) r.data
    else if writeQuorum s role index sub (recValue r) r.data o ∧ quorum = false then 0x0902
    else objectStatus s role quorum index sub (recValue r) r.data

/-! ## Route and key update records -/

/-- The path may change routes of a partition (R199). -/
def mayRoute (s : State) (role inst p : Nat) : Bool :=
  if role = roleTenant then partOwner s.ctl.cfg p == instTenant s.ctl.cfg inst else role == roleOperator

/-- A ROUTE record at its point: `c` is the configuration that the records before it make, `atCut` that of the whole message. DESIGN
CHOICE (log entry 243): a record of another length than 24 is refused for it before its other checks. -/
def routeStatus (s : State) (role inst : Nat) (c atCut : Cfg) (data : Bytes) (whole : Bool) : Nat :=
  let p := Bytes.fieldLE data 1 1
  if data.length < 24 ∨ (Bytes.fieldLE data 0 1 ≠ 4 ∧ data.length ≠ 24) then 0x0202
  else checkRoute data (partForm c p) (partForm atCut p) (mget {} c.parts p).routes (mayRoute s role inst p) whole

/-- The authority key that a message of a joint names. -/
def kumFound (s : State) (tenant : Nat) : Option (Key × Nat × Place) := keyByHandle s (tenantAuthority s.ctl.cfg tenant) s.ctl.epoch

/-- A key update message: structure and signature (R287). -/
def kumStatus (s : State) (role inst : Nat) (quorum : Bool) (data : Bytes) : Nat :=
  match parseKum data false with
  | .error e => e
  | .ok m =>
    if role ≠ roleTenant ∧ role ≠ roleOperator then 0x0302
    else if 4096 ≤ m.tenant ∨ (role = roleTenant ∧ m.tenant ≠ instTenant s.ctl.cfg inst) then 0x0302
    else if m.identity ≠ identityDigest s ∨ s.keys.identity = none then 0x0404
    else if m.sigAlg = 3 then (if quorum then 0 else 0x0902)
    else match authorityKey s m (kumFound s m.tenant) with
      | .error e => e
      | .ok k => if kumSigned k m then 0 else 0x0404

/-! ## Messages (R334, R335) -/

/-- One record as it is staged after `before`; `whole` is the message. -/
def recStatus (s : State) (role inst : Nat) (quorum : Bool) (before whole : List JRec) (r : JRec) : Nat :=
  let open_ := openImage before
  if r.kind = 4 then
    match open_, (mergeImages (before ++ [r])).getLast? with
    | some _, some m =>
      let image := m.data.drop 24
      if r.index ≠ 0 ∨ r.sub ≠ 0 then 0x0203
      else if (openImage (before ++ [r])).isSome then 0
      else if imageHeaderOk image ∧ imageNodesOk image (parseRoute m.data).aux then 0 else 0x0203
    | _, _ => 0x0203
  else if open_.isSome then 0x0203
  else if (role = roleReturn ∨ role = roleRecovery) ∧ r.kind ≠ 1 then 0x0203
  else if r.kind = 1 then writeStatus s role inst quorum r
  else if r.kind = 2 then
    routeStatus s role inst (draft s.ctl.cfg before) (draft s.ctl.cfg whole) r.data (openImage (before ++ [r])).isNone
  else if r.kind = 3 then kumStatus s role inst quorum r.data
  else 0x0203

/-- The first refused record of a message: its ordinal and status. -/
def firstRefused (s : State) (role inst : Nat) (quorum : Bool) (staged msg : List JRec) : Nat → List JRec → Option (Nat × Nat)
  | _, [] => none
  | n, r :: rest =>
    let st := recStatus s role inst quorum (staged ++ msg.take n) (staged ++ msg) r
    if st ≠ 0 then some (n, st) else firstRefused s role inst quorum staged msg (n + 1) rest

/-- The keys that a record is refused for reading: its authority, or the keys that a save lists. -/
def keysRead (s : State) (r : JRec) : List (Option (Key × Nat × Place)) :=
  if r.kind = 3 then match parseKum r.data false with
    | .ok m => [kumFound s m.tenant]
    | .error _ => []
  else if r.kind = 1 ∧ r.sub = 0x74 then (saveHandles r.data).map (fun h => keyByHandle s h s.ctl.epoch)
  else []

/-- What the custody controller finds with a refusal: the first key whose words do not match is a FABRIC event (R28). -/
def stageRefused (s : State) (st : Nat) (r : Option JRec) : State :=
  if st ≠ 0x0801 then s
  else match ((r.map (keysRead s)).getD []).find? (fun x => x.any (fun e => keyCorrupt s e.1 e.2.2)) with
    | some x => slotMismatch s islControl x
    | none => s

/-- Limits of a joint and of the staging store (R335). -/
def withinLimits (s : State) (j : Joint) (msg : List JRec) : Bool :=
  decide (j.recs.length + msg.length ≤ 4096) && decide (j.bytes + recsCost msg ≤ 1048576)
    && decide (stagingUsed s + recsCost msg ≤ stagingStore)

/-- A message staged whole. -/
def stageRecs (s : State) (slot : Nat) (msg : List JRec) : State :=
  let reads := msg.filterMap (fun r => (recReads r).map (fun k => (k, versionOf s.ctl.cfg k)))
  let answers := msg.any (fun r => r.kind == 1 && r.index == 0xA001 && r.sub == 3)
  let nonce := match s.life.chal with
    | some c => c.nonce
    | none => []
  let at_ := jointWord slot + (getJoint s slot).bytes / 8
  let s := noteWriter (writeWords s memJoints at_ (ceilDiv (recsCost msg) 8)) memJoints at_ (ceilDiv (recsCost msg) 8) islControl
  let s := modJoint s slot (fun j =>
    { j with recs := j.recs ++ msg, reads := j.reads ++ reads, bytes := j.bytes + recsCost msg, image := openImage (j.recs ++ msg)
             chalNonce := if answers then nonce else j.chalNonce })
  if answers then { s with life := { s.life with chal := s.life.chal.map (fun c => { c with answered := true }) } } else s

end Sys2Proof.Machine
end

