-- ==== Sys2Proof/Machine/Joints.lean ====
section
/-! DEFINITION. Kallek messages on joints up to their commit: opening, reading, staging, statements, signatures, status and abort
(R332 to R339, R355, R402, R414). -/

namespace Sys2Proof.Machine

open Sys2Proof

/-! ## Openers (R335, R351) -/

/-- JointOpener of a request. -/
def openerOf (s : State) (p : Path) : Nat :=
  match p with
  | .tenant _ i => i.toNat
  | .session n => ((mfind s.link.sessions n.toNat).map (·.opener)).getD 0
  | .returnPath => 0xFFFC
  | .recovery => 0xFFFB
  | .bare => 0

def slotOf (h : KHdr) : Nat := h.jointId.toNat % 64

/-- The joint that a header names: its slot holds that generation. -/
def namedJoint (s : State) (h : KHdr) : Option (Nat × Joint) :=
  let j := getJoint s (slotOf h)
  if j.gen ≠ 0 ∧ j.gen = h.jointId.toNat / 64 then some (slotOf h, j) else none

/-- The open joint that a request reaches as its opener. -/
def ownJoint (s : State) (h : KHdr) : Option (Nat × Joint) :=
  match namedJoint s h with
  | some (n, j) => if jointOpen j ∧ samePath j.path h.path then some (n, j) else none
  | none => none

/-- The open joint that a statement or signature names: by its opener or by any operator session. -/
def anyJoint (s : State) (h : KHdr) (role : Nat) : Option (Nat × Joint) :=
  match namedJoint s h with
  | some (n, j) => if jointOpen j ∧ (samePath j.path h.path ∨ role = roleOperator) then some (n, j) else none
  | none => none

/-- A message to a joint restarts its idle time. -/
def touch (s : State) (slot : Nat) : State := modJoint s slot (fun j => { j with lastMsg := s.now })

/-- A message of the joint family: refused once an orderly shutdown is ready (R355). -/
def jointMsg (s : State) (h : KHdr) (op : Nat) (serve : Nat → Nat → State) : State :=
  kallek s h op (fun role inst => if s.power.shutdown = 2 then kReply s h op 0x0104 [] else serve role inst)

/-! ## JOINT_OPEN (R335, R337, R343) -/

/-- Open joints opened through the tenant path. -/
def tenantJoints (s : State) : List (Nat × Joint) :=
  (openJoints s).filter (fun e => match e.2.path with
    | .tenant _ _ => true
    | _ => false)

def openBody (slot : Nat) (j : Joint) : Bytes :=
  Bytes.ofNatLE 2 (jointIdOf slot j) ++ Bytes.zeros 6 ++ Bytes.ofNatLE 8 j.serial ++ Bytes.ofNatLE 8 j.base

def jointOpens (s : State) (h : KHdr) (flags : Nat) : State :=
  jointMsg s h 0x10 (fun role inst =>
    if 1 < flags then kReply s h 0x10 0x0203 []
    else if flags = 1 ∧ seedingInForce s then kReply s h 0x10 0x0103 []
    else if role = roleTenant ∧ (32 ≤ (tenantJoints s).length ∨ (tenantJoints s).any (fun e => e.2.opener == inst)) then
      kReply s h 0x10 0x0903 []
    else match freeJointSlot s with
      | none => kReply s h 0x10 0x0903 []
      | some slot =>
        let s := openSlot s slot { opener := openerOf s h.path, path := h.path, role := role, quorum := flags == 1
                                   opening := if flags = 1 then some h else none }
        if flags = 1 then requestSeed s 2 (.jointNonce slot) 2
        else kReply s h 0x10 0 (openBody slot (getJoint s slot)))

/-! ## JOINT_READ (R333, R336) -/

def jointReads (s : State) (h : KHdr) (index sub offset max : Nat) : State :=
  jointMsg s h 0x11 (fun role inst =>
    match ownJoint s h with
    | none => kReply s h 0x11 0x0203 []
    | some (slot, _) =>
      let s := touch s slot
      if role = roleReturn ∨ role = roleRecovery then kReply s h 0x11 0x0203 []
      else match getBody s role inst index sub offset max with
        | .error st => kReply s h 0x11 st []
        | .ok b =>
          let k := odKey index sub
          let v := mget 0 s.ctl.cfg.vers k
          let writable := match dictAt index sub with
            | some o => jointWritable o
            | none => false
          let s := if writable then modJoint s slot (fun j => { j with reads := j.reads ++ [(k, v)] }) else s
          kReply s h 0x11 0 (b ++ Bytes.ofNatLE 8 v))

/-! ## JOINT_STAGE (R334, R335, R338) -/

def stageBody (n : Nat) (refused : Option Nat) : Bytes := Bytes.ofNatLE 2 n ++ Bytes.ofNatLE 2 (refused.getD 0xFFFF)

def jointStages (s : State) (h : KHdr) (recs : List JRec) : State :=
  jointMsg s h 0x12 (fun role inst =>
    match ownJoint s h with
    | none => kReply s h 0x12 0x0203 []
    | some (slot, _) =>
      let s := touch s slot
      let j := getJoint s slot
      -- a body holds at most 73,728 bytes (R332)
      if 73728 < (recs.flatMap jrecBytes).length then kReply s h 0x12 0x0202 []
      else if j.commit.isSome then kReply s h 0x12 0x0203 []
      else if j.st = 1 then kReply s h 0x12 0x0902 []
      else if recs = [] then kReply s h 0x12 0x0202 []
      else if withinLimits s j recs = false then kReply s h 0x12 0x0903 []
      else match firstRefused s role inst j.quorum j.recs recs 0 recs with
        | some (n, st) => kReply (stageRefused s st recs[n]?) h 0x12 st (stageBody 0 (some n))
        | none => kReply (stageRecs s slot recs) h 0x12 0 (stageBody recs.length none))

/-! ## Statements and signatures (R337, R338) -/

/-- The 112 bytes that custodians sign. -/
def statement (s : State) (slot : Nat) (j : Joint) : Bytes :=
  Bytes.ofNatLE 4 0x4A535401 ++ Bytes.ofNatLE 2 (jointIdOf slot j) ++ [0, 0] ++ Bytes.ofNatLE 8 j.serial ++ Bytes.fit 32 j.nonce
    ++ identityDigest s ++ Sha.sha256 (j.recs.flatMap jrecBytes)

def jointStatements (s : State) (h : KHdr) : State :=
  jointMsg s h 0x13 (fun role _ =>
    if role = roleReturn ∨ role = roleRecovery then kReply s h 0x13 0x0203 []
    else match anyJoint s h role with
      | none => kReply s h 0x13 0x0203 []
      | some (slot, j) => kReply (touch s slot) h 0x13 0 (statement s slot j))

/-- A signature arrives; it is verified within tQSV. -/
def jointSigns (s : State) (h : KHdr) (custodian : Nat) (sig : Bytes) : State :=
  jointMsg s h 0x14 (fun role _ =>
    if role = roleReturn ∨ role = roleRecovery then kReply s h 0x14 0x0203 []
    else match anyJoint s h role with
      | none => kReply s h 0x14 0x0203 []
      | some (slot, _) => modJoint (touch s slot) slot (fun j => { j with verifying := j.verifying ++ [(custodian, sig, h)] }))

/-- A custodian is enabled and its signature over the joint's statement verifies, and none of its own is attached. -/
def signatureGood (s : State) (slot : Nat) (j : Joint) (c : Nat) (sig : Bytes) : Bool :=
  j.quorum && decide (c < 16) && setting s.ctl.cfg (0x7010 + c) 2 0 == 1 && !bitOf j.sigs c
    && p384Verify (octets s.ctl.cfg (0x7010 + c) 1) (statement s slot j) sig

/-- Attached signatures. -/
def sigCount (j : Joint) : Nat := popCount 16 j.sigs

/-! ## JOINT_ABORT, JOINT_STATUS, idle joints (R333, R335) -/

def jointAborts (s : State) (h : KHdr) : State :=
  jointMsg s h 0x16 (fun role _ =>
    match ownJoint s h with
    | none => kReply s h 0x16 0x0203 []
    | some (slot, j) =>
      if role = roleReturn ∨ role = roleRecovery ∨ j.commit.isSome then kReply s h 0x16 0x0203 []
      else kReply (abortJoint s slot 3) h 0x16 0 [])

def statusBody (j : Joint) : Bytes :=
  Bytes.ofNatLE 1 j.st ++ Bytes.ofNatLE 1 (bit j.durable) ++ Bytes.ofNatLE 2 j.recs.length ++ Bytes.ofNatLE 4 j.bytes
    ++ Bytes.ofNatLE 8 j.cutEpoch ++ Bytes.ofNatLE 2 j.final ++ [0, 0]

/-- The state of a joint, open or ended, to its opener. -/
def jointStates (s : State) (h : KHdr) : State :=
  jointMsg s h 0x17 (fun role _ =>
    match namedJoint s h with
    | some (slot, j) =>
      if samePath j.path h.path ∧ role ≠ roleRecovery then
        kReply (if jointOpen j then touch s slot else s) h 0x17 0 (statusBody j)
      else kReply s h 0x17 0x0203 []
    | none => kReply s h 0x17 0x0203 [])

/-- A joint without a message for JointIdleS is aborted; the timers stand still while the custody controller is replaced (R356). -/
def jointIdles (s : State) (slot : Nat) : State :=
  let j := getJoint s slot
  if jointOpen j ∧ j.commit = none ∧ j.opener ≠ 0xFFFE ∧ s.fw.replacing ≠ some 1 ∧ s.power.pwrGood
      ∧ j.lastMsg + setting s.ctl.cfg 0xE000 4 900 * 10 ^ 9 ≤ s.now then abortJoint s slot 1
  else s

/-! ## Meanings -/

/-- JOINT_OPEN (R333, R335, R337, R343). -/
def execJointOpen (t : Nat) (h : KHdr) (flags : Byte) (s : State) : Result :=
  .next (kallekWord (at_ s t) h true (.jointOpen t h flags) (fun s => jointOpens s h flags.toNat))

/-- JOINT_READ (R333, R336). -/
def execJointRead (t : Nat) (h : KHdr) (index : BitVec 16) (sub : Byte) (offset max : BitVec 32) (s : State) : Result :=
  .next (kallekWord (at_ s t) h true (.jointRead t h index sub offset max) (fun s => jointReads s h index.toNat sub.toNat offset.toNat max.toNat))

/-- JOINT_STAGE (R334, R335). -/
def execJointStage (t : Nat) (h : KHdr) (recs : List JRec) (s : State) : Result :=
  .next (kallekWord (at_ s t) h true (.jointStage t h recs) (fun s => jointStages s h recs))

/-- JOINT_STATEMENT (R337). -/
def execJointStatement (t : Nat) (h : KHdr) (s : State) : Result :=
  .next (kallekWord (at_ s t) h true (.jointStatement t h) (fun s => jointStatements s h))

/-- JOINT_SIGN (R338). -/
def execJointSign (t : Nat) (h : KHdr) (custodian : Byte) (sig : Bytes) (s : State) : Result :=
  .next (kallekWord (at_ s t) h false (.jointSign t h custodian sig) (fun s => jointSigns s h custodian.toNat sig))

/-- JOINT_ABORT (R333, R335). -/
def execJointAbort (t : Nat) (h : KHdr) (s : State) : Result :=
  .next (settle (kallekWord (at_ s t) h true (.jointAbort t h) (fun s => jointAborts s h)))

/-- JOINT_STATUS (R333). -/
def execJointStatus (t : Nat) (h : KHdr) (s : State) : Result :=
  .next (kallekWord (at_ s t) h true (.jointStatus t h) (fun s => jointStates s h))

/-- JOINT_IDLE_EXPIRY (R335). -/
def execJointIdleExpiry (t : Nat) (slot : BitVec 6) (s : State) : Result := .next (settle (clocked (at_ s t) [islControl] (fun s => jointIdles s slot.toNat)))

end Sys2Proof.Machine
end

