-- ==== Sys2Proof/Machine/PowerLoss.lean ====
section
/-! DEFINITION. What a loss of main power, RESET_N, THERMTRIP_N and an internal reset leave of the state, and how a start begins
(R22, R33, R235, R323, R361, R363, R364, R382, R392, R400, R431, R432, R440, R475 to R479). -/

namespace Sys2Proof.Machine

open Sys2Proof

/-! ## What the main domain loses (R235, R323, R363, R364, R477) -/

/-- Control and hub configuration: what flash and the backup domain hold stays. -/
def ctlLost (c : Ctl) : Ctl :=
  { savedFlash := c.savedFlash, cfgLog := c.cfgLog, cfgLogUsed := c.cfgLogUsed, cutRing := c.cutRing, backupCfg := c.backupCfg }

/-- The vault's mask words stay; a pass that still waited for its word did not begin to rewrite, and starts again (R272). -/
def vaultMaskLost (m : Masks) : Masks := { m with running := m.running && idleWord m != [], fresh := [] }

/-- Key stores: flash images, vault masks and the records durable in the vault's stage stay; what was on its way to flash is kept
until the restore, which takes it where its segment stands whole there (R154, R292). -/
def keysLost (k : Keys) : Keys :=
  { vaultMask := vaultMaskLost k.vaultMask, nlfsr := k.nlfsr
    log := { halfA := k.log.halfA, halfB := k.log.halfB, activeB := k.log.activeB, queue := k.log.queue }
    journal := { stage := k.journal.stage.filter (·.durable), halfA := k.journal.halfA, halfB := k.journal.halfB
                 activeB := k.journal.activeB, flushing := k.journal.flushing } }

/-- Of the instances only the saved ones keep a state, with their blobs: as flash holds them where DEBUG has changed volatile copies
(R323, R358). -/
def instsLost (s : State) : Map Inst :=
  mofList ((savedInsts (if s.life.debug then s.ctl.savedFlash else s.insts)).map (fun e =>
    (e.1, { st := 5, saveReq := e.2.saveReq, blob := e.2.blob, blobReady := e.2.blobReady, saveEpoch := e.2.saveEpoch })))

/-- DEBUG, a challenge and the progress of a burning end; the fuses and counters stay. -/
def lifeLost (l : Life) : Life :=
  { rows := l.rows, st := l.st, unburnt := l.unburnt, chalCount := l.chalCount, otpSecurity := l.otpSecurity
    authorityRows := l.authorityRows, authorityRevoked := l.authorityRevoked }

/-- Flash with the flash mark stays, and so does a committed activation; a staging in progress is abandoned. The loader's own copy of
its mark goes: the next start reads it back from the vault or from flash (R414). -/
def fwLost (f : Firmware) : Firmware :=
  { slots := f.slots, image := f.image, header := f.header, sectorA := f.sectorA, sectorB := f.sectorB, mask := f.mask
    staged := if f.mask = 0 ∧ f.markPhase = 0 then [] else f.staged
    source := if f.mask = 0 ∧ f.markPhase = 0 ∧ f.recovery = false then [] else f.source
    stage := if f.mask = 0 then 0 else f.stage
    recovery := f.recovery }

/-- Heads lose training and keys; PERST_N is a pin, and an LD count takes effect at a conventional reset (R462). -/
def headLost (h : Head) : Head := { perst := h.perst, lds := h.ldsNext, ldsNext := h.ldsNext }

def linkLost (l : Link) : Link :=
  { heads := l.heads.map (fun e => (e.1, headLost e.2)), flashMbit := l.flashMbit, split := l.split }

/-- The burning of a transition that is under way stops where it stands (R398). -/
def cutBurning (s : State) : State :=
  match s.life.pending, s.life.target with
  | true, some t => burnCut s t burnWords
  | _, _ => s

/-- Messages that have left the device: those that stand in a channel go with a reset (R22). -/
def sentOut (s : State) : List Out :=
  match s.link.outMark with
  | some n => s.outbox.take n
  | none => s.outbox

/-- Every island but the backup domain loses its state. -/
def mainLost (s : State) : State :=
  let s := cutBurning s
  { s with
    power := { s.power with step := 0, stop := .running, stepUs := [], shutdown := 0, xspiReset := false }
    outbox := sentOut s, writers := []
    ctl := ctlLost s.ctl, keys := keysLost s.keys, routes := {}, insts := instsLost s, bays := [], sched := {}, random := {}
    alarm := {}, evr := { mark := s.evr.mark }, life := lifeLost s.life, fw := fwLost s.fw, acu := {}, link := linkLost s.link, bad := [], stores := []
    cnt := [], backup := { s.backup with window := none, authRetry := false } }

/-- A change of modes recorded in the tail. -/
def tailMode (s : State) (m : Nat) : State :=
  if m = s.power.modes then s
  else tailRecord { s with power := { s.power with modes := m } } s.now 0x1104 (src 5 0) 0 (Bytes.ofNatLE 1 s.power.modes ++ Bytes.ofNatLE 1 m)

/-- The change of modes that a loss of main power brings is the first record of the tail's period, after one to `was` that a reset
brought before it and that no recorder could write (R352, R353, R440; log entry 114). -/
def tailModes (s : State) (was : Nat) : State :=
  let s := tailMode s was
  tailMode s (modesNow s)

/-! ## Starts (R361, R365, R432, R475) -/

/-- Operand memories are zero and owned by TEST while a start runs (R233, R235). -/
def testBays : Map Bay :=
  (upTo 16).map (fun b => (b, { mem := (upTo 8).map (fun k => (k, { owner := .test })) }))

/-- A start begins where main power is good, RESET_N is high and no thermal trip stands: step 1 runs, XSPI_RESET_N is held low (R482), the
recorder resumes above every number used, and monitors 0 to 6 are armed. -/
def beginStart (s : State) : State :=
  if s.power.pwrGood ∧ s.power.resetLow = false ∧ s.power.thermtrip = false then
    { s with
      bays := testBays
      power := { s.power with step := 1, stop := .running, startT := s.now, startups := s.power.startups + 1, xspiReset := true }
      evr := { s.evr with head := s.evr.mark, floor := s.evr.mark, mark := s.evr.mark + 2 ^ 20 } }
  else s

/-- A start stopped or ended for good: ALARM_N is driven low while it stands (R377). -/
def stopStart (s : State) (c : StopCause) : State :=
  { s with power := { s.power with stop := c }, alarm := { s.alarm with alarmN := true } }

/-- Everything in the main domain begins again; the backup domain goes on. The recorder is held in reset with it: the record of the
change of modes is the first of the start that follows (R352; log entry 114). -/
def mainReset (s : State) : State := mainLost s

/-- The reset that the device itself makes. -/
def internalReset (s : State) : State := settle (beginStart (mainReset s))

/-! ## Power (R33, R382, R440, R476) -/

/-- Main power is good: the backup domain is fed from VDD_IO, BACKUP ends and a start begins. DEDUCED (log entry 254): PWR_GOOD is
asserted only with VDD_IO in its range, and so above VSWH (R475). -/
def powerGood (s : State) : State :=
  if s.power.pwrGood then s
  else
    settle (beginStart { s with power := { s.power with pwrGood := true, switched := false, supply := .main, thermtrip := false } })

/-- Entry to BACKUP: the main domain is held in reset and zeroed, the tail is emptied, the mask register is loaded from the vault's
live word (R272), and the backup domain runs on the cell; with no Envelope seated it loses all supply. -/
def enterBackup (s : State) : State :=
  if s.power.pwrGood = false then s
  else
    let was := if heldInReset s then modesNow s else s.power.modes
    let s := mainLost { s with power := { s.power with pwrGood := false } }
    let s := { s with
      power := { s.power with supply := .cell }
      keys := { s.keys with nlfsr := Bytes.fit 32 (liveWord s.keys.vaultMask) }
      backup := { s.backup with tail := [], tailLost := 0, tailLostCode := 0, tailLostSrc := 0, entryT := s.now } }
    if s.backup.contact then tailModes s was else loseSupply (tailModes s was)

/-- RESET_N is filtered like PWR_GOOD: a pulse below 1 µs is ignored, one of 2 µs qualifies, and between the two the manual says
neither (log entry 3). -/
def resetTakes (s : State) (widthNs : Nat) : Bool × State :=
  if 2000 ≤ widthNs then (true, s)
  else if widthNs < 1000 then (false, s)
  else (Config.freeNat s.free % 2 == 1, { s with free := s.free + 1 })

/-- RESET_N asserted: every mode ends, and the start waits for its deassertion; on backup only the pin's level is kept. -/
def resetAsserted (s : State) (widthNs : Nat) : State :=
  let (takes, s) := resetTakes s widthNs
  if takes = false then s
  else
    let s := { s with power := { s.power with resetLow := true } }
    if s.power.pwrGood then mainReset s else s

/-- RESET_N deasserted: the start follows. -/
def resetReleased (s : State) : State :=
  if s.power.resetLow then settle (beginStart { s with power := { s.power with resetLow := false } }) else s

/-- THERMTRIP_N driven low: no start begins until PWR_GOOD has been deasserted and asserted again. -/
def thermalTrip (s : State) : State :=
  if s.power.pwrGood = false then s else mainReset { s with power := { s.power with thermtrip := true } }

/-! ## Meanings -/

/-- PWR_GOOD_ASSERT (R361, R33, R476). -/
def execPwrGoodAssert (t : Nat) (s : State) : Result := .next (powerGood (at_ s t))

/-- PWR_GOOD_DEASSERT (R363, R382, R476, R477): a pulse below tPGF is ignored. -/
def execPwrGoodDeassert (t lowNs : Nat) (s : State) : Result :=
  let s := at_ s t
  .next (if 1000 ≤ lowNs then enterBackup s else s)

/-- BACKUP_SWITCHOVER (R33, R476): VDD_IO below VSWL for 1 µs. -/
def execBackupSwitchover (t belowNs : Nat) (s : State) : Result :=
  let s := at_ s t
  .next (if 1000 ≤ belowNs ∧ s.power.pwrGood then
      let s := enterBackup s
      { s with power := { s.power with switched := true } }
    else s)

/-- RESET_N_ASSERT (R364, R478). -/
def execResetNAssert (t widthNs : Nat) (s : State) : Result := .next (resetAsserted (at_ s t) widthNs)

/-- RESET_N_DEASSERT (R361, R478). -/
def execResetNDeassert (t : Nat) (s : State) : Result := .next (resetReleased (at_ s t))

/-- THERMTRIP (R479). -/
def execThermtrip (t : Nat) (s : State) : Result := .next (thermalTrip (at_ s t))

end Sys2Proof.Machine
end

