-- ==== Sys2Proof/Machine/Sections.lean ====
section
/-! DEFINITION. Sections of the configuration, their serialisation and digests, the digests that are published, and what each island
holds (R346, R347). -/

namespace Sys2Proof.Machine

open Sys2Proof

/-! ## Sections (R346) -/

/-- Number of the section of route partition p. -/
def partSection (p : Nat) : Nat := 0x10000 + p

/-- An object belongs to a section: class N, and some column lets a joint write it. -/
def sectionObj (o : Obj) : Bool := o.kept == 1 && jointWritable o

/-- The object at index.sub of a configuration, serialised. -/
def objBytes (s : State) (c : Cfg) (index sub : Nat) (o : Obj) : Bytes :=
  let v := objValue { s with ctl := { s.ctl with cfg := c } } index sub o
  Bytes.ofNatLE 1 sub ++ Bytes.ofNatLE 1 o.type ++ Bytes.ofNatLE 4 v.length ++ v

/-- The fleet section of a dictionary index, or its local section. -/
def sectionBytes (s : State) (c : Cfg) (isLocal : Bool) (index : Nat) : Bytes :=
  (upTo 256).flatMap (fun sub => match dictAt index sub with
    | some o => if sectionObj o && o.local_ == isLocal then objBytes s c index sub o else []
    | none => [])

/-- Prefixes before longer ones, then by their digits. -/
def routeBefore (a b : RouteEntry) : Bool :=
  decide (a.1.length < b.1.length) || (a.1.length == b.1.length && digitsLt a.1 b.1)

def insertRoute (e : RouteEntry) : List RouteEntry → List RouteEntry
  | [] => [e]
  | x :: xs => if routeBefore e x then e :: x :: xs else x :: insertRoute e xs

def sortRoutes (l : List RouteEntry) : List RouteEntry := l.foldr insertRoute []

/-- The section of a partition. -/
def partBytes (c : Cfg) (p : Nat) : Bytes :=
  (sortRoutes (mget {} c.parts p).routes).flatMap (fun e =>
    Bytes.ofNatLE 1 e.1.length ++ Bytes.fit 10 (Bytes.ofNibbles e.1) ++ Bytes.ofNatLE 4 e.2)

/-! ## Digests -/

/-- Section number and digest of each non-empty section of a list of numbered serialisations. -/
def digestList (l : List (Nat × Bytes)) : Bytes :=
  (l.filter (fun e => e.2 != [])).flatMap (fun e => Bytes.ofNatLE 4 e.1 ++ Sha.sha256 e.2)

def dictSections (s : State) (c : Cfg) (isLocal : Bool) (scope : Nat → Bool) : List (Nat × Bytes) :=
  (allIndices.filter scope).map (fun k => (k, sectionBytes s c isLocal k))

def partSections (c : Cfg) : List (Nat × Bytes) := (upTo 255).map (fun k => (partSection (k + 1), partBytes c (k + 1)))

/-- ConfigDigest of a configuration. -/
def configDigest (s : State) (c : Cfg) : Bytes :=
  Sha.sha256 (digestList (dictSections s c false (fun _ => true) ++ partSections c))

/-- LocalDigest. -/
def localDigest (s : State) (c : Cfg) : Bytes := Sha.sha256 (digestList (dictSections s c true (fun _ => true)))

/-- Bytes of a configuration as a snapshot of the log holds it: every section with its number. -/
def configBytes (s : State) (c : Cfg) : Nat :=
  ((dictSections s c false (fun _ => true) ++ dictSections s c true (fun _ => true) ++ partSections c).map
    (fun e => if e.2 = [] then 0 else 8 + e.2.length)).foldl (· + ·) 0

/-! ## Islands (R347) -/

def between (lo hi index : Nat) : Bool := decide (lo ≤ index) && decide (index ≤ hi)

/-- Indices whose fleet sections island k holds. -/
def fleetScope (k index : Nat) : Bool :=
  match k with
  | 0 => true
  | 1 => between 0x1100 0x11FF index || between 0x9000 0x90FF index
  | 2 => between 0x4000 0x40FF index || between 0x5000 0x50FF index || between 0x6000 0x60FF index || between 0x8000 0x8FFF index
  | 3 => between 0x3000 0x30FF index
  | 4 => between 0x2007 0x200A index || index == 0x200D || index == 0x2800 || between 0xD000 0xD0FF index
  | _ => between 0x4000 0x40FF index

/-- Indices whose local sections island k holds. -/
def localScope (k index : Nat) : Bool :=
  match k with
  | 0 => true
  | 1 => between 0x1100 0x11FF index || between 0x9000 0x90FF index || between 0x8000 0x8FFF index
  | 2 => between 0x4000 0x40FF index || between 0x5000 0x50FF index || between 0x6000 0x60FF index
  | 3 => between 0x3000 0x30FF index
  | 4 => between 0x2007 0x200A index || index == 0x200D || index == 0x2800 || between 0xD000 0xD0FF index
  | _ => between 0x4000 0x40FF index

/-- Sections of island k in ascending number, the fleet section of an index before its local one. -/
def islandSections (s : State) (c : Cfg) (k : Nat) : List (Nat × Bytes) :=
  allIndices.flatMap (fun index =>
    (if fleetScope k index then [(index, sectionBytes s c false index)] else [])
      ++ (if localScope k index then [(index, sectionBytes s c true index)] else []))
    ++ (if k = 0 ∨ k = 2 then partSections c else [])

/-- Island digest of island k over a configuration. -/
def islandDigest (s : State) (c : Cfg) (k : Nat) : Bytes := Sha.sha256 (digestList (islandSections s c k))

end Sys2Proof.Machine
end

