-- ==== Sys2Proof/Machine/Commit.lean ====
section
/-! DEFINITION. The commit of a joint up to its prepare record: the configuration it would produce, the rules that relate several
objects, key update messages, quorum and read set (R70, R99, R100, R187, R207, R261, R286 to R289, R293, R297, R302, R303, R314,
R316, R331, R337 to R343, R357, R451). -/

namespace Sys2Proof.Machine

open Sys2Proof

/-! ## The configuration a joint would produce -/

def isInstIndex (index : Nat) : Bool := decide (0x8000 ≤ index) && decide (index ≤ 0x8FFF)

/-- Instances with a tenant in a configuration. -/
def assignedIn (c : Cfg) : List Nat :=
  c.vals.filterMap (fun e =>
    if e.1 % 256 = 1 ∧ isInstIndex (e.1 / 256) ∧ e.2 ≠ 0xFFFF then some (e.1 / 256 - 0x8000) else none)

/-- Every N object of an instance at its default (R303). -/
def releaseCfg (c : Cfg) (i : Nat) : Cfg :=
  { c with vals := c.vals.filter (fun e => e.1 / 256 != 0x8000 + i), octs := c.octs.filter (fun e => e.1 / 256 != 0x8000 + i) }

/-- A record writes a given subindex of an instance. -/
def writesInst (r : JRec) (sub : Nat) : Bool := r.kind == 1 && isInstIndex r.index.toNat && r.sub.toNat == sub

def recInst (r : JRec) : Nat := r.index.toNat - 0x8000

/-- A WRITE record of a number of `w` bytes. -/
def writeRec (index sub w v : Nat) : JRec :=
  { kind := 1, sub := BitVec.ofNat 8 sub, index := BitVec.ofNat 16 index, data := Bytes.ofNatLE w v }

/-- The writes that a restore makes: the carried settings as placed, and TenantAuthority where it takes the carried one. -/
def restoreWrites (c : Cfg) (i : Nat) (q : RestoreReq) (k : Carried) : List JRec :=
  let c' := restoreCfg c i q k
  carriedSubs.map (fun e => writeRec (0x8000 + i) e.1 e.2 (mget 0 c'.vals (instKey i e.1)))
    ++ (if tenantAuthority c' q.tenant = tenantAuthority c q.tenant then []
        else [writeRec (0x6050 + q.tenant / 256) (q.tenant % 256) 4 (tenantAuthority c' q.tenant)])

/-- The last write of each object: a later WRITE supersedes an earlier one (R334). -/
def lastWrites : List JRec → List JRec
  | [] => []
  | r :: rest => if r.kind = 1 ∧ rest.any (fun x => x.kind == 1 && recKey x == recKey r) then lastWrites rest else r :: lastWrites rest

/-- A record as the configuration sees it: a restore stands for its writes. -/
def resolveRec (s : State) (quorum : Bool) (r : JRec) : List JRec :=
  if writesInst r 0x76 then
    (match openRestore s (recInst r) quorum r.data with
    | .ok (q, k) => restoreWrites s.ctl.cfg (recInst r) q k
    | .error _ => [])
  else [r]

def resolved (s : State) (quorum : Bool) (recs : List JRec) : List JRec := (mergeImages recs).flatMap (resolveRec s quorum)

/-- A resolved record's effect on a configuration. -/
def produceRec (c : Cfg) (r : JRec) : Cfg :=
  if writesInst r 0x73 then (if instTenant c (recInst r) = 0xFFFF then c else releaseCfg c (recInst r)) else applyRec c r

/-- Payment settings that a newly assigned instance has never been given take the values of 0x6030 (R186, R302). -/
def fillDefaults (c : Cfg) (i : Nat) : Cfg :=
  let put := fun (m : Map Nat) (sub d : Nat) =>
    if (mfind m (instKey i sub)).isSome then m else mput m (instKey i sub) (setting c 0x6030 (sub - 0x3F) d)
  { c with vals := put (put (put c.vals 0x40 0xDDFD) 0x41 12) 0x42 1 }

/-- A configuration after resolved records, but for its versions. -/
def produce (c0 : Cfg) (recs : List JRec) : Cfg :=
  let c := recs.foldl produceRec c0
  ((assignedIn c).filter (fun i => instTenant c0 i == 0xFFFF)).foldl fillDefaults c

/-- The configuration at a joint's cut. -/
def producedCfg (s : State) (quorum : Bool) (recs : List JRec) : Cfg := produce s.ctl.cfg (resolved s quorum recs)

/-! ## Pools (R70, R71, R99) -/

/-- Removed slots of an instance that are still PENDING, by group. -/
def pendingGroups (s : State) (i n : Nat) : Nat :=
  ((((pendingSlots (getInst s i)).map (· / 16)).filter (fun g => decide (n ≤ 16 * g))).foldl
    (fun (acc : List Nat) g => if acc.contains g then acc else acc ++ [g]) []).length

/-- Pool contents drawn by every assigned instance of a configuration fit, groups that return only later counted as drawn. -/
def poolsFit (s : State) (c : Cfg) : Bool :=
  let sum := fun (f : Nat → Nat) => ((assignedIn c).map f).foldl (· + ·) 0
  decide (sum (fun i => groupsOf16 (inlineSlots c i) + 16 * pendingGroups s i (groupsOf16 (inlineSlots c i))) ≤ 65536)
    && decide (sum (ringEntries c) ≤ 262144) && decide (sum (stagingPages c) ≤ 8192)

/-! ## Routes (R188, R202) -/

/-- Partitions that a joint's records touch. -/
def touchedParts (recs : List JRec) : List Nat :=
  recs.foldl (fun acc r =>
    let p := if r.kind = 2 then Bytes.fieldLE r.data 1 1 else if r.kind = 1 ∧ r.index = 0x5051 then r.sub.toNat else 0
    if p = 0 ∨ acc.contains p then acc else acc ++ [p]) []

/-- What a joint's records leave a partition of a form to start from: the image of the last LOAD_IMAGE that nothing empties afterwards,
nothing after a CLEAR or a write that changes its form, else what it held (R188, R201, R202). -/
def partLoad (recs : List JRec) (form p : Nat) : Load :=
  ((mergeImages recs).foldl (fun (acc : Nat × Load) r =>
    let q := parseRoute r.data
    if r.kind = 2 ∧ q.part = p then (acc.1, if q.rop = 4 then .image q.image q.aux else if q.rop = 3 then .empty else acc.2)
    else if r.kind = 1 ∧ r.index = 0x5051 ∧ r.sub.toNat = p ∧ recValue r ≠ acc.1 then (recValue r, .empty)
    else acc) (form, .kept)).2

/-- The routing memories at a cut, and the blocks and arrays that return; none where they run out. -/
def routesAt (r : Routes) (c0 c1 : Cfg) (cut : Nat) (recs : List JRec) : Option (Routes × List Nat × List (Nat × Nat)) :=
  (touchedParts recs).foldl (fun acc p => acc.bind (fun x =>
    (applyPart x.1 p cut (partForm c0 p) (partLoad recs (partForm c0 p) p) false (mget {} c1.parts p)).map
      (fun y => (y.1, x.2.1 ++ y.2.1, x.2.2 ++ y.2.2)))) (some (r, [], []))

/-! ## Rules that relate several objects -/

/-- A binding obeys R302: its LD is enabled, and no other instance of the LD has its area. -/
def bindStatus (c : Cfg) (i : Nat) : Nat :=
  if instTenant c i = 0xFFFF then 0
  else if 64 ≤ instLd c i ∨ setting c (0x9010 + instLd c i) 1 0 ≠ 1 then 0x0203
  else if (assignedIn c).any (fun k => k != i && instLd c k == instLd c i && instArea c k == instArea c i) then 0x0602
  else 0

/-- The derivation range of an instance obeys R207. -/
def derivStatus (c : Cfg) (i : Nat) : Nat :=
  if 262144 < derivTermBase c i + derivTermCount c i then 0x0203
  else if instTenant c i ≠ 0xFFFF
      ∧ derivRangeOk c (assignedIn c) i (instTenant c i) (derivTermBase c i) (derivTermCount c i) = false then 0x0302
  else 0

/-- The first status of a list that is not 0. -/
def firstBad (l : List Nat) : Nat := (l.find? (· != 0)).getD 0

/-- An instance may be saved or restored at this commit (R323, R357). -/
def moveStatus (s : State) : Nat := moveRefused s (bundleRunning s)

/-- The route partition of an instance is its tenant's (R187). -/
def partStatus (c : Cfg) (i : Nat) : Nat :=
  let p := routePartition c i
  if p ≠ 0 ∧ (partOwner c p = 0xFFFF ∨ partOwner c p ≠ instTenant c i) then 0x0302 else 0

/-- Rules for a write of an instance's object; `c0` is the configuration in force, `c1` the one the joint would produce, `done` are the
items of the joint that come before it. -/
def instRule (s : State) (c0 c1 : Cfg) (quorum : Bool) (done : List ItemOut) (r : JRec) : Nat :=
  let i := recInst r
  let v := recValue r
  let x := getInst s i
  let changes := fun (f : Cfg → Nat → Nat) => decide (x.st ≠ 0) && f c0 i != f c1 i
  let pool := if poolsFit s c1 then 0 else 0x0602
  match r.sub.toNat with
  | 0x01 => if x.st ≠ 0 then 0x0302 else firstBad [bindStatus c1 i, derivStatus c1 i, pool]
  | 0x02 => firstBad [bindStatus c1 i, if changes instLd && !quiet x then 0x0704 else 0]
  | 0x03 => firstBad [bindStatus c1 i, if changes instArea && !quiet x then 0x0704 else 0]
  | 0x05 => if changes instPasid && !quiet x then 0x0704 else 0
  | 0x10 => if changes ringEntries && !x.ops.isEmpty then 0x0704 else pool
  | 0x11 =>
    if x.st ≠ 0 ∧ (ownedPages s i).any (fun g => decide (stagingPages c1 i ≤ g) && decide (g < stagingPages c0 i)) then 0x0704 else pool
  | 0x12 => if 2048 ≤ v then 0x0203 else 0
  | 0x20 => pool
  | 0x50 => partStatus c1 i
  | 0x51 => derivStatus c1 i
  | 0x52 => derivStatus c1 i
  | 0x72 => if v = 1 then (if bundleRunning s then 0x0104 else 0) else if x.st = 5 then 0x0701 else 0
  | 0x73 => if x.st = 2 ∨ x.st = 3 ∨ (x.st ≠ 0 ∧ quiet x = false) then 0x0704 else 0
  | 0x74 => firstBad [moveStatus s, saveStatus (trial s done) i r.data]
  | 0x76 =>
    if moveStatus s ≠ 0 then moveStatus s
    else if x.st ≠ 0 then 0x0302
    else (match restoreContent s done i quorum r.data with
      | .error e => e
      | .ok _ => firstBad [bindStatus c1 i, pool, derivStatus c1 i, if s.life.debug then 0x0104 else 0, partStatus c1 i])
  | 0x77 => if x.st ≠ 0 then 0x0302 else if seedingInForce s then 0x0103 else 0
  | _ => 0

/-- Enabled custodians reach QuorumM (R339). -/
def rosterStatus (c : Cfg) : Nat := if custodiansEnabled c < setting c 0x7000 1 2 then 0x0203 else 0

/-- Rules for a record's write at commit; 0 where they hold. -/
def writeRule (s : State) (c0 c1 : Cfg) (j : Joint) (done : List ItemOut) (r : JRec) : Nat :=
  let index := r.index.toNat
  let sub := r.sub.toNat
  let v := recValue r
  if isInstIndex index then instRule s c0 c1 j.quorum done r
  else if 0x7010 ≤ index ∧ index ≤ 0x701F ∧ sub ≤ 2 then rosterStatus c1
  else if 0x9010 ≤ index ∧ index ≤ 0x904F then
    if v = 0 ∧ (assignedIn c1).any (fun i => instLd c1 i == index - 0x9010) then 0x0705 else 0
  else if index = 0x5050 then
    (if (assignedIn c1).any (fun i => routePartition c1 i == sub && instTenant c1 i != partOwner c1 sub) then 0x0302 else 0)
  else match index, sub with
  | 0x7000, 1 => rosterStatus c1
  | 0x3000, 0x15 => if setting c1 0x3000 0x16 (2 ^ 24) < setting c1 0x3000 0x15 (2 ^ 20) + 131072 then 0x0203 else 0
  | 0x3000, 0x16 => if setting c1 0x3000 0x16 (2 ^ 24) < setting c1 0x3000 0x15 (2 ^ 20) + 131072 then 0x0203 else 0
  | 0x9000, 1 => if (upTo 64).any (fun d => decide (16 * headsOf v ≤ d) && setting c1 (0x9010 + d) 1 0 == 1) then 0x0705 else 0
  | 0x6020, 9 => if s.keys.journal.rejected then 0 else 0x0203
  | 0x6021, 3 => if s.keys.log.rejected then 0 else 0x0203
  | 0x1F00, 4 => if s.ctl.cfgRejected then 0 else 0x0203
  | 0xA000, 2 => firstBad [transitionStatus s j.role j.quorum v, if transitionDeclined s v then 0x0104 else 0]
  | 0xA001, 1 => scopeStatus s j.role v
  | 0xB000, 1 => if s.fw.mask ≠ 0 then 0x0104 else 0
  | 0xB000, 5 => activateStatus s v
  | _, _ => 0

/-! ## Step 4 (R287, R288, R340) -/

/-- A pass over a joint's records: the state with what the key checks claimed and drew, the items that passed, the first status
that is not 0, and the tenant and item of a refused message. -/
structure Pass where
  s : State
  items : List ItemOut := []
  bad : Nat := 0
  refused : Option (Nat × Option (Nat × Nat)) := none
  deriving DecidableEq, Repr

/-- More items pass where the pending list and the shelf have room for all of the joint (R212, R289). -/
def passItems (p : Pass) (its : List ItemOut) : Pass :=
  if pendingFits p.s its = false then { p with bad := 0x0903 }
  else if (applyItems p.s (p.s.ctl.epoch + 1) its).isNone then { p with bad := 0x0602 }
  else { p with items := its }

/-- What a save or a restore does to the keys: its deletions, or the keys it writes (R318, R322). -/
def moveItems (s : State) (quorum : Bool) (done : List ItemOut) (r : JRec) : List ItemOut :=
  if writesInst r 0x74 then saveDeletes (trial s done) (saveHandles r.data)
  else if writesInst r 0x76 then
    (match restoreContent s done (recInst r) quorum r.data with
    | .ok (q, k) => restoreItems (trial s done) q k
    | .error _ => [])
  else []

/-- A key update message of a joint at its commit. -/
def passKum (p : Pass) (data : Bytes) : Pass :=
  match parseKum data false with
  | .error st => { p with bad := st }
  | .ok m =>
    if m.counter ≤ kumCounter p.s m.tenant then { p with bad := 0x0404, refused := some (m.tenant, none) }
    else match controllerDraws (List.replicate (generateBytes m / 32) 32) p.s with
      | (none, s) => { p with s := s, bad := 0x0501, refused := some (m.tenant, none) }
      | (some rs, s) =>
        match checkItems (setKumCounter s m.tenant m.counter) {} p.s.ctl.epoch m.tenant 0 p.items rs.flatten m.items with
        | (.error (st, j, h), s, _) => { p with s := s, bad := st, refused := some (m.tenant, some (j, h)) }
        | (.ok its, s, _) => passItems { p with s := s } its

/-- One record of the pass. -/
def passRec (c0 c1 : Cfg) (routes : Bool) (j : Joint) (p : Pass) (r : JRec) : Pass :=
  if p.bad ≠ 0 then p
  else if r.kind = 3 then passKum p r.data
  else if r.kind = 1 then
    let st := firstBad [writeRule p.s c0 c1 j p.items r, if r.index = 0x5051 ∧ routes = false then 0x0602 else 0]
    if st ≠ 0 then { p with s := stageRefused p.s st (some r), bad := st } else passItems p (p.items ++ moveItems p.s j.quorum p.items r)
  else { p with bad := if r.kind = 2 ∧ routes = false then 0x0602 else 0 }

/-- Steps 3 and 4 of R340: the read set, then every record that stands in staging order. Copies of an earlier joint that still await
return are awaited, and do not count as taken (R202). -/
def commitPass (s : State) (j : Joint) : Pass :=
  if j.reads.any (fun e => versionOf s.ctl.cfg e.1 != e.2) then { s := s, bad := 0x0901 }
  else if j.image.isSome then { s := s, bad := 0x0203 }
  else
    let c1 := producedCfg s j.quorum j.recs
    let routes := (routesAt (returnedBy s.routes s.now) s.ctl.cfg c1 (s.ctl.epoch + 1) j.recs).isSome
    (lastWrites j.recs).foldl (passRec s.ctl.cfg c1 routes j) { s := s }

/-- Counters of a failed joint's messages, whose signatures have verified, are raised (R288). -/
def raiseCounters (s : State) (recs : List JRec) : State :=
  each (recs.filter (fun r => r.kind == 3)) s (fun s r =>
    match parseKum r.data false with
    | .ok m => if kumCounter s m.tenant < m.counter then setKumCounter s m.tenant m.counter else s
    | .error _ => s)

/-- A joint that fails at its commit leaves nothing in effect: its record, its reply, its slot freed. -/
def failCommit (s : State) (slot status : Nat) (refused : Option (Nat × Option (Nat × Nat))) : State :=
  let j := getJoint s slot
  let s := raiseCounters s j.recs
  let s := match refused with
    | some (t, item) => kumRefused s status t item
    | none => s
  let s := match j.commit with
    | some h => kReply s h 0x15 status []
    | none => s
  closeJoint (commitRecord (answerSigns s j) slot status 0) slot 3 status

/-! ## Steps 1 and 2, and the beginning of a commit -/

/-- A quorum is present where the joint needs one. -/
def quorumPresent (s : State) (j : Joint) : Bool :=
  let c := s.ctl.cfg
  let n := ((upTo 16).filter (fun k => bitOf j.sigs k && setting c (0x7010 + k) 2 0 == 1)).length
  !j.recs.any (recQuorum s j.role) || (j.quorum && decide (setting c 0x7000 1 2 ≤ n))

/-- A commit that does not begin: its reply and its record; the joint stays open. -/
def declineCommit (s : State) (slot : Nat) (h : KHdr) (status : Nat) : State :=
  modJoint (commitRecord (kReply s h 0x15 status []) slot status 0) slot (fun j => { j with commit := none })

/-! ## Access rules in preparation (R420, R427) -/

/-- What of a configuration the access rules follow: bindings, enabled LDs, user rules. -/
def aclOf (c : Cfg) : List (Nat × Nat × Nat) × List Bool × Map Nat :=
  ((assignedIn c).map (fun i => (i, instLd c i, instArea c i)), (upTo 64).map (ldEnabled c), userRules c)

/-- The debug rules that a joint's cut would put in force: those of a response that it holds. -/
def debugRulesOf (j : Joint) : Option (Map Nat) :=
  ((j.recs.filter (fun r => r.kind == 1 && r.index == 0xA001 && r.sub == 3)).getLast?).map (fun r => debugRules (responseScope r.data))

/-- The shadow bank takes the rules that a joint's cut is to put in force, where it alters any; while accesses of the old bank drain it
waits for them (R427). -/
def prepareRules (s : State) (j : Joint) : State :=
  let c := producedCfg s j.quorum j.recs
  if s.acu.drain ∨ (aclOf c = aclOf s.ctl.cfg ∧ debugRulesOf j = none) then s
  else
    let now := rulesFor s c
    let rules := match debugRulesOf j with
      | some d => now.filter (fun e => decide (e.1 < 160)) ++ d ++ now.filter (fun e => decide (192 ≤ e.1))
      | none => now
    { s with acu := { s.acu with shadow := rules } }

/-! ## The words of the staging store (R26 to R29) -/

/-- The first mismatched word of a joint's records in the staging store. -/
def jointBad (s : State) (slot : Nat) : Option Nat := badWord s memJoints (jointWord slot) (ceilDiv (getJoint s slot).bytes 8)

/-- The custody controller reads a joint's records: a mismatched word is a FABRIC event. -/
def jointMismatch (s : State) (key : Nat) : State := raiseFabric s (writerOf s key islControl) islControl memJoints

/-- Steps 1 to 4, taken when the commit begins; then the prepare record is written, but in DEBUG (R358). Once an orderly shutdown
is ready a commit is refused (R355), and its record written as for every commit (R340). -/
def beginCommit (s : State) (slot : Nat) (h : KHdr) : State :=
  let j := getJoint s slot
  if cutForbidden s ∨ s.power.shutdown = 2 then declineCommit s slot h 0x0104
  else if quorumPresent s j = false then declineCommit s slot h 0x0902
  else
    let s := modJoint s slot (fun j => { j with commit := some h })
    match jointBad s slot with
    | some key => failCommit (jointMismatch s key) slot 0x0801 none
    | none =>
    let p := commitPass s j
    if p.bad ≠ 0 then failCommit p.s slot p.bad p.refused
    else if 3 ≤ j.prepTries then failCommit s slot 0x0903 none
    else
      let s := prepareRules (queueCommit s slot s.now) j
      if s.life.debug ∨ j.prep ≠ .none then s else modJoint s slot (fun j => { j with prep := .writing s.now })

/-! ## JOINT_COMMIT (R338, R340) -/

/-- The commit of recovery staging names a source at once, and the start begins again (R414). -/
def recoveryCommit (s : State) (slot : Nat) (h : KHdr) : State :=
  let j := getJoint s slot
  let src := ((j.recs.filter (fun r => r.kind == 1 && r.index == 0xB000 && r.sub == 2)).getLast?).map (·.data)
  match src with
  | some d =>
    let s := { s with fw := { s.fw with source := d, markSource := d, recovery := s.fw.markPhase != 1 } }
    let s := if s.fw.markPhase = 1 then noteMark s else s
    let s := kReply s h 0x15 0 (Bytes.ofNatLE 8 s.ctl.epoch ++ Bytes.ofNatLE 8 s.now)
    internalReset (closeJoint s slot 2 0)
  | none => kReply s h 0x15 0x0203 []

/-- A commit begins once the last signature that the quorum needs has verified, or none is under verification (R340). -/
def commitReady (s : State) (slot : Nat) : Bool := (getJoint s slot).verifying.isEmpty || quorumPresent s (getJoint s slot)

/-- A JOINT_COMMIT arrives: it begins now, or once the signatures under verification that the quorum needs are done. -/
def jointCommits (s : State) (h : KHdr) : State :=
  kallek s h 0x15 (fun role _ =>
    match ownJoint s h with
    | none => kReply s h 0x15 (if s.power.shutdown = 2 then 0x0104 else 0x0203) []
    | some (slot, j) =>
      if j.commit.isSome then kReply s h 0x15 0x0203 []
      else
        let s := touch s slot
        if role = roleRecovery then recoveryCommit s slot h
        else if commitReady s slot then beginCommit s slot h
        else modJoint s slot (fun j => { j with commit := some h }))

/-! ## Signatures (R338, R342) -/

/-- A signature has been verified: attached or refused; the first seals the joint and begins its prepare record, the last lets a
waiting commit begin. -/
def signVerified (s : State) (slot : Nat) : State :=
  let j := getJoint s slot
  match j.verifying with
  | [] => s
  | (c, sig, h) :: rest =>
    if jointOpen j = false ∨ s.power.pwrGood = false then s
    else
      let good := signatureGood s slot j c sig
      let j' := { j with verifying := rest }
      let j' := if good then
          { j' with sigs := putBit j.sigs c true, st := 1
                    prep := if j.prep = .none ∧ s.life.debug = false then .writing s.now else j.prep }
        else j'
      let s := setJoint s slot j'
      let s := if good then kReply s h 0x14 0 (Bytes.ofNatLE 1 (sigCount j') ++ Bytes.zeros 3) else kReply s h 0x14 0x0902 []
      match j.commit with
      | some c => if commitReady s slot ∧ s.ctl.commits.contains slot = false then beginCommit s slot c else s
      | none => s

/-! ## Prepare records (R343) -/

/-- Writes that a prepare record keeps: of class N objects, and releases. -/
def prepareRecs (recs : List JRec) : List JRec :=
  recs.filter (fun r => writesInst r 0x73
    || (r.kind == 1 && (match dictAt r.index.toNat r.sub.toNat with
      | some o => o.kept == 1
      | none => false)))

/-- Route content that a prepare record keeps: the sections of the partitions that the joint changes, as it leaves them. -/
def prepareParts (c0 c1 : Cfg) (recs : List JRec) : Map Part :=
  ((touchedParts recs).filter (fun p => mget {} c1.parts p != mget {} c0.parts p)).foldl (fun m p => mput m p (mget {} c1.parts p)) []

/-- Segments that an entry of the configuration log takes: number and length of each route section before it. -/
def entrySegments (s : State) (e : CfgEntry) : Nat :=
  logSegments (match e with
    | .snapshot c _ => configBytes s c
    | .prepare _ recs parts => 8 + (recs.flatMap jrecBytes).length
        + (parts.map (fun p => 8 + (partBytes { parts := parts } p.1).length)).foldl (· + ·) 0
    | .cut _ _ => 16)

/-- The log begun again in its idle half: a snapshot of the configuration in force, then the prepare records of joints still open, so
that every joint that is cut is restored (R343, R344). -/
def freshCfgLog (s : State) : State :=
  let live := s.ctl.cfgLog.filter (fun e => match e with
    | .prepare serial _ _ => (openJoints s).any (fun x => x.2.serial == serial)
    | _ => false)
  let log := .snapshot s.ctl.cfg s.ctl.epoch :: live
  let n := (log.map (entrySegments s)).foldl (· + ·) 0
  setDevCounter { s with ctl := { s.ctl with cfgLog := log, cfgLogUsed := n } } 51 (devCounter s 51 + n)

/-- The configuration log compacted at 1,200 used segments. In DEBUG the configuration in force is none to keep, and the log goes on. -/
def compactCfg (s : State) : State := if s.ctl.cfgLogUsed < 1200 ∨ s.life.debug then s else freshCfgLog s

/-- An entry stands durable in the log, whose epoch covers it. -/
def appendCfgLog (s : State) (e : CfgEntry) : State :=
  let n := entrySegments s e
  compactCfg (setDevCounter { s with ctl := { s.ctl with cfgLog := s.ctl.cfgLog ++ [e], cfgLogUsed := s.ctl.cfgLogUsed + n } } 51
    (devCounter s 51 + n))

/-- A program or erase that failed is counted (R466). -/
def flashFailed (s : State) : State := bump s (odKey 0x1100 4)

/-- A prepare record is durable, or its attempt has failed; the third failure ends a commit that waits for it. -/
def prepareDone (s : State) (slot : Nat) (ok : Bool) : State :=
  let j := getJoint s slot
  match j.prep with
  | .writing _ =>
    if jointOpen j = false ∨ s.power.pwrGood = false ∨ s.fw.replacing = some 1 then s
    else if ok then
      let recs := prepareRecs (resolved s j.quorum j.recs)
      let parts := prepareParts s.ctl.cfg (producedCfg s j.quorum j.recs) j.recs
      modJoint (appendCfgLog s (.prepare j.serial recs parts)) slot (fun j => { j with prep := .durable })
    else
      let s := modJoint (flashFailed s) slot (fun j => { j with prepTries := j.prepTries + 1 })
      if j.prepTries + 1 < 3 then s
      else
        let s := modJoint s slot (fun j => { j with prep := .none })
        if s.ctl.commits.contains slot then failCommit s slot 0x0903 none else s
  | _ => s

/-! ## Meanings -/

/-- JOINT_COMMIT (R340, R342, R414). -/
def execJointCommit (t : Nat) (h : KHdr) (s : State) : Result :=
  .next (settle (kallekWord (at_ s t) h false (.jointCommit t h) (fun s => jointCommits s h)))

/-- PREPARE_DURABLE (R343, R340). -/
def execPrepareDurable (t : Nat) (slot : BitVec 6) (ok : Bool) (s : State) : Result :=
  .next (settle (clocked (at_ s t) [islControl] (fun s => prepareDone s slot.toNat ok)))

end Sys2Proof.Machine
end

