-- ==== Sys2Proof/Machine/Cut.lean ====
section
/-! DEFINITION. The cut of a joint and what follows it: the configuration and the instances at the cut, triggers, access rules, the
cut record, islands, digests and the plumb check (R71, R99, R100, R205, R260, R261, R302, R303, R307, R341 to R348, R426, R427,
R439). -/

namespace Sys2Proof.Machine

open Sys2Proof

/-! ## Versions (R336) -/

/-- Keys of the objects of an instance that a configuration lists. -/
def instKeys (c : Cfg) (i : Nat) : List Nat := ((c.vals.map (·.1)) ++ c.octs.map (·.1)).filter (fun k => k / 256 == 0x8000 + i)

/-- Every object that a cut writes takes its epoch as version, and so does every partition whose content it writes. -/
def stampVersions (c0 c1 : Cfg) (e : Nat) (recs : List JRec) (ps : List Nat) : Cfg :=
  let keys := recs.flatMap (fun r =>
    if r.kind = 1 then (if writesInst r 0x73 then recKey r :: instKeys c0 (recInst r) else [recKey r]) else [])
  { c1 with vers := keys.foldl (fun m k => mput m k e) c1.vers, partVers := ps.foldl (fun m p => mput m p e) c1.partVers }

/-! ## Instances at the cut (R71, R98 to R100, R302, R303, R307) -/

/-- Instances that a cut concerns: those listed and those assigned by it. -/
def cutInsts (s : State) (c1 : Cfg) : List Nat :=
  (s.insts.map (·.1)) ++ (assignedIn c1).filter (fun i => (mfind s.insts i).isNone)

/-- The token entries of a released instance count for none (R303). -/
def orphanTokens (s : State) (i : Nat) : State :=
  { s with keys := { s.keys with cache := s.keys.cache.map (fun e => match e.2.body with
      | .token k => (e.1, if k.inst = i then { e.2 with body := .token { k with inst := 4096 } } else e.2)
      | _ => e) } }

/-- Slots removed by a lower InlineSlots: one that is IDLE or DONE is unbacked at once, its held read answered; a PENDING one runs to
its end. -/
def removeSlots (s : State) (i n : Nat) : State :=
  let gone := (getInst s i).slots.filter (fun e => decide (n ≤ e.1))
  each gone s (fun s e =>
    if e.2.st = .pending then modInst s i (fun x => { x with leaving := x.leaving.filter (· != e.1) ++ [e.1] })
    else modInst (answerHeld s e.2.held idleLine) i (fun x => setSlot x e.1 {}))

/-- An instance that stays assigned. -/
def keptInst (s : State) (c0 c1 : Cfg) (i : Nat) : State :=
  let s := if instLd c0 i ≠ instLd c1 i ∨ instArea c0 i ≠ instArea c1 i then answerIdle s i else s
  let s := if inlineSlots c1 i < inlineSlots c0 i then removeSlots s i (inlineSlots c1 i) else s
  let n := inlineSlots c1 i
  modInst s i (fun x =>
    let x := { x with leaving := x.leaving.filter (fun k => decide (n ≤ k)) }
    let x := if ringEntries c0 i = ringEntries c1 i then x else { x with s := 0, h := 0, ring := [] }
    let x := if stagingPages c1 i < stagingPages c0 i then { x with staging := x.staging.filter (fun a => decide (a.1 < 4096 * stagingPages c1 i)) }
      else x
    refilled c1 i s.now x)

/-- One instance at a cut: released, assigned, kept; buckets were refilled at the old values. -/
def cutInst (s : State) (c0 c1 : Cfg) (i : Nat) : State :=
  let x := getInst s i
  if instTenant c1 i = 0xFFFF then
    -- a live offer ends only by a restore, its time or a loss of power (R316)
    (if x.st = 0 then s else setInst (orphanTokens (answerIdle s i) i) i { offer := x.offer })
  else if x.st = 0 then
    modInst s i (fun x => { x with
      st := 1, sub := Int.ofNat (submitBurst c1 i * 10 ^ 9), core := Int.ofNat (coreBurst c1 i * 10 ^ 6), bucketT := s.now })
  else keptInst s c0 c1 i

/-- Buckets of instances and of the event recorder refilled at the values that end with the cut (R307, R437). -/
def refillAll (s : State) : State :=
  let s := each ((s.insts.filter (fun e => e.2.st != 0)).map (·.1)) s refill
  { s with evr := { s.evr with buckets := s.evr.buckets.map (fun e => (e.1, evrBucket s e.1)) } }

/-- A bucket whose rate or burst the cut changes keeps its level, one never used its old burst (R437). -/
def holdBuckets (s : State) (c0 : Cfg) : State :=
  let unused := limitedCodes.filter (fun c => evrRate c0 c != evrRate s.ctl.cfg c && (mfind s.evr.buckets c).isNone)
  { s with evr := { s.evr with
      buckets := unused.foldl (fun m c => mput m c { level := (evrRate c0 c).2 * 10 ^ 9, t := s.now, lost := 0, src := 0 }) s.evr.buckets } }

/-! ## Random settings (R261) -/

/-- The cutoffs of the window that each channel fills stay those under which it began. -/
def holdCutoffs (s : State) (c0 : Cfg) : State :=
  let old := (setting c0 0x3000 0x11 41, setting c0 0x3000 0x12 800)
  if old = (rctCutoff s, aptCutoff s) then s
  else each (upTo 8) s (fun s n => modChan s n (fun x => { x with held := some (x.held.getD old) }))

/-- A cut's health cutoffs, reseed values, channel minimum and failure limit take effect (R256, R261). -/
def randomSettings (s : State) (c0 : Cfg) : State :=
  let s := failuresAlarm (holdCutoffs s c0)
  let old := setting c0 0x3000 0x16 (2 ^ 24)
  let s := each (upTo 28) s (fun s b =>
    if (drbgOf s b).inst then askReseed s b (decide ((drbgOf s b).calls < old)) else s)
  if setting c0 0x3000 0x17 4 = minHealthy s then s else restartConditioner (checkConditioner s)

/-! ## Access rules (R300, R420, R427) -/

/-- The shadow bank becomes active; accesses checked before remain until DRAIN falls. -/
def switchRules (s : State) : State :=
  { s with acu := { s.acu with active := rulesFor s s.ctl.cfg, shadow := s.acu.active, epoch := (s.acu.epoch + 1) % 2 ^ 32, drain := true } }

/-! ## Logs reset by custodians (R155, R293, R344) -/

/-- JournalReset: the keys that the rejection left without a trustworthy ceiling are LOST for good, as the key log then says of their
slots, and a fresh snapshot is written. -/
def resetJournal (s : State) : State :=
  let lost := s.keys.slots.filterMap (fun e => match e.2.key with
    | some k => if (k.guard.map (·.lost)).getD false then some ({ handle := e.1, gen := e.2.gen, key := some k } : KeyLogRec) else none
    | none => none)
  let s := { s with keys := { s.keys with journal := { s.keys.journal with rejected := false } } }
  if s.life.debug then s
  else snapshotJournal { s with keys := { s.keys with log := { s.keys.log with queue := s.keys.log.queue ++ lost } } }

/-- KeyLogReset: a new, empty log, no BACKED entry. -/
def resetKeyLog (s : State) : State :=
  let s := { s with keys := { s.keys with log := { s.keys.log with rejected := false } } }
  if s.life.debug then s else newKeyLog { s with vault := { s.vault with backed := [] } }

/-- ConfigLogReset: a new log with a snapshot of the configuration in force; in DEBUG volatile copies alone change (R358). -/
def resetCfgLog (s : State) : State :=
  let s := { s with ctl := { s.ctl with cfgRejected := false } }
  if s.life.debug then s else freshCfgLog s

/-! ## Heads (R442, R450) -/

/-- A start has ended its step 1 and goes on, or waits in recovery or for an Envelope. -/
def linkAlive (s : State) : Bool :=
  s.power.pwrGood && !s.power.resetLow && decide (2 ≤ s.power.step) && s.power.stop != .rom && s.power.stop != .scrapped

/-- Heads of the split in force that are down and whose PERST_N is deasserted begin training (R450). -/
def trainHeads (s : State) : State :=
  each (upTo (headsNow s)) s (fun s h =>
    if (getHead s h).perst ∨ (getHead s h).st ≠ 0 then s else modHead s h (fun x => { x with st := 1 }))

/-- Where every PERST_N in use is asserted, the HeadSplit of the configuration is applied, and heads that come into use train (R297,
R442). -/
def applySplit (s : State) : State :=
  if (upTo (headsNow s)).all (fun h => (getHead s h).perst) then
    let s := { s with link := { s.link with split := setting s.ctl.cfg 0x9000 1 0 } }
    if linkAlive s then trainHeads s else s
  else s

/-! ## Other triggers -/

/-- RawCaptureChannel (R260): the channel captured before rejoins through a start-up test. -/
def writeCapture (s : State) (v : Nat) : State :=
  let back := fun (s : State) (n : Nat) => modChan s n (fun x =>
    if 3 ≤ x.failsStart then { x with st := 2 } else { x with st := 1, testing := true })
  let s := match s.random.capture with
    | some n => if n = v then s else back s n
    | none => s
  if v < 8 then
    if s.random.capture = some v then s
    else checkConditioner (modChan { s with random := { s.random with capture := some v, captured := [] } } v
      (fun x => { x with st := 3, testing := false, run := none }))
  else { s with random := { s.random with capture := none } }

/-- KatRequest (R257, R258). -/
def requestKat (s : State) (v : Nat) : State :=
  if v = 0x0100 then { s with random := { s.random with katRunning := true } }
  else if 0x0200 ≤ v ∧ v < 0x0200 + 28 then closeBay s (v - 0x0200) .kat
  else s

/-- AcuCaptureClear (R426). -/
def clearCapture (s : State) : State := { s with acu := { s.acu with cap := none, count := 0 } }

/-- EvrClear (R439): ring and tail are emptied, and the first record afterwards says so. -/
def clearEvents (s : State) (serial : Nat) : State :=
  let (oldest, head) := (evrOldest s.evr, s.evr.head)
  let s := { s with
    evr := { s.evr with ring := [], floor := s.evr.head }
    backup := { s.backup with tail := [], tailLost := 0, tailLostCode := 0, tailLostSrc := 0 } }
  record s 0x1101 srcDevice (Bytes.ofNatLE 8 serial ++ Bytes.ofNatLE 8 oldest ++ Bytes.ofNatLE 8 head)

/-- A write to an instance acts at its cut. -/
def actInst (s : State) (i sub v : Nat) : State :=
  match sub with
  | 0x70 => requestReset s i (v == 2)
  | 0x72 => writeFreeze s i v
  | 0x77 => modInst s i (fun x => { x with offer := some { bornT := s.now, ready := false } })
  | _ => s

/-- A write acts at its cut. -/
def act (s : State) (slot holding : Nat) (j : Joint) (r : JRec) : State :=
  let index := r.index.toNat
  let sub := r.sub.toNat
  let v := recValue r
  if isInstIndex index then actInst s (recInst r) sub v
  else if 0x2600 ≤ index ∧ index ≤ 0x260D ∧ sub = 1 then requestTest s (index - 0x2600)
  else match index, sub with
  | 0x1181, 4 => clearCapture s
  | 0x1F00, 4 => resetCfgLog s
  | 0x2800, 0x20 => alarmAck s holding j.serial
  | 0x3004, 1 => requestKat s v
  | 0x3005, 1 => writeCapture s v
  | 0x4004, 3 => { s with power := { s.power with shutdown := 1 } }
  | 0x6020, 9 => resetJournal s
  | 0x6021, 3 => resetKeyLog s
  | 0x9000, 1 => applySplit s
  | 0xA000, 2 => startTransition s v j.serial
  | 0xA001, 1 => startChallenge s v
  | 0xA001, 3 => enterDebug s slot (responseScope r.data) j.chalNonce
  | 0xB000, 1 => stageManifest s r.data
  | 0xB000, 2 => setSource s r.data
  | 0xB000, 5 => if v = 0 then s else commitActivation s v
  | 0xC000, 5 => clearEvents s j.serial
  | 0xD000, 6 => openWindow s
  | _, _ => s

/-- The writes that act at a cut, in staging order. -/
def actingWrites (j : Joint) : List JRec := (lastWrites j.recs).filter (fun r => r.kind == 1)

/-! ## The cut (R341) -/

/-- A save or a restore of a joint at its cut; `before` is the state before the cut, and the items of the joint up to its first save
stand in the keys that the blob holds. -/
def moveCut (before : State) (items : List ItemOut) (quorum : Bool) (s : State) (r : JRec) : State :=
  if writesInst r 0x74 then saveCut (trial before (items.takeWhile (fun it => !it.moved))) s (recInst r) r.data
  else if writesInst r 0x76 then
    (match openRestore before (recInst r) quorum r.data with
    | .ok (q, k) => restoreCut s (recInst r) q k
    | .error _ => s)
  else s

/-- The configuration, the routes, the instances and the keys as the cut leaves them; none where routes or shelf have no room. -/
def cutState (b : State) (j : Joint) (items : List ItemOut) : Option State :=
  let c0 := b.ctl.cfg
  let recs := resolved b j.quorum j.recs
  let ps := touchedParts j.recs
  let e := b.ctl.epoch + 1
  let c1 := stampVersions c0 (produce c0 recs) e (j.recs ++ recs) ps
  match routesAt b.routes c0 c1 e j.recs with
  | none => none
  | some (routes, blocks, arrays) =>
    let s := advanceEpoch (refillAll b)
    let returns := if blocks = [] ∧ arrays = [] then routes.returns
      else routes.returns ++ [{ cutT := s.now, blocks := blocks, arrays := arrays }]
    let s := writeRoutes { s with ctl := { s.ctl with cfg := c1 } } { routes with returns := returns }
    let s := each (cutInsts s c1) s (fun s i => cutInst s c0 c1 i)
    let s := randomSettings (holdBuckets s c0) c0
    (applyItems s e items).map (fun s =>
      freeShelf (bumpBy (each (actingWrites j) s (moveCut b items j.quorum)) (odKey 0x6002 4) (j.recs.filter (fun r => r.kind == 3)).length))

/-- The cut record stands in the ring (R343); none is written in DEBUG (R358). -/
def ringCut (s : State) (serial : Nat) : State :=
  if s.life.debug then s
  else { s with ctl := { s.ctl with cutRing := s.ctl.cutRing ++ [{ epoch := s.ctl.epoch, serial := serial }] } }

/-- The commit reply: at once, or once the rules have drained. -/
def commitReply (s : State) (b : State) (h : KHdr) : State :=
  let at' := s.ctl.epoch
  if aclOf s.ctl.cfg ≠ aclOf b.ctl.cfg ∨ s.life.debug ≠ b.life.debug then
    let s := switchRules s
    { s with acu := { s.acu with waiting := s.acu.waiting ++ [(h, at', s.now)] } }
  else kReply s h 0x15 0 (Bytes.ofNatLE 8 at' ++ Bytes.ofNatLE 8 s.now)

/-- The joint as it ends at its cut. -/
def endJoint (s : State) (slot : Nat) (durable : Bool) : State :=
  modJoint (closeJoint (answerSigns s (getJoint s slot)) slot 2 0) slot (fun j => { j with cutEpoch := s.ctl.epoch, cutT := s.now, durable := durable })

/-- The cut of a joint whose checks have passed: state, record in the ring, triggers, commit record, reply. -/
def cutJoint (b s : State) (slot holding : Nat) (j : Joint) (h : KHdr) : State :=
  let s := ringCut s j.serial
  let s := each (actingWrites j) s (fun s r => act s slot holding j r)
  let s := commitRecord s slot 0 s.ctl.epoch
  tryBegin (commitReply (endJoint s slot b.life.debug) b h)

/-- What the cut of the joint whose commit began first waits for. -/
def mayCut (s : State) (slot : Nat) : Bool :=
  let j := getJoint s slot
  s.ctl.commits.head? == some slot && (s.life.debug || (j.prep == .durable && decide (s.ctl.cutRing.length < 24)))
    && islandsTaken s && !s.acu.drain && (s.routes.returns.isEmpty || (touchedParts j.recs).isEmpty) && !cutForbidden s
    && s.power.pwrGood && s.power.step == 12 && s.power.shutdown != 2

/-- JOINT_CUT: steps 3 and 4 are taken again, then the cut, once the journal stage has room for the records it posts (log entry 203). -/
def jointCuts (s : State) (slot holding : Nat) : State :=
  let j := getJoint s slot
  match j.commit with
  | some h =>
    if mayCut s slot = false then s
    else match jointBad s slot with
    | some key => failCommit (jointMismatch s key) slot 0x0801 none
    | none =>
      let p := commitPass s j
      if p.bad ≠ 0 then failCommit p.s slot p.bad p.refused
      else if stageRoom p.s (itemPosts p.items) = false then s
      else match cutState p.s j p.items with
        | none => failCommit p.s slot 0x0602 none
        | some s => cutJoint p.s s slot holding j h
  | none => s

/-! ## Islands and the backup domain (R341) -/

/-- An island holds the epoch in force. -/
def islandSwitches (s : State) (k : Nat) : State :=
  if k = 4 ∨ s.power.pwrGood = false then s
  else { s with ctl := { s.ctl with islandEpoch := mput s.ctl.islandEpoch k s.ctl.epoch } }

/-- The backup domain has applied the objects of its scope. -/
def backupApplies (s : State) : State :=
  if s.ctl.backupPending ∧ s.power.pwrGood then
    { s with ctl := { s.ctl with backupCfg := s.ctl.cfg, backupPending := false
                                 islandEpoch := mput s.ctl.islandEpoch 4 s.ctl.epoch } }
  else s

/-! ## Cut records and digests (R343, R346) -/

/-- The oldest cut record of the ring stands in the log. -/
def cutDurable (s : State) : State :=
  match s.ctl.cutRing with
  | r :: rest =>
    if s.power.pwrGood = false ∨ s.fw.replacing = some 1 then s
    else
      let s := appendCfgLog { s with ctl := { s.ctl with cutRing := rest } } (.cut r.epoch r.serial)
      each (s.ctl.joints.filter (fun e => e.2.serial == r.serial && e.2.st == 2)) s (fun s e =>
        modJoint s e.1 (fun j => { j with durable := true }))
  | [] => s

/-- Digests of the epoch in force published. -/
def digestPublish (s : State) : State :=
  if s.power.pwrGood = false ∨ s.power.step ≠ 12 then s
  else { s with ctl := { s.ctl with digest := configDigest s s.ctl.cfg, localDigest := localDigest s s.ctl.cfg, digestEpoch := s.ctl.epoch } }

/-! ## The plumb check (R347, R348) -/

/-- Epoch and digest that island k reports. -/
def islandReport (s : State) (k : Nat) : Nat × Bytes :=
  let e := mget 0 s.ctl.islandEpoch k
  if k = 4 then (e, islandDigest s s.ctl.backupCfg 4)
  else (e, islandDigest s (if e = s.ctl.epoch then s.ctl.cfg else s.ctl.prevCfg) k)

/-- Island k holds what the control island expects of it. -/
def islandOk (s : State) (k : Nat) : Bool :=
  let (ek, dk) := islandReport s k
  let e := s.ctl.epoch
  if k = 4 then
    (ek == e && dk == islandDigest s s.ctl.cfg 4)
      || (s.ctl.backupPending && decide (s.now < s.ctl.cutT + 1000000) && dk == islandDigest s s.ctl.backupCfg 4)
  else
    (ek == e && dk == islandDigest s s.ctl.cfg k)
      || (ek + 1 == e && dk == islandDigest s s.ctl.prevCfg k && decide (s.now < s.ctl.cutT + 20000))

/-- One island's part of a run. -/
def plumbIsland (s : State) (k : Nat) : State :=
  let fail := bitOf s.ctl.sweepFail k
  if islandOk s k && !fail then s
  else
    let (ek, dk) := islandReport s k
    let s := { s with alarm := { s.alarm with plumbBad := true } }
    raiseMonitor (bump s (odKey 0x1F02 3)) 12
      (detail k ++ Bytes.ofNatLE 1 k ++ Bytes.ofNatLE 8 ek ++ dk.take 8 ++ Bytes.ofNatLE 1 (bit fail))

/-- A run of the plumb check; suspended while the custody controller is replaced. -/
def plumb (s : State) : State :=
  if s.fw.replacing = some 1 ∨ armed s 12 = false then s
  else
    let s := { s with alarm := { s.alarm with plumbBad := false } }
    bump (each ((upTo 32).map (· + 1)) s plumbIsland) (odKey 0x1F02 2)

/-- A sweep of an island ends: a section differs from its kept digest, or none does. -/
def sweepEnds (s : State) (k : Nat) (bad : Bool) : State :=
  if s.power.pwrGood = false then s else { s with ctl := { s.ctl with sweepFail := putBit s.ctl.sweepFail k bad } }

/-! ## Meanings -/

/-- JOINT_CUT (R340, R341). -/
def execJointCut (t : Nat) (slot : BitVec 6) (holding : BitVec 14) (s : State) : Result :=
  .next (settle (clocked (at_ s t) [islControl, islHub] (fun s => jointCuts s slot.toNat holding.toNat)))

/-- ISLAND_EPOCH_SWITCH (R341). -/
def execIslandEpochSwitch (t : Nat) (island : Fin 33) (s : State) : Result :=
  .next (crossing (at_ s t) [islControl] [island.val] (.islandEpochSwitch t island) (fun s => islandSwitches s island.val))

/-- BACKUP_OBJECTS_APPLIED (R341). -/
def execBackupObjectsApplied (t : Nat) (s : State) : Result := .next (clocked (at_ s t) [islControl] backupApplies)

/-- CUT_RECORD_DURABLE (R343). -/
def execCutRecordDurable (t : Nat) (s : State) : Result := .next (clocked (at_ s t) [islControl] cutDurable)

/-- DIGEST_PUBLISHED (R346). -/
def execDigestPublished (t : Nat) (s : State) : Result := .next (clocked (at_ s t) [islControl] digestPublish)

/-- PLUMB_RUN (R348). -/
def execPlumbRun (t : Nat) (s : State) : Result := .next (settle (clocked (at_ s t) [islControl] plumb))

/-- ISLAND_SWEEP (R347). -/
def execIslandSweep (t : Nat) (island : Fin 33) (mismatch : Bool) (s : State) : Result := .next (clocked (at_ s t) [island.val] (fun s => sweepEnds s island.val mismatch))

end Sys2Proof.Machine
end

