-- ==== Sys2Proof/Machine/AccessControl.lean ====
section
/-! DEFINITION. The access-control unit beyond LD accesses to bound areas: the debug master, accesses that no binding meets, the end of
a rule switch (R22, R236, R418 to R430, R483). -/

namespace Sys2Proof.Machine

open Sys2Proof

/-! ## What stands at an address (R418) -/

/-- Bay and offset of an address in a bay region. -/
def bayAt (addr : Nat) : Option (Nat × Nat) :=
  if holdsAddr rgBays addr then some ((addr - rgBays.1) / 0x1000000, addr % 0x1000000) else none

/-- Bay, engine and byte of its memory at an address. -/
def engineAt (addr : Nat) : Option (Nat × Nat × Nat) :=
  match bayAt addr with
  | some (b, off) => if off < engineCount b * engineBytes b then some (b, off / engineBytes b, off % engineBytes b) else none
  | none => none

/-- BNC and byte of its operand memory at an address. -/
def operandAt (addr : Nat) : Option (Nat × Nat × Nat) := (engineAt addr).filter (fun e => isBncBay e.1)

/-- A byte of an engine's memory: of a BNC its three areas (R216), of the others their buffer. -/
def engineByte (s : State) (b k off : Nat) : Byte :=
  let m := mget {} (getBay s b).mem k
  if isBncBay b then
    (if off < 0x2000 then areaRead m.key off else if off < 0x7000 then areaRead m.work (off - 0x2000) else areaRead m.io (off - 0x7000))
  else areaRead m.io off

/-- Program memory and byte at an address. -/
def storeAt (addr : Nat) : Option (Nat × Nat) :=
  if holdsAddr rgCc addr then some (64, addr - rgCc.1)
  else if holdsAddr rgSram addr then some (66, addr - rgSram.1)
  else if holdsAddr rgManager addr then some (65, addr - rgManager.1)
  else match bayAt addr with
    | some (b, _) =>
      if holdsAddr (rgSequencer b) addr then some (2 * b, addr - (rgSequencer b).1)
      else if holdsAddr (rgMicrocode b) addr then some (2 * b + 1, addr - (rgMicrocode b).1)
      else none
    | none => none

/-- A store of microcode: nothing but a load and the debug master writes it. -/
def isMicrocode (n : Nat) : Bool := decide (n < 56) && n % 2 == 1

/-- A byte of a program memory: what the debug master has written there since its image was loaded, else its content, which of all but
microcode the running program may change at any moment (log entry 220). -/
def storeRead (s : State) (n off : Nat) : Byte :=
  let m := mget {} s.stores n
  (mfind m.written off).getD (if isMicrocode n then Config.areaByte m.id off else Config.storeByte m.id off s.now)

/-- Bytes written over a program memory; the command does not say which, so they are free values (log entry 220). -/
def storeWrite (s : State) (n off len : Nat) : State :=
  let (d, s) := freeBytes s len
  let m := mget {} s.stores n
  { s with stores := mput s.stores n { m with written := d.zipIdx.foldl (fun o e => mput o (off + e.2) e.1) m.written } }

/-- An operand memory is owned by a tenant. -/
def tenantOwns (s : State) (b k : Nat) : Bool := match (mget {} (getBay s b).mem k).owner with
  | .tenant _ => true
  | _ => false

/-! ## The debug master (R422, R429, R430) -/

/-- Regions locked against the debug master. -/
def locked (s : State) (addr : Nat) : Bool :=
  [rgVault, rgCounters, rgSlots, rgTokens, rgDeriv].any (fun g => holdsAddr g addr)
    || (match operandAt addr with
      | some (b, k, _) => tenantOwns s b k
      | none => false)

/-- The rule that denies a part of a debug access, if any does: the hard lock, then rules as for any master but an LD. -/
def debugDenied (s : State) (isRead : Bool) (addr : Nat) : Option Nat :=
  if locked s addr then some 0x102 else ruleDenied s debugMaster 0 addr isRead

/-- A byte of the access-control registers (R419, R425). -/
def acuByte (s : State) (off : Nat) : Byte :=
  let a := s.acu
  if off < 0x1000 then
    let n := off / 16
    Bytes.at' (Bytes.ofNatLE 16 (mget 0 a.active n)) (off % 16)
  else
    Bytes.at' (Bytes.ofNatLE 4 (bit a.drain * 2 ^ 31) ++ Bytes.ofNatLE 4 a.epoch ++ Bytes.ofNatLE 4 a.count ++ Bytes.zeros 4
      ++ captureBytes a.cap) (off - 0x1000)

/-- A byte that the state holds at an internal address; none where the manual leaves the content open. -/
def debugByte (s : State) (addr : Nat) : Option Byte :=
  if holdsAddr rgTail addr then
    some (Bytes.at' (((tailRecords s.backup)[(addr - rgTail.1) / 32]?.map recBytes).getD []) (addr % 32))
  else if holdsAddr rgEvents addr then
    (s.evr.ring.find? (fun e => e.seq % 65536 == (addr - rgEvents.1) / 32)).map (fun e => Bytes.at' (recBytes e) (addr % 32))
  else if holdsAddr (rgLink.1, 0x1020) addr then some (acuByte s (addr - rgLink.1))
  else if holdsAddr rgCapture addr then s.random.captured[addr - rgCapture.1]?
  else if holdsAddr rgRom addr then some (Config.romByte (addr - rgRom.1))
  else match engineAt addr, storeAt addr with
    | some (b, k, off), _ => some (engineByte s b k off)
    | none, some (n, off) => some (storeRead s n off)
    | none, none => none

/-- Bytes of a permitted read: those that the state holds, and free values for the rest. -/
def debugData (addr : Nat) : Nat → State → Bytes × State
  | 0, s => ([], s)
  | n + 1, s =>
    let (b, s) := match debugByte s addr with
      | some b => (b, s)
      | none => (Config.freeByte s.free, { s with free := s.free + 1 })
    let (rest, s) := debugData (addr + 1) n s
    (b :: rest, s)

/-- One part of an access, within a page: its data and whether it was denied. -/
def debugPart (s : State) (isRead : Bool) (addr len : Nat) : Bytes × Bool × State :=
  match debugDenied s isRead addr with
  | some r => (List.replicate len 0x5A, true, violation s r debugMaster len addr isRead)
  | none =>
    if isRead then
      let (d, s) := debugData addr len s
      (d, false, s)
    else match storeAt addr with
      | some (n, off) => ([], false, storeWrite s n off len)
      | none => ([], false, s)

/-- The TAP obeys its pins: in DEBUG with TAP in the scope. At all other times it is held in Test-Logic-Reset, with TDO high impedance
(R430, R483). -/
def tapOpen (s : State) : Bool := s.life.debug && bitOf s.life.scope 0 && s.power.pwrGood

/-- A debug access, split at the 4 KiB boundary that it may cross; a stopped clock on its way holds its words (R22). Where the TAP is
closed there is none. -/
def debugAccess (s : State) (c : Instr) (isRead : Bool) (addr len : Nat) : State :=
  if tapOpen s = false ∨ len = 0 ∨ 1024 < len then s
  else if portRuns s = false then stall s c
  else
    let n := min len (4096 - addr % 4096)
    let (d1, x1, s) := debugPart s isRead addr n
    let (d2, x2, s) := if n < len then debugPart s isRead (addr + n) (len - n) else ([], false, s)
    if isRead then emit { s with acu := { s.acu with tapDenied := x1 || x2 } } (.debugRead addr (d1 ++ d2) (x1 || x2)) else s

/-! ## Accesses that no binding meets (R300, R362, R422) -/

/-- An access to an area index of an LD that has no instance bound there: as unbacked before a start is complete; unclaimed where no
decoder is committed; else denied at the binding step, first for an IDE stream that its head lacks (R460; log entry 140). -/
def unboundAccess (s : State) (c : Instr) (ld dpa : Nat) (isRead : Bool) (tag : Nat) : State :=
  if portRuns s = false then stall s c
  else if headUp s (ld / 16) = false then s
  else if serving s = false then (if isRead then answerPoison s ld tag else answerDone s ld tag)
  else if (assignedIn s.ctl.cfg).any (fun i => instLd s.ctl.cfg i == ld && instArea s.ctl.cfg i == dpa / 0x80000) then s
  else if decoded s ld = false then unclaimed s isRead ld tag
  else deny s (if ideLacking s ld then 0x100 else 0x103) ld (dpa / 64 * 64) isRead tag

/-! ## The end of a switch (R427, R428) -/

/-- A held read that was checked under the rules before the switch. -/
def oldReadHeld (s : State) : Bool :=
  s.insts.any (fun e => e.2.slots.any (fun sl => sl.2.held.any (fun r => r.parity != s.acu.epoch % 2)))

/-- An answer to an LD's read stands in a channel to the link island. -/
def readUnderWay (s : State) : Bool :=
  match s.link.outMark with
  | some n => (s.outbox.drop n).any (fun o => match o with
    | .read _ _ _ _ => true
    | _ => false)
  | none => false

/-- Accesses of the old parity remain. -/
def oldAccess (s : State) : Bool := oldReadHeld s || readUnderWay s

/-- No access of the old epoch remains: DRAIN falls, the shadow bank is loaded from the active one, and for the cut of the next joint from
what that alters; the commit replies that waited are sent. -/
def drainEnds (s : State) : State :=
  if s.acu.drain = false ∨ oldAccess s then s
  else
    let waiting := s.acu.waiting
    let s := { s with acu := { s.acu with drain := false, shadow := s.acu.active, waiting := [] } }
    let s := match s.ctl.commits with
      | slot :: _ => prepareRules s (getJoint s slot)
      | [] => s
    each waiting s (fun s w => kReply s w.1 0x15 0 (Bytes.ofNatLE 8 w.2.1 ++ Bytes.ofNatLE 8 w.2.2))

/-! ## Meanings -/

/-- DEBUG_ACCESS (R422 to R430). -/
def execDebugAccess (t : Nat) (isRead : Bool) (addr : BitVec 40) (len : BitVec 11) (s : State) : Result :=
  .next (debugAccess (at_ s t) (.debugAccess t isRead addr len) isRead addr.toNat len.toNat)

/-- UNBOUND_AREA_ACCESS (R300, R422, R424). -/
def execUnboundAreaAccess (t : Nat) (ld : LdNo) (dpa : BitVec 27) (isRead : Bool) (tag : BitVec 16) (s : State) : Result :=
  .next (unboundAccess (at_ s t) (.unboundAreaAccess t ld dpa isRead tag) ld.toNat dpa.toNat isRead tag.toNat)

/-- ACU_DRAIN_END (R427, R428). -/
def execAcuDrainEnd (t : Nat) (s : State) : Result := .next (drainEnds (at_ s t))

end Sys2Proof.Machine
end

