-- ==== Sys2Proof/Machine/Logs.lean ====
section
/-! DEFINITION. What runs beside the commands: device frames, flushes of the journal and of the key log, the return of route copies,
seconds of the event recorder, the end of an orderly shutdown (R46, R57, R65, R151 to R153, R202, R289, R291, R355, R437, R448). -/

namespace Sys2Proof.Machine

open Sys2Proof

/-! ## Device frames (R46) -/

/-- An ended frame's entry of a bay describes a future frame: empty, and CLOSED in a bay that is closing or out. -/
def clearFrame (s : State) (frame : Nat) : State :=
  let s := each (upTo 28) s (fun s b => setBook s b frame (if (getBay s b).st = 0 then 0 else 65536))
  each (upTo 8) s (fun s k => setDma s k frame 0)

/-- DevLoad of a frame joins the history of each head (R462). -/
def noteLoad (s : State) (frame : Nat) : State :=
  each (upTo 4) s (fun s h => modHead s h (fun x => { x with load := (devLoad s h frame :: x.load).take 1024 }))

/-- A frame ends: the bay frames that end with it, its load, and its entries, which describe a future frame from now on. -/
def frameEnds (s : State) (f : Nat) : State := clearFrame (noteLoad (each (upTo 28) s (fun s b => deviceFrame s f b)) f) f

/-- Every frame that has ended by now ends in order, of a longer gap the last 10,240, which are all the entries there are; then tests
that are due are booked (R62). -/
def framesEnd (s : State) : State :=
  let n := s.now / 2000
  let k := min 10240 (n - s.sched.frameEnded)
  let s := each ((upTo k).map (n - k + ·)) s frameEnds
  each (upTo 28) { s with sched := { s.sched with frameEnded := max n s.sched.frameEnded } } bookTests

/-! ## The usage journal (R151 to R153) -/

/-- A flush begins over the records that stand durable in the stage, up to 252; none is made in DEBUG (R155, R294), nor while the journal
is rejected, whose epoch it would put above that of what was lost (log entry 257). -/
def beginFlush (s : State) : State :=
  let j := s.keys.journal
  let rs := ((j.stage.filter (·.durable)).take 252).map (·.r)
  if rs = [] ∨ j.flushing.isSome ∨ j.backoff ∨ j.rejected ∨ serving s = false ∨ s.life.debug then s
  else
    let seg : JourSeg := { under := s.vault.rootCheck, epoch := s.vault.journalEpoch + 1, time := s.now, snapshot := false, last := false
                           recs := rs }
    { s with keys := { s.keys with journal := { j with flushing := some seg, tries := 0 } } }

/-- Segments used until a snapshot is written in the other half (R153). -/
def journalFull : Nat := 1007

/-- At 1,007 used segments the controller writes a snapshot; a flush in progress goes on behind it (R153). -/
def snapshotDue (s : State) : State :=
  if segmentsUsed s.keys.journal < journalFull then s
  else
    let s := snapshotJournal s
    let j := s.keys.journal
    { s with keys := { s.keys with journal := { j with flushing := j.flushing.map (fun g => { g with epoch := s.vault.journalEpoch + 1 }) } } }

/-- A segment has failed: the next free one is tried, up to three times, and each retry is recorded, with the number of that segment
(R151; log entry 205). What follows the last failure is `rest`. -/
def retrySegment (s : State) (tries segment : Nat) (again rest : State → State) : State :=
  let s := flashFailed s
  if tries < 3 then record (again s) 0x5103 (src 2 0) (Bytes.ofNatLE 4 segment ++ Bytes.ofNatLE 1 (tries + 1)) else rest s

/-- A flush ends: read back and checked, or failed. A segment that fails its check stays in use with no valid epoch. -/
def flushDone (s : State) (ok : Bool) : State :=
  let j := s.keys.journal
  match j.flushing with
  | none => s
  | some seg =>
    if s.power.pwrGood = false then s
    else if ok then
      let j := { putSegment j seg with flushing := none, tries := 0, stage := j.stage.filter (fun x => !(x.durable && seg.recs.contains x.r)) }
      let s := { s with vault := { s.vault with journalEpoch := seg.epoch }, keys := { s.keys with journal := j } }
      snapshotDue (bump s (odKey 0x6020 5))
    else
      let j' := putSegment j badJourSeg
      let put := fun (j : Journal) (s : State) => ({ s with keys := { s.keys with journal := j } } : State)
      snapshotDue (retrySegment s j.tries (segmentsUsed j' + 2048 * bit j.activeB) (put { j' with tries := j.tries + 1 })
        (put { j' with flushing := none, tries := 0, backoff := true }))

/-- After 100 ms the controller tries again. -/
def flushRetry (s : State) : State :=
  if s.keys.journal.backoff ∧ s.power.pwrGood then
    beginFlush { s with keys := { s.keys with journal := { s.keys.journal with backoff := false } } }
  else s

/-! ## The key log (R289, R291) -/

/-- The log compacted at 1,200 used segments: the key store as it stands, in the idle half (R291). -/
def compactKeys (s : State) : State := if keySegsUsed s.keys.log < 1200 then s else snapshotKeys s

/-- The controller may write the key log: it is not being replaced, no back-off runs, DEBUG is not in effect (R151, R294, R356). -/
def keyLogWrites (s : State) : Bool :=
  s.keys.log.queue != [] && s.fw.replacing != some 1 && s.power.pwrGood && !s.life.debug && decide (s.keys.log.hold ≤ s.now)

/-- An entry of the pending list that a record answers. -/
def answersPending (r : KeyLogRec) (e : Nat × Nat) : Bool := pendingWord r.handle r.key.isNone == e.1 && r.gen == e.2

/-- The waiting records stand durable: their pending entries go. After a failure they wait, and after the last retry 100 ms (R151). -/
def keyLogDone (s : State) (ok : Bool) : State :=
  let l := s.keys.log
  if keyLogWrites s = false then s
  else if ok then
    let segs := keySegs s false l.queue
    compactKeys { s with
      vault := { s.vault with keyLogEpoch := s.vault.keyLogEpoch + segs.length
                              pending := s.vault.pending.filter (fun e => !l.queue.any (fun r => answersPending r e)) }
      keys := { s.keys with log := { putKeySegs l segs with queue := [], tries := 0, hold := 0 } } }
  else
    let l' := putKeySegs l [badKeySeg]
    let put := fun (l : KeyLog) (s : State) => ({ s with keys := { s.keys with log := l } } : State)
    compactKeys (retrySegment s l.tries (keySegsUsed l' + 1536 * bit l.activeB) (put { l' with tries := l.tries + 1 })
      (put { l' with tries := 0, hold := s.now + 10 ^ 8 }))

/-! ## Orderly shutdown (R355) -/

/-- No admitted operation is left. -/
def noAdmitted (s : State) : Bool :=
  s.insts.all (fun e => e.2.ops.all (fun o => o.stage == .covered) && e.2.slots.all (fun sl => sl.2.op.isNone))

/-- Everything is flushed. -/
def allFlushed (s : State) : Bool :=
  (s.keys.journal.stage.isEmpty || s.keys.journal.rejected) && s.keys.journal.flushing.isNone && s.vault.pending.isEmpty && s.keys.log.queue.isEmpty
    && s.ctl.cutRing.isEmpty

/-- Once the last admitted operation has ended, no commit is under way and everything is flushed, the device is ready (R355; a commit
that has begun is still cut: log entry 203). -/
def shutdownDone (s : State) : State :=
  if s.power.shutdown = 1 ∧ noAdmitted s ∧ s.ctl.commits.isEmpty ∧ allFlushed s then
    record { s with power := { s.power with shutdown := 2 } } 0x1106 srcDevice []
  else s

/-! ## Meanings -/

/-- JOURNAL_FLUSH_START (R151). -/
def execJournalFlushStart (t : Nat) (s : State) : Result := .next (clocked (at_ s t) [islControl] beginFlush)

/-- JOURNAL_FLUSH_DONE (R151, R153). -/
def execJournalFlushDone (t : Nat) (ok : Bool) (s : State) : Result := .next (clocked (at_ s t) [islControl] (fun s => flushDone s ok))

/-- JOURNAL_FLUSH_RETRY (R151). -/
def execJournalFlushRetry (t : Nat) (s : State) : Result := .next (clocked (at_ s t) [islControl] flushRetry)

/-- KEY_LOG_FLUSH_DONE (R289, R291). -/
def execKeyLogFlushDone (t : Nat) (ok : Bool) (s : State) : Result := .next (clocked (at_ s t) [islControl] (fun s => keyLogDone s ok))

/-- ROUTE_BLOCK_RETURN (R202). -/
def execRouteBlockReturn (t : Nat) (s : State) : Result := .next (clocked (at_ s t) [islHub] returnCopies)

/-- EVR_SECOND_END (R437). -/
def execEvrSecondEnd (t : Nat) (s : State) : Result := .next (clocked (at_ s t) [islControl] secondEnd)

/-- SHUTDOWN_READY (R355). -/
def execShutdownReady (t : Nat) (s : State) : Result := .next (clocked (at_ s t) [islControl] shutdownDone)

end Sys2Proof.Machine
end

