-- ==== Sys2Proof/Machine/StartUp.lean ====
section
/-! DEFINITION. Start-up step by step: vote and resumption of transitions, Envelope and vault checks, images, islands, tests, the
restore of configuration, keys and journal, and the beginning of SERVICE (R154, R155, R269, R291 to R293, R323, R344, R361 to R365,
R387, R391, R398, R401, R414, R440). -/

namespace Sys2Proof.Machine

open Sys2Proof

/-- LOG_REJECTED, with the highest valid epoch. -/
def logRejected (s : State) (log best : Nat) : State :=
  record s 0x5105 srcDevice (Bytes.ofNatLE 1 log ++ Bytes.ofNatLE 8 best)

/-! ## Configuration (R344) -/

/-- The last snapshot of a log with its epoch, and the entries after it. -/
def lastSnapshot (log : List CfgEntry) : Cfg × Nat × List CfgEntry :=
  log.foldl (fun a x => match x with
    | .snapshot c e => (c, e, [])
    | x => (a.1, a.2.1, a.2.2 ++ [x])) ({}, 0, [])

/-- Cuts by epoch, with their serials, in the log and in the ring. -/
def cutsKept (log : List CfgEntry) (ring : List CutRec) : Map Nat :=
  let inLog := log.foldl (fun (m : Map Nat) x => match x with
    | .cut e serial => mput m e serial
    | _ => m) []
  ring.foldl (fun m r => mput m r.epoch r.serial) inLog

/-- The content of the prepare record of a serial: its writes, and its route sections. -/
def preparedBy (log : List CfgEntry) (serial : Nat) : Option (List JRec × Map Part) :=
  log.findSome? (fun x => match x with
    | .prepare n recs parts => if n = serial then some (recs, parts) else none
    | _ => none)

/-- One cut applied again: its writes, and its route sections in the place of those that stood. -/
def replayCut (log : List CfgEntry) (c : Cfg) (cut : Nat × Nat) : Cfg :=
  match preparedBy log cut.2 with
  | some (recs, parts) =>
    let c1 := produce c recs
    let c1 := { c1 with parts := parts.foldl (fun m e => mset {} m e.1 e.2) c1.parts }
    stampVersions c c1 cut.1 recs (touchedParts recs ++ parts.map (·.1))
  | none => c

/-- The configuration that log and ring restore, and the epoch of the latest cut. -/
def replayCfg (log : List CfgEntry) (ring : List CutRec) : Cfg × Nat :=
  let (c0, e0, rest) := lastSnapshot log
  let cuts := (cutsKept rest ring).filter (fun e => decide (e0 < e.1))
  (cuts.foldl (replayCut rest) c0, cuts.foldl (fun m e => max m e.1) e0)

/-- Entries that the keys in force can read: none without a root. -/
def readableLog (s : State) : List CfgEntry := if s.vault.rootAbsent then [] else s.ctl.cfgLog

/-- The routing memories of a configuration. DESIGN CHOICE (log entry 244): equal arrays of a partition stand once in their stage, so that
what a partition held, an image with shared arrays too, fits again. -/
def routesOf (c : Cfg) (epoch : Nat) : Routes :=
  (c.parts.map (·.1)).foldl (fun r p => match applyPart r p epoch 0 .empty true (mget {} c.parts p) with
    | some x => x.1
    | none => r) {}

/-- A configuration put in force everywhere at an epoch. -/
def installCfg (s : State) (c : Cfg) (epoch : Nat) : State :=
  { s with
    ctl := { s.ctl with cfg := c, prevCfg := c, backupCfg := c, backupPending := false, epoch := epoch, cutT := s.now
                        islandEpoch := (upTo 33).foldl (fun m k => mput m k epoch) [] }
    routes := routesOf c epoch
    acu := { s.acu with active := rulesFor s c, shadow := rulesFor s c } }

/-- The epoch taken after cuts made in DEBUG: a cut record without content, for which a full ring first gives up its oldest. -/
def nextEpoch (s : State) : State :=
  let e := devCounter s 1 + 1
  let s := if 24 ≤ s.ctl.cutRing.length then cutDurable s else s
  setDevCounter { s with ctl := { s.ctl with cutRing := s.ctl.cutRing ++ [{ epoch := e, serial := 0 }] } } 1 e

/-- Restore of the configuration; `seen` is the highest valid epoch where the flash does not hold what the device wrote. Its random
settings take effect (R245, R256, R261). -/
def restoreCfgLog (s : State) (seen : Option Nat) : State :=
  let kept := devCounter s 51
  let best := seen.getD kept
  let c0 := s.ctl.cfg
  if epochOk kept best = false then
    let s := installCfg s {} (devCounter s 1)
    randomSettings (logRejected { s with ctl := { s.ctl with cfgRejected := true } } 3 best) c0
  else
    let s := setDevCounter s 51 best
    let (c, latest) := replayCfg (readableLog s) s.ctl.cutRing
    let s := if latest < devCounter s 1 then nextEpoch s else s
    randomSettings (installCfg s c (devCounter s 1)) c0

/-! ## The logs as flash gives them (R154, R363) -/

/-- The journal as the restore finds it: what was being programmed stands whole or is torn; the half of the highest valid epoch is the
active one. -/
def readJournal (s : State) (env : StepEnv) : State :=
  let j := s.keys.journal
  let j := match env.journalFlash with
    | some (a, b) => { j with halfA := a.map (jourSegOf s.vault.root), halfB := b.map (jourSegOf s.vault.root) }
    | none => match j.flushing with
      | some seg => putSegment j (if env.journalWhole then seg else badJourSeg)
      | none => j
  let s := { s with keys := { s.keys with journal := { j with flushing := none, tries := 0, backoff := false } } }
  let best := jourBest s
  let activeB := if best = 0 then j.activeB else (jourEpochs s j.halfB).contains best
  { s with keys := { s.keys with journal := { s.keys.journal with activeB := activeB } } }

/-- The key log as the restore finds it: of records on their way the first segment stands whole, or is torn. -/
def readKeyLog (s : State) (env : StepEnv) : State :=
  let l := s.keys.log
  let l := match env.keyLogFlash with
    | some (a, b) => { l with halfA := keySegsOf s.vault.root s.vault.keyEra [] a, halfB := keySegsOf s.vault.root s.vault.keyEra [] b }
    | none =>
      if l.queue = [] then l else putKeySegs l (if env.keyLogWhole then (keySegs s false l.queue).take 1 else [badKeySeg])
  let s := { s with keys := { s.keys with log := { l with queue := [], tries := 0, hold := 0 } } }
  let best := keyBest s
  let activeB := if best = 0 then l.activeB else (keyEpochs s l.halfB).contains best
  { s with keys := { s.keys with log := { s.keys.log with activeB := activeB } } }

/-! ## Journal (R154, R155) -/

/-- The highest ceiling of a slot's generation. -/
def ceilingOf (rs : List JourRec) (h gen : Nat) : Nat :=
  (rs.filter (fun r => r.slot == h && r.gen == gen)).foldl (fun m r => max m r.ceiling) 0

/-- A guard takes its counters: from the journal, and never below the ceiling that its image carries; LOST where the journal is not
to be trusted. -/
def restoreGuard (rs : List JourRec) (rejected : Bool) (h gen : Nat) (g : Guard) : Guard :=
  let c := max g.ceiling (ceilingOf rs h gen)
  { g with v := c, ceiling := c, lost := g.lost || rejected }

/-- Restore of the journal: rejected, or accepted with its highest valid epoch as JournalEpoch (DEDUCED, log entry 195). -/
def restoreJournal (s : State) : State :=
  let best := jourBest s
  if epochOk s.vault.journalEpoch best then { s with vault := { s.vault with journalEpoch := best } }
  else logRejected { s with keys := { s.keys with journal := { s.keys.journal with rejected := true } } } 1 best

/-! ## Keys (R269, R291 to R293) -/

/-- Slots as a log describes them. -/
def replayKeys (rs : List KeyLogRec) (epoch : Nat) : Map Slot :=
  rs.foldl (fun m r => mset {} m r.handle { gen := r.gen, wepoch := epoch % 2 ^ 32, key := r.key }) []

/-- BACKED entries whose own check fails are cleared, each with a record of its handle and generation (R269). -/
def clearBacked (s : State) (faults : List Nat) : State :=
  let bad := s.vault.backed.filter (fun e => faults.contains e.1 || e.2.check != backedCheck s e.1 e.2.gen e.2.secret)
  each bad s (fun s e =>
    record { s with vault := { s.vault with backed := mdel s.vault.backed e.1 } } 0x5101 srcDevice
      (Bytes.ofNatLE 4 e.1 ++ Bytes.ofNatLE 4 e.2.gen))

/-- A BACKED key joined with its secret; none where the vault holds none for its handle and generation. -/
def joinBacked (v : Vault) (h gen : Nat) (k : Key) : Option Key :=
  if k.backed = false then some k
  else match mfind v.backed h with
    | some e =>
      if e.gen = gen then some { k with material := (Bytes.fit 32 e.secret ++ k.material.drop 32).take (materialLen k.type) } else none
    | none => none

/-- A slot as the restore leaves it: joined, guarded; an empty one keeps its generation. -/
def restoreSlot (s : State) (rs : List JourRec) (rejected : Bool) (h : Nat) (sl : Slot) : Slot :=
  { sl with key := (sl.key.bind (joinBacked s.vault h sl.gen)).map (fun k =>
      { k with guard := k.guard.map (restoreGuard rs rejected h sl.gen) }) }

/-- A slot that the pending list empties, with the generation it names; the log is then to say so. -/
def emptyPending (s : State) (h gen : Nat) : State :=
  { s with
    vault := { s.vault with pending := addPending s.vault.pending h gen true }
    keys := { s.keys with
      slots := mset {} s.keys.slots h { slotAt s h with gen := gen, key := none }
      log := { s.keys.log with queue := s.keys.log.queue ++ [{ handle := h, gen := gen, key := none }] } } }

/-- The pending list applied over the slots of the log: an entry whose generation the log holds is answered, but for a deletion that it
does not hold, which empties the slot (log entry 196); one whose generation it does not hold empties its slot with that generation, and
is recorded. -/
def applyPending (s : State) (log : Map Slot) : State :=
  each s.vault.pending s (fun s e =>
    let h := pendingHandle e.1
    let held := mget {} log h
    let deleted := e.1 != h
    if held.gen ≠ e.2 then record (emptyPending s h e.2) 0x5102 srcDevice (Bytes.ofNatLE 4 h ++ Bytes.ofNatLE 4 e.2)
    else if deleted ∧ held.key.isSome then emptyPending s h e.2
    else { s with vault := { s.vault with pending := s.vault.pending.filter (· != e) } })

/-- EXT bits of the slots as they stand. -/
def extOf (m : Map Slot) : Map Nat :=
  m.foldl (fun x e => match e.2.key with
    | some k => (runExt e.1 k.ext).foldl (fun x h => mput x h e.1) x
    | none => x) []

/-- Vault entries whose record is gone. -/
def orphansIn (s : State) : Nat :=
  (s.vault.backed.filter (fun e => !(((slotAt s e.1).key.map (·.backed)).getD false))).length

/-- Slots from an accepted log. -/
def loadKeys (s : State) : State :=
  let log := replayKeys (keyLogRecs s) s.ctl.epoch
  let rs := journalRecs s
  let slots := log.map (fun e => (e.1, restoreSlot s rs s.keys.journal.rejected e.1 e.2))
  let s := { s with vault := { s.vault with keyLogEpoch := keyBest s }, keys := { s.keys with slots := slots } }
  let s := applyPending s log
  let s := { s with keys := { s.keys with ext := extOf s.keys.slots } }
  setCounter s (odKey 0x6002 2) (orphansIn s)

/-- Restore of the journal and of the keys; without a root neither can be read. A CLEAR-KEYS on backup has advanced the era: the logs
that follow it are begun here (R295). -/
def restoreKeys (s : State) (env : StepEnv) : State :=
  if s.vault.rootAbsent then
    { s with keys := { s.keys with log := { s.keys.log with queue := [] }, journal := { s.keys.journal with flushing := none } } }
  else
    let s := clearBacked (restoreJournal (readKeyLog (readJournal s env) env)) env.vaultFaults
    if s.backup.latch.keysDone ∧ keyBest s = 0 then freshLogs s
    else if epochOk s.vault.keyLogEpoch (keyBest s) then loadKeys s
    else logRejected { s with keys := { s.keys with log := { s.keys.log with rejected := true } } } 2 (keyBest s)

/-! ## Instances (R323) -/

/-- The buckets of an instance at their bursts (R308). -/
def atBursts (s : State) (i : Nat) (x : Inst) : Inst :=
  { x with sub := Int.ofNat (submitBurst s.ctl.cfg i * 10 ^ 9), core := Int.ofNat (coreBurst s.ctl.cfg i * 10 ^ 6), bucketT := s.now }

/-- A saved instance stays saved; every other assigned one starts ACTIVE and clean. The buckets of both are at their bursts. -/
def restoreInst (s : State) (i : Nat) : State :=
  modInst s i (fun x => atBursts s i (if x.st = 5 then x else { st := 1 }))

def restoreInsts (s : State) : State :=
  let is := assignedIn s.ctl.cfg
  each is { s with insts := s.insts.filter (fun e => is.contains e.1) } restoreInst

/-! ## Steps 1 to 4 -/

/-- HeadSplit as the configuration to be restored has it (R442). -/
def splitAtStart (s : State) (seen : Option Nat) : Nat :=
  if epochOk (devCounter s 51) (seen.getD (devCounter s 51)) then setting (replayCfg (readableLog s) s.ctl.cutRing).1 0x9000 1 0 else 0

/-- Step 1: XSPI_RESET_N is released (R482), the ROM checks itself; HeadSplit is applied and the heads begin training. -/
def startRom (s : State) (env : StepEnv) : State :=
  let s := { s with power := { s.power with xspiReset := false } }
  if env.romOk then trainHeads { s with link := { s.link with split := splitAtStart s env.cfgLogSeen } } else stopStart s .rom

/-- Step 2: the vote over the row in force; SCRAPPED runs nothing else, but for an open transition to it. -/
def startVote (s : State) : State :=
  let w := fuseRow s (rowInForce s)
  let s := { s with life := { s.life with st := lcVote w, target := openTransition w, pending := (openTransition w).isSome } }
  if s.life.st = 5 ∧ s.life.target ≠ some 5 then stopStart s .scrapped else s

/-- A ballast mark of SCRAP not yet acknowledged. -/
def scrapMarked (s : State) : Bool :=
  s.backup.marks.zipIdx.any (fun e => bits e.1 14 3 == 5 && !bitOf s.backup.marksAcked e.2)

/-- A transition brought to its end: its fuses, the state that they give, and no record of it in the vault. -/
def endTransition (s : State) (t : Nat) (unburnt : List (Nat × Nat)) : State :=
  let s := burnSequence s t unburnt
  { s with life := { s.life with st := lcVote (fuseRow s (rowInForce s)) }, vault := { s.vault with transition := none } }

/-- Step 3: an open transition is taken to its end, and a SCRAP executed on backup is made a transition. -/
def startTransitions (s : State) (unburnt : List (Nat × Nat)) : State :=
  let s := match s.life.target with
    | some t => endTransition s t unburnt
    | none => s
  let s := if s.life.st ≠ 5 ∧ scrapMarked s then endTransition (beginTransition s 5) 5 unburnt else s
  if s.life.st = 5 then stopStart s .scrapped else s

/-- Step 4: the Envelope. A failed authentication is retried by ENV_AUTH_RETRY, whose failure is the event (R381); where none is
enrolled, the one seated is not the enrolled one (R376). -/
def startEnvelope (s : State) (a : EnvAnswer) (nets : List NetReading) : State :=
  if s.life.st < 2 then { s with backup := { s.backup with contact := a.present } }
  else match s.backup.env with
    | some e =>
      let (ok, s) := authenticate s e a
      if ok then s else { s with backup := { s.backup with envGood := false, authRetry := true } }
    | none =>
      if s.life.st = 2 then
        let (ok, s) := enrol s a nets
        if ok then s else stopStart s .enrolment
      else raiseIf (readEnvelope { s with backup := { s.backup with envGood := false } } a) 8 (detail 0) true

/-! ## Step 5 (R269, R363, R387, R440) -/

/-- The vault check passes. -/
def vaultSound (s : State) : Bool :=
  let v := s.vault
  v.magic == vaultMagic && v.layout == 1 && !v.rootAbsent && v.rootCheck == rootCheckOf v.root && v.idScalar == identityScalarBytes v.root
    && v.idCheck == identityCheckOf v.root

/-- An event code that the manual does not name, of the range that it gives event codes (R433): a free value (log entry 3). -/
def unnamedCode (s : State) : Nat := 0x1101 + Config.freeNat s.free % 0x69FE

/-- The vault check: the identity comes into use, or RootState = 1 and a record under a code that the manual does not name. -/
def vaultCheck (s : State) : State :=
  if vaultSound s then setIdentity s s.vault.root
  else recordExempt { s with vault := { s.vault with rootAbsent := true }, free := s.free + 1 } (unnamedCode s) srcDevice []

/-- Latches set, with a class executed. -/
def latchFrom (s : State) (mons cls : Nat) : State :=
  let s := each (upTo 14) s (fun s m => if bitOf mons m then modMon s m (fun x => { x with latched := true }) else s)
  { s with alarm := { s.alarm with
      random := s.alarm.random || bitOf mons 15
      executed := if cls = 0xFF then s.alarm.executed else max (executedNow s) cls } }

/-- A ballast mark not yet acknowledged: its latches, and one record per monitor. -/
def rebuildMark (s : State) (mark : Nat) : State :=
  let mons := mark % 2 ^ 14
  let cls := bits mark 14 3
  let s := latchFrom s mons cls
  each ((upTo 14).filter (bitOf mons)) s (fun s m =>
    { s with evr := storeParts s.evr (recParts s.now (0x2101 + m) (src 6 m) 1 (Bytes.ofNatLE 1 cls ++ Bytes.ofNatLE 2 mons ++ detail 0)) })

/-- Step 5: vault check, latches, tail, marks; ALARM_N is driven where ALARM is in effect. -/
def startVault (s : State) : State :=
  let s := vaultCheck s
  let s := latchFrom s s.backup.latch.mons s.backup.latch.cls
  let s := { s with evr := storeParts s.evr ((tailRecords s.backup).map (fun e => { e with flags := Nat.lor e.flags 2 })) }
  let marks := (s.backup.marks.zipIdx.filter (fun e => !bitOf s.backup.marksAcked e.2)).map (·.1)
  let s := each marks s rebuildMark
  { s with alarm := { s.alarm with alarmN := s.alarm.alarmN || alarmLatched s } }

/-! ## Steps 6 to 9 -/

/-- The mark that a start finds: the vault's, before the flash mark (R414). -/
def startMark (s : State) : LoaderMark := if s.vault.mark.phase ≠ 0 then s.vault.mark else flashMark s

/-- Blocks of a manifest, as part and index in the manifest, programmed over the images of their parts. -/
def programBlocks (s : State) (m : Bytes) (blocks : List (Nat × Nat)) : State :=
  { s with fw := { s.fw with image := blocks.foldl (fun im e =>
      let first := (((mfParts m).find? (fun p => p.part == e.1)).map (·.first)).getD 0
      mput im (imageBlock e.1 (e.2 - first)) (mfDigest m e.2)) s.fw.image } }

/-- The blocks before the one that the source keeps giving with another content, and whether that is all of them. -/
def obtained (blocks : List (Nat × Nat)) (lost : Option Nat) : List (Nat × Nat) × Bool :=
  let good := blocks.takeWhile (fun e => lost != some e.2)
  (good, good.length == blocks.length)

/-- The rest of an interrupted write from its mark on, and its switch; a block that is not to be had leaves the mark at it (R412, R414). -/
def resumeWrite (s : State) (lost : Option Nat) : State × Bool :=
  let rest := (writeOrder s).dropWhile (fun e => decide (e.1 < s.fw.markPart) || (e.1 == s.fw.markPart && decide (e.2 < s.fw.markNext)))
  let (good, all) := obtained rest lost
  let s := programBlocks s s.fw.staged good
  match (rest.drop good.length).head? with
  | some e => (noteMark { s with fw := { s.fw with markPart := e.1, markNext := e.2 } }, all)
  | none => (switchSlots s, all)

/-- A complete release from the source of recovery staging is written where its manifest passes the checks of R409: each part's blocks,
then its manifest slot (R414; log entry 73). -/
def writeRelease (s : State) (m : Bytes) (lost : Option Nat) : State × Bool :=
  let s := { s with fw := { s.fw with recovery := false } }
  if manifestStatus s m ≠ 0 then (s, true)
  else
    let (good, all) := obtained ((mfParts m).flatMap (fun p => (upTo (mfPartBlocks p)).map (fun j => (p.part, p.first + j)))) lost
    let s := programBlocks s m good
    (if all then { s with fw := { s.fw with slots := (mfParts m).foldl (fun x p => mput x p.part m) s.fw.slots } } else s, all)

/-- Recovery staging is offered: LOADER is in effect. -/
def stopImages (s : State) : State := stopStart { s with fw := { s.fw with phase := 1 } } .images

/-- A part whose slot holds a manifest written to it fails the whole-image check: its manifest, or a block of its image. -/
def partFails (s : State) (p : Nat) : Bool :=
  match mfind s.fw.slots p with
  | some m =>
    manifestStatus s m != 0 || ((mfParts m).filter (fun e => e.part == p)).any (fun e =>
      (upTo (mfPartBlocks e)).any (fun j => mfind s.fw.image (imageBlock p j) != some (mfDigest m (e.first + j))))
  | none => false

/-- The whole-image check (R361, R414). Of a part as it was delivered the manual prints neither manifest nor image: with the others it
fails where the flash no longer holds what was written (log entry 75). -/
def imagesFail (s : State) (badParts : Nat) : Bool :=
  badParts != 0 || (upTo 8).any (fun k => partFails s (k + 1)) || decide (leastSecurity s < securityFloor s)

/-- Step 6: flash, an interrupted write or a release from recovery staging, every image and the security floor. -/
def startImages (s : State) (env : StepEnv) : State :=
  let s := takeMark { s with link := { s.link with flashMbit := env.flashMbit } } (startMark s)
  if env.flashOk = false ∨ env.flashMbit < 2048 then stopImages s
  else if (s.fw.markPhase = 1 ∨ s.fw.recovery) ∧ env.sourceOk = false then stopImages s
  else
    let (s, all) := if s.fw.markPhase = 1 then resumeWrite s env.lostBlock
      else if s.fw.recovery then writeRelease s env.release env.lostBlock else (s, true)
    if all = false ∨ imagesFail s env.badParts.toNat then stopImages s else s

/-- The new images run: an activation switched before the start ends. -/
def finishSwaps (s : State) : State :=
  if s.fw.markPhase < 2 then s
  else
    let mask := s.fw.mask
    let s := if mask = 0 then s else raiseFloor s (bitOf (mfFlags s.fw.staged) 1)
    let s := clearLoaderMarks s
    let s := { s with fw := { s.fw with mask := 0, stage := 0, checked := 0, staged := [] } }
    if mask = 0 then s else record s 0x7109 srcDevice (Bytes.ofNatLE 2 mask ++ Bytes.ofNatLE 8 s.vault.security)

/-- An island comes up, or is a CLOCK event and its bay stays out. -/
def bringUp (s : State) (dead : Nat) (k : Nat) : State :=
  if bitOf dead k then
    let s := if k < 5 then s else modBay s (k - 5) (fun x => { x with st := 2, why := .fault })
    clockEvent (holdClock s k) k 3 true
  else if k < 5 then s
  else modBay s (k - 5) (fun x => { x with st := 0, why := .inService, frame := s.now / 2000 })

/-- Before the first root of a personalisation the three logs in flash are erased (R401). -/
def eraseLogs (s : State) : State :=
  { s with
    keys := { s.keys with log := {}, journal := { s.keys.journal with halfA := [], halfB := [], activeB := false } }
    ctl := { s.ctl with cfgLog := [], cfgLogUsed := 0, cutRing := [] } }

/-- The root of this personalisation is still to be made. -/
def rootOwed (s : State) : Bool := s.life.st == 2 && !rootMade s

/-- The rules in force for the configuration at hand, in both banks. -/
def setRules (s : State) : State := { s with acu := { s.acu with active := rulesFor s s.ctl.cfg, shadow := rulesFor s s.ctl.cfg } }

/-- Step 7: images loaded, recorder up, islands, random island, firmware rules (R420); DEBUG of RAW and TESTED. -/
def startIslands (s : State) (dead : Nat) : State :=
  let s := drainQueue s
  let s := finishSwaps (each ((upTo 8).map (· + 1)) s loadPart)
  let s := { s with link := { s.link with clockStops := [], outMark := none } }
  let s := each ((upTo 33).filter (· != 4)) s (fun s k => bringUp s dead k)
  let s := if rootOwed s then eraseLogs s else s
  let s := enableRandom s
  setRules (if s.life.st ≤ 1 then openDebug s else s)

/-- A start-up test of an engine fails: it stays out of service (R66). -/
def failEngine (s : State) (b k : Nat) : State :=
  record (modBay s b (fun x => { x with failed := putBit x.failed k true })) 0x6103 (srcBay b)
    (Bytes.ofNatLE 1 b ++ Bytes.ofNatLE 1 k ++ Bytes.ofNatLE 1 3)

/-- The known-answer tests of a bay's engines are over: its BNC memories keep the test content without an owner (R235), and its engines
count as tested now. -/
def bayTested (s : State) (b : Nat) : State :=
  let s := if isBncBay b then each (upTo 8) s (fun s k => leaveTest (enterTest s b k) b k) else s
  modBay s b (fun x => { x with tested := (upTo (engineCount b)).map (fun k => (k, s.now)) })

/-- Step 8: known-answer tests. DESIGN CHOICE (log entry 247): of those of the random chain the conditioner's is the one that
KatLastResult tells, those of the bays' DRBGs do not write it. -/
def startTests (s : State) (env : StepEnv) : State :=
  let s := each ((upTo 28).filter (fun b => (getBay s b).st == 0)) s bayTested
  let s := each (env.katFail.filter (fun e => decide (e.1 < 28) && decide (e.2 < engineCount e.1) && (getBay s e.1).st == 0)) s
    (fun s e => failEngine s e.1 e.2)
  let s := condKat s env.condKatOk
  each ((upTo 28).filter (bitOf env.drbgKatFail.toNat)) s drbgFailed

/-! ## Steps 10 and 11 -/

/-- Step 10: restore. -/
def startRestore (s : State) (env : StepEnv) : State :=
  restoreKeys (restoreCfgLog s env.cfgLogSeen) env

/-- Step 11: instances, pending activations, the record of the start. -/
def startService (s : State) : State :=
  let s := restoreInsts s
  let s := if s.fw.mask ≠ 0 ∧ s.fw.act = 0 then { s with fw := { s.fw with phase := 2 } } else s
  record s 0x1105 srcDevice (Bytes.ofNatLE 4 s.power.startups ++ Bytes.ofNatLE 4 ((s.now - s.power.startT) / 1000))

/-! ## The sequence (R361, R365) -/

/-- What step n leaves. -/
def startStep (s : State) (env : StepEnv) (n : Nat) : State :=
  match n with
  | 1 => startRom s env
  | 2 => startVote s
  | 3 => startTransitions s env.unburnt
  | 4 => startEnvelope s env.env env.nets
  | 5 => startVault s
  | 6 => startImages s env
  | 7 => startIslands s env.deadIslands.toNat
  | 8 => startTests s env
  | 10 => startRestore s env
  | 11 => startService s
  | _ => s

/-- The step that runs is over after so many microseconds, and the next begins; after step 11 pending activations may begin. -/
def nextStep (s : State) (us : Nat) : State :=
  let s := { s with power := { s.power with step := min 12 (s.power.step + 1), stepUs := s.power.stepUs ++ [us] } }
  if s.power.step = 12 then tryBegin s else s

/-- A start is under way. -/
def starting (s : State) : Bool :=
  s.power.pwrGood && !s.power.resetLow && decide (1 ≤ s.power.step) && decide (s.power.step ≤ 11)

/-- The end of a step; step 9 waits for a root to be made. -/
def stepDone (s : State) (env : StepEnv) : State :=
  if starting s = false ∨ s.power.stop ≠ .running ∨ (s.power.step = 9 ∧ rootOwed s) then s
  else
    let s := startStep s env s.power.step
    if s.power.stop = .running then nextStep s env.us else s

/-- The repetition of step 4 in a start that enrolment has stopped (R391). -/
def enrolAgain (s : State) (a : EnvAnswer) (nets : List NetReading) : State :=
  if starting s = false ∨ s.power.stop ≠ .enrolment then s
  else
    let (ok, s) := enrol s a nets
    if ok then
      let spent := s.power.stepUs.foldl (· + ·) 0
      nextStep { s with power := { s.power with stop := .running }, alarm := { s.alarm with alarmN := s.alarm.executed != 0xFF } }
        ((s.now - s.power.startT) / 1000 - spent)
    else s

/-- A transition's fuses are burnt: the device resets itself, and the new state governs (R398, R400). -/
def fusesDone (s : State) (unburnt : List (Nat × Nat)) : State :=
  match s.life.pending, s.life.target with
  | true, some t => if s.power.pwrGood then internalReset (endTransition s t unburnt) else s
  | _, _ => s

/-! ## Meanings -/

/-- STARTUP_STEP_DONE (R361). -/
def execStartupStepDone (t : Nat) (env : StepEnv) (s : State) : Result := .next (settle (stepDone (at_ s t) env))

/-- ENROL_RETRY (R391). -/
def execEnrolRetry (t : Nat) (env : EnvAnswer) (nets : List NetReading) (s : State) : Result :=
  .next (settle (enrolAgain (at_ s t) env nets))

/-- LC_FUSE_SEQUENCE_DONE (R398, R400). -/
def execLcFuseSequenceDone (t : Nat) (unburnt : List (Nat × Nat)) (s : State) : Result :=
  .next (settle (fusesDone (at_ s t) unburnt))

end Sys2Proof.Machine
end

