-- ==== Sys2Proof/Machine/Link.lean ====
section
/-! DEFINITION. Heads and their resets, function registers, DOE and SPDM, sessions, IDE, mailbox, fabric manager and MCTP over I3C
(R442 to R463). -/

namespace Sys2Proof.Machine

open Sys2Proof

/-! ## Heads (R442, R443, R449, R454) -/

/-- Sessions over a DOE mailbox of an LD. -/
def overLd (d : Nat) (x : Session) : Bool := match x.tr with
  | .doe ld => ld.toNat == d
  | _ => false

/-- Sessions over any DOE mailbox of a head. -/
def overHead (h : Nat) (x : Session) : Bool := match x.tr with
  | .doe ld => ld.toNat / 16 == h
  | .fmDoe k => k.val == h
  | .mctp => false

/-- The MSI-X table of an LD as a conventional reset leaves it: every entry masked, nothing pending. -/
def maskMsix (s : State) (d : Nat) : State :=
  { s with link := { s.link with
      msixOpen := s.link.msixOpen.filter (fun e => e.1 / 2048 != d), msixPend := s.link.msixPend.filter (fun e => e.1 / 2048 != d) } }

/-- A function level reset (log entry 165). -/
def resetFunction (s : State) (d : Nat) : State := squashLd (endSessions s (fun _ => overLd d)) d

/-- A conventional reset of a head: its instances are squashed, its decoders forget their ranges, its functions and its IDE streams
begin afresh, and an LD count that waited is applied. -/
def headReset (s : State) (h : Nat) : State :=
  let x := getHead s h
  let s := { s with link := { s.link with
    hdm := s.link.hdm.filter (fun e => e.1 / 16 != h)
    hdmError := (upTo 16).foldl (fun m l => putBit m (16 * h + l) false) s.link.hdmError } }
  let s := endSessions s (fun _ => overHead h)
  let s := each (upTo 16) s (fun s l => maskMsix (squashLd s (16 * h + l)) (16 * h + l))
  modHead s h (fun y =>
    { y with st := 0, speed := 0, width := 0, ideIo := none, ideMem := none, lds := y.ldsNext
             downs := y.downs + bit (decide (2 ≤ x.st)), dmaCap := 0, dmaCapOld := 0, dmaFrom := 0 })

/-- PERST_N of a head is asserted; a line that the split in force does not use has no effect but its level. -/
def perstLow (s : State) (h : Nat) : State :=
  let s := modHead s h (fun x => { x with perst := true })
  if s.power.pwrGood = false ∨ headsNow s ≤ h then s else applySplit (headReset s h)

/-- PERST_N of a head is deasserted: it trains, once step 1 of a start has ended. -/
def perstHigh (s : State) (h : Nat) : State :=
  let s := modHead s h (fun x => { x with perst := false })
  if linkAlive s ∧ h < headsNow s ∧ (getHead s h).st = 0 then modHead s h (fun x => { x with st := 1 }) else s

/-- The link of a head is lost, or hot reset: with its PERST_N deasserted it trains again at once (R449). -/
def linkLoses (s : State) (h : Nat) : State :=
  if s.power.pwrGood ∧ h < headsNow s ∧ 2 ≤ (getHead s h).st then
    let s := headReset s h
    if (getHead s h).perst then s else modHead s h (fun x => { x with st := 1 })
  else s

/-- Speeds and widths of R443. -/
def trainable (s : State) (speed width : Nat) : Bool :=
  [8, 16, 32, 64].contains speed && [1, 2, 4, 8, 16].contains width && decide (width * headsNow s ≤ 16)

/-- A head completes training: the DMA book's capacity follows from the next frame; without flit mode it carries no traffic. -/
def linkTrains (s : State) (h speed width : Nat) (flit : Bool) : State :=
  if linkAlive s ∧ h < headsNow s ∧ (getHead s h).perst = false ∧ trainable s speed width then
    let frame := s.now / 2000
    let old := dmaCapAt s h frame
    modHead s h (fun x => { x with
      st := if flit then 2 else 3, speed := speed, width := width, cdat := x.cdat + 1
      dmaCapOld := old, dmaCap := if flit then 4096 * width * speed / 64 else 0, dmaFrom := frame + 1 })
  else s

/-! ## Functions (R445, R446, R450, R451) -/

/-- An LD exists for its host. -/
def ldExists (s : State) (d : Nat) : Bool := headUp s (d / 16) && decide (d % 16 < (getHead s (d / 16)).lds)

/-- The registers of an LD are reached: its configuration requests are answered. -/
def ldServed (s : State) (d : Nat) : Bool := ldExists s d && decide (8 ≤ s.power.step)

/-- A request that the link island serves; while its clock stands still, so does the request (R22). -/
def linkWord (s : State) (c : Instr) (f : State → State) : State := crossing s [] [islLink] c f

/-- A configuration request is answered, or retried; Memory_Active is 0 until step 11 of the start has ended, and Memory_Active_Timeout
reports 1 s (R362, R450). -/
def configAnswer (s : State) (h tag : Nat) : State :=
  if headUp s h then emit s (.config h tag (decide (s.power.step < 8)) (serving s) 1) else s

/-- A decoder commits with 128 MiB, one way, no skip, and with nothing else. -/
def hdmCommit (s : State) (d base size ways skip : Nat) : State :=
  if ldServed s d = false then s
  else if size = 128 * 2 ^ 20 ∧ ways = 1 ∧ skip = 0 then
    { s with link := { s.link with hdm := mput s.link.hdm d base, hdmError := putBit s.link.hdmError d false } }
  else { s with link := { s.link with hdm := mdel s.link.hdm d, hdmError := putBit s.link.hdmError d true } }

/-- An entry is unmasked; a message that waited for it is sent. -/
def unmask (s : State) (d entry : Nat) : State :=
  if ldServed s d = false then s
  else
    let k := d * 2048 + entry
    let pend := mget false s.link.msixPend k
    let s := { s with link := { s.link with msixOpen := mset false s.link.msixOpen k true, msixPend := mset false s.link.msixPend k false } }
    if pend then emit s (.msix d entry) else s

/-! ## BAR0 (R451) -/

/-- What stands in BAR0 of an LD's function at an offset. -/
inductive BarPart where
  | component | deviceStatus | memoryStatus | mailbox | msixTable | msixPending
  /-- reserved: reads 0 -/
  | reserved
  deriving DecidableEq, Repr

def barPart (off : Nat) : BarPart :=
  if off < 0x10000 then .component
  else if off < 0x11000 then .deviceStatus
  else if off < 0x12000 then .memoryStatus
  else if off < 0x32020 then .mailbox
  else if off < 0x40000 then .reserved
  else if off < 0x48000 then .msixTable
  else if off < 0x48100 then .msixPending
  else .reserved

/-- The 16 bytes of an entry of the MSI-X table: message address, data, and vector control, whose lowest bit masks. -/
def msixEntry (s : State) (d entry : Nat) : Bytes :=
  let k := d * 2048 + entry
  let e := mget (0, 0) s.link.msixTable k
  Bytes.ofNatLE 8 e.1 ++ Bytes.ofNatLE 4 e.2 ++ Bytes.ofNatLE 4 (bit (!mget false s.link.msixOpen k))

/-- A byte of BAR0; none where its content is left to the CXL specification. -/
def barByte (s : State) (d off : Nat) : Option Byte :=
  match barPart off with
  | .msixTable => some (Bytes.at' (msixEntry s d ((off - 0x40000) / 16)) (off % 16))
  | .msixPending => some (BitVec.ofNat 8 (boolsToNat 8 (fun b => mget false s.link.msixPend (d * 2048 + 8 * (off - 0x48000) + b))))
  | .reserved => some 0
  | _ => none

/-! ## DOE and SPDM (R455 to R459) -/

/-- The Link Manager is being replaced (R356). -/
def managerOut (s : State) : Bool := s.fw.replacing == some 2

/-- A transport is there: an LD of an up head, the FM-owned LD of an up head, or the I3C bus. -/
def transportUp (s : State) (tr : Transport) : Bool :=
  match tr with
  | .doe ld => ldExists s ld.toNat
  | .fmDoe h => headUp s h.val
  | .mctp => s.power.pwrGood

def isMctp (tr : Transport) : Bool := match tr with
  | .mctp => true
  | _ => false

/-- An answer cut into parts of at most 4,096 bytes. -/
def pieces : Nat → Bytes → List Bytes
  | 0, b => [b]
  | n + 1, b => if b.length ≤ 4096 then [b] else b.take 4096 :: pieces n (b.drop 4096)

/-- The objects of an answer: over DOE of up to 4,096 bytes each (R455). -/
def answerObjects (tr : Transport) (body : Bytes) : List Bytes := if isMctp tr then [body] else pieces body.length body

def answer (s : State) (tr : Transport) (name : String) (body : Bytes) : State :=
  { s with outbox := s.outbox ++ (answerObjects tr body).map (.spdm tr name ·) }

/-- A DOE or SPDM request, served from the end of step 7 on; DOE answers Busy while the Link Manager is replaced. -/
def onTransport (s : State) (tr : Transport) (serve : State) : State :=
  if transportUp s tr = false ∨ s.power.step < 8 ∨ s.power.stop ≠ .running then s
  else if managerOut s ∧ isMctp tr = false then answer s tr "Busy" []
  else serve

/-- The data object protocols: vendor and type of Discovery, CMA/SPDM, Secured CMA/SPDM and CDAT Table Access. -/
def doeProtocols : Bytes :=
  [(0x0001, 0), (0x0001, 1), (0x0001, 2), (0x1E98, 2)].flatMap (fun e => Bytes.ofNatLE 2 e.1 ++ Bytes.ofNatLE 1 e.2)

/-- A CDAT structure: type and content behind a header of four bytes. -/
def cdatPart (type : Nat) (content : Bytes) : Bytes := Bytes.ofNatLE 1 type ++ [0] ++ Bytes.ofNatLE 2 (content.length + 4) ++ content

/-- DSMAS: handle 0, flags (bit 2 non-volatile, bit 3 shareable), DPA base and length. -/
def dsmas (nonVolatile shareable : Bool) (base len : Nat) : Bytes :=
  cdatPart 0 ([0] ++ Bytes.ofNatLE 1 (4 * bit nonVolatile + 8 * bit shareable) ++ Bytes.zeros 2 ++ Bytes.ofNatLE 8 base ++ Bytes.ofNatLE 8 len)

/-- DSLBIS of handle 0: access latency in ns, read and write bandwidth in units of a lane's GT/s. -/
def dslbis (latency rd wr : Nat) : Bytes :=
  cdatPart 1 (Bytes.zeros 4 ++ Bytes.ofNatLE 8 1000 ++ Bytes.ofNatLE 2 latency ++ Bytes.ofNatLE 2 rd ++ Bytes.ofNatLE 2 wr ++ Bytes.zeros 2)

/-- DSEMTS of handle 0: memory type (2 is EfiReservedMemoryType), DPA base and length. -/
def dsemts (type base len : Nat) : Bytes :=
  cdatPart 4 ([0] ++ Bytes.ofNatLE 1 type ++ Bytes.zeros 2 ++ Bytes.ofNatLE 8 base ++ Bytes.ofNatLE 8 len)

/-- CDAT of an LD (R459): DSMAS for 0 to 128 MiB, volatile and not shareable; DSLBIS with 250 ns and the head's trained bandwidth, its
width times its speed; DSEMTS with EfiReservedMemoryType; behind a header with total length, revision, checksum and sequence number. The
layout is PRESUMED (log entry 258). -/
def cdatBody (x : Head) : Bytes :=
  let bw := x.width * x.speed
  let parts := dsmas false false 0 (128 * 2 ^ 20) ++ dslbis 250 bw bw ++ dsemts 2 0 (128 * 2 ^ 20)
  let head := fun (sum : Nat) => Bytes.ofNatLE 4 (16 + parts.length) ++ [1] ++ Bytes.ofNatLE 1 sum ++ Bytes.zeros 6 ++ Bytes.ofNatLE 4 x.cdat
  head (256 - ((head 0 ++ parts).map (·.toNat)).foldl (· + ·) 0 % 256) ++ parts

/-- FwPartManifestDigest of a part as it runs. -/
def partDigest (s : State) (p : Nat) : Bytes := Bytes.fit 32 (mget {} s.fw.parts p).digest

/-- A measurement. -/
def measurement (s : State) (n : Nat) : Bytes :=
  match n with
  | 1 => Bytes.fit 48 Config.romDigest
  | 2 => partDigest s 1 ++ partDigest s 2
  | 3 => (upTo 6).flatMap (fun k => partDigest s (k + 3))
  | 4 => Bytes.ofNatLE 1 s.life.otpSecurity ++ Bytes.ofNatLE 8 s.vault.security
  | 5 => Bytes.ofNatLE 1 s.life.st ++ Bytes.ofNatLE 1 (bit s.vault.rootAbsent)
      ++ Bytes.ofNatLE 1 (if s.life.debug then 2 else bit (challengeReady s)) ++ Bytes.ofNatLE 4 s.life.scope
  | 6 => Bytes.fit 32 s.ctl.digest ++ Bytes.ofNatLE 8 s.ctl.digestEpoch
  | 7 => Bytes.fit 32 s.ctl.localDigest ++ Bytes.ofNatLE 8 s.ctl.digestEpoch
  | 8 => Bytes.fit 32 ((s.backup.env.map (·.identity)).getD []) ++ Bytes.ofNatLE 2 (envLife s)
  | _ => []

/-- DMTF value type of an index, as a raw bit stream (R456, R457): immutable ROM, mutable firmware, firmware version, hardware and firmware
configuration. PRESUMED (log entry 161): their codes are those of SPDM. -/
def measurementType (n : Nat) : Nat :=
  0x80 + (match n with
    | 1 => 0
    | 2 | 3 => 1
    | 4 => 6
    | 6 | 7 => 3
    | _ => 2)

/-- Measurements of several indices, read at one instant: index, value type, length, content. -/
def measurements (s : State) (first last : Nat) : Bytes :=
  ((upTo 9).filter (fun n => decide (1 ≤ n) && decide (first ≤ n) && decide (n ≤ last))).flatMap (fun n =>
    Bytes.ofNatLE 1 n ++ Bytes.ofNatLE 1 (measurementType n) ++ Bytes.ofNatLE 2 (measurement s n).length ++ measurement s n)

/-- Measurement summary hash: of the TCB over indices 1 to 4, the full one over 1 to 8 (R457). -/
def summaryHash (s : State) (full : Bool) : Bytes := Sha.sha384 (measurements s 1 (if full then 8 else 4))

/-- CHALLENGE: which summary hash it asks for the command does not carry: a free choice (log entry 259). -/
def challengeAnswer (s : State) : Bytes × State := (summaryHash s (Config.freeNat s.free % 2 == 1), { s with free := s.free + 1 })

/-- The device has an identity to sign with: its own, or the substitute in DEBUG. -/
def identityThere (s : State) : Bool := !s.vault.rootAbsent || s.life.debug

/-- An answer signed by the identity key: Busy while SEEDING is in effect, Unspecified without an identity. The signature covers a
transcript that the command does not carry: a free value (log entry 3). -/
def signedAnswer (s : State) (tr : Transport) (name : String) (body : Bytes) (andThen : State → State) : State :=
  if seedingInForce s then answer s tr "ERROR Busy" []
  else if identityThere s = false then answer s tr "ERROR Unspecified" []
  else match controllerDraw s 56 with
    | (none, s) => answer s tr "ERROR Busy" []
    | (some _, s) =>
      let (sig, s) := freeBytes s 96
      answer (andThen s) tr name (body ++ sig)

/-- CHALLENGE_AUTH with the summary hash that it asks for. -/
def challenged (s : State) (tr : Transport) : State :=
  let (h, s) := challengeAnswer s
  signedAnswer s tr "CHALLENGE_AUTH" h id

/-- Certificate slot 0: the chain of the identity, in DEBUG the substitute key; no other slot is provisioned. -/
def certificate (s : State) (tr : Transport) (slot : Nat) : State :=
  if slot ≠ 0 then answer s tr "ERROR InvalidRequest" []
  else if s.life.debug then answer s tr "CERTIFICATE" s.keys.idPublic
  else if s.vault.rootAbsent then answer s tr "ERROR Unspecified" []
  else answer s tr "CERTIFICATE" Config.certChain

/-! ## Sessions (R458) -/

/-- Role and JointOpener code that a requester key gives; none where it matches nothing that the state permits. -/
def requesterRole (s : State) (k : ReqKey) : Option (Nat × Nat) :=
  let c := s.ctl.cfg
  match k with
  | .none => some (0, 0)
  | .maker => if makerState s then some (roleMaker, 0xFFFD) else none
  | .raw xy =>
    match (upTo 16).find? (fun o => setting c (0x7040 + o) 2 0 == 1 && octets c (0x7040 + o) 1 == xy) with
    | some o => some (roleOperator, 0x8000 + o)
    | none => ((upTo 16).find? (fun n => setting c (0x7010 + n) 2 0 == 1 && octets c (0x7010 + n) 1 == xy)).map
        (fun n => (roleOperator, 0xC000 + n))

/-- A session opened under the lowest free number. -/
def openSession (s : State) (x : Session) : State :=
  match (upTo 8).find? (fun n => (mfind s.link.sessions n).isNone) with
  | some n => { s with link := { s.link with sessions := mput s.link.sessions n x } }
  | none => s

def exchangeKeys (s : State) (tr : Transport) (k : ReqKey) : State :=
  if 8 ≤ s.link.sessions.length then answer s tr "ERROR Busy" []
  else match requesterRole s k with
    | none => answer s tr "ERROR InvalidRequest" []
    | some (role, opener) =>
      signedAnswer s tr "KEY_EXCHANGE_RSP" [] (fun s => openSession s { role := role, tr := tr, opener := opener, beat := s.now })

/-- A message of an open session. -/
def inSession (s : State) (n : Nat) (serve : Session → State) : State :=
  match mfind s.link.sessions n with
  | some x => onTransport s x.tr (serve x)
  | none => s

/-- The session of a number ends. -/
def endSessionNo (s : State) (n : Nat) : State := endSessions s (fun k _ => k == n)

/-- A heartbeat period without a heartbeat. -/
def heartbeatLost (s : State) (n : Nat) : State :=
  match mfind s.link.sessions n with
  | some x => if x.beat + 60 * 10 ^ 9 ≤ s.now then endSessionNo s n else s
  | none => s

/-- IDE keys arrive in a session (R460). -/
def programIde (s : State) (h : Nat) (mem : Bool) (n : Nat) (key : Bytes) : State :=
  inSession s n (fun x =>
    answer (modHead s h (fun y => if mem then { y with ideMem := some key } else { y with ideIo := some key })) x.tr "KP_ACK" [])

/-! ## Mailbox of an LD (R461) -/

def mailboxOk (s : State) (ld : Nat) (body : Bytes) : State := emit s (.mailbox (some ld) "Success" body)

/-- A mailbox command; Busy while the Link Manager is replaced. -/
def onMailbox (s : State) (ld : Nat) (serve : State) : State :=
  if ldServed s ld = false ∨ s.power.stop ≠ .running then s
  else if managerOut s then emit s (.mailbox (some ld) "Busy" [])
  else serve

/-- Volatile and persistent capacity, bytes. -/
def capacityBody : Bytes := Bytes.ofNatLE 8 (128 * 2 ^ 20) ++ Bytes.ofNatLE 8 0

/-- A path belongs to a request tunnelled through the mailbox of an LD. -/
def tunnelPath (s : State) (ld : Nat) (p : Path) : Bool :=
  match p with
  | .tenant d _ => d.toNat == ld
  | .session n => ((mfind s.link.sessions n.toNat).map (overLd ld)).getD false
  | .returnPath => ld % 16 == 0
  | .recovery => ld % 16 == 0
  | .bare => true

/-- Records of a JOINT_STAGE body (R334); none where the body does not divide into records. -/
def parseRecs : Nat → Bytes → Option (List JRec)
  | 0, b => if b = [] then some [] else none
  | n + 1, b =>
    if b = [] then some []
    else
      let len := Bytes.fieldLE b 4 4
      if b.length < 8 + len then none
      else (parseRecs n (b.drop (8 + len))).map (fun rs =>
        { kind := Bytes.at' b 0, sub := Bytes.at' b 1, index := BitVec.ofNat 16 (Bytes.fieldLE b 2 2), data := (b.drop 8).take len } :: rs)

/-- A Kallek request by its message code and body (R333); a body of another length than its message has is 0x0202. -/
def kallekBody (s : State) (h : KHdr) (op : Nat) (b : Bytes) : State :=
  let bad := kallek s h op (fun _ _ => kReply s h op 0x0202 [])
  let sized := fun (n : Nat) (t : State) => if b.length = n then t else bad
  let index := Bytes.fieldLE b 0 2
  let sub := Bytes.fieldLE b 2 1
  match op with
  | 0x01 => sized 12 (kGet s h index sub (Bytes.fieldLE b 4 4) (Bytes.fieldLE b 8 4))
  | 0x02 => sized 4 (kDescribe s h index sub)
  | 0x03 => sized 4 (kNext s h index sub)
  | 0x10 => sized 4 (jointOpens s h (Bytes.fieldLE b 0 1))
  | 0x11 => sized 12 (jointReads s h index sub (Bytes.fieldLE b 4 4) (Bytes.fieldLE b 8 4))
  | 0x12 => (match parseRecs b.length b with
      | some rs => jointStages s h rs
      | none => bad)
  | 0x13 => sized 0 (jointStatements s h)
  | 0x14 => sized 100 (jointSigns s h (Bytes.fieldLE b 0 1) (b.drop 4))
  | 0x15 => sized 0 (jointCommits s h)
  | 0x16 => sized 0 (jointAborts s h)
  | 0x17 => sized 0 (jointStates s h)
  | _ => kallek s h op (fun _ _ => kReply s h op 0x0201 [])

/-- The tunnel: Busy while the custody controller or the Link Manager is replaced; the command completes with the reply. -/
def tunnel (s : State) (ld : Nat) (h : KHdr) (op : Nat) (b : Bytes) : State :=
  if ldServed s ld = false ∧ !(headUp s (ld / 16) && ld % 16 == 0 && s.power.stop == .images) then s
  else if managerOut s ∨ s.fw.replacing = some 1 then emit s (.mailbox (some ld) "Busy" [])
  else if tunnelPath s ld h.path = false then s
  else kallekBody s h op b

/-! ## Fabric manager (R462) -/

/-- A command of the fabric manager. -/
def onFm (s : State) (serve : State) : State :=
  if s.power.pwrGood = false ∨ s.power.step < 8 ∨ s.power.stop ≠ .running then s
  else if managerOut s then emit s (.mailbox none "Busy" [])
  else serve

def fmOk (s : State) (body : Bytes) : State := emit s (.mailbox none "Success" body)

def allocate (s : State) (h count mib : Nat) : State :=
  onFm s (
    if count < 1 ∨ 16 < count ∨ mib ≠ 128
        ∨ (upTo 16).any (fun l => decide (count ≤ l) && setting s.ctl.cfg (0x9010 + (16 * h + l)) 1 0 == 1) then
      emit s (.mailbox none "Invalid Input" [])
    else fmOk (modHead s h (fun x => { x with ldsNext := count })) [])

/-- Average DevLoad of a head over the frames kept. -/
def averageLoad (x : Head) : Nat := x.load.foldl (· + ·) 0 / max 1 x.load.length

def headBody (x : Head) : Bytes := Bytes.ofNatLE 1 x.st ++ Bytes.ofNatLE 1 x.speed ++ Bytes.ofNatLE 1 x.width

/-! ## MCTP over I3C (R463) -/

/-- MCTP control is answered from the end of step 1. -/
def onI3c (s : State) (serve : State) : State := if linkAlive s then serve else s

def mctpOk (s : State) (name : String) (body : Bytes) : State := emit s (.mctp name body)

/-- The 48-bit Provisional ID: in its low 32 bits those of die_tag, above them Staeno's vendor bits (R463; log entry 168). -/
def provisionalId : Bytes := dieTag.take 4 ++ Bytes.ofNatLE 2 Config.vendorBits.toNat

/-! ## Meanings -/

/-- LD_FUNCTION_LEVEL_RESET (R449). -/
def execLdFunctionLevelReset (t : Nat) (ld : LdNo) (s : State) : Result :=
  let s := at_ s t
  .next (if s.power.pwrGood then settle (resetFunction s ld.toNat) else s)

/-- PERST_ASSERT (R449, R442). -/
def execPerstAssert (t : Nat) (h : HeadNo) (s : State) : Result := .next (settle (perstLow (at_ s t) h.val))

/-- PERST_DEASSERT (R449, R450). -/
def execPerstDeassert (t : Nat) (h : HeadNo) (s : State) : Result := .next (perstHigh (at_ s t) h.val)

/-- LINK_DOWN (R449). -/
def execLinkDown (t : Nat) (h : HeadNo) (s : State) : Result := .next (settle (linkLoses (at_ s t) h.val))

/-- LINK_UP (R443, R454). -/
def execLinkUp (t : Nat) (h : HeadNo) (speed width : Nat) (flitMode : Bool) (s : State) : Result :=
  .next (linkTrains (at_ s t) h.val speed width flitMode)

/-- CONFIG_REQUEST (R450). -/
def execConfigRequest (t : Nat) (h : HeadNo) (tag : BitVec 16) (s : State) : Result :=
  .next (linkWord (at_ s t) (.configRequest t h tag) (fun s => configAnswer s h.val tag.toNat))

/-- HDM_DECODER_COMMIT (R446). -/
def execHdmDecoderCommit (t : Nat) (ld : LdNo) (base size ways skip : Nat) (s : State) : Result :=
  .next (linkWord (at_ s t) (.hdmDecoderCommit t ld base size ways skip) (fun s => hdmCommit s ld.toNat base size ways skip))

/-- MSIX_UNMASK (R451). -/
def execMsixUnmask (t : Nat) (ld : LdNo) (entry : BitVec 11) (s : State) : Result :=
  .next (linkWord (at_ s t) (.msixUnmask t ld entry) (fun s => unmask s ld.toNat entry.toNat))

/-- DOE_DISCOVERY (R455). -/
def execDoeDiscovery (t : Nat) (tr : Transport) (s : State) : Result :=
  .next (linkWord (at_ s t) (.doeDiscovery t tr) (fun s =>
    if isMctp tr then s else onTransport s tr (answer s tr "DOE_DISCOVERY" doeProtocols)))

/-- CDAT_TABLE_ACCESS (R459). -/
def execCdatTableAccess (t : Nat) (ld : LdNo) (s : State) : Result :=
  .next (linkWord (at_ s t) (.cdatTableAccess t ld) (fun s =>
    onTransport s (.doe ld) (answer s (.doe ld) "CDAT" (cdatBody (getHead s (ld.toNat / 16))))))

/-- GET_MEASUREMENTS (R456, R457). -/
def execGetMeasurements (t : Nat) (tr : Transport) (first last : Fin 9) (signed : Bool) (s : State) : Result :=
  .next (linkWord (at_ s t) (.getMeasurements t tr first last signed) (fun s =>
    let body := measurements s first.val last.val
    onTransport s tr (if signed then signedAnswer s tr "MEASUREMENTS" body id else answer s tr "MEASUREMENTS" body)))

/-- CHALLENGE (R456). -/
def execChallenge (t : Nat) (tr : Transport) (s : State) : Result :=
  .next (linkWord (at_ s t) (.challenge t tr) (fun s => onTransport s tr (challenged s tr)))

/-- KEY_EXCHANGE (R456, R458). -/
def execKeyExchange (t : Nat) (tr : Transport) (key : ReqKey) (s : State) : Result :=
  .next (linkWord (at_ s t) (.keyExchange t tr key) (fun s =>
    onTransport s tr (exchangeKeys s tr key)))

/-- END_SESSION (R458). -/
def execEndSession (t : Nat) (n : BitVec 3) (s : State) : Result :=
  .next (linkWord (at_ s t) (.endSession t n) (fun s =>
    inSession s n.toNat (fun x => answer (endSessionNo s n.toNat) x.tr "END_SESSION_ACK" [])))

/-- HEARTBEAT (R458). -/
def execHeartbeat (t : Nat) (n : BitVec 3) (s : State) : Result :=
  .next (linkWord (at_ s t) (.heartbeat t n) (fun s =>
    inSession s n.toNat (fun x =>
    answer { s with link := { s.link with sessions := mput s.link.sessions n.toNat { x with beat := s.now } } } x.tr "HEARTBEAT_ACK" [])))

/-- HEARTBEAT_LOSS (R458). -/
def execHeartbeatLoss (t : Nat) (n : BitVec 3) (s : State) : Result := .next (heartbeatLost (at_ s t) n.toNat)

/-- IDE_KEY_PROGRAM (R460). -/
def execIdeKeyProgram (t : Nat) (h : HeadNo) (mem : Bool) (session : BitVec 3) (key : Bytes) (s : State) : Result :=
  .next (linkWord (at_ s t) (.ideKeyProgram t h mem session key) (fun s => programIde s h.val mem session.toNat key))

/-- MBX_IDENTIFY (R461). -/
def execMbxIdentify (t : Nat) (ld : LdNo) (s : State) : Result :=
  .next (linkWord (at_ s t) (.mbxIdentify t ld) (fun s =>
    onMailbox s ld.toNat (mailboxOk s ld.toNat capacityBody)))

/-- IDENTIFY_MEMORY_DEVICE (R461). -/
def execIdentifyMemoryDevice (t : Nat) (ld : LdNo) (s : State) : Result :=
  .next (linkWord (at_ s t) (.identifyMemoryDevice t ld) (fun s =>
    onMailbox s ld.toNat (mailboxOk s ld.toNat capacityBody)))

/-- GET_SUPPORTED_LOGS: the Command Effects Log only (R461). -/
def execGetSupportedLogs (t : Nat) (ld : LdNo) (s : State) : Result :=
  .next (linkWord (at_ s t) (.getSupportedLogs t ld) (fun s =>
    onMailbox s ld.toNat (mailboxOk s ld.toNat (Config.standardAnswer 1))))

/-- GET_LOG (R461). -/
def execGetLog (t : Nat) (ld : LdNo) (s : State) : Result :=
  .next (linkWord (at_ s t) (.getLog t ld) (fun s =>
    onMailbox s ld.toNat (mailboxOk s ld.toNat (Config.standardAnswer 2))))

/-- GET_POISON_LIST: always empty (R461). -/
def execGetPoisonList (t : Nat) (ld : LdNo) (s : State) : Result :=
  .next (linkWord (at_ s t) (.getPoisonList t ld) (fun s =>
    onMailbox s ld.toNat (mailboxOk s ld.toNat [])))

/-- KALLEK_TUNNEL (R461, R332). -/
def execKallekTunnel (t : Nat) (ld : LdNo) (h : KHdr) (op : Byte) (body : Bytes) (s : State) : Result :=
  .next (settle (linkWord (at_ s t) (.kallekTunnel t ld h op body) (fun s =>
    kallekWord s h (op != 0x14 && op != 0x15) (.kallekTunnel t ld h op body) (fun s => tunnel s ld.toNat h op.toNat body))))

/-- MBX_UNSUPPORTED (R461). -/
def execMbxUnsupported (t : Nat) (ld : LdNo) (opcode : BitVec 16) (s : State) : Result :=
  .next (linkWord (at_ s t) (.mbxUnsupported t ld opcode) (fun s =>
    onMailbox s ld.toNat (emit s (.mailbox (some ld.toNat) "Unsupported" []))))

/-- FM_IDENTIFY (R462). -/
def execFmIdentify (t : Nat) (s : State) : Result :=
  .next (linkWord (at_ s t) (.fmIdentify t) (fun s =>
    onFm s (fmOk s (Config.standardAnswer 3))))

/-- GET_LD_INFO (R462). -/
def execGetLdInfo (t : Nat) (s : State) : Result :=
  .next (linkWord (at_ s t) (.getLdInfo t) (fun s =>
    onFm s (fmOk s (Bytes.ofNatLE 2 16 ++ Bytes.ofNatLE 8 (128 * 2 ^ 20)))))

/-- GET_LD_ALLOCATIONS (R462). -/
def execGetLdAllocations (t : Nat) (h : HeadNo) (s : State) : Result :=
  .next (linkWord (at_ s t) (.getLdAllocations t h) (fun s =>
    onFm s (fmOk s (Bytes.ofNatLE 2 (getHead s h.val).lds ++ Bytes.ofNatLE 8 (128 * 2 ^ 20)))))

/-- SET_LD_ALLOCATIONS (R462). -/
def execSetLdAllocations (t : Nat) (h : HeadNo) (count mib : Nat) (s : State) : Result :=
  .next (linkWord (at_ s t) (.setLdAllocations t h count mib) (fun s => allocate s h.val count mib))

/-- GET_MULTI_HEADED_INFO: four heads, the split in force (R462). -/
def execGetMultiHeadedInfo (t : Nat) (s : State) : Result :=
  .next (linkWord (at_ s t) (.getMultiHeadedInfo t) (fun s =>
    onFm s (fmOk s (Bytes.ofNatLE 1 4 ++ Bytes.ofNatLE 1 s.link.split))))

/-- GET_HEAD_INFO: the training state of each head (R462). -/
def execGetHeadInfo (t : Nat) (s : State) : Result :=
  .next (linkWord (at_ s t) (.getHeadInfo t) (fun s =>
    onFm s (fmOk s ((upTo 4).flatMap (fun h => headBody (getHead s h))))))

/-- GET_QOS_STATUS (R462). -/
def execGetQosStatus (t : Nat) (h : HeadNo) (s : State) : Result :=
  .next (linkWord (at_ s t) (.getQosStatus t h) (fun s =>
    onFm s (fmOk s (Bytes.ofNatLE 1 (averageLoad (getHead s h.val))))))

/-- FM_UNSUPPORTED (R462). -/
def execFmUnsupported (t : Nat) (opcode : BitVec 16) (s : State) : Result :=
  .next (linkWord (at_ s t) (.fmUnsupported t opcode) (fun s =>
    onFm s (emit s (.mailbox none "Unsupported" []))))

/-- ENTDAA (R463). -/
def execEntdaa (t : Nat) (addr : BitVec 7) (s : State) : Result :=
  .next (linkWord (at_ s t) (.entdaa t addr) (fun s =>
    onI3c s (mctpOk { s with link := { s.link with i3c := addr.toNat } } "ENTDAA" provisionalId)))

/-- SET_ENDPOINT_ID (R463). -/
def execSetEndpointId (t : Nat) (eid : Byte) (s : State) : Result :=
  .next (linkWord (at_ s t) (.setEndpointId t eid) (fun s =>
    onI3c s (mctpOk { s with link := { s.link with eid := eid.toNat } } "SET_ENDPOINT_ID" [eid])))

/-- GET_ENDPOINT_ID (R463). -/
def execGetEndpointId (t : Nat) (s : State) : Result :=
  .next (linkWord (at_ s t) (.getEndpointId t) (fun s =>
    onI3c s (mctpOk s "GET_ENDPOINT_ID" (Bytes.ofNatLE 1 s.link.eid))))

/-- GET_ENDPOINT_UUID (R463). -/
def execGetEndpointUuid (t : Nat) (s : State) : Result :=
  .next (linkWord (at_ s t) (.getEndpointUuid t) (fun s =>
    onI3c s (mctpOk s "GET_ENDPOINT_UUID" (Bytes.fit 16 (Config.standardAnswer 4)))))

/-- GET_MCTP_VERSION_SUPPORT (R463). -/
def execGetMctpVersionSupport (t : Nat) (s : State) : Result :=
  .next (linkWord (at_ s t) (.getMctpVersionSupport t) (fun s =>
    onI3c s (mctpOk s "GET_MCTP_VERSION_SUPPORT" (Config.standardAnswer 5))))

/-- GET_MESSAGE_TYPE_SUPPORT: MCTP control, SPDM, secured messages, CXL FM API, Vendor Defined – IANA (R463). -/
def execGetMessageTypeSupport (t : Nat) (s : State) : Result :=
  .next (linkWord (at_ s t) (.getMessageTypeSupport t) (fun s =>
    onI3c s (mctpOk s "GET_MESSAGE_TYPE_SUPPORT" [0x00, 0x05, 0x06, 0x07, 0x7F])))

/-- GET_VENDOR_MESSAGE_SUPPORT: KallekEnterpriseNumber (R463, R467). -/
def execGetVendorMessageSupport (t : Nat) (s : State) : Result :=
  .next (linkWord (at_ s t) (.getVendorMessageSupport t) (fun s =>
    onI3c s (mctpOk s "GET_VENDOR_MESSAGE_SUPPORT" (Bytes.ofNatBE 4 60412))))

/-- GET_VERSION: 1.2 and 1.3 (R456). -/
def execGetVersion (t : Nat) (tr : Transport) (s : State) : Result :=
  .next (linkWord (at_ s t) (.getVersion t tr) (fun s =>
    onTransport s tr (answer s tr "VERSION" [0x12, 0x13])))

/-- NEGOTIATE_ALGORITHMS (R456). -/
def execNegotiateAlgorithms (t : Nat) (tr : Transport) (s : State) : Result :=
  .next (linkWord (at_ s t) (.negotiateAlgorithms t tr) (fun s =>
    onTransport s tr (answer s tr "ALGORITHMS"
    (Bytes.ofText "ECDSA P-384;SHA-384;ECDHE secp384r1;AES-256-GCM;SPDM;Raw bit streams;SHA-384"))))

/-- GET_CERTIFICATE (R456, R265). -/
def execGetCertificate (t : Nat) (tr : Transport) (slot : BitVec 3) (s : State) : Result :=
  .next (linkWord (at_ s t) (.getCertificate t tr slot) (fun s =>
    onTransport s tr (certificate s tr slot.toNat)))

end Sys2Proof.Machine
end

