-- ==== Sys2Proof/Machine/Clocks.lean ====
section
/-! DEFINITION. Words in the channels of islands whose clocks have stopped, and what lets them go on: the return of a clock, the end of a
signature's verification, the end of a device frame (R22, R46, R237, R332, R338, R342). -/

namespace Sys2Proof.Machine

open Sys2Proof

/-! ## Delivery of words that waited (R22, R332) -/

/-- The state after a command; the state before it where it has none. -/
def after (r : Result) (s : State) : State :=
  match r with
  | .next s => s
  | _ => s

/-- A word that waited in a channel arrives: the command that brought it has its effect now. -/
def deliver (c : Instr) (s : State) : State :=
  match c with
  | .segmentEnd t op => after (execSegmentEnd t op s) s
  | .dmaReadCompletion t op data => after (execDmaReadCompletion t op data s) s
  | .dmaCompletionTimeout t op => after (execDmaCompletionTimeout t op s) s
  | .journalReservationDurable t handle => after (execJournalReservationDurable t handle s) s
  | .inlineRequestWrite arr t ld k slot line => after (execInlineRequestWrite arr t ld k slot line s) s
  | .inlineResultRead t ld k slot tag => after (execInlineResultRead t ld k slot tag s) s
  | .inlineDroppedWrite t ld k slot kind off => after (execInlineDroppedWrite t ld k slot kind off s) s
  | .inlineLookup t k slot => after (execInlineLookup t k slot s) s
  | .inlineResultWrite t k slot => after (execInlineResultWrite t k slot s) s
  | .resetDrain t k => after (execResetDrain t k s) s
  | .resetSquash t k => after (execResetSquash t k s) s
  | .doorbell arr t ld k tail full poison => after (execDoorbell arr t ld k tail full poison s) s
  | .ringEntryWrite t ld k entry data full poison => after (execRingEntryWrite t ld k entry data full poison s) s
  | .stagingPageWrite t ld k off data enables poison => after (execStagingPageWrite t ld k off data enables poison s) s
  | .unbackedAccess t ld k off isRead poison tag => after (execUnbackedAccess t ld k off isRead poison tag s) s
  | .registerWrite t ld k off value full poison => after (execRegisterWrite t ld k off value full poison s) s
  | .memInv t ld dpa tag => after (execMemInv t ld dpa tag s) s
  | .conditionedBlock t => after (execConditionedBlock t s) s
  | .islandEpochSwitch t island => after (execIslandEpochSwitch t island s) s
  | .debugAccess t isRead addr len => after (execDebugAccess t isRead addr len s) s
  | .unboundAreaAccess t ld dpa isRead tag => after (execUnboundAreaAccess t ld dpa isRead tag s) s
  | .get t h index sub offset max => after (execGet t h index sub offset max s) s
  | .describe t h index sub => after (execDescribe t h index sub s) s
  | .next t h index sub => after (execNext t h index sub s) s
  | .kallekUnknownOp t h op => after (execKallekUnknownOp t h op s) s
  | .jointOpen t h flags => after (execJointOpen t h flags s) s
  | .jointRead t h index sub offset max => after (execJointRead t h index sub offset max s) s
  | .jointStage t h recs => after (execJointStage t h recs s) s
  | .jointStatement t h => after (execJointStatement t h s) s
  | .jointSign t h custodian sig => after (execJointSign t h custodian sig s) s
  | .jointCommit t h => after (execJointCommit t h s) s
  | .jointAbort t h => after (execJointAbort t h s) s
  | .jointStatus t h => after (execJointStatus t h s) s
  | .configRequest t h tag => after (execConfigRequest t h tag s) s
  | .hdmDecoderCommit t ld base size ways skip => after (execHdmDecoderCommit t ld base size ways skip s) s
  | .msixUnmask t ld entry => after (execMsixUnmask t ld entry s) s
  | .doeDiscovery t tr => after (execDoeDiscovery t tr s) s
  | .cdatTableAccess t ld => after (execCdatTableAccess t ld s) s
  | .getMeasurements t tr first last signed => after (execGetMeasurements t tr first last signed s) s
  | .challenge t tr => after (execChallenge t tr s) s
  | .keyExchange t tr key => after (execKeyExchange t tr key s) s
  | .endSession t n => after (execEndSession t n s) s
  | .heartbeat t n => after (execHeartbeat t n s) s
  | .ideKeyProgram t h mem session key => after (execIdeKeyProgram t h mem session key s) s
  | .mbxIdentify t ld => after (execMbxIdentify t ld s) s
  | .identifyMemoryDevice t ld => after (execIdentifyMemoryDevice t ld s) s
  | .getSupportedLogs t ld => after (execGetSupportedLogs t ld s) s
  | .getLog t ld => after (execGetLog t ld s) s
  | .getPoisonList t ld => after (execGetPoisonList t ld s) s
  | .kallekTunnel t ld h op body => after (execKallekTunnel t ld h op body s) s
  | .mbxUnsupported t ld opcode => after (execMbxUnsupported t ld opcode s) s
  | .fmIdentify t => after (execFmIdentify t s) s
  | .getLdInfo t => after (execGetLdInfo t s) s
  | .getLdAllocations t h => after (execGetLdAllocations t h s) s
  | .setLdAllocations t h count mib => after (execSetLdAllocations t h count mib s) s
  | .getMultiHeadedInfo t => after (execGetMultiHeadedInfo t s) s
  | .getHeadInfo t => after (execGetHeadInfo t s) s
  | .getQosStatus t h => after (execGetQosStatus t h s) s
  | .fmUnsupported t opcode => after (execFmUnsupported t opcode s) s
  | .entdaa t addr => after (execEntdaa t addr s) s
  | .setEndpointId t eid => after (execSetEndpointId t eid s) s
  | .getEndpointId t => after (execGetEndpointId t s) s
  | .getEndpointUuid t => after (execGetEndpointUuid t s) s
  | .getMctpVersionSupport t => after (execGetMctpVersionSupport t s) s
  | .getMessageTypeSupport t => after (execGetMessageTypeSupport t s) s
  | .getVendorMessageSupport t => after (execGetVendorMessageSupport t s) s
  | .getVersion t tr => after (execGetVersion t tr s) s
  | .negotiateAlgorithms t tr => after (execNegotiateAlgorithms t tr s) s
  | .getCertificate t tr slot => after (execGetCertificate t tr slot s) s
  | _ => s

/-- Every word that waits is offered again, in the order in which they came; one that still cannot go on waits on. -/
def redeliver (s : State) : State := each s.link.stalled { s with link := { s.link with stalled := [] } } (fun s c => deliver c s)

/-! ## The return of a stopped clock (R22, R237) -/

/-- What runs on a bay's clock resumes where it stopped: its fixed points, counted in clocks, are so much later (R22, R219, R237). -/
def lateOutcome (d : Nat) (x : Outcome) : Outcome := { x with due := x.due + d, roundT := x.roundT.map (· + d) }

def lateRing (b d : Nat) (o : RingOp) : RingOp :=
  if o.bay = b ∧ o.stage = .running then { o with t0 := o.t0 + d, outcome := o.outcome.map (lateOutcome d) } else o

def lateLane (b d : Nat) (o : LaneOp) : LaneOp := if laneBay o.lane = b then { o with outcome := o.outcome.map (lateOutcome d) } else o

/-- The work of a bay goes on, late. -/
def resumeBay (s : State) (b d : Nat) : State :=
  each (s.insts.map (·.1)) s (fun s i => modInst s i (fun x =>
    { x with ops := x.ops.map (lateRing b d), slots := x.slots.map (fun e => (e.1, { e.2 with op := e.2.op.map (lateLane b d) })) }))

/-- A BNC that needs recovery releases nothing of what it ran (R233, R237). -/
def abandonBay (s : State) (b : Nat) : State :=
  each (s.insts.map (·.1)) s (fun s i => each ((getInst s i).ops.filter (fun o => o.bay == b && o.stage == .running)) s (fun s o => endEarly s i o 0x0801))

/-- A stopped clock returns: what stood in its channels goes on (R22), late by the time it stood still. Whether a BNC bay needs recovery
is left open, a free value (R237; log entries 3, 204). A bay that its fault took out asks for its seed. -/
def clockReturns (s : State) (island : Nat) : State :=
  let t := mget 0 s.link.clockStops island
  if t = 0 then s
  else
    let s := { s with link := { s.link with clockStops := mdel s.link.clockStops island
                                            outMark := if island = islLink then none else s.link.outMark } }
    if island < 5 then s
    else
      let b := island - 5
      let recover := isBncBay b && Config.freeNat s.free % 2 == 1
      let s := { s with free := s.free + bit (isBncBay b) }
      let s := if recover then abandonBay s b else resumeBay s b (s.now + 1 - t)
      let x := getBay s b
      if x.st = 2 ∧ x.why = .fault ∧ s.random.on then requestSeed s 1 (.inst b) 3 else s

/-! ## Meanings -/

/-- ISLAND_CLOCK_RETURN (R22). -/
def execIslandClockReturn (t : Nat) (island : Fin 33) (s : State) : Result := .next (redeliver (clockReturns (at_ s t) island.val))

/-- JOINT_SIGN_VERIFIED (R338, R342): the requests of its path that wait behind it follow (R332). -/
def execJointSignVerified (t : Nat) (slot : BitVec 6) (s : State) : Result :=
  .next (redeliver (settle (clocked (at_ s t) [islControl] (fun s => signVerified s slot.toNat))))

/-- FRAME_END (R46). -/
def execFrameEnd (t : Nat) (s : State) : Result := .next (redeliver (framesEnd (at_ s t)))

end Sys2Proof.Machine
end

