-- ==== Sys2Proof/Machine/Dispatch.lean ====
section
/-! DEFINITION. One arm per command of the opcode table. -/

namespace Sys2Proof.Machine

open Sys2Proof

def exec (i : Instr) (s : State) : Host.Outcome State Fault Refusal :=
  match i with
  | .pwrGoodAssert t => Sys2Proof.Machine.execPwrGoodAssert t s
  | .startupStepDone t env => Sys2Proof.Machine.execStartupStepDone t env s
  | .enrolRetry t env nets => Sys2Proof.Machine.execEnrolRetry t env nets s
  | .pwrGoodDeassert t lowNs => Sys2Proof.Machine.execPwrGoodDeassert t lowNs s
  | .backupSwitchover t belowNs => Sys2Proof.Machine.execBackupSwitchover t belowNs s
  | .resetNAssert t widthNs => Sys2Proof.Machine.execResetNAssert t widthNs s
  | .thermtrip t => Sys2Proof.Machine.execThermtrip t s
  | .inlineRequestWrite arr t ld k slot line => Sys2Proof.Machine.execInlineRequestWrite arr t ld k slot line s
  | .inlineResultRead t ld k slot tag => Sys2Proof.Machine.execInlineResultRead t ld k slot tag s
  | .inlineDroppedWrite t ld k slot kind off => Sys2Proof.Machine.execInlineDroppedWrite t ld k slot kind off s
  | .inlineIdleHoldExpiry t k slot => Sys2Proof.Machine.execInlineIdleHoldExpiry t k slot s
  | .inlineLookup t k slot => Sys2Proof.Machine.execInlineLookup t k slot s
  | .inlineResultWrite t k slot => Sys2Proof.Machine.execInlineResultWrite t k slot s
  | .doorbell arr t ld k tail full poison => Sys2Proof.Machine.execDoorbell arr t ld k tail full poison s
  | .ringEntryWrite t ld k entry data full poison => Sys2Proof.Machine.execRingEntryWrite t ld k entry data full poison s
  | .stagingPageWrite t ld k off data enables poison => Sys2Proof.Machine.execStagingPageWrite t ld k off data enables poison s
  | .unbackedAccess t ld k off isRead poison tag => Sys2Proof.Machine.execUnbackedAccess t ld k off isRead poison tag s
  | .memSpecRd t ld dpa => Sys2Proof.Machine.execMemSpecRd t ld dpa s
  | .memInv t ld dpa tag => Sys2Proof.Machine.execMemInv t ld dpa tag s
  | .admissionRoundEnd t => Sys2Proof.Machine.execAdmissionRoundEnd t s
  | .frameEnd t => Sys2Proof.Machine.execFrameEnd t s
  | .nop t op => Sys2Proof.Machine.execNop t op s
  | .routeLookup t op => Sys2Proof.Machine.execRouteLookup t op s
  | .pinXlate t op => Sys2Proof.Machine.execPinXlate t op s
  | .pinVerify t op => Sys2Proof.Machine.execPinVerify t op s
  | .dvvGen t op => Sys2Proof.Machine.execDvvGen t op s
  | .dvvVerify t op => Sys2Proof.Machine.execDvvVerify t op s
  | .macRetailGen t op => Sys2Proof.Machine.execMacRetailGen t op s
  | .macRetailVerify t op => Sys2Proof.Machine.execMacRetailVerify t op s
  | .cmacGen t op => Sys2Proof.Machine.execCmacGen t op s
  | .cmacVerify t op => Sys2Proof.Machine.execCmacVerify t op s
  | .macGen t op => Sys2Proof.Machine.execMacGen t op s
  | .macVerify t op => Sys2Proof.Machine.execMacVerify t op s
  | .cipherEcb t op => Sys2Proof.Machine.execCipherEcb t op s
  | .cipherCbc t op => Sys2Proof.Machine.execCipherCbc t op s
  | .cipherCfb8 t op => Sys2Proof.Machine.execCipherCfb8 t op s
  | .cipherCfb128 t op => Sys2Proof.Machine.execCipherCfb128 t op s
  | .cipherOfb t op => Sys2Proof.Machine.execCipherOfb t op s
  | .cipherCtr t op => Sys2Proof.Machine.execCipherCtr t op s
  | .cipherGcm t op => Sys2Proof.Machine.execCipherGcm t op s
  | .random t op => Sys2Proof.Machine.execRandom t op s
  | .dukptDecrypt t op => Sys2Proof.Machine.execDukptDecrypt t op s
  | .emvArqc t op => Sys2Proof.Machine.execEmvArqc t op s
  | .ecdsaSign t op => Sys2Proof.Machine.execEcdsaSign t op s
  | .ecdsaVerify t op => Sys2Proof.Machine.execEcdsaVerify t op s
  | .ed25519Sign t op => Sys2Proof.Machine.execEd25519Sign t op s
  | .ed25519Verify t op => Sys2Proof.Machine.execEd25519Verify t op s
  | .ecdhP256 t op => Sys2Proof.Machine.execEcdhP256 t op s
  | .rsaPrivate t op => Sys2Proof.Machine.execRsaPrivate t op s
  | .rsaPublic t op => Sys2Proof.Machine.execRsaPublic t op s
  | .mlkemEncaps t op => Sys2Proof.Machine.execMlkemEncaps t op s
  | .mlkemDecaps t op => Sys2Proof.Machine.execMlkemDecaps t op s
  | .mldsaSign t op => Sys2Proof.Machine.execMldsaSign t op s
  | .mldsaVerify t op => Sys2Proof.Machine.execMldsaVerify t op s
  | .kum t op => Sys2Proof.Machine.execKum t op s
  | .unwrap t op => Sys2Proof.Machine.execUnwrap t op s
  | .mldsaAttemptEnd t op => Sys2Proof.Machine.execMldsaAttemptEnd t op s
  | .segmentEnd t op => Sys2Proof.Machine.execSegmentEnd t op s
  | .kumCut t op => Sys2Proof.Machine.execKumCut t op s
  | .dmaReadCompletion t op data => Sys2Proof.Machine.execDmaReadCompletion t op data s
  | .dmaCompletionTimeout t op => Sys2Proof.Machine.execDmaCompletionTimeout t op s
  | .periodicTestStart t bay engine => Sys2Proof.Machine.execPeriodicTestStart t bay engine s
  | .reactiveTestStart t bay call => Sys2Proof.Machine.execReactiveTestStart t bay call s
  | .engineTestEnd t bay engine pass => Sys2Proof.Machine.execEngineTestEnd t bay engine pass s
  | .bayLeave t bay => Sys2Proof.Machine.execBayLeave t bay s
  | .bayReturn t bay => Sys2Proof.Machine.execBayReturn t bay s
  | .journalReservationDurable t handle => Sys2Proof.Machine.execJournalReservationDurable t handle s
  | .journalFlushStart t => Sys2Proof.Machine.execJournalFlushStart t s
  | .journalFlushDone t ok => Sys2Proof.Machine.execJournalFlushDone t ok s
  | .journalFlushRetry t => Sys2Proof.Machine.execJournalFlushRetry t s
  | .keyLogFlushDone t ok => Sys2Proof.Machine.execKeyLogFlushDone t ok s
  | .routeBlockReturn t => Sys2Proof.Machine.execRouteBlockReturn t s
  | .evictionReseed t => Sys2Proof.Machine.execEvictionReseed t s
  | .noiseWindowEnd t ch samples => Sys2Proof.Machine.execNoiseWindowEnd t ch samples s
  | .channelFail t ch apt => Sys2Proof.Machine.execChannelFail t ch apt s
  | .channelRetest t ch => Sys2Proof.Machine.execChannelRetest t ch s
  | .channelStartupTestEnd t ch samples => Sys2Proof.Machine.execChannelStartupTestEnd t ch samples s
  | .conditionedBlock t => Sys2Proof.Machine.execConditionedBlock t s
  | .drbgGenerateDone t bay => Sys2Proof.Machine.execDrbgGenerateDone t bay s
  | .drbgReseed t bay => Sys2Proof.Machine.execDrbgReseed t bay s
  | .stopHoldExpiry t => Sys2Proof.Machine.execStopHoldExpiry t s
  | .conditionerKatDone t pass => Sys2Proof.Machine.execConditionerKatDone t pass s
  | .drbgKatDone t bay pass => Sys2Proof.Machine.execDrbgKatDone t bay pass s
  | .remaskPassStart t vault => Sys2Proof.Machine.execRemaskPassStart t vault s
  | .remaskPassEnd t vault => Sys2Proof.Machine.execRemaskPassEnd t vault s
  | .keyclockTick t => Sys2Proof.Machine.execKeyclockTick t s
  | .resetDrain t k => Sys2Proof.Machine.execResetDrain t k s
  | .resetSquash t k => Sys2Proof.Machine.execResetSquash t k s
  | .resetDrainDeadline t k => Sys2Proof.Machine.execResetDrainDeadline t k s
  | .resetReport t k => Sys2Proof.Machine.execResetReport t k s
  | .freezeComplete t k => Sys2Proof.Machine.execFreezeComplete t k s
  | .migrateOfferReady t k => Sys2Proof.Machine.execMigrateOfferReady t k s
  | .migrateOfferExpiry t k => Sys2Proof.Machine.execMigrateOfferExpiry t k s
  | .migrateBlobReady t k => Sys2Proof.Machine.execMigrateBlobReady t k s
  | .ldFunctionLevelReset t ld => Sys2Proof.Machine.execLdFunctionLevelReset t ld s
  | .perstAssert t h => Sys2Proof.Machine.execPerstAssert t h s
  | .linkDown t h => Sys2Proof.Machine.execLinkDown t h s
  | .linkUp t h speed width flitMode => Sys2Proof.Machine.execLinkUp t h speed width flitMode s
  | .configRequest t h tag => Sys2Proof.Machine.execConfigRequest t h tag s
  | .hdmDecoderCommit t ld base size ways skip => Sys2Proof.Machine.execHdmDecoderCommit t ld base size ways skip s
  | .msixUnmask t ld entry => Sys2Proof.Machine.execMsixUnmask t ld entry s
  | .registerWrite t ld k off value full poison => Sys2Proof.Machine.execRegisterWrite t ld k off value full poison s
  | .get t h index sub offset max => Sys2Proof.Machine.execGet t h index sub offset max s
  | .describe t h index sub => Sys2Proof.Machine.execDescribe t h index sub s
  | .next t h index sub => Sys2Proof.Machine.execNext t h index sub s
  | .kallekUnknownOp t h op => Sys2Proof.Machine.execKallekUnknownOp t h op s
  | .jointOpen t h flags => Sys2Proof.Machine.execJointOpen t h flags s
  | .jointRead t h index sub offset max => Sys2Proof.Machine.execJointRead t h index sub offset max s
  | .jointStage t h recs => Sys2Proof.Machine.execJointStage t h recs s
  | .jointStatement t h => Sys2Proof.Machine.execJointStatement t h s
  | .jointSign t h custodian sig => Sys2Proof.Machine.execJointSign t h custodian sig s
  | .jointSignVerified t slot => Sys2Proof.Machine.execJointSignVerified t slot s
  | .jointCommit t h => Sys2Proof.Machine.execJointCommit t h s
  | .jointAbort t h => Sys2Proof.Machine.execJointAbort t h s
  | .jointStatus t h => Sys2Proof.Machine.execJointStatus t h s
  | .prepareDurable t slot ok => Sys2Proof.Machine.execPrepareDurable t slot ok s
  | .jointCut t slot holding => Sys2Proof.Machine.execJointCut t slot holding s
  | .islandEpochSwitch t island => Sys2Proof.Machine.execIslandEpochSwitch t island s
  | .backupObjectsApplied t => Sys2Proof.Machine.execBackupObjectsApplied t s
  | .cutRecordDurable t => Sys2Proof.Machine.execCutRecordDurable t s
  | .digestPublished t => Sys2Proof.Machine.execDigestPublished t s
  | .jointIdleExpiry t slot => Sys2Proof.Machine.execJointIdleExpiry t slot s
  | .plumbRun t => Sys2Proof.Machine.execPlumbRun t s
  | .islandSweep t island mismatch => Sys2Proof.Machine.execIslandSweep t island mismatch s
  | .shutdownReady t => Sys2Proof.Machine.execShutdownReady t s
  | .monitorEvent t sense => Sys2Proof.Machine.execMonitorEvent t sense s
  | .decisionIntervalEnd t => Sys2Proof.Machine.execDecisionIntervalEnd t s
  | .monitorTestEnd t m pass => Sys2Proof.Machine.execMonitorTestEnd t m pass s
  | .meshCheck t nets => Sys2Proof.Machine.execMeshCheck t nets s
  | .meshPatternReseed t => Sys2Proof.Machine.execMeshPatternReseed t s
  | .envAuth t env => Sys2Proof.Machine.execEnvAuth t env s
  | .envAuthRetry t env => Sys2Proof.Machine.execEnvAuthRetry t env s
  | .envEnrolment t env nets => Sys2Proof.Machine.execEnvEnrolment t env nets s
  | .tamperInEdge t input widthNs => Sys2Proof.Machine.execTamperInEdge t input widthNs s
  | .backupCheck t nets kelvin cellMv levels => Sys2Proof.Machine.execBackupCheck t nets kelvin cellMv levels s
  | .backupWatchEvent t sense cellPresent => Sys2Proof.Machine.execBackupWatchEvent t sense cellPresent s
  | .serviceWindowExpiry t => Sys2Proof.Machine.execServiceWindowExpiry t s
  | .envLifeAccrual t => Sys2Proof.Machine.execEnvLifeAccrual t s
  | .lcFuseSequenceDone t unburnt => Sys2Proof.Machine.execLcFuseSequenceDone t unburnt s
  | .debugChallengeReady t => Sys2Proof.Machine.execDebugChallengeReady t s
  | .debugChallengeExpiry t => Sys2Proof.Machine.execDebugChallengeExpiry t s
  | .fwManifestChecked t => Sys2Proof.Machine.execFwManifestChecked t s
  | .fwStageBlock t data => Sys2Proof.Machine.execFwStageBlock t data s
  | .fwBlockWritten t data => Sys2Proof.Machine.execFwBlockWritten t data s
  | .fwSwitch t => Sys2Proof.Machine.execFwSwitch t s
  | .fwPartSwap t bay => Sys2Proof.Machine.execFwPartSwap t bay s
  | .acuDrainEnd t => Sys2Proof.Machine.execAcuDrainEnd t s
  | .debugAccess t isRead addr len => Sys2Proof.Machine.execDebugAccess t isRead addr len s
  | .evrSecondEnd t => Sys2Proof.Machine.execEvrSecondEnd t s
  | .doeDiscovery t tr => Sys2Proof.Machine.execDoeDiscovery t tr s
  | .cdatTableAccess t ld => Sys2Proof.Machine.execCdatTableAccess t ld s
  | .getMeasurements t tr first last signed => Sys2Proof.Machine.execGetMeasurements t tr first last signed s
  | .challenge t tr => Sys2Proof.Machine.execChallenge t tr s
  | .keyExchange t tr key => Sys2Proof.Machine.execKeyExchange t tr key s
  | .endSession t n => Sys2Proof.Machine.execEndSession t n s
  | .heartbeat t n => Sys2Proof.Machine.execHeartbeat t n s
  | .heartbeatLoss t n => Sys2Proof.Machine.execHeartbeatLoss t n s
  | .ideKeyProgram t h mem session key => Sys2Proof.Machine.execIdeKeyProgram t h mem session key s
  | .mbxIdentify t ld => Sys2Proof.Machine.execMbxIdentify t ld s
  | .identifyMemoryDevice t ld => Sys2Proof.Machine.execIdentifyMemoryDevice t ld s
  | .getSupportedLogs t ld => Sys2Proof.Machine.execGetSupportedLogs t ld s
  | .getLog t ld => Sys2Proof.Machine.execGetLog t ld s
  | .getPoisonList t ld => Sys2Proof.Machine.execGetPoisonList t ld s
  | .kallekTunnel t ld h op body => Sys2Proof.Machine.execKallekTunnel t ld h op body s
  | .mbxUnsupported t ld opcode => Sys2Proof.Machine.execMbxUnsupported t ld opcode s
  | .fmIdentify t => Sys2Proof.Machine.execFmIdentify t s
  | .getLdInfo t => Sys2Proof.Machine.execGetLdInfo t s
  | .getLdAllocations t h => Sys2Proof.Machine.execGetLdAllocations t h s
  | .setLdAllocations t h count mib => Sys2Proof.Machine.execSetLdAllocations t h count mib s
  | .getMultiHeadedInfo t => Sys2Proof.Machine.execGetMultiHeadedInfo t s
  | .getHeadInfo t => Sys2Proof.Machine.execGetHeadInfo t s
  | .getQosStatus t h => Sys2Proof.Machine.execGetQosStatus t h s
  | .fmUnsupported t opcode => Sys2Proof.Machine.execFmUnsupported t opcode s
  | .entdaa t addr => Sys2Proof.Machine.execEntdaa t addr s
  | .setEndpointId t eid => Sys2Proof.Machine.execSetEndpointId t eid s
  | .getEndpointId t => Sys2Proof.Machine.execGetEndpointId t s
  | .getEndpointUuid t => Sys2Proof.Machine.execGetEndpointUuid t s
  | .getMctpVersionSupport t => Sys2Proof.Machine.execGetMctpVersionSupport t s
  | .getMessageTypeSupport t => Sys2Proof.Machine.execGetMessageTypeSupport t s
  | .getVendorMessageSupport t => Sys2Proof.Machine.execGetVendorMessageSupport t s
  | .resetNDeassert t => Sys2Proof.Machine.execResetNDeassert t s
  | .perstDeassert t h => Sys2Proof.Machine.execPerstDeassert t h s
  | .islandClockReturn t island => Sys2Proof.Machine.execIslandClockReturn t island s
  | .bayFrameEnd t bay frame => Sys2Proof.Machine.execBayFrameEnd t bay frame s
  | .fwPartSwapDone t => Sys2Proof.Machine.execFwPartSwapDone t s
  | .unboundAreaAccess t ld dpa isRead tag => Sys2Proof.Machine.execUnboundAreaAccess t ld dpa isRead tag s
  | .getVersion t tr => Sys2Proof.Machine.execGetVersion t tr s
  | .negotiateAlgorithms t tr => Sys2Proof.Machine.execNegotiateAlgorithms t tr s
  | .getCertificate t tr slot => Sys2Proof.Machine.execGetCertificate t tr slot s

end Sys2Proof.Machine
end

