-- ==== Sys2Proof/Safety.lean ====
section
/-! DEFINITION. What counts as a safe run, and the words in which statements about the machine speak: what an answer leaves
alone, and when an access of a host is let through. -/

namespace Sys2Proof.Safety

open Sys2Proof Sys2Proof.Machine

/-- A step that does not stop. -/
def Runs (s : State) : Prop := ∃ t, step s = .next t

/-- `u` is `w` but for what the recording of an event or of a change of modes may write: the modes last recorded, the
dictionary's counters and the event recorder (R352, R431). -/
def Beside (w u : State) : Prop :=
  u = { w with power := { w.power with modes := u.power.modes }, cnt := u.cnt, evr := u.evr }

/-- `u` is `w` but for the dictionary's counters and the event recorder. -/
def Noted (w u : State) : Prop := u = { w with cnt := u.cnt, evr := u.evr }

/-- `u` is `w` but for instance `i`. -/
def OnlyInst (i : Nat) (w u : State) : Prop := ∃ x, u = setInst w i x

/-- A host access of an LD to an offset in an instance's area is let through: the area is reached, and no rule of the
access-control unit and no lack of a link key denies it, and link and hub island have their clocks (R22, R298, R422, R460). -/
def Lets (s : State) (ld i off : Nat) (isRead : Bool) : Prop :=
  portRuns s = true ∧ reaches s ld i = true ∧ ldDenied s ld i off isRead = none

/-- What a loss of main power leaves: no start, no resident key, no cache, no open joint, no session, no debug session, no bay and
only saved instances; what the vault, the fuses and flash hold stays, but for the words that a burning cut short leaves open (R398);
messages still in a channel go with it (R22, R235, R363, R477). -/
def MainLost (s u : State) : Prop :=
  u.power.step = 0 ∧ u.keys.slots = [] ∧ u.keys.cache = [] ∧ u.keys.deriv = [] ∧ u.ctl.joints = [] ∧ u.link.sessions = [] ∧
  u.bays = [] ∧ u.life.debug = false ∧ (∀ e ∈ u.insts, e.2.st = 5) ∧
  u.vault = s.vault ∧ u.kumCtr = s.kumCtr ∧ u.devCtr = s.devCtr ∧ (s.life.pending = false → u.life.rows = s.life.rows) ∧ u.life.st = s.life.st ∧
  u.ctl.cfgLog = s.ctl.cfgLog ∧ u.ctl.cutRing = s.ctl.cutRing ∧ u.keys.log.halfA = s.keys.log.halfA ∧ u.keys.log.halfB = s.keys.log.halfB ∧
  u.keys.log.queue = s.keys.log.queue ∧ u.keys.journal.halfA = s.keys.journal.halfA ∧ u.keys.journal.halfB = s.keys.journal.halfB ∧
  u.keys.journal.stage = s.keys.journal.stage.filter (·.durable) ∧ u.fw.slots = s.fw.slots ∧ u.outbox = sentOut s

/-- `u` is `w` with the ring operation of `o`'s count in instance `i` become `o`; other operations, the rest of the instance and
everything else stand. -/
def SetsOp (w u : State) (i : Nat) (o : RingOp) : Prop :=
  findOp (getInst u i) o.count = some o ∧ (∀ c, c ≠ o.count → findOp (getInst u i) c = findOp (getInst w i) c) ∧
  u = setInst w i { getInst w i with ops := (getInst u i).ops }

/-- A key of a mismatched word lies in the memory of one of the engines of a bay. -/
def inEngines (b : Nat) (ks : List Nat) (key : Nat) : Bool :=
  ks.any (fun k => decide (wordKey (engineWords b k).1 (engineWords b k).2.1 ≤ key) &&
    decide (key < wordKey (engineWords b k).1 (engineWords b k).2.1 + (engineWords b k).2.2))

/-- `v` is `w` with the segments of `o` on their engines: those of a cipher plan take a free engine each, whose key and data memory
take the segment's content, its words whole again; any other plan changes nothing (R27, R131, R139). -/
def Seated (w v : State) (o : RingOp) : Prop :=
  v = { w with bays := v.bays, free := v.free, bad := w.bad.filter (fun e => !inEngines o.bay (seatsOf w o) e.1) } ∧ (o.plan.kind ≠ .cipher → v = w) ∧ (∀ b, b ≠ o.bay → getBay v b = getBay w b) ∧
  getBay v o.bay = { getBay w o.bay with mem := (getBay v o.bay).mem } ∧
  (∀ k ∈ seatsOf w o, ∃ id, mget {} (getBay v o.bay).mem k =
    { mget {} (getBay w o.bay).mem k with key := .ofOp (dOp o.snap) id, io := .ofOp (dOp o.snap) id }) ∧
  (∀ k, k ∉ seatsOf w o → mget {} (getBay v o.bay).mem k = mget {} (getBay w o.bay).mem k)

/-- The operation with the engines that a cipher plan takes. -/
def onSeats (w : State) (o : RingOp) : RingOp := if o.plan.kind = .cipher then { o with engines := seatsOf w o } else o

/-- The ring operation `o` of instance `i` runs from now on, on its engines, with the verdict `oc` where it has one; a mismatched word
among what it reads is an event of FABRIC, whose source is the island that wrote the word last, and ends it with 0x0801 at once. Nothing
else changes (R28, R122). -/
def Begins (w u : State) (i : Nat) (o : RingOp) (oc : Option Outcome) : Prop :=
  ∃ v, Seated w v o ∧
    (wordBad v i o = none → SetsOp v u i { onSeats w o with stage := .running, t0 := w.now, outcome := oc }) ∧
    (∀ e, wordBad v i o = some e → SetsOp (raiseFabric v (writerOf w e.2 islLink) (5 + o.bay) e.1) u i
      { onSeats w o with stage := .running, t0 := w.now, outcome := some { status := 0x0801, due := w.now } })

/-- The ring operation `o` of instance `i` runs from now on and ends with `oc`, but for a mismatched word that it reads. -/
def Fixes (w u : State) (i : Nat) (o : RingOp) (oc : Outcome) : Prop := Begins w u i o (some oc)

/-- `u` is `w` with the operation in a lane of slot `n` of instance `i` become `o`. -/
def SetsLine (w u : State) (i n : Nat) (o : LaneOp) : Prop :=
  u = setInst w i (setSlot (getInst w i) n { getSlot (getInst w i) n with op := some o })

/-- The line `o` in a lane of slot `n` of instance `i` is packed with the verdict `oc`; a mismatched word of its request line, or of the
lane's own memory, is an event of FABRIC and gives 0x0801 instead. Nothing else changes (R28, R87). -/
def Packs (w u : State) (i n : Nat) (o : LaneOp) (oc : Outcome) : Prop :=
  (wordsFail w memInline (inlineWord i n) 8 = false → engineFails w (laneBay o.lane) (o.lane % 4) = false →
    SetsLine w u i n { o with stage := .packed, outcome := some oc }) ∧
  (wordsFail w memInline (inlineWord i n) 8 = true ∨ engineFails w (laneBay o.lane) (o.lane % 4) = true → ∃ v,
    SetsLine w v i n { o with stage := .packed, look := {}, outcome := some { status := 0x0801, due := w.now } } ∧
    u = if wordsFail w memInline (inlineWord i n) 8 then raiseFabric v islLink (5 + laneBay o.lane) memInline
      else raiseEngine v (laneBay o.lane))

/-- What a claim of a key may change: the guard where the key stands, the journal stage, counters and the recorder (R146, R148). -/
def ClaimFrame (w u : State) : Prop :=
  u = { w with
    keys := { w.keys with slots := u.keys.slots, cache := u.keys.cache, journal := { w.keys.journal with stage := u.keys.journal.stage } }
    cnt := u.cnt, evr := u.evr }

/-- What the end of a ring operation may change beside its instance: shelf entries that no operation needs any more, MSI-X messages
and pending bits, counters, the mismatches of the words it wrote over, and their sources (R27, R123, R124, R205). -/
def EndFrame (i : Nat) (w u : State) : Prop :=
  u = { w with
    insts := u.insts, cnt := u.cnt, outbox := u.outbox, bad := u.bad, writers := u.writers, keys := { w.keys with cache := u.keys.cache }
    link := { w.link with msixPend := u.link.msixPend } } ∧
  (∀ j, j ≠ i → getInst u j = getInst w j) ∧ (∀ m ∈ w.outbox, m ∈ u.outbox)

/-- The ring operation `o` of instance `i` has ended with the completion entry `e`: it is owned no more, its entry stands in the ring
at its count, every other entry stands, and H is the lowest count still owned (R101, R111, R123). -/
def Ended (w u : State) (i : Nat) (o : RingOp) (e : Bytes) : Prop :=
  findOp (getInst u i) o.count = none ∧
  mget [] (getInst u i).ring (o.count % max (ringEntries w.ctl.cfg i) 1) = e ∧
  (∀ k, k ≠ o.count % max (ringEntries w.ctl.cfg i) 1 → mget [] (getInst u i).ring k = mget [] (getInst w i).ring k) ∧
  (getInst u i).h = headAfter (getInst u i) ∧ (getInst u i).s = (getInst w i).s

/-- What a ring operation comes to by itself: a DMA error takes the place of success (R127). -/
def baseStatus (o : RingOp) (oc : Outcome) : Nat := if o.dmaFault = true ∧ oc.status ≤ 1 then 0x0207 else oc.status

/-- The status with which it ends at `s`: DONE_LATE in place of DONE after its promised time, or where its data came after its booked
time (R49, R57). -/
def endStatus (s : State) (o : RingOp) (oc : Outcome) : Nat :=
  if baseStatus o oc = 0 ∧ (promised o < s.now ∨ o.suspended = true) then 1 else baseStatus o oc

/-- An instance takes its turn of a round's pass: 512 times its weight is added to its deficit counter (R51). -/
def granted (w : State) (k : Nat) : State := modInst w k (fun x => { x with deficit := x.deficit + schedWeight w.ctl.cfg k * 512 })

/-- The one descriptor of an instance that a round decides is taken off its counter and decided, and the counter is set to 0 (R51). -/
def taken (w : State) (k : Nat) (q : RingOp) : State :=
  modInst (decide1 (modInst w k (fun x => { x with deficit := x.deficit - orderCost w k q })) k q) k (fun x => { x with deficit := 0 })

/-- Output that the operation `o` has produced and not sent yet goes to its host region, and nothing else changes; nothing goes while a
reservation holds it, after an error of its requests, or without a host region; where a user rule denies the read of its engines' buffers
the operation ends with 0x0801, at once where its requests have retired (R126, R149, R424). -/
def Sends (w u : State) (i : Nat) (o : RingOp) : Prop :=
  ∀ out, out = produced w i o →
    (o.waits ≠ [] ∨ o.dmaFault = true ∨ out.length ≤ o.sent ∨ hostRegion o out = none → u = w) ∧
    (∀ r, o.waits = [] → o.dmaFault = false → o.sent < out.length → hostRegion o out = some r →
      (decidingOver w dmaMaster (dmaRanges o) true = none →
        SetsOp (hostWrites w o (r.ref + o.sent) (out.drop o.sent)) u i { o with sent := out.length }) ∧
      (∀ hit, decidingOver w dmaMaster (dmaRanges o) true = some hit → o.reads = 0 → o.readBack = false → o.stage ≠ .atHub →
        Ended w u i o (completionEntry (ringEntries w.ctl.cfg i) o 0x0801 o.att.epoch o.bay 0 0 (w.now - o.arr) [])))

/-- The ring operation `o` of instance `i` has ended with its verdict `oc`: its completion entry, with result and out_len on success
only; its staged output, on success only and in no other byte; cipher engines zeroed, and key areas of its BNCs (R133, R234); the
derivation-cache entry that the verdict rewrites, on success only (R179). Other instances stand, and but for a key update message cut
short nothing else changes beside books, counters, recorder, messages, shelf entries, and free values drawn (R108, R111, R112). -/
def Finishes (w u : State) (i : Nat) (o : RingOp) (oc : Outcome) : Prop :=
  Ended w u i o (completionEntry (ringEntries w.ctl.cfg i) o (endStatus w o oc) o.att.epoch o.bay 0
    (if baseStatus o oc = 0 then oc.outLen else 0) (w.now - o.arr)
    (routeRes o (endStatus w o oc) (if baseStatus o oc = 0 then oc.res else []))) ∧
  (baseStatus o oc = 0 → ∀ r, outRegion o.snap 0 = some r → r.host = false → ∀ a,
    (r.ref ≤ a → a < r.ref + oc.out.length → Memory.read (getInst u i).staging a = Bytes.at' oc.out (a - r.ref)) ∧
    (a < r.ref ∨ r.ref + oc.out.length ≤ a → Memory.read (getInst u i).staging a = Memory.read (getInst w i).staging a)) ∧
  (baseStatus o oc ≠ 0 ∨ (outRegion o.snap 0).all (·.host) = true → (getInst u i).staging = (getInst w i).staging) ∧
  (o.plan.kind = .cipher → ∀ k ∈ ownEngines w i o, mget {} (getBay u o.bay).mem k = {}) ∧
  (o.plan.kind ≠ .cipher → ∀ k ∈ ownEngines w i o, (mget {} (getBay u o.bay).mem k).key = .zero) ∧
  (∀ term d, baseStatus o oc = 0 → oc.deriv = some (term, d) → mfind u.keys.deriv term = some { d with written := w.now }) ∧
  (baseStatus o oc ≠ 0 ∨ oc.deriv = none → u.keys.deriv = w.keys.deriv) ∧
  (getInst u i).slots = (getInst w i).slots ∧ (∀ j, j ≠ i → getInst u j = getInst w j) ∧ (∀ m ∈ w.outbox, m ∈ u.outbox) ∧
  ((dOp o.snap = 0x70 → baseStatus o oc ≠ 0 → o.kumVerified = true → o.kumCutDone = true) →
    u = { w with
      insts := u.insts, bays := u.bays, sched := { w.sched with dma := u.sched.dma }, cnt := u.cnt, evr := u.evr, outbox := u.outbox
      bad := u.bad, writers := u.writers, free := u.free, link := { w.link with msixPend := u.link.msixPend }
      keys := { w.keys with cache := u.keys.cache, deriv := u.keys.deriv, slotMask := u.keys.slotMask } })

end Sys2Proof.Safety

namespace Sys2Proof.Machine

open Sys2Proof

/-- An instance context in order: a state of R301, and staging memory in canonical form. -/
def InstOk (x : Inst) : Prop := x.st ≤ 5 ∧ Memory.wf x.staging = true

/-- A bay in one of the states of R67. -/
def BayOk (x : Bay) : Prop := x.st ≤ 2

/-- The tables of the machine in order: instances and bays listed once each and in order, the life cycle in a state of R396, the
thermometer of R413 within its 64 bits, the start at a step of R361, and device time in its 64 bits (R6). -/
structure Legal (s : State) : Prop where
  insts : ∀ e ∈ s.insts, InstOk e.2
  rising : mrising s.insts = true
  bays : ∀ e ∈ s.bays, BayOk e.2
  bayRising : mrising s.bays = true
  life : s.life.st ≤ 5
  otp : s.life.otpSecurity ≤ 64
  step : s.power.step ≤ 12
  now : s.now < 2 ^ 64

end Sys2Proof.Machine
end

