-- ==== Sys2Proof/Certificates/Slice0/Obligations.lean ====
section
/-! DEFINITION. The statements about the machine, for the provers. -/

open Sys2Proof Sys2Proof.Machine Sys2Proof.Safety

/-- For every command c and state s, a step of s with c at the front of its queue is exec of c on s with the rest of the queue.
A step on an empty queue answers the same state, which is the choice of log entry 1, not a rule of the manual (00_scope.md,
02_timing_promise.md). -/
def Obligations.StepRunsFront : Prop :=
  (∀ (s : State) (c : Instr) (rest : List Instr), step { s with pending := c :: rest } = exec c { s with pending := rest }) ∧
    (∀ s : State, s.pending = [] → step s = .next s)

/-- From every legal state every step answers a next state, which is legal again: instances and bays stay listed once each in
order, instance states, bay states, the life cycle, the OTP thermometer, the step of the start and device time stay in their
ranges, and every staging memory keeps its canonical form (11_instances.md, 13_modes_startup.md, 15_lifecycle_firmware.md,
03_inline_answers.md). -/
def Obligations.StepAnswersLegal : Prop :=
  ∀ s : State, Legal s → ∃ t, step s = .next t ∧ Legal t

/-- No command adds, removes or reorders waiting commands, and device time after a step is not before it (02_timing_promise.md). -/
def Obligations.StepTakesFrontOnly : Prop :=
  ∀ s : State, Legal s → ∃ t, step s = .next t ∧ t.pending = s.pending.tail ∧ s.now ≤ t.now

/-- The invariant of StepAnswersLegal holds at reset. After reset no start runs and main power is absent, every instance is
UNASSIGNED with an empty ring and idle slots, every bay shows the default of its BayState (R67; log entry 4), no monitor is
latched and no class executed, the root is absent, no slot holds a key, no joint is open, no head is trained, the recorder is
empty, and no command waits. That the machine is the die as it leaves the wafer, in state RAW, is the choice of log entry 4
(11_instances.md, 13_modes_startup.md, 10_keys.md, 15_lifecycle_firmware.md). -/
def Obligations.ResetIsLegal : Prop :=
  Legal State.reset ∧
    State.reset.power.step = 0 ∧ State.reset.power.pwrGood = false ∧ State.reset.life.st = 0 ∧ State.reset.vault.rootAbsent = true ∧
    State.reset.alarm.executed = 0xFF ∧ State.reset.evr.head = 0 ∧ State.reset.evr.ring = [] ∧ State.reset.pending = [] ∧
    (∀ i, (getInst State.reset i).st = 0 ∧ (getInst State.reset i).ops = [] ∧ ∀ n, (getSlot (getInst State.reset i) n).st = .idle) ∧
    (∀ b, (getBay State.reset b).st = 0) ∧ (∀ m, (getMon State.reset m).latched = false) ∧
    (∀ h, (slotAt State.reset h).key = none) ∧ (∀ n, jointOpen (getJoint State.reset n) = false) ∧ (∀ h, (getHead State.reset h).st = 0)

/-- When PWR_GOOD is asserted with RESET_N deasserted, or RESET_N is deasserted with PWR_GOOD asserted and no thermal trip
standing, PWR_GOOD_ASSERT and RESET_N_DEASSERT complete: step 1 of a start runs from that time, StartupCount advances by one,
the bays hold what a start gives them (operand memories that TEST owns), XSPI_RESET_N is low, and EvrHeadSeq resumes at
EvrSeqMark, which is raised by 2^20; besides these, the modes last recorded, the counters and the recorder nothing changes
(13_modes_startup.md, 16_access_events.md, 18_electrical.md). -/
def Obligations.PowerBeginsAStart : Prop :=
  ∀ (s : State) (t : Nat),
    (s.power.pwrGood = false → s.power.resetLow = false → ∃ u, exec (.pwrGoodAssert t) s = .next u ∧
      u.evr.head = s.evr.mark ∧ u.evr.mark = s.evr.mark + 2 ^ 20 ∧
      Beside { at_ s t with bays := testBays, power := { s.power with
        pwrGood := true, switched := false, supply := .main, thermtrip := false, step := 1, stop := .running
        startT := (at_ s t).now, startups := s.power.startups + 1, xspiReset := true } } u) ∧
    (s.power.pwrGood = true → s.power.resetLow = true → s.power.thermtrip = false → ∃ u, exec (.resetNDeassert t) s = .next u ∧
      u.evr.head = s.evr.mark ∧ u.evr.mark = s.evr.mark + 2 ^ 20 ∧
      Beside { at_ s t with bays := testBays, power := { s.power with
        resetLow := false, step := 1, stop := .running, startT := (at_ s t).now, startups := s.power.startups + 1
        xspiReset := true } } u)

/-- RESET_N_ASSERT completes: asserted for at least 2,000 ns while PWR_GOOD is asserted it leaves what MainLost says, no bay
holds anything, and latches, tail and supply of the backup domain stand; the start follows RESET_N_DEASSERT. Asserted while
PWR_GOOD is deasserted it changes nothing but the level kept of the pin, and a pulse below 1,000 ns changes nothing. With main
power good, PWR_GOOD deasserted for at least 1,000 ns, VDD_IO below the switchover threshold for at least 1,000 ns (both with an
Envelope seated, whose cell then feeds the backup domain and whose tail then holds at most the records of two changes of modes)
and a thermal trip each leave what MainLost says too. Pulses of PWR_GOOD and VDD_IO below 1,000 ns change nothing. Choices of
the model, not rules of the manual: the filter of RESET_N between the two widths (log entry 111), the level of RESET_N kept
while PWR_GOOD is deasserted (112), the switchover as a loss of main power (113) and what the tail records of the modes (114)
(18_electrical.md, 13_modes_startup.md). -/
def Obligations.MainPowerLost : Prop :=
  ∀ (s : State) (t t' d : Nat),
    (s.power.pwrGood = true → 2000 ≤ d → ∃ u, exec (.resetNAssert t d) s = .next u ∧ MainLost s u ∧
      u.power.resetLow = true ∧ u.power.pwrGood = true ∧ u.power.supply = s.power.supply ∧
      u.backup = { s.backup with window := u.backup.window, authRetry := u.backup.authRetry } ∧
      (s.power.thermtrip = false → ∃ v, exec (.resetNDeassert t') u = .next v ∧ v.power.step = 1 ∧ v.power.resetLow = false ∧
        v.bays = testBays)) ∧
    (s.power.pwrGood = false → 2000 ≤ d →
      exec (.resetNAssert t d) s = .next { at_ s t with power := { s.power with resetLow := true } }) ∧
    (d < 1000 → exec (.resetNAssert t d) s = .next (at_ s t)) ∧
    (s.power.pwrGood = true → 1000 ≤ d → s.backup.contact = true → ∃ u, exec (.pwrGoodDeassert t d) s = .next u ∧ MainLost s u ∧
      u.power.pwrGood = false ∧ u.power.supply = .cell ∧
      u.backup.tail.length ≤ 2 ∧ (∀ r ∈ u.backup.tail, r.code = 0x1104) ∧ u.backup.env = s.backup.env) ∧
    (s.power.pwrGood = true → 1000 ≤ d → s.backup.contact = true → ∃ u, exec (.backupSwitchover t d) s = .next u ∧ MainLost s u ∧
      u.power.pwrGood = false ∧ u.power.switched = true ∧ u.power.supply = .cell) ∧
    (s.power.pwrGood = true → ∃ u, exec (.thermtrip t) s = .next u ∧ MainLost s u ∧ u.power.thermtrip = true) ∧
    (d < 1000 → exec (.pwrGoodDeassert t d) s = .next (at_ s t) ∧ exec (.backupSwitchover t d) s = .next (at_ s t))

/-- While step 2 of a start runs, its end sets LifeCycleState to the vote of the fuse row in force and, unless that is SCRAPPED,
step 3 begins with the duration of step 2 kept in StartupStepUs. While step 9 runs and no root is owed, its end begins step 10
and changes no key, instance or configuration. The end of step 5 checks the vault: a sound one stands and its identity comes
into use, an unsound one leaves no root; the latches that the backup domain kept are set, and step 6 begins. The end of step 10
restores the configuration and its epoch, or rejects the log and keeps the configuration empty; with a root, a journal that is
not the one last written is rejected, and any other gives JournalEpoch. The end of step 11 begins SERVICE: every assigned
instance is ACTIVE and clean, or stays SAVED, with its buckets at their bursts, and no other is assigned. In a start that
enrolment has stopped, an Envelope that passes is enrolled, its record is kept and step 5 begins (13_modes_startup.md,
14_tamper_envelope.md, 15_lifecycle_firmware.md, 10_keys.md, 11_instances.md, 12_dictionary_joints.md, 05_cipher_engines.md). -/
def Obligations.StartStepsRun : Prop :=
  ∀ (s : State) (t : Nat) (env : StepEnv) (a : EnvAnswer) (nets : List NetReading),
    s.power.pwrGood = true → s.power.resetLow = false →
    (s.power.step = 2 → s.power.stop = .running → lcVote (fuseRow s (rowInForce s)) ≠ 5 →
      ∃ u, exec (.startupStepDone t env) s = .next u ∧ u.life.st = lcVote (fuseRow s (rowInForce s)) ∧ u.power.step = 3 ∧
        u.power.stepUs = s.power.stepUs ++ [env.us] ∧ u.vault = s.vault ∧ u.keys = s.keys ∧ u.ctl = s.ctl) ∧
    (s.power.step = 9 → s.power.stop = .running → rootOwed s = false →
      ∃ u, exec (.startupStepDone t env) s = .next u ∧
        Beside { at_ s t with power := { s.power with step := 10, stepUs := s.power.stepUs ++ [env.us] } } u) ∧
    (s.power.step = 5 → s.power.stop = .running →
      ∃ u, exec (.startupStepDone t env) s = .next u ∧ u.power.step = 6 ∧ u.backup = s.backup ∧
        (vaultSound s = true → u.vault = s.vault ∧ u.keys.identity = some (Bytes.ofNatBE 48 (identityScalar s.vault.root))) ∧
        (vaultSound s = false → u.vault = { s.vault with rootAbsent := true } ∧ u.keys = s.keys) ∧
        (∀ m, m < 14 → bitOf s.backup.latch.mons m = true → (getMon u m).latched = true)) ∧
    (s.power.step = 10 → s.power.stop = .running → ∀ best, best = env.cfgLogSeen.getD (devCounter s 51) →
      ∃ u, exec (.startupStepDone t env) s = .next u ∧ u.power.step = 11 ∧
        (epochOk (devCounter s 51) best = true →
          u.ctl.cfg = (replayCfg (readableLog s) s.ctl.cutRing).1 ∧ u.ctl.cfgRejected = s.ctl.cfgRejected ∧
          u.ctl.epoch = devCounter s 1 + (if (replayCfg (readableLog s) s.ctl.cutRing).2 < devCounter s 1 then 1 else 0)) ∧
        (epochOk (devCounter s 51) best = false → u.ctl.cfg = {} ∧ u.ctl.cfgRejected = true ∧ u.ctl.epoch = devCounter s 1) ∧
        (s.vault.rootAbsent = true → u.keys.slots = s.keys.slots) ∧
        (s.vault.rootAbsent = false → s.backup.latch.keysDone = false → ∀ n, n = jourBest (readJournal s env) →
          (epochOk s.vault.journalEpoch n = false → u.keys.journal.rejected = true) ∧
          (epochOk s.vault.journalEpoch n = true → u.vault.journalEpoch = n))) ∧
    (s.power.step = 11 → s.power.stop = .running →
      ∃ u, exec (.startupStepDone t env) s = .next u ∧ u.power.step = 12 ∧ serving u = true ∧
        (∀ i ∈ assignedIn s.ctl.cfg, getInst u i =
          atBursts (at_ s t) i (if (getInst s i).st = 5 then getInst s i else { st := 1 })) ∧
        (∀ i, i ∉ assignedIn s.ctl.cfg → getInst u i = {})) ∧
    (s.power.step = 4 → s.power.stop = .enrolment →
      enrolFails (readEnvelope (at_ s t) a).backup.authCount a nets = none →
      ∃ u, exec (.enrolRetry t a nets) s = .next u ∧ u.power.step = 5 ∧ u.power.stop = .running ∧
        (∃ r, u.backup.env = some r ∧ r.serial = a.serial ∧ r.pubKey = a.pubKey) ∧ u.backup.envGood = true ∧ u.backup.meshFails = [] ∧
        u.vault = s.vault ∧ u.keys = s.keys)

/-- INLINE_REQUEST_WRITE completes for every accepted line. An accepted line in a slot that is not PENDING makes it PENDING with
that line. Where checks 1 to 8 pass and a lane in rotation is ready and has room, that lane takes it: its charge is booked in
the frame of now and taken from the core-time bucket, one submission token is spent, the line stands in the lane's buffer, the
lane becomes the one used last, and beside the instance, the bays, the scheduler, the code of the words written, the model's
counter of free values and the write's completion nothing changes. A line that fails one of the checks is DONE at once with that
check's status and hint, one that finds no lane with 0x0101, and one during a reset with 0x0703. A write to a PENDING slot is
dropped, counts in InlineSlotErrors and changes nothing else. Every such write is completed on the link with DevLoad; that its
completion carries the tag 0 is the choice of log entry 250 (03_inline_answers.md, 02_timing_promise.md, 17_host_link.md). -/
def Obligations.InlineRequestIsTaken : Prop :=
  ∀ (s : State) (arr t : Nat) (ld : LdNo) (i : InstNo) (slot : BitVec 10) (line : Bytes),
    Lets (at_ s t) ld.toNat i.toNat (0x10000 + 128 * slot.toNat) false → slot.toNat < inlineSlots s.ctl.cfg i.toNat →
    ((getSlot (getInst s i.toNat) slot.toNat).st = .pending →
      exec (.inlineRequestWrite arr t ld i slot line) s = .next (answerDone (bump (at_ s t) (instKey i.toNat 0x24)) ld.toNat 0)) ∧
    ((getSlot (getInst s i.toNat) slot.toNat).st ≠ .pending → (getInst s i.toNat).st = 2 →
      (getInst s i.toNat).leaving.contains slot.toNat = false →
      ∃ u, exec (.inlineRequestWrite arr t ld i slot line) s = .next u ∧
        (getSlot (getInst u i.toNat) slot.toNat).st = .done ∧
        (getSlot (getInst u i.toNat) slot.toNat).result =
          resultLine (Bytes.fit 64 line) 0x0703 s.ctl.epoch 0x80 0 ((at_ s t).now - arr) 0 []) ∧
    ((getSlot (getInst s i.toNat) slot.toNat).st ≠ .pending → (getInst s i.toNat).st ≠ 2 → ∀ (w v : State),
      w = refill (setInst (writeWords (at_ s t) memInline (inlineWord i.toNat slot.toNat) 8) i.toNat
        (setSlot (getInst s i.toNat) slot.toNat
          { getSlot (getInst s i.toNat) slot.toNat with st := .pending, req := Bytes.fit 64 line, result := [] })) i.toNat →
      v = modInst w i.toNat (fun x => { x with sub := x.sub - oneToken }) →
      (∀ st hint, lineStatus w i.toNat arr (Bytes.fit 64 line) = (st, hint) → st ≠ 0 →
        (getInst s i.toNat).leaving.contains slot.toNat = false →
        ∃ u, exec (.inlineRequestWrite arr t ld i slot line) s = .next u ∧
          (getSlot (getInst u i.toNat) slot.toNat).st = .done ∧
          (getSlot (getInst u i.toNat) slot.toNat).result =
            resultLine (Bytes.fit 64 line) st s.ctl.epoch 0x80 hint ((at_ s t).now - arr) 0 []) ∧
      (lineStatus w i.toNat arr (Bytes.fit 64 line) = (0, 0) → (getInst s i.toNat).leaving.contains slot.toNat = false →
        (laneRotation v).find? (fun k => laneReady v k && laneRoom v k (lineCharge (lineOfRequest (Bytes.fit 64 line)))) = none →
        ∃ u, exec (.inlineRequestWrite arr t ld i slot line) s = .next u ∧
          (getSlot (getInst u i.toNat) slot.toNat).st = .done ∧
          (getSlot (getInst u i.toNat) slot.toNat).result =
            resultLine (Bytes.fit 64 line) 0x0101 s.ctl.epoch 0x80 1 ((at_ s t).now - arr) 0 []) ∧
      (∀ l, lineStatus w i.toNat arr (Bytes.fit 64 line) = (0, 0) →
        (laneRotation v).find? (fun k => laneReady v k && laneRoom v k (lineCharge (lineOfRequest (Bytes.fit 64 line)))) = some l →
        ∃ u, exec (.inlineRequestWrite arr t ld i slot line) s = .next u ∧
          (getSlot (getInst u i.toNat) slot.toNat).st = .pending ∧
          (getSlot (getInst u i.toNat) slot.toNat).req = Bytes.fit 64 line ∧
          (∃ o, (getSlot (getInst u i.toNat) slot.toNat).op = some o ∧ o.line = Bytes.fit 64 line ∧ o.arr = arr ∧ o.lane = l ∧
            o.attachT = (at_ s t).now ∧ o.stage = .toLookup) ∧
          (getInst u i.toNat).sub = (getInst w i.toNat).sub - oneToken ∧
          (getInst u i.toNat).core = (getInst w i.toNat).core - Int.ofNat (lineCharge (lineOfRequest (Bytes.fit 64 line)) * 1000) ∧
          bookEntry u (laneBay l) ((at_ s t).now / 2000) =
            bookEntry s (laneBay l) ((at_ s t).now / 2000) + lineCharge (lineOfRequest (Bytes.fit 64 line)) ∧
          (∃ id, (mget {} (getBay u (laneBay l)).mem (l % 4)).io = .ofOp (Bytes.fieldLE (Bytes.fit 64 line) 0 1) id) ∧
          (∀ b, b ≠ laneBay l → getBay u b = getBay s b) ∧ u.sched.lastLane = some l ∧
          (∀ j, j ≠ i.toNat → getInst u j = getInst s j) ∧
          u.outbox = s.outbox ++ [.done ld.toNat 0 (loadOf u ld.toNat)] ∧
          u = { s with
            now := u.now, insts := u.insts, bays := u.bays, sched := u.sched, bad := u.bad, free := u.free, outbox := u.outbox }))

/-- INLINE_RESULT_READ completes: a read of a DONE slot is answered at once with its result line, or with poison and an event of
FABRIC, with the island that wrote the word as its source, where a word of it is mismatched; of a PENDING slot that holds no
read it is held; of a slot that holds one already it is answered with a PENDING or an IDLE line; and of an IDLE slot it is held
unless InlineIdleHoldNs is 0 or a reset runs, when it is answered with an IDLE line. Nothing else changes.
INLINE_IDLE_HOLD_EXPIRY completes: when the idle hold of an IDLE slot has run out, the held read is answered with an IDLE line
to the master that issued it, and the slot holds no read (03_inline_answers.md, 01_organisation.md). -/
def Obligations.ResultReadAnswers : Prop :=
  ∀ (s : State) (t : Nat) (ld : LdNo) (i : InstNo) (slot : BitVec 10) (tag : BitVec 16) (sl : InSlot) (load : Nat),
    sl = getSlot (getInst s i.toNat) slot.toNat → load = loadOf (at_ s t) ld.toNat →
    (Lets (at_ s t) ld.toNat i.toNat (0x10000 + 128 * slot.toNat + 64) true → slot.toNat < inlineSlots s.ctl.cfg i.toNat →
      (sl.st = .done → badWord s memInline (inlineWord i.toNat slot.toNat + 8) 8 = none →
        exec (.inlineResultRead t ld i slot tag) s = .next (emit (at_ s t) (.read ld.toNat tag.toNat load sl.result))) ∧
      (∀ key, sl.st = .done → badWord s memInline (inlineWord i.toNat slot.toNat + 8) 8 = some key →
        exec (.inlineResultRead t ld i slot tag) s =
          .next (answerPoison (raiseFabric (at_ s t) (writerOf s key islHub) islLink memInline) ld.toNat tag.toNat)) ∧
      (sl.st = .pending → sl.held.isSome = true → exec (.inlineResultRead t ld i slot tag) s =
        .next (emit (at_ s t) (.read ld.toNat tag.toNat load (pendingLine sl.req)))) ∧
      (sl.st = .idle → sl.held.isSome = true ∨ idleHold s.ctl.cfg i.toNat = 0 ∨ (getInst s i.toNat).st = 2 →
        exec (.inlineResultRead t ld i slot tag) s = .next (emit (at_ s t) (.read ld.toNat tag.toNat load idleLine))) ∧
      (sl.held = none → (sl.st = .pending ∨ (sl.st = .idle ∧ idleHold s.ctl.cfg i.toNat ≠ 0 ∧ (getInst s i.toNat).st ≠ 2)) →
        exec (.inlineResultRead t ld i slot tag) s = .next (setInst (at_ s t) i.toNat (setSlot (getInst s i.toNat) slot.toNat
          { sl with held := some { ld := ld.toNat, tag := tag.toNat, t := (at_ s t).now, parity := s.acu.epoch % 2 } })))) ∧
    (∀ h, sl.st = .idle → sl.held = some h → h.t + idleHold s.ctl.cfg i.toNat ≤ (at_ s t).now → islandRuns s islHub = true →
      exec (.inlineIdleHoldExpiry t i slot) s =
        .next (setInst (emit (at_ s t) (.read h.ld h.tag (loadOf (at_ s t) h.ld) idleLine)) i.toNat
          (setSlot (getInst s i.toNat) slot.toNat { sl with held := none })))

/-- INLINE_DROPPED_WRITE completes: a partial or poisoned write to a request line, or a write to a result line, advances
InlineSlotErrors and the capture count of the instance, is captured under its kind where that kind holds no capture yet, and
changes nothing else. UNBACKED_ACCESS completes: an access that no backed part of the area answers is answered with poison if it
is a read, advances the capture count, is captured as UNBACKED where that kind holds no capture yet, and changes nothing else;
before service runs a read is answered with poison and nothing is captured; a write to a backed part is none and changes
nothing. Every write is completed on the link with DevLoad (03_inline_answers.md, 11_instances.md, 17_host_link.md). -/
def Obligations.DroppedWritesAreCounted : Prop :=
  ∀ (s : State) (t : Nat) (ld : LdNo) (i : InstNo) (slot : BitVec 10) (k : InlineDrop) (off7 : BitVec 7) (off : BitVec 19)
    (isRead poison : Bool) (tag : BitVec 16),
    (Lets (at_ s t) ld.toNat i.toNat (0x10000 + 128 * slot.toNat + off7.toNat) false →
      backed s i.toNat (0x10000 + 128 * slot.toNat + off7.toNat) false = true →
      exec (.inlineDroppedWrite t ld i slot k off7) s =
        .next (answerDone (setInst (bump (at_ s t) (instKey i.toNat 0x24)) i.toNat { getInst s i.toNat with
          capCount := min 0xFFFFFFFF ((getInst s i.toNat).capCount + 1)
          caps := (if (mfind (getInst s i.toNat).caps (dropKind k)).isSome then (getInst s i.toNat).caps
            else mput (getInst s i.toNat).caps (dropKind k)
              { value := slot.toNat, ld := ld.toNat, poison := k == .poisoned, isRead := false
                off := 0x10000 + 128 * slot.toNat + off7.toNat, time := (at_ s t).now }) }) ld.toNat 0)) ∧
    (Lets (at_ s t) ld.toNat i.toNat off.toNat isRead → backed s i.toNat off.toNat isRead = false →
      exec (.unbackedAccess t ld i off isRead poison tag) s =
        .next (complete (setInst (if isRead then answerPoison (at_ s t) ld.toNat tag.toNat else at_ s t) i.toNat { getInst s i.toNat with
          capCount := min 0xFFFFFFFF ((getInst s i.toNat).capCount + 1)
          caps := (if (mfind (getInst s i.toNat).caps 6).isSome then (getInst s i.toNat).caps
            else mput (getInst s i.toNat).caps 6
              { value := 0xFFFF, ld := ld.toNat, poison := poison, isRead := isRead, off := off.toNat, time := (at_ s t).now }) })
          isRead ld.toNat tag.toNat)) ∧
    (serving s = false → portRuns s = true → headUp s (ld.toNat / 16) = true →
      exec (.unbackedAccess t ld i off isRead poison tag) s =
        .next (if isRead then answerPoison (at_ s t) ld.toNat tag.toNat else answerDone (at_ s t) ld.toNat tag.toNat)) ∧
    (Lets (at_ s t) ld.toNat i.toNat off.toNat false → backed s i.toNat off.toNat false = true →
      exec (.unbackedAccess t ld i off false poison tag) s = .next (answerDone (at_ s t) ld.toNat tag.toNat))

/-- INLINE_LOOKUP completes, while the clocks of the hub and of the lane's bay run: a line whose keys and route pass hands key
material, route word and drawn bytes to its lane, whose key area then holds the key; one that fails a check is packed with the
status of that check, one without a route that ends so counts in RoutePartMisses (log entry 245), and one whose lookup meets a
mismatched word of the routing memories raises FABRIC and is packed with 0x0801. Nothing else changes beside what the key
fetches and the draw change. INLINE_RESULT_WRITE completes once the verdict of a packed line is due and waits for no
reservation: the slot becomes DONE with the result line that the verdict gives, marked DONE_LATE after more than 201 ns, a held
read is answered with it and no other message leaves; a slot that a joint removed becomes unbacked. Beside the instance, only
bays, counters, the recorder, the code and the source of the words written and shelf entries may then change
(03_inline_answers.md, 07_routing_tables.md, 10_keys.md, 01_organisation.md). -/
def Obligations.InlineLineCompletes : Prop :=
  ∀ (s : State) (t : Nat) (i : InstNo) (slot : BitVec 10) (o : LaneOp), (getSlot (getInst s i.toNat) slot.toNat).op = some o →
    islandRuns s islHub = true → bayClockRuns s (laneBay o.lane) = true →
    (∀ key, o.stage = .toLookup → (lineOfRequest o.line).routed = true ∨ (lineOfRequest o.line).op = 2 →
      routeFault (at_ s t) o.att.part o.att.epoch (lineOfRequest o.line).digits = some key →
      ∃ u, exec (.inlineLookup t i slot) s = .next u ∧
        Packs (raiseRoute (at_ s t) (5 + laneBay o.lane) key) u i.toNat slot.toNat { o with look := { status := 0x0801 } }
          { status := 0x0801, due := (at_ s t).now }) ∧
    (∀ (l : Line) (route : Option (Option Nat)) (F : LineKeys × State) (D : Option Bytes × State), o.stage = .toLookup →
      l = lineOfRequest o.line → (l.routed = true ∨ l.op = 2 → routeFault (at_ s t) o.att.part o.att.epoch l.digits = none) →
      route = (if l.routed ∨ l.op = 2 then some (routeLookup (at_ s t) o.att.part o.att.epoch l.digits) else none) →
      F = lineKeys (at_ s t) l (5 + laneBay o.lane) o.att.tenant engInline route (keyByHandle (at_ s t) l.keyA o.att.epoch)
        (fun h => keyByHandle (at_ s t) h o.att.epoch) →
      D = (if lineDraws l route.join o.att.matrix then draw F.2 (laneBay o.lane) 8 else (none, F.2)) →
      (F.1.status = 0 → ∃ u, exec (.inlineLookup t i slot) s = .next u ∧
        u = setInst { D.2 with bays := u.bays, free := D.2.free + 1 } i.toNat
          (setSlot (getInst D.2 i.toNat) slot.toNat { getSlot (getInst D.2 i.toNat) slot.toNat with op := some { o with
            stage := .looked, waits := F.1.waits
            look := { route := (F.1.route.join).getD 0, keyA := F.1.keyA, keyB := F.1.keyB, drawn := D.1 } } }) ∧
        (mget {} (getBay u (laneBay o.lane)).mem (o.lane % 4)).key = .ofOp l.op D.2.free ∧
        (∀ b, b ≠ laneBay o.lane → getBay u b = getBay D.2 b)) ∧
      (F.1.status ≠ 0 → ∃ u, exec (.inlineLookup t i slot) s = .next u ∧
        Packs (if F.1.status = 0x0601 then bump F.2 (odKey 0x5053 o.att.part) else F.2) u i.toNat slot.toNat
          { o with waits := F.1.waits, look := { status := F.1.status, route := (F.1.route.join).getD 0 } }
          { status := F.1.status, due := F.2.now })) ∧
    (∀ (oc : Outcome) (lat st : Nat) (line : Bytes), o.stage = .packed → o.outcome = some oc → o.waits = [] →
      oc.due ≤ (at_ s t).now → lat = (at_ s t).now - o.arr → st = (if oc.status = 0 ∧ 201 < lat then 1 else oc.status) →
      line = resultLine o.line st o.att.epoch o.lane 0 lat o.look.route oc.out →
      ∃ u, exec (.inlineResultWrite t i slot) s = .next u ∧
        ((getInst s i.toNat).leaving.contains slot.toNat = false →
          (getSlot (getInst u i.toNat) slot.toNat).st = .done ∧ (getSlot (getInst u i.toNat) slot.toNat).held = none ∧
          (getSlot (getInst u i.toNat) slot.toNat).op = none ∧ (getSlot (getInst u i.toNat) slot.toNat).result = line) ∧
        ((getInst s i.toNat).leaving.contains slot.toNat = true →
          getSlot (getInst u i.toNat) slot.toNat = {} ∧ (getInst u i.toNat).leaving.contains slot.toNat = false) ∧
        (∀ h, (getSlot (getInst s i.toNat) slot.toNat).held = some h → ∃ load,
          u.outbox = s.outbox ++ [.read h.ld h.tag load line]) ∧
        ((getSlot (getInst s i.toNat) slot.toNat).held = none → u.outbox = s.outbox) ∧
        (∀ n, n ≠ slot.toNat → getSlot (getInst u i.toNat) n = getSlot (getInst s i.toNat) n) ∧
        (∀ j, j ≠ i.toNat → getInst u j = getInst s j) ∧
        u = { s with
          now := u.now, insts := u.insts, bays := u.bays, cnt := u.cnt, evr := u.evr, bad := u.bad, writers := u.writers
          outbox := u.outbox, keys := { s.keys with cache := u.keys.cache } })

/-- DOORBELL completes: one whose write is complete and carries no poison, and whose count does not exceed the entries the host
owns, gives the device the counts from S to T - 1, in their order, each with the snapshot of its entry and with the doorbell's
arrival at the port, and S becomes T; nothing else changes. One that asks for more than the ring holds, is partial or poisoned,
or comes to an instance without a ring is counted in RingWriteErrors, advances the capture count, is captured where its kind
holds no capture yet and changes nothing else. During a reset, and once the instance is SAVED, it is dropped; that
RingWriteErrors then does not count it is the model's choice (log entry 209). REGISTER_WRITE to IPG_SQ_TAIL completes as the
doorbell that arrives now. Every such write is completed on the link with DevLoad (04_rings.md, 11_instances.md,
17_host_link.md). -/
def Obligations.DoorbellTakesOwnership : Prop :=
  ∀ (s : State) (arr t : Nat) (ld : LdNo) (i : InstNo) (tail : BitVec 16) (full poison : Bool) (n : Nat),
    n = (tail.toNat + 65536 - (getInst s i.toNat).s % 65536) % 65536 → Lets (at_ s t) ld.toNat i.toNat 0x100 false →
    ((getInst s i.toNat).st = 2 ∨ (getInst s i.toNat).st = 5 → exec (.doorbell arr t ld i tail full poison) s =
      .next (answerDone (at_ s t) ld.toNat 0)) ∧
    ((getInst s i.toNat).st ≠ 2 → (getInst s i.toNat).st ≠ 5 →
      (ringEntries s.ctl.cfg i.toNat ≠ 0 → n = 0 ∨ owned (getInst s i.toNat) + n ≤ ringEntries s.ctl.cfg i.toNat →
        exec (.doorbell arr t ld i tail true false) s = .next (answerDone (setInst (at_ s t) i.toNat { getInst s i.toNat with
          s := tail.toNat
          ops := (getInst s i.toNat).ops ++ (upTo n).map (fun k =>
            { count := ((getInst s i.toNat).s + k) % 65536
              snap := ringEntry (at_ s t) i.toNat (((getInst s i.toNat).s + k) % 65536), arr := arr, round := arr / 100 }) }) ld.toNat 0)) ∧
      (ringEntries s.ctl.cfg i.toNat = 0 ∨ full = false ∨ poison = true ∨
          (n ≠ 0 ∧ ringEntries s.ctl.cfg i.toNat < owned (getInst s i.toNat) + n) →
        exec (.doorbell arr t ld i tail full poison) s =
          .next (answerDone (setInst (bump (at_ s t) (instKey i.toNat 0x16)) i.toNat { getInst s i.toNat with
            capCount := min 0xFFFFFFFF ((getInst s i.toNat).capCount + 1)
            caps := (if (mfind (getInst s i.toNat).caps 3).isSome then (getInst s i.toNat).caps
              else mput (getInst s i.toNat).caps 3
                { value := tail.toNat, ld := ld.toNat, poison := poison, isRead := false, off := 0x100, time := (at_ s t).now }) }) ld.toNat 0))) ∧
    (∃ u, exec (.doorbell (at_ s t).now t ld i tail full poison) s = .next u ∧
      exec (.registerWrite t ld i 0x100 tail.toNat full poison) s = .next (settle u))

/-- RING_ENTRY_WRITE completes: a complete, unpoisoned write of a backed entry that the host owns replaces that entry and no
other, and its words are whole. STAGING_PAGE_WRITE completes: a write to a backed page that the host owns stores its enabled
bytes and no other byte of staging memory; every byte outside them reads as before, and the words in which a byte is enabled are
whole. Nothing outside the instance, the code and source of the words written and the write's completion changes. A partial or
poisoned write, or one of an entry or page that the device owns, is dropped: it is counted in RingWriteErrors, advances the
capture count and changes nothing else but the captures. Every such write is completed on the link with DevLoad (04_rings.md,
01_organisation.md, 17_host_link.md). -/
def Obligations.RingWritesLand : Prop :=
  ∀ (s : State) (t : Nat) (ld : LdNo) (i : InstNo) (data : Bytes),
    (∀ entry : BitVec 11, Lets (at_ s t) ld.toNat i.toNat (0x40000 + 64 * entry.toNat) false →
      entry.toNat < ringEntries s.ctl.cfg i.toNat →
      (entryOwned (getInst s i.toNat) (ringEntries s.ctl.cfg i.toNat) entry.toNat = false →
        ∃ u x, exec (.ringEntryWrite t ld i entry data true false) s = .next u ∧
          u = answerDone (setInst (noteWriter (writeWords (at_ s t) memRing (ringWord i.toNat entry.toNat) 8) memRing
            (ringWord i.toNat entry.toNat) 8 islLink) i.toNat x) ld.toNat 0 ∧
          mget [] x.ring entry.toNat = Bytes.fit 64 data ∧
          (∀ j, j ≠ entry.toNat → mget [] x.ring j = mget [] (getInst s i.toNat).ring j) ∧
          x = { getInst s i.toNat with ring := x.ring }) ∧
      (∀ full poison, full = false ∨ poison = true ∨
          entryOwned (getInst s i.toNat) (ringEntries s.ctl.cfg i.toNat) entry.toNat = true →
        ∃ x, exec (.ringEntryWrite t ld i entry data full poison) s =
            .next (answerDone (setInst (bump (at_ s t) (instKey i.toNat 0x16)) i.toNat x) ld.toNat 0) ∧
          x = { getInst s i.toNat with caps := x.caps, capCount := min 0xFFFFFFFF ((getInst s i.toNat).capCount + 1) })) ∧
    (∀ (off : BitVec 17) (en : BitVec 64), off.toNat % 64 = 0 →
      Lets (at_ s t) ld.toNat i.toNat (0x60000 + off.toNat) false → off.toNat / 4096 < stagingPages s.ctl.cfg i.toNat →
      ((ownedPages (at_ s t) i.toNat).contains (off.toNat / 4096) = false →
        ∃ u x, exec (.stagingPageWrite t ld i off data en false) s = .next u ∧
          u = answerDone (setInst (writeLineWords (at_ s t) (stagingWord i.toNat off.toNat) en.toNat) i.toNat x) ld.toNat 0 ∧
          (∀ k, k < 64 → bitOf en.toNat k = true → Memory.read x.staging (off.toNat + k) = Bytes.at' data k) ∧
          (∀ a, (∀ k, k < 64 → bitOf en.toNat k = true → a ≠ off.toNat + k) →
            Memory.read x.staging a = Memory.read (getInst s i.toNat).staging a) ∧
          x = { getInst s i.toNat with staging := x.staging }) ∧
      (∀ poison, poison = true ∨ (ownedPages (at_ s t) i.toNat).contains (off.toNat / 4096) = true →
        ∃ x, exec (.stagingPageWrite t ld i off data en poison) s =
            .next (answerDone (setInst (bump (at_ s t) (instKey i.toNat 0x16)) i.toNat x) ld.toNat 0) ∧
          x = { getInst s i.toNat with caps := x.caps, capCount := min 0xFFFFFFFF ((getInst s i.toNat).capCount + 1) }))

/-- MEM_SPEC_RD completes, changes nothing and answers nothing. MEM_INV is completed at once to the LD that sent it, on a head
that is up in flit mode while the clock of the link island runs, and changes nothing else; where Link IDE is required on its
head and its stream is not Secure it is denied with 0x100 besides. Without the link in flit mode there is no access: it has no
effect. While the clock of the link or of the hub island stands still, an access of a host to the area of an instance waits in
its channel and nothing else changes (17_host_link.md, 01_organisation.md, 16_access_events.md). -/
def Obligations.SpeculationAndInvalidation : Prop :=
  ∀ (s : State) (t : Nat) (ld : LdNo) (dpa : BitVec 27) (tag : BitVec 16),
    exec (.memSpecRd t ld dpa) s = .next (at_ s t) ∧
    (islandRuns s islLink = true → headUp s (ld.toNat / 16) = true →
      (serving s && decoded s ld.toNat && ideLacking s ld.toNat) = false →
      exec (.memInv t ld dpa tag) s = .next (emit (at_ s t) (.done ld.toNat tag.toNat (loadOf (at_ s t) ld.toNat)))) ∧
    (islandRuns s islLink = true → headUp s (ld.toNat / 16) = true → serving s = true → decoded s ld.toNat = true →
      ideLacking s ld.toNat = true → ∃ addr, exec (.memInv t ld dpa tag) s =
        .next (violation (answerDone (at_ s t) ld.toNat tag.toNat) 0x100 ld.toNat 64 addr false)) ∧
    (islandRuns s islLink = false → exec (.memInv t ld dpa tag) s = .next (stall (at_ s t) (.memInv t ld dpa tag))) ∧
    (∀ (i : InstNo) (slot : BitVec 10) (line data : Bytes) (k : InlineDrop) (off7 : BitVec 7) (off12 : BitVec 12) (off17 : BitVec 17)
        (off19 : BitVec 19) (arr v : Nat) (tail : BitVec 16) (entry : BitVec 11) (en : BitVec 64) (full poison isRead : Bool) (c : Instr),
      c ∈ [Instr.inlineRequestWrite arr t ld i slot line, .inlineResultRead t ld i slot tag, .inlineDroppedWrite t ld i slot k off7,
        .doorbell arr t ld i tail full poison, .ringEntryWrite t ld i entry data full poison,
        .stagingPageWrite t ld i off17 data en poison, .unbackedAccess t ld i off19 isRead poison tag] →
      (portRuns s = false → exec c s = .next (stall (at_ s t) c)) ∧
      (portRuns s = true → headUp s (ld.toNat / 16) = false → exec c s = .next (at_ s t)) ∧
      (portRuns s = false → ∃ u, exec (.registerWrite t ld i off12 v full poison) s = .next u ∧
        Beside (stall (at_ s t) (.registerWrite t ld i off12 v full poison)) u))

/-- REGISTER_WRITE completes: a complete write of IPG_STATUS clears RESET_DONE and FREEZE_DONE where it writes 1, and one of
IPG_ERRCAP_VALID drops the captures whose bits it writes; a partial or poisoned one is captured under kind 7 where that kind
holds no capture yet, advances the capture count and changes no register. Nothing else of the instance changes, and the write is
completed on the link (11_instances.md, 17_host_link.md). -/
def Obligations.RegisterPageWrites : Prop :=
  ∀ (s : State) (t v : Nat) (ld : LdNo) (i : InstNo),
    (Lets (at_ s t) ld.toNat i.toNat 8 false → ∃ u, exec (.registerWrite t ld i 8 v true false) s = .next u ∧
      Beside (answerDone (setInst (at_ s t) i.toNat { getInst s i.toNat with
        resetDone := (getInst s i.toNat).resetDone && !bitOf v 3
        freezeDone := (getInst s i.toNat).freezeDone && !bitOf v 5 }) ld.toNat 0) u) ∧
    (Lets (at_ s t) ld.toNat i.toNat 0x1F0 false → ∃ u x, exec (.registerWrite t ld i 0x1F0 v true false) s = .next u ∧
      Beside (answerDone (setInst (at_ s t) i.toNat x) ld.toNat 0) u ∧ x.caps = (getInst s i.toNat).caps.filter (fun e => !bitOf v e.1) ∧
      x = { getInst s i.toNat with caps := x.caps, capCount := x.capCount }) ∧
    (Lets (at_ s t) ld.toNat i.toNat 8 false → ∀ full poison, full = false ∨ poison = true →
      ∃ u x, exec (.registerWrite t ld i 8 v full poison) s = .next u ∧ Beside (answerDone (setInst (at_ s t) i.toNat x) ld.toNat 0) u ∧
        x = { getInst s i.toNat with caps := x.caps, capCount := min 0xFFFFFFFF ((getInst s i.toNat).capCount + 1) } ∧
        (mfind (getInst s i.toNat).caps 7 = none → mget {} x.caps 7 =
          { value := 0xFFFF, ld := ld.toNat, poison := poison, isRead := false, off := 8, time := (at_ s t).now }))

/-- A NOP or a ROUTE_LOOKUP that the hub has admitted completes with bay 0xFF: NOP with status 0, ROUTE_LOOKUP with the route
word at res[32:35], or with 0x0601 NO_ROUTE and no result bytes where no stored prefix matched; one whose lookup met a
mismatched word of the routing memories raises FABRIC and completes with 0x0801. Its entry alone changes in the ring, no staging
byte changes and no bay. In a lane, where no line accepted earlier waits for its round work, each ends its round work with
status 0 and no output. NOP and ROUTE_LOOKUP complete so in both places (04_rings.md, 06_payment_functions.md,
03_inline_answers.md, 01_organisation.md). -/
def Obligations.HubOperationsComplete : Prop :=
  ∀ (s : State) (t : Nat) (i : InstNo) (c : BitVec 16) (slot : BitVec 10),
    (∀ (p : Instr × Nat) (o : RingOp), p ∈ [(Instr.nop t (.ring i c), 1), (Instr.routeLookup t (.ring i c), 2)] →
      findOp (getInst s i.toNat) c.toNat = some o → o.stage = .atHub → dOp o.snap = p.2 →
      ∀ (w : State) (st : Nat) (res : Bytes),
      w = (match o.routeBad with | some key => raiseRoute (at_ s t) islHub key | none => at_ s t) →
      (st, res) = (if o.routeBad.isSome then (0x0801, []) else if o.route = some none then (0x0601, [])
        else (0, if p.2 = 2 then Bytes.zeros 32 ++ Bytes.ofNatLE 4 ((o.route.join).getD 0) else [])) →
      ∃ u, exec p.1 s = .next u ∧
        Ended s u i.toNat o
          (completionEntry (ringEntries s.ctl.cfg i.toNat) o st o.att.epoch 0xFF 0 0 ((at_ s t).now - o.arr) res) ∧
        EndFrame i.toNat w u ∧ (getInst u i.toNat).slots = (getInst s i.toNat).slots ∧
        (∀ a, Memory.read (getInst u i.toNat).staging a = Memory.read (getInst s i.toNat).staging a)) ∧
    (∀ (p : Instr × Nat) (o : LaneOp),
      p ∈ [(Instr.nop t (.inline i slot), 1), (Instr.routeLookup t (.inline i slot), 2)] →
      inlineAt s i.toNat slot.toNat .looked (fun b => Bytes.fieldLE b 0 1 == p.2) = some o →
      (lineOfRequest o.line).op = p.2 → laneFirst s o = true →
      ∃ u, exec p.1 s = .next u ∧ Packs (at_ s t) u i.toNat slot.toNat o
        { status := 0, due := (at_ s t).now, roundT := some (at_ s t).now })

/-- PIN_XLATE, PIN_VERIFY, DVV_GEN, DVV_VERIFY, MAC_RETAIL_GEN, MAC_RETAIL_VERIFY, CMAC_GEN and CMAC_VERIFY complete. On a ring,
one whose segment can start runs on its engines: where its key and route work ends with a status other than 0 it is decided with
that status at once; where keys and route pass it is decided with the verdict of its round work on key material, route word and
the 8 bytes drawn for a fill, due at the end of its core time when its full round work runs and at once otherwise. One whose
lookup met a mismatched word of the routing memories raises FABRIC and is decided with 0x0801. In a lane the same round work, in
the order of acceptance, gives the same verdict. Nothing but the operation and its engines changes beside what the key fetches
and the draw change (06_payment_functions.md, 04_rings.md, 03_inline_answers.md). -/
def Obligations.LineOperationsRun : Prop :=
  ∀ (s : State) (t : Nat) (i : InstNo) (c : BitVec 16) (slot : BitVec 10),
    (∀ (p : Instr × Nat) (o : RingOp) (l : Line) (F : LineKeys × State) (D : Option Bytes × State) (v : LineEnd),
      p ∈ [(Instr.pinXlate t (.ring i c), 0x10), (.pinVerify t (.ring i c), 0x11), (.dvvGen t (.ring i c), 0x20),
        (.dvvVerify t (.ring i c), 0x21), (.macRetailGen t (.ring i c), 0x30), (.macRetailVerify t (.ring i c), 0x31),
        (.cmacGen t (.ring i c), 0x32), (.cmacVerify t (.ring i c), 0x33)] →
      startable (at_ s t) i.toNat c.toNat (fun d => dOp d == p.2) = some o → l = lineOfDescriptor o.snap →
      F = lineKeys (at_ s t) l (5 + o.bay) o.att.tenant engCipher o.route (keyAOf (at_ s t) o)
        (fun h => if l.routed then keyByHandle (at_ s t) h o.att.epoch else keyBOf (at_ s t) o) →
      D = (if lineDraws l o.route.join o.att.matrix then draw F.2 o.bay 8 else (none, F.2)) →
      v = lineVerdict l (keyBytes F.1.keyA) (keyBytes F.1.keyB) o.route.join o.att.matrix o.att.fmt0Max D.1 →
      (∀ key, o.routeBad = some key → ∃ u, exec p.1 s = .next u ∧
        Fixes (raiseRoute (at_ s t) (5 + o.bay) key) u i.toNat o { status := 0x0801, due := (at_ s t).now }) ∧
      (o.routeBad = none → F.1.status ≠ 0 → ∃ u, exec p.1 s = .next u ∧
        Fixes F.2 u i.toNat o { status := F.1.status, due := F.2.now }) ∧
      (o.routeBad = none → F.1.status = 0 → ∃ u, exec p.1 s = .next u ∧ Fixes D.2 u i.toNat { o with waits := o.waits ++ F.1.waits }
        { status := v.status, res := v.out, outLen := v.out.length
          due := if v.full then D.2.now + segTime o.plan else D.2.now
          roundT := if v.full then some D.2.now else none })) ∧
    (∀ (p : Instr × Nat) (o : LaneOp) (l : Line) (v : LineEnd),
      p ∈ [(Instr.pinXlate t (.inline i slot), 0x10), (.pinVerify t (.inline i slot), 0x11), (.dvvGen t (.inline i slot), 0x20),
        (.dvvVerify t (.inline i slot), 0x21), (.macRetailGen t (.inline i slot), 0x30), (.macRetailVerify t (.inline i slot), 0x31),
        (.cmacGen t (.inline i slot), 0x32), (.cmacVerify t (.inline i slot), 0x33)] →
      inlineAt s i.toNat slot.toNat .looked (fun b => Bytes.fieldLE b 0 1 == p.2) = some o → laneFirst s o = true →
      l = lineOfRequest o.line →
      v = lineVerdict l (keyBytes o.look.keyA) (keyBytes o.look.keyB) (if l.routed ∨ l.op = 2 then some o.look.route else none)
        o.att.matrix o.att.fmt0Max o.look.drawn →
      ∃ u, exec p.1 s = .next u ∧ Packs (at_ s t) u i.toNat slot.toNat o
        { status := v.status, out := v.out, outLen := v.out.length, due := (at_ s t).now
          roundT := if v.full then some (at_ s t).now else none })

/-- Of a resident key that passes its checks and whose guard is not lost and stands below its bound, a claim takes the value v,
leaves v + 1 in the guard where the key stands, and opens a new block of 65,536 with a reservation in the journal stage exactly
when v had reached the ceiling (under DEBUG none is posted); the output waits for that reservation, and for one of the same
block that is still to become durable. Where the stage is full it is refused with 0x0305, which the counters and the recorder
note. A lost or exhausted guard refuses with 0x0305 and changes nothing; an unguarded key claims nothing. A use that claims
nothing is refused with 0x0305 all the same where the guard is lost. Nothing else changes (05_cipher_engines.md, 10_keys.md). -/
def Obligations.ClaimsConsume : Prop :=
  ∀ (s : State) (sink tenant : Nat) (r : Role) (k : Key) (gen h : Nat),
    checkKey s tenant r (some (k, gen, .resident h)) = 0 → (slotAt s h).key = some k → (slotAt s h).gen = gen →
    (keyLost k = true → fetchKey s sink tenant r (some (k, gen, .resident h)) noNonce (fun _ => false) = (.refused 0x0305, s, [])) ∧
    (keyLost k = false → fetchKey s sink tenant r (some (k, gen, .resident h)) noNonce (fun _ => false) = (.got k gen 0, s, [])) ∧
    (k.guard = none → fetchKey s sink tenant r (some (k, gen, .resident h)) noNonce always = (.got k gen 0, s, [])) ∧
    (∀ g, k.guard = some g →
      (g.lost = true ∨ guardBound k g ≤ g.v →
        fetchKey s sink tenant r (some (k, gen, .resident h)) noNonce always = (.refused 0x0305, s, [])) ∧
      (g.lost = false → g.v < guardBound k g → (g.v < g.ceiling ∨ stageFull s = false) → ∃ w hs,
        fetchKey s sink tenant r (some (k, gen, .resident h)) noNonce always = (.got k gen g.v, w, hs) ∧ ClaimFrame s w ∧
        (slotAt w h).key = some { k with guard := some { g with
          v := g.v + 1, ceiling := if g.v < g.ceiling then g.ceiling else g.ceiling + 65536 } } ∧
        (∀ h', h' ≠ h → slotAt w h' = slotAt s h') ∧
        w.keys.journal.stage = s.keys.journal.stage ++
          (if g.v < g.ceiling ∨ s.life.debug = true then [] else
            [{ r := { slot := h, nonce := g.nonce, gen := gen, ceiling := g.ceiling + 65536 }, durable := false, postedT := s.now }]) ∧
        hs = (if g.v < g.ceiling then (if reservationOpen s h gen then [h] else []) else if s.life.debug then [] else [h])) ∧
      (g.lost = false → g.v < guardBound k g → g.ceiling ≤ g.v → stageFull s = true → ∃ w,
        fetchKey s sink tenant r (some (k, gen, .resident h)) noNonce always = (.refused 0x0305, w, []) ∧ Noted s w))

/-- CIPHER completes in ECB, CBC, CFB-8, CFB-128, OFB, CTR and GCM: one whose segments can start runs on its engines. Where its
key fetch is refused it is decided with that status at once. One whose key is fetched and whose input is all at hand ends at the
end of its core time with the mode's output on the data; a device-nonce key encrypts under a nonce of NoncePrefix and the value
its claim consumed, which is returned at res[16:31]; a GCM encryption returns its tag at res[0:15] and a GCM decryption whose
tag differs ends with 0x0406. One whose host input has not all come keeps its key and runs on, without a verdict. Nothing but
the operation and its engines changes beside what the key fetch changed (05_cipher_engines.md, 04_rings.md, 01_organisation.md). -/
def Obligations.CiphersRun : Prop :=
  ∀ (s : State) (t : Nat) (i : InstNo) (c : BitVec 16) (p : Instr × Nat) (o : RingOp) (dec : Bool) (supplied : Key → Bool),
    p ∈ [(Instr.cipherEcb t (.ring i c), 0), (.cipherCbc t (.ring i c), 1), (.cipherCfb8 t (.ring i c), 2),
      (.cipherCfb128 t (.ring i c), 3), (.cipherOfb t (.ring i c), 4), (.cipherCtr t (.ring i c), 5), (.cipherGcm t (.ring i c), 6)] →
    startable (at_ s t) i.toNat c.toNat (fun d => dOp d == 0x40 && cipherMode d == p.2) = some o →
    dec = cipherDecrypts o.snap →
    supplied = (fun k => isNonceKey k && !dec && !Bytes.allZero ((dPrm o.snap).take (ivLen p.2 (if isTdes k.type then 8 else 16)))) →
    (∀ st w hs, fetchKey (at_ s t) (5 + o.bay) o.att.tenant (cipherRole p.2 dec) (keyAOf (at_ s t) o) supplied (cipherClaims dec) =
        (.refused st, w, hs) → ∃ u, exec p.1 s = .next u ∧ Fixes w u i.toNat o { status := st, due := w.now }) ∧
    (∀ (k : Key) (gen v : Nat) (w : State) (hs : List Nat), inputReady o = false →
      fetchKey (at_ s t) (5 + o.bay) o.att.tenant (cipherRole p.2 dec) (keyAOf (at_ s t) o) supplied (cipherClaims dec) =
        (.got k gen v, w, hs) → ∃ u, exec p.1 s = .next u ∧
        Begins w u i.toNat { o with waits := o.waits ++ hs, job := some { key := k, v := v } } none) ∧
    (∀ (k : Key) (gen v : Nat) (w : State) (hs : List Nat) (iv shown : Bytes) (input aad m out tag res : Bytes),
      inputReady o = true → fetchKey (at_ s t) (5 + o.bay) o.att.tenant (cipherRole p.2 dec) (keyAOf (at_ s t) o) supplied
        (cipherClaims dec) = (.got k gen v, w, hs) →
      (iv, shown) = (if isNonceKey k && !dec then deviceNonce k p.2 o.att.noncePrefix v
        else ((dPrm o.snap).take (ivLen p.2 (cipherOf k).n), [])) →
      input = inputOf w i.toNat o → aad = input.take (aadLen o.snap) →
      m = (input.drop (aadLen o.snap)).take (cipherLen o.snap) → out = cipherData (cipherOf k) p.2 dec iv m →
      tag = (if p.2 = 6 then Modes.gcmTag (cipherOf k) iv aad (if dec then m else out) else []) →
      res = (if dec then [] else if p.2 = 6 ∨ (isNonceKey k && !dec) = true then Bytes.fit 16 tag ++ Bytes.fit 16 shown else []) →
      ∃ u, exec p.1 s = .next u ∧
        Fixes w u i.toNat { o with waits := o.waits ++ hs }
          { status := if p.2 = 6 ∧ dec = true ∧ tag ≠ input.drop (dInLen o.snap - 16) then 0x0406 else 0
            out := out, res := res, outLen := if out = [] then res.length else out.length
            due := w.now + segTime o.plan, roundT := some w.now })

/-- MAC_GEN, MAC_VERIFY and RANDOM complete. A MAC whose segment can start and whose key fetch is refused is decided with that
status at once; else, with its input at hand, it is decided at the end of its core time, and without it keeps its key and runs
on: generation returns the leading bytes of the MAC in res, verification ends with 0 or, where the bytes given differ, 0x0406,
and returns none. RANDOM ends at the end of its core time with the bytes drawn from its bay, or at once with 0x0501 where the
draw cannot be served (05_cipher_engines.md, 09_random.md). -/
def Obligations.MacsAndRandomRun : Prop :=
  ∀ (s : State) (t : Nat) (i : InstNo) (c : BitVec 16) (o : RingOp),
    (∀ (p : Instr × Bool) (f : Fetched) (w : State) (hs : List Nat),
      p ∈ [(Instr.macGen t (.ring i c), false), (.macVerify t (.ring i c), true)] →
      startable (at_ s t) i.toNat c.toNat (fun d => dOp d == (if p.2 then 0x39 else 0x38)) = some o →
      fetchKey (at_ s t) (5 + o.bay) o.att.tenant (macRole (dVar o.snap % 4) p.2) (keyAOf (at_ s t) o) noNonce always = (f, w, hs) →
      (∀ st, f = .refused st → ∃ u, exec p.1 s = .next u ∧ Fixes w u i.toNat o { status := st, due := w.now }) ∧
      (∀ k gen v, f = .got k gen v → inputReady o = false → ∃ u, exec p.1 s = .next u ∧
        Begins w u i.toNat { o with waits := o.waits ++ hs, job := some { key := k, v := v } } none) ∧
      (∀ k gen v mac, f = .got k gen v → inputReady o = true →
        mac = (macOf (dVar o.snap % 4) (dVar o.snap / 4) k (inputOf w i.toNat o)).take (dAux o.snap) →
        ∃ u, exec p.1 s = .next u ∧ Fixes w u i.toNat { o with waits := o.waits ++ hs }
          { status := if p.2 = true ∧ mac ≠ (dPrm o.snap).take (dAux o.snap) then 0x0406 else 0
            res := if p.2 then [] else mac, outLen := if p.2 then 0 else mac.length
            due := w.now + segTime o.plan, roundT := some w.now })) ∧
    (∀ (r : Option Bytes) (w : State), startable (at_ s t) i.toNat c.toNat (fun d => dOp d == 0x41) = some o →
      draw (at_ s t) o.bay (dInLen o.snap) = (r, w) →
      (r = none → ∃ u, exec (.random t (.ring i c)) s = .next u ∧ Fixes w u i.toNat o { status := 0x0501, due := w.now }) ∧
      (∀ out, r = some out → ∃ u, exec (.random t (.ring i c)) s = .next u ∧
        Fixes w u i.toNat o
          { status := 0, out := out, outLen := out.length, due := w.now + segTime o.plan, roundT := some w.now }))

/-- DUKPT_DECRYPT completes. One whose segment can start and whose key checks fail, in the order of R122 with a terminal outside
the tenant's partition as a fault of ownership, is decided at once with their status, a mismatched key word being an event of
FABRIC besides; a mismatched word of the terminal's cached entry raises FABRIC and gives 0x0801, and a key whose claim is
refused gives that status. With DukptCheck set, one whose counter is not above the high counter of the cached entry of its base
key, generation and initial key ID ends with 0x0404 at the end of its fixed time, returns nothing and changes no entry. Any
other ends at that time with the deciphered data under the cached or derived initial key; a cached entry takes its counter when
DukptCheck is set, and without one an entry is written at the completion. That an entry written while DukptCheck is clear holds
the counter 0, and what stands for the handle of a key that a token names, are the choices of log entry 193
(06_payment_functions.md, 07_routing_tables.md). -/
def Obligations.DukptDecryptRuns : Prop :=
  ∀ (s : State) (t : Nat) (i : InstNo) (c : BitVec 16) (o : RingOp) (aes data : Bool) (term ctr st : Nat) (ksn ikid : Bytes) (role : Role),
    startable (at_ s t) i.toNat c.toNat (fun d => dOp d == 0x50) = some o →
    aes = bitOf (dVar o.snap) 0 → data = bitOf (dVar o.snap) 2 → role = dukptRole aes (!data) →
    term = Bytes.fieldLE o.snap 0x10 4 → ksn = Bytes.slice o.snap 0x14 (if aes then 12 else 10) →
    ikid = (Payment.dukptInitialId aes ksn).take 8 → ctr = Payment.dukptCounter aes ksn →
    st = dukptStatus (at_ s t) o role term (keyAOf (at_ s t) o) →
    (st ≠ 0 → ∃ u, exec (.dukptDecrypt t (.ring i c)) s = .next u ∧
      Fixes (refusedKey (at_ s t) (5 + o.bay) st (keyAOf (at_ s t) o)) u i.toNat o { status := st, due := (at_ s t).now }) ∧
    (st = 0 → (derivEntry (at_ s t) term o.att.tenant o.att.derivMaxAge).isSome = true →
      wordsFail s memDeriv (derivWord term) 8 = true → ∃ u, exec (.dukptDecrypt t (.ring i c)) s = .next u ∧
      Fixes (raiseFabric (at_ s t) islHub (5 + o.bay) memDeriv) u i.toNat o { status := 0x0801, due := (at_ s t).now }) ∧
    (st = 0 → derivEntry (at_ s t) term o.att.tenant o.att.derivMaxAge = none ∨ wordsFail s memDeriv (derivWord term) 8 = false →
      ∀ F, F = fetchKey (at_ s t) (5 + o.bay) o.att.tenant role (keyAOf (at_ s t) o) noNonce always →
      (∀ st', F.1 = .refused st' → ∃ u, exec (.dukptDecrypt t (.ring i c)) s = .next u ∧
        Fixes F.2.1 u i.toNat o { status := st', due := F.2.1.now }) ∧
      (∀ (k : Key) (pl : Place) (gen h v : Nat) (w : State) (e : Option Deriv) (ikey out : Bytes),
        F.1 = .got k gen v → w = F.2.1 → keyAOf (at_ s t) o = some (k, gen, pl) → h = placeHandle w pl →
        e = (derivEntry w term o.att.tenant o.att.derivMaxAge).filter
          (fun e => e.aes == aes && e.bdk == h && e.bdkGen == gen && e.ikid == ikid) →
        ikey = (match e with | some x => x.ikey | none => Payment.dukptInitialKey aes k.material ksn) →
        out = Payment.dukptDecipher aes data ikey ksn
          (if dukptStaged o.snap then inputOf w i.toNat { o with waits := o.waits ++ F.2.2 }
           else Bytes.slice o.snap 0x28 (Bytes.fieldLE o.snap 0x20 1)) →
        (∀ x, e = some x → o.att.dukptCheck = true → ctr ≤ x.high → ∃ u, exec (.dukptDecrypt t (.ring i c)) s = .next u ∧
          Fixes w u i.toNat { o with waits := o.waits ++ F.2.2 }
            { status := 0x0404, due := w.now + segTime o.plan, roundT := some w.now }) ∧
        (∀ x, e = some x → (o.att.dukptCheck = false ∨ x.high < ctr) → ∃ u, exec (.dukptDecrypt t (.ring i c)) s = .next u ∧
          Fixes (if o.att.dukptCheck then { w with keys := { w.keys with deriv := mput w.keys.deriv term { x with high := ctr } } } else w)
            u i.toNat { o with waits := o.waits ++ F.2.2 }
            { status := 0, out := out, res := if dukptStaged o.snap then [] else out, outLen := Bytes.fieldLE o.snap 0x20 1
              due := w.now + segTime o.plan, roundT := some w.now }) ∧
        (e = none → ∃ u, exec (.dukptDecrypt t (.ring i c)) s = .next u ∧ Fixes w u i.toNat { o with waits := o.waits ++ F.2.2 }
          { status := 0, out := out, res := if dukptStaged o.snap then [] else out, outLen := Bytes.fieldLE o.snap 0x20 1
            due := w.now + segTime o.plan, roundT := some w.now
            deriv := some (term, { aes := aes, tenant := o.att.tenant, bdk := h, bdkGen := gen
                                   high := if o.att.dukptCheck then ctr else 0, ikid := ikid, written := 0, ikey := ikey }) })))

/-- EMV_ARQC completes. One whose segment can start and whose key fetch is refused is decided at once with that status. Else it
ends at the end of its fixed time: with 0 and the response asked for when the cryptogram is the MAC of the data under the card's
key, or the session key derived from it, and with 0x0404 and no response otherwise (06_payment_functions.md). -/
def Obligations.EmvArqcRuns : Prop :=
  ∀ (s : State) (t : Nat) (i : InstNo) (c : BitVec 16) (o : RingOp) (f : Fetched) (w : State) (hs : List Nat),
    startable (at_ s t) i.toNat c.toNat (fun d => dOp d == 0x52) = some o →
    fetchKey (at_ s t) (5 + o.bay) o.att.tenant emvRole (keyAOf (at_ s t) o) noNonce always = (f, w, hs) →
    (∀ st, f = .refused st → ∃ u, exec (.emvArqc t (.ring i c)) s = .next u ∧ Fixes w u i.toNat o { status := st, due := w.now }) ∧
    (∀ k gen v mk sk arqc res, f = .got k gen v →
      mk = Payment.emvMasterKey k.material (Payment.panDigits (Bytes.slice o.snap 0x11 10) (Bytes.fieldLE o.snap 0x10 1))
        (Bytes.at' o.snap 0x1B) →
      sk = Payment.emvSessionKey mk (dVar o.snap / 4 % 4 == 0) (Bytes.slice o.snap 0x1C 2) →
      arqc = Bytes.slice o.snap 0x20 8 →
      res = (if Payment.emvMac sk (inputOf w i.toNat o) = arqc then
        Payment.arpc (dVar o.snap % 4) sk arqc (Bytes.slice o.snap 0x1E 2) (Bytes.slice o.snap 0x28 4) else []) →
      ∃ u, exec (.emvArqc t (.ring i c)) s = .next u ∧ Fixes w u i.toNat { o with waits := o.waits ++ hs }
        { status := if Payment.emvMac sk (inputOf w i.toNat o) = arqc then 0 else 0x0404, res := res, outLen := res.length
          due := w.now + segTime o.plan, roundT := some w.now })

/-- ECDSA_SIGN, ECDSA_VERIFY, ED25519_SIGN, ED25519_VERIFY, ECDH_P256, RSA_PRIVATE, RSA_PUBLIC, MLKEM_ENCAPS, MLKEM_DECAPS,
MLDSA_SIGN and MLDSA_VERIFY complete: one whose segment can start takes a free BNC of its bay, RSA_PRIVATE two, each of which
then belongs to its tenant. Where its key is refused, or its draw cannot be served (0x0501), it ends at 1 us; with PUB_IN set no
key is fetched. Else its result, refusal or self-check failure is fixed with its own time point from t0; MLDSA_SIGN begins its
attempts with the 32 bytes drawn. Nothing but the operation and those engines changes beside what the key fetch and the draw
change (08_public_key.md, 09_random.md). -/
def Obligations.PublicKeyOperationsRun : Prop :=
  ∀ (s : State) (t : Nat) (i : InstNo) (c : BitVec 16) (p : Instr × Nat) (o o1 : RingOp) (es : List Nat) (w0 : State)
    (F : Fetched × State × List Nat),
    p ∈ [(Instr.ecdsaSign t (.ring i c), 0x60), (.ecdsaVerify t (.ring i c), 0x61), (.ed25519Sign t (.ring i c), 0x62),
      (.ed25519Verify t (.ring i c), 0x63), (.ecdhP256 t (.ring i c), 0x64), (.rsaPrivate t (.ring i c), 0x66),
      (.rsaPublic t (.ring i c), 0x67), (.mlkemEncaps t (.ring i c), 0x68), (.mlkemDecaps t (.ring i c), 0x69),
      (.mldsaSign t (.ring i c), 0x6A), (.mldsaVerify t (.ring i c), 0x6B)] →
    startable (at_ s t) i.toNat c.toNat (fun d => dOp d == p.2) = some o →
    pkEngines (at_ s t) o.bay o.snap = some es → w0 = enterAll (at_ s t) o.bay o.att.tenant o.snap es → o1 = { o with engines := es } →
    F = (if pubIn o.snap then (.got {} 0 0, w0, [])
      else fetchKey w0 (5 + o.bay) o.att.tenant (pkRole o.snap) (keyAOf w0 o1) noNonce always) →
    (∀ k ∈ es, (mget {} (getBay w0 o.bay).mem k).owner = .tenant o.att.tenant) ∧
    (∀ st, F.1 = .refused st → ∃ u, exec p.1 s = .next u ∧ Fixes F.2.1 u i.toNat o1 { status := st, due := F.2.1.now + 1000 }) ∧
    (∀ k gen v D, F.1 = .got k gen v → D = (if pkDraw o.snap k = 0 then (some [], F.2.1) else draw F.2.1 o.bay (pkDraw o.snap k)) →
      (D.1 = none → ∃ u, exec p.1 s = .next u ∧ Fixes D.2 u i.toNat o1 { status := 0x0501, due := D.2.now + 1000 }) ∧
      (∀ drawn, D.1 = some drawn → p.2 = 0x6A → ∃ u, exec p.1 s = .next u ∧
        Begins D.2 u i.toNat { o1 with waits := o.waits ++ F.2.2, drawn := some drawn } none) ∧
      (∀ drawn e, D.1 = some drawn → p.2 ≠ 0x6A → e = pkEnd o.snap k (inputOf D.2 i.toNat o) drawn → ∃ u, exec p.1 s = .next u ∧
        Fixes D.2 u i.toNat { o1 with waits := o.waits ++ F.2.2 }
          { status := e.status, out := e.out, res := e.res, outLen := if e.out.length = 0 then e.res.length else e.out.length
            due := D.2.now + 1000 * e.us, roundT := some D.2.now, selfFail := e.cause }))

/-- MLDSA_ATTEMPT_END completes. At the end of an attempt of MLDSA_SIGN that is rejected the operation counts one attempt more
and nothing else changes. At the end of one that gives a signature the outcome is fixed 60 us later, the signature where it
verifies, else 0x0405; its output stands in the I/O areas of its engines, whose key areas are zeroed, and the lowest free BNC of
the bay takes the check, or, where none is free, the operation waits for one. A mismatched word of the memories of its engines
raises FABRIC and gives 0x0801 instead. Nothing else changes (08_public_key.md, 01_organisation.md). -/
def Obligations.DsaAttemptsRun : Prop :=
  ∀ (s : State) (t : Nat) (i : InstNo) (c : BitVec 16) (o : RingOp) (k : Key) (gen : Nat) (pl : Place) (q : Lattice.DsaPar),
    findOp (getInst s i.toNat) c.toNat = some o → o.stage = .running → o.outcome = none → dOp o.snap = 0x6A →
    o.squashed = false → o.checkWaited = false → o.t0 + attemptEnd o.snap o.attempts ≤ (at_ s t).now → bayClockRuns s o.bay = true →
    (engineBad s o = true → ∃ u, exec (.mldsaAttemptEnd t (.ring i c)) s = .next u ∧ SetsOp (raiseEngine (at_ s t) o.bay) u i.toNat
      { o with outcome := some { status := 0x0801, due := (at_ s t).now } }) ∧
    (engineBad s o = false → keyAOf (at_ s t) o = some (k, gen, pl) → q = dsaPar o.snap →
    ∀ res, res = Lattice.dsaAttempt q (Lattice.dsaKeyOf q (k.material.take (Lattice.dsaSkLen q))) (inputOf s i.toNat o)
      (o.drawn.getD []) o.attempts →
    (res = none → ∃ u, exec (.mldsaAttemptEnd t (.ring i c)) s = .next u ∧
      SetsOp (at_ s t) u i.toNat { o with attempts := o.attempts + 1 }) ∧
    (∀ sig (ok : Bool) (v : State) (oc : Outcome), res = some sig →
      ok = Lattice.dsaVerify q (k.material.drop (Lattice.dsaSkLen q)) (inputOf s i.toNat o) sig →
      oc = { status := if ok then 0 else 0x0405, out := if ok then sig else [], outLen := if ok then sig.length else 0
             due := max (o.t0 + attemptEnd o.snap o.attempts + 60000) ((at_ s t).now + 60000), roundT := some o.t0
             selfFail := if ok then 0 else 1 } →
      v = each o.engines (at_ s t) (fun w j => leaveSegment (leaveOutput w o.bay j 0x6A) o.bay j) →
      (∀ j, freeEngine v o.bay o.engines = some j → ∃ u, exec (.mldsaAttemptEnd t (.ring i c)) s = .next u ∧
        SetsOp (enterSegment v o.bay j o.att.tenant 0x6A false) u i.toNat { o with
          attempts := o.attempts + 1, engines := o.engines.filter (· != j) ++ [j], checking := true, outcome := some oc }) ∧
      (freeEngine v o.bay o.engines = none → ∃ u, exec (.mldsaAttemptEnd t (.ring i c)) s = .next u ∧
        SetsOp v u i.toNat { o with attempts := o.attempts + 1, checkWaited := true, outcome := some oc })))

/-- UNWRAP completes. One whose segment can start and whose key fetch is refused, or whose message does not open, is decided at
once with that status and inserts nothing; else it ends at the end of its core time with a token of its instance to be inserted
at the completion (10_keys.md, 07_routing_tables.md). -/
def Obligations.UnwrapRuns : Prop :=
  ∀ (s : State) (t : Nat) (i : InstNo) (c : BitVec 16) (o : RingOp) (F : Fetched × State × List Nat) (msg : Bytes),
    startable (at_ s t) i.toNat c.toNat (fun d => dOp d == 0x71) = some o → msg = inputOf s i.toNat o →
    F = fetchKey (at_ s t) (5 + o.bay) o.att.tenant (carriageRole (Bytes.fieldLE msg 4 1)) (keyAOf (at_ s t) o) noNonce always →
    (∀ st, F.1 = .refused st → ∃ u, exec (.unwrap t (.ring i c)) s = .next u ∧
      Fixes F.2.1 u i.toNat o { status := st, due := F.2.1.now }) ∧
    (∀ k gen v, F.1 = .got k gen v →
      (∀ st, unwrapToken F.2.1 o.att.tenant k msg = .error st → ∃ u, exec (.unwrap t (.ring i c)) s = .next u ∧
        Fixes F.2.1 u i.toNat { o with waits := o.waits ++ F.2.2 } { status := st, due := F.2.1.now }) ∧
      (∀ key, unwrapToken F.2.1 o.att.tenant k msg = .ok key → ∃ u, exec (.unwrap t (.ring i c)) s = .next u ∧
        Fixes F.2.1 u i.toNat { o with waits := o.waits ++ F.2.2 }
          { status := 0, due := F.2.1.now + segTime o.plan, roundT := some F.2.1.now
            token := some { tenant := o.att.tenant, inst := i.toNat, time := 0, maxAge := o.att.tokenMaxAge
                            tag := Sha.sha256 (Bytes.ofNatLE 2 o.att.tenant ++ msg), key := key } }))

/-- KUM completes: a key update message whose segment can start takes a free BNC of its bay. One refused at 1 us, whose draws
cannot be served (0x0501), or whose signature or counter fails (0x0404) is decided with that status at its time point, and
changes no key, a mismatched word of the authority key being an event of FABRIC besides; one that passes keeps its drawn bytes
and holds a joint of the custody controller where one is free, which it takes at its t0 (the model's choice, log entry 16).
KUM_CUT completes at the time point of the items, when every island has taken the last epoch, no drain runs and the message is
the oldest commit that waits: where the cut is refused the message ends with that status and its joint is closed; else its items
hold from the next epoch, its joint is closed as committed, its engines hold the identity key for the receipt, and the receipt,
due at its time point, waits for the reservations of the claims made, is released where its signature verifies and ends with
0x0405 else (10_keys.md, 12_dictionary_joints.md, 08_public_key.md). -/
def Obligations.KumRunsAndCuts : Prop :=
  ∀ (s : State) (t : Nat) (i : InstNo) (c : BitVec 16) (o : RingOp) (msg : Bytes), msg = inputOf s i.toNat o →
    (∀ es w, startable (at_ s t) i.toNat c.toNat (fun d => dOp d == 0x70) = some o →
      pkEngines (at_ s t) o.bay o.snap = some es → w = enterAll (at_ s t) o.bay o.att.tenant o.snap es →
      (∀ st, kumEarly w o.att.tenant (authorityOf w o) msg = .error st → ∃ u, exec (.kum t (.ring i c)) s = .next u ∧
        Fixes (refusedKey w (5 + o.bay) st (authorityOf w o)) u i.toNat { o with engines := es } { status := st, due := w.now + 1000 }) ∧
      (∀ m auth D J, kumEarly w o.att.tenant (authorityOf w o) msg = .ok (m, auth) →
        D = kumDraws o.bay (generateBytes m / 32) w → J = openKumJoint D.2 i.toNat (D.2.now + 1000 * kumVerifyUs m) msg →
        (D.1 = none → ∃ u, exec (.kum t (.ring i c)) s = .next u ∧
          Fixes D.2 u i.toNat { o with engines := es } { status := 0x0501, due := w.now + 1000 }) ∧
        (∀ rand, D.1 = some rand → kumSigned auth m = false ∨ m.counter ≤ kumCounter D.2 m.tenant → ∃ u,
          exec (.kum t (.ring i c)) s = .next u ∧
          Fixes D.2 u i.toNat { o with engines := es } { status := 0x0404, due := w.now + 1000 * kumVerifyUs m }) ∧
        (∀ rand, D.1 = some rand → kumSigned auth m = true → kumCounter D.2 m.tenant < m.counter → ∃ u,
          exec (.kum t (.ring i c)) s = .next u ∧
          Begins J.2 u i.toNat { o with engines := es, drawn := some rand, kumVerified := true, kumJoint := J.1 } none))) ∧
    (∀ m, findOp (getInst s i.toNat) c.toNat = some o → parseKum msg true = .ok m → o.kumVerified = true → o.outcome = none →
      o.squashed = false → o.t0 + 1000 * kumItemsUs m ≤ (at_ s t).now → islandsTaken (at_ s t) = true → s.acu.drain = false →
      (o.kumJoint = none ∨ s.ctl.commits.head? = o.kumJoint) → islandRuns s islControl = true → islandRuns s islHub = true →
      (∀ st item w v, kumCutNow (at_ s t) o m = .refused st item w → v = endKumJoint w o st 0 → ∃ u,
        exec (.kumCut t (.ring i c)) s = .next u ∧ SetsOp v u i.toNat { o with
          kumJoint := none, outcome := some { status := st, due := v.now, item := item } }) ∧
      (∀ its ws w v body sig, kumCutNow (at_ s t) o m = .cut its ws w → v = endKumJoint w o 0 w.ctl.epoch →
        body = receiptBody m msg v.ctl.epoch its → sig = identitySign v ((o.drawn.getD []).drop (generateBytes m)) body →
        ∃ u oc, exec (.kumCut t (.ring i c)) s = .next u ∧ w.ctl.epoch = s.ctl.epoch + 1 ∧
          SetsOp (each o.engines v (fun v j => enterSegment v o.bay j o.att.tenant 0x70 true)) u i.toNat
            { o with waits := o.waits ++ ws, kumJoint := none, kumCutDone := true, outcome := some oc } ∧
          oc.due = max (o.t0 + 1000 * kumReceiptUs m) v.now ∧
          (p384Verify v.keys.idPublic body sig = true → oc.status = 0 ∧ oc.out = body ++ sig) ∧
          (p384Verify v.keys.idPublic body sig = false → oc.status = 0x0405 ∧ oc.out = [])))

/-- While the hub has its clock ADMISSION_ROUND_END completes. Where one descriptor alone waits for the decision of a round that
has ended, the round's end decides it, with its instance as the one that began the round's first pass, and leaves the deficit
counter of the instance at 0. Where one descriptor of each of two instances waits, the instance that follows the one which began
the last round's first pass comes first: each pass adds 512 times its weight to the counter of an instance, whose descriptor is
decided where its counter covers its cost; where the first one's does not and the second one's does, the second is decided in
the first pass, and the first in the second pass if its counter covers it then. Where none waits, nothing changes
(02_timing_promise.md, 04_rings.md). -/
def Obligations.AdmissionRoundDecides : Prop :=
  ∀ (s : State) (t : Nat), Legal s → islandRuns s islHub = true →
    ((∀ e ∈ s.insts, ∀ o ∈ e.2.ops, o.stage = .covered → (at_ s t).now / 100 ≤ o.round) →
      exec (.admissionRoundEnd t) s = .next (at_ s t)) ∧
    (∀ (i : Nat) (o : RingOp), findOp (getInst s i) o.count = some o → o.stage = .covered → o.round < (at_ s t).now / 100 →
      (∀ e ∈ s.insts, ∀ o' ∈ e.2.ops, o'.stage = .covered → e.1 = i ∧ o' = o) → 1 ≤ schedWeight s.ctl.cfg i →
      orderCost { at_ s t with sched := { s.sched with drrStart := some i } } i o ≤ 2 * 10 ^ 10 →
      ∃ u d, exec (.admissionRoundEnd t) s = .next u ∧
        u = modInst (decide1 (modInst { at_ s t with sched := { s.sched with drrStart := some i } } i
          (fun x => { x with deficit := d })) i o) i (fun x => { x with deficit := 0 })) ∧
    (∀ (i j : Nat) (o p : RingOp) (w x y : State), i ≠ j →
      findOp (getInst s i) o.count = some o → o.stage = .covered → findOp (getInst s j) p.count = some p → p.stage = .covered →
      o.round = p.round → o.round < (at_ s t).now / 100 →
      (∀ e ∈ s.insts, ∀ q ∈ e.2.ops, q.stage = .covered → (e.1 = i ∧ q = o) ∨ (e.1 = j ∧ q = p)) →
      contenders (at_ s t) o.round (s.sched.drrStart.elim 0 (fun k => (k + 1) % 4096)) = [i, j] →
      w = { at_ s t with sched := { s.sched with drrStart := some i } } → x = granted w i →
      (orderCost x i o ≤ (getInst x i).deficit → y = granted (taken x i o) j → orderCost y j p ≤ (getInst y j).deficit →
        exec (.admissionRoundEnd t) s = .next (taken y j p)) ∧
      (∀ z, (getInst x i).deficit < orderCost x i o → y = granted x j → orderCost y j p ≤ (getInst y j).deficit →
        z = granted (taken y j p) i → orderCost z i o ≤ (getInst z i).deficit →
        exec (.admissionRoundEnd t) s = .next (taken z i o)))

/-- A descriptor that fails a check of R52 before its plan completes with that status, bay 0xFF and its hint; a decline for want
of a seed carries the word of a route that its lookup found. One that passes costs a submission token, and a lookup that found
no route is counted. It waits at the hub when it is a NOP or a ROUTE_LOOKUP; completes with 0x0102 and the frames until the
refill when its instance lacks the core time; is booked at the earliest start and first bay that fit, where its core time is
taken, its charges are booked and its input asked for, as far as the tags of its head go; and completes with 0x0101 and the
frames until a later start fits when none fits within its class. Both of these declines carry the route word of a found route
(02_timing_promise.md, 04_rings.md). -/
def Obligations.DescriptorDecision : Prop :=
  ∀ (s : State) (i : Nat) (o : RingOp), findOp (getInst s i) o.count = some o → ∀ (w : State), w = refill s i →
    (∀ st hint, preStatus w i o = (st, hint) → st ≠ 0 →
      Ended s (decide1 s i o) i o (completionEntry (ringEntries s.ctl.cfg i) o st s.ctl.epoch 0xFF hint 0 (s.now - o.arr)
        (if st = 0x0103 then routeRes { o with route := admissionRoute w i o.snap } st [] else [])) ∧
      EndFrame i s (decide1 s i o)) ∧
    (preStatus w i o = (0, 0) → ∀ (v : State) (p : Plan) (o' : RingOp), v = modInst w i (fun x => { x with sub := x.sub - oneToken }) →
      o' = { o with att := attachOf v i, route := admissionRoute v i o.snap, routeBad := admissionFault v i o.snap } → p = opPlan v i o' →
      ((getInst v i).core < Int.ofNat (p.core * 1000) →
        Ended s (decide1 s i o) i o (completionEntry (ringEntries s.ctl.cfg i) o 0x0102 s.ctl.epoch 0xFF
          (refillFrames s.now o.arr (getInst v i).core (Int.ofNat (p.core * 1000)) (coreRate s.ctl.cfg i) (coreBurst s.ctl.cfg i * 10 ^ 6))
          0 (s.now - o.arr) (routeRes o' 0x0102 [])) ∧
        EndFrame i s (decide1 s i o)) ∧
      (Int.ofNat (p.core * 1000) ≤ (getInst v i).core →
        (dOp o.snap = 1 ∨ dOp o.snap = 2 → SetsOp (countMiss v o') (decide1 s i o) i { o' with stage := .atHub }) ∧
        (dOp o.snap ≠ 1 → dOp o.snap ≠ 2 → ∀ found last, last = o.arr / 2000 + classFrames p.cls - 2 - p.len →
          found = findStart v (headOf v i) p (last + 1 - (s.now / 2000 + 1)) (s.now / 2000 + 1) →
          (found = none →
            Ended s (decide1 s i o) i o (completionEntry (ringEntries s.ctl.cfg i) o 0x0101 s.ctl.epoch 0xFF
              (((findStart v (headOf v i) p (s.now / 2000 + 10240 - p.len + 1 - (last + 1)) (last + 1)).map
                (fun e => min 0xFFFF (e.1 - last))).getD 0xFFFF)
              0 (s.now - o.arr) (routeRes o' 0x0101 [])) ∧
            EndFrame i s (decide1 s i o)) ∧
          (∀ start b A, found = some (start, b) → A = askInput v { o' with stage := .booked, plan := p, bay := b, start := start } →
            findOp (getInst (decide1 s i o) i) o.count = some A.2 ∧
            (getInst (decide1 s i o) i).core = (getInst v i).core - Int.ofNat (p.core * 1000) ∧
            (getInst (decide1 s i o) i).sub = (getInst w i).sub - oneToken ∧
            (∀ j, j ≠ i → getInst (decide1 s i o) j = getInst s j) ∧
            (∀ b', b' ≠ b → getBay (decide1 s i o) b' = getBay s b') ∧
            getBay (decide1 s i o) b = { getBay s b with book := (getBay (addCharges v b start p.charge) b).book } ∧
            (decide1 s i o).sched = (moveRotor (addDma v (headOf v i) start p) p.kind b).sched ∧
            (decide1 s i o).outbox = A.1.outbox ∧ (decide1 s i o).cnt = (countMiss s o').cnt ∧
            decide1 s i o = { s with
              insts := (decide1 s i o).insts, bays := (decide1 s i o).bays, sched := (decide1 s i o).sched
              outbox := (decide1 s i o).outbox, cnt := (decide1 s i o).cnt }))))

/-- FRAME_END completes. Every bay's entry and every DMA entry of the frames that have ended since the last, of a longer gap the
last 10,240, is empty again, and CLOSED in a bay that is closing or out; every other entry stands. Where one frame has ended,
the bay frame of a running bay without a lag ends with it and leaves the lag of R60, and a lagging bay keeps what was booked in
it. Then each bay may book one due test in later frames: 2,000 core-ns and TEST in each frame of the test, and nothing
elsewhere. Beside books, bay frames and the heads' load history nothing changes, but for what the words do that wait in a
channel and are offered again (02_timing_promise.md, 17_host_link.md). -/
def Obligations.FramesEndClear : Prop :=
  ∀ (s : State) (t n k : Nat), n = (at_ s t).now / 2000 → k = min 10240 (n - s.sched.frameEnded) →
    ∃ u v, exec (.frameEnd t) s = .next (redeliver u) ∧ (s.link.stalled = [] → redeliver u = u) ∧
      (∀ b j, b < 28 → j < k → bookEntry v b (n - k + j) = if (getBay s b).st = 0 then 0 else 65536) ∧
      (∀ b f, (∀ j, j < k → f % 10240 ≠ (n - k + j) % 10240) → bookEntry v b f = bookEntry s b f) ∧
      (∀ h j, h < 8 → j < k → dmaEntry v h (n - k + j) = 0) ∧
      (∀ h f, (∀ j, j < k → f % 10240 ≠ (n - k + j) % 10240) → dmaEntry v h f = dmaEntry s h f) ∧
      (∀ b, getBay v b = { getBay s b with
        book := (getBay v b).book, frame := (getBay v b).frame, lag := (getBay v b).lag, past := (getBay v b).past, gone := (getBay v b).gone }) ∧
      (∀ b, b < 28 → k = 1 → framesRun s b = true → (getBay s b).frame < n →
        ((getBay s b).lag = 0 → (getBay v b).frame = n ∧ (getBay v b).gone = 0 ∧ (getBay v b).past = (getBay s b).past.drop 1 ∧
          (getBay v b).lag = lagAfter s b (n - 1) 0 (bookTime (bookEntry s b (n - 1)))) ∧
        ((getBay s b).lag ≠ 0 → (getBay v b).frame = (getBay s b).frame ∧ (getBay v b).lag = (getBay s b).lag ∧
          (getBay v b).past = (getBay s b).past ++ [bookTime (bookEntry s b (n - 1))])) ∧
      (∀ b, getBay u b = { getBay v b with book := (getBay u b).book, testBook := (getBay u b).testBook }) ∧
      (∀ b, (getBay u b).testBook = none ∨ (getBay u b).testBook = (getBay s b).testBook → ∀ f, bookEntry u b f = bookEntry v b f) ∧
      (∀ b e f, (getBay u b).testBook = some (e, f) → (getBay s b).testBook ≠ some (e, f) → n < f ∧
        (∀ j, j < testFrames b → bookEntry u b (f + j) = bookEntry v b (f + j) + 2000 + 2 ^ 17) ∧
        (∀ f', (∀ j, j < testFrames b → f' % 10240 ≠ (f + j) % 10240) → bookEntry u b f' = bookEntry v b f')) ∧
      u.sched.frameEnded = max n s.sched.frameEnded ∧ v.sched.dma = u.sched.dma ∧
      u = { s with
        now := u.now, bays := u.bays, sched := { s.sched with dma := u.sched.dma, frameEnded := u.sched.frameEnded }
        link := { s.link with heads := u.link.heads } }

/-- PERIODIC_TEST_START completes: the booked test of an engine begins in its frames, on an idle engine in service of a bay in
service without another test. REACTIVE_TEST_START completes only while the bay does not lag, on the engine that the queue, a
fault or an overdue test calls for. While a test runs a BNC holds test content that TEST owns, its words whole. ENGINE_TEST_END
completes on the engine under test: the engine stays in service when it passes and leaves service with a record when it fails, a
BNC keeps its content and nobody owns it, and no booking changes. Nothing else changes; where the conditions do not hold,
nothing at all (02_timing_promise.md, 03_inline_answers.md, 06_payment_functions.md, 08_public_key.md). -/
def Obligations.EngineTestsRun : Prop :=
  ∀ (s : State) (t : Nat) (bay : BayNo) (k : BitVec 4) (x : Bay), x = getBay s bay.val →
    (∀ (cmd : Instr) (r : Bool),
      (cmd = .periodicTestStart t bay k ∧ r = false ∧ testable s bay.val k.toNat = true ∧ ∃ f, x.testBook = some (k.toNat, f) ∧
          2000 * f + x.lag ≤ (at_ s t).now ∧ (at_ s t).now / 2000 < f + testFrames bay.val) ∨
        (∃ fault, cmd = .reactiveTestStart t bay ⟨k, fault⟩ ∧ r = true ∧ testable s bay.val k.toNat = true ∧ x.lag = 0 ∧
          reactiveCalled (at_ s t) bay.val k.toNat fault = true) →
      ∃ u, exec cmd s = .next u ∧
        getBay u bay.val = { x with
          test := some { engine := k.toNat, reactive := r, since := (at_ s t).now }, testQueue := x.testQueue.filter (· != k.toNat)
          testBook := if r then x.testBook else none, mem := (getBay u bay.val).mem } ∧
        (isBncBay bay.val = true → ∃ id, mget {} (getBay u bay.val).mem k.toNat =
          { owner := .test, key := .test id, work := .test id, io := .test id }) ∧
        (isBncBay bay.val = false → (getBay u bay.val).mem = x.mem) ∧
        (∀ e, e ≠ k.toNat → mget {} (getBay u bay.val).mem e = mget {} x.mem e) ∧
        (∀ b, b ≠ bay.val → getBay u b = getBay s b) ∧ u = { s with
          now := u.now, bays := u.bays, cnt := u.cnt, free := u.free
          bad := if isBncBay bay.val then s.bad.filter (fun e => !inEngines bay.val [k.toNat] e.1) else s.bad }) ∧
    (testable s bay.val k.toNat = false ∨ (∀ f, x.testBook = some (k.toNat, f) →
        (at_ s t).now < 2000 * f + x.lag ∨ f + testFrames bay.val ≤ (at_ s t).now / 2000) →
      exec (.periodicTestStart t bay k) s = .next (at_ s t)) ∧
    (∀ fault, testable s bay.val k.toNat = false ∨ x.lag ≠ 0 ∨ reactiveCalled (at_ s t) bay.val k.toNat fault = false →
      exec (.reactiveTestStart t bay ⟨k, fault⟩) s = .next (at_ s t)) ∧
    (∀ y pass, x.test = some y → y.engine = k.toNat → bayClockRuns s bay.val = true →
      ∃ u, exec (.engineTestEnd t bay k pass) s = .next u ∧
        getBay u bay.val = { x with
          test := none, tested := mput x.tested k.toNat (at_ s t).now, failed := if pass then x.failed else putBit x.failed k.toNat true
          gone := (getBay u bay.val).gone, mem := (getBay u bay.val).mem } ∧
        (y.reactive = false → (getBay u bay.val).gone = x.gone) ∧
        (isBncBay bay.val = true → mget {} (getBay u bay.val).mem k.toNat = { mget {} x.mem k.toNat with owner := .nobody }) ∧
        (isBncBay bay.val = false → (getBay u bay.val).mem = x.mem) ∧
        (∀ e, e ≠ k.toNat → mget {} (getBay u bay.val).mem e = mget {} x.mem e) ∧
        (∀ b, b ≠ bay.val → getBay u b = getBay s b) ∧ (pass = true → u.evr = s.evr ∧ u.cnt = s.cnt) ∧
        u = { s with now := u.now, bays := u.bays, cnt := u.cnt, evr := u.evr }) ∧
    (∀ pass, (∀ y, x.test = some y → y.engine ≠ k.toNat) ∨ bayClockRuns s bay.val = false →
      exec (.engineTestEnd t bay k pass) s = .next (at_ s t))

/-- BAY_LEAVE completes: a closing bay without work or a test, none of whose bookings lies ahead, is out, its DRBG is not
instantiated, and the operand memories of a BNC bay hold test content that TEST owns, their words whole. BAY_RETURN completes:
while no activation swaps parts, a bay that nothing holds out, whose DRBG is seeded with a full reserve or while the conditioner
is stopped, returns with an empty book and no lag, and nobody owns its operand memories. BAY_FRAME_END completes: the bay frame
of a lagging bay that has run its length ends with the lag of R60. ISLAND_CLOCK_RETURN completes: a stopped clock runs again,
and what waits in a channel is offered again, one word alone with its own effect; the work of a bay resumes late by the time it
stood still (the model's choice, log entry 76), or, of a BNC bay that needs recovery (a free value, log entry 204), ends with
0x0801; and a bay that its fault took out asks for its seed (01_organisation.md, 02_timing_promise.md, 09_random.md). -/
def Obligations.BaysLeaveAndReturn : Prop :=
  ∀ (s : State) (t : Nat) (bay : BayNo) (x : Bay), x = getBay s bay.val →
    (x.st = 1 → bookingsPassed (at_ s t) bay.val = true → bayBusy s bay.val = false → x.test = none →
      ∃ u, exec (.bayLeave t bay) s = .next u ∧ getBay u bay.val = { x with st := 2, drbg := {}, mem := (getBay u bay.val).mem } ∧
        (isBncBay bay.val = true → ∀ k, k < 8 → ∃ id, mget {} (getBay u bay.val).mem k =
          { owner := .test, key := .test id, work := .test id, io := .test id }) ∧
        (isBncBay bay.val = false → (getBay u bay.val).mem = x.mem) ∧
        (∀ b, b ≠ bay.val → getBay u b = getBay s b) ∧
        u.random = (if x.why = .fault ∧ bayClockRuns s bay.val = true then requestSeed s 1 (.inst bay.val) 3 else s).random ∧
        u = { s with
          now := u.now, bays := u.bays, cnt := u.cnt, free := u.free, random := u.random
          bad := if isBncBay bay.val then s.bad.filter (fun e => !inEngines bay.val (upTo 8) e.1) else s.bad }) ∧
    (x.st ≠ 1 ∨ bookingsPassed (at_ s t) bay.val = false ∨ bayBusy s bay.val = true ∨ x.test.isSome = true →
      exec (.bayLeave t bay) s = .next (at_ s t)) ∧
    (x.st = 2 → 1 ≤ s.power.step → bayHeld s bay.val = false → s.fw.act ≠ 2 → s.fw.act ≠ 3 → ∀ full,
      full = (x.drbg.inst && x.drbg.reserve.length == 8192) → (full = true ∨ s.random.stopped = true) →
      ∃ u, exec (.bayReturn t bay) s = .next u ∧
        getBay u bay.val = { x with
          st := 0, why := .inService, book := [], lag := 0, frame := (at_ s t).now / 2000, past := [], gone := 0, mem := (getBay u bay.val).mem } ∧
        (isBncBay bay.val = true → ∀ k, k < 8 → mget {} (getBay u bay.val).mem k = { mget {} x.mem k with owner := .nobody }) ∧
        (isBncBay bay.val = false → (getBay u bay.val).mem = x.mem) ∧
        (∀ b, b ≠ bay.val → getBay u b = getBay s b) ∧
        Beside { at_ s t with bays := u.bays, random := { s.random with awaiting := if full then s.random.awaiting else s.random.on } } u) ∧
    (framesRun s bay.val = true → x.lag ≠ 0 → 2000 * x.frame + x.lag + bayFrameLen x.lag ≤ (at_ s t).now →
      exec (.bayFrameEnd t bay x.frame) s = .next (setBay (at_ s t) bay.val { x with
        frame := x.frame + 1, past := x.past.drop 1, gone := 0
        lag := lagAfter s bay.val x.frame x.lag (x.past.head?.getD (bookTime (bookEntry s bay.val x.frame))) })) ∧
    (∀ f, framesRun s bay.val = false ∨ x.lag = 0 ∨ f ≠ x.frame ∨ (at_ s t).now < 2000 * x.frame + x.lag + bayFrameLen x.lag →
      exec (.bayFrameEnd t bay f) s = .next (at_ s t)) ∧
    (∀ island : Fin 33, islandRuns s island.val = true → exec (.islandClockReturn t island) s = .next (redeliver (at_ s t))) ∧
    (∀ island : Fin 33, island.val < 5 → islandRuns s island.val = false → exec (.islandClockReturn t island) s =
      .next (redeliver { at_ s t with link := { s.link with
        clockStops := mdel s.link.clockStops island.val, outMark := if island.val = islLink then none else s.link.outMark } })) ∧
    (∀ w : State, w.link.stalled = [] → redeliver w = w) ∧
    (∀ (w : State) (i : InstNo) (k : BitVec 16) (d : DmaData) (c : Instr), w.link.stalled = [c] →
      c ∈ [Instr.segmentEnd t (.ring i k), .dmaReadCompletion t (.ring i k) d, .dmaCompletionTimeout t (.ring i k), .conditionedBlock t] →
      exec c { w with link := { w.link with stalled := [] } } = .next (redeliver w)) ∧
    (∀ (island : Fin 33) (b d : Nat) (w : State), island.val = 5 + b → islandRuns s island.val = false →
      d = (at_ s t).now + 1 - mget 0 s.link.clockStops island.val →
      w = { at_ s t with link := { s.link with clockStops := mdel s.link.clockStops island.val }, free := s.free + bit (isBncBay b) } →
      ∃ v, exec (.islandClockReturn t island) s =
          .next (redeliver (if (getBay v b).st = 2 ∧ (getBay v b).why = .fault ∧ v.random.on = true then requestSeed v 1 (.inst b) 3 else v)) ∧
        (isBncBay b = false → v = resumeBay w b d) ∧ (v = resumeBay w b d ∨ v = abandonBay w b) ∧
        (v = resumeBay w b d → mrising s.insts = true → v = { w with insts := v.insts } ∧ ∀ i c o, findOp (getInst s i) c = some o →
          findOp (getInst v i) c = some (if o.bay = b ∧ o.stage = .running then
            { o with t0 := o.t0 + d, outcome := o.outcome.map (fun y => { y with due := y.due + d, roundT := y.roundT.map (· + d) }) } else o)))

/-- SEGMENT_END completes. While the hub has no clock it waits in its channel; at an operation that is ended from outside, or
whose bay has no clock, it changes nothing. Where a word of the memories of its engines no longer matches its code the operation
is decided with 0x0801 and FABRIC is raised. Where its result is to be checked and its producing segment has ended, the check
begins on a second BNC, or waits for one and then takes its whole time (the model's choice, log entry 97). Before its outcome is
due, the output produced so far goes to its host region (its pace is the model's choice, log entry 237). Once the outcome is
due, any check has run, it waits for no reservation and its host requests have retired, the rest of the output of a host region
goes and is read back, whatever the status; then it ends with the status of its outcome, or 0x0207 where a DMA error would have
let it succeed, DONE_LATE in place of DONE after its promised time or after late data, staged output on success only, and the
entry that its outcome gives. A user rule on the memory that the DMA engine reads ends it with 0x0801 (the whole of its engines'
buffers counts, log entry 207). An UNWRAP inserts its token and returns its reference, or ends with 0x0602 where none can be
inserted. Where input still comes, a full input fixes the outcome, and one past its booked time lets its engines go until then
(log entry 236) (04_rings.md, 02_timing_promise.md, 08_public_key.md, 01_organisation.md). -/
def Obligations.SegmentsEnd : Prop :=
  ∀ (s : State) (t : Nat) (i : InstNo) (c : BitVec 16),
    (islandRuns s islHub = false → exec (.segmentEnd t (.ring i c)) s = .next (stall (at_ s t) (.segmentEnd t (.ring i c)))) ∧
    (∀ (o : RingOp), findOp (getInst s i.toNat) c.toNat = some o → islandRuns s islHub = true →
    (o.squashed = true ∨ bayClockRuns s o.bay = false → exec (.segmentEnd t (.ring i c)) s = .next (at_ s t)) ∧
    (∀ (oc : Outcome) (lead : Nat), o.outcome = some oc → o.squashed = false → bayClockRuns s o.bay = true →
      lead = (if o.checking = false ∧ checkWanted o oc = true then checkNs o.snap else 0) →
      (engineBad s o = true → oc.status ≠ 0x0801 → oc.due ≤ (at_ s t).now + lead →
        ∀ F, F = ({ status := 0x0801, due := (at_ s t).now } : Outcome) → ∃ u, exec (.segmentEnd t (.ring i c)) s = .next u ∧
        (o.waits = [] → o.reads = 0 → o.readBack = false → o.stage ≠ .atHub →
          Finishes (raiseEngine (at_ s t) o.bay) u i.toNat { o with outcome := some F } F) ∧
        (o.waits ≠ [] ∨ o.reads ≠ 0 ∨ o.readBack = true →
          SetsOp (raiseEngine (at_ s t) o.bay) u i.toNat { o with outcome := some F })) ∧
      (engineBad s o = false ∨ oc.status = 0x0801 ∨ (at_ s t).now + lead < oc.due →
      (checkWanted o oc = true → o.checking = false →
        ((at_ s t).now + checkNs o.snap < oc.due → exec (.segmentEnd t (.ring i c)) s = .next (at_ s t)) ∧
        (∀ second, oc.due ≤ (at_ s t).now + checkNs o.snap →
          second = (if dOp o.snap = 0x66 ∧ 2 ≤ o.engines.length then o.engines[1]? else freeEngine (at_ s t) o.bay o.engines) →
          (second = none → ∃ u, exec (.segmentEnd t (.ring i c)) s = .next u ∧
            findOp (getInst u i.toNat) c.toNat = some { o with checkWaited := true } ∧
            (∀ k ∈ o.engines, (mget {} (getBay u o.bay).mem k).key = .zero ∧
              ∃ id, (mget {} (getBay u o.bay).mem k).io = .ofOp (dOp o.snap) id) ∧
            u = { s with now := u.now, insts := u.insts, bays := u.bays, free := u.free, bad := u.bad }) ∧
          (∀ k, second = some k → o.checkWaited = true ∨ (at_ s t).now < oc.due ∨ o.waits ≠ [] →
            ∃ u, exec (.segmentEnd t (.ring i c)) s = .next u ∧
              findOp (getInst u i.toNat) c.toNat = some { o with
                engines := o.engines.filter (· != k) ++ [k], checking := true
                outcome := some (if o.checkWaited then { oc with due := max oc.due ((at_ s t).now + checkNs o.snap) } else oc) } ∧
              (∀ e ∈ o.engines, (mget {} (getBay u o.bay).mem e).key = .zero ∧
                ∃ id, (mget {} (getBay u o.bay).mem e).io = .ofOp (dOp o.snap) id) ∧
              (mget {} (getBay u o.bay).mem k).owner = .tenant o.att.tenant ∧
              u = { s with now := u.now, insts := u.insts, bays := u.bays, cnt := u.cnt, free := u.free, bad := u.bad }))) ∧
      (checkWanted o oc = false ∨ o.checking = true →
        ((at_ s t).now < oc.due → ∃ u, exec (.segmentEnd t (.ring i c)) s = .next u ∧ Sends (at_ s t) u i.toNat o) ∧
        (oc.due ≤ (at_ s t).now → o.waits ≠ [] ∨ o.reads ≠ 0 ∨ o.readBack = true →
          exec (.segmentEnd t (.ring i c)) s = .next (at_ s t)) ∧
        (oc.due ≤ (at_ s t).now → o.waits = [] → o.reads = 0 → o.readBack = false → o.stage ≠ .atHub →
          (∀ r w o', o.written = false → hostRegion o oc.out = some r → o' = { o with sent := max o.sent oc.out.length } →
            w = modInst (hostWrites (at_ s t) o (r.ref + o.sent) (oc.out.drop o.sent)) i.toNat (fun x => setOp x o') →
            (decidingOver (at_ s t) dmaMaster (dmaRanges o) true = none → ∃ u, exec (.segmentEnd t (.ring i c)) s = .next u ∧
              (headReads w (o.att.ld / 16) < 512 → SetsOp (emit w (.dmaRead o.att.ld o.att.pasid (r.ref + oc.out.length - 1) 1)) u
                i.toNat { o' with written := true, readBack := true, backT := (at_ s t).now }) ∧
              (512 ≤ headReads w (o.att.ld / 16) → u = w)) ∧
            (∀ hit, decidingOver (at_ s t) dmaMaster (dmaRanges o) true = some hit → ∃ u, exec (.segmentEnd t (.ring i c)) s = .next u ∧
              Ended s u i.toNat o (completionEntry (ringEntries s.ctl.cfg i.toNat) o 0x0801 o.att.epoch o.bay 0 0
                ((at_ s t).now - o.arr) []))) ∧
          (o.written = true ∨ hostRegion o oc.out = none →
            (oc.token = none ∨ baseStatus o oc ≠ 0 → ∃ u, exec (.segmentEnd t (.ring i c)) s = .next u ∧ Finishes (at_ s t) u i.toNat o oc) ∧
            (∀ tok r w, oc.token = some tok → baseStatus o oc = 0 → oc.out = [] → oc.deriv = none → dOp o.snap = 0x71 →
              o.plan.kind ≠ .bnc →
              insertToken (leaveEngines (at_ s t) i.toNat o false) o.att.tokenQuota o.att.tokenPolicy tok = (r, w) →
              ∃ u, exec (.segmentEnd t (.ring i c)) s = .next u ∧ u.keys.slots = s.keys.slots ∧ u.vault = s.vault ∧
                (∀ n k, (mget {} w.keys.cache n).body = .token k → (mget {} u.keys.cache n).body = .token k) ∧
                (∀ ref, r = some ref → Ended s u i.toNat o (completionEntry (ringEntries s.ctl.cfg i.toNat) o (endStatus (at_ s t) o oc)
                  o.att.epoch o.bay 0 4 ((at_ s t).now - o.arr) (Bytes.ofNatLE 4 ref))) ∧
                (r = none → Ended s u i.toNat o (completionEntry (ringEntries s.ctl.cfg i.toNat) o
                  0x0602 o.att.epoch o.bay 0 0 ((at_ s t).now - o.arr) [])))))))) ∧
    (o.outcome = none → o.job = none ∨ o.dmaFault = true → exec (.segmentEnd t (.ring i c)) s = .next (at_ s t)) ∧
    (∀ j, o.outcome = none → o.job = some j → o.squashed = false → o.dmaFault = false → bayClockRuns s o.bay = true →
      (dataLate (at_ s t) o = false ∨ o.suspended = true →
        (inputReady o = true → o.suspended = false → ∃ u, exec (.segmentEnd t (.ring i c)) s = .next u ∧
          SetsOp (at_ s t) u i.toNat { o with
            job := none, outcome := some (jobOutcome (at_ s t) i.toNat o j (max (at_ s t).now (o.t0 + segTime o.plan))) }) ∧
        (∀ es, inputReady o = true → o.suspended = true → es = seatsOf (at_ s t) o →
          (seatsEnough (at_ s t) o = true → ∃ u, exec (.segmentEnd t (.ring i c)) s = .next u ∧
            SetsOp (seatAll (at_ s t) o es) u i.toNat { o with
              engines := es, job := none
              outcome := some (jobOutcome (at_ s t) i.toNat { o with engines := es } j ((at_ s t).now + segTime o.plan)) }) ∧
          (seatsEnough (at_ s t) o = false → exec (.segmentEnd t (.ring i c)) s = .next (at_ s t))) ∧
        (inputReady o = false → ∃ u, exec (.segmentEnd t (.ring i c)) s = .next u ∧ Sends (at_ s t) u i.toNat o)) ∧
      (dataLate (at_ s t) o = true → o.suspended = false → inputReady o = false → o.plan.kind = .cipher → o.waits ≠ [] →
        ∃ u, exec (.segmentEnd t (.ring i c)) s = .next u ∧
          findOp (getInst u i.toNat) c.toNat = some { o with suspended := true, engines := [] } ∧
          u = { s with now := u.now, insts := u.insts, bays := u.bays, bad := u.bad })))

/-- DMA_READ_COMPLETION and DMA_COMPLETION_TIMEOUT complete. While link or hub island has no clock a completion waits in its
channel; a timeout waits for the hub and does not fall due while the link island has no clock. Where no operation has input left
to ask for, the data of a completion join the input of the operation that waits for them, whose oldest requests they retire, and
a full input lets a running operation's outcome be fixed; where a user rule denies the write to its engines' buffers, of which a
transfer counts as reaching all (the model's choice, log entry 207), the operation ends with 0x0801. An error, a poisoned
completion or a timeout of the oldest request retires that request as a fault; with its last request an operation that has no
outcome ends with 0x0207, and one that a reset is ending with its status. The read of the last output byte ends the operation
with its outcome, or with 0x0207 where it fails. A completion that no request waits for, or a timeout before its time, changes
nothing (04_rings.md, 17_host_link.md, 01_organisation.md). -/
def Obligations.DmaRequestsRetire : Prop :=
  ∀ (s : State) (t : Nat) (i : InstNo) (c : BitVec 16),
    (∀ d, islandRuns s islLink = false ∨ islandRuns s islHub = false → exec (.dmaReadCompletion t (.ring i c) d) s =
      .next (stall (at_ s t) (.dmaReadCompletion t (.ring i c) d))) ∧
    (islandRuns s islLink = false → exec (.dmaCompletionTimeout t (.ring i c)) s = .next (at_ s t)) ∧
    (islandRuns s islLink = true → islandRuns s islHub = false → exec (.dmaCompletionTimeout t (.ring i c)) s =
      .next (stall (at_ s t) (.dmaCompletionTimeout t (.ring i c)))) ∧
    (∀ (o : RingOp), findOp (getInst s i.toNat) c.toNat = some o →
    islandRuns s islLink = true → islandRuns s islHub = true → o.stage ≠ .atHub →
    (∀ e ∈ s.insts, ∀ o' ∈ e.2.ops, asksMore o' = false) → (∀ r, inRegion o.snap = some r → r.host = true → o.asked = r.len) →
    ∀ (bad : List Instr), bad = [Instr.dmaReadCompletion t (.ring i c) .error, .dmaReadCompletion t (.ring i c) .poisoned] ++
      (if timedOut (at_ s t) o then [.dmaCompletionTimeout t (.ring i c)] else []) →
    (timedOut (at_ s t) o = false → exec (.dmaCompletionTimeout t (.ring i c)) s = .next (at_ s t)) ∧
    (o.reads = 0 → o.readBack = false → ∀ d, exec (.dmaReadCompletion t (.ring i c) d) s = .next (at_ s t)) ∧
    (∀ bs o1, o.reads ≠ 0 → o.squashed = false → o.dmaFault = false → o.written = false → o1 = takeInput (at_ s t) o bs →
      (bs = [] ∨ decidingOver (at_ s t) dmaMaster (dmaRanges o) false = none →
        (o.outcome.isSome = true ∨ o.job = none ∨ bayClockRuns s o.bay = false →
          ∃ u, exec (.dmaReadCompletion t (.ring i c) (.ok bs)) s = .next u ∧ SetsOp (at_ s t) u i.toNat o1) ∧
        (∀ j, o.outcome = none → o.job = some j → bayClockRuns s o.bay = true → o.suspended = false → dataLate (at_ s t) o = false →
          ∃ u, exec (.dmaReadCompletion t (.ring i c) (.ok bs)) s = .next u ∧
            (inputReady o1 = true → SetsOp (at_ s t) u i.toNat { o1 with
              job := none, outcome := some (jobOutcome (at_ s t) i.toNat o1 j (max (at_ s t).now (o.t0 + segTime o.plan))) }) ∧
            (inputReady o1 = false → Sends (modInst (at_ s t) i.toNat (fun x => setOp x o1)) u i.toNat o1))) ∧
      (∀ hit, bs ≠ [] → decidingOver (at_ s t) dmaMaster (dmaRanges o) false = some hit → o.readBack = false → o1.asks = [] →
        ∃ u, exec (.dmaReadCompletion t (.ring i c) (.ok bs)) s = .next u ∧
          Ended s u i.toNat o (completionEntry (ringEntries s.ctl.cfg i.toNat) o 0x0801 o.att.epoch o.bay 0 0
            ((at_ s t).now - o.arr) []))) ∧
    (∀ cmd ∈ bad, o.reads = 1 → o.readBack = false → o.squashed = false → o.outcome = none →
      ∃ u, exec cmd s = .next u ∧
        Finishes (at_ s t) u i.toNat { o with dmaFault := true, asks := [] } { status := 0x0207, due := (at_ s t).now }) ∧
    (∀ cmd ∈ bad, 1 < o.reads → ∃ u, exec cmd s = .next u ∧
      SetsOp (at_ s t) u i.toNat { o with dmaFault := true, asks := o.asks.drop 1 }) ∧
    (∀ cmd ∈ bad, ∀ oc, o.reads = 1 → o.readBack = false → o.squashed = true → o.outcome = some oc → 1 < oc.status →
      ∃ u, exec cmd s = .next u ∧ Ended s u i.toNat o (completionEntry (ringEntries s.ctl.cfg i.toNat) o oc.status o.att.epoch o.bay 0 0
        ((at_ s t).now - o.arr) (routeRes o oc.status []))) ∧
    (∀ bs oc, o.reads = 0 → o.readBack = true → o.squashed = false → o.dmaFault = false → o.written = true → o.outcome = some oc →
      oc.token = none →
      ∃ u, exec (.dmaReadCompletion t (.ring i c) (.ok bs)) s = .next u ∧ Finishes (at_ s t) u i.toNat { o with readBack := false } oc) ∧
    (∀ cmd ∈ bad, ∀ oc, o.reads = 0 → o.readBack = true → o.squashed = false → o.outcome = some oc → oc.status ≤ 1 →
      ∃ u, exec cmd s = .next u ∧
        Finishes (at_ s t) u i.toNat { o with dmaFault := true, readBack := false } { status := 0x0207, due := (at_ s t).now }))

/-- While the control island has its clock, JOURNAL_RESERVATION_DURABLE, JOURNAL_FLUSH_START, JOURNAL_FLUSH_DONE and
JOURNAL_FLUSH_RETRY complete; the news of a durable reservation waits in its channel while the hub has none. A durable
reservation frees the ring operations and lines that waited for that handle once none of its reservations is left undurable. A
flush takes the first 252 durable records of the stage in a segment of the next epoch, outside DEBUG, once service runs and
while the journal is not rejected (log entry 257); read back whole, it stands in the active half, the journal epoch is its own
and those records leave the stage. A failed attempt uses a segment, leaves the stage as it is and raises FlashErrors; up to
three retries are recorded, and then the flush waits 100 ms, after which JOURNAL_FLUSH_RETRY begins it again. A flush that uses
segment 1,007 is followed by a snapshot in the other half (05_cipher_engines.md, 10_keys.md). -/
def Obligations.JournalRuns : Prop :=
  ∀ (s : State) (t : Nat) (h : BitVec 18) (j : Journal), j = s.keys.journal → islandRuns s islControl = true →
    (islandRuns s islHub = false → exec (.journalReservationDurable t h) s = .next (stall (at_ s t) (.journalReservationDurable t h))) ∧
    (islandRuns s islHub = true → ∃ u, exec (.journalReservationDurable t h) s = .next u ∧ u.keys.journal.stage = markDurable h.toNat j.stage ∧
      ((markDurable h.toNat j.stage).any (fun r => r.r.slot == h.toNat && !r.durable) = true → u.insts = s.insts) ∧
      ((markDurable h.toNat j.stage).any (fun r => r.r.slot == h.toNat && !r.durable) = false → ∀ (i c : Nat),
        (∀ o, findOp (getInst s i) c = some o → findOp (getInst u i) c = some { o with waits := o.waits.filter (· != h.toNat) }) ∧
        (∀ o, (getSlot (getInst s i) c).op = some o →
          (getSlot (getInst u i) c).op = some { o with waits := o.waits.filter (· != h.toNat) })) ∧
      u = { s with now := u.now, insts := u.insts, keys := { s.keys with journal := { j with stage := u.keys.journal.stage } } }) ∧
    (∀ rs seg, rs = ((j.stage.filter (·.durable)).take 252).map (·.r) →
      seg = ({ under := s.vault.rootCheck, epoch := s.vault.journalEpoch + 1, time := (at_ s t).now, snapshot := false, last := false,
               recs := rs } : JourSeg) →
      (rs ≠ [] → j.flushing = none → j.backoff = false → j.rejected = false → serving s = true → s.life.debug = false →
        exec (.journalFlushStart t) s = .next { at_ s t with keys := { s.keys with journal := { j with tries := 0, flushing := some seg } } }) ∧
      (rs = [] ∨ j.flushing.isSome = true ∨ j.backoff = true ∨ j.rejected = true ∨ serving s = false ∨ s.life.debug = true →
        exec (.journalFlushStart t) s = .next (at_ s t)) ∧
      (j.backoff = true → j.rejected = false → s.power.pwrGood = true → serving s = true → s.life.debug = false → j.flushing = none → rs ≠ [] →
        exec (.journalFlushRetry t) s = .next { at_ s t with keys := { s.keys with journal := { j with
          backoff := false, tries := 0, flushing := some seg } } }) ∧
      (j.backoff = false ∨ s.power.pwrGood = false → exec (.journalFlushRetry t) s = .next (at_ s t))) ∧
    (∀ ok, j.flushing = none ∨ s.power.pwrGood = false → exec (.journalFlushDone t ok) s = .next (at_ s t)) ∧
    (∀ seg, j.flushing = some seg → s.power.pwrGood = true → ∀ stage, stage = j.stage.filter (fun x => !(x.durable && seg.recs.contains x.r)) →
      (segmentsUsed j < 1006 → exec (.journalFlushDone t true) s = .next (bump { at_ s t with
        vault := { s.vault with journalEpoch := seg.epoch }
        keys := { s.keys with journal := { j with
          flushing := none, tries := 0, stage := stage
          halfA := if j.activeB then j.halfA else j.halfA ++ [seg], halfB := if j.activeB then j.halfB ++ [seg] else j.halfB } } }
        (odKey 0x6020 5))) ∧
      (segmentsUsed j = 1006 → ∃ u, exec (.journalFlushDone t true) s = .next u ∧
        u.vault = { s.vault with journalEpoch := seg.epoch + (snapshotSegs (at_ s t) (seg.epoch + 1)).length } ∧
        u.keys.journal = { j with
          flushing := none, tries := 0, stage := stage, activeB := !j.activeB
          halfA := if j.activeB then snapshotSegs (at_ s t) (seg.epoch + 1) else j.halfA ++ [seg]
          halfB := if j.activeB then j.halfB ++ [seg] else snapshotSegs (at_ s t) (seg.epoch + 1) } ∧
        u = { s with now := u.now, vault := u.vault, keys := { s.keys with journal := u.keys.journal }, cnt := u.cnt }) ∧
      (segmentsUsed j < 1006 → ∃ u, exec (.journalFlushDone t false) s = .next u ∧
        u.keys.journal = { j with
          flushing := if j.tries < 3 then some seg else none, tries := if j.tries < 3 then j.tries + 1 else 0
          backoff := if j.tries < 3 then j.backoff else true
          halfA := if j.activeB then j.halfA else j.halfA ++ [badJourSeg], halfB := if j.activeB then j.halfB ++ [badJourSeg] else j.halfB } ∧
        counter u (odKey 0x1100 4) = (counter s (odKey 0x1100 4) + 1) % 2 ^ 64 ∧ (3 ≤ j.tries → u.evr = s.evr) ∧
        u = { s with now := u.now, keys := { s.keys with journal := u.keys.journal }, cnt := u.cnt, evr := u.evr }))

/-- KEY_LOG_FLUSH_DONE completes: one that succeeds stands every waiting record in segments of the next epochs and takes the
entries that they answer off the pending list; one that fails uses a segment, leaves the records waiting and raises FlashErrors.
ROUTE_BLOCK_RETURN completes: copies of a cut return to free 1,000 ns after it and no earlier. EVICTION_RESEED completes: it
asks the random island for one block for the eviction generator and changes nothing else (10_keys.md, 07_routing_tables.md,
09_random.md). -/
def Obligations.LogsAndTablesSettle : Prop :=
  ∀ (s : State) (t : Nat) (l : KeyLog), l = s.keys.log →
    (islandRuns s islControl = true → keyLogWrites (at_ s t) = true →
      (∀ segs, segs = keySegs s false l.queue → keySegsUsed l + segs.length < 1200 →
        exec (.keyLogFlushDone t true) s = .next { at_ s t with
          vault := { s.vault with
            keyLogEpoch := s.vault.keyLogEpoch + segs.length
            pending := s.vault.pending.filter (fun e => !l.queue.any (fun r => pendingWord r.handle r.key.isNone == e.1 && r.gen == e.2)) }
          keys := { s.keys with log := { l with
            queue := [], tries := 0, hold := 0
            halfA := if l.activeB then l.halfA else l.halfA ++ segs, halfB := if l.activeB then l.halfB ++ segs else l.halfB } } }) ∧
      (keySegsUsed l < 1199 → ∃ u, exec (.keyLogFlushDone t false) s = .next u ∧
        u.keys.log = { l with
          tries := if l.tries < 3 then l.tries + 1 else 0, hold := if l.tries < 3 then l.hold else (at_ s t).now + 10 ^ 8
          halfA := if l.activeB then l.halfA else l.halfA ++ [badKeySeg], halfB := if l.activeB then l.halfB ++ [badKeySeg] else l.halfB } ∧
        counter u (odKey 0x1100 4) = (counter s (odKey 0x1100 4) + 1) % 2 ^ 64 ∧
        u = { s with now := u.now, keys := { s.keys with log := u.keys.log }, cnt := u.cnt, evr := u.evr })) ∧
    (∀ ok, islandRuns s islControl = false ∨ keyLogWrites (at_ s t) = false → exec (.keyLogFlushDone t ok) s = .next (at_ s t)) ∧
    (islandRuns s islHub = true → ∃ u, exec (.routeBlockReturn t) s = .next u ∧
      (∀ r, r ∈ u.routes.returns ↔ r ∈ s.routes.returns ∧ (at_ s t).now < r.cutT + 1000) ∧
      (∀ b, b ∈ u.routes.blocks ↔ b ∈ s.routes.blocks ∧ ∀ r ∈ s.routes.returns, r.cutT + 1000 ≤ (at_ s t).now → b.1 ∉ r.blocks) ∧
      (∀ a, a ∈ u.routes.arrays ↔ a ∈ s.routes.arrays ∧ ∀ r ∈ s.routes.returns, r.cutT + 1000 ≤ (at_ s t).now →
        ∀ e ∈ r.arrays, a.1 ≠ e.1 * 65536 + e.2) ∧
      u = { s with now := u.now, routes := u.routes }) ∧
    (s.random.on = false → exec (.evictionReseed t) s = .next (at_ s t)) ∧
    (s.random.on = true → s.random.reqs.any (fun r => r.who == .evict) = false →
      exec (.evictionReseed t) s = .next { at_ s t with random := { s.random with
        reqs := s.random.reqs ++ [{ prio := 2, who := .evict, need := 1 }] } })

/-- While the random island is enabled and has its clock, NOISE_WINDOW_END, CHANNEL_FAIL, CHANNEL_RETEST and
CHANNEL_STARTUP_TEST_END complete. A window of a healthy channel that passes both tests is released to the conditioner while it
runs, and the run with which it ends goes on; one that fails excludes its channel. A captured channel's window joins the capture
window with one byte of its test results (the model's choice, log entry 200; a full window drops its oldest bytes, log entry
248). An excluded channel begins its test again one second after its failure, by the cutoffs in force, and joins again when that
test's window passes. A channel that fails is excluded, for good after its third failure since the start; a window that fails
both tests is one failure (the model's choice, log entry 40) (09_random.md). -/
def Obligations.ChannelsAreTested : Prop :=
  ∀ (s : State) (t : Nat) (ch : ChanNo) (w : Bytes) (x : Chan), x = getChan s ch.val → s.random.on = true → islandRuns s islRandom = true →
    (x.st = 0 → x.testing = false → rctFails s x w = false → aptFails s x w = false →
      ∃ u, exec (.noiseWindowEnd t ch w) s = .next u ∧
        u.random.windows = (if s.random.stopped then s.random.windows else s.random.windows ++ [w]) ∧
        getChan u ch.val = { x with windows := x.windows + 1, run := some (rctRuns x w).2, held := none } ∧
        (∀ k, k ≠ ch.val → getChan u k = getChan s k) ∧
        Beside { at_ s t with random := { s.random with chans := u.random.chans, windows := u.random.windows } } u) ∧
    (x.st = 0 → x.testing = false → (rctFails s x w = true ∨ aptFails s x w = true) →
      ∃ u, exec (.noiseWindowEnd t ch w) s = .next u ∧ (getChan u ch.val).st = (if 2 ≤ x.failsStart then 2 else 1) ∧
        (getChan u ch.val).fails = x.fails + 1 ∧ (∀ y ∈ u.random.windows, y ∈ s.random.windows)) ∧
    (x.st = 3 → ∃ u, exec (.noiseWindowEnd t ch w) s = .next u ∧
      u.random.captured = (s.random.captured ++ w ++ [healthResult s x w]).drop ((s.random.captured ++ w ++ [healthResult s x w]).length - 65536) ∧
      u.random.windows = s.random.windows ∧ Beside { at_ s t with random := u.random } u) ∧
    (x.st ≠ 3 → x.st ≠ 0 ∨ x.testing = true → ∃ u, exec (.noiseWindowEnd t ch w) s = .next u ∧
      getChan u ch.val = { x with windows := x.windows + 1, held := none } ∧ u.random.windows = s.random.windows ∧
      Beside { at_ s t with random := u.random } u) ∧
    (∀ apt, x.st = 0 ∨ (x.st = 1 ∧ x.testing = true) → ∃ u, exec (.channelFail t ch apt) s = .next u ∧
      (getChan u ch.val).st = (if 2 ≤ x.failsStart then 2 else 1) ∧ (getChan u ch.val).testing = false ∧
      (getChan u ch.val).failT = (at_ s t).now ∧ (getChan u ch.val).fails = x.fails + 1 ∧ (∀ k, k ≠ ch.val → getChan u k = getChan s k) ∧
      u.keys.slots = s.keys.slots ∧ u.vault = s.vault ∧ u.bays = s.bays ∧ u.insts = s.insts) ∧
    (x.st = 1 → x.testing = false →
      ((x.failT + 10 ^ 9 ≤ (at_ s t).now → ∃ u, exec (.channelRetest t ch) s = .next u ∧
        getChan u ch.val = { x with testing := true, held := none } ∧ (∀ k, k ≠ ch.val → getChan u k = getChan s k) ∧
        u = { s with now := u.now, random := { s.random with chans := u.random.chans } }) ∧
      ((at_ s t).now < x.failT + 10 ^ 9 → exec (.channelRetest t ch) s = .next (at_ s t)))) ∧
    (x.testing = true → ∀ y, y = { x with run := none } →
      (rctFails s y w = false → aptFails s y w = false → ∃ u, exec (.channelStartupTestEnd t ch w) s = .next u ∧
        (getChan u ch.val).st = 0 ∧ (getChan u ch.val).testing = false ∧ (∀ k, k ≠ ch.val → getChan u k = getChan s k) ∧
        (s.random.stopped = true → minHealthy s ≤ channelsLeft u → s.random.katHold = false → s.random.swapHold = false →
          u.random.stopped = false)) ∧
      (rctFails s y w = true ∨ aptFails s y w = true → ∃ u, exec (.channelStartupTestEnd t ch w) s = .next u ∧
        (getChan u ch.val).st = (if 2 ≤ x.failsStart then 2 else 1))) ∧
    (x.testing = false → ∃ u, exec (.channelStartupTestEnd t ch w) s = .next u ∧ Beside (at_ s t) u)

/-- CONDITIONED_BLOCK completes: it waits in its channel while the hub has no clock; while the conditioner runs a block takes
the oldest released window and goes to the first request of the lowest priority number that may be served; a request that has
all its blocks is delivered and leaves the queue (shown for a bay's instantiation and its reseed, the table key and the eviction
generator). DRBG_GENERATE_DONE completes: a generate call that ends adds 2 KiB to its bay's reserve, of the reseeded generator
where a reseed has arrived. DRBG_RESEED completes: a reseed that has arrived sets the call count to 0 (09_random.md). -/
def Obligations.BlocksReachTheirConsumers : Prop :=
  ∀ (s : State) (t : Nat) (bay : BayNo) (d : Drbg), d = (getBay s bay.val).drbg →
    (islandRuns s islRandom = true → islandRuns s islHub = false → ∃ u, exec (.conditionedBlock t) s = .next u ∧
      Beside (stall (at_ s t) (.conditionedBlock t)) u) ∧
    (∀ x ws r, s.random.on = true → s.random.stopped = false → s.random.katRunning = false → s.random.windows = x :: ws →
      islandRuns s islRandom = true → islandRuns s islHub = true → nextRequest s = some r →
      (r.got.length + 1 < r.need → ∃ u, exec (.conditionedBlock t) s = .next u ∧ u.random.windows = ws ∧ u.random.blocks = s.random.blocks + 1 ∧
        u.random.reqs = s.random.reqs.map (fun q => if q.who = r.who then { q with got := r.got ++ [conditionedBlock x] } else q) ∧
        u.keys = s.keys ∧ u.bays = s.bays ∧ u.vault = s.vault ∧ u.insts = s.insts) ∧
      (r.need ≤ r.got.length + 1 → ∀ seed, seed = (r.got ++ [conditionedBlock x]).flatten →
        ∃ u, exec (.conditionedBlock t) s = .next u ∧ u.random.windows = ws ∧ u.random.blocks = s.random.blocks + 1 ∧
          u.random.reqs = s.random.reqs.filter (fun q => q.who != r.who) ∧
          (∀ b c, r.who = .inst b → c = Modes.ctrInstantiate (seed ++ (Bytes.ofNatLE 1 b ++ Bytes.ofNatLE 8 (at_ s t).now)) →
            (getBay u b).drbg = { inst := true, key := c.key, v := c.v, refill := true } ∧ (∀ b', b' ≠ b → getBay u b' = getBay s b')) ∧
          (∀ b, r.who = .reseed b → (getBay u b).drbg = { (getBay s b).drbg with seed := some seed } ∧ (∀ b', b' ≠ b → getBay u b' = getBay s b')) ∧
          (r.who = .tableKey → u.random.tableKey = some seed ∧ u.bays = s.bays) ∧
          (r.who = .evict → u.random.evictSeed = some seed ∧ u.random.evictDraws = 0 ∧ u.bays = s.bays))) ∧
    (bayClockRuns s bay.val = true → d.refill = true →
      (d.seed = none → drbgServes s bay.val = true → ∃ u, exec (.drbgGenerateDone t bay) s = .next u ∧
        (getBay u bay.val).drbg.reserve = d.reserve ++ (Modes.ctrGenerate { key := d.key, v := d.v } 2048).1 ∧
        (getBay u bay.val).drbg.calls = d.calls + 1 ∧ (∀ b, b ≠ bay.val → getBay u b = getBay s b) ∧ u.insts = s.insts ∧ u.keys = s.keys) ∧
      (∀ seed, d.seed = some seed → d.inst = true → 0 < reseedLimit s → ∃ u, exec (.drbgGenerateDone t bay) s = .next u ∧
        (getBay u bay.val).drbg.reserve =
          d.reserve ++ (Modes.ctrGenerate (Modes.ctrReseed { key := d.key, v := d.v } seed) 2048).1 ∧
        (getBay u bay.val).drbg.calls = 1 ∧ (getBay u bay.val).drbg.seed = none)) ∧
    (bayClockRuns s bay.val = true → d.refill = false → ∃ u, exec (.drbgGenerateDone t bay) s = .next u ∧ Beside (at_ s t) u) ∧
    (bayClockRuns s bay.val = true → ∀ seed, d.seed = some seed → ∃ u, exec (.drbgReseed t bay) s = .next u ∧
      (∃ f, (getBay u bay.val).drbg = { d with
        key := (Modes.ctrReseed { key := d.key, v := d.v } seed).key, v := (Modes.ctrReseed { key := d.key, v := d.v } seed).v
        calls := 0, pending := false, owed := false, seed := none, refill := f }) ∧
      (∀ b, b ≠ bay.val → getBay u b = getBay s b) ∧ Beside { at_ s t with bays := u.bays } u) ∧
    (d.seed = none → ∃ u, exec (.drbgReseed t bay) s = .next u ∧ Beside (at_ s t) u)

/-- CONDITIONER_KAT_DONE, DRBG_KAT_DONE and STOP_HOLD_EXPIRY complete while the island concerned has its clock. A conditioner
test that fails stops the conditioner, holds it stopped and raises the island's alarm; one that passes changes neither. A bay's
DRBG test that fails leaves the bay out until the next start with the alarm raised, and one that passes asks for the bay's seed.
A conditioner stopped for StopHoldMs raises the alarm once (09_random.md). -/
def Obligations.RandomTestsAndHolds : Prop :=
  ∀ (s : State) (t : Nat) (bay : BayNo),
    (s.random.katRunning = true → islandRuns s islRandom = true →
      (∃ u, exec (.conditionerKatDone t true) s = .next u ∧ Beside { at_ s t with random := { s.random with
        katRunning := false, katLast := (0x0100 + 2 ^ 16 + 2 ^ 17 * ((at_ s t).now / 1000)) % 2 ^ 64 } } u) ∧
      (∃ u, exec (.conditionerKatDone t false) s = .next u ∧ u.random.katRunning = false ∧ u.random.stopped = true ∧
        u.random.katHold = true ∧ u.alarm.random = true ∧ u.random.katLast = (0x0100 + 2 ^ 17 * ((at_ s t).now / 1000)) % 2 ^ 64 ∧
        u.keys.slots = s.keys.slots ∧ u.vault = s.vault ∧ u.bays = s.bays)) ∧
    ((getBay s bay.val).st = 2 → (getBay s bay.val).why = .kat → bayClockRuns s bay.val = true →
      (∃ u, exec (.drbgKatDone t bay true) s = .next u ∧ (∃ r ∈ u.random.reqs, r.who = .inst bay.val) ∧ u.alarm = s.alarm ∧
        (getBay u bay.val).st = 2 ∧ (getBay u bay.val).why = .fault ∧ (∀ b, b ≠ bay.val → getBay u b = getBay s b)) ∧
      (∃ u, exec (.drbgKatDone t bay false) s = .next u ∧ (getBay u bay.val).st = 2 ∧ (getBay u bay.val).why = .katFailed ∧
        (getBay u bay.val).drbg = {} ∧ u.alarm.random = true ∧ (∀ r ∈ u.random.reqs, r.who ≠ .inst bay.val) ∧
        (∀ b, b ≠ bay.val → getBay u b = getBay s b))) ∧
    (∀ since, s.random.stopT = some since → s.random.stopped = true → s.random.swapHold = false → s.alarm.random = false →
      islandRuns s islRandom = true →
      (since + stopHoldMs s * 10 ^ 6 ≤ (at_ s t).now → ∃ u, exec (.stopHoldExpiry t) s = .next u ∧
        Beside { at_ s t with alarm := { s.alarm with random := true, fresh := s.alarm.fresh ++ [(15, [1, 0xFF])] } } u) ∧
      ((at_ s t).now < since + stopHoldMs s * 10 ^ 6 → ∃ u, exec (.stopHoldExpiry t) s = .next u ∧ Beside (at_ s t) u))

/-- REMASK_PASS_START completes: a pass over slots or vault that is not running begins with the next pass number. On main power
it asks the random island for its word, or takes the chained word while the conditioner is stopped after SEEDING has first
ended, recorded once for both; on backup power the vault's pass takes its word through the mask register. REMASK_PASS_END
completes: a pass ends once its word is there, the memory then stands under the new word and the old one is gone; a pass over
the slots raises FABRIC for each entry it finds mismatched and leaves it under its word. KEYCLOCK_TICK completes: the key clock
counts a second while a root exists and not otherwise. No key, slot or vault field changes (09_random.md, 10_keys.md). -/
def Obligations.MasksPassAndKeyClock : Prop :=
  ∀ (s : State) (t : Nat) (v : Bool) (m m' : Masks), m = maskOf s v → m' = { m with running := true, passNo := m.passNo + 1 } →
    ((maskIsland s v).all (islandRuns s) = true →
      (m.running = true → exec (.remaskPassStart t v) s = .next (at_ s t)) ∧
      (m.running = false → s.power.pwrGood = true → s.random.on = true →
        (s.random.stopped = false ∨ s.random.seeded = false →
          s.random.reqs.any (fun r => r.who == (if v then Consumer.maskVault else .maskSlots)) = false →
          exec (.remaskPassStart t v) s = .next { setMask (at_ s t) v m' with random := { s.random with
            reqs := s.random.reqs ++ [{ prio := 2, who := if v then .maskVault else .maskSlots, need := 2 }] } }) ∧
        (s.random.stopped = true → s.random.seeded = true → idleWord m = [] → ∃ u, exec (.remaskPassStart t v) s = .next u ∧
          maskOf u v = { deliverMask m' (chainWord m') with chainNoted := true } ∧ maskOf u (!v) = maskOf s (!v) ∧
          (s.keys.slotMask.chainNoted = true ∨ s.keys.vaultMask.chainNoted = true → u.evr = s.evr) ∧
          u.keys.slots = s.keys.slots ∧ u.vault = s.vault ∧ u.bays = s.bays)) ∧
      (m.running = false → s.power.pwrGood = false → v = true → ∃ f, exec (.remaskPassStart t v) s =
        .next { at_ s t with free := s.free + 32, keys := { s.keys with
          nlfsr := f, vaultMask := deliverMask m' (Bytes.xor (Bytes.fit 32 (liveWord m)) f) } }) ∧
      (m.running = true → idleWord m ≠ [] → v = true ∨ mismatchedEntries s = [] → ∃ u, exec (.remaskPassEnd t v) s = .next u ∧
        liveWord (maskOf u v) = idleWord m ∧ idleWord (maskOf u v) = [] ∧ (maskOf u v).running = false ∧ (maskOf u v).fresh = [] ∧
        u = setMask (at_ s t) v (maskOf u v)) ∧
      (m.running = true → idleWord m ≠ [] → v = false → ∃ u, exec (.remaskPassEnd t v) s = .next u ∧
        liveWord (maskOf u v) = idleWord m ∧ idleWord (maskOf u v) = [] ∧ u.bad = s.bad ∧ u.keys.slots = s.keys.slots ∧
        (∀ e ∈ mismatchedEntries s, ∀ K, K = wordKey e.1 (e.2 * entryWords e.1) → m.fresh.contains K = false →
          entryWord (maskOf u v) K = entryWord m K) ∧
        u = setMask (each (mismatchedEntries s) (at_ s t) (fun w e => raiseFabric w islHub islHub e.1)) v (maskOf u v)) ∧
      (m.running = false ∨ idleWord m = [] → exec (.remaskPassEnd t v) s = .next (at_ s t))) ∧
    (s.vault.rootAbsent = true → exec (.keyclockTick t) s = .next (at_ s t)) ∧
    (s.vault.rootAbsent = false → exec (.keyclockTick t) s = .next (setDevCounter (at_ s t) 0 ((keyClock s + 1) % 2 ^ 64)))

/-- While the hub has its clock RESET_DRAIN, RESET_SQUASH, RESET_DRAIN_DEADLINE, RESET_REPORT and FREEZE_COMPLETE complete. A
drain request to an instance in service begins a reset with its drain deadline: operations, ring and staging stand, and held
reads on IDLE slots are answered with an IDLE line. A drain or squash request that meets a hub without its clock waits in its
channel. At a squash, at one that follows a drain, and at the deadline of a drain every operation without an outstanding host
request leaves the instance at once; those whose host requests are outstanding, and those that were being ended before, stay to
end with them, and no line stays in a lane. The report finds nothing outstanding: it leaves a clean area, zero counts, the
buckets as they stand, and the instance in service, or FROZEN where it was freezing. A freeze is complete when nothing is
outstanding. Other instances stand throughout; a request to an instance that is UNASSIGNED or SAVED has no effect
(11_instances.md). -/
def Obligations.ResetsAndFreezes : Prop :=
  ∀ (s : State) (t : Nat) (i : InstNo) (x : Inst), x = getInst s i.toNat → mrising x.slots = true →
    (islandRuns s islHub = false → ∀ cmd ∈ [Instr.resetDrain t i, .resetSquash t i], ∃ u, exec cmd s = .next u ∧ Beside (stall (at_ s t) cmd) u) ∧
    (islandRuns s islHub = true →
    ∀ (left : Inst → Prop), left = (fun y => (∀ o ∈ y.ops, o.squashed = true) ∧ (∀ o ∈ x.ops, o.squashed = false →
      o.stage = .covered ∨ (o.reads = 0 ∧ o.readBack = false) → findOp y o.count = none)) →
    (x.st = 0 ∨ x.st = 5 → ∀ cmd ∈ [Instr.resetDrain t i, .resetSquash t i], ∃ u, exec cmd s = .next u ∧ Beside (at_ s t) u) ∧
    (x.st ≠ 0 → x.st ≠ 5 → x.reset = none →
      (∃ u y, exec (.resetDrain t i) s = .next u ∧ y = getInst u i.toNat ∧ y.st = 2 ∧
        y.reset = some { squash := false, arr := (at_ s t).now, deadline := drainDeadline (at_ s t) i.toNat, didSquash := false
                         toFrozen := decide (x.st = 3) || decide (x.st = 4) } ∧
        y.ops = x.ops ∧ y.ring = x.ring ∧ y.staging = x.staging ∧ y.s = x.s ∧ y.h = x.h ∧
        (∀ n, (getSlot x n).st ≠ .idle → getSlot y n = getSlot x n) ∧
        (∀ n, (getSlot x n).st = .idle → getSlot y n = { getSlot x n with held := none }) ∧
        (∀ n h, (getSlot x n).st = .idle → (getSlot x n).held = some h →
          Out.read h.ld h.tag (loadOf (at_ s t) h.ld) idleLine ∈ u.outbox) ∧
        (∀ j, j ≠ i.toNat → getInst u j = getInst s j)) ∧
      (∃ u y, exec (.resetSquash t i) s = .next u ∧ y = getInst u i.toNat ∧ y.st = 2 ∧
        (∃ r, y.reset = some r ∧ r.squash = true ∧ r.didSquash = true) ∧ left y ∧
        (∀ n, (getSlot y n).op = none) ∧ (∀ j, j ≠ i.toNat → getInst u j = getInst s j))) ∧
    (∀ r, x.reset = some r →
      (x.st = 2 → r.squash = false → ∃ u y, exec (.resetSquash t i) s = .next u ∧ y = getInst u i.toNat ∧
        y.reset = some { r with squash := true, didSquash := true } ∧ left y ∧ (∀ n, (getSlot y n).op = none) ∧
        (∀ j, j ≠ i.toNat → getInst u j = getInst s j)) ∧
      (x.st = 2 → ∃ u, exec (.resetDrain t i) s = .next u ∧ Beside (at_ s t) u) ∧
      (r.squash = false → r.deadline ≤ (at_ s t).now → quiet x = false → ∃ u y, exec (.resetDrainDeadline t i) s = .next u ∧
        y = getInst u i.toNat ∧ y.reset = some { r with didSquash := true } ∧ left y ∧
        (∀ n, (getSlot y n).op = none) ∧ (∀ j, j ≠ i.toNat → getInst u j = getInst s j)) ∧
      (r.squash = true ∨ (at_ s t).now < r.deadline ∨ quiet x = true → exec (.resetDrainDeadline t i) s = .next (at_ s t)) ∧
      (quiet x = true → ∃ u, exec (.resetReport t i) s = .next u ∧
        getInst u i.toNat = { x with
          st := if r.toFrozen then 4 else 1, freezeDone := x.freezeDone || r.toFrozen, lastSquash := r.didSquash, resetDone := true
          reset := none, s := 0, h := 0, ring := [], ops := [], staging := [], slots := [], leaving := [], caps := []
          capCount := 0, deficit := 0 } ∧
        (∀ j, j ≠ i.toNat → getInst u j = getInst s j)) ∧
      (quiet x = false → ∃ u, exec (.resetReport t i) s = .next u ∧ Beside (at_ s t) u)) ∧
    (x.st = 3 →
      (quiet x = true → ∃ u, exec (.freezeComplete t i) s = .next u ∧ getInst u i.toNat = { x with st := 4, freezeDone := true } ∧
        (∀ j, j ≠ i.toNat → getInst u j = getInst s j)) ∧
      (quiet x = false → ∃ u, exec (.freezeComplete t i) s = .next u ∧ Beside (at_ s t) u)))

/-- While the hub has its clock: a drain or squash requested while the instance is SAVED or UNASSIGNED is ignored, whether a
host or a joint requests it; a drain requested during a reset in progress is ignored; a squash requested during a drain converts
it, and every operation without an outstanding host request leaves the instance at the squash; a freeze requested during a reset
changes nothing but what its report will leave, and then the report leaves the instance FROZEN; a reset of a FREEZING or FROZEN
instance leaves it FROZEN when it is reported (R310). -/
def Obligations.ResetRequestsMeet : Prop :=
  ∀ (s : State) (t : Nat) (i : InstNo) (x : Inst), x = getInst s i.toNat → islandRuns s islHub = true →
    (x.st = 0 ∨ x.st = 5 → (∀ sq, requestReset s i.toNat sq = s) ∧
      ∀ cmd ∈ [Instr.resetDrain t i, .resetSquash t i], ∃ u, exec cmd s = .next u ∧ Beside (at_ s t) u) ∧
    (x.st = 3 ∨ x.st = 4 → x.reset = none → ∀ cmd ∈ [Instr.resetDrain t i, .resetSquash t i],
      ∃ u r, exec cmd s = .next u ∧ (getInst u i.toNat).st = 2 ∧ (getInst u i.toNat).reset = some r ∧ r.toFrozen = true) ∧
    (∀ r, x.st = 2 → x.reset = some r →
      requestReset s i.toNat false = s ∧ (∃ u, exec (.resetDrain t i) s = .next u ∧ Beside (at_ s t) u) ∧
      (r.squash = false → ∃ u y, exec (.resetSquash t i) s = .next u ∧ y = getInst u i.toNat ∧ y.st = 2 ∧
        y.reset = some { r with squash := true, didSquash := true } ∧
        ∀ o ∈ x.ops, o.squashed = false → o.stage = .covered ∨ (o.reads = 0 ∧ o.readBack = false) → findOp y o.count = none) ∧
      (getInst (writeFreeze s i.toNat 1) i.toNat = { x with reset := some { r with toFrozen := true } } ∧
        ∀ j, j ≠ i.toNat → getInst (writeFreeze s i.toNat 1) j = getInst s j) ∧
      (quiet x = true → r.toFrozen = true → ∃ u, exec (.resetReport t i) s = .next u ∧
        (getInst u i.toNat).st = 4 ∧ (getInst u i.toNat).reset = none ∧ (getInst u i.toNat).freezeDone = true))

/-- While the control island has its clock MIGRATE_OFFER_READY, MIGRATE_OFFER_EXPIRY and MIGRATE_BLOB_READY complete. An offer
that waits becomes readable once its identifier, its ephemeral keys and its signature's nonce are drawn, with the body of R316
and behind it the identity key's signature of that body under the nonce drawn; the device keeps the offer's identifier, its ECDH
scalar and its decapsulation key; where a draw cannot be served it waits. It is gone after 600 s and not before. The blob of a
save becomes readable sealed under the key that the offer's exchange gives, and signed so as well; where a draw cannot be served
it waits. No other instance changes (11_instances.md, 08_public_key.md). -/
def Obligations.MigrationOffersAndBlobs : Prop :=
  ∀ (s : State) (t : Nat) (i : InstNo) (x : Inst), x = getInst s i.toNat → islandRuns s islControl = true →
    (∀ o, x.offer = some o →
      (o.bornT + 600 * 10 ^ 9 ≤ (at_ s t).now →
        exec (.migrateOfferExpiry t i) s = .next (setInst (at_ s t) i.toNat { x with offer := none })) ∧
      ((at_ s t).now < o.bornT + 600 * 10 ^ 9 → exec (.migrateOfferExpiry t i) s = .next (at_ s t)) ∧
      (o.ready = false → s.keys.identity ≠ none →
        (∀ id e d z n ek dk w body, controllerDraws [16, 56, 32, 32, 56] (at_ s t) = (some [id, e, d, z, n], w) →
          (ek, dk) = Lattice.kemKeyGen Lattice.kem1024 d z →
          body = offerBody i.toNat id (identityDigest w) (publicOfScalar (Curve.drawnNonce Curve.p384 e)) ek →
          exec (.migrateOfferReady t i) s = .next (setInst w i.toNat { x with offer := some { o with
            ready := true, bytes := body ++ identitySign w n body, offerId := id
            ecdh := Bytes.ofNatBE 48 (Curve.drawnNonce Curve.p384 e), kem := dk } })) ∧
        (∀ w, controllerDraws [16, 56, 32, 32, 56] (at_ s t) = (none, w) → exec (.migrateOfferReady t i) s = .next w))) ∧
    (∀ req payload, x.saveReq = some req → x.blob = some payload → x.st = 5 → x.blobReady = false →
      (∀ e m n2 n w z2 ct k head c body, controllerDraws [56, 32, 12, 56] (at_ s t) = (some [e, m, n2, n], w) →
        (z2, ct) = Lattice.kemEncaps Lattice.kem1024 (Bytes.slice (offerOf req) 0xA8 1568) m →
        k = migrationKey ((agree384 (Curve.drawnNonce Curve.p384 e) (Bytes.slice (offerOf req) 0x48 96)).getD (Bytes.zeros 48)) z2
          (Bytes.slice (offerOf req) 0x10 16) (identityDigest w) (Bytes.slice (offerOf req) 0x20 32) →
        head = blobHeader (0x710 + payload.length + 96) i.toNat (instTenant s.ctl.cfg i.toNat) (saveHandles req).length
          (Bytes.slice (offerOf req) 0x10 16) (identityDigest w) (Bytes.slice (offerOf req) 0x20 32) x.saveEpoch
          (publicOfScalar (Curve.drawnNonce Curve.p384 e)) ct n2 →
        c = Modes.gcmCrypt (Modes.aes k) n2 payload → body = head ++ c ++ Modes.gcmTag (Modes.aes k) n2 head c →
        exec (.migrateBlobReady t i) s = .next (setInst w i.toNat { x with
          blobReady := true, blob := some (body ++ identitySign w n body) })) ∧
      (∀ w, controllerDraws [56, 32, 12, 56] (at_ s t) = (none, w) → exec (.migrateBlobReady t i) s = .next w))

/-- LD_FUNCTION_LEVEL_RESET, PERST_ASSERT, LINK_DOWN, PERST_DEASSERT and LINK_UP complete. A function level reset squashes the
instances of its LD and ends its sessions; that its decoder and its MSI-X table stay is the model's choice (log entry 165).
PERST_N of a head in use and the loss of a head's link leave the head untrained, its LDs without decoders, and their instances
squashed; that stream keys and unmasked entries go as well is the model's choice (log entry 164). After the loss of its link a
head whose PERST_N is deasserted trains again. A new split applies once every line in use is asserted, and heads that come into
use with it train where their PERST_N is deasserted. A deasserted head trains; one that completes training at a speed and width
of R443 carries traffic in flit mode only, with the DMA capacity of R454 from the next frame. Nothing else of other heads or LDs
changes (17_host_link.md, 11_instances.md). -/
def Obligations.HeadsResetAndTrain : Prop :=
  ∀ (s : State) (t : Nat) (ld : LdNo) (h : HeadNo), s.power.pwrGood = true →
    (∃ u, exec (.ldFunctionLevelReset t ld) s = .next u ∧
      (∀ i, instLd s.ctl.cfg i = ld.toNat → (getInst s i).st ≠ 0 → (getInst s i).st ≠ 5 → (getInst u i).st = 2) ∧
      (∀ i, instLd s.ctl.cfg i ≠ ld.toNat → getInst u i = getInst s i) ∧
      (∀ e, e ∈ u.link.sessions ↔ e ∈ s.link.sessions ∧ overLd ld.toNat e.2 = false) ∧ u.link.msixOpen = s.link.msixOpen ∧
      u.link.hdm = s.link.hdm ∧ u.link.heads = s.link.heads ∧ u.vault = s.vault) ∧
    (h.val < headsNow s →
      (∃ u, exec (.perstAssert t h) s = .next u ∧ (getHead u h.val).perst = true ∧ (getHead u h.val).st = 0 ∧
        (getHead u h.val).ideMem = none ∧ (getHead u h.val).ideIo = none ∧ (getHead u h.val).lds = (getHead s h.val).ldsNext ∧
        (getHead u h.val).downs = (getHead s h.val).downs + bit (decide (2 ≤ (getHead s h.val).st)) ∧
        (∀ e ∈ u.link.msixOpen, e ∈ s.link.msixOpen ∧ e.1 / 2048 / 16 ≠ h.val) ∧
        (∀ d, d / 16 = h.val → mfind u.link.hdm d = none) ∧ (∀ d, d / 16 ≠ h.val → mfind u.link.hdm d = mfind s.link.hdm d) ∧
        (∀ i, instLd s.ctl.cfg i / 16 = h.val → (getInst s i).st ≠ 0 → (getInst s i).st ≠ 5 → (getInst u i).st = 2) ∧
        (∀ i, instLd s.ctl.cfg i / 16 ≠ h.val → getInst u i = getInst s i) ∧
        (∀ k, k ≠ h.val → getHead u k = if (∀ j, j < headsNow s → j ≠ h.val → (getHead s j).perst = true) ∧ linkAlive s = true ∧
            k < headsOf (setting s.ctl.cfg 0x9000 1 0) ∧ (getHead s k).perst = false ∧ (getHead s k).st = 0 then
            { getHead s k with st := 1 } else getHead s k) ∧
        u.link.split = if (∀ k, k < headsNow s → k ≠ h.val → (getHead s k).perst = true) then setting s.ctl.cfg 0x9000 1 0
          else s.link.split) ∧
      (2 ≤ (getHead s h.val).st → ∃ u, exec (.linkDown t h) s = .next u ∧ (getHead u h.val).st = bit (!(getHead s h.val).perst) ∧
        (getHead u h.val).downs = (getHead s h.val).downs + 1 ∧ (getHead u h.val).perst = (getHead s h.val).perst ∧
        (getHead u h.val).ideMem = none ∧ (getHead u h.val).ideIo = none ∧
        (∀ e ∈ u.link.msixOpen, e ∈ s.link.msixOpen ∧ e.1 / 2048 / 16 ≠ h.val) ∧
        (∀ i, instLd s.ctl.cfg i / 16 = h.val → (getInst s i).st ≠ 0 → (getInst s i).st ≠ 5 → (getInst u i).st = 2) ∧
        (∀ i, instLd s.ctl.cfg i / 16 ≠ h.val → getInst u i = getInst s i) ∧ (∀ k, k ≠ h.val → getHead u k = getHead s k) ∧
        (∀ d, d / 16 = h.val → mfind u.link.hdm d = none) ∧ u.link.split = s.link.split) ∧
      (linkAlive s = true → (getHead s h.val).st = 0 → ∃ u, exec (.perstDeassert t h) s = .next u ∧
        getHead u h.val = { getHead s h.val with perst := false, st := 1 } ∧ (∀ k, k ≠ h.val → getHead u k = getHead s k) ∧
        u = { s with now := u.now, link := { s.link with heads := u.link.heads } }) ∧
      (∀ speed width flit, linkAlive s = true → (getHead s h.val).perst = false → trainable s speed width = true →
        ∃ u, exec (.linkUp t h speed width flit) s = .next u ∧
          getHead u h.val = { getHead s h.val with
            st := if flit then 2 else 3, speed := speed, width := width, cdat := (getHead s h.val).cdat + 1
            dmaCapOld := dmaCapAt s h.val ((at_ s t).now / 2000), dmaCap := if flit then 4096 * width * speed / 64 else 0
            dmaFrom := (at_ s t).now / 2000 + 1 } ∧
          (∀ k, k ≠ h.val → getHead u k = getHead s k) ∧ u = { s with now := u.now, link := { s.link with heads := u.link.heads } })) ∧
    (∀ speed width flit, trainable s speed width = false → exec (.linkUp t h speed width flit) s = .next (at_ s t))

/-- CONFIG_REQUEST, HDM_DECODER_COMMIT and MSIX_UNMASK complete; while the link island has no clock each waits in its channel. A
configuration request over an up head is answered, with Request Retry Status until step 7 of the start has ended, with
Memory_Active from the end of step 11 and with Memory_Active_Timeout 1 s. For an LD that is served, a decoder commits with 128
MiB, one way and no skip and at any base; any other commit sets its Error Not Committed bit and drops its range. Unmasking an
entry sends the message that waited for it, once (17_host_link.md). -/
def Obligations.FunctionRegistersAnswer : Prop :=
  ∀ (s : State) (t : Nat) (h : HeadNo) (ld : LdNo) (tag : BitVec 16) (entry : BitVec 11) (base size ways skip : Nat),
    (islandRuns s islLink = false → ∀ cmd ∈ [Instr.configRequest t h tag, .hdmDecoderCommit t ld base size ways skip, .msixUnmask t ld entry],
      exec cmd s = .next (stall (at_ s t) cmd)) ∧
    (islandRuns s islLink = true →
    (headUp s h.val = true →
      exec (.configRequest t h tag) s = .next (emit (at_ s t) (.config h.val tag.toNat (decide (s.power.step < 8)) (serving s) 1))) ∧
    (headUp s h.val = false → exec (.configRequest t h tag) s = .next (at_ s t)) ∧
    (ldServed s ld.toNat = true →
      (∃ u, exec (.hdmDecoderCommit t ld base (128 * 2 ^ 20) 1 0) s = .next u ∧ mfind u.link.hdm ld.toNat = some base ∧
        bitOf u.link.hdmError ld.toNat = false ∧ (∀ d, d ≠ ld.toNat → mfind u.link.hdm d = mfind s.link.hdm d) ∧
        u = { s with now := u.now, link := { s.link with hdm := u.link.hdm, hdmError := u.link.hdmError } }) ∧
      (size ≠ 128 * 2 ^ 20 ∨ ways ≠ 1 ∨ skip ≠ 0 → ∃ u, exec (.hdmDecoderCommit t ld base size ways skip) s = .next u ∧
        mfind u.link.hdm ld.toNat = none ∧ bitOf u.link.hdmError ld.toNat = true ∧
        (∀ d, d ≠ ld.toNat → mfind u.link.hdm d = mfind s.link.hdm d) ∧
        u = { s with now := u.now, link := { s.link with hdm := u.link.hdm, hdmError := u.link.hdmError } }) ∧
      (∃ u, exec (.msixUnmask t ld entry) s = .next u ∧ mget false u.link.msixOpen (ld.toNat * 2048 + entry.toNat) = true ∧
        mget false u.link.msixPend (ld.toNat * 2048 + entry.toNat) = false ∧
        u.outbox = s.outbox ++ (if mget false s.link.msixPend (ld.toNat * 2048 + entry.toNat) then [.msix ld.toNat entry.toNat] else []) ∧
        (∀ k, k ≠ ld.toNat * 2048 + entry.toNat → mget false u.link.msixOpen k = mget false s.link.msixOpen k ∧
          mget false u.link.msixPend k = mget false s.link.msixPend k) ∧
        u = { s with now := u.now, outbox := u.outbox, link := { s.link with msixOpen := u.link.msixOpen, msixPend := u.link.msixPend } })) ∧
    (ldServed s ld.toNat = false → exec (.hdmDecoderCommit t ld base size ways skip) s = .next (at_ s t) ∧
      exec (.msixUnmask t ld entry) s = .next (at_ s t)))

/-- While link and hub have their clocks: the one HDM decoder of an LD that is served commits with size 128 MiB, interleave ways
1 and a DPA skip of 0, and any other programming sets its Error Not Committed bit and leaves it serving nothing; while the
decoder of an LD is not committed, every access of that LD to the area of an instance bound to it, and to an area with no
instance, changes no memory, register, counter or record of the device: all that the device does is to complete it as unclaimed
(R446). -/
def Obligations.DecodersMapAreas : Prop :=
  ∀ (s : State) (t : Nat) (ld : LdNo) (tag : BitVec 16), portRuns s = true →
    (∀ base size ways skip, ldServed s ld.toNat = true → ∃ u, exec (.hdmDecoderCommit t ld base size ways skip) s = .next u ∧
      u = { at_ s t with link := { s.link with hdm := u.link.hdm, hdmError := u.link.hdmError } } ∧
      (size = 128 * 2 ^ 20 → ways = 1 → skip = 0 → mfind u.link.hdm ld.toNat = some base ∧ bitOf u.link.hdmError ld.toNat = false) ∧
      (size ≠ 128 * 2 ^ 20 ∨ ways ≠ 1 ∨ skip ≠ 0 → decoded u ld.toNat = false ∧ bitOf u.link.hdmError ld.toNat = true) ∧
      (∀ d, d ≠ ld.toNat → mfind u.link.hdm d = mfind s.link.hdm d)) ∧
    (headUp s (ld.toNat / 16) = true → serving s = true → decoded s ld.toNat = false →
      ∀ (done : Bool → Out → Prop), done = (fun isRead o =>
        if isRead then ∃ data, o = .read ld.toNat tag.toNat (loadOf (at_ s t) ld.toNat) data
        else ∃ k, o = .done ld.toNat k (loadOf (at_ s t) ld.toNat)) →
      (∀ (i : InstNo) (slot : BitVec 10) (entry : BitVec 11) (line data : Bytes) (k : InlineDrop) (off7 : BitVec 7) (off12 : BitVec 12) (off17 : BitVec 17)
          (off19 : BitVec 19) (arr v : Nat) (tail : BitVec 16) (en : BitVec 64) (full poison isRead : Bool), bound s ld.toNat i.toNat = true →
        (∀ c ∈ [Instr.inlineRequestWrite arr t ld i slot line, .inlineDroppedWrite t ld i slot k off7, .doorbell arr t ld i tail full poison,
            .ringEntryWrite t ld i entry data full poison, .stagingPageWrite t ld i off17 data en poison],
          ∃ o, done false o ∧ exec c s = .next (emit (at_ s t) o)) ∧
        (∃ o, done true o ∧ exec (.inlineResultRead t ld i slot tag) s = .next (emit (at_ s t) o)) ∧
        (∃ o, done isRead o ∧ exec (.unbackedAccess t ld i off19 isRead poison tag) s = .next (emit (at_ s t) o)) ∧
        (∃ o u, done false o ∧ exec (.registerWrite t ld i off12 v full poison) s = .next u ∧ Beside (emit (at_ s t) o) u)) ∧
      (∀ (dpa : BitVec 27) (isRead : Bool),
        (assignedIn s.ctl.cfg).any (fun i => instLd s.ctl.cfg i == ld.toNat && instArea s.ctl.cfg i == dpa.toNat / 0x80000) = false →
        ∃ o, done isRead o ∧ exec (.unboundAreaAccess t ld dpa isRead tag) s = .next (emit (at_ s t) o)))

/-- GET_VERSION, NEGOTIATE_ALGORITHMS, DOE_DISCOVERY, CDAT_TABLE_ACCESS, GET_MEASUREMENTS, CHALLENGE and GET_CERTIFICATE
complete; while the link island has no clock each waits in its channel. From the end of step 7 of a start, over a transport that
is there, GET_VERSION, NEGOTIATE_ALGORITHMS, DOE discovery (whose protocol list is PRESUMED, log entry 161), CDAT table access,
an unsigned GET_MEASUREMENTS and GET_CERTIFICATE (InvalidRequest for a slot other than 0, and Unspecified without a root, are
the model's choice, log entry 163) are each answered and change nothing else. CHALLENGE and a signed GET_MEASUREMENTS are
answered with 96 bytes after their body, whose values this model leaves free (log entry 3); which of the two summary hashes a
CHALLENGE asks for is free as well (log entry 259). They are Busy while SEEDING is in effect and Unspecified without an
identity. DOE is Busy while the Link Manager is replaced. An answer over DOE goes in objects of at most 4,096 bytes
(17_host_link.md, 10_keys.md). -/
def Obligations.SpdmIdentityAnswers : Prop :=
  ∀ (s : State) (t : Nat) (tr : Transport) (ld : LdNo) (slot : BitVec 3) (first last : Fin 9) (signed : Bool),
    (islandRuns s islLink = false → ∀ cmd ∈ [Instr.getVersion t tr, .negotiateAlgorithms t tr, .doeDiscovery t tr, .cdatTableAccess t ld,
        .getMeasurements t tr first last signed, .challenge t tr, .getCertificate t tr slot],
      exec cmd s = .next (stall (at_ s t) cmd)) ∧
    (∀ (w : State) (name : String) (body : Bytes), ∃ parts, parts.flatten = body ∧ parts ≠ [] ∧
      (isMctp tr = false → ∀ p ∈ parts, p.length ≤ 4096) ∧ (body.length ≤ 4096 → parts = [body]) ∧
      answer w tr name body = { w with outbox := w.outbox ++ parts.map (.spdm tr name ·) }) ∧
    (8 ≤ s.power.step → s.power.stop = .running → transportUp s tr = true → islandRuns s islLink = true →
    (s.fw.replacing = some 2 → isMctp tr = false → ∀ cmd, cmd ∈ [Instr.getVersion t tr, .negotiateAlgorithms t tr, .doeDiscovery t tr,
        .challenge t tr, .getCertificate t tr slot, .getMeasurements t tr first last signed] →
      exec cmd s = .next (answer (at_ s t) tr "Busy" [])) ∧
    (s.fw.replacing ≠ some 2 ∨ isMctp tr = true →
      exec (.getVersion t tr) s = .next (answer (at_ s t) tr "VERSION" [0x12, 0x13]) ∧
      (∃ body, exec (.negotiateAlgorithms t tr) s = .next (answer (at_ s t) tr "ALGORITHMS" body)) ∧
      (isMctp tr = false → exec (.doeDiscovery t tr) s = .next (answer (at_ s t) tr "DOE_DISCOVERY" doeProtocols)) ∧
      (tr = .doe ld → exec (.cdatTableAccess t ld) s = .next (answer (at_ s t) tr "CDAT" (cdatBody (getHead s (ld.toNat / 16))))) ∧
      exec (.getMeasurements t tr first last false) s =
        .next (answer (at_ s t) tr "MEASUREMENTS" (measurements (at_ s t) first.val last.val)) ∧
      (slot ≠ 0 → exec (.getCertificate t tr slot) s = .next (answer (at_ s t) tr "ERROR InvalidRequest" [])) ∧
      (s.life.debug = true → exec (.getCertificate t tr 0) s = .next (answer (at_ s t) tr "CERTIFICATE" s.keys.idPublic)) ∧
      (s.life.debug = false → s.vault.rootAbsent = false →
        exec (.getCertificate t tr 0) s = .next (answer (at_ s t) tr "CERTIFICATE" Config.certChain)) ∧
      (s.life.debug = false → s.vault.rootAbsent = true →
        exec (.getCertificate t tr 0) s = .next (answer (at_ s t) tr "ERROR Unspecified" [])) ∧
      (∀ v, v = { at_ s t with free := s.free + 1 } →
        (seedingInForce s = true → exec (.challenge t tr) s = .next (answer v tr "ERROR Busy" [])) ∧
        (seedingInForce s = false → identityThere s = false →
          exec (.challenge t tr) s = .next (answer v tr "ERROR Unspecified" [])) ∧
        (∀ n w, seedingInForce s = false → identityThere s = true → controllerDraw v 56 = (some n, w) →
          ∃ (u : State) (sig : Bytes) (full : Bool), exec (.challenge t tr) s = .next u ∧ sig.length = 96 ∧
            u = answer { w with free := u.free } tr "CHALLENGE_AUTH"
              (Sha.sha384 (measurements (at_ s t) 1 (if full then 8 else 4)) ++ sig))) ∧
      (seedingInForce s = true → exec (.getMeasurements t tr first last true) s = .next (answer (at_ s t) tr "ERROR Busy" [])) ∧
      (seedingInForce s = false → identityThere s = false →
        exec (.getMeasurements t tr first last true) s = .next (answer (at_ s t) tr "ERROR Unspecified" [])) ∧
      (∀ n w, seedingInForce s = false → identityThere s = true → controllerDraw (at_ s t) 56 = (some n, w) →
        ∃ u sig, exec (.getMeasurements t tr first last true) s = .next u ∧ sig.length = 96 ∧
          u = answer { w with free := u.free } tr "MEASUREMENTS" (measurements (at_ s t) first.val last.val ++ sig))))

/-- KEY_EXCHANGE, HEARTBEAT, END_SESSION, IDE_KEY_PROGRAM and HEARTBEAT_LOSS complete; while the link island has no clock the
first four wait in its channel. While the Link Manager serves, a key exchange whose requester key gives a role opens a session
of that role and opener under the lowest free number (the model's choice, log entry 255), the ninth is Busy and a key that gives
none is refused. A heartbeat renews its session's time; END_SESSION, and 60 s without a heartbeat, counted first from the key
exchange (the model's choice, log entry 171), end the session alone and leave its joints open. Keys programmed in a session are
those of the stream named (17_host_link.md, 12_dictionary_joints.md). -/
def Obligations.SessionsOpenAndEnd : Prop :=
  ∀ (s : State) (t : Nat) (tr : Transport) (key : ReqKey) (n : BitVec 3) (x : Session) (h : HeadNo) (mem0 : Bool) (k0 : Bytes),
    (islandRuns s islLink = false → ∀ cmd ∈ [Instr.keyExchange t tr key, .heartbeat t n, .endSession t n, .ideKeyProgram t h mem0 n k0],
      exec cmd s = .next (stall (at_ s t) cmd)) ∧
    (8 ≤ s.power.step → s.power.stop = .running → s.fw.replacing ≠ some 2 → islandRuns s islLink = true →
    (transportUp s tr = true → 8 ≤ s.link.sessions.length →
      exec (.keyExchange t tr key) s = .next (answer (at_ s t) tr "ERROR Busy" [])) ∧
    (transportUp s tr = true → s.link.sessions.length < 8 → requesterRole s key = none →
      exec (.keyExchange t tr key) s = .next (answer (at_ s t) tr "ERROR InvalidRequest" [])) ∧
    (∀ role opener r w k, transportUp s tr = true → s.link.sessions.length < 8 → requesterRole s key = some (role, opener) →
      seedingInForce s = false → identityThere s = true → controllerDraw (at_ s t) 56 = (some r, w) →
      (upTo 8).find? (fun m => (mfind s.link.sessions m).isNone) = some k →
      ∃ u sig, exec (.keyExchange t tr key) s = .next u ∧ sig.length = 96 ∧
        u = answer { w with
          free := u.free
          link := { w.link with sessions := mput s.link.sessions k { role := role, tr := tr, opener := opener, beat := (at_ s t).now } } } tr "KEY_EXCHANGE_RSP" sig) ∧
    (mfind s.link.sessions n.toNat = some x →
      (transportUp s x.tr = true →
        exec (.heartbeat t n) s = .next (answer { at_ s t with link := { s.link with
          sessions := mput s.link.sessions n.toNat { x with beat := (at_ s t).now } } } x.tr "HEARTBEAT_ACK" []) ∧
        (∃ u, exec (.endSession t n) s = .next u ∧ mfind u.link.sessions n.toNat = none ∧
          (∀ m, m ≠ n.toNat → mfind u.link.sessions m = mfind s.link.sessions m) ∧
          u.outbox = s.outbox ++ [.spdm x.tr "END_SESSION_ACK" []] ∧
          (∀ j, getJoint u j = { getJoint s j with path := (getJoint u j).path }) ∧
          u = { s with now := u.now, outbox := u.outbox, link := { s.link with sessions := u.link.sessions }
                       ctl := { s.ctl with joints := u.ctl.joints } }) ∧
        (∀ mem bytes, ∃ u, exec (.ideKeyProgram t h mem n bytes) s = .next u ∧
          getHead u h.val = (if mem then { getHead s h.val with ideMem := some bytes } else { getHead s h.val with ideIo := some bytes }) ∧
          (∀ k, k ≠ h.val → getHead u k = getHead s k) ∧ u.outbox = s.outbox ++ [.spdm x.tr "KP_ACK" []] ∧
          u = { s with now := u.now, outbox := u.outbox, link := { s.link with heads := u.link.heads } })) ∧
      (x.beat + 60 * 10 ^ 9 ≤ (at_ s t).now → ∃ u, exec (.heartbeatLoss t n) s = .next u ∧ mfind u.link.sessions n.toNat = none ∧
        (∀ m, m ≠ n.toNat → mfind u.link.sessions m = mfind s.link.sessions m) ∧ u.outbox = s.outbox) ∧
      ((at_ s t).now < x.beat + 60 * 10 ^ 9 → exec (.heartbeatLoss t n) s = .next (at_ s t))))

/-- MBX_IDENTIFY, IDENTIFY_MEMORY_DEVICE, GET_SUPPORTED_LOGS, GET_LOG, GET_POISON_LIST, MBX_UNSUPPORTED and KALLEK_TUNNEL
complete; while the link island has no clock each waits in its channel. The mailbox of an LD that its host reaches answers each
command as R461 says, Busy while the Link Manager is replaced and Unsupported for any other opcode, and nothing else changes. A
tunnelled Kallek request waits while the clocks on its path have stopped or an earlier request of its path is under way; it is
Busy while the custody controller is replaced; one whose path does not belong to the LD has no effect; a GET that reaches its
handler has the effect of the GET request itself (17_host_link.md, 12_dictionary_joints.md). -/
def Obligations.MailboxAnswers : Prop :=
  ∀ (s : State) (t : Nat) (ld : LdNo) (opcode : BitVec 16) (h0 : KHdr) (op0 : Byte) (body0 : Bytes),
    (islandRuns s islLink = false →
      (∀ cmd ∈ [Instr.mbxIdentify t ld, .identifyMemoryDevice t ld, .getSupportedLogs t ld, .getLog t ld, .getPoisonList t ld,
        .mbxUnsupported t ld opcode], exec cmd s = .next (stall (at_ s t) cmd)) ∧
      ∃ u, exec (.kallekTunnel t ld h0 op0 body0) s = .next u ∧ Beside (stall (at_ s t) (.kallekTunnel t ld h0 op0 body0)) u) ∧
    (islandRuns s islLink = true → pathFree s h0.path = false ∨ (op0 ≠ 0x14 ∧ op0 ≠ 0x15 ∧ signsPending s h0.path = true) →
      ∃ u, exec (.kallekTunnel t ld h0 op0 body0) s = .next u ∧ Beside (stall (at_ s t) (.kallekTunnel t ld h0 op0 body0)) u) ∧
    (islandRuns s islLink = true → ldServed s ld.toNat = true → s.power.stop = .running →
    (s.fw.replacing ≠ some 2 → ∀ p : Instr × String × Bytes,
      p ∈ [(Instr.mbxIdentify t ld, "Success", Bytes.ofNatLE 8 (128 * 2 ^ 20) ++ Bytes.ofNatLE 8 0),
        (.identifyMemoryDevice t ld, "Success", Bytes.ofNatLE 8 (128 * 2 ^ 20) ++ Bytes.ofNatLE 8 0),
        (.getSupportedLogs t ld, "Success", Config.standardAnswer 1), (.getLog t ld, "Success", Config.standardAnswer 2),
        (.getPoisonList t ld, "Success", []), (.mbxUnsupported t ld opcode, "Unsupported", [])] →
      exec p.1 s = .next (emit (at_ s t) (.mailbox (some ld.toNat) p.2.1 p.2.2))) ∧
    (s.fw.replacing = some 2 → ∀ cmd, cmd ∈ [Instr.mbxIdentify t ld, .identifyMemoryDevice t ld, .getSupportedLogs t ld, .getLog t ld,
        .getPoisonList t ld, .mbxUnsupported t ld opcode] →
      exec cmd s = .next (emit (at_ s t) (.mailbox (some ld.toNat) "Busy" []))) ∧
    (∀ (h : KHdr) (op : Byte) (body : Bytes), pathFree s h.path = true → signsPending s h.path = false →
      (s.fw.replacing = some 1 ∨ s.fw.replacing = some 2 → ∃ u, exec (.kallekTunnel t ld h op body) s = .next u ∧
        Beside (emit (at_ s t) (.mailbox (some ld.toNat) "Busy" [])) u) ∧
      (s.fw.replacing ≠ some 1 → s.fw.replacing ≠ some 2 → tunnelPath s ld.toNat h.path = false →
        ∃ u, exec (.kallekTunnel t ld h op body) s = .next u ∧ Beside (at_ s t) u) ∧
      (s.fw.replacing ≠ some 1 → s.fw.replacing ≠ some 2 → tunnelPath s ld.toNat h.path = true → op = 1 → body.length = 12 →
        ∃ u, exec (.kallekTunnel t ld h op body) s = .next u ∧
          Beside (kGet (at_ s t) h (Bytes.fieldLE body 0 2) (Bytes.fieldLE body 2 1) (Bytes.fieldLE body 4 4) (Bytes.fieldLE body 8 4)) u)))

/-- FM_IDENTIFY, GET_LD_INFO, GET_LD_ALLOCATIONS, SET_LD_ALLOCATIONS, GET_MULTI_HEADED_INFO, GET_HEAD_INFO, GET_QOS_STATUS,
FM_UNSUPPORTED, ENTDAA and the MCTP commands of R463 complete; while the link island has no clock each waits in its channel.
From the end of step 7 the fabric manager is answered as R462 says, Busy while the Link Manager is replaced; an allocation other
than 1 to 16 LDs of 128 MiB, or below an enabled LD, is refused, and one that is accepted waits for the next conventional reset
of its head. From the end of step 1 the I3C target takes its dynamic address and endpoint id and answers as R463 says; the MCTP
message type codes are PRESUMED (log entry 161), and Staeno's vendor bits are a free value (log entry 168). Nothing else changes
(17_host_link.md). -/
def Obligations.FabricManagerAndMctpAnswer : Prop :=
  ∀ (s : State) (t : Nat) (h : HeadNo) (opcode : BitVec 16) (count mib : Nat) (addr : BitVec 7) (eid : Byte),
    (islandRuns s islLink = false → ∀ cmd ∈ [Instr.fmIdentify t, .getLdInfo t, .getLdAllocations t h, .setLdAllocations t h count mib,
        .getMultiHeadedInfo t, .getHeadInfo t, .getQosStatus t h, .fmUnsupported t opcode, .entdaa t addr, .setEndpointId t eid,
        .getEndpointId t, .getEndpointUuid t, .getMctpVersionSupport t, .getMessageTypeSupport t, .getVendorMessageSupport t],
      exec cmd s = .next (stall (at_ s t) cmd)) ∧
    (islandRuns s islLink = true →
    (s.power.pwrGood = true → 8 ≤ s.power.step → s.power.stop = .running → s.fw.replacing ≠ some 2 →
      (∀ p : Instr × String × Bytes,
        p ∈ [(Instr.fmIdentify t, "Success", Config.standardAnswer 3),
          (.getLdInfo t, "Success", Bytes.ofNatLE 2 16 ++ Bytes.ofNatLE 8 (128 * 2 ^ 20)),
          (.getLdAllocations t h, "Success", Bytes.ofNatLE 2 (getHead s h.val).lds ++ Bytes.ofNatLE 8 (128 * 2 ^ 20)),
          (.getMultiHeadedInfo t, "Success", Bytes.ofNatLE 1 4 ++ Bytes.ofNatLE 1 s.link.split),
          (.getHeadInfo t, "Success", (upTo 4).flatMap (fun k => Bytes.ofNatLE 1 (getHead s k).st ++ Bytes.ofNatLE 1 (getHead s k).speed
            ++ Bytes.ofNatLE 1 (getHead s k).width)),
          (.getQosStatus t h, "Success", Bytes.ofNatLE 1 (averageLoad (getHead s h.val))), (.fmUnsupported t opcode, "Unsupported", [])] →
        exec p.1 s = .next (emit (at_ s t) (.mailbox none p.2.1 p.2.2))) ∧
      (1 ≤ count → count ≤ 16 → (∀ l, count ≤ l → l < 16 → setting s.ctl.cfg (0x9010 + (16 * h.val + l)) 1 0 ≠ 1) →
        exec (.setLdAllocations t h count 128) s =
          .next (emit (modHead (at_ s t) h.val (fun x => { x with ldsNext := count })) (.mailbox none "Success" []))) ∧
      (count < 1 ∨ 16 < count ∨ mib ≠ 128 ∨ (∃ l, count ≤ l ∧ l < 16 ∧ setting s.ctl.cfg (0x9010 + (16 * h.val + l)) 1 0 = 1) →
        exec (.setLdAllocations t h count mib) s = .next (emit (at_ s t) (.mailbox none "Invalid Input" [])))) ∧
    (linkAlive s = true →
      exec (.entdaa t addr) s = .next (emit { at_ s t with link := { s.link with i3c := addr.toNat } } (.mctp "ENTDAA" (dieTag.take 4 ++ Bytes.ofNatLE 2 Config.vendorBits.toNat))) ∧
      exec (.setEndpointId t eid) s = .next (emit { at_ s t with link := { s.link with eid := eid.toNat } } (.mctp "SET_ENDPOINT_ID" [eid])) ∧
      (∀ p : Instr × String × Bytes,
        p ∈ [(Instr.getEndpointId t, "GET_ENDPOINT_ID", Bytes.ofNatLE 1 s.link.eid),
          (.getEndpointUuid t, "GET_ENDPOINT_UUID", Bytes.fit 16 (Config.standardAnswer 4)),
          (.getMctpVersionSupport t, "GET_MCTP_VERSION_SUPPORT", Config.standardAnswer 5),
          (.getMessageTypeSupport t, "GET_MESSAGE_TYPE_SUPPORT", [0x00, 0x05, 0x06, 0x07, 0x7F]),
          (.getVendorMessageSupport t, "GET_VENDOR_MESSAGE_SUPPORT", Bytes.ofNatBE 4 60412)] →
        exec p.1 s = .next (emit (at_ s t) (.mctp p.2.1 p.2.2)))))

/-- A Kallek request whose way has a stopped clock, or that finds an earlier request of its path under way, waits in its
channel. One that arrives and that its gate lets pass receives one reply and changes nothing: a GET the type, length and bytes
of an object that its role reads and 0x0203 for any other, DESCRIBE the description, with the default that holds for it, of an
object that exists for the role, NEXT the next such object in ascending order, and an unknown message 0x0201. One that the gate
refuses is answered with that status, one that finds no server gets no reply, and one at a replaced Link Manager makes its
mailbox Busy. GET, DESCRIBE, NEXT and KALLEK_UNKNOWN_OP complete in each of these ways (12_dictionary_joints.md). -/
def Obligations.KallekReads : Prop :=
  ∀ (s : State) (t : Nat) (h : KHdr) (index : BitVec 16) (sub : Byte) (offset most : BitVec 32) (op : Byte),
    (pathFree s h.path = false ∨ signsPending s h.path = true → ∀ c ∈ [Instr.get t h index sub offset most, .describe t h index sub,
        .next t h index sub, .kallekUnknownOp t h op], exec c s = .next (stall (at_ s t) c)) ∧
    (pathFree s h.path = true → signsPending s h.path = false →
    (∀ role inst, gate s h = .go role inst →
      (role ≠ roleRecovery →
        (readable (at_ s t) role inst index.toNat sub.toNat = none →
          exec (.get t h index sub offset most) s = .next (emit (at_ s t) (.kallek h 1 0x0203 []))) ∧
        (∀ o total bytes, readable (at_ s t) role inst index.toNat sub.toNat = some o → (index ≠ 0xC000 ∨ sub ≠ 4 ∨ most.toNat ≤ 65536) →
          readBytes (at_ s t) index.toNat sub.toNat o offset.toNat most.toNat = (total, bytes) →
          exec (.get t h index sub offset most) s = .next (emit (at_ s t) (.kallek h 1 0
            (Bytes.ofNatLE 1 o.type ++ Bytes.zeros 3 ++ Bytes.ofNatLE 4 total ++ bytes))))) ∧
      (visible (at_ s t) role inst index.toNat sub.toNat = none →
        exec (.describe t h index sub) s = .next (emit (at_ s t) (.kallek h 2 0x0203 []))) ∧
      (∀ o, visible (at_ s t) role inst index.toNat sub.toNat = some o → role ≠ roleReturn →
        exec (.describe t h index sub) s = .next (emit (at_ s t) (.kallek h 2 0 (descriptor { o with dflt := shownDefault (at_ s t) index.toNat sub.toNat o })))) ∧
      (role ≠ roleReturn → role ≠ roleRecovery →
        (∀ x k, nextVisible (at_ s t) role inst index.toNat sub.toNat = some (x, k) →
          exec (.next t h index sub) s = .next (emit (at_ s t) (.kallek h 3 0 (Bytes.ofNatLE 2 x ++ Bytes.ofNatLE 1 k)))) ∧
        (nextVisible (at_ s t) role inst index.toNat sub.toNat = none →
          exec (.next t h index sub) s = .next (emit (at_ s t) (.kallek h 3 0 [0xFF, 0xFF, 0xFF])))) ∧
      exec (.kallekUnknownOp t h op) s = .next (emit (at_ s t) (.kallek h op.toNat 0x0201 []))) ∧
    (∀ p : Instr × Nat, p ∈ [(Instr.get t h index sub offset most, 1), (.describe t h index sub, 2), (.next t h index sub, 3),
        (.kallekUnknownOp t h op, op.toNat)] →
      (∀ st, gate s h = .refuse st → exec p.1 s = .next (emit (at_ s t) (.kallek h p.2 st []))) ∧
      (gate s h = .silent → exec p.1 s = .next (at_ s t)) ∧
      (∀ ld, gate s h = .busy ld → exec p.1 s = .next (emit (at_ s t) (.mailbox ld "Busy" [])))))

/-- Each waits in its channel while a clock on its way has stopped or an earlier request of its path is under way. JOINT_OPEN
takes a free slot under its next generation and the next serial, at the epoch in force, for a tenant while fewer than 32 tenant
joints are open and none of its instance; a quorum joint's reply waits for its nonce. JOINT_READ answers as GET with the
object's version and adds it to the read set where joints write the object. JOINT_STAGE stages a message whole or not at all,
none in a sealed joint, and none of more than 73,728 bytes (that 0x0202 answers it is the choice of log entry 222).
JOINT_STATEMENT answers the statement that custodians sign. A message that reaches no joint of its opener is refused with
0x0203, every one with 0x0104 once an orderly shutdown is ready. All four complete. No other joint, no configuration and no
epoch changes (12_dictionary_joints.md). -/
def Obligations.JointsOpenAndStage : Prop :=
  ∀ (s : State) (t : Nat) (h : KHdr) (role inst : Nat),
    (pathFree s h.path = false ∨ signsPending s h.path = true → ∀ (flags sub : Byte) (index : BitVec 16) (offset most : BitVec 32)
      (recs : List JRec), ∀ c ∈ [Instr.jointOpen t h flags, .jointRead t h index sub offset most, .jointStage t h recs, .jointStatement t h],
      exec c s = .next (stall (at_ s t) c)) ∧
    (pathFree s h.path = true → signsPending s h.path = false → gate s h = .go role inst →
    (s.power.shutdown = 2 → ∀ (flags sub : Byte) (index : BitVec 16) (offset most : BitVec 32) (recs : List JRec), ∀ p : Instr × Nat,
      p ∈ [(Instr.jointOpen t h flags, 0x10), (.jointRead t h index sub offset most, 0x11), (.jointStage t h recs, 0x12), (.jointStatement t h, 0x13)] →
      exec p.1 s = .next (emit (at_ s t) (.kallek h p.2 0x0104 []))) ∧
    (s.power.shutdown ≠ 2 →
    ((role = roleTenant → (tenantJoints s).length < 32 ∧ (tenantJoints s).any (fun e => e.2.opener == inst) = false) →
      ∀ slot, freeJointSlot s = some slot → ∀ j serial,
      serial = devCounter s 2 + 1 →
      j = ({ gen := if ((getJoint s slot).gen + 1) % 1024 = 0 then 1 else ((getJoint s slot).gen + 1) % 1024, st := 0
             opener := openerOf s h.path, path := h.path, role := role, serial := serial, base := s.ctl.epoch
             lastMsg := (at_ s t).now } : Joint) →
      exec (.jointOpen t h 0) s = .next (emit (setJoint (setDevCounter (at_ s t) 2 serial) slot j) (.kallek h 0x10 0 (openBody slot j))) ∧
      (seedingInForce s = false → s.random.reqs.any (fun r => r.who == .jointNonce slot) = false →
        exec (.jointOpen t h 1) s = .next { setJoint (setDevCounter (at_ s t) 2 serial) slot { j with quorum := true, opening := some h } with
          random := { s.random with reqs := s.random.reqs ++ [{ prio := 2, who := .jointNonce slot, need := 2 }] } }) ∧
      (seedingInForce s = true → exec (.jointOpen t h 1) s = .next (emit (at_ s t) (.kallek h 0x10 0x0103 [])))) ∧
    (role = roleTenant → (32 ≤ (tenantJoints s).length ∨ (tenantJoints s).any (fun e => e.2.opener == inst) = true) →
      exec (.jointOpen t h 0) s = .next (emit (at_ s t) (.kallek h 0x10 0x0903 []))) ∧
    (∀ slot j, ownJoint s h = some (slot, j) →
      (∀ (index : BitVec 16) (sub : Byte) (offset most : BitVec 32) o b, role ≠ roleReturn → role ≠ roleRecovery →
        getBody (touch (at_ s t) slot) role inst index.toNat sub.toNat offset.toNat most.toNat = .ok b →
        dictAt index.toNat sub.toNat = some o →
        ∃ u, exec (.jointRead t h index sub offset most) s = .next u ∧
          u.outbox = s.outbox ++ [.kallek h 0x11 0 (b ++ Bytes.ofNatLE 8 (mget 0 s.ctl.cfg.vers (odKey index.toNat sub.toNat)))] ∧
          getJoint u slot = { j with
            lastMsg := (at_ s t).now
            reads := j.reads ++ if jointWritable o then [(odKey index.toNat sub.toNat, mget 0 s.ctl.cfg.vers (odKey index.toNat sub.toNat))]
              else [] } ∧
          (∀ k, k ≠ slot → getJoint u k = getJoint s k) ∧ u.ctl.cfg = s.ctl.cfg ∧ u.ctl.epoch = s.ctl.epoch) ∧
      (∀ recs, 73728 < (recs.flatMap jrecBytes).length → exec (.jointStage t h recs) s =
        .next (emit (touch (at_ s t) slot) (.kallek h 0x12 0x0202 []))) ∧
      (∀ recs, (recs.flatMap jrecBytes).length ≤ 73728 → j.commit = none → j.st ≠ 1 → recs ≠ [] → withinLimits (touch (at_ s t) slot) j recs = true →
        (∀ n st, firstRefused (touch (at_ s t) slot) role inst j.quorum j.recs recs 0 recs = some (n, st) →
          ∃ u, exec (.jointStage t h recs) s = .next u ∧ getJoint u slot = { j with lastMsg := (at_ s t).now } ∧
            (∀ k, k ≠ slot → getJoint u k = getJoint s k) ∧ u.ctl.cfg = s.ctl.cfg ∧ u.ctl.epoch = s.ctl.epoch ∧
            u.outbox = s.outbox ++ [.kallek h 0x12 st (Bytes.ofNatLE 2 0 ++ Bytes.ofNatLE 2 n)]) ∧
        (firstRefused (touch (at_ s t) slot) role inst j.quorum j.recs recs 0 recs = none →
          ∃ u, exec (.jointStage t h recs) s = .next u ∧ (getJoint u slot).recs = j.recs ++ recs ∧
            (getJoint u slot).bytes = j.bytes + recsCost recs ∧ u.ctl.cfg = s.ctl.cfg ∧ u.ctl.epoch = s.ctl.epoch ∧
            (∀ k, k ≠ slot → getJoint u k = getJoint s k) ∧
            u.outbox = s.outbox ++ [.kallek h 0x12 0 (Bytes.ofNatLE 2 recs.length ++ Bytes.ofNatLE 2 0xFFFF)])) ∧
      (∀ recs, (recs.flatMap jrecBytes).length ≤ 73728 → j.commit = none → j.st = 1 → ∃ u, exec (.jointStage t h recs) s = .next u ∧
        getJoint u slot = { j with lastMsg := (at_ s t).now } ∧ (∀ k, k ≠ slot → getJoint u k = getJoint s k) ∧
        u.ctl.cfg = s.ctl.cfg ∧ u.ctl.epoch = s.ctl.epoch ∧ u.outbox = s.outbox ++ [.kallek h 0x12 0x0902 []])) ∧
    (ownJoint s h = none → (∀ recs, exec (.jointStage t h recs) s = .next (emit (at_ s t) (.kallek h 0x12 0x0203 []))) ∧
      ∀ index sub offset most, exec (.jointRead t h index sub offset most) s = .next (emit (at_ s t) (.kallek h 0x11 0x0203 []))) ∧
    (role ≠ roleReturn → role ≠ roleRecovery →
      (∀ slot j, anyJoint s h role = some (slot, j) →
        exec (.jointStatement t h) s = .next (emit (touch (at_ s t) slot) (.kallek h 0x13 0 (statement s slot j)))) ∧
      (anyJoint s h role = none → exec (.jointStatement t h) s = .next (emit (at_ s t) (.kallek h 0x13 0x0203 []))))))

/-- Each waits in its channel while a clock on its way has stopped or an earlier request of its path waits; JOINT_ABORT and
JOINT_STATUS also while a signature of their path is under verification. A signature waits for its verification. A commit that
lacks its quorum waits for the signatures under verification (that it begins with the last signature that the quorum needs is
the reading of log entry 223); one without its quorum is declined with 0x0902, one while no cut may be taken or once a shutdown
is ready with 0x0104, and both leave the joint open; one that fails a check, finds a mismatched word of its records in the
staging store (0x0801), or whose prepare record has failed three times, ends its joint as FAILED with that status and changes no
configuration; any other waits for its cut after those that began before it. An abort of a joint whose commit has not begun ends
it as ABORTED. A status is answered from the joint, open or ended, to its opener. All four complete (12_dictionary_joints.md). -/
def Obligations.JointsSignAndCommit : Prop :=
  ∀ (s : State) (t : Nat) (h : KHdr) (role inst slot : Nat) (j : Joint),
    (pathFree s h.path = false → ∀ (k : Byte) sig, exec (.jointSign t h k sig) s = .next (stall (at_ s t) (.jointSign t h k sig)) ∧
      ∃ u, exec (.jointCommit t h) s = .next u ∧ Beside (stall (at_ s t) (.jointCommit t h)) u) ∧
    (pathFree s h.path = false ∨ signsPending s h.path = true → exec (.jointStatus t h) s = .next (stall (at_ s t) (.jointStatus t h)) ∧
      ∃ u, exec (.jointAbort t h) s = .next u ∧ Beside (stall (at_ s t) (.jointAbort t h)) u) ∧
    (pathFree s h.path = true → gate s h = .go role inst → role ≠ roleReturn → role ≠ roleRecovery →
    (s.power.shutdown = 2 →
      (∀ (c : Byte) sig, exec (.jointSign t h c sig) s = .next (emit (at_ s t) (.kallek h 0x14 0x0104 []))) ∧
      (signsPending s h.path = false → exec (.jointStatus t h) s = .next (emit (at_ s t) (.kallek h 0x17 0x0104 [])) ∧
        ∃ u, exec (.jointAbort t h) s = .next u ∧ Beside (emit (at_ s t) (.kallek h 0x16 0x0104 [])) u) ∧
      (ownJoint s h = none → ∃ u, exec (.jointCommit t h) s = .next u ∧ Beside (emit (at_ s t) (.kallek h 0x15 0x0104 [])) u)) ∧
    (s.power.shutdown ≠ 2 →
      (∀ (c : Byte) sig, anyJoint s h role = some (slot, j) → exec (.jointSign t h c sig) s =
        .next (setJoint (at_ s t) slot { j with lastMsg := (at_ s t).now, verifying := j.verifying ++ [(c.toNat, sig, h)] })) ∧
      (∀ (c : Byte) sig, anyJoint s h role = none → exec (.jointSign t h c sig) s = .next (emit (at_ s t) (.kallek h 0x14 0x0203 []))) ∧
      (signsPending s h.path = false → ownJoint s h = some (slot, j) → j.commit.isSome = true →
        ∃ u, exec (.jointAbort t h) s = .next u ∧ Beside (emit (at_ s t) (.kallek h 0x16 0x0203 [])) u) ∧
      (signsPending s h.path = false → ownJoint s h = some (slot, j) → j.commit = none → ∃ u, exec (.jointAbort t h) s = .next u ∧ (getJoint u slot).st = 4 ∧
        (getJoint u slot).recs = [] ∧ (∀ k, k ≠ slot → getJoint u k = getJoint s k) ∧ (.kallek h 0x16 0 []) ∈ u.outbox ∧ u.ctl.cfg = s.ctl.cfg) ∧
      (ownJoint s h = none → (∃ u, exec (.jointCommit t h) s = .next u ∧ Beside (emit (at_ s t) (.kallek h 0x15 0x0203 [])) u) ∧
        (signsPending s h.path = false → ∃ u, exec (.jointAbort t h) s = .next u ∧ Beside (emit (at_ s t) (.kallek h 0x16 0x0203 [])) u)) ∧
      (signsPending s h.path = false → namedJoint s h = some (slot, j) → samePath j.path h.path = true → exec (.jointStatus t h) s =
        .next (emit (if jointOpen j then setJoint (at_ s t) slot { j with lastMsg := (at_ s t).now } else at_ s t) (.kallek h 0x17 0 (statusBody j)))) ∧
      (signsPending s h.path = false → namedJoint s h = none → exec (.jointStatus t h) s = .next (emit (at_ s t) (.kallek h 0x17 0x0203 [])))) ∧
    (ownJoint s h = some (slot, j) → j.commit.isSome = true →
      ∃ u, exec (.jointCommit t h) s = .next u ∧ Beside (emit (at_ s t) (.kallek h 0x15 0x0203 [])) u) ∧
    (ownJoint s h = some (slot, j) → j.commit = none → ∀ w, w = setJoint (at_ s t) slot { j with lastMsg := (at_ s t).now } →
      (j.verifying ≠ [] → quorumPresent w j = false → ∃ u, exec (.jointCommit t h) s = .next u ∧
        getJoint u slot = { j with lastMsg := (at_ s t).now, commit := some h } ∧ u.outbox = s.outbox ∧ u.ctl.commits = s.ctl.commits) ∧
      (j.verifying = [] ∨ quorumPresent w j = true → cutForbidden s = true ∨ s.power.shutdown = 2 → ∃ u, exec (.jointCommit t h) s = .next u ∧
        (getJoint u slot).st = j.st ∧ (getJoint u slot).commit = none ∧ u.outbox = s.outbox ++ [.kallek h 0x15 0x0104 []] ∧
        u.ctl.cfg = s.ctl.cfg ∧ u.ctl.epoch = s.ctl.epoch) ∧
      (j.verifying = [] → quorumPresent w j = false → cutForbidden s = false → s.power.shutdown ≠ 2 → ∃ u, exec (.jointCommit t h) s = .next u ∧
        (getJoint u slot).st = j.st ∧ (getJoint u slot).commit = none ∧ u.outbox = s.outbox ++ [.kallek h 0x15 0x0902 []] ∧
        u.ctl.cfg = s.ctl.cfg ∧ u.ctl.epoch = s.ctl.epoch) ∧
      (∀ key, jointBad w slot = some key → quorumPresent w j = true → cutForbidden s = false → s.power.shutdown ≠ 2 →
        ∃ u, exec (.jointCommit t h) s = .next u ∧ (getJoint u slot).st = 3 ∧ (getJoint u slot).final = 0x0801 ∧
          (.kallek h 0x15 0x0801 []) ∈ u.outbox ∧ u.ctl.cfg = s.ctl.cfg ∧ u.ctl.epoch = s.ctl.epoch) ∧
      (jointBad w slot = none → quorumPresent w j = true → cutForbidden s = false → s.power.shutdown ≠ 2 →
        ∀ p, p = commitPass (setJoint w slot { j with lastMsg := (at_ s t).now, commit := some h }) { j with lastMsg := (at_ s t).now } →
        (p.bad ≠ 0 → ∃ u, exec (.jointCommit t h) s = .next u ∧ (getJoint u slot).st = 3 ∧ (getJoint u slot).final = p.bad ∧
          (.kallek h 0x15 p.bad []) ∈ u.outbox ∧ (∀ v ∈ j.verifying, (.kallek v.2.2 0x14 0x0902 []) ∈ u.outbox) ∧
          u.ctl.cfg = s.ctl.cfg ∧ u.ctl.epoch = s.ctl.epoch) ∧
        (p.bad = 0 → j.prepTries < 3 → ∃ u, exec (.jointCommit t h) s = .next u ∧
          u.ctl.commits = s.ctl.commits.filter (fun k => decide ((getJoint w k).beginT ≤ (at_ s t).now)) ++ [slot]
            ++ s.ctl.commits.filter (fun k => !decide ((getJoint w k).beginT ≤ (at_ s t).now)) ∧
          (getJoint u slot).commit = some h ∧ (getJoint u slot).beginT = (at_ s t).now ∧ u.outbox = s.outbox ∧
          (getJoint u slot).prep = (if s.life.debug = true ∨ j.prep ≠ .none then j.prep else .writing (at_ s t).now) ∧
          u.ctl.cfg = s.ctl.cfg ∧ u.ctl.epoch = s.ctl.epoch) ∧
        (p.bad = 0 → 3 ≤ j.prepTries → ∃ u, exec (.jointCommit t h) s = .next u ∧ (getJoint u slot).st = 3 ∧
          (getJoint u slot).final = 0x0903 ∧ u.ctl.cfg = s.ctl.cfg ∧ u.ctl.epoch = s.ctl.epoch))))

/-- The signature verified first in order is attached and seals its joint where it is good, and is answered with 0x0902 and
attached to nothing otherwise; a waiting commit begins once its quorum is there or nothing is left to verify, and requests that
waited behind the signature are offered again. A prepare record that is durable stands in the configuration log, with the route
content that it changes; its third failed attempt gives it up. A joint without a message for JointIdleS is ABORTED, and not
before. With the clock of the control island stopped no signature is verified, no record becomes durable and no joint expires.
JOINT_SIGN_VERIFIED, PREPARE_DURABLE and JOINT_IDLE_EXPIRY complete (12_dictionary_joints.md). -/
def Obligations.JointsVerifyAndExpire : Prop :=
  ∀ (s : State) (t : Nat) (slot : BitVec 6) (j : Joint), j = getJoint s slot.toNat →
    (islandRuns s islControl = false → ∀ ok, (∃ u, exec (.jointSignVerified t slot) s = .next (redeliver u) ∧ Beside (at_ s t) u) ∧
      ∀ c ∈ [Instr.prepareDurable t slot ok, .jointIdleExpiry t slot], ∃ u, exec c s = .next u ∧ Beside (at_ s t) u) ∧
    (islandRuns s islControl = true → s.power.pwrGood = true → jointOpen j = true →
    (∀ c sig h rest good w, j.verifying = (c, sig, h) :: rest → good = signatureGood s slot.toNat j c sig →
      w = emit (setJoint (at_ s t) slot.toNat (if good then
            { j with verifying := rest, sigs := putBit j.sigs c true, st := 1
                     prep := if j.prep = .none ∧ s.life.debug = false then .writing (at_ s t).now else j.prep }
          else { j with verifying := rest }))
        (if good then .kallek h 0x14 0 (Bytes.ofNatLE 1 (popCount 16 (putBit j.sigs c true)) ++ Bytes.zeros 3) else .kallek h 0x14 0x0902 []) →
      (j.commit = none ∨ (rest ≠ [] ∧ quorumPresent w (getJoint w slot.toNat) = false) ∨ slot.toNat ∈ s.ctl.commits →
        ∃ u, exec (.jointSignVerified t slot) s = .next (redeliver u) ∧ Beside w u) ∧
      (∀ hc, j.commit = some hc → rest = [] ∨ quorumPresent w (getJoint w slot.toNat) = true → slot.toNat ∉ s.ctl.commits →
        ∃ u, exec (.jointSignVerified t slot) s = .next (redeliver u) ∧ Beside (beginCommit w slot.toNat hc) u)) ∧
    (j.verifying = [] → ∃ u, exec (.jointSignVerified t slot) s = .next (redeliver u) ∧ Beside (at_ s t) u) ∧
    (∀ since, j.prep = .writing since → s.fw.replacing ≠ some 1 →
      (∃ u, exec (.prepareDurable t slot true) s = .next u ∧ (getJoint u slot.toNat).prep = .durable ∧
        .prepare j.serial (prepareRecs (resolved (at_ s t) j.quorum j.recs))
          (prepareParts s.ctl.cfg (producedCfg (at_ s t) j.quorum j.recs) j.recs) ∈ u.ctl.cfgLog ∧ u.ctl.cfg = s.ctl.cfg) ∧
      (j.prepTries < 2 → ∃ u, exec (.prepareDurable t slot false) s = .next u ∧
        getJoint u slot.toNat = { j with prepTries := j.prepTries + 1 } ∧ u.ctl.cfgLog = s.ctl.cfgLog) ∧
      (2 ≤ j.prepTries → s.ctl.commits.contains slot.toNat = false → ∃ u, exec (.prepareDurable t slot false) s = .next u ∧
        (getJoint u slot.toNat).prep = .none ∧ (getJoint u slot.toNat).st = j.st) ∧
      (2 ≤ j.prepTries → s.ctl.commits.contains slot.toNat = true → ∃ u, exec (.prepareDurable t slot false) s = .next u ∧
        (getJoint u slot.toNat).st = 3 ∧ (getJoint u slot.toNat).final = 0x0903)) ∧
    (j.commit = none → j.opener ≠ 0xFFFE → s.fw.replacing ≠ some 1 →
      (j.lastMsg + setting s.ctl.cfg 0xE000 4 900 * 10 ^ 9 ≤ (at_ s t).now → ∃ u, exec (.jointIdleExpiry t slot) s = .next u ∧
        (getJoint u slot.toNat).st = 4 ∧ (getJoint u slot.toNat).recs = [] ∧ (∀ k, k ≠ slot.toNat → getJoint u k = getJoint s k) ∧
        u.ctl.cfg = s.ctl.cfg) ∧
      ((at_ s t).now < j.lastMsg + setting s.ctl.cfg 0xE000 4 900 * 10 ^ 9 →
        ∃ u, exec (.jointIdleExpiry t slot) s = .next u ∧ Beside (at_ s t) u)))

/-- A joint is cut only when it may be, the first in order and every island at the epoch in force, and (log entry 203) once the
journal stage has room for what it posts: then the epoch advances by one, the configuration of the cut is in force, and the
joint is COMMITTED with that epoch; where a check fails at the cut, a word of its records in the staging store is mismatched, or
routes or shelf run out, nothing of it takes effect and the joint is FAILED. Islands and the backup domain take the epoch in
force; while an island has no clock the word that tells it waits in its channel. The oldest cut record becomes durable in the
log, which is compacted at 1,200 segments. The digests published are those of the epoch in force. A plumb run over islands that
all hold what is expected counts and raises nothing, and one that finds a difference raises PLUMB. A sweep's end shows its
result. All of them complete, JOINT_CUT among them (12_dictionary_joints.md). -/
def Obligations.CutsTakeEffect : Prop :=
  ∀ (s : State) (t : Nat) (slot : BitVec 6) (holding : BitVec 14) (island : Fin 33) (j : Joint) (h : KHdr),
    j = getJoint s slot.toNat →
    (islandRuns s islControl = false ∨ islandRuns s islHub = false ∨ j.commit = none ∨ mayCut (at_ s t) slot.toNat = false →
      ∃ u, exec (.jointCut t slot holding) s = .next u ∧ Beside (at_ s t) u) ∧
    (islandRuns s islControl = true → islandRuns s islHub = true → j.commit = some h → mayCut (at_ s t) slot.toNat = true →
      (∀ key, jointBad (at_ s t) slot.toNat = some key → ∃ u, exec (.jointCut t slot holding) s = .next u ∧ u.ctl.cfg = s.ctl.cfg ∧
        u.ctl.epoch = s.ctl.epoch ∧ (getJoint u slot.toNat).st = 3 ∧ (getJoint u slot.toNat).final = 0x0801) ∧
      ∀ p, p = commitPass (at_ s t) j → jointBad (at_ s t) slot.toNat = none →
      (p.bad ≠ 0 → ∃ u, exec (.jointCut t slot holding) s = .next u ∧ u.ctl.cfg = s.ctl.cfg ∧ u.ctl.epoch = s.ctl.epoch ∧
        (getJoint u slot.toNat).st = 3 ∧ (getJoint u slot.toNat).final = p.bad) ∧
      (p.bad = 0 → stageRoom p.s (itemPosts p.items) = false → ∃ u, exec (.jointCut t slot holding) s = .next u ∧ Beside (at_ s t) u) ∧
      (p.bad = 0 → stageRoom p.s (itemPosts p.items) = true → cutState p.s j p.items = none →
        ∃ u, exec (.jointCut t slot holding) s = .next u ∧ u.ctl.cfg = s.ctl.cfg ∧ u.ctl.epoch = s.ctl.epoch ∧
        (getJoint u slot.toNat).st = 3 ∧ (getJoint u slot.toNat).final = 0x0602) ∧
      (∀ w, p.bad = 0 → stageRoom p.s (itemPosts p.items) = true → cutState p.s j p.items = some w →
        ∃ u, exec (.jointCut t slot holding) s = .next u ∧
        u.ctl.epoch = s.ctl.epoch + 1 ∧ u.ctl.cfg = w.ctl.cfg ∧ (getJoint u slot.toNat).st = 2 ∧
        (getJoint u slot.toNat).cutEpoch = s.ctl.epoch + 1 ∧ slot.toNat ∉ u.ctl.commits)) ∧
    (s.power.pwrGood = true → islandRuns s islControl = true →
      (islandRuns s island.val = false → exec (.islandEpochSwitch t island) s = .next (stall (at_ s t) (.islandEpochSwitch t island))) ∧
      (island.val ≠ 4 → islandRuns s island.val = true → exec (.islandEpochSwitch t island) s = .next { at_ s t with ctl := { s.ctl with
        islandEpoch := mput s.ctl.islandEpoch island.val s.ctl.epoch } }) ∧
      (s.ctl.backupPending = true → exec (.backupObjectsApplied t) s = .next { at_ s t with ctl := { s.ctl with
        backupCfg := s.ctl.cfg, backupPending := false, islandEpoch := mput s.ctl.islandEpoch 4 s.ctl.epoch } }) ∧
      (∀ r rest, s.ctl.cutRing = r :: rest → s.fw.replacing ≠ some 1 →
        ∃ u, exec (.cutRecordDurable t) s = .next u ∧ u.ctl.cutRing = rest ∧ u.ctl.cfg = s.ctl.cfg ∧
          (s.life.debug = true ∨ s.ctl.cfgLogUsed + entrySegments (at_ s t) (.cut r.epoch r.serial) < 1200 →
            u.ctl.cfgLog = s.ctl.cfgLog ++ [.cut r.epoch r.serial]) ∧
          (s.life.debug = false → 1200 ≤ s.ctl.cfgLogUsed + entrySegments (at_ s t) (.cut r.epoch r.serial) →
            u.ctl.cfgLog.head? = some (.snapshot s.ctl.cfg s.ctl.epoch))) ∧
      (s.power.step = 12 → exec (.digestPublished t) s = .next { at_ s t with ctl := { s.ctl with
        digest := configDigest (at_ s t) s.ctl.cfg, localDigest := localDigest (at_ s t) s.ctl.cfg, digestEpoch := s.ctl.epoch } })) ∧
    (∀ bad, s.power.pwrGood = true → islandRuns s island.val = true → exec (.islandSweep t island bad) s =
      .next { at_ s t with ctl := { s.ctl with sweepFail := putBit s.ctl.sweepFail island.val bad } }) ∧
    (islandRuns s islControl = false → ∀ c ∈ [Instr.islandEpochSwitch t island, .backupObjectsApplied t, .cutRecordDurable t, .digestPublished t],
      exec c s = .next (at_ s t)) ∧
    (armed s 12 = false ∨ islandRuns s islControl = false → ∃ u, exec (.plumbRun t) s = .next u ∧ Beside (at_ s t) u) ∧
    (armed s 12 = true → islandRuns s islControl = true → s.fw.replacing ≠ some 1 → ∀ w, w = { at_ s t with alarm := { s.alarm with plumbBad := false } } →
      ((∀ k, 1 ≤ k → k < 33 → islandOk w k = true ∧ bitOf s.ctl.sweepFail k = false) → ∃ u, exec (.plumbRun t) s = .next u ∧
        Beside w u ∧ counter u (odKey 0x1F02 2) = (counter s (odKey 0x1F02 2) + 1) % 2 ^ 64) ∧
      ((∃ k, 1 ≤ k ∧ k < 33 ∧ (islandOk w k = false ∨ bitOf s.ctl.sweepFail k = true)) → monClass s 12 ≠ 0 →
        ∃ u, exec (.plumbRun t) s = .next u ∧ u.alarm.plumbBad = true ∧ (getMon u 12).latched = true ∧ u.ctl = s.ctl))

/-- An armed monitor whose condition holds counts an event at its time, and latches for the next decision unless its class is
NOTE; one that is not armed, or whose condition does not hold, changes no alarm. A decision executes the highest class among the
latches set since the last and the class executed before, drives ALARM_N, and leaves the state that class gives: caches and
sessions gone from CLEAR-SESSION on, slots from CLEAR-KEYS on, the vault from CLEAR-ROOT on. The running test ends with its
result. An edge of a TAMPER_IN input of 20 ns or more is counted and latched. MONITOR_EVENT, DECISION_INTERVAL_END,
MONITOR_TEST_END and TAMPER_IN_EDGE complete (14_tamper_envelope.md, 10_keys.md). -/
def Obligations.MonitorsAndDecisions : Prop :=
  ∀ (s : State) (t : Nat), s.power.pwrGood = true →
    (∀ (k : Fin 14) (mv ps below above us kelvin ns island permille : Nat) (e : MonSense × Nat × Bytes × Bool),
      (k.val = 1 ∨ k.val = 3 ∨ k.val = 4) → island ≠ 4 →
      e ∈ [(MonSense.glitch false mv ps, 0, detail mv, glitchHolds s.ctl.cfg 0 mv ps), (.glitch true mv ps, 2, detail mv, glitchHolds s.ctl.cfg 2 mv ps),
        (.slow k below above us, k.val, detail (if limitIn s.ctl.cfg k.val 1 < below then below else above), slowHolds s.ctl.cfg k.val below above us),
        (.clockShort island permille, 5, detail (island + 256), decide (limitIn s.ctl.cfg 5 1 < permille)),
        (.clockFreq island permille, 5, detail (island + 512), decide (limitIn s.ctl.cfg 5 2 < permille)),
        (.clockStop island, 5, detail (island + 768), true),
        (.temp kelvin us, 6, detail kelvin, tempHolds (limitIn s.ctl.cfg 6 1) (limitIn s.ctl.cfg 6 2) kelvin && decide (limitIn s.ctl.cfg 6 3 ≤ us)),
        (.envOpen us, 8, detail us, decide (us ≠ 0) && contactHolds s.ctl.cfg us), (.cell mv ns, 9, detail mv, cellHolds s.ctl.cfg mv ns)] →
      (armed s e.2.1 = true → e.2.2.2 = true → (getMon s e.2.1).latched = false → ∃ u, exec (.monitorEvent t e.1) s = .next u ∧
        getMon u e.2.1 = { getMon s e.2.1 with
          events := (getMon s e.2.1).events + 1, lastT := (at_ s t).now, latched := decide (monClass s e.2.1 ≠ 0) } ∧
        u.alarm.fresh = s.alarm.fresh ++ (if monClass s e.2.1 = 0 then [] else [(e.2.1, e.2.2.1)]) ∧
        (∀ m, m ≠ e.2.1 → getMon u m = getMon s m)) ∧
      (armed s e.2.1 = false ∨ e.2.2.2 = false → ∃ u, exec (.monitorEvent t e.1) s = .next u ∧ u.alarm = s.alarm)) ∧
    (s.alarm.fresh = [] → ∃ u, exec (.decisionIntervalEnd t) s = .next u ∧ Beside (at_ s t) u) ∧
    (s.alarm.fresh ≠ [] → ∀ cls, cls = s.alarm.fresh.foldl (fun c e => max c (monClass s e.1)) (executedNow s) →
      ∃ u, exec (.decisionIntervalEnd t) s = .next u ∧ u.alarm.executed = cls ∧ u.alarm.fresh = [] ∧ u.alarm.alarmN = true ∧
        u.alarm.mons = s.alarm.mons ∧
        (2 ≤ cls → executedNow s < 2 → u.keys.cache = [] ∧ u.keys.deriv = [] ∧ u.link.sessions = []) ∧
        (3 ≤ cls → executedNow s < 3 → u.keys.slots = [] ∧ u.keys.ext = [] ∧ u.vault.backed = [] ∧ u.vault.pending = []) ∧
        (4 ≤ cls → executedNow s < 4 → u.vault = {} ∧ u.kumCtr = [] ∧ u.devCtr = []) ∧
        (cls ≤ 1 → u.kumCtr = s.kumCtr) ∧ (cls ≤ 3 → u.vault.root = s.vault.root) ∧ (cls ≤ 2 → u.vault = s.vault ∧ u.keys.slots = s.keys.slots)) ∧
    (∀ (m : Fin 14) rest pass, s.alarm.tests = m.val :: rest → ∃ u, exec (.monitorTestEnd t m pass) s = .next u ∧ u.alarm.tests = rest ∧
      (getMon u m.val).result = (bit pass + 2 * ((at_ s t).now / 1000)) % 2 ^ 64 ∧ (pass = true → u.alarm.fresh = s.alarm.fresh)) ∧
    (∀ (n : Fin 4) width,
      (20 ≤ width → exec (.tamperInEdge t n width) s = .next { at_ s t with backup := { s.backup with
        edges := mmod 0 s.backup.edges n.val (fun v => min 0xFFFF (v + 1))
        edgeLatch := if bitOf (tamperQuiet s) n.val then s.backup.edgeLatch else putBit s.backup.edgeLatch n.val true } }) ∧
      (width < 20 → ∃ u, exec (.tamperInEdge t n width) s = .next u ∧ u = { s with now := u.now, backup := u.backup, free := u.free }))

/-- A mesh check on main power counts consecutive failures of each net against its enrolment and answers a net that has failed
often enough; the net that the MESH test holds open is not watched (their order is log entry 206). Each check moves the pattern
generator on, and it takes a word (a free value, log entry 252) while SEEDING is not in effect. An authentication that passes
shows the enrolled Envelope; one that fails is tried once more, and the second failure is an ENV_PRESENT event. In an open
service window none is made and only the contact is seen. An enrolment within the window that passes replaces the record, and
writes the binding value into a chip that has none; one that fails leaves the record. The window closes 600 s after its cut, and
the counts of failing mesh checks with it (the model's choice, log entry 33). On main power the ageing allowance is charged to
the cell (14_tamper_envelope.md). -/
def Obligations.EnvelopeIsWatched : Prop :=
  ∀ (s : State) (t : Nat) (a : EnvAnswer) (nets : List NetReading) (e : EnvRec), s.power.pwrGood = true → s.backup.env = some e →
    (4 ≤ s.power.step → ∃ u, exec (.meshCheck t nets) s = .next u ∧
      (∀ k r ref, k < 4 → nets[k]? = some r → e.mesh[k]? = some ref →
        (netUnderTest (at_ s t) = some k → mget 0 u.backup.meshFails k = mget 0 s.backup.meshFails k) ∧
        (netUnderTest (at_ s t) ≠ some k →
          mget 0 u.backup.meshFails k = (if netFails s.ctl.cfg true ref r then mget 0 s.backup.meshFails k + 1 else 0)) ∧
        (netUnderTest (at_ s t) ≠ some k → netFails s.ctl.cfg true ref r = true → limitIn s.ctl.cfg 7 3 ≤ mget 0 s.backup.meshFails k + 1 → armed s 7 = true → monClass s 7 ≠ 0 →
          (getMon u 7).latched = true)) ∧
      u.backup.pattern = Config.patternStep s.backup.pattern ∧ u.backup.env = s.backup.env ∧ u.vault = s.vault ∧ u.keys = s.keys) ∧
    (s.random.on = true → seedingInForce s = false → ∃ g, exec (.meshPatternReseed t) s =
      .next { at_ s t with free := s.free + 1, backup := { s.backup with pattern := g, patternSeeds := s.backup.patternSeeds + 1 } }) ∧
    (4 ≤ s.power.step → s.backup.window.isSome = true → 2 ≤ s.life.st → s.life.st ≠ 5 → ∀ c ∈ [Instr.envAuth t a, .envAuthRetry t a],
      ∃ u, exec c s = .next u ∧ Beside { at_ s t with backup := { s.backup with contact := a.present } } u) ∧
    (s.random.on = false ∨ seedingInForce s = true → exec (.meshPatternReseed t) s = .next (at_ s t)) ∧
    (4 ≤ s.power.step → s.backup.window = none → 2 ≤ s.life.st → s.life.st ≠ 5 → ∀ ok, ok = envPasses (s.backup.authCount + 1) e a →
      (s.backup.authRetry = false → ∃ u, exec (.envAuth t a) s = .next u ∧ u.backup.authCount = s.backup.authCount + 1 ∧
        u.backup.authRetry = !ok ∧ u.backup.envGood = (ok || s.backup.envGood) ∧ u.alarm = s.alarm ∧ u.vault = s.vault) ∧
      (s.backup.authRetry = true → ∃ u, exec (.envAuthRetry t a) s = .next u ∧ u.backup.authRetry = false ∧
        u.backup.envGood = ok ∧ (ok = false → armed s 8 = true → monClass s 8 ≠ 0 → (getMon u 8).latched = true) ∧
        (ok = true → u.alarm = s.alarm))) ∧
    (s.backup.window.isSome = true →
      (enrolFails (s.backup.authCount + 1) a nets = none → ∃ u r, exec (.envEnrolment t a nets) s = .next u ∧ u.backup.env = some r ∧
        r.serial = a.serial ∧ r.pubKey = a.pubKey ∧ r.mesh = nets.map (fun x => (x.res, x.cap)) ∧ u.backup.window = none ∧
        u.backup.envGood = true ∧ u.outbox = s.outbox ++ (if a.binding = [] then [.envBind a.serial bindingValue] else [])) ∧
      (enrolFails (s.backup.authCount + 1) a nets ≠ none → ∃ u, exec (.envEnrolment t a nets) s = .next u ∧ u.backup.env = s.backup.env ∧
        u.backup.window = s.backup.window)) ∧
    (∀ since, s.backup.window = some since →
      (since + 600 * 10 ^ 9 ≤ (at_ s t).now → exec (.serviceWindowExpiry t) s =
        .next { at_ s t with backup := { s.backup with window := none, meshFails := [] } }) ∧
      ((at_ s t).now < since + 600 * 10 ^ 9 → exec (.serviceWindowExpiry t) s = .next (at_ s t))) ∧
    (∃ u r, exec (.envLifeAccrual t) s = .next u ∧ u.backup.env = some r ∧
      r.chargeUsed * 2 ^ 32 + r.chargeFrac = e.chargeUsed * 2 ^ 32 + e.chargeFrac + ageing (degreesC s.backup.tempDeciK) 60 ∧
      r.serial = e.serial ∧ r.pubKey = e.pubKey ∧ u.vault = s.vault)

/-- A check on the cell that finds no new monitor leaves latch register and vault as they are; one whose class is CLEAR-ROOT or
above, with the vault not yet cleared, clears the vault and the counters. A CELL or ENV_PRESENT event on the cell does so at
once whatever class the monitor has, and without the cell the domain is dead. On main power the check has no effect, and the
watch one before step 4 of a start only: while no start has begun the backup domain decides on it with the class of its monitor,
and in steps 1 to 3 it is an event of its monitor like any other. BACKUP_CHECK and BACKUP_WATCH_EVENT complete
(14_tamper_envelope.md, 13_modes_startup.md). -/
def Obligations.BackupDomainWatches : Prop :=
  ∀ (s : State) (t : Nat) (nets : List NetReading) (kelvin cellMv : Nat) (levels : BitVec 4),
    (onBackup s = false → exec (.backupCheck t nets kelvin cellMv levels) s = .next (at_ s t) ∧
      (watchesEarly s = false → ∀ sense present, ∃ u, exec (.backupWatchEvent t sense present) s = .next u ∧ Beside (at_ s t) u)) ∧
    (onBackup s = true → s.life.st ≠ 5 → ∀ (w v : State) (fired cls : Nat) (new : List (Nat × Bytes)),
      w = addCharge (at_ s t) (ageing (Int.ofNat kelvin - 273) 460800 + backupCharge (Int.ofNat kelvin - 273)) →
      (v, fired) = checkNets (drivePatterns { w with backup := { w.backup with
        levels := levels.toNat % 16, cellMv := cellMv % 65536, tempDeciK := kelvin * 10 % 65536 } }) s.ctl.backupCfg false nets →
      new = (backupFindings v fired kelvin cellMv).filter (fun e => !bitOf s.backup.latch.mons e.1 && backupClass s e.1 != 0) →
      cls = new.foldl (fun c e => max c (backupClass s e.1)) (if s.backup.latch.cls = 0xFF then 0 else s.backup.latch.cls) →
      ∃ u, exec (.backupCheck t nets kelvin cellMv levels) s = .next u ∧
        (cls = 0 → u.backup.latch = s.backup.latch ∧ u.vault = s.vault ∧ u.kumCtr = s.kumCtr) ∧
        (cls ≠ 0 → u.backup.latch.cls = cls) ∧
        (cls ≤ 2 → u.vault = s.vault) ∧
        (4 ≤ cls → latchDone s.backup.latch < 4 → u.vault = {} ∧ u.kumCtr = [] ∧ u.devCtr = [])) ∧
    (∀ p : MonSense × Nat, (∃ mv ns, p = (.cell mv ns, 9) ∧ cellHolds s.ctl.backupCfg mv ns = true) ∨
        (∃ us, p = (.envOpen us, 8) ∧ us ≠ 0 ∧ contactHolds s.ctl.backupCfg us = true) →
      backupArmed s p.2 = true →
      (onBackup s = false → ∀ present, ∃ u, exec (.backupWatchEvent t p.1 present) s = .next u ∧ u.power.supply = s.power.supply ∧
        (1 ≤ s.power.step → (getMon s p.2).latched = false → getMon u p.2 = { getMon s p.2 with
          events := (getMon s p.2).events + 1, lastT := (at_ s t).now, latched := decide (backupClass s p.2 ≠ 0) }) ∧
        (s.power.step = 0 → backupClass s p.2 ≠ 0 → bitOf s.backup.latch.mons p.2 = false →
          bitOf u.backup.latch.mons p.2 = true ∧ backupClass s p.2 ≤ u.backup.latch.cls)) ∧
      (onBackup s = true → s.backup.latch.rootDone = false →
      (∃ u, exec (.backupWatchEvent t p.1 true) s = .next u ∧ u.vault = {} ∧ u.kumCtr = [] ∧ 4 ≤ u.backup.latch.cls ∧ u.power = { s.power with startups := u.power.startups, modes := u.power.modes }) ∧
      (∃ u, exec (.backupWatchEvent t p.1 false) s = .next u ∧ u.vault = {} ∧ u.power.supply = .dead ∧ u.backup.latch = {} ∧
        u.backup.tail = [])))

/-- The end of a fuse sequence leaves the state that the fuses of the row in force vote, no transition pending, and the device
in step 1 of a start. A challenge becomes readable when its nonce is there and is gone 600 s later (counted from then: the
model's choice, log entry 60) unless it is answered. A shutdown that waits is ready once nothing admitted, no commit that has
begun (log entry 203) and nothing unflushed is left. At the end of a second every suppression count is 0 again, and where none
stood nothing changes. All of them complete (15_lifecycle_firmware.md, 13_modes_startup.md, 16_access_events.md). -/
def Obligations.LifeCycleAndRecorderEvents : Prop :=
  ∀ (s : State) (t : Nat) (unburnt : List (Nat × Nat)),
    (∀ target, s.life.pending = true → s.life.target = some target → s.power.pwrGood = true →
      s.power.resetLow = false → s.power.thermtrip = false → ∃ u, exec (.lcFuseSequenceDone t unburnt) s = .next u ∧
      u.life.st = lcVote (fuseRow u (rowInForce u)) ∧ u.life.pending = false ∧ u.life.target = none ∧ u.vault.transition = none ∧
      u.power.step = 1 ∧ u.keys.slots = []) ∧
    (s.life.pending = false → ∃ u, exec (.lcFuseSequenceDone t unburnt) s = .next u ∧ Beside (at_ s t) u) ∧
    (islandRuns s islControl = false → ∀ c ∈ [Instr.debugChallengeReady t, .debugChallengeExpiry t, .shutdownReady t, .evrSecondEnd t],
      exec c s = .next (at_ s t)) ∧
    (islandRuns s islControl = true →
    (∀ c, s.life.chal = some c →
      (c.ready = false → c.nonce ≠ [] → exec (.debugChallengeReady t) s = .next { at_ s t with life := { s.life with
        chal := some { c with bytes := challengeBytes s c, bornT := (at_ s t).now, ready := true } } }) ∧
      (c.ready = true ∨ c.nonce = [] → exec (.debugChallengeReady t) s = .next (at_ s t)) ∧
      (c.ready = true → c.answered = false → c.bornT + 600 * 10 ^ 9 ≤ (at_ s t).now →
        exec (.debugChallengeExpiry t) s = .next { at_ s t with life := { s.life with chal := none } }) ∧
      (c.ready = false ∨ c.answered = true ∨ (at_ s t).now < c.bornT + 600 * 10 ^ 9 → exec (.debugChallengeExpiry t) s = .next (at_ s t))) ∧
    (s.power.shutdown = 1 → noAdmitted s = true → s.ctl.commits = [] → allFlushed s = true → ∃ u, exec (.shutdownReady t) s = .next u ∧
      Noted { at_ s t with power := { s.power with shutdown := 2 } } u) ∧
    (s.power.shutdown ≠ 1 ∨ noAdmitted s = false ∨ s.ctl.commits ≠ [] ∨ allFlushed s = false → exec (.shutdownReady t) s = .next (at_ s t)) ∧
    ((∀ e ∈ s.evr.buckets, e.2.lost = 0) → exec (.evrSecondEnd t) s = .next (at_ s t)) ∧
    (mrising s.evr.buckets = true → ∃ u, exec (.evrSecondEnd t) s = .next u ∧ (∀ e ∈ u.evr.buckets, e.2.lost = 0) ∧ Noted (at_ s t) u))

/-- A staged manifest that passes its checks begins to be read, one that fails is rejected with a record. A staged block that
matches its digest is counted, the last one makes the release STAGED; a block that does not match is read once more and then
rejects it. While an activation writes, a matching block stands in the part's image, and the marks in vault and flash tell it;
one that does not is read again, and after three such the write waits for a new source. The switch puts the manifest in the slot
of each named part and no other. The next swap begins as its kind does, a bay's under the mark of its part, and the end of a
replacement lifts it. A block that an access rule keeps from loader SRAM is one that does not match (log entry 207). With the
clock of the control island stopped nothing of this takes place. All six commands complete (15_lifecycle_firmware.md,
13_modes_startup.md). -/
def Obligations.FirmwareIsStagedAndSwapped : Prop :=
  ∀ (s : State) (t : Nat) (data : Bytes) (d : Option Bytes), d = (loaderTakes (at_ s t) data).1 →
    (islandRuns s islControl = false → ∀ bay, ∀ c ∈ [Instr.fwManifestChecked t, .fwStageBlock t data, .fwBlockWritten t data, .fwSwitch t,
        .fwPartSwap t bay, .fwPartSwapDone t], ∃ u, exec c s = .next u ∧ Beside (at_ s t) u) ∧
    (islandRuns s islControl = true →
    (s.fw.stage = 0 → s.fw.staged ≠ [] → s.fw.mask = 0 →
      (manifestStatus s s.fw.staged = 0 → ∃ u, exec (.fwManifestChecked t) s = .next u ∧ Beside
        (sourceRead { at_ s t with fw := { s.fw with stage := 1, checked := 0, blockRetry := 0 } } s.fw.source 0) u) ∧
      (manifestStatus s s.fw.staged ≠ 0 → ∃ u, exec (.fwManifestChecked t) s = .next u ∧
        Beside { at_ s t with fw := { s.fw with stage := 3 } } u)) ∧
    (s.fw.stage = 1 →
      (blockGood s.fw.staged s.fw.checked d = true → ∃ u, exec (.fwStageBlock t data) s = .next u ∧ u.fw.checked = s.fw.checked + 1 ∧
        u.fw.stage = (if mfBlocks s.fw.staged ≤ s.fw.checked + 1 then 2 else 1) ∧ u.fw.staged = s.fw.staged ∧ u.fw.slots = s.fw.slots ∧
        u.fw.image = s.fw.image) ∧
      (blockGood s.fw.staged s.fw.checked d = false → ∃ u, exec (.fwStageBlock t data) s = .next u ∧ u.fw.checked = s.fw.checked ∧
        u.fw.stage = (if s.fw.blockRetry = 0 then 1 else 3))) ∧
    (∀ p b, s.fw.act = 1 → s.power.pwrGood = true → s.power.step = 12 → s.alarm.rootCleared = false → nextWrite s = some (p, b) → goesOn s p = true →
      (blockGood s.fw.staged b d = true → ∃ u, exec (.fwBlockWritten t data) s = .next u ∧ u.fw.markPart = p ∧ u.fw.markNext = b + 1 ∧
        mfind u.fw.image (imageBlock p (b - (((mfParts s.fw.staged).find? (fun e => e.part == p)).map (·.first)).getD 0)) =
          some (mfDigest s.fw.staged b) ∧ flashMark u = workMark u ∧ u.vault.mark = workMark u ∧ u.fw.slots = s.fw.slots ∧ u.fw.act = 1) ∧
      (blockGood s.fw.staged b d = false → ∃ u, exec (.fwBlockWritten t data) s = .next u ∧ u.fw.image = s.fw.image ∧
        (s.fw.blockRetry < 3 → u.fw.blockRetry = s.fw.blockRetry + 1 ∧ u.fw.act = 1) ∧
        (3 ≤ s.fw.blockRetry → u.fw.act = 4 ∧ u.fw.markPart = p ∧ u.fw.markNext = b))) ∧
    (s.fw.act = 1 → s.fw.markPhase = 1 → nextWrite s = none → s.alarm.rootCleared = false → s.power.pwrGood = true → s.power.step = 12 →
      ∃ u, exec (.fwSwitch t) s = .next u ∧ u.fw.act = 2 ∧ u.fw.markPhase = 2 ∧
        (∀ p, p < 9 → bitOf s.fw.mask p = true → mfind u.fw.slots p = some s.fw.staged) ∧
        (∀ p, bitOf s.fw.mask p = false → mfind u.fw.slots p = mfind s.fw.slots p)) ∧
    ((s.fw.act = 2 ∨ s.fw.act = 3) → swapRunning s = false → s.alarm.rootCleared = false → s.power.pwrGood = true →
      (∀ k, nextSwap s = some k → k < 100 → (k ≠ 1 ∨ noCommit s = true) → ∃ u, exec (.fwPartSwap t none) s = .next u ∧
        u.fw.replacing = some k ∧ u.fw.replaceT = (at_ s t).now ∧ u.fw.act = 3 ∧ (k = 7 → u.random.stopped = true)) ∧
      (∀ bay : BayNo, nextSwap s = some (100 + bay.val) → (getBay s bay.val).st = 0 → 8 ≤ s.power.step → ∃ u, exec (.fwPartSwap t (some bay)) s = .next u ∧
        (getBay u bay.val).st = 1 ∧ (getBay u bay.val).why = .update ∧ u.fw.act = 3 ∧ u.fw.markPart = bayPart s.fw.mask bay.val ∧
        u.vault.mark = workMark u ∧ (∀ b, b ≠ bay.val → getBay u b = getBay s b))) ∧
    (s.power.pwrGood = true →
      (∀ p, s.fw.replacing = some p → ∃ u, exec (.fwPartSwapDone t) s = .next u ∧ u.fw.replacing = none) ∧
      (∀ b, s.fw.replacing = none → bayLoading s = some b → ∃ u, exec (.fwPartSwapDone t) s = .next u ∧ bitOf u.fw.baysSwapped b = true ∧
        ∃ r ∈ u.random.reqs, r.who = .inst b)))

/-- Once no access of the old parity remains, DRAIN falls, the shadow bank equals the active one unless a commit waits for its
cut, and every commit reply that waited is sent, in order; until then nothing changes. Where the TAP is closed a debug access
has no effect; where link or hub island has no clock it waits in its channel. A read within a page that is denied returns 0x5A,
counts and is captured; one that is permitted returns as many bytes, and nothing is counted; a permitted write reaches a program
memory and nothing else, where the bytes written, which are free values (log entry 220), read back and every other byte stands.
An access to an area without a binding waits for the clocks on its way; it is answered as poison, or completed, before service,
as unclaimed (PRESUMED, log entry 249) where no decoder is committed, and else denied under rule 0x103, or 0x100 where its head
lacks an IDE stream (log entry 140); a bound one is no such access. ACU_DRAIN_END, DEBUG_ACCESS and UNBOUND_AREA_ACCESS complete
(16_access_events.md, 11_instances.md, 17_host_link.md). -/
def Obligations.AccessControlActs : Prop :=
  ∀ (s : State) (t : Nat) (addr : BitVec 40) (len : BitVec 11) (ld : LdNo) (dpa : BitVec 27) (isRead : Bool) (tag : BitVec 16),
    (s.acu.drain = true → oldAccess (at_ s t) = false → ∃ u, exec (.acuDrainEnd t) s = .next u ∧
      u = { at_ s t with
        acu := { s.acu with drain := false, shadow := u.acu.shadow, waiting := [] }
        outbox := s.outbox ++ s.acu.waiting.map (fun w => .kallek w.1 0x15 0 (Bytes.ofNatLE 8 w.2.1 ++ Bytes.ofNatLE 8 w.2.2)) } ∧
      (s.ctl.commits = [] → u.acu.shadow = s.acu.active)) ∧
    (s.acu.drain = false ∨ oldAccess (at_ s t) = true → exec (.acuDrainEnd t) s = .next (at_ s t)) ∧
    (tapOpen s = false ∨ len = 0 ∨ 1024 < len.toNat → exec (.debugAccess t isRead addr len) s = .next (at_ s t)) ∧
    (tapOpen s = true → len ≠ 0 → len.toNat ≤ 1024 →
      (portRuns s = false → exec (.debugAccess t isRead addr len) s = .next (stall (at_ s t) (.debugAccess t isRead addr len))) ∧
      (portRuns s = true → addr.toNat % 4096 + len.toNat ≤ 4096 →
      (∀ r, debugDenied s true addr.toNat = some r → ∃ u, exec (.debugAccess t true addr len) s = .next u ∧
        u.outbox = s.outbox ++ [.debugRead addr.toNat (List.replicate len.toNat 0x5A) true] ∧
        u.acu.count = min 0xFFFFFFFF (s.acu.count + 1) ∧ u.acu.tapDenied = true ∧
        (s.acu.cap = none → u.acu.cap = some { rule := r, isRead := true, master := 0x43, len := len.toNat, addr := addr.toNat, epoch := s.acu.epoch }) ∧
        (s.acu.cap ≠ none → u.acu.cap = s.acu.cap)) ∧
      (debugDenied s true addr.toNat = none → ∃ u data, exec (.debugAccess t true addr len) s = .next u ∧ data.length = len.toNat ∧
        u = { s with now := u.now, free := u.free, acu := { s.acu with tapDenied := false }, outbox := s.outbox ++ [.debugRead addr.toNat data false] }) ∧
      (∀ r, debugDenied s false addr.toNat = some r → ∃ u, exec (.debugAccess t false addr len) s = .next u ∧
        u.acu.count = min 0xFFFFFFFF (s.acu.count + 1) ∧ u.outbox = s.outbox ∧ u.stores = s.stores ∧ u.insts = s.insts) ∧
      (debugDenied s false addr.toNat = none →
        (storeAt addr.toNat = none → exec (.debugAccess t false addr len) s = .next (at_ s t)) ∧
        (∀ n off, storeAt addr.toNat = some (n, off) → ∃ u, ∃ d : Bytes, exec (.debugAccess t false addr len) s = .next u ∧
          u = { at_ s t with free := u.free, stores := u.stores } ∧ (∀ k, k ≠ n → mget {} u.stores k = mget {} s.stores k) ∧
          d.length = len.toNat ∧ (∀ v : State, v.stores = u.stores → ∀ k, k < len.toNat → storeRead v n (off + k) = Bytes.at' d k) ∧
          (∀ a, a < off ∨ off + len.toNat ≤ a → storeRead u n a = storeRead (at_ s t) n a))))) ∧
    (portRuns s = false → exec (.unboundAreaAccess t ld dpa isRead tag) s =
      .next (stall (at_ s t) (.unboundAreaAccess t ld dpa isRead tag))) ∧
    (portRuns s = true → headUp s (ld.toNat / 16) = false → exec (.unboundAreaAccess t ld dpa isRead tag) s = .next (at_ s t)) ∧
    (portRuns s = true → headUp s (ld.toNat / 16) = true → ∀ (load : Nat) (bd : Bool), load = loadOf (at_ s t) ld.toNat →
      bd = (assignedIn s.ctl.cfg).any (fun i => instLd s.ctl.cfg i == ld.toNat && instArea s.ctl.cfg i == dpa.toNat / 0x80000) →
      (serving s = false → exec (.unboundAreaAccess t ld dpa isRead tag) s =
        .next (emit (at_ s t) (if isRead then .poison ld.toNat tag.toNat load else .done ld.toNat tag.toNat load))) ∧
      (serving s = true → bd = true → exec (.unboundAreaAccess t ld dpa isRead tag) s = .next (at_ s t)) ∧
      (serving s = true → bd = false → decoded s ld.toNat = false → exec (.unboundAreaAccess t ld dpa isRead tag) s =
        .next (emit (at_ s t) (if isRead then .read ld.toNat tag.toNat load (List.replicate 64 0xFF) else .done ld.toNat tag.toNat load))) ∧
      (serving s = true → bd = false → decoded s ld.toNat = true → ∃ u, exec (.unboundAreaAccess t ld dpa isRead tag) s = .next u ∧
        u.acu.count = min 0xFFFFFFFF (s.acu.count + 1) ∧
        (s.acu.cap = none → u.acu.cap = some { rule := if ideLacking s ld.toNat then 0x100 else 0x103, isRead := isRead, master := ld.toNat
                                               len := 64, addr := dpa.toNat / 64 * 64, epoch := s.acu.epoch }) ∧
        u.outbox = s.outbox ++ [if isRead then .poison ld.toNat tag.toNat load else .done ld.toNat tag.toNat load] ∧
        u.insts = s.insts))
end

