-- ==== Sys2Proof/Laws/Bits.lean ====
section
/-! SUPPORT. Bits of a number: what a bit set or cleared reads, and that no other bit changes. -/

namespace Sys2Proof

theorem bitOf_eq_testBit (v n : Nat) : bitOf v n = v.testBit n := by
  unfold bitOf
  rw [Nat.testBit_eq_decide_div_mod_eq, Nat.shiftRight_eq_div_pow]
  rfl

theorem putBit_split (v n : Nat) (b : Bool) :
    putBit v n b = 2 ^ (n + 1) * (v / 2 ^ (n + 1)) + (2 ^ n * bit b + v % 2 ^ n) := by
  have e1 : v = 2 ^ n * (v / 2 ^ n) + v % 2 ^ n := (Nat.div_add_mod v (2 ^ n)).symm
  have e2 : v / 2 ^ n = 2 * (v / 2 ^ n / 2) + v / 2 ^ n % 2 := (Nat.div_add_mod (v / 2 ^ n) 2).symm
  have e3 : v / 2 ^ (n + 1) = v / 2 ^ n / 2 := by rw [Nat.pow_succ, Nat.div_div_eq_div_mul]
  have e4 : bit (bitOf v n) = v / 2 ^ n % 2 := by
    unfold bitOf bit
    rw [Nat.shiftRight_eq_div_pow]
    have : v / 2 ^ n % 2 < 2 := Nat.mod_lt _ (by decide)
    split <;> rename_i h <;> simp at h <;> omega
  unfold putBit
  rw [e4, e3, Nat.pow_succ]
  generalize v / 2 ^ n / 2 = a at *
  generalize v / 2 ^ n % 2 = c at *
  generalize v % 2 ^ n = r at *
  rw [e2] at e1
  generalize 2 ^ n = p at *
  rw [e1, Nat.mul_add, Nat.mul_comm c p, Nat.mul_comm (bit b) p]
  have : p * 2 * a = p * (2 * a) := Nat.mul_assoc _ _ _
  omega

theorem bitOf_putBit (v n k : Nat) (b : Bool) : bitOf (putBit v n b) k = if k = n then b else bitOf v k := by
  have hr : v % 2 ^ n < 2 ^ n := Nat.mod_lt _ (Nat.two_pow_pos n)
  have hb : 2 ^ n * bit b + v % 2 ^ n < 2 ^ (n + 1) := by
    rw [Nat.pow_succ]; unfold bit; split <;> omega
  rw [putBit_split, bitOf_eq_testBit, bitOf_eq_testBit, Nat.testBit_two_pow_mul_add _ hb]
  by_cases h : k < n + 1
  · rw [if_pos h, Nat.testBit_two_pow_mul_add _ hr]
    by_cases h2 : k < n
    · rw [if_pos h2, if_neg (by omega), Nat.testBit_mod_two_pow, decide_eq_true h2, Bool.true_and]
    · have : k = n := by omega
      subst this
      rw [if_neg h2, if_pos rfl, Nat.sub_self]
      cases b <;> rfl
  · rw [if_neg h, if_neg (by omega), Nat.testBit_div_two_pow]
    congr 1; omega

end Sys2Proof
end

