-- ==== Sys2Proof/Laws/Digests.lean ====
section
/-! SUPPORT. Every SHA-256 digest is 32 bytes long, and every SHA-384 digest 48 and SHA-512 digest 64. -/

namespace Sys2Proof.Sha

open Sys2Proof

theorem round_length (p : Par) (v : List Nat) (kw : Nat) (h : v.length = 8) : (round p v kw).length = 8 := by
  unfold round
  split <;> simp_all

theorem rounds_length (p : Par) (ws : List (Nat × Nat)) :
    ∀ v : List Nat, v.length = 8 → (ws.foldl (fun v e => round p v (e.1 + p.k e.2)) v).length = 8 := by
  induction ws with
  | nil => intro v h; exact h
  | cons w ws ih => intro v h; exact ih _ (round_length p v _ h)

theorem compress_length (p : Par) (h : List Nat) (block : Bytes) (hl : h.length = 8) : (compress p h block).length = 8 := by
  simp [compress, rounds_length p _ h hl, hl]

theorem blocks_fold_length (p : Par) (bs : List Bytes) : ∀ h : List Nat, h.length = 8 → (bs.foldl (compress p) h).length = 8 := by
  induction bs with
  | nil => intro h hl; exact hl
  | cons b bs ih => intro h hl; exact ih _ (compress_length p h b hl)

theorem ofNatLE_length (n : Nat) : ∀ v, (Bytes.ofNatLE n v).length = n := by
  induction n with
  | zero => intro v; rfl
  | succ n ih => intro v; simp [Bytes.ofNatLE, ih]

theorem words_length (k : Nat) (ws : List Nat) : (ws.flatMap (Bytes.ofNatBE k)).length = ws.length * k := by
  induction ws with
  | nil => simp
  | cons w ws ih => simp [List.flatMap_cons, ih, Bytes.ofNatBE, ofNatLE_length, Nat.add_mul, Nat.add_comm]

theorem hash_length (p : Par) (iv : List Nat) (n : Nat) (m : Bytes) (h : iv.length = 8) (hn : n ≤ 8 * (p.w / 8)) :
    (hash p iv n m).length = n := by
  simp only [hash, List.length_take, words_length, blocks_fold_length p _ iv h]
  omega

theorem sha256_length (m : Bytes) : (sha256 m).length = 32 := hash_length _ _ _ _ rfl (by decide)

theorem sha384_length (m : Bytes) : (sha384 m).length = 48 := hash_length _ _ _ _ rfl (by decide)

theorem sha512_length (m : Bytes) : (sha512 m).length = 64 := hash_length _ _ _ _ rfl (by decide)

end Sys2Proof.Sha
end

