-- ==== Sys2Proof/Laws/Maps.lean ====
section
/-! SUPPORT. Sparse maps and byte memories: what a key reads as after each operation, and that every operation keeps the canonical
form. -/

namespace Sys2Proof.Machine

open Sys2Proof

variable {β : Type}

/-! ## Reading -/

@[simp] theorem mget_nil (d : β) (k : Nat) : mget d [] k = d := rfl

@[simp] theorem mget_mput_same (d : β) (m : Map β) (k : Nat) (v : β) : mget d (mput m k v) k = v := by
  induction m with
  | nil => simp [mput, mget]
  | cons e rest ih =>
    obtain ⟨k', v'⟩ := e
    simp only [mput]
    split
    · have : k' ≠ k := by omega
      simp [mget, this, ih]
    · split <;> simp [mget]

theorem mget_mput_other (d : β) (m : Map β) (k j : Nat) (v : β) (h : j ≠ k) : mget d (mput m k v) j = mget d m j := by
  induction m with
  | nil => simp [mput, mget, Ne.symm h]
  | cons e rest ih =>
    obtain ⟨k', v'⟩ := e
    simp only [mput]
    split
    · simp only [mget, ih]
    · split
      · rename_i h1 h2
        subst h2
        simp [mget, Ne.symm h]
      · simp [mget, Ne.symm h]

@[simp] theorem mget_mdel_same (d : β) (m : Map β) (k : Nat) : mget d (mdel m k) k = d := by
  induction m with
  | nil => rfl
  | cons e rest ih =>
    obtain ⟨k', v'⟩ := e
    simp only [mdel]
    split
    · exact ih
    · rename_i h
      simp [mget, h, ih]

theorem mget_mdel_other (d : β) (m : Map β) (k j : Nat) (h : j ≠ k) : mget d (mdel m k) j = mget d m j := by
  induction m with
  | nil => rfl
  | cons e rest ih =>
    obtain ⟨k', v'⟩ := e
    simp only [mdel]
    split
    · rename_i h1
      subst h1
      simp [mget, Ne.symm h, ih]
    · simp only [mget, ih]

/-- The entry of a key is what the key reads as once each value is marked as listed. -/
theorem mfind_eq_mget (m : Map β) (k : Nat) : mfind m k = mget none (m.map (fun e => (e.1, some e.2))) k := by
  induction m with
  | nil => rfl
  | cons e rest ih => simp only [mfind, List.map_cons, mget, ih]

theorem map_mput {γ : Type} (f : β → γ) (m : Map β) (k : Nat) (v : β) :
    (mput m k v).map (fun e => (e.1, f e.2)) = mput (m.map (fun e => (e.1, f e.2))) k (f v) := by
  induction m with
  | nil => rfl
  | cons e rest ih =>
    obtain ⟨k', v'⟩ := e
    simp only [mput, List.map_cons]
    split
    · simp only [List.map_cons, ih]
    · split <;> rfl

theorem map_mdel {γ : Type} (f : β → γ) (m : Map β) (k : Nat) :
    (mdel m k).map (fun e => (e.1, f e.2)) = mdel (m.map (fun e => (e.1, f e.2))) k := by
  induction m with
  | nil => rfl
  | cons e rest ih =>
    obtain ⟨k', v'⟩ := e
    simp only [mdel, List.map_cons]
    split
    · exact ih
    · simp only [List.map_cons, ih]

@[simp] theorem mfind_mput_same (m : Map β) (k : Nat) (v : β) : mfind (mput m k v) k = some v := by
  rw [mfind_eq_mget, map_mput, mget_mput_same]

theorem mfind_mput_other (m : Map β) (k j : Nat) (v : β) (h : j ≠ k) : mfind (mput m k v) j = mfind m j := by
  rw [mfind_eq_mget, map_mput, mget_mput_other _ _ _ _ _ h, ← mfind_eq_mget]

@[simp] theorem mfind_mdel_same (m : Map β) (k : Nat) : mfind (mdel m k) k = none := by
  rw [mfind_eq_mget, map_mdel, mget_mdel_same]

theorem mfind_mdel_other (m : Map β) (k j : Nat) (h : j ≠ k) : mfind (mdel m k) j = mfind m j := by
  rw [mfind_eq_mget, map_mdel, mget_mdel_other _ _ _ _ h, ← mfind_eq_mget]

@[simp] theorem mget_mset_same [DecidableEq β] (d : β) (m : Map β) (k : Nat) (v : β) : mget d (mset d m k v) k = v := by
  unfold mset
  split
  · rename_i h
    simp [h]
  · simp

theorem mget_mset_other [DecidableEq β] (d : β) (m : Map β) (k j : Nat) (v : β) (h : j ≠ k) :
    mget d (mset d m k v) j = mget d m j := by
  unfold mset
  split
  · exact mget_mdel_other d m k j h
  · exact mget_mput_other d m k j v h

/-! ## Membership -/

theorem mem_mput {m : Map β} {k : Nat} {v : β} {e : Nat × β} (h : e ∈ mput m k v) : e = (k, v) ∨ e ∈ m := by
  induction m with
  | nil => simpa [mput] using h
  | cons x rest ih =>
    obtain ⟨k', v'⟩ := x
    simp only [mput] at h
    split at h
    · rcases List.mem_cons.1 h with h | h
      · exact .inr (by simp [h])
      · rcases ih h with h | h
        · exact .inl h
        · exact .inr (List.mem_cons_of_mem _ h)
    · split at h
      · rcases List.mem_cons.1 h with h | h
        · exact .inl h
        · exact .inr (List.mem_cons_of_mem _ h)
      · rcases List.mem_cons.1 h with h | h
        · exact .inl h
        · exact .inr h

theorem mem_mdel {m : Map β} {k : Nat} {e : Nat × β} (h : e ∈ mdel m k) : e ∈ m := by
  induction m with
  | nil => simp [mdel] at h
  | cons x rest ih =>
    obtain ⟨k', v'⟩ := x
    simp only [mdel] at h
    split at h
    · exact List.mem_cons_of_mem _ (ih h)
    · rcases List.mem_cons.1 h with h | h
      · simp [h]
      · exact List.mem_cons_of_mem _ (ih h)

theorem mem_mset [DecidableEq β] {d : β} {m : Map β} {k : Nat} {v : β} {e : Nat × β} (h : e ∈ mset d m k v) : e = (k, v) ∨ e ∈ m := by
  unfold mset at h
  split at h
  · exact .inr (mem_mdel h)
  · exact mem_mput h

/-- A property of the default and of every listed content is a property of what any key reads as. -/
theorem mget_all {P : β → Prop} {d : β} {m : Map β} (hd : P d) (h : ∀ e ∈ m, P e.2) (k : Nat) : P (mget d m k) := by
  induction m with
  | nil => exact hd
  | cons x rest ih =>
    obtain ⟨k', v'⟩ := x
    simp only [mget]
    split
    · exact h (k', v') (by simp)
    · exact ih (fun e he => h e (List.mem_cons_of_mem _ he))

/-! ## Canonical form -/

/-- Every key of a map lies above a bound. -/
def above (b : Nat) (m : Map β) : Prop := ∀ e ∈ m, b < e.1

theorem mrising_cons {k : Nat} {v : β} {m : Map β} : mrising ((k, v) :: m) = true ↔ above k m ∧ mrising m = true := by
  induction m generalizing k v with
  | nil => simp [mrising, above]
  | cons x rest ih =>
    obtain ⟨k', v'⟩ := x
    simp only [mrising, Bool.and_eq_true, decide_eq_true_eq]
    constructor
    · rintro ⟨h1, h2⟩
      refine ⟨?_, h2⟩
      intro e he
      rcases List.mem_cons.1 he with he | he
      · subst he; exact h1
      · exact Nat.lt_trans h1 ((ih.1 h2).1 e he)
    · rintro ⟨h1, h2⟩
      exact ⟨h1 (k', v') (by simp), h2⟩

theorem mrising_mdel {m : Map β} (k : Nat) (h : mrising m = true) : mrising (mdel m k) = true := by
  induction m with
  | nil => rfl
  | cons x rest ih =>
    obtain ⟨k', v'⟩ := x
    obtain ⟨h1, h2⟩ := mrising_cons.1 h
    simp only [mdel]
    split
    · exact ih h2
    · exact mrising_cons.2 ⟨fun e he => h1 e (mem_mdel he), ih h2⟩

theorem mrising_mput {m : Map β} (k : Nat) (v : β) (h : mrising m = true) : mrising (mput m k v) = true := by
  induction m with
  | nil => rfl
  | cons x rest ih =>
    obtain ⟨k', v'⟩ := x
    obtain ⟨h1, h2⟩ := mrising_cons.1 h
    simp only [mput]
    split
    · refine mrising_cons.2 ⟨fun e he => ?_, ih h2⟩
      rcases mem_mput he with he | he
      · subst he; assumption
      · exact h1 e he
    · split
      · rename_i h3 h4
        subst h4
        exact mrising_cons.2 ⟨h1, h2⟩
      · rename_i h3 h4
        refine mrising_cons.2 ⟨fun e he => ?_, h⟩
        rcases List.mem_cons.1 he with he | he
        · subst he; simp only; omega
        · have := h1 e he; omega

/-- A list listed as a map: its keys rise, and it lists nothing but what the list did. -/
theorem mrising_mofList (l : List (Nat × β)) : mrising (mofList l) = true := by
  induction l with
  | nil => rfl
  | cons x rest ih => exact mrising_mput x.1 x.2 ih

theorem mem_mofList {l : List (Nat × β)} {e : Nat × β} (h : e ∈ mofList l) : e ∈ l := by
  induction l with
  | nil => exact h
  | cons x rest ih =>
    rcases mem_mput h with h | h
    · exact h ▸ List.mem_cons_self ..
    · exact List.mem_cons_of_mem _ (ih h)

theorem mrising_filter {m : Map β} (p : Nat × β → Bool) (h : mrising m = true) : mrising (m.filter p) = true := by
  induction m with
  | nil => rfl
  | cons x rest ih =>
    obtain ⟨k', v'⟩ := x
    obtain ⟨h1, h2⟩ := mrising_cons.1 h
    simp only [List.filter_cons]
    split
    · exact mrising_cons.2 ⟨fun e he => h1 e (List.mem_filter.1 he).1, ih h2⟩
    · exact ih h2

theorem mwf_iff [DecidableEq β] {d : β} {m : Map β} : mwf d m = true ↔ mrising m = true ∧ ∀ e ∈ m, e.2 ≠ d := by
  simp [mwf]

@[simp] theorem mwf_nil [DecidableEq β] (d : β) : mwf d ([] : Map β) = true := rfl

/-- A write keeps the canonical form. -/
theorem mwf_mset [DecidableEq β] {d : β} {m : Map β} (k : Nat) (v : β) (h : mwf d m = true) : mwf d (mset d m k v) = true := by
  obtain ⟨h1, h2⟩ := mwf_iff.1 h
  unfold mset
  split
  · exact mwf_iff.2 ⟨mrising_mdel k h1, fun e he => h2 e (mem_mdel he)⟩
  · rename_i hv
    refine mwf_iff.2 ⟨mrising_mput k v h1, fun e he => ?_⟩
    rcases mem_mput he with he | he
    · subst he; exact hv
    · exact h2 e he

theorem mwf_mmod [DecidableEq β] {d : β} {m : Map β} (k : Nat) (f : β → β) (h : mwf d m = true) : mwf d (mmod d m k f) = true :=
  mwf_mset k _ h

theorem mwf_filter [DecidableEq β] {d : β} {m : Map β} (p : Nat × β → Bool) (h : mwf d m = true) : mwf d (m.filter p) = true := by
  obtain ⟨h1, h2⟩ := mwf_iff.1 h
  exact mwf_iff.2 ⟨mrising_filter p h1, fun e he => h2 e (List.mem_filter.1 he).1⟩

/-! ## Byte memories -/

theorem Memory.wf_nil : Memory.wf [] = true := rfl

theorem Memory.wf_write {m : List Host.Cell} (a : Nat) (b : Byte) (h : Memory.wf m = true) : Memory.wf (Memory.write m a b) = true :=
  mwf_mset a b h

theorem Memory.wf_writeN {m : List Host.Cell} (a : Nat) (bs : Bytes) (h : Memory.wf m = true) : Memory.wf (Memory.writeN m a bs) = true := by
  induction bs generalizing m a with
  | nil => exact h
  | cons b bs ih => exact ih (a + 1) (Memory.wf_write a b h)

theorem Memory.wf_filter {m : List Host.Cell} (p : Host.Cell → Bool) (h : Memory.wf m = true) : Memory.wf (m.filter p) = true :=
  mwf_filter p h

/-- A byte written reads as written. -/
@[simp] theorem Memory.read_write_same (m : List Host.Cell) (a : Nat) (b : Byte) : Memory.read (Memory.write m a b) a = b :=
  mget_mset_same 0 m a b

/-- Every other byte reads as before. -/
theorem Memory.read_write_other (m : List Host.Cell) (a c : Nat) (b : Byte) (h : c ≠ a) :
    Memory.read (Memory.write m a b) c = Memory.read m c := mget_mset_other 0 m a c b h

/-- A byte outside a range written reads as before. -/
theorem Memory.read_writeN_other (m : List Host.Cell) (a c : Nat) (bs : Bytes) (h : c < a ∨ a + bs.length ≤ c) :
    Memory.read (Memory.writeN m a bs) c = Memory.read m c := by
  induction bs generalizing m a with
  | nil => rfl
  | cons b bs ih =>
    simp only [List.length_cons] at h
    simp only [Memory.writeN]
    rw [ih (Memory.write m a b) (a + 1) (by omega), Memory.read_write_other m a c b (by omega)]

/-- A byte of a range written reads as written. -/
theorem Memory.read_writeN_same (m : List Host.Cell) (a j : Nat) (bs : Bytes) (h : j < bs.length) :
    Memory.read (Memory.writeN m a bs) (a + j) = bs.getD j 0 := by
  induction bs generalizing m a j with
  | nil => simp at h
  | cons b bs ih =>
    cases j with
    | zero =>
      simp only [Memory.writeN, Nat.add_zero]
      rw [Memory.read_writeN_other _ _ _ _ (.inl (by omega))]
      simp
    | succ j =>
      simp only [List.length_cons] at h
      simp only [Memory.writeN, show a + (j + 1) = (a + 1) + j by omega]
      rw [ih (Memory.write m a b) (a + 1) j (by omega)]
      simp

end Sys2Proof.Machine
end

