-- ==== Sys2Proof/Laws/Kept.lean ====
section
/-! SUPPORT. What no command breaks: the predicate `Kept`, and how it passes through conditions, repetitions and record updates.
The files `Laws/Kept1.lean` and following show it of every operation that answers a state. -/

namespace Sys2Proof.Machine

open Sys2Proof

/-- The machine is legal, its queue is `q`, and its device time is not before `n`. -/
structure Kept (q : List Instr) (n : Nat) (s : State) : Prop where
  queue : s.pending = q
  time : n ≤ s.now
  legal : Legal s

theorem legal_reset : Legal State.reset := by
  refine ⟨?_, rfl, ?_, rfl, ?_, ?_, ?_, ?_⟩ <;> first | decide | simp [State.reset]

theorem Legal.kept {s : State} (h : Legal s) : Kept s.pending s.now s := ⟨rfl, Nat.le_refl _, h⟩

section
variable {q : List Instr} {n : Nat}

theorem instOk_default : InstOk {} := ⟨by decide, rfl⟩
theorem bayOk_default : BayOk {} := Nat.zero_le 2

theorem Kept.inst {s : State} (h : Kept q n s) (i : Nat) : InstOk (getInst s i) :=
  mget_all (P := InstOk) instOk_default h.legal.insts i

theorem Kept.bay {s : State} (h : Kept q n s) (b : Nat) : BayOk (getBay s b) :=
  mget_all (P := BayOk) bayOk_default h.legal.bays b

theorem kept_ite {c : Prop} [Decidable c] {a b : State} (ha : Kept q n a) (hb : Kept q n b) : Kept q n (if c then a else b) := by
  split <;> assumption

theorem instOk_ite {c : Prop} [Decidable c] {a b : Inst} (ha : InstOk a) (hb : InstOk b) : InstOk (if c then a else b) := by
  split <;> assumption

theorem bayOk_ite {c : Prop} [Decidable c] {a b : Bay} (ha : BayOk a) (hb : BayOk b) : BayOk (if c then a else b) := by
  split <;> assumption

theorem kept_foldl {α : Type} {f : State → α → State} (xs : List α) {s : State} (h : Kept q n s)
    (hf : ∀ s x, Kept q n s → Kept q n (f s x)) : Kept q n (xs.foldl f s) := by
  induction xs generalizing s with
  | nil => exact h
  | cons x xs ih => exact ih (hf s x h)

theorem kept_each {α : Type} {f : State → α → State} (xs : List α) {s : State} (h : Kept q n s)
    (hf : ∀ s x, Kept q n s → Kept q n (f s x)) : Kept q n (each xs s f) := kept_foldl xs h hf

/-- An update that leaves alone what `Kept` speaks of. -/
theorem kept_frame {s t : State} (h : Kept q n s) (e1 : t.pending = s.pending) (e2 : t.now = s.now) (e3 : t.insts = s.insts)
    (e4 : t.bays = s.bays) (e5 : t.life.st = s.life.st) (e6 : t.life.otpSecurity = s.life.otpSecurity)
    (e7 : t.power.step = s.power.step) : Kept q n t := by
  obtain ⟨h1, h2, h3, h4, h5, h6, h7, h8, h9, h10⟩ := h
  exact ⟨e1 ▸ h1, by omega, by rw [e3]; exact h3, by rw [e3]; exact h4, by rw [e4]; exact h5, by rw [e4]; exact h6, by omega,
    by omega, by omega, by omega⟩

theorem kept_setInst {s : State} (h : Kept q n s) (i : Nat) {x : Inst} (hx : InstOk x) : Kept q n (setInst s i x) := by
  obtain ⟨h1, h2, h3, h4, h5, h6, h7, h8, h9, h10⟩ := h
  refine ⟨h1, h2, ?_, ?_, h5, h6, h7, h8, h9, h10⟩
  · intro e he
    rcases mem_mset he with he | he
    · subst he; exact hx
    · exact h3 e he
  · simp only [setInst, mset]
    split
    · exact mrising_mdel i h4
    · exact mrising_mput i x h4

theorem kept_modInst {s : State} (h : Kept q n s) (i : Nat) {f : Inst → Inst} (hf : ∀ x, InstOk x → InstOk (f x)) :
    Kept q n (modInst s i f) := kept_setInst h i (hf _ (h.inst i))

theorem kept_setBay {s : State} (h : Kept q n s) (b : Nat) {x : Bay} (hx : BayOk x) : Kept q n (setBay s b x) := by
  obtain ⟨h1, h2, h3, h4, h5, h6, h7, h8, h9, h10⟩ := h
  refine ⟨h1, h2, h3, h4, ?_, ?_, h7, h8, h9, h10⟩
  · intro e he
    rcases mem_mset he with he | he
    · subst he; exact hx
    · exact h5 e he
  · simp only [setBay, mset]
    split
    · exact mrising_mdel b h6
    · exact mrising_mput b x h6

theorem kept_modBay {s : State} (h : Kept q n s) (b : Nat) {f : Bay → Bay} (hf : ∀ x, BayOk x → BayOk (f x)) :
    Kept q n (modBay s b f) := kept_setBay h b (hf _ (h.bay b))

theorem kept_at {s : State} (h : Kept q n s) (t : Nat) : Kept q n (at_ s t) :=
  ⟨h.queue, Nat.le_trans h.time (Nat.le_max_left _ _), h.legal.insts, h.legal.rising, h.legal.bays, h.legal.bayRising, h.legal.life,
    h.legal.otp, h.legal.step, Nat.max_lt.2 ⟨h.legal.now, Nat.mod_lt _ (by decide)⟩⟩

theorem kept_of_fst {α : Type} {p : State × α} {a : State} {b : α} (e : p = (a, b)) (h : Kept q n p.1) : Kept q n a := by
  rw [e] at h; exact h

theorem kept_of_snd {α : Type} {p : α × State} {a : α} {b : State} (e : p = (a, b)) (h : Kept q n p.2) : Kept q n b := by
  rw [e] at h; exact h

theorem kept_of_mid {α β : Type} {p : α × State × β} {a : α} {b : State} {c : β} (e : p = (a, b, c)) (h : Kept q n p.2.1) :
    Kept q n b := by
  rw [e] at h; exact h

theorem kept_of_last {α β : Type} {p : α × β × State} {a : α} {b : β} {c : State} (e : p = (a, b, c)) (h : Kept q n p.2.2) :
    Kept q n c := by
  rw [e] at h; exact h

theorem kept_ite_fst {α : Type} {c : Prop} [Decidable c] {a b : State × α} (ha : Kept q n a.1) (hb : Kept q n b.1) :
    Kept q n (if c then a else b).1 := by
  split <;> assumption

theorem kept_ite_snd {α : Type} {c : Prop} [Decidable c] {a b : α × State} (ha : Kept q n a.2) (hb : Kept q n b.2) :
    Kept q n (if c then a else b).2 := by
  split <;> assumption

theorem kept_ite_mid {α β : Type} {c : Prop} [Decidable c] {a b : α × State × β} (ha : Kept q n a.2.1) (hb : Kept q n b.2.1) :
    Kept q n (if c then a else b).2.1 := by
  split <;> assumption

theorem kept_ite_last {α β : Type} {c : Prop} [Decidable c] {a b : α × β × State} (ha : Kept q n a.2.2) (hb : Kept q n b.2.2) :
    Kept q n (if c then a else b).2.2 := by
  split <;> assumption

theorem kept_ite_some {c : Prop} [Decidable c] {a b : Option State} {t : State} (e : (if c then a else b) = some t)
    (ha : a = some t → Kept q n t) (hb : b = some t → Kept q n t) : Kept q n t := by
  split at e
  · exact ha e
  · exact hb e

theorem kept_some {s t : State} (e : some s = some t) (h : Kept q n s) : Kept q n t := by
  cases e; exact h

theorem kept_foldl_bind {α : Type} {f : State → α → Option State} (xs : List α) {s t : State}
    (e : xs.foldl (fun acc x => acc.bind (fun s => f s x)) (some s) = some t) (h : Kept q n s)
    (hf : ∀ s x t, f s x = some t → Kept q n s → Kept q n t) : Kept q n t := by
  induction xs generalizing s with
  | nil => cases e; exact h
  | cons x xs ih =>
    simp only [List.foldl_cons, Option.bind_some] at e
    cases h2 : f s x with
    | none =>
      rw [h2] at e
      clear ih h2
      exfalso
      induction xs with
      | nil => cases e
      | cons y ys ih => exact ih e
    | some u =>
      rw [h2] at e
      exact ih e (hf s x u h2 h)

/-- A record update that leaves the queue, the time, the instances and the bays alone. -/
theorem kept_lit {s : State} {power' : Power} {ctl' : Ctl} {vault' : Vault} {keys' : Keys} {routes' : Routes} {sched' : Sched} {random' : Random} {alarm' : Alarm} {backup' : Backup} {evr' : Recorder} {life' : Life} {fw' : Firmware} {acu' : Acu} {link' : Link} {cnt' : Map Nat} {kumCtr' : Map Nat} {devCtr' : Map Nat} {bad' : Map Nat} {writers' : List (Nat × Nat × Nat)} {stores' : Map Store} {outbox' : List Out} {free' : Nat}
    (h : Kept q n s) (e1 : life'.st = s.life.st) (e2 : life'.otpSecurity = s.life.otpSecurity) (e3 : power'.step = s.power.step) :
    Kept q n (State.mk s.now power' ctl' vault' keys' routes' s.insts s.bays sched' random' alarm' backup' evr' life' fw' acu' link' cnt' kumCtr' devCtr' bad' writers' stores' outbox' free' s.pending) := by
  obtain ⟨h1, h2, h3, h4, h5, h6, h7, h8, h9, h10⟩ := h
  exact ⟨h1, h2, h3, h4, h5, h6, by simp only; omega, by simp only; omega, by simp only; omega, h10⟩

theorem instOk_lit {x : Inst} {freezeDone' : Bool} {lastSquash' : Bool} {resetDone' : Bool} {reset' : Option Reset} {sub' : Int} {core' : Int} {bucketT' : Nat} {deficit' : Nat} {s' : Nat} {h' : Nat} {ring' : Map Bytes} {ops' : List RingOp} {slots' : Map InSlot} {leaving' : List Nat} {caps' : Map ErrCap} {capCount' : Nat} {offer' : Option Offer} {saveReq' : Option Bytes} {blob' : Option Bytes} {blobReady' : Bool} {saveEpoch' : Nat}
    (h : InstOk x) : InstOk (Inst.mk x.st freezeDone' lastSquash' resetDone' reset' sub' core' bucketT' deficit' s' h' ring' ops' x.staging slots' leaving' caps' capCount' offer' saveReq' blob' blobReady' saveEpoch') := h

theorem instOk_lit_st {x : Inst} {st' : Nat} {freezeDone' : Bool} {lastSquash' : Bool} {resetDone' : Bool} {reset' : Option Reset} {sub' : Int} {core' : Int} {bucketT' : Nat} {deficit' : Nat} {s' : Nat} {h' : Nat} {ring' : Map Bytes} {ops' : List RingOp} {slots' : Map InSlot} {leaving' : List Nat} {caps' : Map ErrCap} {capCount' : Nat} {offer' : Option Offer} {saveReq' : Option Bytes} {blob' : Option Bytes} {blobReady' : Bool} {saveEpoch' : Nat}
    (h : InstOk x) (e : st' ≤ 5) : InstOk (Inst.mk st' freezeDone' lastSquash' resetDone' reset' sub' core' bucketT' deficit' s' h' ring' ops' x.staging slots' leaving' caps' capCount' offer' saveReq' blob' blobReady' saveEpoch') := ⟨e, h.2⟩

theorem bayOk_lit {x : Bay} {book' : Map Nat} {why' : BayOut} {failed' : Nat} {lag' : Nat} {frame' : Nat} {past' : List Nat} {gone' : Nat} {late' : Nat} {test' : Option Test} {testBook' : Option (Nat × Nat)} {tested' : Map Nat} {testQueue' : List Nat} {mem' : Map EngMem} {drbg' : Drbg}
    (h : BayOk x) : BayOk (Bay.mk book' x.st why' failed' lag' frame' past' gone' late' test' testBook' tested' testQueue' mem' drbg') := h

/-- A record update that writes the life cycle. -/
theorem kept_lit_life {s : State} {power' : Power} {ctl' : Ctl} {vault' : Vault} {keys' : Keys} {routes' : Routes} {sched' : Sched} {random' : Random} {alarm' : Alarm} {backup' : Backup} {evr' : Recorder} {life' : Life} {fw' : Firmware} {acu' : Acu} {link' : Link} {cnt' : Map Nat} {kumCtr' : Map Nat} {devCtr' : Map Nat} {bad' : Map Nat} {writers' : List (Nat × Nat × Nat)} {stores' : Map Store} {outbox' : List Out} {free' : Nat}
    (h : Kept q n s) (e1 : life'.st ≤ 5) (e2 : life'.otpSecurity ≤ 64) (e3 : power'.step = s.power.step) :
    Kept q n (State.mk s.now power' ctl' vault' keys' routes' s.insts s.bays sched' random' alarm' backup' evr' life' fw' acu' link' cnt' kumCtr' devCtr' bad' writers' stores' outbox' free' s.pending) := by
  obtain ⟨h1, h2, h3, h4, h5, h6, h7, h8, h9, h10⟩ := h
  exact ⟨h1, h2, h3, h4, h5, h6, e1, e2, by simp only; omega, h10⟩

/-- A record update that writes the step of the start. -/
theorem kept_lit_step {s : State} {power' : Power} {ctl' : Ctl} {vault' : Vault} {keys' : Keys} {routes' : Routes} {sched' : Sched} {random' : Random} {alarm' : Alarm} {backup' : Backup} {evr' : Recorder} {life' : Life} {fw' : Firmware} {acu' : Acu} {link' : Link} {cnt' : Map Nat} {kumCtr' : Map Nat} {devCtr' : Map Nat} {bad' : Map Nat} {writers' : List (Nat × Nat × Nat)} {stores' : Map Store} {outbox' : List Out} {free' : Nat}
    (h : Kept q n s) (e1 : life'.st = s.life.st) (e2 : life'.otpSecurity = s.life.otpSecurity) (e3 : power'.step ≤ 12) :
    Kept q n (State.mk s.now power' ctl' vault' keys' routes' s.insts s.bays sched' random' alarm' backup' evr' life' fw' acu' link' cnt' kumCtr' devCtr' bad' writers' stores' outbox' free' s.pending) := by
  obtain ⟨h1, h2, h3, h4, h5, h6, h7, h8, h9, h10⟩ := h
  exact ⟨h1, h2, h3, h4, h5, h6, by simp only; omega, by simp only; omega, e3, h10⟩

theorem mrising_mapVal {β γ : Type} (f : β → γ) {m : Map β} (h : mrising m = true) :
    mrising (m.map (fun e => (e.1, f e.2))) = true := by
  induction m with
  | nil => rfl
  | cons x rest ih =>
    obtain ⟨k, v⟩ := x
    obtain ⟨h1, h2⟩ := mrising_cons.1 h
    refine mrising_cons.2 ⟨fun e he => ?_, ih h2⟩
    obtain ⟨e', he', rfl⟩ := List.mem_map.1 he
    exact h1 e' he'

theorem mrising_filterMap {β : Type} (f : Nat × β → Option (Nat × β)) (hf : ∀ e e', f e = some e' → e'.1 = e.1) {m : Map β}
    (h : mrising m = true) : mrising (m.filterMap f) = true := by
  induction m with
  | nil => rfl
  | cons x rest ih =>
    obtain ⟨k, v⟩ := x
    obtain ⟨h1, h2⟩ := mrising_cons.1 h
    rw [List.filterMap_cons]
    split
    · exact ih h2
    · rename_i y hy
      obtain ⟨k', v'⟩ := y
      have hk : k' = k := hf _ _ hy
      subst hk
      refine mrising_cons.2 ⟨fun e he => ?_, ih h2⟩
      obtain ⟨e', he', hh⟩ := List.mem_filterMap.1 he
      rw [hf _ _ hh]
      exact h1 e' he'

/-- Every instance changed in place. -/
theorem kept_mapInsts {s : State} (h : Kept q n s) {f : Inst → Inst} (hf : ∀ x, InstOk x → InstOk (f x)) :
    Kept q n { s with insts := s.insts.map (fun e => (e.1, f e.2)) } := by
  obtain ⟨h1, h2, h3, h4, h5, h6, h7, h8, h9, h10⟩ := h
  refine ⟨h1, h2, fun e he => ?_, mrising_mapVal f h4, h5, h6, h7, h8, h9, h10⟩
  obtain ⟨e', he', rfl⟩ := List.mem_map.1 he
  exact hf _ (h3 e' he')

/-- Instances dropped from the table. -/
theorem kept_filterInsts {s : State} (h : Kept q n s) (p : Nat × Inst → Bool) : Kept q n { s with insts := s.insts.filter p } := by
  obtain ⟨h1, h2, h3, h4, h5, h6, h7, h8, h9, h10⟩ := h
  exact ⟨h1, h2, fun e he => h3 e (List.mem_filter.1 he).1, mrising_filter p h4, h5, h6, h7, h8, h9, h10⟩

theorem instOk_staging {x : Inst} {m : List Host.Cell} (h : InstOk x) (e : Memory.wf m = true) : InstOk { x with staging := m } :=
  ⟨h.1, e⟩

theorem bayOk_lit_st {st' : Nat} {book' : Map Nat} {why' : BayOut} {failed' : Nat} {lag' : Nat} {frame' : Nat} {past' : List Nat} {gone' : Nat} {late' : Nat} {test' : Option Test} {testBook' : Option (Nat × Nat)} {tested' : Map Nat} {testQueue' : List Nat} {mem' : Map EngMem} {drbg' : Drbg}
    (e : st' ≤ 2) : BayOk (Bay.mk book' st' why' failed' lag' frame' past' gone' late' test' testBook' tested' testQueue' mem' drbg') := e

theorem bayOk_st {y : Bay} (e1 : y.st ≤ 2) : BayOk y := e1

end

end Sys2Proof.Machine
end

