-- ==== Sys2Proof/Laws/KeptOps.lean ====
section
/-! SUPPORT. What no command breaks (`Kept`): the named operations, the recorder, key stores, routing copies and admission. -/

namespace Sys2Proof.Machine

open Sys2Proof

variable {q : List Instr} {n : Nat}

theorem bumpBy_kept {a0 : State} {a1 : Nat} {a2 : Nat} (h0 : Kept q n a0) : Kept q n (bumpBy a0 a1 a2) := by
  unfold bumpBy
  repeat' first
    | with_reducible assumption | with_reducible refine kept_lit ?_ rfl rfl rfl

theorem bump_kept {a0 : State} {a1 : Nat} (h0 : Kept q n a0) : Kept q n (bump a0 a1) := by
  unfold bump
  repeat' first
    | with_reducible assumption | with_reducible refine bumpBy_kept ?_

theorem clocked_kept {a0 : State} {a1 : List Nat} {a2 : State → State} (h0 : Kept q n a0) (h2 : ∀ z0, Kept q n z0 → Kept q n
    (a2 z0)) : Kept q n (clocked a0 a1 a2) := by
  unfold clocked
  repeat' first
    | with_reducible assumption | with_reducible refine h2 _ ?_ | with_reducible refine kept_ite ?_ ?_

theorem stall_kept {a0 : State} {a1 : Instr} (h0 : Kept q n a0) : Kept q n (stall a0 a1) := by
  unfold stall
  repeat' first
    | with_reducible assumption | with_reducible refine kept_lit ?_ rfl rfl rfl

theorem crossing_kept {a0 : State} {a1 : List Nat} {a2 : List Nat} {a3 : Instr} {a4 : State → State} (h0 : Kept q n a0) (h4 :
    ∀ z0, Kept q n z0 → Kept q n (a4 z0)) : Kept q n (crossing a0 a1 a2 a3 a4) := by
  unfold crossing
  repeat' first
    | with_reducible assumption | with_reducible refine h4 _ ?_ | with_reducible refine stall_kept ?_
    | with_reducible refine kept_ite ?_ ?_

theorem dropOp_kept {a0 : Inst} {a1 : Nat} (h0 : InstOk a0) : InstOk (dropOp a0 a1) := by
  unfold dropOp
  repeat' first
    | with_reducible assumption | with_reducible refine instOk_lit ?_

theorem emit_kept {a0 : State} {a1 : Out} (h0 : Kept q n a0) : Kept q n (emit a0 a1) := by
  unfold emit
  repeat' first
    | with_reducible assumption | with_reducible refine kept_lit ?_ rfl rfl rfl

theorem freshArea_kept {a0 : State} (h0 : Kept q n a0) : Kept q n (freshArea a0).2 := by
  unfold freshArea
  repeat' first
    | with_reducible assumption | with_reducible refine kept_lit ?_ rfl rfl rfl

theorem modChan_kept {a0 : State} {a1 : Nat} {a2 : Chan → Chan} (h0 : Kept q n a0) : Kept q n (modChan a0 a1 a2) := by
  unfold modChan
  repeat' first
    | with_reducible assumption | with_reducible refine kept_lit ?_ rfl rfl rfl

theorem modHead_kept {a0 : State} {a1 : Nat} {a2 : Head → Head} (h0 : Kept q n a0) : Kept q n (modHead a0 a1 a2) := by
  unfold modHead
  repeat' first
    | with_reducible assumption | with_reducible refine kept_lit ?_ rfl rfl rfl

theorem setJoint_kept {a0 : State} {a1 : Nat} {a2 : Joint} (h0 : Kept q n a0) : Kept q n (setJoint a0 a1 a2) := by
  unfold setJoint
  repeat' first
    | with_reducible assumption | with_reducible refine kept_lit ?_ rfl rfl rfl

theorem modJoint_kept {a0 : State} {a1 : Nat} {a2 : Joint → Joint} (h0 : Kept q n a0) : Kept q n (modJoint a0 a1 a2) := by
  unfold modJoint
  repeat' first
    | with_reducible assumption | with_reducible refine setJoint_kept ?_

theorem modMon_kept {a0 : State} {a1 : Nat} {a2 : Mon → Mon} (h0 : Kept q n a0) : Kept q n (modMon a0 a1 a2) := by
  unfold modMon
  repeat' first
    | with_reducible assumption | with_reducible refine kept_lit ?_ rfl rfl rfl

theorem noteFresh_kept {a0 : State} {a1 : Nat} {a2 : Nat} {a3 : Nat} (h0 : Kept q n a0) : Kept q n (noteFresh a0 a1 a2 a3) := by
  unfold noteFresh
  repeat' first
    | with_reducible assumption | with_reducible refine kept_ite ?_ ?_ | with_reducible refine kept_lit ?_ rfl rfl rfl

theorem noteVault_kept {a0 : State} {a1 : Nat} (h0 : Kept q n a0) : Kept q n (noteVault a0 a1) := by
  unfold noteVault
  repeat' first
    | with_reducible assumption | with_reducible refine kept_lit ?_ rfl rfl rfl

theorem noteWriter_kept {a0 : State} {a1 : Nat} {a2 : Nat} {a3 : Nat} {a4 : Nat} (h0 : Kept q n a0) : Kept q n (noteWriter a0
    a1 a2 a3 a4) := by
  unfold noteWriter
  repeat' first
    | with_reducible assumption | with_reducible refine kept_ite ?_ ?_ | with_reducible refine kept_lit ?_ rfl rfl rfl

theorem reload_kept {a0 : State} {a1 : Nat} (h0 : Kept q n a0) : Kept q n (reload a0 a1) := by
  unfold reload
  repeat' first
    | with_reducible assumption | with_reducible refine freshArea_kept ?_ | with_reducible refine kept_of_snd (by assumption) ?_
    | split | with_reducible refine kept_lit ?_ rfl rfl rfl

theorem setCounter_kept {a0 : State} {a1 : Nat} {a2 : Nat} (h0 : Kept q n a0) : Kept q n (setCounter a0 a1 a2) := by
  unfold setCounter
  repeat' first
    | with_reducible assumption | with_reducible refine kept_lit ?_ rfl rfl rfl

theorem setDevCounter_kept {a0 : State} {a1 : Nat} {a2 : Nat} (h0 : Kept q n a0) : Kept q n (setDevCounter a0 a1 a2) := by
  unfold setDevCounter
  repeat' first
    | with_reducible assumption | with_reducible refine kept_lit ?_ rfl rfl rfl

theorem setOp_kept {a0 : Inst} {a1 : RingOp} (h0 : InstOk a0) : InstOk (setOp a0 a1) := by
  unfold setOp
  repeat' first
    | with_reducible assumption | with_reducible refine instOk_lit ?_

theorem setSlot_kept {a0 : Inst} {a1 : Nat} {a2 : InSlot} (h0 : InstOk a0) : InstOk (setSlot a0 a1 a2) := by
  unfold setSlot
  repeat' first
    | with_reducible assumption | with_reducible refine instOk_lit ?_

theorem spoilWord_kept {a0 : State} {a1 : Nat} {a2 : Nat} {a3 : Nat} (h0 : Kept q n a0) : Kept q n (spoilWord a0 a1 a2 a3) := by
  unfold spoilWord
  repeat' first
    | with_reducible assumption | with_reducible refine kept_lit ?_ rfl rfl rfl

theorem writeWords_kept {a0 : State} {a1 : Nat} {a2 : Nat} {a3 : Nat} (h0 : Kept q n a0) : Kept q n (writeWords a0 a1 a2 a3)
    := by
  unfold writeWords
  repeat' first
    | with_reducible assumption | with_reducible refine noteFresh_kept ?_ | with_reducible refine kept_lit ?_ rfl rfl rfl

theorem writeEngine_kept {a0 : State} {a1 : Nat} {a2 : Nat} (h0 : Kept q n a0) : Kept q n (writeEngine a0 a1 a2) := by
  unfold writeEngine
  repeat' first
    | with_reducible assumption | with_reducible refine writeWords_kept ?_

theorem drainQueue_kept {a0 : State} (h0 : Kept q n a0) : Kept q n (drainQueue a0) := by
  unfold drainQueue
  repeat' first
    | with_reducible assumption | with_reducible refine kept_ite ?_ ?_ | with_reducible refine kept_lit ?_ rfl rfl rfl

theorem intake_kept {a0 : State} {a1 : List EvRec} (h0 : Kept q n a0) : Kept q n (intake a0 a1) := by
  unfold intake
  repeat' first
    | with_reducible assumption | with_reducible refine kept_ite ?_ ?_ | split | with_reducible refine kept_lit ?_ rfl rfl rfl

theorem recordExempt_kept {a0 : State} {a1 : Nat} {a2 : Nat} {a3 : Bytes} (h0 : Kept q n a0) : Kept q n (recordExempt a0 a1
    a2 a3) := by
  unfold recordExempt
  repeat' first
    | with_reducible assumption | with_reducible refine intake_kept ?_

theorem recordLimited_kept {a0 : State} {a1 : Nat} {a2 : Nat} {a3 : Bytes} (h0 : Kept q n a0) : Kept q n (recordLimited a0 a1
    a2 a3) := by
  unfold recordLimited
  repeat' first
    | with_reducible assumption | with_reducible refine intake_kept ?_ | with_reducible refine kept_ite ?_ ?_
    | with_reducible refine kept_lit ?_ rfl rfl rfl

theorem record_kept {a0 : State} {a1 : Nat} {a2 : Nat} {a3 : Bytes} (h0 : Kept q n a0) : Kept q n (record a0 a1 a2 a3) := by
  unfold record
  repeat' first
    | with_reducible assumption | with_reducible refine recordExempt_kept ?_ | with_reducible refine recordLimited_kept ?_
    | with_reducible refine kept_ite ?_ ?_

theorem secondEnd_kept {a0 : State} (h0 : Kept q n a0) : Kept q n (secondEnd a0) := by
  unfold secondEnd
  repeat' first
    | with_reducible assumption | with_reducible refine recordExempt_kept ?_ | with_reducible refine kept_ite ?_ ?_
    | with_reducible refine kept_foldl _ ?_ ?_ | intro _ | with_reducible refine kept_lit ?_ rfl rfl rfl

theorem settle_kept {a0 : State} (h0 : Kept q n a0) : Kept q n (settle a0) := by
  unfold settle
  repeat' first
    | with_reducible assumption | with_reducible refine record_kept ?_ | with_reducible refine bump_kept ?_
    | with_reducible refine kept_ite ?_ ?_ | with_reducible refine kept_lit ?_ rfl rfl rfl

theorem tailRecord_kept {a0 : State} {a1 : Nat} {a2 : Nat} {a3 : Nat} {a4 : Nat} {a5 : Bytes} (h0 : Kept q n a0) : Kept q n
    (tailRecord a0 a1 a2 a3 a4 a5) := by
  unfold tailRecord
  repeat' first
    | with_reducible assumption | with_reducible refine kept_ite ?_ ?_ | with_reducible refine kept_lit ?_ rfl rfl rfl

theorem carryCode_kept {a0 : State} {a1 : Nat} {a2 : Nat} (h0 : Kept q n a0) : Kept q n (carryCode a0 a1 a2) := by
  unfold carryCode
  repeat' first
    | with_reducible assumption | with_reducible refine kept_each _ ?_ ?_ | with_reducible refine spoilWord_kept ?_ | intro _

theorem evictDraw_kept {a0 : State} {a1 : Nat} (h0 : Kept q n a0) : Kept q n (evictDraw a0 a1).2 := by
  unfold evictDraw
  repeat' first
    | with_reducible assumption | with_reducible refine kept_lit ?_ rfl rfl rfl

theorem chooseWay_kept {a0 : State} {a1 : Nat} {a2 : List Nat} (h0 : Kept q n a0) : Kept q n (chooseWay a0 a1 a2).2 := by
  unfold chooseWay
  repeat' first
    | with_reducible assumption | with_reducible refine evictDraw_kept ?_ | with_reducible refine kept_ite_snd ?_ ?_

theorem putGuard_kept {a0 : State} {a1 : Place} {a2 : Guard} (h0 : Kept q n a0) : Kept q n (putGuard a0 a1 a2) := by
  unfold putGuard
  repeat' first
    | with_reducible assumption | split | with_reducible refine kept_lit ?_ rfl rfl rfl

theorem postReservation_kept {a0 : State} {a1 : JourRec} (h0 : Kept q n a0) : Kept q n (postReservation a0 a1) := by
  unfold postReservation
  repeat' first
    | with_reducible assumption | with_reducible refine kept_ite ?_ ?_ | with_reducible refine kept_lit ?_ rfl rfl rfl

theorem claimKey_kept {a0 : State} {a1 : Key} {a2 : Nat} {a3 : Place} {a4 : optParam Nat 0} (h0 : Kept q n a0) : Kept q n
    (claimKey a0 a1 a2 a3 a4).2.1 := by
  unfold claimKey
  extract_lets p
  split
  split
  · exact h0
  · split
    · exact h0
    · exact recordLimited_kept (bump_kept h0)
    · dsimp only
      split
      · exact postReservation_kept (putGuard_kept h0)
      · exact putGuard_kept h0

theorem clearExt_kept {a0 : State} {a1 : Nat} (h0 : Kept q n a0) : Kept q n (clearExt a0 a1) := by
  unfold clearExt
  repeat' first
    | with_reducible assumption | with_reducible refine kept_lit ?_ rfl rfl rfl

theorem disinherit_kept {a0 : State} {a1 : Nat} {a2 : Nat} {a3 : Bool} (h0 : Kept q n a0) : Kept q n (disinherit a0 a1 a2 a3)
    := by
  unfold disinherit
  repeat' first
    | with_reducible assumption | with_reducible refine kept_lit ?_ rfl rfl rfl

theorem freeShelf_kept {a0 : State} (h0 : Kept q n a0) : Kept q n (freeShelf a0) := by
  unfold freeShelf
  repeat' first
    | with_reducible assumption | with_reducible refine kept_lit ?_ rfl rfl rfl

theorem putWay_kept {a0 : State} {a1 : Nat} {a2 : Way} (h0 : Kept q n a0) : Kept q n (putWay a0 a1 a2) := by
  unfold putWay
  repeat' first
    | with_reducible assumption | with_reducible refine writeWords_kept ?_ | with_reducible refine kept_lit ?_ rfl rfl rfl

theorem insertToken_kept {a0 : State} {a1 : Nat} {a2 : Nat} {a3 : Token} (h0 : Kept q n a0) : Kept q n (insertToken a0 a1 a2
    a3).2 := by
  unfold insertToken
  split
  · exact bump_kept h0
  · dsimp only
    split
    · exact putWay_kept h0
    · split
      · exact putWay_kept h0
      · split
        · exact putWay_kept (bump_kept (kept_of_snd (by assumption) (chooseWay_kept h0)))
        · exact bump_kept (kept_of_snd (by assumption) (chooseWay_kept h0))

theorem putShelf_kept {a0 : State} {a1 : Nat} {a2 : Shelf} (h0 : Kept q n a0) : Kept q n (putShelf a0 a1 a2) := by
  unfold putShelf
  repeat' first
    | with_reducible assumption | with_reducible refine carryCode_kept ?_ | with_reducible refine putWay_kept ?_

theorem placeShelf_kept {a0 : State} {a1 : Shelf} {y1} (h0 : Kept q n a0) (e : (placeShelf a0 a1) = some y1) : Kept q n y1 := by
  unfold placeShelf at e
  repeat' first
    | with_reducible assumption | cases e | split at e | dsimp only at e
    | with_reducible refine putShelf_kept ?_ | with_reducible refine chooseWay_kept ?_ | with_reducible refine bump_kept ?_
    | with_reducible refine kept_of_snd (by assumption) ?_

theorem shelveRun_kept {a0 : State} {a1 : Nat} {a2 : Nat} {a3 : Bool} {a4 : Bool} {y1} (h0 : Kept q n a0) (e : (shelveRun a0
    a1 a2 a3 a4) = some y1) : Kept q n y1 := by
  unfold shelveRun at e
  repeat' first
    | with_reducible assumption | cases e | split at e | dsimp only at e
    | with_reducible refine placeShelf_kept ?_ (by assumption) | with_reducible refine kept_foldl_bind _ (by assumption) ?_ ?_
    | intro _

theorem writeSlot_kept {a0 : State} {a1 : Nat} {a2 : Nat} {a3 : Option Key} (h0 : Kept q n a0) : Kept q n (writeSlot a0 a1 a2
    a3) := by
  unfold writeSlot
  repeat' first
    | with_reducible assumption | with_reducible refine clearExt_kept ?_ | with_reducible refine writeWords_kept ?_ | split
    | with_reducible refine kept_lit ?_ rfl rfl rfl

theorem returnCopies_kept {a0 : State} (h0 : Kept q n a0) : Kept q n (returnCopies a0) := by
  unfold returnCopies
  repeat' first
    | with_reducible assumption | with_reducible refine kept_ite ?_ ?_ | with_reducible refine kept_lit ?_ rfl rfl rfl

theorem writeRoutes_kept {a0 : State} {a1 : Routes} (h0 : Kept q n a0) : Kept q n (writeRoutes a0 a1) := by
  unfold writeRoutes
  repeat' first
    | with_reducible assumption | with_reducible refine kept_each _ ?_ ?_ | with_reducible refine writeWords_kept ?_ | intro _
    | with_reducible refine kept_lit ?_ rfl rfl rfl

theorem setBook_kept {a0 : State} {a1 : Nat} {a2 : Nat} {a3 : Nat} (h0 : Kept q n a0) : Kept q n (setBook a0 a1 a2 a3) := by
  unfold setBook
  repeat' first
    | with_reducible assumption | with_reducible refine kept_modBay ?_ _ ?_ | intro _ | with_reducible refine bayOk_lit ?_

theorem addCharges_kept {a0 : State} {a1 : Nat} {a2 : Nat} {a3 : List Nat} (h0 : Kept q n a0) : Kept q n (addCharges a0 a1 a2
    a3) := by
  induction a3 generalizing a0 a2 with
  | nil => exact h0
  | cons c cs ih => exact ih (setBook_kept h0)

theorem setDma_kept {a0 : State} {a1 : Nat} {a2 : Nat} {a3 : Nat} (h0 : Kept q n a0) : Kept q n (setDma a0 a1 a2 a3) := by
  unfold setDma
  repeat' first
    | with_reducible assumption | with_reducible refine kept_lit ?_ rfl rfl rfl

theorem addDma_kept {a0 : State} {a1 : Nat} {a2 : Nat} {a3 : Plan} (h0 : Kept q n a0) : Kept q n (addDma a0 a1 a2 a3) := by
  unfold addDma
  repeat' first
    | with_reducible assumption | with_reducible refine setDma_kept ?_ | with_reducible refine kept_ite ?_ ?_
    | with_reducible refine kept_foldl _ ?_ ?_ | intro _

theorem refilled_kept {a0 : Cfg} {a1 : Nat} {a2 : Nat} {a3 : Inst} (h3 : InstOk a3) : InstOk (refilled a0 a1 a2 a3) := by
  unfold refilled
  repeat' first
    | with_reducible assumption | with_reducible refine instOk_lit ?_

theorem refill_kept {a0 : State} {a1 : Nat} (h0 : Kept q n a0) : Kept q n (refill a0 a1) := by
  unfold refill
  repeat' first
    | with_reducible assumption | with_reducible refine kept_modInst ?_ _ ?_ | with_reducible refine refilled_kept ?_ | intro _

theorem countStatus_kept {a0 : State} {a1 : Nat} {a2 : Nat} {a3 : Nat} {a4 : Nat} {a5 : Nat} {a6 : Bool} (h0 : Kept q n a0) :
    Kept q n (countStatus a0 a1 a2 a3 a4 a5 a6) := by
  unfold countStatus
  repeat' first
    | with_reducible assumption | with_reducible refine bump_kept ?_ | with_reducible refine kept_ite ?_ ?_ | split

theorem sendMsix_kept {a0 : State} {a1 : Nat} {a2 : Nat} (h0 : Kept q n a0) : Kept q n (sendMsix a0 a1 a2) := by
  unfold sendMsix
  repeat' first
    | with_reducible assumption | with_reducible refine emit_kept ?_ | with_reducible refine kept_ite ?_ ?_
    | with_reducible refine kept_lit ?_ rfl rfl rfl

theorem completeRing_kept {a0 : State} {a1 : Nat} {a2 : RingOp} {a3 : Nat} {a4 : Nat} {a5 : Nat} {a6 : Nat} {a7 : Nat} {a8 :
    Bytes} (h0 : Kept q n a0) : Kept q n (completeRing a0 a1 a2 a3 a4 a5 a6 a7 a8) := by
  unfold completeRing
  repeat' first
    | with_reducible assumption | with_reducible refine kept_modInst ?_ _ ?_ | with_reducible refine noteWriter_kept ?_
    | with_reducible refine writeWords_kept ?_ | with_reducible refine dropOp_kept ?_
    | with_reducible refine countStatus_kept ?_ | with_reducible refine sendMsix_kept ?_
    | with_reducible refine freeShelf_kept ?_ | with_reducible refine kept_ite ?_ ?_ | intro _
    | with_reducible refine instOk_lit ?_

theorem countMiss_kept {a0 : State} {a1 : RingOp} (h0 : Kept q n a0) : Kept q n (countMiss a0 a1) := by
  unfold countMiss
  repeat' first
    | with_reducible assumption | with_reducible refine bump_kept ?_ | with_reducible refine kept_ite ?_ ?_

theorem askRegion_kept {a0 : State} {a1 : RingOp} {a2 : Region} (h0 : Kept q n a0) : Kept q n (askRegion a0 a1 a2).1 := by
  unfold askRegion
  repeat' first
    | with_reducible assumption | with_reducible refine kept_each _ ?_ ?_ | with_reducible refine emit_kept ?_ | intro _

theorem askInput_kept {a0 : State} {a1 : RingOp} (h0 : Kept q n a0) : Kept q n (askInput a0 a1).1 := by
  unfold askInput
  repeat' first
    | with_reducible assumption | with_reducible refine askRegion_kept ?_ | with_reducible refine kept_ite_fst ?_ ?_ | split

theorem moveRotor_kept {a0 : State} {a1 : Kind} {a2 : Nat} (h0 : Kept q n a0) : Kept q n (moveRotor a0 a1 a2) := by
  unfold moveRotor
  repeat' first
    | with_reducible assumption | with_reducible refine kept_ite ?_ ?_ | with_reducible refine kept_lit ?_ rfl rfl rfl

theorem decide1_kept {a0 : State} {a1 : Nat} {a2 : RingOp} (h0 : Kept q n a0) : Kept q n (decide1 a0 a1 a2) := by
  unfold decide1
  repeat' first
    | with_reducible assumption | with_reducible refine refill_kept ?_ | with_reducible refine kept_modInst ?_ _ ?_
    | with_reducible refine bump_kept ?_ | with_reducible refine completeRing_kept ?_ | with_reducible refine countMiss_kept ?_
    | with_reducible refine setOp_kept ?_ | with_reducible refine addDma_kept ?_ | with_reducible refine addCharges_kept ?_
    | with_reducible refine askInput_kept ?_ | with_reducible refine moveRotor_kept ?_ | with_reducible refine kept_ite ?_ ?_
    | intro _ | split | with_reducible refine kept_lit ?_ rfl rfl rfl | with_reducible refine instOk_lit ?_

theorem takeDescriptors_kept {a0 : Nat} {a1 : Nat} {a2 : Nat} {a3 : State} (h3 : Kept q n a3) : Kept q n (takeDescriptors a0
    a1 a2 a3) := by
  induction a2 generalizing a3 with
  | zero => exact h3
  | succ m ih =>
    simp only [takeDescriptors]
    split
    · exact kept_modInst h3 _ (fun x hx => hx)
    · exact kept_ite (ih (decide1_kept (kept_modInst h3 _ (fun x hx => hx)))) h3

theorem drrPass_kept {a0 : Nat} {a1 : Nat} {a2 : State} (h2 : Kept q n a2) : Kept q n (drrPass a0 a1 a2) := by
  unfold drrPass
  repeat' first
    | with_reducible assumption | with_reducible refine takeDescriptors_kept ?_ | with_reducible refine kept_modInst ?_ _ ?_
    | with_reducible refine kept_foldl _ ?_ ?_ | intro _ | with_reducible refine instOk_lit ?_

theorem drrPasses_kept {a0 : Nat} {a1 : Nat} {a2 : Nat} {a3 : State} (h3 : Kept q n a3) : Kept q n (drrPasses a0 a1 a2 a3) := by
  induction a2 generalizing a3 with
  | zero => exact h3
  | succ m ih => exact kept_ite h3 (ih (drrPass_kept h3))

theorem admitRound_kept {a0 : State} {a1 : Nat} (h0 : Kept q n a0) : Kept q n (admitRound a0 a1) := by
  unfold admitRound
  repeat' first
    | with_reducible assumption | with_reducible refine drrPasses_kept ?_ | split
    | with_reducible refine kept_lit ?_ rfl rfl rfl

theorem lessCharge_kept {a0 : State} {a1 : Nat} {a2 : Nat} {a3 : Nat} (h0 : Kept q n a0) : Kept q n (lessCharge a0 a1 a2 a3)
    := by
  unfold lessCharge
  repeat' first
    | with_reducible assumption | with_reducible refine setBook_kept ?_

theorem dropCharges_kept {a0 : State} {a1 : Nat} {a2 : Nat} {a3 : Nat} {a4 : List Nat} (h0 : Kept q n a0) : Kept q n
    (dropCharges a0 a1 a2 a3 a4) := by
  induction a4 generalizing a0 a3 with
  | nil => exact h0
  | cons c cs ih => exact ih (kept_ite (lessCharge_kept h0) h0)

theorem dropDma_kept {a0 : State} {a1 : Nat} {a2 : Nat} {a3 : Nat} {a4 : Plan} (h0 : Kept q n a0) : Kept q n (dropDma a0 a1
    a2 a3 a4) := by
  unfold dropDma
  repeat' first
    | with_reducible assumption | with_reducible refine setDma_kept ?_ | with_reducible refine kept_ite ?_ ?_
    | with_reducible refine kept_foldl _ ?_ ?_ | intro _

theorem fillBuckets_kept {a0 : State} {a1 : Nat} (h0 : Kept q n a0) : Kept q n (fillBuckets a0 a1) := by
  unfold fillBuckets
  repeat' first
    | with_reducible assumption | with_reducible refine kept_modInst ?_ _ ?_ | intro _ | with_reducible refine instOk_lit ?_

theorem noteLate_kept {a0 : State} {a1 : Nat} {a2 : Nat} {a3 : Nat} {a4 : Nat} {a5 : Nat} (h0 : Kept q n a0) : Kept q n
    (noteLate a0 a1 a2 a3 a4 a5) := by
  unfold noteLate
  repeat' first
    | with_reducible assumption | with_reducible refine bump_kept ?_ | with_reducible refine kept_modBay ?_ _ ?_
    | with_reducible refine record_kept ?_ | with_reducible refine kept_ite ?_ ?_ | intro _ | with_reducible refine bayOk_lit ?_

theorem modDrbg_kept {a0 : State} {a1 : Nat} {a2 : Drbg → Drbg} (h0 : Kept q n a0) : Kept q n (modDrbg a0 a1 a2) := by
  unfold modDrbg
  repeat' first
    | with_reducible assumption | with_reducible refine kept_modBay ?_ _ ?_ | intro _ | with_reducible refine bayOk_lit ?_

theorem applyReseed_kept {a0 : State} {a1 : Nat} (h0 : Kept q n a0) : Kept q n (applyReseed a0 a1) := by
  unfold applyReseed
  repeat' first
    | with_reducible assumption | with_reducible refine modDrbg_kept ?_ | with_reducible refine bump_kept ?_
    | with_reducible refine kept_ite ?_ ?_ | split

theorem requestSeed_kept {a0 : State} {a1 : Nat} {a2 : Consumer} {a3 : Nat} (h0 : Kept q n a0) : Kept q n (requestSeed a0 a1
    a2 a3) := by
  unfold requestSeed
  repeat' first
    | with_reducible assumption | with_reducible refine kept_ite ?_ ?_ | with_reducible refine kept_lit ?_ rfl rfl rfl

theorem askReseed_kept {a0 : State} {a1 : Nat} {a2 : Bool} (h0 : Kept q n a0) : Kept q n (askReseed a0 a1 a2) := by
  unfold askReseed
  repeat' first
    | with_reducible assumption | with_reducible refine requestSeed_kept ?_ | with_reducible refine modDrbg_kept ?_
    | with_reducible refine kept_ite ?_ ?_

theorem countCall_kept {a0 : State} {a1 : Nat} (h0 : Kept q n a0) : Kept q n (countCall a0 a1) := by
  unfold countCall
  repeat' first
    | with_reducible assumption | with_reducible refine askReseed_kept ?_ | with_reducible refine modDrbg_kept ?_

theorem generate_kept {a0 : State} {a1 : Nat} {a2 : Nat} (h0 : Kept q n a0) : Kept q n (generate a0 a1 a2).2 := by
  unfold generate
  repeat' first
    | with_reducible assumption | with_reducible refine countCall_kept ?_ | with_reducible refine modDrbg_kept ?_

theorem refillReserve_kept {a0 : State} {a1 : Nat} (h0 : Kept q n a0) : Kept q n (refillReserve a0 a1) := by
  unfold refillReserve
  repeat' first
    | with_reducible assumption | with_reducible refine generate_kept ?_ | with_reducible refine modDrbg_kept ?_

theorem serveFirst_kept {a0 : State} {a1 : Nat} (h0 : Kept q n a0) : Kept q n (serveFirst a0 a1) := by
  unfold serveFirst
  repeat' first
    | with_reducible assumption | with_reducible refine kept_each _ ?_ ?_ | with_reducible refine applyReseed_kept ?_
    | with_reducible refine refillReserve_kept ?_ | with_reducible refine kept_ite ?_ ?_ | intro _

theorem draw_kept {a0 : State} {a1 : Nat} {a2 : Nat} (h0 : Kept q n a0) : Kept q n (draw a0 a1 a2).2 := by
  unfold draw
  repeat' first
    | with_reducible assumption | with_reducible refine serveFirst_kept ?_ | with_reducible refine generate_kept ?_
    | with_reducible refine bump_kept ?_ | with_reducible refine modDrbg_kept ?_ | with_reducible refine kept_ite ?_ ?_
    | with_reducible refine kept_ite_snd ?_ ?_

theorem raiseMonitor_kept {a0 : State} {a1 : Nat} {a2 : Bytes} (h0 : Kept q n a0) : Kept q n (raiseMonitor a0 a1 a2) := by
  unfold raiseMonitor
  repeat' first
    | with_reducible assumption | with_reducible refine modMon_kept ?_ | with_reducible refine recordLimited_kept ?_
    | with_reducible refine kept_ite ?_ ?_ | with_reducible refine kept_lit ?_ rfl rfl rfl

theorem raiseIf_kept {a0 : State} {a1 : Nat} {a2 : Bytes} {a3 : Bool} (h0 : Kept q n a0) : Kept q n (raiseIf a0 a1 a2 a3) := by
  unfold raiseIf
  repeat' first
    | with_reducible assumption | with_reducible refine raiseMonitor_kept ?_ | with_reducible refine kept_ite ?_ ?_

end Sys2Proof.Machine
end

