-- ==== Sys2Proof/Laws/KeptEngines.lean ====
section
/-! SUPPORT. What no command breaks (`Kept`): the meanings of ring and inline operations. -/

namespace Sys2Proof.Machine

open Sys2Proof

variable {q : List Instr} {n : Nat}

theorem modMem_kept {a0 : State} {a1 : Nat} {a2 : Nat} {a3 : EngMem → EngMem} (h0 : Kept q n a0) : Kept q n (modMem a0 a1 a2
    a3) := by
  unfold modMem
  repeat' first
    | with_reducible assumption | with_reducible refine kept_modBay ?_ _ ?_ | intro _ | with_reducible refine bayOk_lit ?_

theorem seatEngine_kept {a0 : State} {a1 : Nat} {a2 : Nat} {a3 : Nat} (h0 : Kept q n a0) : Kept q n (seatEngine a0 a1 a2 a3)
    := by
  unfold seatEngine
  repeat' first
    | with_reducible assumption | with_reducible refine freshArea_kept ?_ | with_reducible refine writeEngine_kept ?_
    | with_reducible refine modMem_kept ?_

theorem seatAll_kept {a0 : State} {a1 : RingOp} {a2 : List Nat} (h0 : Kept q n a0) : Kept q n (seatAll a0 a1 a2) := by
  unfold seatAll
  repeat' first
    | with_reducible assumption | with_reducible refine kept_each _ ?_ ?_ | with_reducible refine seatEngine_kept ?_ | intro _

theorem raiseFabric_kept {a0 : State} {a1 : Nat} {a2 : Nat} {a3 : Nat} (h0 : Kept q n a0) : Kept q n (raiseFabric a0 a1 a2
    a3) := by
  unfold raiseFabric
  repeat' first
    | with_reducible assumption | with_reducible refine settle_kept ?_ | with_reducible refine raiseIf_kept ?_

theorem beginOp_kept {a0 : State} {a1 : Nat} {a2 : RingOp} {a3 : Option Outcome} (h0 : Kept q n a0) : Kept q n (beginOp a0 a1
    a2 a3) := by
  unfold beginOp
  repeat' first
    | with_reducible assumption | with_reducible refine seatAll_kept ?_ | with_reducible refine raiseFabric_kept ?_
    | with_reducible refine kept_modInst ?_ _ ?_ | with_reducible refine setOp_kept ?_ | with_reducible refine kept_ite ?_ ?_
    | intro _ | split

theorem clearMem_kept {a0 : State} {a1 : Nat} {a2 : Nat} {a3 : Owner} (h0 : Kept q n a0) : Kept q n (clearMem a0 a1 a2 a3) := by
  unfold clearMem
  repeat' first
    | with_reducible assumption | with_reducible refine writeEngine_kept ?_ | with_reducible refine modMem_kept ?_

theorem releaseBooking_kept {a0 : State} {a1 : RingOp} {a2 : Nat} (h0 : Kept q n a0) : Kept q n (releaseBooking a0 a1 a2) := by
  unfold releaseBooking
  repeat' first
    | with_reducible assumption | with_reducible refine dropDma_kept ?_ | with_reducible refine dropCharges_kept ?_
    | with_reducible refine kept_ite ?_ ?_

theorem writeStaged_kept {a0 : State} {a1 : Nat} {a2 : RingOp} {a3 : Bytes} (h0 : Kept q n a0) : Kept q n (writeStaged a0 a1
    a2 a3) := by
  unfold writeStaged
  split
  · dsimp only
    exact kept_ite h0 (noteWriter_kept (writeWords_kept (kept_modInst h0 _ (fun x hx => ⟨hx.1, Memory.wf_writeN _ _ hx.2⟩))))
  · exact h0

theorem endRing_kept {a0 : State} {a1 : Nat} {a2 : RingOp} {a3 : Nat} {a4 : Nat} {a5 : Bytes} {a6 : Bytes} (h0 : Kept q n a0)
    : Kept q n (endRing a0 a1 a2 a3 a4 a5 a6) := by
  unfold endRing
  repeat' first
    | with_reducible assumption | with_reducible refine noteLate_kept ?_ | with_reducible refine writeStaged_kept ?_
    | with_reducible refine completeRing_kept ?_ | with_reducible refine kept_ite ?_ ?_

theorem cutShort_kept {a0 : State} {a1 : Nat} {a2 : RingOp} {a3 : Nat} (h0 : Kept q n a0) : Kept q n (cutShort a0 a1 a2 a3)
    := by
  unfold cutShort
  repeat' first
    | with_reducible assumption | with_reducible refine releaseBooking_kept ?_ | with_reducible refine endRing_kept ?_
    | with_reducible refine kept_modInst ?_ _ ?_ | with_reducible refine setOp_kept ?_ | with_reducible refine kept_ite ?_ ?_
    | intro _

theorem slotMismatch_kept {a0 : State} {a1 : Nat} {a2 : Option (Key × Nat × Place)} (h0 : Kept q n a0) : Kept q n
    (slotMismatch a0 a1 a2) := by
  unfold slotMismatch
  repeat' first
    | with_reducible assumption | with_reducible refine raiseFabric_kept ?_ | split

theorem refusedKey_kept {a0 : State} {a1 : Nat} {a2 : Nat} {a3 : Option (Key × Nat × Place)} (h0 : Kept q n a0) : Kept q n
    (refusedKey a0 a1 a2 a3) := by
  unfold refusedKey
  repeat' first
    | with_reducible assumption | with_reducible refine slotMismatch_kept ?_ | with_reducible refine kept_ite ?_ ?_

theorem fetchKey_kept {a0 : State} {a1 : Nat} {a2 : Nat} {a3 : Role} {a4 : Option (Key × Nat × Place)} {a5 : Key → Bool} {a6
    : Key → Bool} {a7 : optParam Nat 0} (h0 : Kept q n a0) : Kept q n (fetchKey a0 a1 a2 a3 a4 a5 a6 a7).2.1 := by
  unfold fetchKey
  repeat' first
    | with_reducible assumption | with_reducible refine refusedKey_kept ?_ | with_reducible refine claimKey_kept ?_
    | with_reducible refine kept_ite_mid ?_ ?_ | split

theorem setLaneOp_kept {a0 : State} {a1 : Nat} {a2 : Nat} {a3 : Option LaneOp} (h0 : Kept q n a0) : Kept q n (setLaneOp a0 a1
    a2 a3) := by
  unfold setLaneOp
  repeat' first
    | with_reducible assumption | with_reducible refine kept_modInst ?_ _ ?_ | with_reducible refine setSlot_kept ?_ | intro _

theorem raiseEngine_kept {a0 : State} {a1 : Nat} (h0 : Kept q n a0) : Kept q n (raiseEngine a0 a1) := by
  unfold raiseEngine
  repeat' first
    | with_reducible assumption | with_reducible refine raiseFabric_kept ?_

theorem fixLine_kept {a0 : State} {a1 : Nat} {a2 : Nat} {a3 : LaneOp} {a4 : Outcome} (h0 : Kept q n a0) : Kept q n (fixLine
    a0 a1 a2 a3 a4) := by
  unfold fixLine
  repeat' first
    | with_reducible assumption | with_reducible refine raiseFabric_kept ?_ | with_reducible refine setLaneOp_kept ?_
    | with_reducible refine raiseEngine_kept ?_ | with_reducible refine kept_ite ?_ ?_

theorem fixOutcome_kept {a0 : State} {a1 : Nat} {a2 : RingOp} {a3 : Outcome} (h0 : Kept q n a0) : Kept q n (fixOutcome a0 a1
    a2 a3) := by
  unfold fixOutcome
  repeat' first
    | with_reducible assumption | with_reducible refine beginOp_kept ?_

theorem hostWrites_kept {a0 : State} {a1 : RingOp} {a2 : Nat} {a3 : Bytes} (h0 : Kept q n a0) : Kept q n (hostWrites a0 a1 a2
    a3) := by
  unfold hostWrites
  repeat' first
    | with_reducible assumption | with_reducible refine kept_each _ ?_ ?_ | with_reducible refine emit_kept ?_ | intro _

theorem sendBytes_kept {a0 : State} {a1 : Nat} {a2 : RingOp} {a3 : Region} {a4 : Bytes} (h0 : Kept q n a0) : Kept q n
    (sendBytes a0 a1 a2 a3 a4).1 := by
  unfold sendBytes
  repeat' first
    | with_reducible assumption | with_reducible refine kept_modInst ?_ _ ?_ | with_reducible refine hostWrites_kept ?_
    | with_reducible refine setOp_kept ?_ | intro _

theorem readLast_kept {a0 : State} {a1 : Nat} {a2 : RingOp} {a3 : Region} {a4 : Bytes} (h0 : Kept q n a0) : Kept q n
    (readLast a0 a1 a2 a3 a4) := by
  unfold readLast
  repeat' first
    | with_reducible assumption | with_reducible refine kept_modInst ?_ _ ?_ | with_reducible refine emit_kept ?_
    | with_reducible refine setOp_kept ?_ | intro _

theorem hostOutput_kept {a0 : State} {a1 : Nat} {a2 : RingOp} {a3 : Region} {a4 : Bytes} (h0 : Kept q n a0) : Kept q n
    (hostOutput a0 a1 a2 a3 a4) := by
  unfold hostOutput
  repeat' first
    | with_reducible assumption | with_reducible refine sendBytes_kept ?_ | with_reducible refine readLast_kept ?_
    | with_reducible refine kept_ite ?_ ?_

theorem wipeBnc_kept {a0 : State} {a1 : Nat} {a2 : Nat} {a3 : Owner} (h0 : Kept q n a0) : Kept q n (wipeBnc a0 a1 a2 a3) := by
  unfold wipeBnc
  repeat' first
    | with_reducible assumption | with_reducible refine bump_kept ?_ | with_reducible refine clearMem_kept ?_

theorem raiseRoute_kept {a0 : State} {a1 : Nat} {a2 : Nat} (h0 : Kept q n a0) : Kept q n (raiseRoute a0 a1 a2) := by
  unfold raiseRoute
  repeat' first
    | with_reducible assumption | with_reducible refine raiseFabric_kept ?_

theorem ringHub_kept {a0 : Nat} {a1 : Nat} {a2 : Nat} {a3 : State} (h3 : Kept q n a3) : Kept q n (ringHub a0 a1 a2 a3) := by
  unfold ringHub
  repeat' first
    | with_reducible assumption | with_reducible refine endRing_kept ?_ | with_reducible refine raiseRoute_kept ?_
    | with_reducible refine kept_ite ?_ ?_ | split

theorem inlineLine_kept {a0 : Nat} {a1 : Nat} {a2 : Nat} {a3 : State} (h3 : Kept q n a3) : Kept q n (inlineLine a0 a1 a2 a3)
    := by
  unfold inlineLine
  repeat' first
    | with_reducible assumption | with_reducible refine fixLine_kept ?_ | with_reducible refine kept_ite ?_ ?_ | split

theorem hubOp_kept {a0 : Nat} {a1 : Nat} {a2 : OpRef} {a3 : State} (h3 : Kept q n a3) : Kept q n (hubOp a0 a1 a2 a3) := by
  unfold hubOp
  repeat' first
    | with_reducible assumption | with_reducible refine ringHub_kept ?_ | with_reducible refine kept_at ?_ _
    | with_reducible refine inlineLine_kept ?_ | split

theorem lineKeys_kept {a0 : State} {a1 : Line} {a2 : Nat} {a3 : Nat} {a4 : Nat} {a5 : Option (Option Nat)} {a6 : Option (Key
    × Nat × Place)} {a7 : Nat → Option (Key × Nat × Place)} (h0 : Kept q n a0) : Kept q n (lineKeys a0 a1 a2 a3 a4 a5 a6
    a7).2 := by
  unfold lineKeys
  have h : Kept q n (if lineUsesA a1 = true then fetchKey a0 a2 a3 (lineRoleA a1 a4) a6 noNonce always
      else (Fetched.got {} 0 0, a0, [])).2.1 := kept_ite_mid (fetchKey_kept h0) h0
  generalize (if lineUsesA a1 = true then fetchKey a0 a2 a3 (lineRoleA a1 a4) a6 noNonce always
      else (Fetched.got {} 0 0, a0, [])) = r at h ⊢
  obtain ⟨fa, s, wa⟩ := r
  dsimp only at h ⊢
  split
  · exact h
  · refine kept_ite_snd h (kept_ite_snd h ?_)
    generalize hr : fetchKey s _ _ _ _ _ _ = r
    obtain ⟨fb, s', wb⟩ := r
    have h' := kept_of_mid hr (fetchKey_kept h)
    dsimp only
    split <;> exact h'

theorem ringLine_kept {a0 : Nat} {a1 : Nat} {a2 : Nat} {a3 : State} (h3 : Kept q n a3) : Kept q n (ringLine a0 a1 a2 a3) := by
  unfold ringLine
  repeat' first
    | with_reducible assumption | with_reducible refine fixOutcome_kept ?_ | with_reducible refine raiseRoute_kept ?_
    | with_reducible refine lineKeys_kept ?_ | with_reducible refine draw_kept ?_ | with_reducible refine kept_ite ?_ ?_
    | with_reducible refine kept_ite_snd ?_ ?_ | split

theorem lineOp_kept {a0 : Nat} {a1 : Nat} {a2 : OpRef} {a3 : State} (h3 : Kept q n a3) : Kept q n (lineOp a0 a1 a2 a3) := by
  unfold lineOp
  repeat' first
    | with_reducible assumption | with_reducible refine ringLine_kept ?_ | with_reducible refine kept_at ?_ _
    | with_reducible refine inlineLine_kept ?_ | split

theorem beginJob_kept {a0 : State} {a1 : Nat} {a2 : RingOp} {a3 : Key} {a4 : Nat} {a5 : RingOp → Outcome} (h0 : Kept q n a0)
    : Kept q n (beginJob a0 a1 a2 a3 a4 a5) := by
  unfold beginJob
  repeat' first
    | with_reducible assumption | with_reducible refine fixOutcome_kept ?_ | with_reducible refine beginOp_kept ?_
    | with_reducible refine kept_ite ?_ ?_

theorem ringCipher_kept {a0 : Nat} {a1 : Nat} {a2 : Nat} {a3 : State} (h3 : Kept q n a3) : Kept q n (ringCipher a0 a1 a2 a3)
    := by
  unfold ringCipher
  repeat' first
    | with_reducible assumption | with_reducible refine fetchKey_kept ?_ | with_reducible refine fixOutcome_kept ?_
    | with_reducible refine beginJob_kept ?_ | split | with_reducible refine kept_lit ?_ rfl rfl rfl

theorem cipherOp_kept {a0 : Nat} {a1 : Nat} {a2 : OpRef} {a3 : State} (h3 : Kept q n a3) : Kept q n (cipherOp a0 a1 a2 a3) := by
  unfold cipherOp
  repeat' first
    | with_reducible assumption | with_reducible refine ringCipher_kept ?_ | with_reducible refine kept_at ?_ _ | split

theorem inputDone_kept {a0 : State} {a1 : Nat} {a2 : RingOp} {a3 : Job} (h0 : Kept q n a0) : Kept q n (inputDone a0 a1 a2 a3)
    := by
  unfold inputDone
  repeat' first
    | with_reducible assumption | with_reducible refine kept_modInst ?_ _ ?_ | with_reducible refine seatAll_kept ?_
    | with_reducible refine setOp_kept ?_ | with_reducible refine kept_ite ?_ ?_ | intro _

theorem ringMac_kept {a0 : Bool} {a1 : Nat} {a2 : Nat} {a3 : State} (h3 : Kept q n a3) : Kept q n (ringMac a0 a1 a2 a3) := by
  unfold ringMac
  repeat' first
    | with_reducible assumption | with_reducible refine fetchKey_kept ?_ | with_reducible refine fixOutcome_kept ?_
    | with_reducible refine beginJob_kept ?_ | split | with_reducible refine kept_lit ?_ rfl rfl rfl

theorem macOp_kept {a0 : Bool} {a1 : Nat} {a2 : OpRef} {a3 : State} (h3 : Kept q n a3) : Kept q n (macOp a0 a1 a2 a3) := by
  unfold macOp
  repeat' first
    | with_reducible assumption | with_reducible refine ringMac_kept ?_ | with_reducible refine kept_at ?_ _ | split

theorem ringDukpt_kept {a0 : Nat} {a1 : Nat} {a2 : State} (h2 : Kept q n a2) : Kept q n (ringDukpt a0 a1 a2) := by
  unfold ringDukpt
  repeat' first
    | with_reducible assumption | with_reducible refine fixOutcome_kept ?_ | with_reducible refine refusedKey_kept ?_
    | with_reducible refine raiseFabric_kept ?_ | with_reducible refine fetchKey_kept ?_ | with_reducible refine kept_ite ?_ ?_
    | with_reducible refine kept_of_mid (by assumption) ?_ | split | with_reducible refine kept_lit ?_ rfl rfl rfl

theorem ringEmv_kept {a0 : Nat} {a1 : Nat} {a2 : State} (h2 : Kept q n a2) : Kept q n (ringEmv a0 a1 a2) := by
  unfold ringEmv
  repeat' first
    | with_reducible assumption | with_reducible refine fetchKey_kept ?_ | with_reducible refine fixOutcome_kept ?_
    | with_reducible refine kept_of_mid (by assumption) ?_ | split

theorem ringOnly_kept {a0 : Nat → Nat → State → State} {a1 : Nat} {a2 : OpRef} {a3 : State} (h0 : ∀ z0 z1 z2, Kept q n z2 →
    Kept q n (a0 z0 z1 z2)) (h3 : Kept q n a3) : Kept q n (ringOnly a0 a1 a2 a3) := by
  unfold ringOnly
  repeat' first
    | with_reducible assumption | with_reducible refine h0 _ _ _ ?_ | with_reducible refine kept_at ?_ _ | split

theorem ringRandom_kept {a0 : Nat} {a1 : Nat} {a2 : State} (h2 : Kept q n a2) : Kept q n (ringRandom a0 a1 a2) := by
  unfold ringRandom
  repeat' first
    | with_reducible assumption | with_reducible refine draw_kept ?_ | with_reducible refine fixOutcome_kept ?_
    | with_reducible refine kept_of_snd (by assumption) ?_ | split

theorem controllerDraw_kept {a0 : State} {a1 : Nat} (h0 : Kept q n a0) : Kept q n (controllerDraw a0 a1).2 := by
  unfold controllerDraw
  repeat' first
    | with_reducible assumption | with_reducible refine draw_kept ?_ | split

theorem dropIdentity_kept {a0 : State} (h0 : Kept q n a0) : Kept q n (dropIdentity a0) := by
  unfold dropIdentity
  repeat' first
    | with_reducible assumption | with_reducible refine kept_lit ?_ rfl rfl rfl

theorem freeBytes_kept {a0 : State} {a1 : Nat} (h0 : Kept q n a0) : Kept q n (freeBytes a0 a1).2 := by
  unfold freeBytes
  repeat' first
    | with_reducible assumption | with_reducible refine kept_lit ?_ rfl rfl rfl

theorem setIdentity_kept {a0 : State} {a1 : Bytes} (h0 : Kept q n a0) : Kept q n (setIdentity a0 a1) := by
  unfold setIdentity
  repeat' first
    | with_reducible assumption | with_reducible refine kept_lit ?_ rfl rfl rfl

theorem setKumCounter_kept {a0 : State} {a1 : Nat} {a2 : Nat} (h0 : Kept q n a0) : Kept q n (setKumCounter a0 a1 a2) := by
  unfold setKumCounter
  repeat' first
    | with_reducible assumption | with_reducible refine kept_ite ?_ ?_ | with_reducible refine kept_lit ?_ rfl rfl rfl

theorem leaveSegment_kept {a0 : State} {a1 : Nat} {a2 : Nat} (h0 : Kept q n a0) : Kept q n (leaveSegment a0 a1 a2) := by
  unfold leaveSegment
  repeat' first
    | with_reducible assumption | with_reducible refine writeWords_kept ?_ | with_reducible refine modMem_kept ?_

theorem leaveOutput_kept {a0 : State} {a1 : Nat} {a2 : Nat} {a3 : Nat} (h0 : Kept q n a0) : Kept q n (leaveOutput a0 a1 a2
    a3) := by
  unfold leaveOutput
  repeat' first
    | with_reducible assumption | with_reducible refine freshArea_kept ?_ | with_reducible refine writeWords_kept ?_
    | with_reducible refine modMem_kept ?_

theorem enterSegment_kept {a0 : State} {a1 : Nat} {a2 : Nat} {a3 : Nat} {a4 : Nat} {a5 : Bool} (h0 : Kept q n a0) : Kept q n
    (enterSegment a0 a1 a2 a3 a4 a5) := by
  unfold enterSegment
  repeat' first
    | with_reducible assumption | with_reducible refine wipeBnc_kept ?_ | with_reducible refine freshArea_kept ?_
    | with_reducible refine writeEngine_kept ?_ | with_reducible refine modMem_kept ?_ | with_reducible refine kept_ite ?_ ?_

theorem beginCheck_kept {a0 : State} {a1 : Nat} {a2 : RingOp} {a3 : Outcome} (h0 : Kept q n a0) : Kept q n (beginCheck a0 a1
    a2 a3).1 := by
  unfold beginCheck
  have h : Kept q n (each a2.engines a0 (fun s k => leaveSegment (leaveOutput s a2.bay k (dOp a2.snap)) a2.bay k)) :=
    kept_each _ h0 (fun _ _ h => leaveSegment_kept (leaveOutput_kept h))
  dsimp only
  generalize (each a2.engines a0 (fun s k => leaveSegment (leaveOutput s a2.bay k (dOp a2.snap)) a2.bay k)) = s at h ⊢
  split
  · exact kept_modInst h _ (fun x hx => setOp_kept hx)
  · exact kept_modInst (enterSegment_kept h) _ (fun x hx => setOp_kept hx)

theorem engineMismatch_kept {a0 : State} {a1 : Nat} {a2 : RingOp} (h0 : Kept q n a0) : Kept q n (engineMismatch a0 a1 a2) := by
  unfold engineMismatch
  repeat' first
    | with_reducible assumption | with_reducible refine kept_modInst ?_ _ ?_ | with_reducible refine raiseEngine_kept ?_
    | with_reducible refine setOp_kept ?_ | intro _

theorem dsaAttemptDone_kept {a0 : Nat} {a1 : Nat} {a2 : State} (h2 : Kept q n a2) : Kept q n (dsaAttemptDone a0 a1 a2) := by
  unfold dsaAttemptDone
  repeat' first
    | with_reducible assumption | with_reducible refine engineMismatch_kept ?_ | with_reducible refine kept_modInst ?_ _ ?_
    | with_reducible refine setOp_kept ?_ | with_reducible refine beginCheck_kept ?_ | with_reducible refine kept_ite ?_ ?_
    | intro _ | split | with_reducible refine kept_lit ?_ rfl rfl rfl

theorem enterAll_kept {a0 : State} {a1 : Nat} {a2 : Nat} {a3 : Bytes} {a4 : List Nat} (h0 : Kept q n a0) : Kept q n (enterAll
    a0 a1 a2 a3 a4) := by
  unfold enterAll
  repeat' first
    | with_reducible assumption | with_reducible refine kept_each _ ?_ ?_ | with_reducible refine enterSegment_kept ?_ | intro _

theorem ringPublic_kept {a0 : Nat} {a1 : Nat} {a2 : Nat} {a3 : State} (h3 : Kept q n a3) : Kept q n (ringPublic a0 a1 a2 a3)
    := by
  unfold ringPublic
  repeat' first
    | with_reducible assumption | with_reducible refine enterAll_kept ?_ | with_reducible refine fetchKey_kept ?_
    | with_reducible refine fixOutcome_kept ?_ | with_reducible refine draw_kept ?_ | with_reducible refine beginOp_kept ?_
    | with_reducible refine kept_ite_snd ?_ ?_ | split | with_reducible refine kept_lit ?_ rfl rfl rfl

theorem shelveItem_kept {a0 : State} {a1 : Nat} {a2 : ItemOut} {y1} (h0 : Kept q n a0) (e : (shelveItem a0 a1 a2) = some y1)
    : Kept q n y1 := by
  unfold shelveItem at e
  repeat' first
    | with_reducible assumption | cases e | split at e | with_reducible refine disinherit_kept ?_
    | with_reducible refine shelveRun_kept ?_ (by assumption) | with_reducible refine kept_ite ?_ ?_

theorem applyItem_kept {a0 : State} {a1 : Nat} {a2 : ItemOut} {y1} (h0 : Kept q n a0) (e : (applyItem a0 a1 a2) = some y1) :
    Kept q n y1 := by
  unfold applyItem at e
  repeat' first
    | with_reducible assumption | cases e | split at e | dsimp only at e
    | with_reducible refine shelveItem_kept ?_ (by assumption) | with_reducible refine writeSlot_kept ?_
    | with_reducible refine setCounter_kept ?_ | with_reducible refine noteVault_kept ?_
    | with_reducible refine postReservation_kept ?_ | with_reducible refine kept_ite ?_ ?_ | split
    | with_reducible refine kept_lit ?_ rfl rfl rfl

theorem applyItems_kept {a0 : State} {a1 : Nat} {a2 : List ItemOut} {y1} (h0 : Kept q n a0) (e : (applyItems a0 a1 a2) = some
    y1) : Kept q n y1 := by
  unfold applyItems at e
  repeat' first
    | with_reducible assumption | with_reducible refine applyItem_kept ?_ (by assumption)
    | with_reducible refine kept_foldl_bind _ (by assumption) ?_ ?_ | intro _

theorem trial_kept {a0 : State} {a1 : List ItemOut} (h0 : Kept q n a0) : Kept q n (trial a0 a1) := by
  unfold trial
  repeat' first
    | with_reducible assumption | with_reducible refine writeSlot_kept ?_ | with_reducible refine kept_foldl _ ?_ ?_ | intro _

theorem fetchCarrier_kept {a0 : State} {a1 : Claims} {a2 : Nat} {a3 : Nat} {a4 : Nat} {a5 : Nat} {a6 : Role} (h0 : Kept q n
    a0) : Kept q n (fetchCarrier a0 a1 a2 a3 a4 a5 a6).2.1 := by
  unfold fetchCarrier
  repeat' first
    | with_reducible assumption | with_reducible refine fetchKey_kept ?_ | with_reducible refine kept_ite_mid ?_ ?_
    | with_reducible refine kept_of_mid (by assumption) ?_ | split

theorem keptMaterial_kept {a0 : State} {a1 : State} {a2 : Nat} {a3 : Slot} (h0 : Kept q n a0) (h1 : Kept q n a1) : Kept q n
    (keptMaterial a0 a1 a2 a3).2 := by
  unfold keptMaterial
  repeat' first
    | with_reducible assumption | with_reducible refine raiseFabric_kept ?_ | with_reducible refine kept_ite_snd ?_ ?_ | split

theorem itemMaterial_kept {a0 : State} {a1 : State} {a2 : Claims} {a3 : Nat} {a4 : Nat} {a5 : Nat} {a6 : Item} {a7 : Slot}
    {a8 : Nat} {a9 : Bytes} (h0 : Kept q n a0) (h1 : Kept q n a1) : Kept q n (itemMaterial a0 a1 a2 a3 a4 a5 a6 a7 a8 a9).2.1
    := by
  unfold itemMaterial
  repeat' first
    | with_reducible assumption | with_reducible refine fetchCarrier_kept ?_ | with_reducible refine keptMaterial_kept ?_ ?_
    | with_reducible refine kept_of_mid (by assumption) ?_ | split

theorem checkItem_kept {a0 : State} {a1 : Claims} {a2 : Nat} {a3 : Nat} {a4 : List ItemOut} {a5 : Item} {a6 : Bytes} (h0 :
    Kept q n a0) : Kept q n (checkItem a0 a1 a2 a3 a4 a5 a6).2.1 := by
  unfold checkItem
  repeat' first
    | with_reducible assumption | with_reducible refine trial_kept ?_ | with_reducible refine itemMaterial_kept ?_ ?_
    | with_reducible refine bump_kept ?_ | with_reducible refine kept_ite_mid ?_ ?_
    | with_reducible refine kept_of_mid (by assumption) ?_ | split

theorem checkItems_kept {a0 : State} {a1 : Claims} {a2 : Nat} {a3 : Nat} {a4 : Nat} {a5 : List ItemOut} {a6 : Bytes} {a7 :
    List Item} (h0 : Kept q n a0) : Kept q n (checkItems a0 a1 a2 a3 a4 a5 a6 a7).2.1 := by
  induction a7 generalizing a0 a1 a4 a5 a6 with
  | nil => exact h0
  | cons x xs ih =>
    simp only [checkItems]
    split
    · exact kept_of_mid (by assumption) (checkItem_kept h0)
    · exact ih (kept_of_mid (by assumption) (checkItem_kept h0))

theorem kumRefused_kept {a0 : State} {a1 : Nat} {a2 : Nat} {a3 : Option (Nat × Nat)} (h0 : Kept q n a0) : Kept q n
    (kumRefused a0 a1 a2 a3) := by
  unfold kumRefused
  repeat' first
    | with_reducible assumption | with_reducible refine freeBytes_kept ?_ | with_reducible refine record_kept ?_
    | with_reducible refine bump_kept ?_

theorem advanceEpoch_kept {a0 : State} (h0 : Kept q n a0) : Kept q n (advanceEpoch a0) := by
  unfold advanceEpoch
  repeat' first
    | with_reducible assumption | with_reducible refine setDevCounter_kept ?_ | with_reducible refine kept_lit ?_ rfl rfl rfl

theorem kReply_kept {a0 : State} {a1 : KHdr} {a2 : Nat} {a3 : Nat} {a4 : Bytes} (h0 : Kept q n a0) : Kept q n (kReply a0 a1
    a2 a3 a4) := by
  unfold kReply
  repeat' first
    | with_reducible assumption | with_reducible refine emit_kept ?_

theorem answerSigns_kept {a0 : State} {a1 : Joint} (h0 : Kept q n a0) : Kept q n (answerSigns a0 a1) := by
  unfold answerSigns
  repeat' first
    | with_reducible assumption | with_reducible refine kept_each _ ?_ ?_ | with_reducible refine kReply_kept ?_ | intro _

theorem closeJoint_kept {a0 : State} {a1 : Nat} {a2 : Nat} {a3 : Nat} (h0 : Kept q n a0) : Kept q n (closeJoint a0 a1 a2 a3)
    := by
  unfold closeJoint
  repeat' first
    | with_reducible assumption | with_reducible refine modJoint_kept ?_ | with_reducible refine kept_lit ?_ rfl rfl rfl

theorem commitRecord_kept {a0 : State} {a1 : Nat} {a2 : Nat} {a3 : Nat} (h0 : Kept q n a0) : Kept q n (commitRecord a0 a1 a2
    a3) := by
  unfold commitRecord
  repeat' first
    | with_reducible assumption | with_reducible refine bump_kept ?_ | with_reducible refine record_kept ?_

theorem openSlot_kept {a0 : State} {a1 : Nat} {a2 : Joint} (h0 : Kept q n a0) : Kept q n (openSlot a0 a1 a2) := by
  unfold openSlot
  repeat' first
    | with_reducible assumption | with_reducible refine setJoint_kept ?_ | with_reducible refine setDevCounter_kept ?_

theorem queueCommit_kept {a0 : State} {a1 : Nat} {a2 : Nat} (h0 : Kept q n a0) : Kept q n (queueCommit a0 a1 a2) := by
  unfold queueCommit
  repeat' first
    | with_reducible assumption | with_reducible refine modJoint_kept ?_ | with_reducible refine kept_lit ?_ rfl rfl rfl

theorem endKumJoint_kept {a0 : State} {a1 : RingOp} {a2 : Nat} {a3 : Nat} (h0 : Kept q n a0) : Kept q n (endKumJoint a0 a1 a2
    a3) := by
  unfold endKumJoint
  repeat' first
    | with_reducible assumption | with_reducible refine closeJoint_kept ?_ | with_reducible refine commitRecord_kept ?_
    | with_reducible refine answerSigns_kept ?_ | split

theorem kumDraws_kept {a0 : Nat} {a1 : Nat} {a2 : State} (h2 : Kept q n a2) : Kept q n (kumDraws a0 a1 a2).2 := by
  induction a1 generalizing a2 with
  | zero => exact draw_kept h2
  | succ m ih =>
    simp only [kumDraws]
    split
    · exact kept_of_snd (by assumption) (draw_kept h2)
    · split
      · exact kept_of_snd (by assumption) (ih (kept_of_snd (by assumption) (draw_kept h2)))
      · exact kept_of_snd (by assumption) (ih (kept_of_snd (by assumption) (draw_kept h2)))

theorem openKumJoint_kept {a0 : State} {a1 : Nat} {a2 : Nat} {a3 : Bytes} (h0 : Kept q n a0) : Kept q n (openKumJoint a0 a1
    a2 a3).2 := by
  unfold openKumJoint
  repeat' first
    | with_reducible assumption | with_reducible refine queueCommit_kept ?_ | with_reducible refine openSlot_kept ?_
    | with_reducible refine kept_ite_snd ?_ ?_ | split

theorem ringKum_kept {a0 : Nat} {a1 : Nat} {a2 : State} (h2 : Kept q n a2) : Kept q n (ringKum a0 a1 a2) := by
  unfold ringKum
  repeat' first
    | with_reducible assumption | with_reducible refine enterAll_kept ?_ | with_reducible refine fixOutcome_kept ?_
    | with_reducible refine refusedKey_kept ?_ | with_reducible refine kumDraws_kept ?_
    | with_reducible refine openKumJoint_kept ?_ | with_reducible refine beginOp_kept ?_ | with_reducible refine kept_ite ?_ ?_
    | with_reducible refine kept_of_snd (by assumption) ?_ | split | with_reducible refine kept_lit ?_ rfl rfl rfl

theorem kumCutNow_refused {s t : State} {o : RingOp} {m : Kum} {st : Nat} {item : Option (Nat × Nat)} (h : Kept q n s)
    (e : kumCutNow s o m = .refused st item t) : Kept q n t := by
  unfold kumCutNow at e
  split at e
  · cases e; exact h
  · dsimp only at e
    have h' := setKumCounter_kept (a1 := m.tenant) (a2 := m.counter) h
    split at e
    · cases e; exact h'
    · split at e
      · cases e
        exact kept_of_mid (by assumption) (checkItems_kept h')
      · have h2 := kept_of_mid (by assumption) (checkItems_kept h')
        split at e
        · cases e; exact h2
        · split at e
          · cases e; exact h2
          · cases e

theorem kumCutNow_cut {s t : State} {o : RingOp} {m : Kum} {its : List ItemOut} {w : List Nat} (h : Kept q n s)
    (e : kumCutNow s o m = .cut its w t) : Kept q n t := by
  unfold kumCutNow at e
  split at e
  · cases e
  · dsimp only at e
    have h' := setKumCounter_kept (a1 := m.tenant) (a2 := m.counter) h
    split at e
    · cases e
    · split at e
      · cases e
      · have h2 := kept_of_mid (by assumption) (checkItems_kept h')
        split at e
        · cases e
        · split at e
          · cases e
          · cases e
            exact freeShelf_kept (bump_kept (applyItems_kept (advanceEpoch_kept h2) (by assumption)))

theorem ringKumCut_kept {a0 : Nat} {a1 : Nat} {a2 : State} (h2 : Kept q n a2) : Kept q n (ringKumCut a0 a1 a2) := by
  unfold ringKumCut
  split
  · dsimp only
    split
    · exact h2
    · refine kept_ite ?_ h2
      split
      · exact kept_modInst (endKumJoint_kept (kumCutNow_refused h2 (by assumption))) _ (fun x hx => setOp_kept hx)
      · exact kept_modInst (kept_each _ (endKumJoint_kept (kumCutNow_cut h2 (by assumption))) (fun _ _ h => enterSegment_kept h)) _
          (fun x hx => setOp_kept hx)
  · exact h2

theorem ringUnwrap_kept {a0 : Nat} {a1 : Nat} {a2 : State} (h2 : Kept q n a2) : Kept q n (ringUnwrap a0 a1 a2) := by
  unfold ringUnwrap
  repeat' first
    | with_reducible assumption | with_reducible refine fetchKey_kept ?_ | with_reducible refine fixOutcome_kept ?_ | split
    | with_reducible refine kept_lit ?_ rfl rfl rfl

theorem answerDone_kept {a0 : State} {a1 : Nat} {a2 : Nat} (h0 : Kept q n a0) : Kept q n (answerDone a0 a1 a2) := by
  unfold answerDone
  repeat' first
    | with_reducible assumption | with_reducible refine emit_kept ?_

theorem answerPoison_kept {a0 : State} {a1 : Nat} {a2 : Nat} (h0 : Kept q n a0) : Kept q n (answerPoison a0 a1 a2) := by
  unfold answerPoison
  repeat' first
    | with_reducible assumption | with_reducible refine emit_kept ?_

theorem answerRead_kept {a0 : State} {a1 : Nat} {a2 : Nat} {a3 : Bytes} (h0 : Kept q n a0) : Kept q n (answerRead a0 a1 a2
    a3) := by
  unfold answerRead
  repeat' first
    | with_reducible assumption | with_reducible refine emit_kept ?_

theorem complete_kept {a0 : State} {a1 : Bool} {a2 : Nat} {a3 : Nat} (h0 : Kept q n a0) : Kept q n (complete a0 a1 a2 a3) := by
  unfold complete
  repeat' first
    | with_reducible assumption | with_reducible refine answerDone_kept ?_ | with_reducible refine kept_ite ?_ ?_

theorem violation_kept {a0 : State} {a1 : Nat} {a2 : Nat} {a3 : Nat} {a4 : Nat} {a5 : Bool} (h0 : Kept q n a0) : Kept q n
    (violation a0 a1 a2 a3 a4 a5) := by
  unfold violation
  repeat' first
    | with_reducible assumption | with_reducible refine record_kept ?_ | split | with_reducible refine kept_lit ?_ rfl rfl rfl

theorem deny_kept {a0 : State} {a1 : Nat} {a2 : Nat} {a3 : Nat} {a4 : Bool} {a5 : Nat} (h0 : Kept q n a0) : Kept q n (deny a0
    a1 a2 a3 a4 a5) := by
  unfold deny
  repeat' first
    | with_reducible assumption | with_reducible refine violation_kept ?_ | with_reducible refine answerPoison_kept ?_
    | with_reducible refine answerDone_kept ?_ | with_reducible refine kept_ite ?_ ?_

theorem dmaViolation_kept {a0 : State} {a1 : List (Nat × Nat)} {a2 : Nat} {a3 : Nat} {a4 : Bool} (h0 : Kept q n a0) : Kept q
    n (dmaViolation a0 a1 a2 a3 a4) := by
  unfold dmaViolation
  repeat' first
    | with_reducible assumption | with_reducible refine kept_each _ ?_ ?_ | with_reducible refine raiseIf_kept ?_
    | with_reducible refine violation_kept ?_ | intro _

theorem unclaimed_kept {a0 : State} {a1 : Bool} {a2 : Nat} {a3 : Nat} (h0 : Kept q n a0) : Kept q n (unclaimed a0 a1 a2 a3)
    := by
  unfold unclaimed
  repeat' first
    | with_reducible assumption | with_reducible refine answerRead_kept ?_ | with_reducible refine answerDone_kept ?_
    | with_reducible refine kept_ite ?_ ?_

theorem ldAccess_kept {a0 : State} {a1 : Instr} {a2 : Nat} {a3 : Nat} {a4 : Nat} {a5 : Bool} {a6 : Nat} {a7 : State → State}
    (h0 : Kept q n a0) (h7 : ∀ z0, Kept q n z0 → Kept q n (a7 z0)) : Kept q n (ldAccess a0 a1 a2 a3 a4 a5 a6 a7) := by
  unfold ldAccess
  repeat' first
    | with_reducible assumption | with_reducible refine h7 _ ?_ | with_reducible refine stall_kept ?_
    | with_reducible refine complete_kept ?_ | with_reducible refine unclaimed_kept ?_ | with_reducible refine deny_kept ?_
    | with_reducible refine kept_ite ?_ ?_ | split

theorem abandonKum_kept {a0 : State} {a1 : Nat} {a2 : RingOp} (h0 : Kept q n a0) : Kept q n (abandonKum a0 a1 a2) := by
  unfold abandonKum
  repeat' first
    | with_reducible assumption | with_reducible refine setKumCounter_kept ?_ | with_reducible refine closeJoint_kept ?_
    | with_reducible refine answerSigns_kept ?_ | with_reducible refine kept_ite ?_ ?_ | split
    | with_reducible refine kept_lit ?_ rfl rfl rfl

theorem checkedEnd_kept {a0 : State} {a1 : Nat} {a2 : RingOp} {a3 : Outcome} (h0 : Kept q n a0) : Kept q n (checkedEnd a0 a1
    a2 a3).1 := by
  unfold checkedEnd
  repeat' first
    | with_reducible assumption | with_reducible refine kept_modInst ?_ _ ?_ | with_reducible refine raiseEngine_kept ?_
    | with_reducible refine setOp_kept ?_ | with_reducible refine kept_ite_fst ?_ ?_ | intro _

theorem leaveEngines_kept {a0 : State} {a1 : Nat} {a2 : RingOp} {a3 : Bool} (h0 : Kept q n a0) : Kept q n (leaveEngines a0 a1
    a2 a3) := by
  unfold leaveEngines
  repeat' first
    | with_reducible assumption | with_reducible refine kept_each _ ?_ ?_ | with_reducible refine clearMem_kept ?_
    | with_reducible refine wipeBnc_kept ?_ | with_reducible refine leaveSegment_kept ?_ | with_reducible refine kept_ite ?_ ?_
    | intro _

theorem returnCore_kept {a0 : State} {a1 : Nat} {a2 : RingOp} (h0 : Kept q n a0) : Kept q n (returnCore a0 a1 a2) := by
  unfold returnCore
  repeat' first
    | with_reducible assumption | with_reducible refine refill_kept ?_ | with_reducible refine kept_modInst ?_ _ ?_ | intro _
    | with_reducible refine instOk_lit ?_

theorem endEarly_kept {a0 : State} {a1 : Nat} {a2 : RingOp} {a3 : Nat} (h0 : Kept q n a0) : Kept q n (endEarly a0 a1 a2 a3)
    := by
  unfold endEarly
  repeat' first
    | with_reducible assumption | with_reducible refine leaveEngines_kept ?_ | with_reducible refine abandonKum_kept ?_
    | with_reducible refine returnCore_kept ?_ | with_reducible refine cutShort_kept ?_ | with_reducible refine kept_ite ?_ ?_

theorem denyDma_kept {a0 : State} {a1 : Nat} {a2 : RingOp} {a3 : Nat} {a4 : Bool} (h0 : Kept q n a0) : Kept q n (denyDma a0
    a1 a2 a3 a4) := by
  unfold denyDma
  repeat' first
    | with_reducible assumption | with_reducible refine settle_kept ?_ | with_reducible refine endEarly_kept ?_
    | with_reducible refine dmaViolation_kept ?_

theorem selfCheckFailed_kept {a0 : State} {a1 : Nat} {a2 : RingOp} {a3 : Nat} (h0 : Kept q n a0) : Kept q n (selfCheckFailed
    a0 a1 a2 a3) := by
  unfold selfCheckFailed
  repeat' first
    | with_reducible assumption | with_reducible refine leaveEngines_kept ?_ | with_reducible refine freeBytes_kept ?_
    | with_reducible refine record_kept ?_ | with_reducible refine bump_kept ?_ | with_reducible refine kept_modBay ?_ _ ?_
    | intro _ | with_reducible refine bayOk_lit ?_

theorem releaseRest_kept {a0 : State} {a1 : Nat} {a2 : RingOp} (h0 : Kept q n a0) : Kept q n (releaseRest a0 a1 a2) := by
  unfold releaseRest
  repeat' first
    | with_reducible assumption | with_reducible refine returnCore_kept ?_ | with_reducible refine releaseBooking_kept ?_

theorem dsaAccount_kept {a0 : State} {a1 : Nat} {a2 : RingOp} (h0 : Kept q n a0) : Kept q n (dsaAccount a0 a1 a2) := by
  unfold dsaAccount
  repeat' first
    | with_reducible assumption | with_reducible refine setCounter_kept ?_ | with_reducible refine bump_kept ?_
    | with_reducible refine releaseRest_kept ?_ | with_reducible refine kept_ite ?_ ?_

theorem rewriteDeriv_kept {a0 : State} {a1 : Outcome} (h0 : Kept q n a0) : Kept q n (rewriteDeriv a0 a1) := by
  unfold rewriteDeriv
  repeat' first
    | with_reducible assumption | with_reducible refine writeWords_kept ?_ | split
    | with_reducible refine kept_lit ?_ rfl rfl rfl

theorem insertAtEnd_kept {a0 : State} {a1 : Attach} {a2 : Outcome} (h0 : Kept q n a0) : Kept q n (insertAtEnd a0 a1 a2).2.2
    := by
  unfold insertAtEnd
  repeat' first
    | with_reducible assumption | with_reducible refine insertToken_kept ?_
    | with_reducible refine kept_of_snd (by assumption) ?_ | split

theorem finishRing_kept {a0 : State} {a1 : Nat} {a2 : RingOp} {a3 : Outcome} (h0 : Kept q n a0) : Kept q n (finishRing a0 a1
    a2 a3) := by
  unfold finishRing
  repeat' first
    | with_reducible assumption | with_reducible refine selfCheckFailed_kept ?_ | with_reducible refine leaveEngines_kept ?_
    | with_reducible refine kept_each _ ?_ ?_ | with_reducible refine leaveOutput_kept ?_
    | with_reducible refine dsaAccount_kept ?_ | with_reducible refine kumRefused_kept ?_
    | with_reducible refine abandonKum_kept ?_ | with_reducible refine endRing_kept ?_
    | with_reducible refine rewriteDeriv_kept ?_ | with_reducible refine insertAtEnd_kept ?_
    | with_reducible refine kept_ite ?_ ?_ | intro _

theorem dmaSettled_kept {a0 : State} {a1 : Nat} {a2 : RingOp} (h0 : Kept q n a0) : Kept q n (dmaSettled a0 a1 a2) := by
  unfold dmaSettled
  repeat' first
    | with_reducible assumption | with_reducible refine kept_modInst ?_ _ ?_ | with_reducible refine setOp_kept ?_
    | with_reducible refine endRing_kept ?_ | with_reducible refine finishRing_kept ?_ | with_reducible refine kept_ite ?_ ?_
    | intro _ | split

theorem suspendOp_kept {a0 : State} {a1 : Nat} {a2 : RingOp} (h0 : Kept q n a0) : Kept q n (suspendOp a0 a1 a2).1 := by
  unfold suspendOp
  repeat' first
    | with_reducible assumption | with_reducible refine leaveEngines_kept ?_ | with_reducible refine kept_modInst ?_ _ ?_
    | with_reducible refine setOp_kept ?_ | with_reducible refine kept_ite_fst ?_ ?_ | intro _

theorem sendProduced_kept {a0 : State} {a1 : Nat} {a2 : RingOp} (h0 : Kept q n a0) : Kept q n (sendProduced a0 a1 a2) := by
  unfold sendProduced
  repeat' first
    | with_reducible assumption | with_reducible refine denyDma_kept ?_ | with_reducible refine sendBytes_kept ?_ | split
    | with_reducible refine kept_lit ?_ rfl rfl rfl

theorem lackingStep_kept {a0 : State} {a1 : Nat} {a2 : RingOp} {a3 : Job} (h0 : Kept q n a0) : Kept q n (lackingStep a0 a1 a2
    a3) := by
  unfold lackingStep
  repeat' first
    | with_reducible assumption | with_reducible refine suspendOp_kept ?_ | with_reducible refine inputDone_kept ?_
    | with_reducible refine sendProduced_kept ?_ | with_reducible refine kept_ite ?_ ?_

theorem dmaFollows_kept {a0 : State} {a1 : Nat} {a2 : RingOp} (h0 : Kept q n a0) : Kept q n (dmaFollows a0 a1 a2) := by
  unfold dmaFollows
  repeat' first
    | with_reducible assumption | with_reducible refine dmaSettled_kept ?_ | with_reducible refine askInput_kept ?_
    | with_reducible refine kept_modInst ?_ _ ?_ | with_reducible refine setOp_kept ?_
    | with_reducible refine lackingStep_kept ?_ | with_reducible refine kept_ite ?_ ?_
    | with_reducible refine kept_of_fst (by assumption) ?_ | intro _ | split

theorem endWaiting_kept {a0 : State} {a1 : Nat} {a2 : RingOp} {a3 : Nat} (h0 : Kept q n a0) : Kept q n (endWaiting a0 a1 a2
    a3) := by
  unfold endWaiting
  repeat' first
    | with_reducible assumption | with_reducible refine kept_modInst ?_ _ ?_ | with_reducible refine setOp_kept ?_ | intro _

theorem endAdmitted_kept {a0 : State} {a1 : Nat} {a2 : Nat} (h0 : Kept q n a0) : Kept q n (endAdmitted a0 a1 a2) := by
  unfold endAdmitted
  repeat' first
    | with_reducible assumption | with_reducible refine kept_each _ ?_ ?_ | with_reducible refine endWaiting_kept ?_
    | with_reducible refine endEarly_kept ?_ | with_reducible refine kept_ite ?_ ?_ | intro _

theorem endCovered_kept {a0 : State} {a1 : Nat} {a2 : RingOp} {a3 : Nat} (h0 : Kept q n a0) : Kept q n (endCovered a0 a1 a2
    a3) := by
  unfold endCovered
  repeat' first
    | with_reducible assumption | with_reducible refine completeRing_kept ?_

theorem pumpHead_kept {a0 : State} {a1 : Nat} (h0 : Kept q n a0) : Kept q n (pumpHead a0 a1) := by
  unfold pumpHead
  repeat' first
    | with_reducible assumption | with_reducible refine kept_each _ ?_ ?_ | with_reducible refine askInput_kept ?_
    | with_reducible refine kept_modInst ?_ _ ?_ | with_reducible refine setOp_kept ?_ | intro _ | split

theorem reservationDurable_kept {a0 : State} {a1 : Nat} (h0 : Kept q n a0) : Kept q n (reservationDurable a0 a1) := by
  unfold reservationDurable
  have h : Kept q n { a0 with keys := { a0.keys with journal := { a0.keys.journal with
      stage := markDurable a1 a0.keys.journal.stage } } } := kept_lit h0 rfl rfl rfl
  have h' := kept_mapInsts h (f := fun (x : Inst) =>
      { x with ops := x.ops.map (fun o => { o with waits := dropWait a1 o.waits })
               slots := x.slots.map (fun e => (e.1, { e.2 with op := e.2.op.map (fun o => { o with waits := dropWait a1 o.waits }) })) })
      (fun x hx => hx)
  dsimp only
  split
  · exact h
  · exact h'

theorem ringDma_kept {a0 : DmaData} {a1 : Nat} {a2 : Nat} {a3 : State} (h3 : Kept q n a3) : Kept q n (ringDma a0 a1 a2 a3) := by
  unfold ringDma
  repeat' first
    | with_reducible assumption | with_reducible refine denyDma_kept ?_ | with_reducible refine pumpHead_kept ?_
    | with_reducible refine dmaFollows_kept ?_ | with_reducible refine kept_ite ?_ ?_ | split

theorem ringRelease_kept {a0 : State} {a1 : Nat} {a2 : RingOp} {a3 : Outcome} (h0 : Kept q n a0) : Kept q n (ringRelease a0
    a1 a2 a3) := by
  unfold ringRelease
  repeat' first
    | with_reducible assumption | with_reducible refine denyDma_kept ?_ | with_reducible refine hostOutput_kept ?_
    | with_reducible refine finishRing_kept ?_ | with_reducible refine kept_ite ?_ ?_ | split

theorem ringSegmentEnd_kept {a0 : Nat} {a1 : Nat} {a2 : State} (h2 : Kept q n a2) : Kept q n (ringSegmentEnd a0 a1 a2) := by
  unfold ringSegmentEnd
  repeat' first
    | with_reducible assumption | with_reducible refine checkedEnd_kept ?_ | with_reducible refine beginCheck_kept ?_
    | with_reducible refine ringRelease_kept ?_ | with_reducible refine sendProduced_kept ?_
    | with_reducible refine lackingStep_kept ?_ | with_reducible refine kept_ite ?_ ?_ | split

theorem ringTimeout_kept {a0 : Nat} {a1 : Nat} {a2 : State} (h2 : Kept q n a2) : Kept q n (ringTimeout a0 a1 a2) := by
  unfold ringTimeout
  repeat' first
    | with_reducible assumption | with_reducible refine ringDma_kept ?_ | with_reducible refine kept_ite ?_ ?_ | split

end Sys2Proof.Machine
end

