-- ==== Sys2Proof/Laws/KeptPorts.lean ====
section
/-! SUPPORT. What no command breaks (`Kept`): accesses, inline slots, resets, doorbells, tests of bays. -/

namespace Sys2Proof.Machine

open Sys2Proof

variable {q : List Instr} {n : Nat}

theorem answerHeld_kept {a0 : State} {a1 : Option Held} {a2 : Bytes} (h0 : Kept q n a0) : Kept q n (answerHeld a0 a1 a2) := by
  unfold answerHeld
  repeat' first
    | with_reducible assumption | with_reducible refine answerRead_kept ?_ | split

theorem answerLine_kept {a0 : State} {a1 : Nat} {a2 : Nat} {a3 : Nat} {a4 : Nat} {a5 : Bytes} (h0 : Kept q n a0) : Kept q n
    (answerLine a0 a1 a2 a3 a4 a5) := by
  unfold answerLine
  repeat' first
    | with_reducible assumption | with_reducible refine answerPoison_kept ?_ | with_reducible refine raiseFabric_kept ?_
    | with_reducible refine answerRead_kept ?_ | split

theorem capture_kept {a0 : State} {a1 : Nat} {a2 : Nat} {a3 : Nat} {a4 : Nat} {a5 : Nat} {a6 : Bool} {a7 : Bool} (h0 : Kept q
    n a0) : Kept q n (capture a0 a1 a2 a3 a4 a5 a6 a7) := by
  unfold capture
  repeat' first
    | with_reducible assumption | with_reducible refine kept_modInst ?_ _ ?_ | intro _ | split
    | with_reducible refine instOk_lit ?_

theorem writeLine_kept {a0 : State} {a1 : Nat} {a2 : Nat} {a3 : Nat} {a4 : Bytes} (h0 : Kept q n a0) : Kept q n (writeLine a0
    a1 a2 a3 a4) := by
  unfold writeLine
  repeat' first
    | with_reducible assumption | with_reducible refine answerHeld_kept ?_ | with_reducible refine noteWriter_kept ?_
    | with_reducible refine writeWords_kept ?_ | with_reducible refine kept_modInst ?_ _ ?_
    | with_reducible refine setSlot_kept ?_ | with_reducible refine kept_ite ?_ ?_ | intro _
    | with_reducible refine instOk_lit ?_

theorem hubLine_kept {a0 : State} {a1 : Nat} {a2 : Nat} {a3 : Nat} {a4 : Bytes} {a5 : Nat} {a6 : Nat} (h0 : Kept q n a0) :
    Kept q n (hubLine a0 a1 a2 a3 a4 a5 a6) := by
  unfold hubLine
  repeat' first
    | with_reducible assumption | with_reducible refine countStatus_kept ?_ | with_reducible refine noteLate_kept ?_
    | with_reducible refine writeLine_kept ?_ | with_reducible refine kept_ite ?_ ?_

theorem takeLane_kept {a0 : State} {a1 : Nat} {a2 : Nat} {a3 : Nat} {a4 : Nat} {a5 : Nat} {a6 : Bytes} (h0 : Kept q n a0) :
    Kept q n (takeLane a0 a1 a2 a3 a4 a5 a6) := by
  unfold takeLane
  repeat' first
    | with_reducible assumption | with_reducible refine setBook_kept ?_ | with_reducible refine freshArea_kept ?_
    | with_reducible refine writeEngine_kept ?_ | with_reducible refine modMem_kept ?_
    | with_reducible refine kept_modInst ?_ _ ?_ | with_reducible refine setSlot_kept ?_ | intro _
    | with_reducible refine kept_lit ?_ rfl rfl rfl | with_reducible refine instOk_lit ?_

theorem dispatchLine_kept {a0 : State} {a1 : Nat} {a2 : Nat} {a3 : Nat} {a4 : Bytes} (h0 : Kept q n a0) : Kept q n
    (dispatchLine a0 a1 a2 a3 a4) := by
  unfold dispatchLine
  repeat' first
    | with_reducible assumption | with_reducible refine refill_kept ?_ | with_reducible refine kept_modInst ?_ _ ?_
    | with_reducible refine hubLine_kept ?_ | with_reducible refine takeLane_kept ?_ | with_reducible refine kept_ite ?_ ?_
    | intro _ | split | with_reducible refine kept_lit ?_ rfl rfl rfl | with_reducible refine instOk_lit ?_

theorem unbacked_kept {a0 : State} {a1 : Nat} {a2 : Nat} {a3 : Nat} {a4 : Bool} {a5 : Bool} {a6 : Nat} (h0 : Kept q n a0) :
    Kept q n (unbacked a0 a1 a2 a3 a4 a5 a6) := by
  unfold unbacked
  repeat' first
    | with_reducible assumption | with_reducible refine answerPoison_kept ?_ | with_reducible refine capture_kept ?_
    | with_reducible refine kept_ite ?_ ?_

theorem droppedWrite_kept {a0 : State} {a1 : Nat} {a2 : Nat} {a3 : Nat} {a4 : InlineDrop} {a5 : Nat} (h0 : Kept q n a0) :
    Kept q n (droppedWrite a0 a1 a2 a3 a4 a5) := by
  unfold droppedWrite
  repeat' first
    | with_reducible assumption | with_reducible refine unbacked_kept ?_ | with_reducible refine capture_kept ?_
    | with_reducible refine bump_kept ?_ | with_reducible refine kept_ite ?_ ?_

theorem endLine_kept {a0 : State} {a1 : Nat} {a2 : Nat} {a3 : LaneOp} {a4 : Nat} {a5 : Bytes} (h0 : Kept q n a0) : Kept q n
    (endLine a0 a1 a2 a3 a4 a5) := by
  unfold endLine
  repeat' first
    | with_reducible assumption | with_reducible refine countStatus_kept ?_ | with_reducible refine noteLate_kept ?_
    | with_reducible refine freeShelf_kept ?_ | with_reducible refine writeLine_kept ?_ | with_reducible refine kept_ite ?_ ?_

theorem endLines_kept {a0 : State} {a1 : Nat} {a2 : Nat} (h0 : Kept q n a0) : Kept q n (endLines a0 a1 a2) := by
  unfold endLines
  repeat' first
    | with_reducible assumption | with_reducible refine kept_each _ ?_ ?_ | with_reducible refine endLine_kept ?_ | intro _
    | split

theorem idleExpiry_kept {a0 : State} {a1 : Nat} {a2 : Nat} (h0 : Kept q n a0) : Kept q n (idleExpiry a0 a1 a2) := by
  unfold idleExpiry
  repeat' first
    | with_reducible assumption | with_reducible refine kept_modInst ?_ _ ?_ | with_reducible refine answerHeld_kept ?_
    | with_reducible refine setSlot_kept ?_ | with_reducible refine kept_ite ?_ ?_ | intro _ | split
    | with_reducible refine kept_lit ?_ rfl rfl rfl

theorem lineResult_kept {a0 : State} {a1 : Nat} {a2 : Nat} (h0 : Kept q n a0) : Kept q n (lineResult a0 a1 a2) := by
  unfold lineResult
  repeat' first
    | with_reducible assumption | with_reducible refine endLine_kept ?_ | with_reducible refine kept_ite ?_ ?_ | split

theorem lookupLine_kept {a0 : State} {a1 : Nat} {a2 : Nat} (h0 : Kept q n a0) : Kept q n (lookupLine a0 a1 a2) := by
  unfold lookupLine
  repeat' first
    | with_reducible assumption | with_reducible refine fixLine_kept ?_ | with_reducible refine raiseRoute_kept ?_
    | with_reducible refine lineKeys_kept ?_ | with_reducible refine bump_kept ?_ | with_reducible refine draw_kept ?_
    | with_reducible refine freshArea_kept ?_ | with_reducible refine modMem_kept ?_ | with_reducible refine setLaneOp_kept ?_
    | with_reducible refine kept_ite ?_ ?_ | with_reducible refine kept_ite_snd ?_ ?_ | split

theorem requestWrite_kept {a0 : State} {a1 : Nat} {a2 : Nat} {a3 : Nat} {a4 : Nat} {a5 : Bytes} (h0 : Kept q n a0) : Kept q n
    (requestWrite a0 a1 a2 a3 a4 a5) := by
  unfold requestWrite
  repeat' first
    | with_reducible assumption | with_reducible refine unbacked_kept ?_ | with_reducible refine bump_kept ?_
    | with_reducible refine kept_modInst ?_ _ ?_ | with_reducible refine writeWords_kept ?_
    | with_reducible refine setSlot_kept ?_ | with_reducible refine hubLine_kept ?_ | with_reducible refine dispatchLine_kept ?_
    | with_reducible refine kept_ite ?_ ?_ | intro _

theorem resultRead_kept {a0 : State} {a1 : Nat} {a2 : Nat} {a3 : Nat} {a4 : Nat} (h0 : Kept q n a0) : Kept q n (resultRead a0
    a1 a2 a3 a4) := by
  unfold resultRead
  repeat' first
    | with_reducible assumption | with_reducible refine unbacked_kept ?_ | with_reducible refine kept_modInst ?_ _ ?_
    | with_reducible refine setSlot_kept ?_ | with_reducible refine answerLine_kept ?_
    | with_reducible refine answerRead_kept ?_ | with_reducible refine kept_ite ?_ ?_ | intro _ | split
    | with_reducible refine kept_lit ?_ rfl rfl rfl

theorem answerIdle_kept {a0 : State} {a1 : Nat} (h0 : Kept q n a0) : Kept q n (answerIdle a0 a1) := by
  unfold answerIdle
  repeat' first
    | with_reducible assumption | with_reducible refine kept_each _ ?_ ?_ | with_reducible refine kept_modInst ?_ _ ?_
    | with_reducible refine answerHeld_kept ?_ | with_reducible refine setSlot_kept ?_ | with_reducible refine kept_ite ?_ ?_
    | intro _

theorem reformRing_kept {a0 : Inst} (h0 : InstOk a0) : InstOk (reformRing a0) := by
  exact ⟨h0.1, rfl⟩

theorem cleanInst_kept {a0 : Inst} (h0 : InstOk a0) : InstOk (cleanInst a0) := by
  unfold cleanInst
  repeat' first
    | with_reducible assumption | with_reducible refine reformRing_kept ?_ | with_reducible refine instOk_lit ?_

theorem squashAll_kept {a0 : State} {a1 : Nat} (h0 : Kept q n a0) : Kept q n (squashAll a0 a1) := by
  unfold squashAll
  repeat' first
    | with_reducible assumption | with_reducible refine kept_each _ ?_ ?_ | with_reducible refine endCovered_kept ?_
    | with_reducible refine endLines_kept ?_ | with_reducible refine endAdmitted_kept ?_ | intro _

theorem drainOver_kept {a0 : State} {a1 : Nat} (h0 : Kept q n a0) : Kept q n (drainOver a0 a1) := by
  unfold drainOver
  repeat' first
    | with_reducible assumption | with_reducible refine squashAll_kept ?_ | with_reducible refine kept_modInst ?_ _ ?_
    | with_reducible refine kept_ite ?_ ?_ | intro _ | split | with_reducible refine kept_lit ?_ rfl rfl rfl
    | with_reducible refine instOk_lit ?_

theorem freezeDone_kept {a0 : State} {a1 : Nat} (h0 : Kept q n a0) : Kept q n (freezeDone a0 a1) := by
  unfold freezeDone
  repeat' first
    | with_reducible assumption | with_reducible refine sendMsix_kept ?_ | with_reducible refine kept_modInst ?_ _ ?_
    | with_reducible refine kept_ite ?_ ?_ | intro _ | with_reducible refine instOk_lit_st ?_ (by decide)

theorem reportReset_kept {a0 : State} {a1 : Nat} (h0 : Kept q n a0) : Kept q n (reportReset a0 a1) := by
  unfold reportReset
  repeat' first
    | with_reducible assumption | with_reducible refine kept_modInst ?_ _ ?_ | with_reducible refine cleanInst_kept ?_
    | with_reducible refine sendMsix_kept ?_ | with_reducible refine bump_kept ?_ | with_reducible refine kept_ite ?_ ?_
    | intro _ | split | with_reducible refine kept_lit ?_ rfl rfl rfl | with_reducible refine instOk_lit_st ?_ (by decide)

theorem requestReset_kept {a0 : State} {a1 : Nat} {a2 : Bool} (h0 : Kept q n a0) : Kept q n (requestReset a0 a1 a2) := by
  unfold requestReset
  repeat' first
    | with_reducible assumption | with_reducible refine squashAll_kept ?_ | with_reducible refine kept_modInst ?_ _ ?_
    | with_reducible refine answerIdle_kept ?_ | with_reducible refine kept_ite ?_ ?_ | intro _ | split
    | with_reducible refine instOk_lit ?_ | with_reducible refine instOk_lit_st ?_ (by decide)

theorem squashLd_kept {a0 : State} {a1 : Nat} (h0 : Kept q n a0) : Kept q n (squashLd a0 a1) := by
  unfold squashLd
  repeat' first
    | with_reducible assumption | with_reducible refine kept_each _ ?_ ?_ | with_reducible refine requestReset_kept ?_
    | with_reducible refine kept_ite ?_ ?_ | intro _

theorem writeFreeze_kept {a0 : State} {a1 : Nat} {a2 : Nat} (h0 : Kept q n a0) : Kept q n (writeFreeze a0 a1 a2) := by
  unfold writeFreeze
  repeat' first
    | with_reducible assumption | with_reducible refine kept_modInst ?_ _ ?_ | with_reducible refine kept_ite ?_ ?_ | intro _
    | with_reducible refine instOk_lit ?_ | with_reducible refine instOk_lit_st ?_ (by decide)

theorem areaWrite_kept {a0 : State} {a1 : Instr} {a2 : LdNo} {a3 : InstNo} {a4 : Nat} {a5 : State → State} (h0 : Kept q n a0)
    (h5 : ∀ z0, Kept q n z0 → Kept q n (a5 z0)) : Kept q n (areaWrite a0 a1 a2 a3 a4 a5) := by
  unfold areaWrite
  repeat' first
    | with_reducible assumption | with_reducible refine ldAccess_kept ?_ ?_

theorem clearCaps_kept {a0 : Inst} {a1 : Nat} (h0 : InstOk a0) : InstOk (clearCaps a0 a1) := by
  unfold clearCaps
  repeat' first
    | with_reducible assumption | with_reducible refine instOk_lit ?_

theorem ringDrop_kept {a0 : State} {a1 : Nat} {a2 : Nat} {a3 : Nat} {a4 : Nat} {a5 : Nat} {a6 : Bool} (h0 : Kept q n a0) :
    Kept q n (ringDrop a0 a1 a2 a3 a4 a5 a6) := by
  unfold ringDrop
  repeat' first
    | with_reducible assumption | with_reducible refine capture_kept ?_ | with_reducible refine bump_kept ?_

theorem doorbellAt_kept {a0 : State} {a1 : Nat} {a2 : Nat} {a3 : Nat} {a4 : Nat} {a5 : Bool} {a6 : Bool} (h0 : Kept q n a0) :
    Kept q n (doorbellAt a0 a1 a2 a3 a4 a5 a6) := by
  unfold doorbellAt
  repeat' first
    | with_reducible assumption | with_reducible refine ringDrop_kept ?_ | with_reducible refine kept_modInst ?_ _ ?_
    | with_reducible refine kept_ite ?_ ?_ | intro _ | with_reducible refine instOk_lit ?_

theorem entryWrite_kept {a0 : State} {a1 : Nat} {a2 : Nat} {a3 : Nat} {a4 : Bytes} {a5 : Bool} {a6 : Bool} (h0 : Kept q n a0)
    : Kept q n (entryWrite a0 a1 a2 a3 a4 a5 a6) := by
  unfold entryWrite
  repeat' first
    | with_reducible assumption | with_reducible refine unbacked_kept ?_ | with_reducible refine ringDrop_kept ?_
    | with_reducible refine kept_modInst ?_ _ ?_ | with_reducible refine noteWriter_kept ?_
    | with_reducible refine writeWords_kept ?_ | with_reducible refine kept_ite ?_ ?_ | intro _
    | with_reducible refine instOk_lit ?_

theorem lineRead_kept {a0 : State} {a1 : Nat} {a2 : Nat} {a3 : Nat} {a4 : Nat} (h0 : Kept q n a0) : Kept q n (lineRead a0 a1
    a2 a3 a4) := by
  unfold lineRead
  repeat' first
    | with_reducible assumption | with_reducible refine answerRead_kept ?_ | with_reducible refine resultRead_kept ?_
    | with_reducible refine answerLine_kept ?_ | with_reducible refine kept_ite ?_ ?_

theorem memInvAt_kept {a0 : State} {a1 : Instr} {a2 : Nat} {a3 : Nat} {a4 : Nat} (h0 : Kept q n a0) : Kept q n (memInvAt a0
    a1 a2 a3 a4) := by
  unfold memInvAt
  repeat' first
    | with_reducible assumption | with_reducible refine stall_kept ?_ | with_reducible refine violation_kept ?_
    | with_reducible refine answerDone_kept ?_ | with_reducible refine kept_ite ?_ ?_

theorem regWrite_kept {a0 : State} {a1 : Nat} {a2 : Nat} {a3 : Nat} (h0 : Kept q n a0) : Kept q n (regWrite a0 a1 a2 a3) := by
  unfold regWrite
  repeat' first
    | with_reducible assumption | with_reducible refine kept_modInst ?_ _ ?_ | with_reducible refine requestReset_kept ?_
    | with_reducible refine clearCaps_kept ?_ | with_reducible refine kept_ite ?_ ?_ | intro _ | split
    | with_reducible refine instOk_lit ?_

theorem pageWrite_kept {a0 : State} {a1 : Nat} {a2 : Nat} {a3 : Nat} {a4 : Nat} {a5 : Bool} {a6 : Bool} (h0 : Kept q n a0) :
    Kept q n (pageWrite a0 a1 a2 a3 a4 a5 a6) := by
  unfold pageWrite
  repeat' first
    | with_reducible assumption | with_reducible refine doorbellAt_kept ?_ | with_reducible refine capture_kept ?_
    | with_reducible refine regWrite_kept ?_ | with_reducible refine kept_ite ?_ ?_ | split

theorem writeLineWords_kept {a0 : State} {a1 : Nat} {a2 : Nat} (h0 : Kept q n a0) : Kept q n (writeLineWords a0 a1 a2) := by
  unfold writeLineWords
  repeat' first
    | with_reducible assumption | with_reducible refine kept_each _ ?_ ?_ | with_reducible refine noteWriter_kept ?_
    | with_reducible refine writeWords_kept ?_ | with_reducible refine kept_ite ?_ ?_ | intro _

theorem writeEnabled_wf {m : List Host.Cell} {a en : Nat} {data : Bytes} (h : Memory.wf m = true) :
    Memory.wf (writeEnabled m a en data) = true := by
  unfold writeEnabled
  generalize upTo 64 = ks
  induction ks generalizing m with
  | nil => exact h
  | cons k ks ih =>
    simp only [List.foldl_cons]
    refine ih ?_
    split
    · exact Memory.wf_write _ _ h
    · exact h

theorem stagingWrite_kept {a0 : State} {a1 : Nat} {a2 : Nat} {a3 : Nat} {a4 : Bytes} {a5 : Nat} {a6 : Bool} (h0 : Kept q n
    a0) : Kept q n (stagingWrite a0 a1 a2 a3 a4 a5 a6) := by
  unfold stagingWrite
  refine kept_ite h0 (kept_ite (unbacked_kept h0) (kept_ite (ringDrop_kept h0)
    (kept_modInst (writeLineWords_kept h0) _ (fun x hx => ⟨hx.1, ?_⟩))))
  exact writeEnabled_wf hx.2

theorem unbackedAt_kept {a0 : State} {a1 : Nat} {a2 : Nat} {a3 : Nat} {a4 : Bool} {a5 : Bool} {a6 : Nat} (h0 : Kept q n a0) :
    Kept q n (unbackedAt a0 a1 a2 a3 a4 a5 a6) := by
  unfold unbackedAt
  repeat' first
    | with_reducible assumption | with_reducible refine unbacked_kept ?_ | with_reducible refine lineRead_kept ?_
    | with_reducible refine kept_ite ?_ ?_

theorem endBayFrame_kept {a0 : State} {a1 : Nat} {a2 : Nat} {a3 : Nat} (h0 : Kept q n a0) : Kept q n (endBayFrame a0 a1 a2
    a3) := by
  unfold endBayFrame
  repeat' first
    | with_reducible assumption | with_reducible refine kept_modBay ?_ _ ?_ | intro _ | with_reducible refine bayOk_lit ?_

theorem bayFrame_kept {a0 : State} {a1 : Nat} {a2 : Nat} (h0 : Kept q n a0) : Kept q n (bayFrame a0 a1 a2) := by
  unfold bayFrame
  repeat' first
    | with_reducible assumption | with_reducible refine endBayFrame_kept ?_ | with_reducible refine kept_ite ?_ ?_

theorem enterTest_kept {a0 : State} {a1 : Nat} {a2 : Nat} (h0 : Kept q n a0) : Kept q n (enterTest a0 a1 a2) := by
  unfold enterTest
  repeat' first
    | with_reducible assumption | with_reducible refine wipeBnc_kept ?_ | with_reducible refine clearMem_kept ?_
    | with_reducible refine freshArea_kept ?_ | with_reducible refine modMem_kept ?_ | split

theorem beginTest_kept {a0 : State} {a1 : Nat} {a2 : Nat} {a3 : Bool} (h0 : Kept q n a0) : Kept q n (beginTest a0 a1 a2 a3)
    := by
  unfold beginTest
  repeat' first
    | with_reducible assumption | with_reducible refine kept_modBay ?_ _ ?_ | with_reducible refine enterTest_kept ?_
    | with_reducible refine kept_ite ?_ ?_ | intro _ | with_reducible refine bayOk_lit ?_

theorem bookTests_kept {a0 : State} {a1 : Nat} (h0 : Kept q n a0) : Kept q n (bookTests a0 a1) := by
  unfold bookTests
  repeat' first
    | with_reducible assumption | with_reducible refine kept_modBay ?_ _ ?_ | with_reducible refine kept_each _ ?_ ?_
    | with_reducible refine setBook_kept ?_ | with_reducible refine kept_ite ?_ ?_ | intro _ | split
    | with_reducible refine bayOk_lit ?_

theorem bookedTest_kept {a0 : State} {a1 : Nat} {a2 : Nat} (h0 : Kept q n a0) : Kept q n (bookedTest a0 a1 a2) := by
  unfold bookedTest
  repeat' first
    | with_reducible assumption | with_reducible refine kept_modBay ?_ _ ?_ | with_reducible refine beginTest_kept ?_
    | with_reducible refine kept_ite ?_ ?_ | intro _ | split | with_reducible refine bayOk_lit ?_

theorem closeEntries_kept {a0 : State} {a1 : Nat} {a2 : Nat} (h0 : Kept q n a0) : Kept q n (closeEntries a0 a1 a2) := by
  unfold closeEntries
  repeat' first
    | with_reducible assumption | with_reducible refine kept_each _ ?_ ?_ | with_reducible refine setBook_kept ?_
    | with_reducible refine kept_ite ?_ ?_ | intro _

theorem closeBay_kept {a0 : State} {a1 : Nat} {a2 : BayOut} (h0 : Kept q n a0) : Kept q n (closeBay a0 a1 a2) := by
  unfold closeBay
  repeat' first
    | with_reducible assumption | with_reducible refine kept_modBay ?_ _ ?_ | with_reducible refine closeEntries_kept ?_
    | with_reducible refine kept_ite ?_ ?_ | intro _ | with_reducible refine bayOk_lit_st (by decide)

theorem deviceFrame_kept {a0 : State} {a1 : Nat} {a2 : Nat} (h0 : Kept q n a0) : Kept q n (deviceFrame a0 a1 a2) := by
  unfold deviceFrame
  repeat' first
    | with_reducible assumption | with_reducible refine endBayFrame_kept ?_ | with_reducible refine kept_modBay ?_ _ ?_
    | with_reducible refine kept_ite ?_ ?_ | intro _ | with_reducible refine bayOk_lit ?_

theorem leaveTest_kept {a0 : State} {a1 : Nat} {a2 : Nat} (h0 : Kept q n a0) : Kept q n (leaveTest a0 a1 a2) := by
  unfold leaveTest
  repeat' first
    | with_reducible assumption | with_reducible refine modMem_kept ?_

theorem endTest_kept {a0 : State} {a1 : Nat} {a2 : Nat} {a3 : Bool} (h0 : Kept q n a0) : Kept q n (endTest a0 a1 a2 a3) := by
  unfold endTest
  repeat' first
    | with_reducible assumption | with_reducible refine kept_modBay ?_ _ ?_ | with_reducible refine leaveTest_kept ?_
    | with_reducible refine record_kept ?_ | with_reducible refine kept_ite ?_ ?_ | intro _ | split
    | with_reducible refine bayOk_lit ?_

theorem testMemories_kept {a0 : State} {a1 : Nat} (h0 : Kept q n a0) : Kept q n (testMemories a0 a1) := by
  unfold testMemories
  repeat' first
    | with_reducible assumption | with_reducible refine kept_each _ ?_ ?_ | with_reducible refine enterTest_kept ?_
    | with_reducible refine kept_ite ?_ ?_ | intro _

theorem leaveBay_kept {a0 : State} {a1 : Nat} (h0 : Kept q n a0) : Kept q n (leaveBay a0 a1) := by
  unfold leaveBay
  repeat' first
    | with_reducible assumption | with_reducible refine testMemories_kept ?_ | with_reducible refine kept_modBay ?_ _ ?_
    | with_reducible refine requestSeed_kept ?_ | with_reducible refine kept_ite ?_ ?_ | intro _
    | with_reducible refine bayOk_lit_st (by decide)

theorem reactiveTest_kept {a0 : State} {a1 : Nat} {a2 : Nat} {a3 : Bool} (h0 : Kept q n a0) : Kept q n (reactiveTest a0 a1 a2
    a3) := by
  unfold reactiveTest
  repeat' first
    | with_reducible assumption | with_reducible refine beginTest_kept ?_ | with_reducible refine kept_ite ?_ ?_

theorem readyBay_kept {a0 : State} {a1 : Nat} (h0 : Kept q n a0) : Kept q n (readyBay a0 a1) := by
  unfold readyBay
  repeat' first
    | with_reducible assumption | with_reducible refine requestSeed_kept ?_ | with_reducible refine kept_modBay ?_ _ ?_
    | intro _ | with_reducible refine bayOk_lit ?_

theorem returnBay_kept {a0 : State} {a1 : Nat} (h0 : Kept q n a0) : Kept q n (returnBay a0 a1) := by
  unfold returnBay
  repeat' first
    | with_reducible assumption | exact bayOk_default | with_reducible refine kept_modBay ?_ _ ?_
    | with_reducible refine kept_each _ ?_ ?_ | with_reducible refine leaveTest_kept ?_ | with_reducible refine kept_ite ?_ ?_
    | intro _ | with_reducible refine kept_lit ?_ rfl rfl rfl

theorem roundsEnd_kept {a0 : State} (h0 : Kept q n a0) : Kept q n (roundsEnd a0) := by
  unfold roundsEnd
  repeat' first
    | with_reducible assumption | with_reducible refine kept_each _ ?_ ?_ | with_reducible refine admitRound_kept ?_ | intro _

end Sys2Proof.Machine
end

