-- ==== Sys2Proof/Laws/KeptRandom.lean ====
section
/-! SUPPORT. What no command breaks (`Kept`): the random island, life-cycle fuses, responses, monitors and the backup domain. -/

namespace Sys2Proof.Machine

open Sys2Proof

variable {q : List Instr} {n : Nat}

theorem snapshotKeys_kept {a0 : State} (h0 : Kept q n a0) : Kept q n (snapshotKeys a0) := by
  unfold snapshotKeys
  repeat' first
    | with_reducible assumption | with_reducible refine kept_each _ ?_ ?_ | with_reducible refine raiseFabric_kept ?_ | intro _
    | with_reducible refine kept_lit ?_ rfl rfl rfl

theorem newKeyLog_kept {a0 : State} (h0 : Kept q n a0) : Kept q n (newKeyLog a0) := by
  unfold newKeyLog
  repeat' first
    | with_reducible assumption | with_reducible refine snapshotKeys_kept ?_ | with_reducible refine kept_lit ?_ rfl rfl rfl

theorem snapshotJournal_kept {a0 : State} (h0 : Kept q n a0) : Kept q n (snapshotJournal a0) := by
  unfold snapshotJournal
  repeat' first
    | with_reducible assumption | with_reducible refine bumpBy_kept ?_ | split | with_reducible refine kept_lit ?_ rfl rfl rfl

theorem freshLogs_kept {a0 : State} (h0 : Kept q n a0) : Kept q n (freshLogs a0) := by
  unfold freshLogs
  repeat' first
    | with_reducible assumption | with_reducible refine newKeyLog_kept ?_ | with_reducible refine snapshotJournal_kept ?_
    | with_reducible refine kept_ite ?_ ?_

theorem seedingCheck_kept {a0 : State} (h0 : Kept q n a0) : Kept q n (seedingCheck a0) := by
  unfold seedingCheck
  repeat' first
    | with_reducible assumption | with_reducible refine kept_ite ?_ ?_ | with_reducible refine kept_lit ?_ rfl rfl rfl

theorem makeRoot_kept {a0 : State} {a1 : Bytes} (h0 : Kept q n a0) : Kept q n (makeRoot a0 a1) := by
  unfold makeRoot
  repeat' first
    | with_reducible assumption | with_reducible refine noteVault_kept ?_ | with_reducible refine setIdentity_kept ?_
    | with_reducible refine kept_lit ?_ rfl rfl rfl

theorem serveSeed_kept {a0 : State} {a1 : Consumer} {a2 : Bytes} (h0 : Kept q n a0) : Kept q n (serveSeed a0 a1 a2) := by
  unfold serveSeed
  repeat' first
    | with_reducible assumption | with_reducible refine makeRoot_kept ?_ | with_reducible refine modDrbg_kept ?_
    | with_reducible refine kReply_kept ?_ | with_reducible refine modJoint_kept ?_ | split
    | with_reducible refine kept_lit ?_ rfl rfl rfl

theorem deliverBlock_kept {a0 : State} {a1 : Bytes} (h0 : Kept q n a0) : Kept q n (deliverBlock a0 a1) := by
  unfold deliverBlock
  repeat' first
    | with_reducible assumption | with_reducible refine serveSeed_kept ?_ | with_reducible refine kept_ite ?_ ?_ | split
    | with_reducible refine kept_lit ?_ rfl rfl rfl

theorem blockDone_kept {a0 : State} (h0 : Kept q n a0) : Kept q n (blockDone a0) := by
  unfold blockDone
  repeat' first
    | with_reducible assumption | with_reducible refine seedingCheck_kept ?_ | with_reducible refine deliverBlock_kept ?_
    | with_reducible refine kept_ite ?_ ?_ | split | with_reducible refine kept_lit ?_ rfl rfl rfl

theorem callDone_kept {a0 : State} {a1 : Nat} (h0 : Kept q n a0) : Kept q n (callDone a0 a1) := by
  unfold callDone
  repeat' first
    | with_reducible assumption | with_reducible refine applyReseed_kept ?_ | with_reducible refine refillReserve_kept ?_
    | with_reducible refine seedingCheck_kept ?_ | with_reducible refine modDrbg_kept ?_ | with_reducible refine kept_ite ?_ ?_

theorem setMask_kept {a0 : State} {a1 : Bool} {a2 : Masks} (h0 : Kept q n a0) : Kept q n (setMask a0 a1 a2) := by
  unfold setMask
  repeat' first
    | with_reducible assumption | with_reducible refine kept_ite ?_ ?_ | with_reducible refine kept_lit ?_ rfl rfl rfl

theorem chainMask_kept {a0 : State} {a1 : Bool} (h0 : Kept q n a0) : Kept q n (chainMask a0 a1) := by
  unfold chainMask
  repeat' first
    | with_reducible assumption | with_reducible refine setMask_kept ?_ | with_reducible refine record_kept ?_
    | with_reducible refine kept_ite ?_ ?_ | split | with_reducible refine kept_lit ?_ rfl rfl rfl

theorem randomAlarm_kept {a0 : State} {a1 : Nat} {a2 : Nat} (h0 : Kept q n a0) : Kept q n (randomAlarm a0 a1 a2) := by
  unfold randomAlarm
  repeat' first
    | with_reducible assumption | with_reducible refine recordExempt_kept ?_ | with_reducible refine kept_ite ?_ ?_
    | with_reducible refine kept_lit ?_ rfl rfl rfl

theorem failuresAlarm_kept {a0 : State} (h0 : Kept q n a0) : Kept q n (failuresAlarm a0) := by
  unfold failuresAlarm
  repeat' first
    | with_reducible assumption | with_reducible refine randomAlarm_kept ?_ | with_reducible refine kept_ite ?_ ?_

theorem stopConditioner_kept {a0 : State} (h0 : Kept q n a0) : Kept q n (stopConditioner a0) := by
  unfold stopConditioner
  repeat' first
    | with_reducible assumption | with_reducible refine chainMask_kept ?_ | with_reducible refine kept_ite ?_ ?_
    | with_reducible refine kept_lit ?_ rfl rfl rfl

theorem checkConditioner_kept {a0 : State} (h0 : Kept q n a0) : Kept q n (checkConditioner a0) := by
  unfold checkConditioner
  repeat' first
    | with_reducible assumption | with_reducible refine stopConditioner_kept ?_ | with_reducible refine kept_ite ?_ ?_

theorem failChannel_kept {a0 : State} {a1 : Nat} {a2 : Nat} (h0 : Kept q n a0) : Kept q n (failChannel a0 a1 a2) := by
  unfold failChannel
  repeat' first
    | with_reducible assumption | with_reducible refine modChan_kept ?_ | with_reducible refine record_kept ?_
    | with_reducible refine failuresAlarm_kept ?_ | with_reducible refine checkConditioner_kept ?_ | split
    | with_reducible refine kept_lit ?_ rfl rfl rfl

theorem channelFails_kept {a0 : State} {a1 : Nat} {a2 : Nat} (h0 : Kept q n a0) : Kept q n (channelFails a0 a1 a2) := by
  unfold channelFails
  repeat' first
    | with_reducible assumption | with_reducible refine failChannel_kept ?_ | with_reducible refine kept_ite ?_ ?_

theorem channelRetests_kept {a0 : State} {a1 : Nat} (h0 : Kept q n a0) : Kept q n (channelRetests a0 a1) := by
  unfold channelRetests
  repeat' first
    | with_reducible assumption | with_reducible refine modChan_kept ?_ | with_reducible refine kept_ite ?_ ?_

theorem katResult_kept {a0 : State} {a1 : Nat} {a2 : Bool} (h0 : Kept q n a0) : Kept q n (katResult a0 a1 a2) := by
  unfold katResult
  repeat' first
    | with_reducible assumption | with_reducible refine kept_lit ?_ rfl rfl rfl

theorem condKat_kept {a0 : State} {a1 : Bool} (h0 : Kept q n a0) : Kept q n (condKat a0 a1) := by
  unfold condKat
  repeat' first
    | with_reducible assumption | with_reducible refine katResult_kept ?_ | with_reducible refine randomAlarm_kept ?_
    | with_reducible refine stopConditioner_kept ?_ | with_reducible refine kept_ite ?_ ?_
    | with_reducible refine kept_lit ?_ rfl rfl rfl

theorem drbgFailed_kept {a0 : State} {a1 : Nat} (h0 : Kept q n a0) : Kept q n (drbgFailed a0 a1) := by
  unfold drbgFailed
  repeat' first
    | with_reducible assumption | with_reducible refine kept_modBay ?_ _ ?_ | with_reducible refine randomAlarm_kept ?_
    | intro _ | with_reducible refine kept_lit ?_ rfl rfl rfl | with_reducible refine bayOk_lit_st (by decide)

theorem drbgKat_kept {a0 : State} {a1 : Nat} {a2 : Bool} (h0 : Kept q n a0) : Kept q n (drbgKat a0 a1 a2) := by
  unfold drbgKat
  repeat' first
    | with_reducible assumption | with_reducible refine katResult_kept ?_ | with_reducible refine readyBay_kept ?_
    | with_reducible refine drbgFailed_kept ?_ | with_reducible refine kept_ite ?_ ?_

theorem enableRandom_kept {a0 : State} (h0 : Kept q n a0) : Kept q n (enableRandom a0) := by
  unfold enableRandom
  repeat' first
    | with_reducible assumption | with_reducible refine requestSeed_kept ?_ | with_reducible refine kept_each _ ?_ ?_
    | with_reducible refine kept_ite ?_ ?_ | intro _ | with_reducible refine kept_lit ?_ rfl rfl rfl

theorem passEnds_kept {a0 : State} {a1 : Bool} (h0 : Kept q n a0) : Kept q n (passEnds a0 a1) := by
  unfold passEnds
  repeat' first
    | with_reducible assumption | with_reducible refine kept_each _ ?_ ?_ | with_reducible refine raiseFabric_kept ?_
    | with_reducible refine setMask_kept ?_ | with_reducible refine kept_ite ?_ ?_ | intro _

theorem passStarts_kept {a0 : State} {a1 : Bool} (h0 : Kept q n a0) : Kept q n (passStarts a0 a1) := by
  unfold passStarts
  repeat' first
    | with_reducible assumption | with_reducible refine freeBytes_kept ?_ | with_reducible refine setMask_kept ?_
    | with_reducible refine chainMask_kept ?_ | with_reducible refine requestSeed_kept ?_ | with_reducible refine kept_ite ?_ ?_
    | with_reducible refine kept_lit ?_ rfl rfl rfl

theorem reinstantiate_kept {a0 : State} (h0 : Kept q n a0) : Kept q n (reinstantiate a0) := by
  unfold reinstantiate
  repeat' first
    | with_reducible assumption | with_reducible refine kept_each _ ?_ ?_ | with_reducible refine kept_modBay ?_ _ ?_
    | with_reducible refine requestSeed_kept ?_ | with_reducible refine kept_ite ?_ ?_ | intro _
    | with_reducible refine kept_lit ?_ rfl rfl rfl | with_reducible refine bayOk_lit ?_

theorem restartConditioner_kept {a0 : State} (h0 : Kept q n a0) : Kept q n (restartConditioner a0) := by
  unfold restartConditioner
  repeat' first
    | with_reducible assumption | with_reducible refine kept_ite ?_ ?_ | with_reducible refine kept_lit ?_ rfl rfl rfl

theorem startupTestEnds_kept {a0 : State} {a1 : Nat} {a2 : Bytes} (h0 : Kept q n a0) : Kept q n (startupTestEnds a0 a1 a2) := by
  unfold startupTestEnds
  repeat' first
    | with_reducible assumption | with_reducible refine failChannel_kept ?_ | with_reducible refine restartConditioner_kept ?_
    | with_reducible refine modChan_kept ?_ | with_reducible refine kept_ite ?_ ?_

theorem stopHeld_kept {a0 : State} (h0 : Kept q n a0) : Kept q n (stopHeld a0) := by
  unfold stopHeld
  repeat' first
    | with_reducible assumption | with_reducible refine randomAlarm_kept ?_ | with_reducible refine kept_ite ?_ ?_ | split

theorem windowEnds_kept {a0 : State} {a1 : Nat} {a2 : Bytes} (h0 : Kept q n a0) : Kept q n (windowEnds a0 a1 a2) := by
  unfold windowEnds
  repeat' first
    | with_reducible assumption | with_reducible refine modChan_kept ?_ | with_reducible refine failChannel_kept ?_
    | with_reducible refine kept_ite ?_ ?_ | with_reducible refine kept_lit ?_ rfl rfl rfl

theorem modRow_kept {a0 : State} {a1 : Nat} {a2 : FuseRow → FuseRow} (h0 : Kept q n a0) : Kept q n (modRow a0 a1 a2) := by
  unfold modRow
  repeat' first
    | with_reducible assumption | with_reducible refine kept_lit ?_ rfl rfl rfl

theorem burnCut_kept {a0 : State} {a1 : Nat} {a2 : List Nat} (h0 : Kept q n a0) : Kept q n (burnCut a0 a1 a2) := by
  unfold burnCut
  repeat' first
    | with_reducible assumption | with_reducible refine modRow_kept ?_ | with_reducible refine kept_lit ?_ rfl rfl rfl

theorem beginTransition_kept {a0 : State} {a1 : Nat} (h0 : Kept q n a0) : Kept q n (beginTransition a0 a1) := by
  unfold beginTransition
  repeat' first
    | with_reducible assumption | with_reducible refine burnCut_kept ?_ | split | with_reducible refine kept_lit ?_ rfl rfl rfl

theorem burnSequence_kept {a0 : State} {a1 : Nat} {a2 : List (Nat × Nat)} (h0 : Kept q n a0) : Kept q n (burnSequence a0 a1
    a2) := by
  unfold burnSequence
  repeat' first
    | with_reducible assumption | with_reducible refine modRow_kept ?_ | with_reducible refine kept_each _ ?_ ?_
    | with_reducible refine record_kept ?_ | intro _ | with_reducible refine kept_lit ?_ rfl rfl rfl

theorem wholeMemories_kept {a0 : State} {a1 : List Nat} (h0 : Kept q n a0) : Kept q n (wholeMemories a0 a1) := by
  unfold wholeMemories
  repeat' first
    | with_reducible assumption | with_reducible refine kept_lit ?_ rfl rfl rfl

theorem clearCaches_kept {a0 : State} (h0 : Kept q n a0) : Kept q n (clearCaches a0) := by
  unfold clearCaches
  repeat' first
    | with_reducible assumption | with_reducible refine wholeMemories_kept ?_ | with_reducible refine kept_lit ?_ rfl rfl rfl

theorem endSessions_kept {a0 : State} {a1 : Nat → Session → Bool} (h0 : Kept q n a0) : Kept q n (endSessions a0 a1) := by
  unfold endSessions
  repeat' first
    | with_reducible assumption | with_reducible refine kept_lit ?_ rfl rfl rfl

theorem clearSessions_kept {a0 : State} (h0 : Kept q n a0) : Kept q n (clearSessions a0) := by
  unfold clearSessions
  repeat' first
    | with_reducible assumption | with_reducible refine kept_each _ ?_ ?_ | with_reducible refine endSessions_kept ?_
    | with_reducible refine modHead_kept ?_ | intro _

theorem wipeOperands_kept {a0 : State} (h0 : Kept q n a0) : Kept q n (wipeOperands a0) := by
  unfold wipeOperands
  repeat' first
    | with_reducible assumption | with_reducible refine kept_each _ ?_ ?_ | with_reducible refine kept_modBay ?_ _ ?_ | intro _
    | with_reducible refine bayOk_lit ?_

theorem clearSession_kept {a0 : State} (h0 : Kept q n a0) : Kept q n (clearSession a0) := by
  unfold clearSession
  repeat' first
    | with_reducible assumption | with_reducible refine reinstantiate_kept ?_ | with_reducible refine clearSessions_kept ?_
    | with_reducible refine wipeOperands_kept ?_ | with_reducible refine clearCaches_kept ?_

theorem clearSlots_kept {a0 : State} (h0 : Kept q n a0) : Kept q n (clearSlots a0) := by
  unfold clearSlots
  repeat' first
    | with_reducible assumption | with_reducible refine wholeMemories_kept ?_ | with_reducible refine kept_lit ?_ rfl rfl rfl

theorem clearVault_kept {a0 : State} (h0 : Kept q n a0) : Kept q n (clearVault a0) := by
  unfold clearVault
  repeat' first
    | with_reducible assumption | with_reducible refine dropIdentity_kept ?_ | with_reducible refine kept_ite ?_ ?_
    | with_reducible refine kept_lit ?_ rfl rfl rfl

theorem clearVaultKeys_kept {a0 : State} (h0 : Kept q n a0) : Kept q n (clearVaultKeys a0) := by
  unfold clearVaultKeys
  repeat' first
    | with_reducible assumption | with_reducible refine kept_lit ?_ rfl rfl rfl

theorem clearWork_kept {a0 : State} (h0 : Kept q n a0) : Kept q n (clearWork a0) := by
  unfold clearWork
  repeat' first
    | with_reducible assumption | with_reducible refine kept_each _ ?_ ?_ | with_reducible refine endLines_kept ?_
    | with_reducible refine endAdmitted_kept ?_ | intro _

theorem decisionRecords_kept {a0 : State} {a1 : Nat} (h0 : Kept q n a0) : Kept q n (decisionRecords a0 a1) := by
  unfold decisionRecords
  repeat' first
    | with_reducible assumption | with_reducible refine kept_each _ ?_ ?_ | with_reducible refine recordExempt_kept ?_
    | with_reducible refine kept_ite ?_ ?_ | intro _ | split

theorem writeLatchReg_kept {a0 : State} {a1 : Nat} (h0 : Kept q n a0) : Kept q n (writeLatchReg a0 a1) := by
  unfold writeLatchReg
  repeat' first
    | with_reducible assumption | with_reducible refine kept_lit ?_ rfl rfl rfl

theorem haltActivation_kept {a0 : State} (h0 : Kept q n a0) : Kept q n (haltActivation a0) := by
  unfold haltActivation
  repeat' first
    | with_reducible assumption | split | with_reducible refine kept_lit ?_ rfl rfl rfl

theorem endActivation_kept {a0 : State} (h0 : Kept q n a0) : Kept q n (endActivation a0) := by
  unfold endActivation
  repeat' first
    | with_reducible assumption | split | with_reducible refine kept_lit ?_ rfl rfl rfl

theorem stopActivation_kept {a0 : State} (h0 : Kept q n a0) : Kept q n (stopActivation a0) := by
  unfold stopActivation
  repeat' first
    | with_reducible assumption | with_reducible refine haltActivation_kept ?_ | with_reducible refine endActivation_kept ?_
    | with_reducible refine kept_ite ?_ ?_

theorem takeActions_kept {a0 : State} {a1 : Nat} {a2 : Nat} (h0 : Kept q n a0) : Kept q n (takeActions a0 a1 a2) := by
  unfold takeActions
  repeat' first
    | with_reducible assumption | with_reducible refine clearWork_kept ?_ | with_reducible refine clearVault_kept ?_
    | with_reducible refine stopActivation_kept ?_ | with_reducible refine freshLogs_kept ?_
    | with_reducible refine clearSlots_kept ?_ | with_reducible refine clearVaultKeys_kept ?_
    | with_reducible refine clearSession_kept ?_ | with_reducible refine beginTransition_kept ?_
    | with_reducible refine kept_ite ?_ ?_

theorem decide__kept {a0 : State} (h0 : Kept q n a0) : Kept q n (decide_ a0) := by
  unfold decide_
  repeat' first
    | with_reducible assumption | with_reducible refine decisionRecords_kept ?_ | with_reducible refine writeLatchReg_kept ?_
    | with_reducible refine takeActions_kept ?_ | with_reducible refine kept_ite ?_ ?_ | split
    | with_reducible refine kept_lit ?_ rfl rfl rfl

theorem ackMonitor_kept {a0 : State} {a1 : Nat} {a2 : Nat} (h0 : Kept q n a0) : Kept q n (ackMonitor a0 a1 a2) := by
  unfold ackMonitor
  repeat' first
    | with_reducible assumption | with_reducible refine modMon_kept ?_ | with_reducible refine kept_ite ?_ ?_
    | with_reducible refine kept_lit ?_ rfl rfl rfl

theorem ackRandom_kept {a0 : State} (h0 : Kept q n a0) : Kept q n (ackRandom a0) := by
  unfold ackRandom
  repeat' first
    | with_reducible assumption | with_reducible refine randomAlarm_kept ?_ | with_reducible refine kept_ite ?_ ?_ | split
    | with_reducible refine kept_lit ?_ rfl rfl rfl

theorem recordLife_kept {a0 : State} {a1 : Nat} (h0 : Kept q n a0) : Kept q n (recordLife a0 a1) := by
  unfold recordLife
  repeat' first
    | with_reducible assumption | with_reducible refine tailRecord_kept ?_ | with_reducible refine record_kept ?_
    | with_reducible refine kept_ite ?_ ?_

theorem noteLife_kept {a0 : State} (h0 : Kept q n a0) : Kept q n (noteLife a0) := by
  unfold noteLife
  repeat' first
    | with_reducible assumption | with_reducible refine kept_each _ ?_ ?_ | with_reducible refine recordLife_kept ?_
    | with_reducible refine kept_ite ?_ ?_ | intro _ | split | with_reducible refine kept_lit ?_ rfl rfl rfl

theorem addCharge_kept {a0 : State} {a1 : Nat} (h0 : Kept q n a0) : Kept q n (addCharge a0 a1) := by
  unfold addCharge
  repeat' first
    | with_reducible assumption | with_reducible refine noteLife_kept ?_ | split | with_reducible refine kept_lit ?_ rfl rfl rfl

theorem alarmAck_kept {a0 : State} {a1 : Nat} {a2 : Nat} (h0 : Kept q n a0) : Kept q n (alarmAck a0 a1 a2) := by
  unfold alarmAck
  repeat' first
    | with_reducible assumption | with_reducible refine ackRandom_kept ?_ | with_reducible refine kept_each _ ?_ ?_
    | with_reducible refine ackMonitor_kept ?_ | with_reducible refine record_kept ?_ | with_reducible refine kept_ite ?_ ?_
    | intro _ | with_reducible refine kept_lit ?_ rfl rfl rfl

theorem readEnvelope_kept {a0 : State} {a1 : EnvAnswer} (h0 : Kept q n a0) : Kept q n (readEnvelope a0 a1) := by
  unfold readEnvelope
  repeat' first
    | with_reducible assumption | split | with_reducible refine kept_lit ?_ rfl rfl rfl

theorem authenticate_kept {a0 : State} {a1 : EnvRec} {a2 : EnvAnswer} (h0 : Kept q n a0) : Kept q n (authenticate a0 a1 a2).2
    := by
  unfold authenticate
  repeat' first
    | with_reducible assumption | with_reducible refine readEnvelope_kept ?_ | with_reducible refine noteLife_kept ?_
    | with_reducible refine kept_lit ?_ rfl rfl rfl

theorem bindEnvelope_kept {a0 : State} {a1 : EnvAnswer} (h0 : Kept q n a0) : Kept q n (bindEnvelope a0 a1) := by
  unfold bindEnvelope
  repeat' first
    | with_reducible assumption | with_reducible refine emit_kept ?_ | with_reducible refine kept_ite ?_ ?_

theorem checkNets_kept {a0 : State} {a1 : Cfg} {a2 : Bool} {a3 : List NetReading} (h0 : Kept q n a0) : Kept q n (checkNets a0
    a1 a2 a3).1 := by
  unfold checkNets
  repeat' first
    | with_reducible assumption | split | with_reducible refine kept_lit ?_ rfl rfl rfl

theorem withhold_kept {a0 : State} {a1 : Nat → Bool} (h0 : Kept q n a0) : Kept q n (withhold a0 a1) := by
  unfold withhold
  repeat' first
    | with_reducible assumption | with_reducible refine kept_each _ ?_ ?_ | with_reducible refine endEarly_kept ?_
    | with_reducible refine endLine_kept ?_ | with_reducible refine kept_ite ?_ ?_ | intro _ | split

theorem clockEvent_kept {a0 : State} {a1 : Nat} {a2 : Nat} {a3 : Bool} (h0 : Kept q n a0) : Kept q n (clockEvent a0 a1 a2 a3)
    := by
  unfold clockEvent
  repeat' first
    | with_reducible assumption | with_reducible refine withhold_kept ?_ | with_reducible refine raiseMonitor_kept ?_
    | with_reducible refine kept_ite ?_ ?_

theorem closeWindow_kept {a0 : State} (h0 : Kept q n a0) : Kept q n (closeWindow a0) := by
  unfold closeWindow
  repeat' first
    | with_reducible assumption | with_reducible refine kept_ite ?_ ?_ | with_reducible refine kept_lit ?_ rfl rfl rfl

theorem drivePatterns_kept {a0 : State} (h0 : Kept q n a0) : Kept q n (drivePatterns a0) := by
  unfold drivePatterns
  repeat' first
    | with_reducible assumption | with_reducible refine kept_lit ?_ rfl rfl rfl

theorem enrol_kept {a0 : State} {a1 : EnvAnswer} {a2 : List NetReading} (h0 : Kept q n a0) : Kept q n (enrol a0 a1 a2).2 := by
  unfold enrol
  have h := readEnvelope_kept (a1 := a1) h0
  dsimp only
  split
  · dsimp only
    exact record_kept (kept_ite (kept_lit h0 rfl rfl rfl) h)
  · dsimp only
    exact record_kept (kept_lit (bindEnvelope_kept h) rfl rfl rfl)

theorem enrolInWindow_kept {a0 : State} {a1 : EnvAnswer} {a2 : List NetReading} (h0 : Kept q n a0) : Kept q n (enrolInWindow
    a0 a1 a2) := by
  unfold enrolInWindow
  repeat' first
    | with_reducible assumption | with_reducible refine enrol_kept ?_ | with_reducible refine kept_ite ?_ ?_

theorem envAuth_kept {a0 : State} {a1 : EnvAnswer} {a2 : Bool} (h0 : Kept q n a0) : Kept q n (envAuth a0 a1 a2) := by
  unfold envAuth
  repeat' first
    | with_reducible assumption | with_reducible refine authenticate_kept ?_ | with_reducible refine raiseIf_kept ?_
    | with_reducible refine kept_ite ?_ ?_ | split | with_reducible refine kept_lit ?_ rfl rfl rfl

theorem holdClock_kept {a0 : State} {a1 : Nat} (h0 : Kept q n a0) : Kept q n (holdClock a0 a1) := by
  unfold holdClock
  repeat' first
    | with_reducible assumption | split | with_reducible refine kept_lit ?_ rfl rfl rfl

theorem meshCheck_kept {a0 : State} {a1 : List NetReading} (h0 : Kept q n a0) : Kept q n (meshCheck a0 a1) := by
  unfold meshCheck
  repeat' first
    | with_reducible assumption | with_reducible refine checkNets_kept ?_ | with_reducible refine drivePatterns_kept ?_
    | with_reducible refine raiseIf_kept ?_ | with_reducible refine kept_ite ?_ ?_

theorem stopClock_kept {a0 : State} {a1 : Nat} (h0 : Kept q n a0) : Kept q n (stopClock a0 a1) := by
  unfold stopClock
  repeat' first
    | with_reducible assumption | with_reducible refine holdClock_kept ?_ | with_reducible refine closeBay_kept ?_
    | with_reducible refine kept_ite ?_ ?_

theorem tamperSample_kept {a0 : State} {a1 : Nat} (h0 : Kept q n a0) : Kept q n (tamperSample a0 a1) := by
  unfold tamperSample
  repeat' first
    | with_reducible assumption | with_reducible refine kept_each _ ?_ ?_ | with_reducible refine recordLimited_kept ?_
    | with_reducible refine raiseMonitor_kept ?_ | with_reducible refine kept_ite ?_ ?_ | intro _
    | with_reducible refine kept_lit ?_ rfl rfl rfl

theorem spoilOp_kept {a0 : State} {a1 : Option OpRef} {a2 : Bool} (h0 : Kept q n a0) : Kept q n (spoilOp a0 a1 a2) := by
  unfold spoilOp
  repeat' first
    | with_reducible assumption | with_reducible refine endEarly_kept ?_ | with_reducible refine answerPoison_kept ?_
    | with_reducible refine kept_modInst ?_ _ ?_ | with_reducible refine setSlot_kept ?_ | with_reducible refine endLine_kept ?_
    | with_reducible refine kept_ite ?_ ?_ | intro _ | split | with_reducible refine kept_lit ?_ rfl rfl rfl

theorem monitorSense_kept {a0 : State} {a1 : MonSense} (h0 : Kept q n a0) : Kept q n (monitorSense a0 a1) := by
  unfold monitorSense
  repeat' first
    | with_reducible assumption | with_reducible refine raiseMonitor_kept ?_ | with_reducible refine withhold_kept ?_
    | with_reducible refine raiseIf_kept ?_ | with_reducible refine clockEvent_kept ?_ | with_reducible refine stopClock_kept ?_
    | with_reducible refine tamperSample_kept ?_ | with_reducible refine spoilOp_kept ?_
    | with_reducible refine spoilWord_kept ?_ | with_reducible refine kept_ite ?_ ?_ | split
    | with_reducible refine kept_lit ?_ rfl rfl rfl

theorem openWindow_kept {a0 : State} (h0 : Kept q n a0) : Kept q n (openWindow a0) := by
  unfold openWindow
  repeat' first
    | with_reducible assumption | with_reducible refine kept_ite ?_ ?_ | with_reducible refine kept_lit ?_ rfl rfl rfl

theorem startTest_kept {a0 : State} {a1 : Nat} (h0 : Kept q n a0) : Kept q n (startTest a0 a1) := by
  unfold startTest
  repeat' first
    | with_reducible assumption | with_reducible refine modMon_kept ?_ | with_reducible refine kept_lit ?_ rfl rfl rfl

theorem requestTest_kept {a0 : State} {a1 : Nat} (h0 : Kept q n a0) : Kept q n (requestTest a0 a1) := by
  unfold requestTest
  repeat' first
    | with_reducible assumption | with_reducible refine startTest_kept ?_ | with_reducible refine kept_ite ?_ ?_
    | with_reducible refine kept_lit ?_ rfl rfl rfl

theorem reseedPattern_kept {a0 : State} (h0 : Kept q n a0) : Kept q n (reseedPattern a0) := by
  unfold reseedPattern
  repeat' first
    | with_reducible assumption | with_reducible refine kept_ite ?_ ?_ | with_reducible refine kept_lit ?_ rfl rfl rfl

theorem tamperEdge_kept {a0 : State} {a1 : Nat} {a2 : Nat} (h0 : Kept q n a0) : Kept q n (tamperEdge a0 a1 a2) := by
  unfold tamperEdge
  repeat' first
    | with_reducible assumption | with_reducible refine kept_ite ?_ ?_ | split | with_reducible refine kept_lit ?_ rfl rfl rfl

theorem testEnds_kept {a0 : State} {a1 : Nat} {a2 : Bool} (h0 : Kept q n a0) : Kept q n (testEnds a0 a1 a2) := by
  unfold testEnds
  repeat' first
    | with_reducible assumption | with_reducible refine modMon_kept ?_ | with_reducible refine startTest_kept ?_
    | with_reducible refine record_kept ?_ | with_reducible refine raiseMonitor_kept ?_ | with_reducible refine kept_ite ?_ ?_
    | split | with_reducible refine kept_lit ?_ rfl rfl rfl

theorem windowEnds__kept {a0 : State} (h0 : Kept q n a0) : Kept q n (windowEnds_ a0) := by
  unfold windowEnds_
  repeat' first
    | with_reducible assumption | with_reducible refine closeWindow_kept ?_ | with_reducible refine kept_ite ?_ ?_ | split

theorem writeMark_kept {a0 : State} {a1 : Nat} {a2 : Bool} (h0 : Kept q n a0) : Kept q n (writeMark a0 a1 a2) := by
  unfold writeMark
  repeat' first
    | with_reducible assumption | with_reducible refine kept_ite ?_ ?_ | with_reducible refine kept_lit ?_ rfl rfl rfl

theorem backupActions_kept {a0 : State} {a1 : Nat} {a2 : Nat} {a3 : Bool} (h0 : Kept q n a0) : Kept q n (backupActions a0 a1
    a2 a3) := by
  unfold backupActions
  repeat' first
    | with_reducible assumption | with_reducible refine clearVault_kept ?_ | with_reducible refine clearVaultKeys_kept ?_
    | with_reducible refine writeMark_kept ?_ | with_reducible refine kept_ite ?_ ?_

theorem periodRecord_kept {a0 : State} {a1 : Nat} {a2 : Bytes} (h0 : Kept q n a0) : Kept q n (periodRecord a0 a1 a2) := by
  unfold periodRecord
  repeat' first
    | with_reducible assumption | with_reducible refine tailRecord_kept ?_ | with_reducible refine kept_ite ?_ ?_

theorem setLatch_kept {a0 : State} {a1 : Nat} {a2 : Nat} (h0 : Kept q n a0) : Kept q n (setLatch a0 a1 a2) := by
  unfold setLatch
  repeat' first
    | with_reducible assumption | with_reducible refine kept_lit ?_ rfl rfl rfl

theorem backupDecide_kept {a0 : State} {a1 : List (Nat × Bytes)} {a2 : Nat} {a3 : Bool} {a4 : Bool} (h0 : Kept q n a0) : Kept
    q n (backupDecide a0 a1 a2 a3 a4) := by
  unfold backupDecide
  repeat' first
    | with_reducible assumption | with_reducible refine kept_each _ ?_ ?_ | with_reducible refine periodRecord_kept ?_
    | with_reducible refine setLatch_kept ?_ | with_reducible refine backupActions_kept ?_
    | with_reducible refine kept_ite ?_ ?_ | intro _

theorem tamperTail_kept {a0 : State} {a1 : Bool} (h0 : Kept q n a0) : Kept q n (tamperTail a0 a1) := by
  unfold tamperTail
  repeat' first
    | with_reducible assumption | with_reducible refine kept_each _ ?_ ?_ | with_reducible refine tailRecord_kept ?_ | intro _
    | with_reducible refine kept_lit ?_ rfl rfl rfl

theorem backupCheck_kept {a0 : State} {a1 : List NetReading} {a2 : Nat} {a3 : Nat} {a4 : Nat} (h0 : Kept q n a0) : Kept q n
    (backupCheck a0 a1 a2 a3 a4) := by
  unfold backupCheck
  repeat' first
    | with_reducible assumption | with_reducible refine addCharge_kept ?_ | with_reducible refine checkNets_kept ?_
    | with_reducible refine drivePatterns_kept ?_ | with_reducible refine backupDecide_kept ?_
    | with_reducible refine tamperTail_kept ?_ | with_reducible refine kept_ite ?_ ?_
    | with_reducible refine kept_lit ?_ rfl rfl rfl

theorem loseSupply_kept {a0 : State} (h0 : Kept q n a0) : Kept q n (loseSupply a0) := by
  unfold loseSupply
  repeat' first
    | with_reducible assumption | with_reducible refine clearVault_kept ?_ | with_reducible refine kept_lit ?_ rfl rfl rfl

theorem watchEvent_kept {a0 : State} {a1 : Nat} {a2 : Bytes} {a3 : Bool} (h0 : Kept q n a0) : Kept q n (watchEvent a0 a1 a2
    a3) := by
  unfold watchEvent
  repeat' first
    | with_reducible assumption | with_reducible refine backupDecide_kept ?_ | with_reducible refine raiseMonitor_kept ?_
    | with_reducible refine loseSupply_kept ?_ | with_reducible refine kept_ite ?_ ?_

theorem backupWatch_kept {a0 : State} {a1 : MonSense} {a2 : Bool} (h0 : Kept q n a0) : Kept q n (backupWatch a0 a1 a2) := by
  unfold backupWatch
  repeat' first
    | with_reducible assumption | with_reducible refine watchEvent_kept ?_ | with_reducible refine kept_ite ?_ ?_ | split
    | with_reducible refine kept_lit ?_ rfl rfl rfl

end Sys2Proof.Machine
end

