-- ==== Sys2Proof/Laws/KeptCustody.lean ====
section
/-! SUPPORT. What no command breaks (`Kept`): Kallek, migration, debugging, firmware, staging and joints. -/

namespace Sys2Proof.Machine

open Sys2Proof

variable {q : List Instr} {n : Nat}

theorem kallek_kept {a0 : State} {a1 : KHdr} {a2 : Nat} {a3 : Nat → Nat → State} (h0 : Kept q n a0) (h3 : ∀ z0 z1, Kept q n
    (a3 z0 z1)) : Kept q n (kallek a0 a1 a2 a3) := by
  unfold kallek
  repeat' first
    | with_reducible assumption | with_reducible refine h3 _ _ | with_reducible refine emit_kept ?_
    | with_reducible refine kReply_kept ?_ | split

theorem kDescribe_kept {a0 : State} {a1 : KHdr} {a2 : Nat} {a3 : Nat} (h0 : Kept q n a0) : Kept q n (kDescribe a0 a1 a2 a3)
    := by
  unfold kDescribe
  repeat' first
    | with_reducible assumption | with_reducible refine kallek_kept ?_ ?_ | with_reducible refine kReply_kept ?_
    | with_reducible refine kept_ite ?_ ?_ | intro _ | split

theorem kReplyExcept_kept {a0 : State} {a1 : KHdr} {a2 : Nat} {a3 : Except Nat Bytes} (h0 : Kept q n a0) : Kept q n
    (kReplyExcept a0 a1 a2 a3) := by
  unfold kReplyExcept
  repeat' first
    | with_reducible assumption | with_reducible refine kReply_kept ?_ | split

theorem kGet_kept {a0 : State} {a1 : KHdr} {a2 : Nat} {a3 : Nat} {a4 : Nat} {a5 : Nat} (h0 : Kept q n a0) : Kept q n (kGet a0
    a1 a2 a3 a4 a5) := by
  unfold kGet
  repeat' first
    | with_reducible assumption | with_reducible refine kallek_kept ?_ ?_ | with_reducible refine kReply_kept ?_
    | with_reducible refine kReplyExcept_kept ?_ | with_reducible refine kept_ite ?_ ?_ | intro _

theorem kNext_kept {a0 : State} {a1 : KHdr} {a2 : Nat} {a3 : Nat} (h0 : Kept q n a0) : Kept q n (kNext a0 a1 a2 a3) := by
  unfold kNext
  repeat' first
    | with_reducible assumption | with_reducible refine kallek_kept ?_ ?_ | with_reducible refine kReply_kept ?_
    | with_reducible refine kept_ite ?_ ?_ | intro _ | split

theorem kallekWord_kept {a0 : State} {a1 : KHdr} {a2 : Bool} {a3 : Instr} {a4 : State → State} (h0 : Kept q n a0) (h4 : ∀ z0,
    Kept q n z0 → Kept q n (a4 z0)) : Kept q n (kallekWord a0 a1 a2 a3 a4) := by
  unfold kallekWord
  repeat' first
    | with_reducible assumption | with_reducible refine h4 _ ?_ | with_reducible refine stall_kept ?_
    | with_reducible refine kept_ite ?_ ?_

theorem controllerDraws_kept {a0 : List Nat} {a1 : State} (h1 : Kept q n a1) : Kept q n (controllerDraws a0 a1).2 := by
  induction a0 generalizing a1 with
  | nil => exact h1
  | cons m ms ih =>
    simp only [controllerDraws]
    split
    · exact kept_of_snd (by assumption) (controllerDraw_kept h1)
    · split
      · exact kept_of_snd (by assumption) (ih (kept_of_snd (by assumption) (controllerDraw_kept h1)))
      · exact kept_of_snd (by assumption) (ih (kept_of_snd (by assumption) (controllerDraw_kept h1)))

theorem blobReady_kept {a0 : State} {a1 : Nat} (h0 : Kept q n a0) : Kept q n (blobReady a0 a1) := by
  unfold blobReady
  repeat' first
    | with_reducible assumption | with_reducible refine controllerDraws_kept ?_ | with_reducible refine kept_modInst ?_ _ ?_
    | with_reducible refine kept_ite ?_ ?_ | with_reducible refine kept_of_snd (by assumption) ?_ | intro _ | split
    | with_reducible refine kept_lit ?_ rfl rfl rfl | with_reducible refine instOk_lit ?_

theorem offerExpires_kept {a0 : State} {a1 : Nat} (h0 : Kept q n a0) : Kept q n (offerExpires a0 a1) := by
  unfold offerExpires
  repeat' first
    | with_reducible assumption | with_reducible refine kept_modInst ?_ _ ?_ | with_reducible refine kept_ite ?_ ?_ | intro _
    | split | with_reducible refine instOk_lit ?_

theorem offerReady_kept {a0 : State} {a1 : Nat} (h0 : Kept q n a0) : Kept q n (offerReady a0 a1) := by
  unfold offerReady
  repeat' first
    | with_reducible assumption | with_reducible refine controllerDraws_kept ?_ | with_reducible refine kept_modInst ?_ _ ?_
    | with_reducible refine kept_ite ?_ ?_ | with_reducible refine kept_of_snd (by assumption) ?_ | intro _ | split
    | with_reducible refine instOk_lit ?_

theorem restoreCut_kept {a0 : State} {a1 : Nat} {a2 : RestoreReq} {a3 : Carried} (h0 : Kept q n a0) : Kept q n (restoreCut a0
    a1 a2 a3) := by
  unfold restoreCut
  repeat' first
    | with_reducible assumption | with_reducible refine kept_each _ ?_ ?_ | with_reducible refine writeWords_kept ?_
    | with_reducible refine setKumCounter_kept ?_ | with_reducible refine kept_modInst ?_ _ ?_
    | with_reducible refine cleanInst_kept ?_ | intro _ | with_reducible refine kept_lit ?_ rfl rfl rfl
    | with_reducible refine instOk_lit_st ?_ (by decide)

theorem saveCut_kept {a0 : State} {a1 : State} {a2 : Nat} {a3 : Bytes} (h0 : Kept q n a0) (h1 : Kept q n a1) : Kept q n
    (saveCut a0 a1 a2 a3) := by
  unfold saveCut
  repeat' first
    | with_reducible assumption | with_reducible refine kept_modInst ?_ _ ?_ | intro _
    | with_reducible refine instOk_lit_st ?_ (by decide)

theorem answerWaiting_kept {a0 : State} {a1 : Joint} (h0 : Kept q n a0) : Kept q n (answerWaiting a0 a1) := by
  unfold answerWaiting
  repeat' first
    | with_reducible assumption | with_reducible refine answerSigns_kept ?_ | with_reducible refine kReply_kept ?_ | split

theorem abortJoint_kept {a0 : State} {a1 : Nat} {a2 : Nat} (h0 : Kept q n a0) : Kept q n (abortJoint a0 a1 a2) := by
  unfold abortJoint
  repeat' first
    | with_reducible assumption | with_reducible refine answerWaiting_kept ?_ | with_reducible refine record_kept ?_
    | with_reducible refine modJoint_kept ?_ | with_reducible refine closeJoint_kept ?_
    | with_reducible refine kept_lit ?_ rfl rfl rfl

theorem challengeLapses_kept {a0 : State} (h0 : Kept q n a0) : Kept q n (challengeLapses a0) := by
  unfold challengeLapses
  repeat' first
    | with_reducible assumption | with_reducible refine kept_ite ?_ ?_ | split | with_reducible refine kept_lit ?_ rfl rfl rfl

theorem challengeReads_kept {a0 : State} (h0 : Kept q n a0) : Kept q n (challengeReads a0) := by
  unfold challengeReads
  repeat' first
    | with_reducible assumption | with_reducible refine kept_ite ?_ ?_ | split | with_reducible refine kept_lit ?_ rfl rfl rfl

theorem leaveFlash_kept {a0 : State} (h0 : Kept q n a0) : Kept q n (leaveFlash a0) := by
  unfold leaveFlash
  repeat' first
    | with_reducible assumption | with_reducible refine kept_lit ?_ rfl rfl rfl

theorem substitute_kept {a0 : State} {a1 : Bytes} (h0 : Kept q n a0) : Kept q n (substitute a0 a1) := by
  unfold substitute
  repeat' first
    | with_reducible assumption | with_reducible refine reinstantiate_kept ?_ | with_reducible refine wipeOperands_kept ?_
    | with_reducible refine clearCaches_kept ?_ | with_reducible refine clearSlots_kept ?_
    | with_reducible refine clearWork_kept ?_ | with_reducible refine leaveFlash_kept ?_
    | with_reducible refine setIdentity_kept ?_ | with_reducible refine kept_lit ?_ rfl rfl rfl

theorem enterDebug_kept {a0 : State} {a1 : Nat} {a2 : Nat} {a3 : Bytes} (h0 : Kept q n a0) : Kept q n (enterDebug a0 a1 a2
    a3) := by
  unfold enterDebug
  repeat' first
    | with_reducible assumption | with_reducible refine kept_each _ ?_ ?_ | with_reducible refine abortJoint_kept ?_
    | with_reducible refine substitute_kept ?_ | with_reducible refine record_kept ?_ | intro _
    | with_reducible refine kept_lit ?_ rfl rfl rfl

theorem executeUnlatched_kept {a0 : State} {a1 : Nat} (h0 : Kept q n a0) : Kept q n (executeUnlatched a0 a1) := by
  unfold executeUnlatched
  repeat' first
    | with_reducible assumption | with_reducible refine takeActions_kept ?_ | with_reducible refine kept_lit ?_ rfl rfl rfl

theorem openDebug_kept {a0 : State} (h0 : Kept q n a0) : Kept q n (openDebug a0) := by
  unfold openDebug
  repeat' first
    | with_reducible assumption | with_reducible refine substitute_kept ?_ | with_reducible refine kept_lit ?_ rfl rfl rfl

theorem startChallenge_kept {a0 : State} {a1 : Nat} (h0 : Kept q n a0) : Kept q n (startChallenge a0 a1) := by
  unfold startChallenge
  repeat' first
    | with_reducible assumption | with_reducible refine requestSeed_kept ?_ | with_reducible refine kept_lit ?_ rfl rfl rfl

theorem startTransition_kept {a0 : State} {a1 : Nat} {a2 : Nat} (h0 : Kept q n a0) : Kept q n (startTransition a0 a1 a2) := by
  unfold startTransition
  repeat' first
    | with_reducible assumption | with_reducible refine record_kept ?_ | with_reducible refine beginTransition_kept ?_
    | with_reducible refine executeUnlatched_kept ?_ | with_reducible refine kept_ite ?_ ?_
    | with_reducible refine kept_lit ?_ rfl rfl rfl

theorem writeFlashMark_kept {a0 : State} {a1 : LoaderMark} (h0 : Kept q n a0) : Kept q n (writeFlashMark a0 a1) := by
  unfold writeFlashMark
  repeat' first
    | with_reducible assumption | split | with_reducible refine kept_lit ?_ rfl rfl rfl

theorem noteMark_kept {a0 : State} (h0 : Kept q n a0) : Kept q n (noteMark a0) := by
  unfold noteMark
  repeat' first
    | with_reducible assumption | with_reducible refine writeFlashMark_kept ?_ | with_reducible refine kept_ite ?_ ?_
    | with_reducible refine kept_lit ?_ rfl rfl rfl

theorem takeMark_kept {a0 : State} {a1 : LoaderMark} (h0 : Kept q n a0) : Kept q n (takeMark a0 a1) := by
  unfold takeMark
  repeat' first
    | with_reducible assumption | with_reducible refine kept_lit ?_ rfl rfl rfl

theorem clearLoaderMarks_kept {a0 : State} (h0 : Kept q n a0) : Kept q n (clearLoaderMarks a0) := by
  unfold clearLoaderMarks
  repeat' first
    | with_reducible assumption | with_reducible refine noteMark_kept ?_ | with_reducible refine takeMark_kept ?_

theorem raiseFloor_kept {a0 : State} {a1 : Bool} (h0 : Kept q n a0) : Kept q n (raiseFloor a0 a1) := by
  unfold raiseFloor
  refine kept_lit_life h0 h0.legal.life ?_ rfl
  have := h0.legal.otp
  simp only
  split <;> omega

theorem loadPart_kept {a0 : State} {a1 : Nat} (h0 : Kept q n a0) : Kept q n (loadPart a0 a1) := by
  unfold loadPart
  repeat' first
    | with_reducible assumption | with_reducible refine kept_each _ ?_ ?_ | with_reducible refine reload_kept ?_ | intro _
    | with_reducible refine kept_lit ?_ rfl rfl rfl

theorem loadNamed_kept {a0 : State} (h0 : Kept q n a0) : Kept q n (loadNamed a0) := by
  unfold loadNamed
  repeat' first
    | with_reducible assumption | with_reducible refine kept_each _ ?_ ?_ | with_reducible refine loadPart_kept ?_
    | with_reducible refine kept_ite ?_ ?_ | intro _

theorem activationStep_kept {a0 : State} (h0 : Kept q n a0) : Kept q n (activationStep a0) := by
  unfold activationStep
  repeat' first
    | with_reducible assumption | with_reducible refine endActivation_kept ?_ | with_reducible refine clearLoaderMarks_kept ?_
    | with_reducible refine raiseFloor_kept ?_ | with_reducible refine loadNamed_kept ?_ | with_reducible refine record_kept ?_
    | with_reducible refine kept_ite ?_ ?_ | with_reducible refine kept_lit ?_ rfl rfl rfl

theorem baySwapped_kept {a0 : State} {a1 : Nat} (h0 : Kept q n a0) : Kept q n (baySwapped a0 a1) := by
  unfold baySwapped
  repeat' first
    | with_reducible assumption | with_reducible refine noteMark_kept ?_ | with_reducible refine kept_lit ?_ rfl rfl rfl

theorem bayReturns_kept {a0 : State} {a1 : Nat} (h0 : Kept q n a0) : Kept q n (bayReturns a0 a1) := by
  unfold bayReturns
  repeat' first
    | with_reducible assumption | with_reducible refine returnBay_kept ?_ | with_reducible refine activationStep_kept ?_
    | with_reducible refine baySwapped_kept ?_ | with_reducible refine kept_ite ?_ ?_

theorem beginReplace_kept {a0 : State} {a1 : Nat} (h0 : Kept q n a0) : Kept q n (beginReplace a0 a1) := by
  unfold beginReplace
  repeat' first
    | with_reducible assumption | with_reducible refine noteMark_kept ?_ | with_reducible refine stopConditioner_kept ?_
    | with_reducible refine kept_ite ?_ ?_ | with_reducible refine kept_lit ?_ rfl rfl rfl

theorem loaderTakes_kept {a0 : State} {a1 : Bytes} (h0 : Kept q n a0) : Kept q n (loaderTakes a0 a1).2 := by
  unfold loaderTakes
  repeat' first
    | with_reducible assumption | with_reducible refine dmaViolation_kept ?_ | split

theorem sourceRead_kept {a0 : State} {a1 : Bytes} {a2 : Nat} (h0 : Kept q n a0) : Kept q n (sourceRead a0 a1 a2) := by
  unfold sourceRead
  repeat' first
    | with_reducible assumption | with_reducible refine emit_kept ?_

theorem blockWritten_kept {a0 : State} {a1 : Bytes} (h0 : Kept q n a0) : Kept q n (blockWritten a0 a1) := by
  unfold blockWritten
  repeat' first
    | with_reducible assumption | with_reducible refine loaderTakes_kept ?_ | with_reducible refine noteMark_kept ?_
    | with_reducible refine sourceRead_kept ?_ | with_reducible refine haltActivation_kept ?_
    | with_reducible refine record_kept ?_ | with_reducible refine kept_ite ?_ ?_ | split
    | with_reducible refine kept_lit ?_ rfl rfl rfl

theorem commitActivation_kept {a0 : State} {a1 : Nat} (h0 : Kept q n a0) : Kept q n (commitActivation a0 a1) := by
  unfold commitActivation
  repeat' first
    | with_reducible assumption | with_reducible refine kept_lit ?_ rfl rfl rfl

theorem shiftIdle_kept {a0 : State} {a1 : Nat} (h0 : Kept q n a0) : Kept q n (shiftIdle a0 a1) := by
  unfold shiftIdle
  repeat' first
    | with_reducible assumption | with_reducible refine kept_each _ ?_ ?_ | with_reducible refine modJoint_kept ?_ | intro _

theorem endReplace_kept {a0 : State} {a1 : Nat} (h0 : Kept q n a0) : Kept q n (endReplace a0 a1) := by
  unfold endReplace
  repeat' first
    | with_reducible assumption | with_reducible refine loadPart_kept ?_ | with_reducible refine shiftIdle_kept ?_
    | with_reducible refine drainQueue_kept ?_ | with_reducible refine restartConditioner_kept ?_
    | with_reducible refine kept_ite ?_ ?_ | with_reducible refine kept_lit ?_ rfl rfl rfl

theorem loaderBegins_kept {a0 : State} (h0 : Kept q n a0) : Kept q n (loaderBegins a0) := by
  unfold loaderBegins
  repeat' first
    | with_reducible assumption | with_reducible refine settle_kept ?_ | with_reducible refine kept_ite ?_ ?_
    | with_reducible refine kept_lit ?_ rfl rfl rfl

theorem manifestChecked_kept {a0 : State} (h0 : Kept q n a0) : Kept q n (manifestChecked a0) := by
  unfold manifestChecked
  repeat' first
    | with_reducible assumption | with_reducible refine sourceRead_kept ?_ | with_reducible refine record_kept ?_
    | with_reducible refine kept_ite ?_ ?_ | with_reducible refine kept_lit ?_ rfl rfl rfl

theorem partSwap_kept {a0 : State} {a1 : Option Nat} (h0 : Kept q n a0) : Kept q n (partSwap a0 a1) := by
  unfold partSwap
  repeat' first
    | with_reducible assumption | with_reducible refine beginReplace_kept ?_ | with_reducible refine closeBay_kept ?_
    | with_reducible refine noteMark_kept ?_ | with_reducible refine activationStep_kept ?_
    | with_reducible refine kept_ite ?_ ?_ | split | with_reducible refine kept_lit ?_ rfl rfl rfl

theorem setSource_kept {a0 : State} {a1 : Bytes} (h0 : Kept q n a0) : Kept q n (setSource a0 a1) := by
  unfold setSource
  repeat' first
    | with_reducible assumption | with_reducible refine sourceRead_kept ?_ | with_reducible refine noteMark_kept ?_
    | with_reducible refine kept_ite ?_ ?_ | with_reducible refine kept_lit ?_ rfl rfl rfl

theorem stageBlock_kept {a0 : State} {a1 : Bytes} (h0 : Kept q n a0) : Kept q n (stageBlock a0 a1) := by
  unfold stageBlock
  repeat' first
    | with_reducible assumption | with_reducible refine loaderTakes_kept ?_ | with_reducible refine loaderBegins_kept ?_
    | with_reducible refine sourceRead_kept ?_ | with_reducible refine kept_ite ?_ ?_
    | with_reducible refine kept_lit ?_ rfl rfl rfl

theorem stageManifest_kept {a0 : State} {a1 : Bytes} (h0 : Kept q n a0) : Kept q n (stageManifest a0 a1) := by
  unfold stageManifest
  repeat' first
    | with_reducible assumption | split | with_reducible refine kept_lit ?_ rfl rfl rfl

theorem swapEnds_kept {a0 : State} (h0 : Kept q n a0) : Kept q n (swapEnds a0) := by
  unfold swapEnds
  repeat' first
    | with_reducible assumption | with_reducible refine activationStep_kept ?_ | with_reducible refine endReplace_kept ?_
    | with_reducible refine requestSeed_kept ?_ | with_reducible refine baySwapped_kept ?_
    | with_reducible refine reload_kept ?_ | with_reducible refine kept_ite ?_ ?_ | split

theorem switchSlots_kept {a0 : State} (h0 : Kept q n a0) : Kept q n (switchSlots a0) := by
  unfold switchSlots
  repeat' first
    | with_reducible assumption | with_reducible refine noteMark_kept ?_ | with_reducible refine kept_lit ?_ rfl rfl rfl

theorem switchNow_kept {a0 : State} (h0 : Kept q n a0) : Kept q n (switchNow a0) := by
  unfold switchNow
  repeat' first
    | with_reducible assumption | with_reducible refine switchSlots_kept ?_ | with_reducible refine kept_ite ?_ ?_
    | with_reducible refine kept_lit ?_ rfl rfl rfl

theorem tryBegin_kept {a0 : State} (h0 : Kept q n a0) : Kept q n (tryBegin a0) := by
  unfold tryBegin
  repeat' first
    | with_reducible assumption | with_reducible refine sourceRead_kept ?_ | with_reducible refine noteMark_kept ?_
    | with_reducible refine kept_ite ?_ ?_ | split | with_reducible refine kept_lit ?_ rfl rfl rfl

theorem stageRecs_kept {a0 : State} {a1 : Nat} {a2 : List JRec} (h0 : Kept q n a0) : Kept q n (stageRecs a0 a1 a2) := by
  unfold stageRecs
  repeat' first
    | with_reducible assumption | with_reducible refine noteWriter_kept ?_ | with_reducible refine writeWords_kept ?_
    | with_reducible refine modJoint_kept ?_ | with_reducible refine kept_ite ?_ ?_ | split
    | with_reducible refine kept_lit ?_ rfl rfl rfl

theorem stageRefused_kept {a0 : State} {a1 : Nat} {a2 : Option JRec} (h0 : Kept q n a0) : Kept q n (stageRefused a0 a1 a2) := by
  unfold stageRefused
  repeat' first
    | with_reducible assumption | with_reducible refine slotMismatch_kept ?_ | with_reducible refine kept_ite ?_ ?_ | split

theorem jointMsg_kept {a0 : State} {a1 : KHdr} {a2 : Nat} {a3 : Nat → Nat → State} (h0 : Kept q n a0) (h3 : ∀ z0 z1, Kept q n
    (a3 z0 z1)) : Kept q n (jointMsg a0 a1 a2 a3) := by
  unfold jointMsg
  repeat' first
    | with_reducible assumption | with_reducible refine h3 _ _ | with_reducible refine kallek_kept ?_ ?_
    | with_reducible refine kReply_kept ?_ | with_reducible refine kept_ite ?_ ?_ | intro _

theorem jointAborts_kept {a0 : State} {a1 : KHdr} (h0 : Kept q n a0) : Kept q n (jointAborts a0 a1) := by
  unfold jointAborts
  repeat' first
    | with_reducible assumption | with_reducible refine jointMsg_kept ?_ ?_ | with_reducible refine kReply_kept ?_
    | with_reducible refine abortJoint_kept ?_ | with_reducible refine kept_ite ?_ ?_ | intro _ | split

theorem jointIdles_kept {a0 : State} {a1 : Nat} (h0 : Kept q n a0) : Kept q n (jointIdles a0 a1) := by
  unfold jointIdles
  repeat' first
    | with_reducible assumption | with_reducible refine abortJoint_kept ?_ | with_reducible refine kept_ite ?_ ?_

theorem jointOpens_kept {a0 : State} {a1 : KHdr} {a2 : Nat} (h0 : Kept q n a0) : Kept q n (jointOpens a0 a1 a2) := by
  unfold jointOpens
  repeat' first
    | with_reducible assumption | with_reducible refine jointMsg_kept ?_ ?_ | with_reducible refine kReply_kept ?_
    | with_reducible refine openSlot_kept ?_ | with_reducible refine requestSeed_kept ?_ | with_reducible refine kept_ite ?_ ?_
    | intro _ | split

theorem touch_kept {a0 : State} {a1 : Nat} (h0 : Kept q n a0) : Kept q n (touch a0 a1) := by
  unfold touch
  repeat' first
    | with_reducible assumption | with_reducible refine modJoint_kept ?_

theorem jointReads_kept {a0 : State} {a1 : KHdr} {a2 : Nat} {a3 : Nat} {a4 : Nat} {a5 : Nat} (h0 : Kept q n a0) : Kept q n
    (jointReads a0 a1 a2 a3 a4 a5) := by
  unfold jointReads
  repeat' first
    | with_reducible assumption | with_reducible refine jointMsg_kept ?_ ?_ | with_reducible refine kReply_kept ?_
    | with_reducible refine touch_kept ?_ | with_reducible refine modJoint_kept ?_ | with_reducible refine kept_ite ?_ ?_
    | intro _ | split

theorem jointSigns_kept {a0 : State} {a1 : KHdr} {a2 : Nat} {a3 : Bytes} (h0 : Kept q n a0) : Kept q n (jointSigns a0 a1 a2
    a3) := by
  unfold jointSigns
  repeat' first
    | with_reducible assumption | with_reducible refine jointMsg_kept ?_ ?_ | with_reducible refine kReply_kept ?_
    | with_reducible refine modJoint_kept ?_ | with_reducible refine touch_kept ?_ | with_reducible refine kept_ite ?_ ?_
    | intro _ | split

theorem jointStages_kept {a0 : State} {a1 : KHdr} {a2 : List JRec} (h0 : Kept q n a0) : Kept q n (jointStages a0 a1 a2) := by
  unfold jointStages
  repeat' first
    | with_reducible assumption | with_reducible refine jointMsg_kept ?_ ?_ | with_reducible refine kReply_kept ?_
    | with_reducible refine touch_kept ?_ | with_reducible refine stageRefused_kept ?_ | with_reducible refine stageRecs_kept ?_
    | with_reducible refine kept_ite ?_ ?_ | intro _ | split

theorem jointStatements_kept {a0 : State} {a1 : KHdr} (h0 : Kept q n a0) : Kept q n (jointStatements a0 a1) := by
  unfold jointStatements
  repeat' first
    | with_reducible assumption | with_reducible refine jointMsg_kept ?_ ?_ | with_reducible refine kReply_kept ?_
    | with_reducible refine touch_kept ?_ | with_reducible refine kept_ite ?_ ?_ | intro _ | split

theorem jointStates_kept {a0 : State} {a1 : KHdr} (h0 : Kept q n a0) : Kept q n (jointStates a0 a1) := by
  unfold jointStates
  repeat' first
    | with_reducible assumption | with_reducible refine jointMsg_kept ?_ ?_ | with_reducible refine kReply_kept ?_
    | with_reducible refine touch_kept ?_ | with_reducible refine kept_ite ?_ ?_ | intro _ | split

theorem testBays_rising : mrising testBays = true := by decide

theorem testBays_ok : ∀ e ∈ testBays, BayOk e.2 := by
  intro e he
  obtain ⟨b, -, rfl⟩ := List.mem_map.1 he
  exact Nat.zero_le 2

theorem beginStart_kept {a0 : State} (h0 : Kept q n a0) : Kept q n (beginStart a0) := by
  unfold beginStart
  obtain ⟨h1, h2, h3, h4, h5, h6, h7, h8, h9, h10⟩ := h0
  refine kept_ite ⟨h1, h2, h3, h4, ?_, testBays_rising, h7, h8, by simp, h10⟩ ⟨h1, h2, h3, h4, h5, h6, h7, h8, h9, h10⟩
  exact testBays_ok

theorem cutBurning_kept {a0 : State} (h0 : Kept q n a0) : Kept q n (cutBurning a0) := by
  unfold cutBurning
  repeat' first
    | with_reducible assumption | with_reducible refine burnCut_kept ?_ | split

theorem mainLost_kept {a0 : State} (h0 : Kept q n a0) : Kept q n (mainLost a0) := by
  have h := cutBurning_kept h0
  unfold mainLost
  dsimp only
  generalize cutBurning a0 = s at h ⊢
  obtain ⟨h1, h2, h3, h4, h5, h6, h7, h8, h9, h10⟩ := h
  refine ⟨h1, h2, ?_, mrising_mofList _, ?_, rfl, h7, h8, Nat.zero_le _, h10⟩
  · intro e he
    obtain ⟨x, -, rfl⟩ := List.mem_map.1 (mem_mofList he)
    exact ⟨by simp, rfl⟩
  · intro e he
    cases he

theorem tailMode_kept {a0 : State} {a1 : Nat} (h0 : Kept q n a0) : Kept q n (tailMode a0 a1) := by
  unfold tailMode
  repeat' first
    | with_reducible assumption | with_reducible refine tailRecord_kept ?_ | with_reducible refine kept_ite ?_ ?_
    | with_reducible refine kept_lit ?_ rfl rfl rfl

theorem tailModes_kept {a0 : State} {a1 : Nat} (h0 : Kept q n a0) : Kept q n (tailModes a0 a1) := by
  unfold tailModes
  repeat' first
    | with_reducible assumption | with_reducible refine tailMode_kept ?_

theorem enterBackup_kept {a0 : State} (h0 : Kept q n a0) : Kept q n (enterBackup a0) := by
  unfold enterBackup
  repeat' first
    | with_reducible assumption | with_reducible refine mainLost_kept ?_ | with_reducible refine tailModes_kept ?_
    | with_reducible refine loseSupply_kept ?_ | with_reducible refine kept_ite ?_ ?_
    | with_reducible refine kept_lit ?_ rfl rfl rfl

theorem mainReset_kept {a0 : State} (h0 : Kept q n a0) : Kept q n (mainReset a0) := by
  unfold mainReset
  repeat' first
    | with_reducible assumption | with_reducible refine mainLost_kept ?_

theorem internalReset_kept {a0 : State} (h0 : Kept q n a0) : Kept q n (internalReset a0) := by
  unfold internalReset
  repeat' first
    | with_reducible assumption | with_reducible refine settle_kept ?_ | with_reducible refine beginStart_kept ?_
    | with_reducible refine mainReset_kept ?_

theorem powerGood_kept {a0 : State} (h0 : Kept q n a0) : Kept q n (powerGood a0) := by
  unfold powerGood
  repeat' first
    | with_reducible assumption | with_reducible refine settle_kept ?_ | with_reducible refine beginStart_kept ?_
    | with_reducible refine kept_ite ?_ ?_ | with_reducible refine kept_lit ?_ rfl rfl rfl

theorem resetTakes_kept {a0 : State} {a1 : Nat} (h0 : Kept q n a0) : Kept q n (resetTakes a0 a1).2 := by
  unfold resetTakes
  repeat' first
    | with_reducible assumption | with_reducible refine kept_ite_snd ?_ ?_ | with_reducible refine kept_lit ?_ rfl rfl rfl

theorem resetAsserted_kept {a0 : State} {a1 : Nat} (h0 : Kept q n a0) : Kept q n (resetAsserted a0 a1) := by
  unfold resetAsserted
  repeat' first
    | with_reducible assumption | with_reducible refine resetTakes_kept ?_ | with_reducible refine mainReset_kept ?_
    | with_reducible refine kept_ite ?_ ?_ | with_reducible refine kept_lit ?_ rfl rfl rfl

theorem resetReleased_kept {a0 : State} (h0 : Kept q n a0) : Kept q n (resetReleased a0) := by
  unfold resetReleased
  repeat' first
    | with_reducible assumption | with_reducible refine settle_kept ?_ | with_reducible refine beginStart_kept ?_
    | with_reducible refine kept_ite ?_ ?_ | with_reducible refine kept_lit ?_ rfl rfl rfl

theorem stopStart_kept {a0 : State} {a1 : StopCause} (h0 : Kept q n a0) : Kept q n (stopStart a0 a1) := by
  unfold stopStart
  repeat' first
    | with_reducible assumption | with_reducible refine kept_lit ?_ rfl rfl rfl

theorem thermalTrip_kept {a0 : State} (h0 : Kept q n a0) : Kept q n (thermalTrip a0) := by
  unfold thermalTrip
  repeat' first
    | with_reducible assumption | with_reducible refine mainReset_kept ?_ | with_reducible refine kept_ite ?_ ?_
    | with_reducible refine kept_lit ?_ rfl rfl rfl

theorem freshCfgLog_kept {a0 : State} (h0 : Kept q n a0) : Kept q n (freshCfgLog a0) := by
  unfold freshCfgLog
  repeat' first
    | with_reducible assumption | with_reducible refine setDevCounter_kept ?_ | with_reducible refine kept_lit ?_ rfl rfl rfl

theorem compactCfg_kept {a0 : State} (h0 : Kept q n a0) : Kept q n (compactCfg a0) := by
  unfold compactCfg
  repeat' first
    | with_reducible assumption | with_reducible refine freshCfgLog_kept ?_ | with_reducible refine kept_ite ?_ ?_

theorem appendCfgLog_kept {a0 : State} {a1 : CfgEntry} (h0 : Kept q n a0) : Kept q n (appendCfgLog a0 a1) := by
  unfold appendCfgLog
  repeat' first
    | with_reducible assumption | with_reducible refine compactCfg_kept ?_ | with_reducible refine setDevCounter_kept ?_
    | with_reducible refine kept_lit ?_ rfl rfl rfl

theorem declineCommit_kept {a0 : State} {a1 : Nat} {a2 : KHdr} {a3 : Nat} (h0 : Kept q n a0) : Kept q n (declineCommit a0 a1
    a2 a3) := by
  unfold declineCommit
  repeat' first
    | with_reducible assumption | with_reducible refine modJoint_kept ?_ | with_reducible refine commitRecord_kept ?_
    | with_reducible refine kReply_kept ?_

theorem raiseCounters_kept {a0 : State} {a1 : List JRec} (h0 : Kept q n a0) : Kept q n (raiseCounters a0 a1) := by
  unfold raiseCounters
  repeat' first
    | with_reducible assumption | with_reducible refine kept_each _ ?_ ?_ | with_reducible refine setKumCounter_kept ?_
    | with_reducible refine kept_ite ?_ ?_ | intro _ | split

theorem failCommit_kept {a0 : State} {a1 : Nat} {a2 : Nat} {a3 : Option (Nat × Option (Nat × Nat))} (h0 : Kept q n a0) : Kept
    q n (failCommit a0 a1 a2 a3) := by
  unfold failCommit
  repeat' first
    | with_reducible assumption | with_reducible refine raiseCounters_kept ?_ | with_reducible refine kumRefused_kept ?_
    | with_reducible refine kReply_kept ?_ | with_reducible refine closeJoint_kept ?_
    | with_reducible refine commitRecord_kept ?_ | with_reducible refine answerSigns_kept ?_ | split

theorem jointMismatch_kept {a0 : State} {a1 : Nat} (h0 : Kept q n a0) : Kept q n (jointMismatch a0 a1) := by
  unfold jointMismatch
  repeat' first
    | with_reducible assumption | with_reducible refine raiseFabric_kept ?_

theorem prepareRules_kept {a0 : State} {a1 : Joint} (h0 : Kept q n a0) : Kept q n (prepareRules a0 a1) := by
  unfold prepareRules
  repeat' first
    | with_reducible assumption | with_reducible refine kept_ite ?_ ?_ | split | with_reducible refine kept_lit ?_ rfl rfl rfl

theorem passItems_kept {p : Pass} {its : List ItemOut} (h : Kept q n p.s) : Kept q n (passItems p its).s := by
  unfold passItems
  split
  · exact h
  · split <;> exact h

theorem passKum_kept {p : Pass} {data : Bytes} (h : Kept q n p.s) : Kept q n (passKum p data).s := by
  unfold passKum
  split
  · exact h
  · split
    · exact h
    · split
      · exact kept_of_snd (by assumption) (controllerDraws_kept h)
      · split
        · exact kept_of_mid (by assumption) (checkItems_kept (setKumCounter_kept (kept_of_snd (by assumption) (controllerDraws_kept h))))
        · exact passItems_kept
            (kept_of_mid (by assumption) (checkItems_kept (setKumCounter_kept (kept_of_snd (by assumption) (controllerDraws_kept h)))))

theorem passRec_kept {c0 c1 : Cfg} {routes : Bool} {j : Joint} {p : Pass} {r : JRec} (h : Kept q n p.s) :
    Kept q n (passRec c0 c1 routes j p r).s := by
  unfold passRec
  split
  · exact h
  · split
    · exact passKum_kept h
    · split
      · extract_lets st
        split
        · exact stageRefused_kept h
        · exact passItems_kept h
      · exact h

theorem commitPass_kept {s : State} {j : Joint} (h : Kept q n s) : Kept q n (commitPass s j).s := by
  unfold commitPass
  split
  · exact h
  · split
    · exact h
    · dsimp only
      generalize lastWrites j.recs = rs
      have : ∀ (c0 c1 : Cfg) (b : Bool) (rs : List JRec) (p : Pass), Kept q n p.s → Kept q n (rs.foldl (passRec c0 c1 b j) p).s := by
        intro c0 c1 b rs
        induction rs with
        | nil => exact fun p hp => hp
        | cons r rs ih => exact fun p hp => ih _ (passRec_kept hp)
      exact this _ _ _ rs _ h

theorem beginCommit_kept {a0 : State} {a1 : Nat} {a2 : KHdr} (h0 : Kept q n a0) : Kept q n (beginCommit a0 a1 a2) := by
  unfold beginCommit
  dsimp only
  refine kept_ite (declineCommit_kept h0) (kept_ite (declineCommit_kept h0) ?_)
  have h := modJoint_kept (a1 := a1) (a2 := fun j => { j with commit := some a2 }) h0
  split
  · exact failCommit_kept (jointMismatch_kept h)
  · refine kept_ite (failCommit_kept (commitPass_kept h)) (kept_ite (failCommit_kept h) ?_)
    exact kept_ite (prepareRules_kept (queueCommit_kept h)) (modJoint_kept (prepareRules_kept (queueCommit_kept h)))

theorem flashFailed_kept {a0 : State} (h0 : Kept q n a0) : Kept q n (flashFailed a0) := by
  unfold flashFailed
  repeat' first
    | with_reducible assumption | with_reducible refine bump_kept ?_

theorem recoveryCommit_kept {a0 : State} {a1 : Nat} {a2 : KHdr} (h0 : Kept q n a0) : Kept q n (recoveryCommit a0 a1 a2) := by
  unfold recoveryCommit
  repeat' first
    | with_reducible assumption | with_reducible refine noteMark_kept ?_ | with_reducible refine kReply_kept ?_
    | with_reducible refine internalReset_kept ?_ | with_reducible refine closeJoint_kept ?_
    | with_reducible refine kept_ite ?_ ?_ | split | with_reducible refine kept_lit ?_ rfl rfl rfl

theorem jointCommits_kept {a0 : State} {a1 : KHdr} (h0 : Kept q n a0) : Kept q n (jointCommits a0 a1) := by
  unfold jointCommits
  repeat' first
    | with_reducible assumption | with_reducible refine kallek_kept ?_ ?_ | with_reducible refine kReply_kept ?_
    | with_reducible refine touch_kept ?_ | with_reducible refine recoveryCommit_kept ?_
    | with_reducible refine beginCommit_kept ?_ | with_reducible refine modJoint_kept ?_ | with_reducible refine kept_ite ?_ ?_
    | intro _ | split

theorem prepareDone_kept {a0 : State} {a1 : Nat} {a2 : Bool} (h0 : Kept q n a0) : Kept q n (prepareDone a0 a1 a2) := by
  unfold prepareDone
  repeat' first
    | with_reducible assumption | with_reducible refine modJoint_kept ?_ | with_reducible refine appendCfgLog_kept ?_
    | with_reducible refine flashFailed_kept ?_ | with_reducible refine failCommit_kept ?_
    | with_reducible refine kept_ite ?_ ?_ | split | with_reducible refine kept_lit ?_ rfl rfl rfl

theorem signVerified_kept {a0 : State} {a1 : Nat} (h0 : Kept q n a0) : Kept q n (signVerified a0 a1) := by
  unfold signVerified
  repeat' first
    | with_reducible assumption | with_reducible refine setJoint_kept ?_ | with_reducible refine kReply_kept ?_
    | with_reducible refine beginCommit_kept ?_ | with_reducible refine kept_ite ?_ ?_ | split
    | with_reducible refine kept_lit ?_ rfl rfl rfl

end Sys2Proof.Machine
end

