-- ==== Sys2Proof/Laws/KeptCut.lean ====
section
/-! SUPPORT. What no command breaks (`Kept`): cuts, access control and flash logs. -/

namespace Sys2Proof.Machine

open Sys2Proof

variable {q : List Instr} {n : Nat}

theorem actInst_kept {a0 : State} {a1 : Nat} {a2 : Nat} {a3 : Nat} (h0 : Kept q n a0) : Kept q n (actInst a0 a1 a2 a3) := by
  unfold actInst
  repeat' first
    | with_reducible assumption | with_reducible refine requestReset_kept ?_ | with_reducible refine writeFreeze_kept ?_
    | with_reducible refine kept_modInst ?_ _ ?_ | intro _ | split | with_reducible refine instOk_lit ?_

theorem clearCapture_kept {a0 : State} (h0 : Kept q n a0) : Kept q n (clearCapture a0) := by
  unfold clearCapture
  repeat' first
    | with_reducible assumption | with_reducible refine kept_lit ?_ rfl rfl rfl

theorem resetCfgLog_kept {a0 : State} (h0 : Kept q n a0) : Kept q n (resetCfgLog a0) := by
  unfold resetCfgLog
  repeat' first
    | with_reducible assumption | with_reducible refine freshCfgLog_kept ?_ | with_reducible refine kept_ite ?_ ?_
    | with_reducible refine kept_lit ?_ rfl rfl rfl

theorem requestKat_kept {a0 : State} {a1 : Nat} (h0 : Kept q n a0) : Kept q n (requestKat a0 a1) := by
  unfold requestKat
  repeat' first
    | with_reducible assumption | with_reducible refine closeBay_kept ?_ | with_reducible refine kept_ite ?_ ?_
    | with_reducible refine kept_lit ?_ rfl rfl rfl

theorem writeCapture_kept {a0 : State} {a1 : Nat} (h0 : Kept q n a0) : Kept q n (writeCapture a0 a1) := by
  unfold writeCapture
  repeat' first
    | with_reducible assumption | with_reducible refine modChan_kept ?_ | with_reducible refine checkConditioner_kept ?_
    | with_reducible refine kept_ite ?_ ?_ | split | with_reducible refine kept_lit ?_ rfl rfl rfl

theorem resetJournal_kept {a0 : State} (h0 : Kept q n a0) : Kept q n (resetJournal a0) := by
  unfold resetJournal
  repeat' first
    | with_reducible assumption | with_reducible refine snapshotJournal_kept ?_ | with_reducible refine kept_ite ?_ ?_
    | with_reducible refine kept_lit ?_ rfl rfl rfl

theorem resetKeyLog_kept {a0 : State} (h0 : Kept q n a0) : Kept q n (resetKeyLog a0) := by
  unfold resetKeyLog
  repeat' first
    | with_reducible assumption | with_reducible refine newKeyLog_kept ?_ | with_reducible refine kept_ite ?_ ?_
    | with_reducible refine kept_lit ?_ rfl rfl rfl

theorem trainHeads_kept {a0 : State} (h0 : Kept q n a0) : Kept q n (trainHeads a0) := by
  unfold trainHeads
  repeat' first
    | with_reducible assumption | with_reducible refine kept_each _ ?_ ?_ | with_reducible refine modHead_kept ?_
    | with_reducible refine kept_ite ?_ ?_ | intro _

theorem applySplit_kept {a0 : State} (h0 : Kept q n a0) : Kept q n (applySplit a0) := by
  unfold applySplit
  repeat' first
    | with_reducible assumption | with_reducible refine trainHeads_kept ?_ | with_reducible refine kept_ite ?_ ?_
    | with_reducible refine kept_lit ?_ rfl rfl rfl

theorem clearEvents_kept {a0 : State} {a1 : Nat} (h0 : Kept q n a0) : Kept q n (clearEvents a0 a1) := by
  unfold clearEvents
  repeat' first
    | with_reducible assumption | with_reducible refine record_kept ?_ | with_reducible refine kept_lit ?_ rfl rfl rfl

theorem act_kept {a0 : State} {a1 : Nat} {a2 : Nat} {a3 : Joint} {a4 : JRec} (h0 : Kept q n a0) : Kept q n (act a0 a1 a2 a3
    a4) := by
  unfold act
  repeat' first
    | with_reducible assumption | with_reducible refine actInst_kept ?_ | with_reducible refine requestTest_kept ?_
    | with_reducible refine clearCapture_kept ?_ | with_reducible refine resetCfgLog_kept ?_
    | with_reducible refine alarmAck_kept ?_ | with_reducible refine requestKat_kept ?_
    | with_reducible refine writeCapture_kept ?_ | with_reducible refine resetJournal_kept ?_
    | with_reducible refine resetKeyLog_kept ?_ | with_reducible refine applySplit_kept ?_
    | with_reducible refine startTransition_kept ?_ | with_reducible refine startChallenge_kept ?_
    | with_reducible refine enterDebug_kept ?_ | with_reducible refine stageManifest_kept ?_
    | with_reducible refine setSource_kept ?_ | with_reducible refine commitActivation_kept ?_
    | with_reducible refine clearEvents_kept ?_ | with_reducible refine openWindow_kept ?_
    | with_reducible refine kept_ite ?_ ?_ | split | with_reducible refine kept_lit ?_ rfl rfl rfl

theorem backupApplies_kept {a0 : State} (h0 : Kept q n a0) : Kept q n (backupApplies a0) := by
  unfold backupApplies
  repeat' first
    | with_reducible assumption | with_reducible refine kept_ite ?_ ?_ | with_reducible refine kept_lit ?_ rfl rfl rfl

theorem switchRules_kept {a0 : State} (h0 : Kept q n a0) : Kept q n (switchRules a0) := by
  unfold switchRules
  repeat' first
    | with_reducible assumption | with_reducible refine kept_lit ?_ rfl rfl rfl

theorem commitReply_kept {a0 : State} {a1 : State} {a2 : KHdr} (h0 : Kept q n a0) (h1 : Kept q n a1) : Kept q n (commitReply
    a0 a1 a2) := by
  unfold commitReply
  repeat' first
    | with_reducible assumption | with_reducible refine switchRules_kept ?_ | with_reducible refine kReply_kept ?_
    | with_reducible refine kept_ite ?_ ?_ | with_reducible refine kept_lit ?_ rfl rfl rfl

theorem cutDurable_kept {a0 : State} (h0 : Kept q n a0) : Kept q n (cutDurable a0) := by
  unfold cutDurable
  repeat' first
    | with_reducible assumption | with_reducible refine appendCfgLog_kept ?_ | with_reducible refine kept_each _ ?_ ?_
    | with_reducible refine modJoint_kept ?_ | with_reducible refine kept_ite ?_ ?_ | intro _ | split
    | with_reducible refine kept_lit ?_ rfl rfl rfl

theorem orphanTokens_kept {a0 : State} {a1 : Nat} (h0 : Kept q n a0) : Kept q n (orphanTokens a0 a1) := by
  unfold orphanTokens
  repeat' first
    | with_reducible assumption | with_reducible refine kept_lit ?_ rfl rfl rfl

theorem removeSlots_kept {a0 : State} {a1 : Nat} {a2 : Nat} (h0 : Kept q n a0) : Kept q n (removeSlots a0 a1 a2) := by
  unfold removeSlots
  repeat' first
    | with_reducible assumption | with_reducible refine kept_each _ ?_ ?_ | with_reducible refine kept_modInst ?_ _ ?_
    | with_reducible refine answerHeld_kept ?_ | with_reducible refine setSlot_kept ?_ | with_reducible refine kept_ite ?_ ?_
    | intro _ | with_reducible refine instOk_lit ?_

theorem keptInst_kept {a0 : State} {a1 : Cfg} {a2 : Cfg} {a3 : Nat} (h0 : Kept q n a0) : Kept q n (keptInst a0 a1 a2 a3) := by
  unfold keptInst
  refine kept_modInst (kept_ite (removeSlots_kept (kept_ite (answerIdle_kept h0) h0)) (kept_ite (answerIdle_kept h0) h0)) _ (fun x hx => ?_)
  refine refilled_kept ?_
  split
  · refine ⟨?_, ?_⟩
    · split <;> exact hx.1
    · split <;> exact Memory.wf_filter _ hx.2
  · split <;> exact hx

theorem cutInst_kept {a0 : State} {a1 : Cfg} {a2 : Cfg} {a3 : Nat} (h0 : Kept q n a0) : Kept q n (cutInst a0 a1 a2 a3) := by
  unfold cutInst
  repeat' first
    | with_reducible assumption | exact instOk_default | with_reducible refine kept_setInst ?_ _ ?_
    | with_reducible refine orphanTokens_kept ?_ | with_reducible refine answerIdle_kept ?_
    | with_reducible refine kept_modInst ?_ _ ?_ | with_reducible refine keptInst_kept ?_ | with_reducible refine kept_ite ?_ ?_
    | intro _ | with_reducible refine instOk_lit_st ?_ (by decide)

theorem ringCut_kept {a0 : State} {a1 : Nat} (h0 : Kept q n a0) : Kept q n (ringCut a0 a1) := by
  unfold ringCut
  repeat' first
    | with_reducible assumption | with_reducible refine kept_ite ?_ ?_ | with_reducible refine kept_lit ?_ rfl rfl rfl

theorem endJoint_kept {a0 : State} {a1 : Nat} {a2 : Bool} (h0 : Kept q n a0) : Kept q n (endJoint a0 a1 a2) := by
  unfold endJoint
  repeat' first
    | with_reducible assumption | with_reducible refine modJoint_kept ?_ | with_reducible refine closeJoint_kept ?_
    | with_reducible refine answerSigns_kept ?_

theorem cutJoint_kept {a0 : State} {a1 : State} {a2 : Nat} {a3 : Nat} {a4 : Joint} {a5 : KHdr} (h0 : Kept q n a0) (h1 : Kept
    q n a1) : Kept q n (cutJoint a0 a1 a2 a3 a4 a5) := by
  unfold cutJoint
  repeat' first
    | with_reducible assumption | with_reducible refine ringCut_kept ?_ | with_reducible refine kept_each _ ?_ ?_
    | with_reducible refine act_kept ?_ | with_reducible refine commitRecord_kept ?_ | with_reducible refine tryBegin_kept ?_
    | with_reducible refine commitReply_kept ?_ ?_ | with_reducible refine endJoint_kept ?_ | intro _

theorem refillAll_kept {a0 : State} (h0 : Kept q n a0) : Kept q n (refillAll a0) := by
  unfold refillAll
  repeat' first
    | with_reducible assumption | with_reducible refine kept_each _ ?_ ?_ | with_reducible refine refill_kept ?_ | intro _
    | with_reducible refine kept_lit ?_ rfl rfl rfl

theorem holdCutoffs_kept {a0 : State} {a1 : Cfg} (h0 : Kept q n a0) : Kept q n (holdCutoffs a0 a1) := by
  unfold holdCutoffs
  repeat' first
    | with_reducible assumption | with_reducible refine kept_each _ ?_ ?_ | with_reducible refine modChan_kept ?_
    | with_reducible refine kept_ite ?_ ?_ | intro _

theorem randomSettings_kept {a0 : State} {a1 : Cfg} (h0 : Kept q n a0) : Kept q n (randomSettings a0 a1) := by
  unfold randomSettings
  repeat' first
    | with_reducible assumption | with_reducible refine failuresAlarm_kept ?_ | with_reducible refine holdCutoffs_kept ?_
    | with_reducible refine kept_each _ ?_ ?_ | with_reducible refine askReseed_kept ?_
    | with_reducible refine restartConditioner_kept ?_ | with_reducible refine checkConditioner_kept ?_
    | with_reducible refine kept_ite ?_ ?_ | intro _

theorem holdBuckets_kept {a0 : State} {a1 : Cfg} (h0 : Kept q n a0) : Kept q n (holdBuckets a0 a1) := by
  unfold holdBuckets
  repeat' first
    | with_reducible assumption | with_reducible refine kept_lit ?_ rfl rfl rfl

theorem moveCut_kept {a0 : State} {a1 : List ItemOut} {a2 : Bool} {a3 : State} {a4 : JRec} (h0 : Kept q n a0) (h3 : Kept q n
    a3) : Kept q n (moveCut a0 a1 a2 a3 a4) := by
  unfold moveCut
  repeat' first
    | with_reducible assumption | with_reducible refine saveCut_kept ?_ ?_ | with_reducible refine trial_kept ?_
    | with_reducible refine restoreCut_kept ?_ | with_reducible refine kept_ite ?_ ?_ | split

theorem cutState_kept {a0 : State} {a1 : Joint} {a2 : List ItemOut} {y1} (h0 : Kept q n a0) (e : (cutState a0 a1 a2) = some
    y1) : Kept q n y1 := by
  unfold cutState at e
  dsimp only at e
  split at e
  · cases e
  · simp only [Option.map_eq_some_iff] at e
    obtain ⟨w, hw, rfl⟩ := e
    refine freeShelf_kept (bumpBy_kept (kept_each _ (applyItems_kept (randomSettings_kept (holdBuckets_kept (kept_each _
      (writeRoutes_kept (kept_lit (advanceEpoch_kept (refillAll_kept h0)) rfl rfl rfl)) (fun s x h => cutInst_kept h)))) hw) ?_))
    intro s x h
    exact moveCut_kept h0 h

theorem digestPublish_kept {a0 : State} (h0 : Kept q n a0) : Kept q n (digestPublish a0) := by
  unfold digestPublish
  repeat' first
    | with_reducible assumption | with_reducible refine kept_ite ?_ ?_ | with_reducible refine kept_lit ?_ rfl rfl rfl

theorem islandSwitches_kept {a0 : State} {a1 : Nat} (h0 : Kept q n a0) : Kept q n (islandSwitches a0 a1) := by
  unfold islandSwitches
  repeat' first
    | with_reducible assumption | with_reducible refine kept_ite ?_ ?_ | with_reducible refine kept_lit ?_ rfl rfl rfl

theorem jointCuts_kept {a0 : State} {a1 : Nat} {a2 : Nat} (h0 : Kept q n a0) : Kept q n (jointCuts a0 a1 a2) := by
  unfold jointCuts
  dsimp only
  split
  · refine kept_ite h0 ?_
    split
    · exact failCommit_kept (jointMismatch_kept h0)
    · refine kept_ite (failCommit_kept (commitPass_kept h0)) (kept_ite h0 ?_)
      split
      · exact failCommit_kept (commitPass_kept h0)
      · exact cutJoint_kept (commitPass_kept h0) (cutState_kept (commitPass_kept h0) (by assumption))
  · exact h0

theorem plumbIsland_kept {a0 : State} {a1 : Nat} (h0 : Kept q n a0) : Kept q n (plumbIsland a0 a1) := by
  unfold plumbIsland
  repeat' first
    | with_reducible assumption | with_reducible refine raiseMonitor_kept ?_ | with_reducible refine bump_kept ?_
    | with_reducible refine kept_ite ?_ ?_ | with_reducible refine kept_lit ?_ rfl rfl rfl

theorem plumb_kept {a0 : State} (h0 : Kept q n a0) : Kept q n (plumb a0) := by
  unfold plumb
  repeat' first
    | with_reducible assumption | with_reducible refine bump_kept ?_ | with_reducible refine kept_each _ ?_ ?_
    | with_reducible refine plumbIsland_kept ?_ | with_reducible refine kept_ite ?_ ?_ | intro _
    | with_reducible refine kept_lit ?_ rfl rfl rfl

theorem sweepEnds_kept {a0 : State} {a1 : Nat} {a2 : Bool} (h0 : Kept q n a0) : Kept q n (sweepEnds a0 a1 a2) := by
  unfold sweepEnds
  repeat' first
    | with_reducible assumption | with_reducible refine kept_ite ?_ ?_ | with_reducible refine kept_lit ?_ rfl rfl rfl

theorem debugData_kept {a0 : Nat} {a1 : Nat} {a2 : State} (h2 : Kept q n a2) : Kept q n (debugData a0 a1 a2).2 := by
  induction a1 generalizing a0 a2 with
  | zero => exact h2
  | succ m ih =>
    simp only [debugData]
    refine ih ?_
    split
    · exact h2
    · exact kept_lit h2 rfl rfl rfl

theorem storeWrite_kept {a0 : State} {a1 : Nat} {a2 : Nat} {a3 : Nat} (h0 : Kept q n a0) : Kept q n (storeWrite a0 a1 a2 a3)
    := by
  unfold storeWrite
  repeat' first
    | with_reducible assumption | with_reducible refine freeBytes_kept ?_ | with_reducible refine kept_of_snd (by assumption) ?_
    | split | with_reducible refine kept_lit ?_ rfl rfl rfl

theorem debugPart_kept {a0 : State} {a1 : Bool} {a2 : Nat} {a3 : Nat} (h0 : Kept q n a0) : Kept q n (debugPart a0 a1 a2
    a3).2.2 := by
  unfold debugPart
  repeat' first
    | with_reducible assumption | with_reducible refine violation_kept ?_ | with_reducible refine debugData_kept ?_
    | with_reducible refine storeWrite_kept ?_ | with_reducible refine kept_ite_last ?_ ?_ | split

theorem debugAccess_kept {a0 : State} {a1 : Instr} {a2 : Bool} {a3 : Nat} {a4 : Nat} (h0 : Kept q n a0) : Kept q n
    (debugAccess a0 a1 a2 a3 a4) := by
  unfold debugAccess
  repeat' first
    | with_reducible assumption | with_reducible refine stall_kept ?_ | with_reducible refine debugPart_kept ?_
    | with_reducible refine emit_kept ?_ | with_reducible refine kept_ite ?_ ?_ | with_reducible refine kept_ite_last ?_ ?_
    | split | with_reducible refine kept_lit ?_ rfl rfl rfl

theorem drainEnds_kept {a0 : State} (h0 : Kept q n a0) : Kept q n (drainEnds a0) := by
  unfold drainEnds
  repeat' first
    | with_reducible assumption | with_reducible refine prepareRules_kept ?_ | with_reducible refine kept_each _ ?_ ?_
    | with_reducible refine kReply_kept ?_ | with_reducible refine kept_ite ?_ ?_ | intro _ | split
    | with_reducible refine kept_lit ?_ rfl rfl rfl

theorem unboundAccess_kept {a0 : State} {a1 : Instr} {a2 : Nat} {a3 : Nat} {a4 : Bool} {a5 : Nat} (h0 : Kept q n a0) : Kept q
    n (unboundAccess a0 a1 a2 a3 a4 a5) := by
  unfold unboundAccess
  repeat' first
    | with_reducible assumption | with_reducible refine stall_kept ?_ | with_reducible refine answerPoison_kept ?_
    | with_reducible refine answerDone_kept ?_ | with_reducible refine unclaimed_kept ?_ | with_reducible refine deny_kept ?_
    | with_reducible refine kept_ite ?_ ?_

theorem beginFlush_kept {a0 : State} (h0 : Kept q n a0) : Kept q n (beginFlush a0) := by
  unfold beginFlush
  repeat' first
    | with_reducible assumption | with_reducible refine kept_ite ?_ ?_ | with_reducible refine kept_lit ?_ rfl rfl rfl

theorem clearFrame_kept {a0 : State} {a1 : Nat} (h0 : Kept q n a0) : Kept q n (clearFrame a0 a1) := by
  unfold clearFrame
  repeat' first
    | with_reducible assumption | with_reducible refine kept_each _ ?_ ?_ | with_reducible refine setBook_kept ?_
    | with_reducible refine setDma_kept ?_ | intro _

theorem compactKeys_kept {a0 : State} (h0 : Kept q n a0) : Kept q n (compactKeys a0) := by
  unfold compactKeys
  repeat' first
    | with_reducible assumption | with_reducible refine snapshotKeys_kept ?_ | with_reducible refine kept_ite ?_ ?_

theorem snapshotDue_kept {a0 : State} (h0 : Kept q n a0) : Kept q n (snapshotDue a0) := by
  unfold snapshotDue
  repeat' first
    | with_reducible assumption | with_reducible refine snapshotJournal_kept ?_ | with_reducible refine kept_ite ?_ ?_
    | with_reducible refine kept_lit ?_ rfl rfl rfl

theorem retrySegment_kept {a0 : State} {a1 : Nat} {a2 : Nat} {a3 : State → State} {a4 : State → State} (h0 : Kept q n a0) (h3
    : ∀ z0, Kept q n z0 → Kept q n (a3 z0)) (h4 : ∀ z0, Kept q n z0 → Kept q n (a4 z0)) : Kept q n (retrySegment a0 a1 a2 a3
    a4) := by
  unfold retrySegment
  repeat' first
    | with_reducible assumption | with_reducible refine h3 _ ?_ | with_reducible refine h4 _ ?_
    | with_reducible refine flashFailed_kept ?_ | with_reducible refine record_kept ?_ | with_reducible refine kept_ite ?_ ?_

theorem flushDone_kept {a0 : State} {a1 : Bool} (h0 : Kept q n a0) : Kept q n (flushDone a0 a1) := by
  unfold flushDone
  repeat' first
    | with_reducible assumption | with_reducible refine snapshotDue_kept ?_ | with_reducible refine bump_kept ?_
    | with_reducible refine retrySegment_kept ?_ ?_ ?_ | intro _ | split | with_reducible refine kept_lit ?_ rfl rfl rfl

theorem flushRetry_kept {a0 : State} (h0 : Kept q n a0) : Kept q n (flushRetry a0) := by
  unfold flushRetry
  repeat' first
    | with_reducible assumption | with_reducible refine beginFlush_kept ?_ | with_reducible refine kept_ite ?_ ?_
    | with_reducible refine kept_lit ?_ rfl rfl rfl

theorem noteLoad_kept {a0 : State} {a1 : Nat} (h0 : Kept q n a0) : Kept q n (noteLoad a0 a1) := by
  unfold noteLoad
  repeat' first
    | with_reducible assumption | with_reducible refine kept_each _ ?_ ?_ | with_reducible refine modHead_kept ?_ | intro _

theorem frameEnds_kept {a0 : State} {a1 : Nat} (h0 : Kept q n a0) : Kept q n (frameEnds a0 a1) := by
  unfold frameEnds
  repeat' first
    | with_reducible assumption | with_reducible refine clearFrame_kept ?_ | with_reducible refine noteLoad_kept ?_
    | with_reducible refine kept_each _ ?_ ?_ | with_reducible refine deviceFrame_kept ?_ | intro _

theorem framesEnd_kept {a0 : State} (h0 : Kept q n a0) : Kept q n (framesEnd a0) := by
  unfold framesEnd
  repeat' first
    | with_reducible assumption | with_reducible refine kept_each _ ?_ ?_ | with_reducible refine frameEnds_kept ?_
    | with_reducible refine bookTests_kept ?_ | intro _ | with_reducible refine kept_lit ?_ rfl rfl rfl

theorem keyLogDone_kept {a0 : State} {a1 : Bool} (h0 : Kept q n a0) : Kept q n (keyLogDone a0 a1) := by
  unfold keyLogDone
  repeat' first
    | with_reducible assumption | with_reducible refine compactKeys_kept ?_ | with_reducible refine retrySegment_kept ?_ ?_ ?_
    | with_reducible refine kept_ite ?_ ?_ | intro _ | with_reducible refine kept_lit ?_ rfl rfl rfl

theorem shutdownDone_kept {a0 : State} (h0 : Kept q n a0) : Kept q n (shutdownDone a0) := by
  unfold shutdownDone
  repeat' first
    | with_reducible assumption | with_reducible refine record_kept ?_ | with_reducible refine kept_ite ?_ ?_
    | with_reducible refine kept_lit ?_ rfl rfl rfl

end Sys2Proof.Machine
end

