-- ==== Sys2Proof/Laws/KeptStart.lean ====
section
/-! SUPPORT. What no command breaks (`Kept`): the start, the link and the return of clocks. -/

namespace Sys2Proof.Machine

open Sys2Proof

variable {q : List Instr} {n : Nat}

theorem emptyPending_kept {a0 : State} {a1 : Nat} {a2 : Nat} (h0 : Kept q n a0) : Kept q n (emptyPending a0 a1 a2) := by
  unfold emptyPending
  repeat' first
    | with_reducible assumption | with_reducible refine kept_lit ?_ rfl rfl rfl

theorem applyPending_kept {a0 : State} {a1 : Map Slot} (h0 : Kept q n a0) : Kept q n (applyPending a0 a1) := by
  unfold applyPending
  repeat' first
    | with_reducible assumption | with_reducible refine kept_each _ ?_ ?_ | with_reducible refine record_kept ?_
    | with_reducible refine emptyPending_kept ?_ | with_reducible refine kept_ite ?_ ?_ | intro _
    | with_reducible refine kept_lit ?_ rfl rfl rfl

theorem atBursts_kept {a0 : State} {a1 : Nat} {a2 : Inst} (h0 : Kept q n a0) (h2 : InstOk a2) : InstOk (atBursts a0 a1 a2) := by
  unfold atBursts
  repeat' first
    | with_reducible assumption | with_reducible refine instOk_lit ?_

theorem bayTested_kept {a0 : State} {a1 : Nat} (h0 : Kept q n a0) : Kept q n (bayTested a0 a1) := by
  unfold bayTested
  repeat' first
    | with_reducible assumption | with_reducible refine kept_each _ ?_ ?_ | with_reducible refine leaveTest_kept ?_
    | with_reducible refine enterTest_kept ?_ | with_reducible refine kept_modBay ?_ _ ?_ | with_reducible refine kept_ite ?_ ?_
    | intro _ | split | with_reducible refine bayOk_lit ?_

theorem bringUp_kept {a0 : State} {a1 : Nat} {a2 : Nat} (h0 : Kept q n a0) : Kept q n (bringUp a0 a1 a2) := by
  unfold bringUp
  repeat' first
    | with_reducible assumption | exact bayOk_default | with_reducible refine kept_modBay ?_ _ ?_
    | with_reducible refine clockEvent_kept ?_ | with_reducible refine holdClock_kept ?_ | with_reducible refine kept_ite ?_ ?_
    | intro _ | with_reducible refine bayOk_lit_st (by decide)

theorem clearBacked_kept {a0 : State} {a1 : List Nat} (h0 : Kept q n a0) : Kept q n (clearBacked a0 a1) := by
  unfold clearBacked
  repeat' first
    | with_reducible assumption | with_reducible refine kept_each _ ?_ ?_ | with_reducible refine record_kept ?_ | intro _
    | with_reducible refine kept_lit ?_ rfl rfl rfl

theorem find6_le (p : Nat → Bool) : ((upTo 6).find? p).getD 5 ≤ 5 := by
  cases h : (upTo 6).find? p with
  | none => simp
  | some t =>
    have hm : t ∈ [0, 1, 2, 3, 4, 5] := List.mem_of_find?_eq_some h
    simp at hm
    simp only [Option.getD_some]
    omega

theorem lcVote_le (w : FuseRow) : lcVote w ≤ 5 := find6_le _

theorem startVote_kept {a0 : State} (h0 : Kept q n a0) : Kept q n (startVote a0) := by
  unfold startVote
  refine kept_ite (stopStart_kept ?_) ?_ <;> exact kept_lit_life h0 (lcVote_le _) h0.legal.otp rfl

theorem endTransition_kept {a0 : State} {a1 : Nat} {a2 : List (Nat × Nat)} (h0 : Kept q n a0) : Kept q n (endTransition a0 a1
    a2) := by
  unfold endTransition
  have := burnSequence_kept (a1 := a1) (a2 := a2) h0
  exact kept_lit_life this (lcVote_le _) this.legal.otp rfl

theorem nextStep_kept {a0 : State} {a1 : Nat} (h0 : Kept q n a0) : Kept q n (nextStep a0 a1) := by
  unfold nextStep
  have : Kept q n { a0 with power := { a0.power with step := min 12 (a0.power.step + 1), stepUs := a0.power.stepUs ++ [a1] } } :=
    kept_lit_step h0 rfl rfl (Nat.min_le_left _ _)
  exact kept_ite (tryBegin_kept this) this

theorem enrolAgain_kept {a0 : State} {a1 : EnvAnswer} {a2 : List NetReading} (h0 : Kept q n a0) : Kept q n (enrolAgain a0 a1
    a2) := by
  unfold enrolAgain
  repeat' first
    | with_reducible assumption | with_reducible refine enrol_kept ?_ | with_reducible refine nextStep_kept ?_
    | with_reducible refine kept_ite ?_ ?_ | with_reducible refine kept_lit ?_ rfl rfl rfl

theorem eraseLogs_kept {a0 : State} (h0 : Kept q n a0) : Kept q n (eraseLogs a0) := by
  unfold eraseLogs
  repeat' first
    | with_reducible assumption | with_reducible refine kept_lit ?_ rfl rfl rfl

theorem failEngine_kept {a0 : State} {a1 : Nat} {a2 : Nat} (h0 : Kept q n a0) : Kept q n (failEngine a0 a1 a2) := by
  unfold failEngine
  repeat' first
    | with_reducible assumption | with_reducible refine record_kept ?_ | with_reducible refine kept_modBay ?_ _ ?_ | intro _
    | with_reducible refine bayOk_lit ?_

theorem finishSwaps_kept {a0 : State} (h0 : Kept q n a0) : Kept q n (finishSwaps a0) := by
  unfold finishSwaps
  repeat' first
    | with_reducible assumption | with_reducible refine raiseFloor_kept ?_ | with_reducible refine clearLoaderMarks_kept ?_
    | with_reducible refine record_kept ?_ | with_reducible refine kept_ite ?_ ?_ | split
    | with_reducible refine kept_lit ?_ rfl rfl rfl

theorem fusesDone_kept {a0 : State} {a1 : List (Nat × Nat)} (h0 : Kept q n a0) : Kept q n (fusesDone a0 a1) := by
  unfold fusesDone
  repeat' first
    | with_reducible assumption | with_reducible refine internalReset_kept ?_ | with_reducible refine endTransition_kept ?_
    | with_reducible refine kept_ite ?_ ?_ | split

theorem installCfg_kept {a0 : State} {a1 : Cfg} {a2 : Nat} (h0 : Kept q n a0) : Kept q n (installCfg a0 a1 a2) := by
  unfold installCfg
  repeat' first
    | with_reducible assumption | with_reducible refine kept_lit ?_ rfl rfl rfl

theorem latchFrom_kept {a0 : State} {a1 : Nat} {a2 : Nat} (h0 : Kept q n a0) : Kept q n (latchFrom a0 a1 a2) := by
  unfold latchFrom
  repeat' first
    | with_reducible assumption | with_reducible refine kept_each _ ?_ ?_ | with_reducible refine modMon_kept ?_
    | with_reducible refine kept_ite ?_ ?_ | intro _ | split | with_reducible refine kept_lit ?_ rfl rfl rfl

theorem loadKeys_kept {a0 : State} (h0 : Kept q n a0) : Kept q n (loadKeys a0) := by
  unfold loadKeys
  repeat' first
    | with_reducible assumption | with_reducible refine applyPending_kept ?_ | with_reducible refine setCounter_kept ?_
    | with_reducible refine kept_lit ?_ rfl rfl rfl

theorem logRejected_kept {a0 : State} {a1 : Nat} {a2 : Nat} (h0 : Kept q n a0) : Kept q n (logRejected a0 a1 a2) := by
  unfold logRejected
  repeat' first
    | with_reducible assumption | with_reducible refine record_kept ?_

theorem nextEpoch_kept {a0 : State} (h0 : Kept q n a0) : Kept q n (nextEpoch a0) := by
  unfold nextEpoch
  repeat' first
    | with_reducible assumption | with_reducible refine cutDurable_kept ?_ | with_reducible refine setDevCounter_kept ?_ | split
    | with_reducible refine kept_lit ?_ rfl rfl rfl

theorem programBlocks_kept {a0 : State} {a1 : Bytes} {a2 : List (Nat × Nat)} (h0 : Kept q n a0) : Kept q n (programBlocks a0
    a1 a2) := by
  unfold programBlocks
  repeat' first
    | with_reducible assumption | with_reducible refine kept_lit ?_ rfl rfl rfl

theorem readJournal_kept {a0 : State} {a1 : StepEnv} (h0 : Kept q n a0) : Kept q n (readJournal a0 a1) := by
  unfold readJournal
  repeat' first
    | with_reducible assumption | split | with_reducible refine kept_lit ?_ rfl rfl rfl

theorem readKeyLog_kept {a0 : State} {a1 : StepEnv} (h0 : Kept q n a0) : Kept q n (readKeyLog a0 a1) := by
  unfold readKeyLog
  repeat' first
    | with_reducible assumption | split | with_reducible refine kept_lit ?_ rfl rfl rfl

theorem rebuildMark_kept {a0 : State} {a1 : Nat} (h0 : Kept q n a0) : Kept q n (rebuildMark a0 a1) := by
  unfold rebuildMark
  repeat' first
    | with_reducible assumption | with_reducible refine latchFrom_kept ?_ | with_reducible refine kept_each _ ?_ ?_ | intro _
    | with_reducible refine kept_lit ?_ rfl rfl rfl

theorem restoreCfgLog_kept {a0 : State} {a1 : Option Nat} (h0 : Kept q n a0) : Kept q n (restoreCfgLog a0 a1) := by
  unfold restoreCfgLog
  repeat' first
    | with_reducible assumption | with_reducible refine installCfg_kept ?_ | with_reducible refine randomSettings_kept ?_
    | with_reducible refine logRejected_kept ?_ | with_reducible refine setDevCounter_kept ?_
    | with_reducible refine nextEpoch_kept ?_ | with_reducible refine kept_ite ?_ ?_
    | with_reducible refine kept_lit ?_ rfl rfl rfl

theorem restoreInst_kept {a0 : State} {a1 : Nat} (h0 : Kept q n a0) : Kept q n (restoreInst a0 a1) := by
  unfold restoreInst
  refine kept_modInst h0 _ (fun x hx => atBursts_kept h0 ?_)
  split
  · exact hx
  · exact ⟨by simp, rfl⟩

theorem restoreInsts_kept {a0 : State} (h0 : Kept q n a0) : Kept q n (restoreInsts a0) := by
  unfold restoreInsts
  exact kept_each _ (kept_filterInsts h0 _) (fun s x h => restoreInst_kept h)

theorem restoreJournal_kept {a0 : State} (h0 : Kept q n a0) : Kept q n (restoreJournal a0) := by
  unfold restoreJournal
  repeat' first
    | with_reducible assumption | with_reducible refine logRejected_kept ?_ | with_reducible refine kept_ite ?_ ?_
    | with_reducible refine kept_lit ?_ rfl rfl rfl

theorem restoreKeys_kept {a0 : State} {a1 : StepEnv} (h0 : Kept q n a0) : Kept q n (restoreKeys a0 a1) := by
  unfold restoreKeys
  repeat' first
    | with_reducible assumption | with_reducible refine clearBacked_kept ?_ | with_reducible refine restoreJournal_kept ?_
    | with_reducible refine readKeyLog_kept ?_ | with_reducible refine readJournal_kept ?_
    | with_reducible refine freshLogs_kept ?_ | with_reducible refine loadKeys_kept ?_
    | with_reducible refine logRejected_kept ?_ | with_reducible refine kept_ite ?_ ?_
    | with_reducible refine kept_lit ?_ rfl rfl rfl

theorem resumeWrite_kept {a0 : State} {a1 : Option Nat} (h0 : Kept q n a0) : Kept q n (resumeWrite a0 a1).1 := by
  unfold resumeWrite
  dsimp only
  split
  · exact noteMark_kept (kept_lit (programBlocks_kept h0) rfl rfl rfl)
  · exact switchSlots_kept (programBlocks_kept h0)

theorem setRules_kept {a0 : State} (h0 : Kept q n a0) : Kept q n (setRules a0) := by
  unfold setRules
  repeat' first
    | with_reducible assumption | with_reducible refine kept_lit ?_ rfl rfl rfl

theorem startEnvelope_kept {a0 : State} {a1 : EnvAnswer} {a2 : List NetReading} (h0 : Kept q n a0) : Kept q n (startEnvelope
    a0 a1 a2) := by
  unfold startEnvelope
  repeat' first
    | with_reducible assumption | with_reducible refine authenticate_kept ?_ | with_reducible refine enrol_kept ?_
    | with_reducible refine stopStart_kept ?_ | with_reducible refine raiseIf_kept ?_
    | with_reducible refine readEnvelope_kept ?_ | with_reducible refine kept_ite ?_ ?_ | split
    | with_reducible refine kept_lit ?_ rfl rfl rfl

theorem stopImages_kept {a0 : State} (h0 : Kept q n a0) : Kept q n (stopImages a0) := by
  unfold stopImages
  repeat' first
    | with_reducible assumption | with_reducible refine stopStart_kept ?_ | with_reducible refine kept_lit ?_ rfl rfl rfl

theorem writeRelease_kept {a0 : State} {a1 : Bytes} {a2 : Option Nat} (h0 : Kept q n a0) : Kept q n (writeRelease a0 a1 a2).1
    := by
  unfold writeRelease
  repeat' first
    | with_reducible assumption | with_reducible refine programBlocks_kept ?_ | with_reducible refine kept_ite ?_ ?_
    | with_reducible refine kept_ite_fst ?_ ?_ | with_reducible refine kept_lit ?_ rfl rfl rfl

theorem startImages_kept {a0 : State} {a1 : StepEnv} (h0 : Kept q n a0) : Kept q n (startImages a0 a1) := by
  unfold startImages
  repeat' first
    | with_reducible assumption | with_reducible refine takeMark_kept ?_ | with_reducible refine stopImages_kept ?_
    | with_reducible refine resumeWrite_kept ?_ | with_reducible refine writeRelease_kept ?_
    | with_reducible refine kept_ite ?_ ?_ | with_reducible refine kept_ite_fst ?_ ?_
    | with_reducible refine kept_lit ?_ rfl rfl rfl

theorem startIslands_kept {a0 : State} {a1 : Nat} (h0 : Kept q n a0) : Kept q n (startIslands a0 a1) := by
  unfold startIslands
  repeat' first
    | with_reducible assumption | with_reducible refine drainQueue_kept ?_ | with_reducible refine finishSwaps_kept ?_
    | with_reducible refine kept_each _ ?_ ?_ | with_reducible refine loadPart_kept ?_ | with_reducible refine bringUp_kept ?_
    | with_reducible refine eraseLogs_kept ?_ | with_reducible refine enableRandom_kept ?_
    | with_reducible refine setRules_kept ?_ | with_reducible refine openDebug_kept ?_ | with_reducible refine kept_ite ?_ ?_
    | intro _ | with_reducible refine kept_lit ?_ rfl rfl rfl

theorem startRestore_kept {a0 : State} {a1 : StepEnv} (h0 : Kept q n a0) : Kept q n (startRestore a0 a1) := by
  unfold startRestore
  repeat' first
    | with_reducible assumption | with_reducible refine restoreKeys_kept ?_ | with_reducible refine restoreCfgLog_kept ?_

theorem startRom_kept {a0 : State} {a1 : StepEnv} (h0 : Kept q n a0) : Kept q n (startRom a0 a1) := by
  unfold startRom
  repeat' first
    | with_reducible assumption | with_reducible refine trainHeads_kept ?_ | with_reducible refine stopStart_kept ?_
    | with_reducible refine kept_ite ?_ ?_ | with_reducible refine kept_lit ?_ rfl rfl rfl

theorem startService_kept {a0 : State} (h0 : Kept q n a0) : Kept q n (startService a0) := by
  unfold startService
  repeat' first
    | with_reducible assumption | with_reducible refine restoreInsts_kept ?_ | with_reducible refine record_kept ?_
    | with_reducible refine kept_ite ?_ ?_ | with_reducible refine kept_lit ?_ rfl rfl rfl

theorem startTransitions_kept {a0 : State} {a1 : List (Nat × Nat)} (h0 : Kept q n a0) : Kept q n (startTransitions a0 a1) := by
  unfold startTransitions
  repeat' first
    | with_reducible assumption | with_reducible refine endTransition_kept ?_ | with_reducible refine beginTransition_kept ?_
    | with_reducible refine stopStart_kept ?_ | with_reducible refine kept_ite ?_ ?_ | split

theorem vaultCheck_kept {a0 : State} (h0 : Kept q n a0) : Kept q n (vaultCheck a0) := by
  unfold vaultCheck
  repeat' first
    | with_reducible assumption | with_reducible refine setIdentity_kept ?_ | with_reducible refine recordExempt_kept ?_
    | with_reducible refine kept_ite ?_ ?_ | with_reducible refine kept_lit ?_ rfl rfl rfl

theorem startVault_kept {a0 : State} (h0 : Kept q n a0) : Kept q n (startVault a0) := by
  unfold startVault
  repeat' first
    | with_reducible assumption | with_reducible refine vaultCheck_kept ?_ | with_reducible refine latchFrom_kept ?_
    | with_reducible refine kept_each _ ?_ ?_ | with_reducible refine rebuildMark_kept ?_ | intro _
    | with_reducible refine kept_lit ?_ rfl rfl rfl

theorem startTests_kept {a0 : State} {a1 : StepEnv} (h0 : Kept q n a0) : Kept q n (startTests a0 a1) := by
  unfold startTests
  repeat' first
    | with_reducible assumption | with_reducible refine kept_each _ ?_ ?_ | with_reducible refine bayTested_kept ?_
    | with_reducible refine failEngine_kept ?_ | with_reducible refine condKat_kept ?_
    | with_reducible refine drbgFailed_kept ?_ | intro _

theorem startStep_kept {a0 : State} {a1 : StepEnv} {a2 : Nat} (h0 : Kept q n a0) : Kept q n (startStep a0 a1 a2) := by
  unfold startStep
  repeat' first
    | with_reducible assumption | with_reducible refine startRom_kept ?_ | with_reducible refine startVote_kept ?_
    | with_reducible refine startTransitions_kept ?_ | with_reducible refine startEnvelope_kept ?_
    | with_reducible refine startVault_kept ?_ | with_reducible refine startImages_kept ?_
    | with_reducible refine startIslands_kept ?_ | with_reducible refine startTests_kept ?_
    | with_reducible refine startRestore_kept ?_ | with_reducible refine startService_kept ?_ | split

theorem stepDone_kept {a0 : State} {a1 : StepEnv} (h0 : Kept q n a0) : Kept q n (stepDone a0 a1) := by
  unfold stepDone
  repeat' first
    | with_reducible assumption | with_reducible refine startStep_kept ?_ | with_reducible refine nextStep_kept ?_
    | with_reducible refine kept_ite ?_ ?_

theorem onFm_kept {a0 : State} {a1 : State} (h0 : Kept q n a0) (h1 : Kept q n a1) : Kept q n (onFm a0 a1) := by
  unfold onFm
  repeat' first
    | with_reducible assumption | with_reducible refine emit_kept ?_ | with_reducible refine kept_ite ?_ ?_

theorem fmOk_kept {a0 : State} {a1 : Bytes} (h0 : Kept q n a0) : Kept q n (fmOk a0 a1) := by
  unfold fmOk
  repeat' first
    | with_reducible assumption | with_reducible refine emit_kept ?_

theorem allocate_kept {a0 : State} {a1 : Nat} {a2 : Nat} {a3 : Nat} (h0 : Kept q n a0) : Kept q n (allocate a0 a1 a2 a3) := by
  unfold allocate
  repeat' first
    | with_reducible assumption | with_reducible refine onFm_kept ?_ ?_ | with_reducible refine emit_kept ?_
    | with_reducible refine fmOk_kept ?_ | with_reducible refine modHead_kept ?_ | with_reducible refine kept_ite ?_ ?_

theorem answer_kept {a0 : State} {a1 : Transport} {a2 : String} {a3 : Bytes} (h0 : Kept q n a0) : Kept q n (answer a0 a1 a2
    a3) := by
  unfold answer
  repeat' first
    | with_reducible assumption | with_reducible refine kept_lit ?_ rfl rfl rfl

theorem certificate_kept {a0 : State} {a1 : Transport} {a2 : Nat} (h0 : Kept q n a0) : Kept q n (certificate a0 a1 a2) := by
  unfold certificate
  repeat' first
    | with_reducible assumption | with_reducible refine answer_kept ?_ | with_reducible refine kept_ite ?_ ?_

theorem challengeAnswer_kept {a0 : State} (h0 : Kept q n a0) : Kept q n (challengeAnswer a0).2 := by
  unfold challengeAnswer
  repeat' first
    | with_reducible assumption | with_reducible refine kept_lit ?_ rfl rfl rfl

theorem signedAnswer_kept {a0 : State} {a1 : Transport} {a2 : String} {a3 : Bytes} {a4 : State → State} (h0 : Kept q n a0)
    (h4 : ∀ z0, Kept q n z0 → Kept q n (a4 z0)) : Kept q n (signedAnswer a0 a1 a2 a3 a4) := by
  unfold signedAnswer
  repeat' first
    | with_reducible assumption | with_reducible refine h4 _ ?_ | with_reducible refine answer_kept ?_
    | with_reducible refine controllerDraw_kept ?_ | with_reducible refine freeBytes_kept ?_
    | with_reducible refine kept_ite ?_ ?_ | with_reducible refine kept_of_snd (by assumption) ?_ | split

theorem challenged_kept {a0 : State} {a1 : Transport} (h0 : Kept q n a0) : Kept q n (challenged a0 a1) := by
  unfold challenged challengeAnswer
  exact signedAnswer_kept (kept_lit h0 rfl rfl rfl) (fun _ h => h)

theorem configAnswer_kept {a0 : State} {a1 : Nat} {a2 : Nat} (h0 : Kept q n a0) : Kept q n (configAnswer a0 a1 a2) := by
  unfold configAnswer
  repeat' first
    | with_reducible assumption | with_reducible refine emit_kept ?_ | with_reducible refine kept_ite ?_ ?_

theorem endSessionNo_kept {a0 : State} {a1 : Nat} (h0 : Kept q n a0) : Kept q n (endSessionNo a0 a1) := by
  unfold endSessionNo
  repeat' first
    | with_reducible assumption | with_reducible refine endSessions_kept ?_

theorem openSession_kept {a0 : State} {a1 : Session} (h0 : Kept q n a0) : Kept q n (openSession a0 a1) := by
  unfold openSession
  repeat' first
    | with_reducible assumption | split | with_reducible refine kept_lit ?_ rfl rfl rfl

theorem exchangeKeys_kept {a0 : State} {a1 : Transport} {a2 : ReqKey} (h0 : Kept q n a0) : Kept q n (exchangeKeys a0 a1 a2)
    := by
  unfold exchangeKeys
  repeat' first
    | with_reducible assumption | with_reducible refine answer_kept ?_ | with_reducible refine signedAnswer_kept ?_ ?_
    | with_reducible refine openSession_kept ?_ | with_reducible refine kept_ite ?_ ?_ | intro _ | split

theorem hdmCommit_kept {a0 : State} {a1 : Nat} {a2 : Nat} {a3 : Nat} {a4 : Nat} {a5 : Nat} (h0 : Kept q n a0) : Kept q n
    (hdmCommit a0 a1 a2 a3 a4 a5) := by
  unfold hdmCommit
  repeat' first
    | with_reducible assumption | with_reducible refine kept_ite ?_ ?_ | with_reducible refine kept_lit ?_ rfl rfl rfl

theorem maskMsix_kept {a0 : State} {a1 : Nat} (h0 : Kept q n a0) : Kept q n (maskMsix a0 a1) := by
  unfold maskMsix
  repeat' first
    | with_reducible assumption | with_reducible refine kept_lit ?_ rfl rfl rfl

theorem headReset_kept {a0 : State} {a1 : Nat} (h0 : Kept q n a0) : Kept q n (headReset a0 a1) := by
  unfold headReset
  repeat' first
    | with_reducible assumption | with_reducible refine endSessions_kept ?_ | with_reducible refine kept_each _ ?_ ?_
    | with_reducible refine maskMsix_kept ?_ | with_reducible refine squashLd_kept ?_ | with_reducible refine modHead_kept ?_
    | intro _ | with_reducible refine kept_lit ?_ rfl rfl rfl

theorem heartbeatLost_kept {a0 : State} {a1 : Nat} (h0 : Kept q n a0) : Kept q n (heartbeatLost a0 a1) := by
  unfold heartbeatLost
  repeat' first
    | with_reducible assumption | with_reducible refine endSessionNo_kept ?_ | with_reducible refine kept_ite ?_ ?_ | split

theorem onTransport_kept {a0 : State} {a1 : Transport} {a2 : State} (h0 : Kept q n a0) (h2 : Kept q n a2) : Kept q n
    (onTransport a0 a1 a2) := by
  unfold onTransport
  repeat' first
    | with_reducible assumption | with_reducible refine answer_kept ?_ | with_reducible refine kept_ite ?_ ?_

theorem inSession_kept {a0 : State} {a1 : Nat} {a2 : Session → State} (h0 : Kept q n a0) (h2 : ∀ z0, Kept q n (a2 z0)) : Kept
    q n (inSession a0 a1 a2) := by
  unfold inSession
  repeat' first
    | with_reducible assumption | with_reducible refine h2 _ | with_reducible refine onTransport_kept ?_ ?_ | split

theorem kallekBody_kept {a0 : State} {a1 : KHdr} {a2 : Nat} {a3 : Bytes} (h0 : Kept q n a0) : Kept q n (kallekBody a0 a1 a2
    a3) := by
  unfold kallekBody
  repeat' first
    | with_reducible assumption | with_reducible refine kallek_kept ?_ ?_ | with_reducible refine kReply_kept ?_
    | with_reducible refine kGet_kept ?_ | with_reducible refine kDescribe_kept ?_ | with_reducible refine kNext_kept ?_
    | with_reducible refine jointOpens_kept ?_ | with_reducible refine jointReads_kept ?_
    | with_reducible refine jointStages_kept ?_ | with_reducible refine jointStatements_kept ?_
    | with_reducible refine jointSigns_kept ?_ | with_reducible refine jointCommits_kept ?_
    | with_reducible refine jointAborts_kept ?_ | with_reducible refine jointStates_kept ?_
    | with_reducible refine kept_ite ?_ ?_ | intro _ | split

theorem linkLoses_kept {a0 : State} {a1 : Nat} (h0 : Kept q n a0) : Kept q n (linkLoses a0 a1) := by
  unfold linkLoses
  repeat' first
    | with_reducible assumption | with_reducible refine headReset_kept ?_ | with_reducible refine modHead_kept ?_
    | with_reducible refine kept_ite ?_ ?_

theorem linkTrains_kept {a0 : State} {a1 : Nat} {a2 : Nat} {a3 : Nat} {a4 : Bool} (h0 : Kept q n a0) : Kept q n (linkTrains
    a0 a1 a2 a3 a4) := by
  unfold linkTrains
  repeat' first
    | with_reducible assumption | with_reducible refine modHead_kept ?_ | with_reducible refine kept_ite ?_ ?_

theorem linkWord_kept {a0 : State} {a1 : Instr} {a2 : State → State} (h0 : Kept q n a0) (h2 : ∀ z0, Kept q n z0 → Kept q n
    (a2 z0)) : Kept q n (linkWord a0 a1 a2) := by
  unfold linkWord
  repeat' first
    | with_reducible assumption | with_reducible refine crossing_kept ?_ ?_

theorem mailboxOk_kept {a0 : State} {a1 : Nat} {a2 : Bytes} (h0 : Kept q n a0) : Kept q n (mailboxOk a0 a1 a2) := by
  unfold mailboxOk
  repeat' first
    | with_reducible assumption | with_reducible refine emit_kept ?_

theorem mctpOk_kept {a0 : State} {a1 : String} {a2 : Bytes} (h0 : Kept q n a0) : Kept q n (mctpOk a0 a1 a2) := by
  unfold mctpOk
  repeat' first
    | with_reducible assumption | with_reducible refine emit_kept ?_

theorem onI3c_kept {a0 : State} {a1 : State} (h0 : Kept q n a0) (h1 : Kept q n a1) : Kept q n (onI3c a0 a1) := by
  unfold onI3c
  repeat' first
    | with_reducible assumption | with_reducible refine kept_ite ?_ ?_

theorem onMailbox_kept {a0 : State} {a1 : Nat} {a2 : State} (h0 : Kept q n a0) (h2 : Kept q n a2) : Kept q n (onMailbox a0 a1
    a2) := by
  unfold onMailbox
  repeat' first
    | with_reducible assumption | with_reducible refine emit_kept ?_ | with_reducible refine kept_ite ?_ ?_

theorem perstHigh_kept {a0 : State} {a1 : Nat} (h0 : Kept q n a0) : Kept q n (perstHigh a0 a1) := by
  unfold perstHigh
  repeat' first
    | with_reducible assumption | with_reducible refine modHead_kept ?_ | with_reducible refine kept_ite ?_ ?_

theorem perstLow_kept {a0 : State} {a1 : Nat} (h0 : Kept q n a0) : Kept q n (perstLow a0 a1) := by
  unfold perstLow
  repeat' first
    | with_reducible assumption | with_reducible refine modHead_kept ?_ | with_reducible refine applySplit_kept ?_
    | with_reducible refine headReset_kept ?_ | with_reducible refine kept_ite ?_ ?_

theorem programIde_kept {a0 : State} {a1 : Nat} {a2 : Bool} {a3 : Nat} {a4 : Bytes} (h0 : Kept q n a0) : Kept q n (programIde
    a0 a1 a2 a3 a4) := by
  unfold programIde
  repeat' first
    | with_reducible assumption | with_reducible refine inSession_kept ?_ ?_ | with_reducible refine answer_kept ?_
    | with_reducible refine modHead_kept ?_ | intro _

theorem resetFunction_kept {a0 : State} {a1 : Nat} (h0 : Kept q n a0) : Kept q n (resetFunction a0 a1) := by
  unfold resetFunction
  repeat' first
    | with_reducible assumption | with_reducible refine squashLd_kept ?_ | with_reducible refine endSessions_kept ?_

theorem tunnel_kept {a0 : State} {a1 : Nat} {a2 : KHdr} {a3 : Nat} {a4 : Bytes} (h0 : Kept q n a0) : Kept q n (tunnel a0 a1
    a2 a3 a4) := by
  unfold tunnel
  repeat' first
    | with_reducible assumption | with_reducible refine emit_kept ?_ | with_reducible refine kallekBody_kept ?_
    | with_reducible refine kept_ite ?_ ?_

theorem unmask_kept {a0 : State} {a1 : Nat} {a2 : Nat} (h0 : Kept q n a0) : Kept q n (unmask a0 a1 a2) := by
  unfold unmask
  repeat' first
    | with_reducible assumption | with_reducible refine emit_kept ?_ | with_reducible refine kept_ite ?_ ?_
    | with_reducible refine kept_lit ?_ rfl rfl rfl

theorem abandonBay_kept {a0 : State} {a1 : Nat} (h0 : Kept q n a0) : Kept q n (abandonBay a0 a1) := by
  unfold abandonBay
  repeat' first
    | with_reducible assumption | with_reducible refine kept_each _ ?_ ?_ | with_reducible refine endEarly_kept ?_ | intro _

theorem resumeBay_kept {a0 : State} {a1 : Nat} {a2 : Nat} (h0 : Kept q n a0) : Kept q n (resumeBay a0 a1 a2) := by
  unfold resumeBay
  repeat' first
    | with_reducible assumption | with_reducible refine kept_each _ ?_ ?_ | with_reducible refine kept_modInst ?_ _ ?_ | intro _
    | with_reducible refine instOk_lit ?_

theorem clockReturns_kept {a0 : State} {a1 : Nat} (h0 : Kept q n a0) : Kept q n (clockReturns a0 a1) := by
  unfold clockReturns
  repeat' first
    | with_reducible assumption | with_reducible refine abandonBay_kept ?_ | with_reducible refine resumeBay_kept ?_
    | with_reducible refine requestSeed_kept ?_ | with_reducible refine kept_ite ?_ ?_ | split
    | with_reducible refine kept_lit ?_ rfl rfl rfl

end Sys2Proof.Machine
end

