-- ==== Sys2Proof/Laws/KeptExec.lean ====
section
/-! SUPPORT. Every meaning answers a next state that is legal, leaves the queue alone and does not run device time back. -/

namespace Sys2Proof.Machine

open Sys2Proof

variable {q : List Instr} {n : Nat}

/-- The state after a command that answers a next state. -/
theorem after_kept {r : Result} {s : State} (h : ∃ t, r = .next t ∧ Kept q n t) : Kept q n (after r s) := by
  obtain ⟨t, rfl, h⟩ := h
  exact h

theorem execPwrGoodAssert_kept {x0 : Nat} {s : State} (h : Kept q n s) :
    ∃ t, execPwrGoodAssert x0 s = .next t ∧ Kept q n t := by
  refine ⟨_, rfl, ?_⟩
  repeat' first
    | with_reducible assumption | with_reducible refine powerGood_kept ?_ | with_reducible refine kept_at ?_ _

theorem execStartupStepDone_kept {x0 : Nat} {x1 : StepEnv} {s : State} (h : Kept q n s) :
    ∃ t, execStartupStepDone x0 x1 s = .next t ∧ Kept q n t := by
  refine ⟨_, rfl, ?_⟩
  repeat' first
    | with_reducible assumption | with_reducible refine settle_kept ?_ | with_reducible refine stepDone_kept ?_
    | with_reducible refine kept_at ?_ _

theorem execEnrolRetry_kept {x0 : Nat} {x1 : EnvAnswer} {x2 : List NetReading} {s : State} (h : Kept q n s) :
    ∃ t, execEnrolRetry x0 x1 x2 s = .next t ∧ Kept q n t := by
  refine ⟨_, rfl, ?_⟩
  repeat' first
    | with_reducible assumption | with_reducible refine settle_kept ?_ | with_reducible refine enrolAgain_kept ?_
    | with_reducible refine kept_at ?_ _

theorem execPwrGoodDeassert_kept {x0 : Nat} {x1 : Nat} {s : State} (h : Kept q n s) :
    ∃ t, execPwrGoodDeassert x0 x1 s = .next t ∧ Kept q n t := by
  refine ⟨_, rfl, ?_⟩
  repeat' first
    | with_reducible assumption | with_reducible refine kept_at ?_ _ | with_reducible refine enterBackup_kept ?_
    | with_reducible refine kept_ite ?_ ?_

theorem execBackupSwitchover_kept {x0 : Nat} {x1 : Nat} {s : State} (h : Kept q n s) :
    ∃ t, execBackupSwitchover x0 x1 s = .next t ∧ Kept q n t := by
  refine ⟨_, rfl, ?_⟩
  repeat' first
    | with_reducible assumption | with_reducible refine kept_at ?_ _ | with_reducible refine enterBackup_kept ?_
    | with_reducible refine kept_ite ?_ ?_ | with_reducible refine kept_lit ?_ rfl rfl rfl

theorem execResetNAssert_kept {x0 : Nat} {x1 : Nat} {s : State} (h : Kept q n s) :
    ∃ t, execResetNAssert x0 x1 s = .next t ∧ Kept q n t := by
  refine ⟨_, rfl, ?_⟩
  repeat' first
    | with_reducible assumption | with_reducible refine resetAsserted_kept ?_ | with_reducible refine kept_at ?_ _

theorem execThermtrip_kept {x0 : Nat} {s : State} (h : Kept q n s) :
    ∃ t, execThermtrip x0 s = .next t ∧ Kept q n t := by
  refine ⟨_, rfl, ?_⟩
  repeat' first
    | with_reducible assumption | with_reducible refine thermalTrip_kept ?_ | with_reducible refine kept_at ?_ _

theorem execInlineRequestWrite_kept {x0 : Nat} {x1 : Nat} {x2 : LdNo} {x3 : InstNo} {x4 : BitVec 10} {x5 : Bytes} {s : State} (h : Kept q n s) :
    ∃ t, execInlineRequestWrite x0 x1 x2 x3 x4 x5 s = .next t ∧ Kept q n t := by
  refine ⟨_, rfl, ?_⟩
  repeat' first
    | with_reducible assumption | with_reducible refine ldAccess_kept ?_ ?_ | with_reducible refine kept_at ?_ _
    | with_reducible refine requestWrite_kept ?_ | intro _ _

theorem execInlineResultRead_kept {x0 : Nat} {x1 : LdNo} {x2 : InstNo} {x3 : BitVec 10} {x4 : BitVec 16} {s : State} (h : Kept q n s) :
    ∃ t, execInlineResultRead x0 x1 x2 x3 x4 s = .next t ∧ Kept q n t := by
  refine ⟨_, rfl, ?_⟩
  repeat' first
    | with_reducible assumption | with_reducible refine ldAccess_kept ?_ ?_ | with_reducible refine kept_at ?_ _
    | with_reducible refine resultRead_kept ?_ | intro _ _

theorem execInlineDroppedWrite_kept {x0 : Nat} {x1 : LdNo} {x2 : InstNo} {x3 : BitVec 10} {x4 : InlineDrop} {x5 : BitVec 7} {s : State} (h : Kept q n s) :
    ∃ t, execInlineDroppedWrite x0 x1 x2 x3 x4 x5 s = .next t ∧ Kept q n t := by
  refine ⟨_, rfl, ?_⟩
  repeat' first
    | with_reducible assumption | with_reducible refine ldAccess_kept ?_ ?_ | with_reducible refine kept_at ?_ _
    | with_reducible refine droppedWrite_kept ?_ | intro _ _

theorem execInlineIdleHoldExpiry_kept {x0 : Nat} {x1 : InstNo} {x2 : BitVec 10} {s : State} (h : Kept q n s) :
    ∃ t, execInlineIdleHoldExpiry x0 x1 x2 s = .next t ∧ Kept q n t := by
  refine ⟨_, rfl, ?_⟩
  repeat' first
    | with_reducible assumption | with_reducible refine clocked_kept ?_ ?_ | with_reducible refine kept_at ?_ _
    | with_reducible refine idleExpiry_kept ?_ | intro _ _

theorem execInlineLookup_kept {x0 : Nat} {x1 : InstNo} {x2 : BitVec 10} {s : State} (h : Kept q n s) :
    ∃ t, execInlineLookup x0 x1 x2 s = .next t ∧ Kept q n t := by
  refine ⟨_, rfl, ?_⟩
  repeat' first
    | with_reducible assumption | with_reducible refine crossing_kept ?_ ?_ | with_reducible refine kept_at ?_ _
    | with_reducible refine lookupLine_kept ?_ | intro _ _

theorem execInlineResultWrite_kept {x0 : Nat} {x1 : InstNo} {x2 : BitVec 10} {s : State} (h : Kept q n s) :
    ∃ t, execInlineResultWrite x0 x1 x2 s = .next t ∧ Kept q n t := by
  refine ⟨_, rfl, ?_⟩
  repeat' first
    | with_reducible assumption | with_reducible refine crossing_kept ?_ ?_ | with_reducible refine kept_at ?_ _
    | with_reducible refine lineResult_kept ?_ | intro _ _

theorem execDoorbell_kept {x0 : Nat} {x1 : Nat} {x2 : LdNo} {x3 : InstNo} {x4 : BitVec 16} {x5 : Bool} {x6 : Bool} {s : State} (h : Kept q n s) :
    ∃ t, execDoorbell x0 x1 x2 x3 x4 x5 x6 s = .next t ∧ Kept q n t := by
  refine ⟨_, rfl, ?_⟩
  repeat' first
    | with_reducible assumption | with_reducible refine areaWrite_kept ?_ ?_ | with_reducible refine kept_at ?_ _
    | with_reducible refine doorbellAt_kept ?_ | intro _ _

theorem execRingEntryWrite_kept {x0 : Nat} {x1 : LdNo} {x2 : InstNo} {x3 : BitVec 11} {x4 : Bytes} {x5 : Bool} {x6 : Bool} {s : State} (h : Kept q n s) :
    ∃ t, execRingEntryWrite x0 x1 x2 x3 x4 x5 x6 s = .next t ∧ Kept q n t := by
  refine ⟨_, rfl, ?_⟩
  repeat' first
    | with_reducible assumption | with_reducible refine areaWrite_kept ?_ ?_ | with_reducible refine kept_at ?_ _
    | with_reducible refine entryWrite_kept ?_ | intro _ _

theorem execStagingPageWrite_kept {x0 : Nat} {x1 : LdNo} {x2 : InstNo} {x3 : BitVec 17} {x4 : Bytes} {x5 : BitVec 64} {x6 : Bool} {s : State} (h : Kept q n s) :
    ∃ t, execStagingPageWrite x0 x1 x2 x3 x4 x5 x6 s = .next t ∧ Kept q n t := by
  refine ⟨_, rfl, ?_⟩
  repeat' first
    | with_reducible assumption | with_reducible refine areaWrite_kept ?_ ?_ | with_reducible refine kept_at ?_ _
    | with_reducible refine stagingWrite_kept ?_ | intro _ _

theorem execUnbackedAccess_kept {x0 : Nat} {x1 : LdNo} {x2 : InstNo} {x3 : BitVec 19} {x4 : Bool} {x5 : Bool} {x6 : BitVec 16} {s : State} (h : Kept q n s) :
    ∃ t, execUnbackedAccess x0 x1 x2 x3 x4 x5 x6 s = .next t ∧ Kept q n t := by
  refine ⟨_, rfl, ?_⟩
  repeat' first
    | with_reducible assumption | with_reducible refine ldAccess_kept ?_ ?_ | with_reducible refine kept_at ?_ _
    | with_reducible refine unbackedAt_kept ?_ | intro _ _

theorem execMemSpecRd_kept {x0 : Nat} {x1 : LdNo} {x2 : BitVec 27} {s : State} (h : Kept q n s) :
    ∃ t, execMemSpecRd x0 x1 x2 s = .next t ∧ Kept q n t := by
  refine ⟨_, rfl, ?_⟩
  repeat' first
    | with_reducible assumption | with_reducible refine kept_at ?_ _

theorem execMemInv_kept {x0 : Nat} {x1 : LdNo} {x2 : BitVec 27} {x3 : BitVec 16} {s : State} (h : Kept q n s) :
    ∃ t, execMemInv x0 x1 x2 x3 s = .next t ∧ Kept q n t := by
  refine ⟨_, rfl, ?_⟩
  repeat' first
    | with_reducible assumption | with_reducible refine memInvAt_kept ?_ | with_reducible refine kept_at ?_ _

theorem execAdmissionRoundEnd_kept {x0 : Nat} {s : State} (h : Kept q n s) :
    ∃ t, execAdmissionRoundEnd x0 s = .next t ∧ Kept q n t := by
  refine ⟨_, rfl, ?_⟩
  repeat' first
    | with_reducible assumption | with_reducible refine clocked_kept ?_ ?_ | with_reducible refine kept_at ?_ _
    | with_reducible refine roundsEnd_kept ?_ | intro _ _

theorem execNop_kept {x0 : Nat} {x1 : OpRef} {s : State} (h : Kept q n s) :
    ∃ t, execNop x0 x1 s = .next t ∧ Kept q n t := by
  refine ⟨_, rfl, ?_⟩
  repeat' first
    | with_reducible assumption | with_reducible refine hubOp_kept ?_

theorem execRouteLookup_kept {x0 : Nat} {x1 : OpRef} {s : State} (h : Kept q n s) :
    ∃ t, execRouteLookup x0 x1 s = .next t ∧ Kept q n t := by
  refine ⟨_, rfl, ?_⟩
  repeat' first
    | with_reducible assumption | with_reducible refine hubOp_kept ?_

theorem execPinXlate_kept {x0 : Nat} {x1 : OpRef} {s : State} (h : Kept q n s) :
    ∃ t, execPinXlate x0 x1 s = .next t ∧ Kept q n t := by
  refine ⟨_, rfl, ?_⟩
  repeat' first
    | with_reducible assumption | with_reducible refine lineOp_kept ?_

theorem execPinVerify_kept {x0 : Nat} {x1 : OpRef} {s : State} (h : Kept q n s) :
    ∃ t, execPinVerify x0 x1 s = .next t ∧ Kept q n t := by
  refine ⟨_, rfl, ?_⟩
  repeat' first
    | with_reducible assumption | with_reducible refine lineOp_kept ?_

theorem execDvvGen_kept {x0 : Nat} {x1 : OpRef} {s : State} (h : Kept q n s) :
    ∃ t, execDvvGen x0 x1 s = .next t ∧ Kept q n t := by
  refine ⟨_, rfl, ?_⟩
  repeat' first
    | with_reducible assumption | with_reducible refine lineOp_kept ?_

theorem execDvvVerify_kept {x0 : Nat} {x1 : OpRef} {s : State} (h : Kept q n s) :
    ∃ t, execDvvVerify x0 x1 s = .next t ∧ Kept q n t := by
  refine ⟨_, rfl, ?_⟩
  repeat' first
    | with_reducible assumption | with_reducible refine lineOp_kept ?_

theorem execMacRetailGen_kept {x0 : Nat} {x1 : OpRef} {s : State} (h : Kept q n s) :
    ∃ t, execMacRetailGen x0 x1 s = .next t ∧ Kept q n t := by
  refine ⟨_, rfl, ?_⟩
  repeat' first
    | with_reducible assumption | with_reducible refine lineOp_kept ?_

theorem execMacRetailVerify_kept {x0 : Nat} {x1 : OpRef} {s : State} (h : Kept q n s) :
    ∃ t, execMacRetailVerify x0 x1 s = .next t ∧ Kept q n t := by
  refine ⟨_, rfl, ?_⟩
  repeat' first
    | with_reducible assumption | with_reducible refine lineOp_kept ?_

theorem execCmacGen_kept {x0 : Nat} {x1 : OpRef} {s : State} (h : Kept q n s) :
    ∃ t, execCmacGen x0 x1 s = .next t ∧ Kept q n t := by
  refine ⟨_, rfl, ?_⟩
  repeat' first
    | with_reducible assumption | with_reducible refine lineOp_kept ?_

theorem execCmacVerify_kept {x0 : Nat} {x1 : OpRef} {s : State} (h : Kept q n s) :
    ∃ t, execCmacVerify x0 x1 s = .next t ∧ Kept q n t := by
  refine ⟨_, rfl, ?_⟩
  repeat' first
    | with_reducible assumption | with_reducible refine lineOp_kept ?_

theorem execMacGen_kept {x0 : Nat} {x1 : OpRef} {s : State} (h : Kept q n s) :
    ∃ t, execMacGen x0 x1 s = .next t ∧ Kept q n t := by
  refine ⟨_, rfl, ?_⟩
  repeat' first
    | with_reducible assumption | with_reducible refine macOp_kept ?_

theorem execMacVerify_kept {x0 : Nat} {x1 : OpRef} {s : State} (h : Kept q n s) :
    ∃ t, execMacVerify x0 x1 s = .next t ∧ Kept q n t := by
  refine ⟨_, rfl, ?_⟩
  repeat' first
    | with_reducible assumption | with_reducible refine macOp_kept ?_

theorem execCipherEcb_kept {x0 : Nat} {x1 : OpRef} {s : State} (h : Kept q n s) :
    ∃ t, execCipherEcb x0 x1 s = .next t ∧ Kept q n t := by
  refine ⟨_, rfl, ?_⟩
  repeat' first
    | with_reducible assumption | with_reducible refine cipherOp_kept ?_

theorem execCipherCbc_kept {x0 : Nat} {x1 : OpRef} {s : State} (h : Kept q n s) :
    ∃ t, execCipherCbc x0 x1 s = .next t ∧ Kept q n t := by
  refine ⟨_, rfl, ?_⟩
  repeat' first
    | with_reducible assumption | with_reducible refine cipherOp_kept ?_

theorem execCipherCfb8_kept {x0 : Nat} {x1 : OpRef} {s : State} (h : Kept q n s) :
    ∃ t, execCipherCfb8 x0 x1 s = .next t ∧ Kept q n t := by
  refine ⟨_, rfl, ?_⟩
  repeat' first
    | with_reducible assumption | with_reducible refine cipherOp_kept ?_

theorem execCipherCfb128_kept {x0 : Nat} {x1 : OpRef} {s : State} (h : Kept q n s) :
    ∃ t, execCipherCfb128 x0 x1 s = .next t ∧ Kept q n t := by
  refine ⟨_, rfl, ?_⟩
  repeat' first
    | with_reducible assumption | with_reducible refine cipherOp_kept ?_

theorem execCipherOfb_kept {x0 : Nat} {x1 : OpRef} {s : State} (h : Kept q n s) :
    ∃ t, execCipherOfb x0 x1 s = .next t ∧ Kept q n t := by
  refine ⟨_, rfl, ?_⟩
  repeat' first
    | with_reducible assumption | with_reducible refine cipherOp_kept ?_

theorem execCipherCtr_kept {x0 : Nat} {x1 : OpRef} {s : State} (h : Kept q n s) :
    ∃ t, execCipherCtr x0 x1 s = .next t ∧ Kept q n t := by
  refine ⟨_, rfl, ?_⟩
  repeat' first
    | with_reducible assumption | with_reducible refine cipherOp_kept ?_

theorem execCipherGcm_kept {x0 : Nat} {x1 : OpRef} {s : State} (h : Kept q n s) :
    ∃ t, execCipherGcm x0 x1 s = .next t ∧ Kept q n t := by
  refine ⟨_, rfl, ?_⟩
  repeat' first
    | with_reducible assumption | with_reducible refine cipherOp_kept ?_

theorem execRandom_kept {x0 : Nat} {x1 : OpRef} {s : State} (h : Kept q n s) :
    ∃ t, execRandom x0 x1 s = .next t ∧ Kept q n t := by
  refine ⟨_, rfl, ?_⟩
  repeat' first
    | with_reducible assumption | with_reducible refine ringOnly_kept ?_ ?_ | with_reducible refine ringRandom_kept ?_
    | intro _ _

theorem execDukptDecrypt_kept {x0 : Nat} {x1 : OpRef} {s : State} (h : Kept q n s) :
    ∃ t, execDukptDecrypt x0 x1 s = .next t ∧ Kept q n t := by
  refine ⟨_, rfl, ?_⟩
  repeat' first
    | with_reducible assumption | with_reducible refine ringOnly_kept ?_ ?_ | with_reducible refine ringDukpt_kept ?_
    | intro _ _

theorem execEmvArqc_kept {x0 : Nat} {x1 : OpRef} {s : State} (h : Kept q n s) :
    ∃ t, execEmvArqc x0 x1 s = .next t ∧ Kept q n t := by
  refine ⟨_, rfl, ?_⟩
  repeat' first
    | with_reducible assumption | with_reducible refine ringOnly_kept ?_ ?_ | with_reducible refine ringEmv_kept ?_ | intro _ _

theorem execEcdsaSign_kept {x0 : Nat} {x1 : OpRef} {s : State} (h : Kept q n s) :
    ∃ t, execEcdsaSign x0 x1 s = .next t ∧ Kept q n t := by
  refine ⟨_, rfl, ?_⟩
  repeat' first
    | with_reducible assumption | with_reducible refine ringOnly_kept ?_ ?_ | with_reducible refine ringPublic_kept ?_
    | intro _ _

theorem execEcdsaVerify_kept {x0 : Nat} {x1 : OpRef} {s : State} (h : Kept q n s) :
    ∃ t, execEcdsaVerify x0 x1 s = .next t ∧ Kept q n t := by
  refine ⟨_, rfl, ?_⟩
  repeat' first
    | with_reducible assumption | with_reducible refine ringOnly_kept ?_ ?_ | with_reducible refine ringPublic_kept ?_
    | intro _ _

theorem execEd25519Sign_kept {x0 : Nat} {x1 : OpRef} {s : State} (h : Kept q n s) :
    ∃ t, execEd25519Sign x0 x1 s = .next t ∧ Kept q n t := by
  refine ⟨_, rfl, ?_⟩
  repeat' first
    | with_reducible assumption | with_reducible refine ringOnly_kept ?_ ?_ | with_reducible refine ringPublic_kept ?_
    | intro _ _

theorem execEd25519Verify_kept {x0 : Nat} {x1 : OpRef} {s : State} (h : Kept q n s) :
    ∃ t, execEd25519Verify x0 x1 s = .next t ∧ Kept q n t := by
  refine ⟨_, rfl, ?_⟩
  repeat' first
    | with_reducible assumption | with_reducible refine ringOnly_kept ?_ ?_ | with_reducible refine ringPublic_kept ?_
    | intro _ _

theorem execEcdhP256_kept {x0 : Nat} {x1 : OpRef} {s : State} (h : Kept q n s) :
    ∃ t, execEcdhP256 x0 x1 s = .next t ∧ Kept q n t := by
  refine ⟨_, rfl, ?_⟩
  repeat' first
    | with_reducible assumption | with_reducible refine ringOnly_kept ?_ ?_ | with_reducible refine ringPublic_kept ?_
    | intro _ _

theorem execRsaPrivate_kept {x0 : Nat} {x1 : OpRef} {s : State} (h : Kept q n s) :
    ∃ t, execRsaPrivate x0 x1 s = .next t ∧ Kept q n t := by
  refine ⟨_, rfl, ?_⟩
  repeat' first
    | with_reducible assumption | with_reducible refine ringOnly_kept ?_ ?_ | with_reducible refine ringPublic_kept ?_
    | intro _ _

theorem execRsaPublic_kept {x0 : Nat} {x1 : OpRef} {s : State} (h : Kept q n s) :
    ∃ t, execRsaPublic x0 x1 s = .next t ∧ Kept q n t := by
  refine ⟨_, rfl, ?_⟩
  repeat' first
    | with_reducible assumption | with_reducible refine ringOnly_kept ?_ ?_ | with_reducible refine ringPublic_kept ?_
    | intro _ _

theorem execMlkemEncaps_kept {x0 : Nat} {x1 : OpRef} {s : State} (h : Kept q n s) :
    ∃ t, execMlkemEncaps x0 x1 s = .next t ∧ Kept q n t := by
  refine ⟨_, rfl, ?_⟩
  repeat' first
    | with_reducible assumption | with_reducible refine ringOnly_kept ?_ ?_ | with_reducible refine ringPublic_kept ?_
    | intro _ _

theorem execMlkemDecaps_kept {x0 : Nat} {x1 : OpRef} {s : State} (h : Kept q n s) :
    ∃ t, execMlkemDecaps x0 x1 s = .next t ∧ Kept q n t := by
  refine ⟨_, rfl, ?_⟩
  repeat' first
    | with_reducible assumption | with_reducible refine ringOnly_kept ?_ ?_ | with_reducible refine ringPublic_kept ?_
    | intro _ _

theorem execMldsaSign_kept {x0 : Nat} {x1 : OpRef} {s : State} (h : Kept q n s) :
    ∃ t, execMldsaSign x0 x1 s = .next t ∧ Kept q n t := by
  refine ⟨_, rfl, ?_⟩
  repeat' first
    | with_reducible assumption | with_reducible refine ringOnly_kept ?_ ?_ | with_reducible refine ringPublic_kept ?_
    | intro _ _

theorem execMldsaVerify_kept {x0 : Nat} {x1 : OpRef} {s : State} (h : Kept q n s) :
    ∃ t, execMldsaVerify x0 x1 s = .next t ∧ Kept q n t := by
  refine ⟨_, rfl, ?_⟩
  repeat' first
    | with_reducible assumption | with_reducible refine ringOnly_kept ?_ ?_ | with_reducible refine ringPublic_kept ?_
    | intro _ _

theorem execKum_kept {x0 : Nat} {x1 : OpRef} {s : State} (h : Kept q n s) :
    ∃ t, execKum x0 x1 s = .next t ∧ Kept q n t := by
  refine ⟨_, rfl, ?_⟩
  repeat' first
    | with_reducible assumption | with_reducible refine ringOnly_kept ?_ ?_ | with_reducible refine ringKum_kept ?_ | intro _ _

theorem execUnwrap_kept {x0 : Nat} {x1 : OpRef} {s : State} (h : Kept q n s) :
    ∃ t, execUnwrap x0 x1 s = .next t ∧ Kept q n t := by
  refine ⟨_, rfl, ?_⟩
  repeat' first
    | with_reducible assumption | with_reducible refine ringOnly_kept ?_ ?_ | with_reducible refine ringUnwrap_kept ?_
    | intro _ _

theorem execMldsaAttemptEnd_kept {x0 : Nat} {x1 : OpRef} {s : State} (h : Kept q n s) :
    ∃ t, execMldsaAttemptEnd x0 x1 s = .next t ∧ Kept q n t := by
  refine ⟨_, rfl, ?_⟩
  repeat' first
    | with_reducible assumption | with_reducible refine ringOnly_kept ?_ ?_ | with_reducible refine dsaAttemptDone_kept ?_
    | intro _ _

theorem execSegmentEnd_kept {x0 : Nat} {x1 : OpRef} {s : State} (h : Kept q n s) :
    ∃ t, execSegmentEnd x0 x1 s = .next t ∧ Kept q n t := by
  refine ⟨_, rfl, ?_⟩
  repeat' first
    | with_reducible assumption | with_reducible refine ringOnly_kept ?_ ?_ | with_reducible refine crossing_kept ?_ ?_
    | with_reducible refine ringSegmentEnd_kept ?_ | intro _ _

theorem execKumCut_kept {x0 : Nat} {x1 : OpRef} {s : State} (h : Kept q n s) :
    ∃ t, execKumCut x0 x1 s = .next t ∧ Kept q n t := by
  refine ⟨_, rfl, ?_⟩
  repeat' first
    | with_reducible assumption | with_reducible refine ringOnly_kept ?_ ?_ | with_reducible refine clocked_kept ?_ ?_
    | with_reducible refine ringKumCut_kept ?_ | intro _ _

theorem execDmaReadCompletion_kept {x0 : Nat} {x1 : OpRef} {x2 : DmaData} {s : State} (h : Kept q n s) :
    ∃ t, execDmaReadCompletion x0 x1 x2 s = .next t ∧ Kept q n t := by
  refine ⟨_, rfl, ?_⟩
  repeat' first
    | with_reducible assumption | with_reducible refine ringOnly_kept ?_ ?_ | with_reducible refine crossing_kept ?_ ?_
    | with_reducible refine ringDma_kept ?_ | intro _ _

theorem execDmaCompletionTimeout_kept {x0 : Nat} {x1 : OpRef} {s : State} (h : Kept q n s) :
    ∃ t, execDmaCompletionTimeout x0 x1 s = .next t ∧ Kept q n t := by
  refine ⟨_, rfl, ?_⟩
  repeat' first
    | with_reducible assumption | with_reducible refine ringOnly_kept ?_ ?_ | with_reducible refine crossing_kept ?_ ?_
    | with_reducible refine ringTimeout_kept ?_ | intro _ _

theorem execPeriodicTestStart_kept {x0 : Nat} {x1 : BayNo} {x2 : BitVec 4} {s : State} (h : Kept q n s) :
    ∃ t, execPeriodicTestStart x0 x1 x2 s = .next t ∧ Kept q n t := by
  refine ⟨_, rfl, ?_⟩
  repeat' first
    | with_reducible assumption | with_reducible refine bookedTest_kept ?_ | with_reducible refine kept_at ?_ _

theorem execReactiveTestStart_kept {x0 : Nat} {x1 : BayNo} {x2 : TestCall} {s : State} (h : Kept q n s) :
    ∃ t, execReactiveTestStart x0 x1 x2 s = .next t ∧ Kept q n t := by
  refine ⟨_, rfl, ?_⟩
  repeat' first
    | with_reducible assumption | with_reducible refine reactiveTest_kept ?_ | with_reducible refine kept_at ?_ _

theorem execEngineTestEnd_kept {x0 : Nat} {x1 : BayNo} {x2 : BitVec 4} {x3 : Bool} {s : State} (h : Kept q n s) :
    ∃ t, execEngineTestEnd x0 x1 x2 x3 s = .next t ∧ Kept q n t := by
  refine ⟨_, rfl, ?_⟩
  repeat' first
    | with_reducible assumption | with_reducible refine clocked_kept ?_ ?_ | with_reducible refine kept_at ?_ _
    | with_reducible refine endTest_kept ?_ | intro _ _

theorem execBayLeave_kept {x0 : Nat} {x1 : BayNo} {s : State} (h : Kept q n s) :
    ∃ t, execBayLeave x0 x1 s = .next t ∧ Kept q n t := by
  refine ⟨_, rfl, ?_⟩
  repeat' first
    | with_reducible assumption | with_reducible refine leaveBay_kept ?_ | with_reducible refine kept_at ?_ _

theorem execBayReturn_kept {x0 : Nat} {x1 : BayNo} {s : State} (h : Kept q n s) :
    ∃ t, execBayReturn x0 x1 s = .next t ∧ Kept q n t := by
  refine ⟨_, rfl, ?_⟩
  repeat' first
    | with_reducible assumption | with_reducible refine settle_kept ?_ | with_reducible refine bayReturns_kept ?_
    | with_reducible refine kept_at ?_ _

theorem execJournalReservationDurable_kept {x0 : Nat} {x1 : BitVec 18} {s : State} (h : Kept q n s) :
    ∃ t, execJournalReservationDurable x0 x1 s = .next t ∧ Kept q n t := by
  refine ⟨_, rfl, ?_⟩
  repeat' first
    | with_reducible assumption | with_reducible refine crossing_kept ?_ ?_ | with_reducible refine kept_at ?_ _
    | with_reducible refine reservationDurable_kept ?_ | intro _ _

theorem execJournalFlushStart_kept {x0 : Nat} {s : State} (h : Kept q n s) :
    ∃ t, execJournalFlushStart x0 s = .next t ∧ Kept q n t := by
  refine ⟨_, rfl, ?_⟩
  repeat' first
    | with_reducible assumption | with_reducible refine clocked_kept ?_ ?_ | with_reducible refine kept_at ?_ _
    | with_reducible refine beginFlush_kept ?_ | intro _ _

theorem execJournalFlushDone_kept {x0 : Nat} {x1 : Bool} {s : State} (h : Kept q n s) :
    ∃ t, execJournalFlushDone x0 x1 s = .next t ∧ Kept q n t := by
  refine ⟨_, rfl, ?_⟩
  repeat' first
    | with_reducible assumption | with_reducible refine clocked_kept ?_ ?_ | with_reducible refine kept_at ?_ _
    | with_reducible refine flushDone_kept ?_ | intro _ _

theorem execJournalFlushRetry_kept {x0 : Nat} {s : State} (h : Kept q n s) :
    ∃ t, execJournalFlushRetry x0 s = .next t ∧ Kept q n t := by
  refine ⟨_, rfl, ?_⟩
  repeat' first
    | with_reducible assumption | with_reducible refine clocked_kept ?_ ?_ | with_reducible refine kept_at ?_ _
    | with_reducible refine flushRetry_kept ?_ | intro _ _

theorem execKeyLogFlushDone_kept {x0 : Nat} {x1 : Bool} {s : State} (h : Kept q n s) :
    ∃ t, execKeyLogFlushDone x0 x1 s = .next t ∧ Kept q n t := by
  refine ⟨_, rfl, ?_⟩
  repeat' first
    | with_reducible assumption | with_reducible refine clocked_kept ?_ ?_ | with_reducible refine kept_at ?_ _
    | with_reducible refine keyLogDone_kept ?_ | intro _ _

theorem execRouteBlockReturn_kept {x0 : Nat} {s : State} (h : Kept q n s) :
    ∃ t, execRouteBlockReturn x0 s = .next t ∧ Kept q n t := by
  refine ⟨_, rfl, ?_⟩
  repeat' first
    | with_reducible assumption | with_reducible refine clocked_kept ?_ ?_ | with_reducible refine kept_at ?_ _
    | with_reducible refine returnCopies_kept ?_ | intro _ _

theorem execEvictionReseed_kept {x0 : Nat} {s : State} (h : Kept q n s) :
    ∃ t, execEvictionReseed x0 s = .next t ∧ Kept q n t := by
  refine ⟨_, rfl, ?_⟩
  repeat' first
    | with_reducible assumption | with_reducible refine kept_at ?_ _ | with_reducible refine requestSeed_kept ?_
    | with_reducible refine kept_ite ?_ ?_

theorem execNoiseWindowEnd_kept {x0 : Nat} {x1 : ChanNo} {x2 : Bytes} {s : State} (h : Kept q n s) :
    ∃ t, execNoiseWindowEnd x0 x1 x2 s = .next t ∧ Kept q n t := by
  refine ⟨_, rfl, ?_⟩
  repeat' first
    | with_reducible assumption | with_reducible refine settle_kept ?_ | with_reducible refine clocked_kept ?_ ?_
    | with_reducible refine kept_at ?_ _ | with_reducible refine windowEnds_kept ?_ | intro _ _

theorem execChannelFail_kept {x0 : Nat} {x1 : ChanNo} {x2 : Bool} {s : State} (h : Kept q n s) :
    ∃ t, execChannelFail x0 x1 x2 s = .next t ∧ Kept q n t := by
  refine ⟨_, rfl, ?_⟩
  repeat' first
    | with_reducible assumption | with_reducible refine settle_kept ?_ | with_reducible refine clocked_kept ?_ ?_
    | with_reducible refine kept_at ?_ _ | with_reducible refine channelFails_kept ?_ | intro _ _

theorem execChannelRetest_kept {x0 : Nat} {x1 : ChanNo} {s : State} (h : Kept q n s) :
    ∃ t, execChannelRetest x0 x1 s = .next t ∧ Kept q n t := by
  refine ⟨_, rfl, ?_⟩
  repeat' first
    | with_reducible assumption | with_reducible refine clocked_kept ?_ ?_ | with_reducible refine kept_at ?_ _
    | with_reducible refine channelRetests_kept ?_ | intro _ _

theorem execChannelStartupTestEnd_kept {x0 : Nat} {x1 : ChanNo} {x2 : Bytes} {s : State} (h : Kept q n s) :
    ∃ t, execChannelStartupTestEnd x0 x1 x2 s = .next t ∧ Kept q n t := by
  refine ⟨_, rfl, ?_⟩
  repeat' first
    | with_reducible assumption | with_reducible refine settle_kept ?_ | with_reducible refine clocked_kept ?_ ?_
    | with_reducible refine kept_at ?_ _ | with_reducible refine startupTestEnds_kept ?_ | intro _ _

theorem execConditionedBlock_kept {x0 : Nat} {s : State} (h : Kept q n s) :
    ∃ t, execConditionedBlock x0 s = .next t ∧ Kept q n t := by
  refine ⟨_, rfl, ?_⟩
  repeat' first
    | with_reducible assumption | with_reducible refine settle_kept ?_ | with_reducible refine crossing_kept ?_ ?_
    | with_reducible refine kept_at ?_ _ | with_reducible refine blockDone_kept ?_ | intro _ _

theorem execDrbgGenerateDone_kept {x0 : Nat} {x1 : BayNo} {s : State} (h : Kept q n s) :
    ∃ t, execDrbgGenerateDone x0 x1 s = .next t ∧ Kept q n t := by
  refine ⟨_, rfl, ?_⟩
  repeat' first
    | with_reducible assumption | with_reducible refine settle_kept ?_ | with_reducible refine clocked_kept ?_ ?_
    | with_reducible refine kept_at ?_ _ | with_reducible refine callDone_kept ?_ | intro _ _

theorem execDrbgReseed_kept {x0 : Nat} {x1 : BayNo} {s : State} (h : Kept q n s) :
    ∃ t, execDrbgReseed x0 x1 s = .next t ∧ Kept q n t := by
  refine ⟨_, rfl, ?_⟩
  repeat' first
    | with_reducible assumption | with_reducible refine settle_kept ?_ | with_reducible refine clocked_kept ?_ ?_
    | with_reducible refine kept_at ?_ _ | with_reducible refine applyReseed_kept ?_ | intro _ _

theorem execStopHoldExpiry_kept {x0 : Nat} {s : State} (h : Kept q n s) :
    ∃ t, execStopHoldExpiry x0 s = .next t ∧ Kept q n t := by
  refine ⟨_, rfl, ?_⟩
  repeat' first
    | with_reducible assumption | with_reducible refine settle_kept ?_ | with_reducible refine clocked_kept ?_ ?_
    | with_reducible refine kept_at ?_ _ | with_reducible refine stopHeld_kept ?_ | intro _ _

theorem execConditionerKatDone_kept {x0 : Nat} {x1 : Bool} {s : State} (h : Kept q n s) :
    ∃ t, execConditionerKatDone x0 x1 s = .next t ∧ Kept q n t := by
  refine ⟨_, rfl, ?_⟩
  repeat' first
    | with_reducible assumption | with_reducible refine settle_kept ?_ | with_reducible refine clocked_kept ?_ ?_
    | with_reducible refine kept_at ?_ _ | with_reducible refine condKat_kept ?_ | intro _ _

theorem execDrbgKatDone_kept {x0 : Nat} {x1 : BayNo} {x2 : Bool} {s : State} (h : Kept q n s) :
    ∃ t, execDrbgKatDone x0 x1 x2 s = .next t ∧ Kept q n t := by
  refine ⟨_, rfl, ?_⟩
  repeat' first
    | with_reducible assumption | with_reducible refine settle_kept ?_ | with_reducible refine clocked_kept ?_ ?_
    | with_reducible refine kept_at ?_ _ | with_reducible refine drbgKat_kept ?_ | intro _ _

theorem execRemaskPassStart_kept {x0 : Nat} {x1 : Bool} {s : State} (h : Kept q n s) :
    ∃ t, execRemaskPassStart x0 x1 s = .next t ∧ Kept q n t := by
  refine ⟨_, rfl, ?_⟩
  repeat' first
    | with_reducible assumption | with_reducible refine clocked_kept ?_ ?_ | with_reducible refine kept_at ?_ _
    | with_reducible refine passStarts_kept ?_ | intro _ _

theorem execRemaskPassEnd_kept {x0 : Nat} {x1 : Bool} {s : State} (h : Kept q n s) :
    ∃ t, execRemaskPassEnd x0 x1 s = .next t ∧ Kept q n t := by
  refine ⟨_, rfl, ?_⟩
  repeat' first
    | with_reducible assumption | with_reducible refine clocked_kept ?_ ?_ | with_reducible refine kept_at ?_ _
    | with_reducible refine passEnds_kept ?_ | intro _ _

theorem execKeyclockTick_kept {x0 : Nat} {s : State} (h : Kept q n s) :
    ∃ t, execKeyclockTick x0 s = .next t ∧ Kept q n t := by
  refine ⟨_, rfl, ?_⟩
  repeat' first
    | with_reducible assumption | with_reducible refine kept_at ?_ _ | with_reducible refine setDevCounter_kept ?_
    | with_reducible refine kept_ite ?_ ?_

theorem execResetDrain_kept {x0 : Nat} {x1 : InstNo} {s : State} (h : Kept q n s) :
    ∃ t, execResetDrain x0 x1 s = .next t ∧ Kept q n t := by
  refine ⟨_, rfl, ?_⟩
  repeat' first
    | with_reducible assumption | with_reducible refine settle_kept ?_ | with_reducible refine crossing_kept ?_ ?_
    | with_reducible refine kept_at ?_ _ | with_reducible refine requestReset_kept ?_ | intro _ _

theorem execResetSquash_kept {x0 : Nat} {x1 : InstNo} {s : State} (h : Kept q n s) :
    ∃ t, execResetSquash x0 x1 s = .next t ∧ Kept q n t := by
  refine ⟨_, rfl, ?_⟩
  repeat' first
    | with_reducible assumption | with_reducible refine settle_kept ?_ | with_reducible refine crossing_kept ?_ ?_
    | with_reducible refine kept_at ?_ _ | with_reducible refine requestReset_kept ?_ | intro _ _

theorem execResetDrainDeadline_kept {x0 : Nat} {x1 : InstNo} {s : State} (h : Kept q n s) :
    ∃ t, execResetDrainDeadline x0 x1 s = .next t ∧ Kept q n t := by
  refine ⟨_, rfl, ?_⟩
  repeat' first
    | with_reducible assumption | with_reducible refine clocked_kept ?_ ?_ | with_reducible refine kept_at ?_ _
    | with_reducible refine drainOver_kept ?_ | intro _ _

theorem execResetReport_kept {x0 : Nat} {x1 : InstNo} {s : State} (h : Kept q n s) :
    ∃ t, execResetReport x0 x1 s = .next t ∧ Kept q n t := by
  refine ⟨_, rfl, ?_⟩
  repeat' first
    | with_reducible assumption | with_reducible refine settle_kept ?_ | with_reducible refine clocked_kept ?_ ?_
    | with_reducible refine kept_at ?_ _ | with_reducible refine reportReset_kept ?_ | intro _ _

theorem execFreezeComplete_kept {x0 : Nat} {x1 : InstNo} {s : State} (h : Kept q n s) :
    ∃ t, execFreezeComplete x0 x1 s = .next t ∧ Kept q n t := by
  refine ⟨_, rfl, ?_⟩
  repeat' first
    | with_reducible assumption | with_reducible refine settle_kept ?_ | with_reducible refine clocked_kept ?_ ?_
    | with_reducible refine kept_at ?_ _ | with_reducible refine freezeDone_kept ?_ | intro _ _

theorem execMigrateOfferReady_kept {x0 : Nat} {x1 : InstNo} {s : State} (h : Kept q n s) :
    ∃ t, execMigrateOfferReady x0 x1 s = .next t ∧ Kept q n t := by
  refine ⟨_, rfl, ?_⟩
  repeat' first
    | with_reducible assumption | with_reducible refine clocked_kept ?_ ?_ | with_reducible refine kept_at ?_ _
    | with_reducible refine offerReady_kept ?_ | intro _ _

theorem execMigrateOfferExpiry_kept {x0 : Nat} {x1 : InstNo} {s : State} (h : Kept q n s) :
    ∃ t, execMigrateOfferExpiry x0 x1 s = .next t ∧ Kept q n t := by
  refine ⟨_, rfl, ?_⟩
  repeat' first
    | with_reducible assumption | with_reducible refine clocked_kept ?_ ?_ | with_reducible refine kept_at ?_ _
    | with_reducible refine offerExpires_kept ?_ | intro _ _

theorem execMigrateBlobReady_kept {x0 : Nat} {x1 : InstNo} {s : State} (h : Kept q n s) :
    ∃ t, execMigrateBlobReady x0 x1 s = .next t ∧ Kept q n t := by
  refine ⟨_, rfl, ?_⟩
  repeat' first
    | with_reducible assumption | with_reducible refine clocked_kept ?_ ?_ | with_reducible refine kept_at ?_ _
    | with_reducible refine blobReady_kept ?_ | intro _ _

theorem execLdFunctionLevelReset_kept {x0 : Nat} {x1 : LdNo} {s : State} (h : Kept q n s) :
    ∃ t, execLdFunctionLevelReset x0 x1 s = .next t ∧ Kept q n t := by
  refine ⟨_, rfl, ?_⟩
  repeat' first
    | with_reducible assumption | with_reducible refine kept_at ?_ _ | with_reducible refine settle_kept ?_
    | with_reducible refine resetFunction_kept ?_ | with_reducible refine kept_ite ?_ ?_

theorem execPerstAssert_kept {x0 : Nat} {x1 : HeadNo} {s : State} (h : Kept q n s) :
    ∃ t, execPerstAssert x0 x1 s = .next t ∧ Kept q n t := by
  refine ⟨_, rfl, ?_⟩
  repeat' first
    | with_reducible assumption | with_reducible refine settle_kept ?_ | with_reducible refine perstLow_kept ?_
    | with_reducible refine kept_at ?_ _

theorem execLinkDown_kept {x0 : Nat} {x1 : HeadNo} {s : State} (h : Kept q n s) :
    ∃ t, execLinkDown x0 x1 s = .next t ∧ Kept q n t := by
  refine ⟨_, rfl, ?_⟩
  repeat' first
    | with_reducible assumption | with_reducible refine settle_kept ?_ | with_reducible refine linkLoses_kept ?_
    | with_reducible refine kept_at ?_ _

theorem execLinkUp_kept {x0 : Nat} {x1 : HeadNo} {x2 : Nat} {x3 : Nat} {x4 : Bool} {s : State} (h : Kept q n s) :
    ∃ t, execLinkUp x0 x1 x2 x3 x4 s = .next t ∧ Kept q n t := by
  refine ⟨_, rfl, ?_⟩
  repeat' first
    | with_reducible assumption | with_reducible refine linkTrains_kept ?_ | with_reducible refine kept_at ?_ _

theorem execConfigRequest_kept {x0 : Nat} {x1 : HeadNo} {x2 : BitVec 16} {s : State} (h : Kept q n s) :
    ∃ t, execConfigRequest x0 x1 x2 s = .next t ∧ Kept q n t := by
  refine ⟨_, rfl, ?_⟩
  repeat' first
    | with_reducible assumption | with_reducible refine linkWord_kept ?_ ?_ | with_reducible refine kept_at ?_ _
    | with_reducible refine configAnswer_kept ?_ | intro _ _

theorem execHdmDecoderCommit_kept {x0 : Nat} {x1 : LdNo} {x2 : Nat} {x3 : Nat} {x4 : Nat} {x5 : Nat} {s : State} (h : Kept q n s) :
    ∃ t, execHdmDecoderCommit x0 x1 x2 x3 x4 x5 s = .next t ∧ Kept q n t := by
  refine ⟨_, rfl, ?_⟩
  repeat' first
    | with_reducible assumption | with_reducible refine linkWord_kept ?_ ?_ | with_reducible refine kept_at ?_ _
    | with_reducible refine hdmCommit_kept ?_ | intro _ _

theorem execMsixUnmask_kept {x0 : Nat} {x1 : LdNo} {x2 : BitVec 11} {s : State} (h : Kept q n s) :
    ∃ t, execMsixUnmask x0 x1 x2 s = .next t ∧ Kept q n t := by
  refine ⟨_, rfl, ?_⟩
  repeat' first
    | with_reducible assumption | with_reducible refine linkWord_kept ?_ ?_ | with_reducible refine kept_at ?_ _
    | with_reducible refine unmask_kept ?_ | intro _ _

theorem execRegisterWrite_kept {x0 : Nat} {x1 : LdNo} {x2 : InstNo} {x3 : BitVec 12} {x4 : Nat} {x5 : Bool} {x6 : Bool} {s : State} (h : Kept q n s) :
    ∃ t, execRegisterWrite x0 x1 x2 x3 x4 x5 x6 s = .next t ∧ Kept q n t := by
  refine ⟨_, rfl, ?_⟩
  repeat' first
    | with_reducible assumption | with_reducible refine settle_kept ?_ | with_reducible refine areaWrite_kept ?_ ?_
    | with_reducible refine kept_at ?_ _ | with_reducible refine pageWrite_kept ?_ | intro _ _

theorem execGet_kept {x0 : Nat} {x1 : KHdr} {x2 : BitVec 16} {x3 : Byte} {x4 : BitVec 32} {x5 : BitVec 32} {s : State} (h : Kept q n s) :
    ∃ t, execGet x0 x1 x2 x3 x4 x5 s = .next t ∧ Kept q n t := by
  refine ⟨_, rfl, ?_⟩
  repeat' first
    | with_reducible assumption | with_reducible refine kallekWord_kept ?_ ?_ | with_reducible refine kept_at ?_ _
    | with_reducible refine kGet_kept ?_ | intro _ _

theorem execDescribe_kept {x0 : Nat} {x1 : KHdr} {x2 : BitVec 16} {x3 : Byte} {s : State} (h : Kept q n s) :
    ∃ t, execDescribe x0 x1 x2 x3 s = .next t ∧ Kept q n t := by
  refine ⟨_, rfl, ?_⟩
  repeat' first
    | with_reducible assumption | with_reducible refine kallekWord_kept ?_ ?_ | with_reducible refine kept_at ?_ _
    | with_reducible refine kDescribe_kept ?_ | intro _ _

theorem execNext_kept {x0 : Nat} {x1 : KHdr} {x2 : BitVec 16} {x3 : Byte} {s : State} (h : Kept q n s) :
    ∃ t, execNext x0 x1 x2 x3 s = .next t ∧ Kept q n t := by
  refine ⟨_, rfl, ?_⟩
  repeat' first
    | with_reducible assumption | with_reducible refine kallekWord_kept ?_ ?_ | with_reducible refine kept_at ?_ _
    | with_reducible refine kNext_kept ?_ | intro _ _

theorem execKallekUnknownOp_kept {x0 : Nat} {x1 : KHdr} {x2 : Byte} {s : State} (h : Kept q n s) :
    ∃ t, execKallekUnknownOp x0 x1 x2 s = .next t ∧ Kept q n t := by
  refine ⟨_, rfl, ?_⟩
  repeat' first
    | with_reducible assumption | with_reducible refine kallekWord_kept ?_ ?_ | with_reducible refine kept_at ?_ _
    | with_reducible refine kallek_kept ?_ ?_ | with_reducible refine kReply_kept ?_ | intro _ _

theorem execJointOpen_kept {x0 : Nat} {x1 : KHdr} {x2 : Byte} {s : State} (h : Kept q n s) :
    ∃ t, execJointOpen x0 x1 x2 s = .next t ∧ Kept q n t := by
  refine ⟨_, rfl, ?_⟩
  repeat' first
    | with_reducible assumption | with_reducible refine kallekWord_kept ?_ ?_ | with_reducible refine kept_at ?_ _
    | with_reducible refine jointOpens_kept ?_ | intro _ _

theorem execJointRead_kept {x0 : Nat} {x1 : KHdr} {x2 : BitVec 16} {x3 : Byte} {x4 : BitVec 32} {x5 : BitVec 32} {s : State} (h : Kept q n s) :
    ∃ t, execJointRead x0 x1 x2 x3 x4 x5 s = .next t ∧ Kept q n t := by
  refine ⟨_, rfl, ?_⟩
  repeat' first
    | with_reducible assumption | with_reducible refine kallekWord_kept ?_ ?_ | with_reducible refine kept_at ?_ _
    | with_reducible refine jointReads_kept ?_ | intro _ _

theorem execJointStage_kept {x0 : Nat} {x1 : KHdr} {x2 : List JRec} {s : State} (h : Kept q n s) :
    ∃ t, execJointStage x0 x1 x2 s = .next t ∧ Kept q n t := by
  refine ⟨_, rfl, ?_⟩
  repeat' first
    | with_reducible assumption | with_reducible refine kallekWord_kept ?_ ?_ | with_reducible refine kept_at ?_ _
    | with_reducible refine jointStages_kept ?_ | intro _ _

theorem execJointStatement_kept {x0 : Nat} {x1 : KHdr} {s : State} (h : Kept q n s) :
    ∃ t, execJointStatement x0 x1 s = .next t ∧ Kept q n t := by
  refine ⟨_, rfl, ?_⟩
  repeat' first
    | with_reducible assumption | with_reducible refine kallekWord_kept ?_ ?_ | with_reducible refine kept_at ?_ _
    | with_reducible refine jointStatements_kept ?_ | intro _ _

theorem execJointSign_kept {x0 : Nat} {x1 : KHdr} {x2 : Byte} {x3 : Bytes} {s : State} (h : Kept q n s) :
    ∃ t, execJointSign x0 x1 x2 x3 s = .next t ∧ Kept q n t := by
  refine ⟨_, rfl, ?_⟩
  repeat' first
    | with_reducible assumption | with_reducible refine kallekWord_kept ?_ ?_ | with_reducible refine kept_at ?_ _
    | with_reducible refine jointSigns_kept ?_ | intro _ _

theorem execJointCommit_kept {x0 : Nat} {x1 : KHdr} {s : State} (h : Kept q n s) :
    ∃ t, execJointCommit x0 x1 s = .next t ∧ Kept q n t := by
  refine ⟨_, rfl, ?_⟩
  repeat' first
    | with_reducible assumption | with_reducible refine settle_kept ?_ | with_reducible refine kallekWord_kept ?_ ?_
    | with_reducible refine kept_at ?_ _ | with_reducible refine jointCommits_kept ?_ | intro _ _

theorem execJointAbort_kept {x0 : Nat} {x1 : KHdr} {s : State} (h : Kept q n s) :
    ∃ t, execJointAbort x0 x1 s = .next t ∧ Kept q n t := by
  refine ⟨_, rfl, ?_⟩
  repeat' first
    | with_reducible assumption | with_reducible refine settle_kept ?_ | with_reducible refine kallekWord_kept ?_ ?_
    | with_reducible refine kept_at ?_ _ | with_reducible refine jointAborts_kept ?_ | intro _ _

theorem execJointStatus_kept {x0 : Nat} {x1 : KHdr} {s : State} (h : Kept q n s) :
    ∃ t, execJointStatus x0 x1 s = .next t ∧ Kept q n t := by
  refine ⟨_, rfl, ?_⟩
  repeat' first
    | with_reducible assumption | with_reducible refine kallekWord_kept ?_ ?_ | with_reducible refine kept_at ?_ _
    | with_reducible refine jointStates_kept ?_ | intro _ _

theorem execPrepareDurable_kept {x0 : Nat} {x1 : BitVec 6} {x2 : Bool} {s : State} (h : Kept q n s) :
    ∃ t, execPrepareDurable x0 x1 x2 s = .next t ∧ Kept q n t := by
  refine ⟨_, rfl, ?_⟩
  repeat' first
    | with_reducible assumption | with_reducible refine settle_kept ?_ | with_reducible refine clocked_kept ?_ ?_
    | with_reducible refine kept_at ?_ _ | with_reducible refine prepareDone_kept ?_ | intro _ _

theorem execJointCut_kept {x0 : Nat} {x1 : BitVec 6} {x2 : BitVec 14} {s : State} (h : Kept q n s) :
    ∃ t, execJointCut x0 x1 x2 s = .next t ∧ Kept q n t := by
  refine ⟨_, rfl, ?_⟩
  repeat' first
    | with_reducible assumption | with_reducible refine settle_kept ?_ | with_reducible refine clocked_kept ?_ ?_
    | with_reducible refine kept_at ?_ _ | with_reducible refine jointCuts_kept ?_ | intro _ _

theorem execIslandEpochSwitch_kept {x0 : Nat} {x1 : Fin 33} {s : State} (h : Kept q n s) :
    ∃ t, execIslandEpochSwitch x0 x1 s = .next t ∧ Kept q n t := by
  refine ⟨_, rfl, ?_⟩
  repeat' first
    | with_reducible assumption | with_reducible refine crossing_kept ?_ ?_ | with_reducible refine kept_at ?_ _
    | with_reducible refine islandSwitches_kept ?_ | intro _ _

theorem execBackupObjectsApplied_kept {x0 : Nat} {s : State} (h : Kept q n s) :
    ∃ t, execBackupObjectsApplied x0 s = .next t ∧ Kept q n t := by
  refine ⟨_, rfl, ?_⟩
  repeat' first
    | with_reducible assumption | with_reducible refine clocked_kept ?_ ?_ | with_reducible refine kept_at ?_ _
    | with_reducible refine backupApplies_kept ?_ | intro _ _

theorem execCutRecordDurable_kept {x0 : Nat} {s : State} (h : Kept q n s) :
    ∃ t, execCutRecordDurable x0 s = .next t ∧ Kept q n t := by
  refine ⟨_, rfl, ?_⟩
  repeat' first
    | with_reducible assumption | with_reducible refine clocked_kept ?_ ?_ | with_reducible refine kept_at ?_ _
    | with_reducible refine cutDurable_kept ?_ | intro _ _

theorem execDigestPublished_kept {x0 : Nat} {s : State} (h : Kept q n s) :
    ∃ t, execDigestPublished x0 s = .next t ∧ Kept q n t := by
  refine ⟨_, rfl, ?_⟩
  repeat' first
    | with_reducible assumption | with_reducible refine clocked_kept ?_ ?_ | with_reducible refine kept_at ?_ _
    | with_reducible refine digestPublish_kept ?_ | intro _ _

theorem execJointIdleExpiry_kept {x0 : Nat} {x1 : BitVec 6} {s : State} (h : Kept q n s) :
    ∃ t, execJointIdleExpiry x0 x1 s = .next t ∧ Kept q n t := by
  refine ⟨_, rfl, ?_⟩
  repeat' first
    | with_reducible assumption | with_reducible refine settle_kept ?_ | with_reducible refine clocked_kept ?_ ?_
    | with_reducible refine kept_at ?_ _ | with_reducible refine jointIdles_kept ?_ | intro _ _

theorem execPlumbRun_kept {x0 : Nat} {s : State} (h : Kept q n s) :
    ∃ t, execPlumbRun x0 s = .next t ∧ Kept q n t := by
  refine ⟨_, rfl, ?_⟩
  repeat' first
    | with_reducible assumption | with_reducible refine settle_kept ?_ | with_reducible refine clocked_kept ?_ ?_
    | with_reducible refine kept_at ?_ _ | with_reducible refine plumb_kept ?_ | intro _ _

theorem execIslandSweep_kept {x0 : Nat} {x1 : Fin 33} {x2 : Bool} {s : State} (h : Kept q n s) :
    ∃ t, execIslandSweep x0 x1 x2 s = .next t ∧ Kept q n t := by
  refine ⟨_, rfl, ?_⟩
  repeat' first
    | with_reducible assumption | with_reducible refine clocked_kept ?_ ?_ | with_reducible refine kept_at ?_ _
    | with_reducible refine sweepEnds_kept ?_ | intro _ _

theorem execShutdownReady_kept {x0 : Nat} {s : State} (h : Kept q n s) :
    ∃ t, execShutdownReady x0 s = .next t ∧ Kept q n t := by
  refine ⟨_, rfl, ?_⟩
  repeat' first
    | with_reducible assumption | with_reducible refine clocked_kept ?_ ?_ | with_reducible refine kept_at ?_ _
    | with_reducible refine shutdownDone_kept ?_ | intro _ _

theorem execMonitorEvent_kept {x0 : Nat} {x1 : MonSense} {s : State} (h : Kept q n s) :
    ∃ t, execMonitorEvent x0 x1 s = .next t ∧ Kept q n t := by
  refine ⟨_, rfl, ?_⟩
  repeat' first
    | with_reducible assumption | with_reducible refine settle_kept ?_ | with_reducible refine monitorSense_kept ?_
    | with_reducible refine kept_at ?_ _

theorem execDecisionIntervalEnd_kept {x0 : Nat} {s : State} (h : Kept q n s) :
    ∃ t, execDecisionIntervalEnd x0 s = .next t ∧ Kept q n t := by
  refine ⟨_, rfl, ?_⟩
  repeat' first
    | with_reducible assumption | with_reducible refine kept_at ?_ _ | with_reducible refine settle_kept ?_
    | with_reducible refine decide__kept ?_ | with_reducible refine kept_ite ?_ ?_

theorem execMonitorTestEnd_kept {x0 : Nat} {x1 : Fin 14} {x2 : Bool} {s : State} (h : Kept q n s) :
    ∃ t, execMonitorTestEnd x0 x1 x2 s = .next t ∧ Kept q n t := by
  refine ⟨_, rfl, ?_⟩
  repeat' first
    | with_reducible assumption | with_reducible refine settle_kept ?_ | with_reducible refine testEnds_kept ?_
    | with_reducible refine kept_at ?_ _

theorem execMeshCheck_kept {x0 : Nat} {x1 : List NetReading} {s : State} (h : Kept q n s) :
    ∃ t, execMeshCheck x0 x1 s = .next t ∧ Kept q n t := by
  refine ⟨_, rfl, ?_⟩
  repeat' first
    | with_reducible assumption | with_reducible refine settle_kept ?_ | with_reducible refine meshCheck_kept ?_
    | with_reducible refine kept_at ?_ _

theorem execMeshPatternReseed_kept {x0 : Nat} {s : State} (h : Kept q n s) :
    ∃ t, execMeshPatternReseed x0 s = .next t ∧ Kept q n t := by
  refine ⟨_, rfl, ?_⟩
  repeat' first
    | with_reducible assumption | with_reducible refine reseedPattern_kept ?_ | with_reducible refine kept_at ?_ _

theorem execEnvAuth_kept {x0 : Nat} {x1 : EnvAnswer} {s : State} (h : Kept q n s) :
    ∃ t, execEnvAuth x0 x1 s = .next t ∧ Kept q n t := by
  refine ⟨_, rfl, ?_⟩
  repeat' first
    | with_reducible assumption | with_reducible refine settle_kept ?_ | with_reducible refine envAuth_kept ?_
    | with_reducible refine kept_at ?_ _

theorem execEnvAuthRetry_kept {x0 : Nat} {x1 : EnvAnswer} {s : State} (h : Kept q n s) :
    ∃ t, execEnvAuthRetry x0 x1 s = .next t ∧ Kept q n t := by
  refine ⟨_, rfl, ?_⟩
  repeat' first
    | with_reducible assumption | with_reducible refine settle_kept ?_ | with_reducible refine envAuth_kept ?_
    | with_reducible refine kept_at ?_ _

theorem execEnvEnrolment_kept {x0 : Nat} {x1 : EnvAnswer} {x2 : List NetReading} {s : State} (h : Kept q n s) :
    ∃ t, execEnvEnrolment x0 x1 x2 s = .next t ∧ Kept q n t := by
  refine ⟨_, rfl, ?_⟩
  repeat' first
    | with_reducible assumption | with_reducible refine enrolInWindow_kept ?_ | with_reducible refine kept_at ?_ _

theorem execTamperInEdge_kept {x0 : Nat} {x1 : Fin 4} {x2 : Nat} {s : State} (h : Kept q n s) :
    ∃ t, execTamperInEdge x0 x1 x2 s = .next t ∧ Kept q n t := by
  refine ⟨_, rfl, ?_⟩
  repeat' first
    | with_reducible assumption | with_reducible refine tamperEdge_kept ?_ | with_reducible refine kept_at ?_ _

theorem execBackupCheck_kept {x0 : Nat} {x1 : List NetReading} {x2 : Nat} {x3 : Nat} {x4 : BitVec 4} {s : State} (h : Kept q n s) :
    ∃ t, execBackupCheck x0 x1 x2 x3 x4 s = .next t ∧ Kept q n t := by
  refine ⟨_, rfl, ?_⟩
  repeat' first
    | with_reducible assumption | with_reducible refine backupCheck_kept ?_ | with_reducible refine kept_at ?_ _

theorem execBackupWatchEvent_kept {x0 : Nat} {x1 : MonSense} {x2 : Bool} {s : State} (h : Kept q n s) :
    ∃ t, execBackupWatchEvent x0 x1 x2 s = .next t ∧ Kept q n t := by
  refine ⟨_, rfl, ?_⟩
  repeat' first
    | with_reducible assumption | with_reducible refine settle_kept ?_ | with_reducible refine backupWatch_kept ?_
    | with_reducible refine kept_at ?_ _

theorem execServiceWindowExpiry_kept {x0 : Nat} {s : State} (h : Kept q n s) :
    ∃ t, execServiceWindowExpiry x0 s = .next t ∧ Kept q n t := by
  refine ⟨_, rfl, ?_⟩
  repeat' first
    | with_reducible assumption | with_reducible refine windowEnds__kept ?_ | with_reducible refine kept_at ?_ _

theorem execEnvLifeAccrual_kept {x0 : Nat} {s : State} (h : Kept q n s) :
    ∃ t, execEnvLifeAccrual x0 s = .next t ∧ Kept q n t := by
  refine ⟨_, rfl, ?_⟩
  repeat' first
    | with_reducible assumption | with_reducible refine kept_at ?_ _ | with_reducible refine addCharge_kept ?_
    | with_reducible refine kept_ite ?_ ?_

theorem execLcFuseSequenceDone_kept {x0 : Nat} {x1 : List (Nat × Nat)} {s : State} (h : Kept q n s) :
    ∃ t, execLcFuseSequenceDone x0 x1 s = .next t ∧ Kept q n t := by
  refine ⟨_, rfl, ?_⟩
  repeat' first
    | with_reducible assumption | with_reducible refine settle_kept ?_ | with_reducible refine fusesDone_kept ?_
    | with_reducible refine kept_at ?_ _

theorem execDebugChallengeReady_kept {x0 : Nat} {s : State} (h : Kept q n s) :
    ∃ t, execDebugChallengeReady x0 s = .next t ∧ Kept q n t := by
  refine ⟨_, rfl, ?_⟩
  repeat' first
    | with_reducible assumption | with_reducible refine clocked_kept ?_ ?_ | with_reducible refine kept_at ?_ _
    | with_reducible refine challengeReads_kept ?_ | intro _ _

theorem execDebugChallengeExpiry_kept {x0 : Nat} {s : State} (h : Kept q n s) :
    ∃ t, execDebugChallengeExpiry x0 s = .next t ∧ Kept q n t := by
  refine ⟨_, rfl, ?_⟩
  repeat' first
    | with_reducible assumption | with_reducible refine clocked_kept ?_ ?_ | with_reducible refine kept_at ?_ _
    | with_reducible refine challengeLapses_kept ?_ | intro _ _

theorem execFwManifestChecked_kept {x0 : Nat} {s : State} (h : Kept q n s) :
    ∃ t, execFwManifestChecked x0 s = .next t ∧ Kept q n t := by
  refine ⟨_, rfl, ?_⟩
  repeat' first
    | with_reducible assumption | with_reducible refine settle_kept ?_ | with_reducible refine clocked_kept ?_ ?_
    | with_reducible refine kept_at ?_ _ | with_reducible refine manifestChecked_kept ?_ | intro _ _

theorem execFwStageBlock_kept {x0 : Nat} {x1 : Bytes} {s : State} (h : Kept q n s) :
    ∃ t, execFwStageBlock x0 x1 s = .next t ∧ Kept q n t := by
  refine ⟨_, rfl, ?_⟩
  repeat' first
    | with_reducible assumption | with_reducible refine settle_kept ?_ | with_reducible refine clocked_kept ?_ ?_
    | with_reducible refine kept_at ?_ _ | with_reducible refine stageBlock_kept ?_ | intro _ _

theorem execFwBlockWritten_kept {x0 : Nat} {x1 : Bytes} {s : State} (h : Kept q n s) :
    ∃ t, execFwBlockWritten x0 x1 s = .next t ∧ Kept q n t := by
  refine ⟨_, rfl, ?_⟩
  repeat' first
    | with_reducible assumption | with_reducible refine settle_kept ?_ | with_reducible refine clocked_kept ?_ ?_
    | with_reducible refine kept_at ?_ _ | with_reducible refine blockWritten_kept ?_ | intro _ _

theorem execFwSwitch_kept {x0 : Nat} {s : State} (h : Kept q n s) :
    ∃ t, execFwSwitch x0 s = .next t ∧ Kept q n t := by
  refine ⟨_, rfl, ?_⟩
  repeat' first
    | with_reducible assumption | with_reducible refine clocked_kept ?_ ?_ | with_reducible refine kept_at ?_ _
    | with_reducible refine switchNow_kept ?_ | intro _ _

theorem execFwPartSwap_kept {x0 : Nat} {x1 : Option BayNo} {s : State} (h : Kept q n s) :
    ∃ t, execFwPartSwap x0 x1 s = .next t ∧ Kept q n t := by
  refine ⟨_, rfl, ?_⟩
  repeat' first
    | with_reducible assumption | with_reducible refine settle_kept ?_ | with_reducible refine clocked_kept ?_ ?_
    | with_reducible refine kept_at ?_ _ | with_reducible refine partSwap_kept ?_ | intro _ _

theorem execAcuDrainEnd_kept {x0 : Nat} {s : State} (h : Kept q n s) :
    ∃ t, execAcuDrainEnd x0 s = .next t ∧ Kept q n t := by
  refine ⟨_, rfl, ?_⟩
  repeat' first
    | with_reducible assumption | with_reducible refine drainEnds_kept ?_ | with_reducible refine kept_at ?_ _

theorem execDebugAccess_kept {x0 : Nat} {x1 : Bool} {x2 : BitVec 40} {x3 : BitVec 11} {s : State} (h : Kept q n s) :
    ∃ t, execDebugAccess x0 x1 x2 x3 s = .next t ∧ Kept q n t := by
  refine ⟨_, rfl, ?_⟩
  repeat' first
    | with_reducible assumption | with_reducible refine debugAccess_kept ?_ | with_reducible refine kept_at ?_ _

theorem execEvrSecondEnd_kept {x0 : Nat} {s : State} (h : Kept q n s) :
    ∃ t, execEvrSecondEnd x0 s = .next t ∧ Kept q n t := by
  refine ⟨_, rfl, ?_⟩
  repeat' first
    | with_reducible assumption | with_reducible refine clocked_kept ?_ ?_ | with_reducible refine kept_at ?_ _
    | with_reducible refine secondEnd_kept ?_ | intro _ _

theorem execDoeDiscovery_kept {x0 : Nat} {x1 : Transport} {s : State} (h : Kept q n s) :
    ∃ t, execDoeDiscovery x0 x1 s = .next t ∧ Kept q n t := by
  refine ⟨_, rfl, ?_⟩
  repeat' first
    | with_reducible assumption | with_reducible refine linkWord_kept ?_ ?_ | with_reducible refine kept_at ?_ _
    | with_reducible refine onTransport_kept ?_ ?_ | with_reducible refine answer_kept ?_ | with_reducible refine kept_ite ?_ ?_
    | intro _ _

theorem execCdatTableAccess_kept {x0 : Nat} {x1 : LdNo} {s : State} (h : Kept q n s) :
    ∃ t, execCdatTableAccess x0 x1 s = .next t ∧ Kept q n t := by
  refine ⟨_, rfl, ?_⟩
  repeat' first
    | with_reducible assumption | with_reducible refine linkWord_kept ?_ ?_ | with_reducible refine kept_at ?_ _
    | with_reducible refine onTransport_kept ?_ ?_ | with_reducible refine answer_kept ?_ | intro _ _

theorem execGetMeasurements_kept {x0 : Nat} {x1 : Transport} {x2 : Fin 9} {x3 : Fin 9} {x4 : Bool} {s : State} (h : Kept q n s) :
    ∃ t, execGetMeasurements x0 x1 x2 x3 x4 s = .next t ∧ Kept q n t := by
  refine ⟨_, rfl, ?_⟩
  refine linkWord_kept (kept_at h _) (fun s h => ?_)
  exact onTransport_kept h (kept_ite (signedAnswer_kept h (fun _ h => h)) (answer_kept h))

theorem execChallenge_kept {x0 : Nat} {x1 : Transport} {s : State} (h : Kept q n s) :
    ∃ t, execChallenge x0 x1 s = .next t ∧ Kept q n t := by
  refine ⟨_, rfl, ?_⟩
  repeat' first
    | with_reducible assumption | with_reducible refine linkWord_kept ?_ ?_ | with_reducible refine kept_at ?_ _
    | with_reducible refine onTransport_kept ?_ ?_ | with_reducible refine challenged_kept ?_ | intro _ _

theorem execKeyExchange_kept {x0 : Nat} {x1 : Transport} {x2 : ReqKey} {s : State} (h : Kept q n s) :
    ∃ t, execKeyExchange x0 x1 x2 s = .next t ∧ Kept q n t := by
  refine ⟨_, rfl, ?_⟩
  repeat' first
    | with_reducible assumption | with_reducible refine linkWord_kept ?_ ?_ | with_reducible refine kept_at ?_ _
    | with_reducible refine onTransport_kept ?_ ?_ | with_reducible refine exchangeKeys_kept ?_ | intro _ _

theorem execEndSession_kept {x0 : Nat} {x1 : BitVec 3} {s : State} (h : Kept q n s) :
    ∃ t, execEndSession x0 x1 s = .next t ∧ Kept q n t := by
  refine ⟨_, rfl, ?_⟩
  repeat' first
    | with_reducible assumption | with_reducible refine linkWord_kept ?_ ?_ | with_reducible refine kept_at ?_ _
    | with_reducible refine inSession_kept ?_ ?_ | with_reducible refine answer_kept ?_
    | with_reducible refine endSessionNo_kept ?_ | intro _ _ | intro _

theorem execHeartbeat_kept {x0 : Nat} {x1 : BitVec 3} {s : State} (h : Kept q n s) :
    ∃ t, execHeartbeat x0 x1 s = .next t ∧ Kept q n t := by
  refine ⟨_, rfl, ?_⟩
  repeat' first
    | with_reducible assumption | with_reducible refine linkWord_kept ?_ ?_ | with_reducible refine kept_at ?_ _
    | with_reducible refine inSession_kept ?_ ?_ | with_reducible refine answer_kept ?_ | intro _ _ | intro _
    | with_reducible refine kept_lit ?_ rfl rfl rfl

theorem execHeartbeatLoss_kept {x0 : Nat} {x1 : BitVec 3} {s : State} (h : Kept q n s) :
    ∃ t, execHeartbeatLoss x0 x1 s = .next t ∧ Kept q n t := by
  refine ⟨_, rfl, ?_⟩
  repeat' first
    | with_reducible assumption | with_reducible refine heartbeatLost_kept ?_ | with_reducible refine kept_at ?_ _

theorem execIdeKeyProgram_kept {x0 : Nat} {x1 : HeadNo} {x2 : Bool} {x3 : BitVec 3} {x4 : Bytes} {s : State} (h : Kept q n s) :
    ∃ t, execIdeKeyProgram x0 x1 x2 x3 x4 s = .next t ∧ Kept q n t := by
  refine ⟨_, rfl, ?_⟩
  repeat' first
    | with_reducible assumption | with_reducible refine linkWord_kept ?_ ?_ | with_reducible refine kept_at ?_ _
    | with_reducible refine programIde_kept ?_ | intro _ _

theorem execMbxIdentify_kept {x0 : Nat} {x1 : LdNo} {s : State} (h : Kept q n s) :
    ∃ t, execMbxIdentify x0 x1 s = .next t ∧ Kept q n t := by
  refine ⟨_, rfl, ?_⟩
  repeat' first
    | with_reducible assumption | with_reducible refine linkWord_kept ?_ ?_ | with_reducible refine kept_at ?_ _
    | with_reducible refine onMailbox_kept ?_ ?_ | with_reducible refine mailboxOk_kept ?_ | intro _ _

theorem execIdentifyMemoryDevice_kept {x0 : Nat} {x1 : LdNo} {s : State} (h : Kept q n s) :
    ∃ t, execIdentifyMemoryDevice x0 x1 s = .next t ∧ Kept q n t := by
  refine ⟨_, rfl, ?_⟩
  repeat' first
    | with_reducible assumption | with_reducible refine linkWord_kept ?_ ?_ | with_reducible refine kept_at ?_ _
    | with_reducible refine onMailbox_kept ?_ ?_ | with_reducible refine mailboxOk_kept ?_ | intro _ _

theorem execGetSupportedLogs_kept {x0 : Nat} {x1 : LdNo} {s : State} (h : Kept q n s) :
    ∃ t, execGetSupportedLogs x0 x1 s = .next t ∧ Kept q n t := by
  refine ⟨_, rfl, ?_⟩
  repeat' first
    | with_reducible assumption | with_reducible refine linkWord_kept ?_ ?_ | with_reducible refine kept_at ?_ _
    | with_reducible refine onMailbox_kept ?_ ?_ | with_reducible refine mailboxOk_kept ?_ | intro _ _

theorem execGetLog_kept {x0 : Nat} {x1 : LdNo} {s : State} (h : Kept q n s) :
    ∃ t, execGetLog x0 x1 s = .next t ∧ Kept q n t := by
  refine ⟨_, rfl, ?_⟩
  repeat' first
    | with_reducible assumption | with_reducible refine linkWord_kept ?_ ?_ | with_reducible refine kept_at ?_ _
    | with_reducible refine onMailbox_kept ?_ ?_ | with_reducible refine mailboxOk_kept ?_ | intro _ _

theorem execGetPoisonList_kept {x0 : Nat} {x1 : LdNo} {s : State} (h : Kept q n s) :
    ∃ t, execGetPoisonList x0 x1 s = .next t ∧ Kept q n t := by
  refine ⟨_, rfl, ?_⟩
  repeat' first
    | with_reducible assumption | with_reducible refine linkWord_kept ?_ ?_ | with_reducible refine kept_at ?_ _
    | with_reducible refine onMailbox_kept ?_ ?_ | with_reducible refine mailboxOk_kept ?_ | intro _ _

theorem execKallekTunnel_kept {x0 : Nat} {x1 : LdNo} {x2 : KHdr} {x3 : Byte} {x4 : Bytes} {s : State} (h : Kept q n s) :
    ∃ t, execKallekTunnel x0 x1 x2 x3 x4 s = .next t ∧ Kept q n t := by
  refine ⟨_, rfl, ?_⟩
  repeat' first
    | with_reducible assumption | with_reducible refine settle_kept ?_ | with_reducible refine linkWord_kept ?_ ?_
    | with_reducible refine kept_at ?_ _ | with_reducible refine kallekWord_kept ?_ ?_ | with_reducible refine tunnel_kept ?_
    | intro _ _

theorem execMbxUnsupported_kept {x0 : Nat} {x1 : LdNo} {x2 : BitVec 16} {s : State} (h : Kept q n s) :
    ∃ t, execMbxUnsupported x0 x1 x2 s = .next t ∧ Kept q n t := by
  refine ⟨_, rfl, ?_⟩
  repeat' first
    | with_reducible assumption | with_reducible refine linkWord_kept ?_ ?_ | with_reducible refine kept_at ?_ _
    | with_reducible refine onMailbox_kept ?_ ?_ | with_reducible refine emit_kept ?_ | intro _ _

theorem execFmIdentify_kept {x0 : Nat} {s : State} (h : Kept q n s) :
    ∃ t, execFmIdentify x0 s = .next t ∧ Kept q n t := by
  refine ⟨_, rfl, ?_⟩
  repeat' first
    | with_reducible assumption | with_reducible refine linkWord_kept ?_ ?_ | with_reducible refine kept_at ?_ _
    | with_reducible refine onFm_kept ?_ ?_ | with_reducible refine fmOk_kept ?_ | intro _ _

theorem execGetLdInfo_kept {x0 : Nat} {s : State} (h : Kept q n s) :
    ∃ t, execGetLdInfo x0 s = .next t ∧ Kept q n t := by
  refine ⟨_, rfl, ?_⟩
  repeat' first
    | with_reducible assumption | with_reducible refine linkWord_kept ?_ ?_ | with_reducible refine kept_at ?_ _
    | with_reducible refine onFm_kept ?_ ?_ | with_reducible refine fmOk_kept ?_ | intro _ _

theorem execGetLdAllocations_kept {x0 : Nat} {x1 : HeadNo} {s : State} (h : Kept q n s) :
    ∃ t, execGetLdAllocations x0 x1 s = .next t ∧ Kept q n t := by
  refine ⟨_, rfl, ?_⟩
  repeat' first
    | with_reducible assumption | with_reducible refine linkWord_kept ?_ ?_ | with_reducible refine kept_at ?_ _
    | with_reducible refine onFm_kept ?_ ?_ | with_reducible refine fmOk_kept ?_ | intro _ _

theorem execSetLdAllocations_kept {x0 : Nat} {x1 : HeadNo} {x2 : Nat} {x3 : Nat} {s : State} (h : Kept q n s) :
    ∃ t, execSetLdAllocations x0 x1 x2 x3 s = .next t ∧ Kept q n t := by
  refine ⟨_, rfl, ?_⟩
  repeat' first
    | with_reducible assumption | with_reducible refine linkWord_kept ?_ ?_ | with_reducible refine kept_at ?_ _
    | with_reducible refine allocate_kept ?_ | intro _ _

theorem execGetMultiHeadedInfo_kept {x0 : Nat} {s : State} (h : Kept q n s) :
    ∃ t, execGetMultiHeadedInfo x0 s = .next t ∧ Kept q n t := by
  refine ⟨_, rfl, ?_⟩
  repeat' first
    | with_reducible assumption | with_reducible refine linkWord_kept ?_ ?_ | with_reducible refine kept_at ?_ _
    | with_reducible refine onFm_kept ?_ ?_ | with_reducible refine fmOk_kept ?_ | intro _ _

theorem execGetHeadInfo_kept {x0 : Nat} {s : State} (h : Kept q n s) :
    ∃ t, execGetHeadInfo x0 s = .next t ∧ Kept q n t := by
  refine ⟨_, rfl, ?_⟩
  repeat' first
    | with_reducible assumption | with_reducible refine linkWord_kept ?_ ?_ | with_reducible refine kept_at ?_ _
    | with_reducible refine onFm_kept ?_ ?_ | with_reducible refine fmOk_kept ?_ | intro _ _

theorem execGetQosStatus_kept {x0 : Nat} {x1 : HeadNo} {s : State} (h : Kept q n s) :
    ∃ t, execGetQosStatus x0 x1 s = .next t ∧ Kept q n t := by
  refine ⟨_, rfl, ?_⟩
  repeat' first
    | with_reducible assumption | with_reducible refine linkWord_kept ?_ ?_ | with_reducible refine kept_at ?_ _
    | with_reducible refine onFm_kept ?_ ?_ | with_reducible refine fmOk_kept ?_ | intro _ _

theorem execFmUnsupported_kept {x0 : Nat} {x1 : BitVec 16} {s : State} (h : Kept q n s) :
    ∃ t, execFmUnsupported x0 x1 s = .next t ∧ Kept q n t := by
  refine ⟨_, rfl, ?_⟩
  repeat' first
    | with_reducible assumption | with_reducible refine linkWord_kept ?_ ?_ | with_reducible refine kept_at ?_ _
    | with_reducible refine onFm_kept ?_ ?_ | with_reducible refine emit_kept ?_ | intro _ _

theorem execEntdaa_kept {x0 : Nat} {x1 : BitVec 7} {s : State} (h : Kept q n s) :
    ∃ t, execEntdaa x0 x1 s = .next t ∧ Kept q n t := by
  refine ⟨_, rfl, ?_⟩
  repeat' first
    | with_reducible assumption | with_reducible refine linkWord_kept ?_ ?_ | with_reducible refine kept_at ?_ _
    | with_reducible refine onI3c_kept ?_ ?_ | with_reducible refine mctpOk_kept ?_ | intro _ _
    | with_reducible refine kept_lit ?_ rfl rfl rfl

theorem execSetEndpointId_kept {x0 : Nat} {x1 : Byte} {s : State} (h : Kept q n s) :
    ∃ t, execSetEndpointId x0 x1 s = .next t ∧ Kept q n t := by
  refine ⟨_, rfl, ?_⟩
  repeat' first
    | with_reducible assumption | with_reducible refine linkWord_kept ?_ ?_ | with_reducible refine kept_at ?_ _
    | with_reducible refine onI3c_kept ?_ ?_ | with_reducible refine mctpOk_kept ?_ | intro _ _
    | with_reducible refine kept_lit ?_ rfl rfl rfl

theorem execGetEndpointId_kept {x0 : Nat} {s : State} (h : Kept q n s) :
    ∃ t, execGetEndpointId x0 s = .next t ∧ Kept q n t := by
  refine ⟨_, rfl, ?_⟩
  repeat' first
    | with_reducible assumption | with_reducible refine linkWord_kept ?_ ?_ | with_reducible refine kept_at ?_ _
    | with_reducible refine onI3c_kept ?_ ?_ | with_reducible refine mctpOk_kept ?_ | intro _ _

theorem execGetEndpointUuid_kept {x0 : Nat} {s : State} (h : Kept q n s) :
    ∃ t, execGetEndpointUuid x0 s = .next t ∧ Kept q n t := by
  refine ⟨_, rfl, ?_⟩
  repeat' first
    | with_reducible assumption | with_reducible refine linkWord_kept ?_ ?_ | with_reducible refine kept_at ?_ _
    | with_reducible refine onI3c_kept ?_ ?_ | with_reducible refine mctpOk_kept ?_ | intro _ _

theorem execGetMctpVersionSupport_kept {x0 : Nat} {s : State} (h : Kept q n s) :
    ∃ t, execGetMctpVersionSupport x0 s = .next t ∧ Kept q n t := by
  refine ⟨_, rfl, ?_⟩
  repeat' first
    | with_reducible assumption | with_reducible refine linkWord_kept ?_ ?_ | with_reducible refine kept_at ?_ _
    | with_reducible refine onI3c_kept ?_ ?_ | with_reducible refine mctpOk_kept ?_ | intro _ _

theorem execGetMessageTypeSupport_kept {x0 : Nat} {s : State} (h : Kept q n s) :
    ∃ t, execGetMessageTypeSupport x0 s = .next t ∧ Kept q n t := by
  refine ⟨_, rfl, ?_⟩
  repeat' first
    | with_reducible assumption | with_reducible refine linkWord_kept ?_ ?_ | with_reducible refine kept_at ?_ _
    | with_reducible refine onI3c_kept ?_ ?_ | with_reducible refine mctpOk_kept ?_ | intro _ _

theorem execGetVendorMessageSupport_kept {x0 : Nat} {s : State} (h : Kept q n s) :
    ∃ t, execGetVendorMessageSupport x0 s = .next t ∧ Kept q n t := by
  refine ⟨_, rfl, ?_⟩
  repeat' first
    | with_reducible assumption | with_reducible refine linkWord_kept ?_ ?_ | with_reducible refine kept_at ?_ _
    | with_reducible refine onI3c_kept ?_ ?_ | with_reducible refine mctpOk_kept ?_ | intro _ _

theorem execResetNDeassert_kept {x0 : Nat} {s : State} (h : Kept q n s) :
    ∃ t, execResetNDeassert x0 s = .next t ∧ Kept q n t := by
  refine ⟨_, rfl, ?_⟩
  repeat' first
    | with_reducible assumption | with_reducible refine resetReleased_kept ?_ | with_reducible refine kept_at ?_ _

theorem execPerstDeassert_kept {x0 : Nat} {x1 : HeadNo} {s : State} (h : Kept q n s) :
    ∃ t, execPerstDeassert x0 x1 s = .next t ∧ Kept q n t := by
  refine ⟨_, rfl, ?_⟩
  repeat' first
    | with_reducible assumption | with_reducible refine perstHigh_kept ?_ | with_reducible refine kept_at ?_ _

theorem execBayFrameEnd_kept {x0 : Nat} {x1 : BayNo} {x2 : Nat} {s : State} (h : Kept q n s) :
    ∃ t, execBayFrameEnd x0 x1 x2 s = .next t ∧ Kept q n t := by
  refine ⟨_, rfl, ?_⟩
  repeat' first
    | with_reducible assumption | with_reducible refine bayFrame_kept ?_ | with_reducible refine kept_at ?_ _

theorem execFwPartSwapDone_kept {x0 : Nat} {s : State} (h : Kept q n s) :
    ∃ t, execFwPartSwapDone x0 s = .next t ∧ Kept q n t := by
  refine ⟨_, rfl, ?_⟩
  repeat' first
    | with_reducible assumption | with_reducible refine settle_kept ?_ | with_reducible refine clocked_kept ?_ ?_
    | with_reducible refine kept_at ?_ _ | with_reducible refine swapEnds_kept ?_ | intro _ _

theorem execUnboundAreaAccess_kept {x0 : Nat} {x1 : LdNo} {x2 : BitVec 27} {x3 : Bool} {x4 : BitVec 16} {s : State} (h : Kept q n s) :
    ∃ t, execUnboundAreaAccess x0 x1 x2 x3 x4 s = .next t ∧ Kept q n t := by
  refine ⟨_, rfl, ?_⟩
  repeat' first
    | with_reducible assumption | with_reducible refine unboundAccess_kept ?_ | with_reducible refine kept_at ?_ _

theorem execGetVersion_kept {x0 : Nat} {x1 : Transport} {s : State} (h : Kept q n s) :
    ∃ t, execGetVersion x0 x1 s = .next t ∧ Kept q n t := by
  refine ⟨_, rfl, ?_⟩
  repeat' first
    | with_reducible assumption | with_reducible refine linkWord_kept ?_ ?_ | with_reducible refine kept_at ?_ _
    | with_reducible refine onTransport_kept ?_ ?_ | with_reducible refine answer_kept ?_ | intro _ _

theorem execNegotiateAlgorithms_kept {x0 : Nat} {x1 : Transport} {s : State} (h : Kept q n s) :
    ∃ t, execNegotiateAlgorithms x0 x1 s = .next t ∧ Kept q n t := by
  refine ⟨_, rfl, ?_⟩
  repeat' first
    | with_reducible assumption | with_reducible refine linkWord_kept ?_ ?_ | with_reducible refine kept_at ?_ _
    | with_reducible refine onTransport_kept ?_ ?_ | with_reducible refine answer_kept ?_ | intro _ _

theorem execGetCertificate_kept {x0 : Nat} {x1 : Transport} {x2 : BitVec 3} {s : State} (h : Kept q n s) :
    ∃ t, execGetCertificate x0 x1 x2 s = .next t ∧ Kept q n t := by
  refine ⟨_, rfl, ?_⟩
  repeat' first
    | with_reducible assumption | with_reducible refine linkWord_kept ?_ ?_ | with_reducible refine kept_at ?_ _
    | with_reducible refine onTransport_kept ?_ ?_ | with_reducible refine certificate_kept ?_ | intro _ _

/-- A word that waited arrives. -/
theorem deliver_kept {c : Instr} {s : State} (h : Kept q n s) : Kept q n (deliver c s) := by
  unfold deliver
  split
  · exact after_kept (execSegmentEnd_kept h)
  · exact after_kept (execDmaReadCompletion_kept h)
  · exact after_kept (execDmaCompletionTimeout_kept h)
  · exact after_kept (execJournalReservationDurable_kept h)
  · exact after_kept (execInlineRequestWrite_kept h)
  · exact after_kept (execInlineResultRead_kept h)
  · exact after_kept (execInlineDroppedWrite_kept h)
  · exact after_kept (execInlineLookup_kept h)
  · exact after_kept (execInlineResultWrite_kept h)
  · exact after_kept (execResetDrain_kept h)
  · exact after_kept (execResetSquash_kept h)
  · exact after_kept (execDoorbell_kept h)
  · exact after_kept (execRingEntryWrite_kept h)
  · exact after_kept (execStagingPageWrite_kept h)
  · exact after_kept (execUnbackedAccess_kept h)
  · exact after_kept (execRegisterWrite_kept h)
  · exact after_kept (execMemInv_kept h)
  · exact after_kept (execConditionedBlock_kept h)
  · exact after_kept (execIslandEpochSwitch_kept h)
  · exact after_kept (execDebugAccess_kept h)
  · exact after_kept (execUnboundAreaAccess_kept h)
  · exact after_kept (execGet_kept h)
  · exact after_kept (execDescribe_kept h)
  · exact after_kept (execNext_kept h)
  · exact after_kept (execKallekUnknownOp_kept h)
  · exact after_kept (execJointOpen_kept h)
  · exact after_kept (execJointRead_kept h)
  · exact after_kept (execJointStage_kept h)
  · exact after_kept (execJointStatement_kept h)
  · exact after_kept (execJointSign_kept h)
  · exact after_kept (execJointCommit_kept h)
  · exact after_kept (execJointAbort_kept h)
  · exact after_kept (execJointStatus_kept h)
  · exact after_kept (execConfigRequest_kept h)
  · exact after_kept (execHdmDecoderCommit_kept h)
  · exact after_kept (execMsixUnmask_kept h)
  · exact after_kept (execDoeDiscovery_kept h)
  · exact after_kept (execCdatTableAccess_kept h)
  · exact after_kept (execGetMeasurements_kept h)
  · exact after_kept (execChallenge_kept h)
  · exact after_kept (execKeyExchange_kept h)
  · exact after_kept (execEndSession_kept h)
  · exact after_kept (execHeartbeat_kept h)
  · exact after_kept (execIdeKeyProgram_kept h)
  · exact after_kept (execMbxIdentify_kept h)
  · exact after_kept (execIdentifyMemoryDevice_kept h)
  · exact after_kept (execGetSupportedLogs_kept h)
  · exact after_kept (execGetLog_kept h)
  · exact after_kept (execGetPoisonList_kept h)
  · exact after_kept (execKallekTunnel_kept h)
  · exact after_kept (execMbxUnsupported_kept h)
  · exact after_kept (execFmIdentify_kept h)
  · exact after_kept (execGetLdInfo_kept h)
  · exact after_kept (execGetLdAllocations_kept h)
  · exact after_kept (execSetLdAllocations_kept h)
  · exact after_kept (execGetMultiHeadedInfo_kept h)
  · exact after_kept (execGetHeadInfo_kept h)
  · exact after_kept (execGetQosStatus_kept h)
  · exact after_kept (execFmUnsupported_kept h)
  · exact after_kept (execEntdaa_kept h)
  · exact after_kept (execSetEndpointId_kept h)
  · exact after_kept (execGetEndpointId_kept h)
  · exact after_kept (execGetEndpointUuid_kept h)
  · exact after_kept (execGetMctpVersionSupport_kept h)
  · exact after_kept (execGetMessageTypeSupport_kept h)
  · exact after_kept (execGetVendorMessageSupport_kept h)
  · exact after_kept (execGetVersion_kept h)
  · exact after_kept (execNegotiateAlgorithms_kept h)
  · exact after_kept (execGetCertificate_kept h)
  · exact h

theorem redeliver_kept {s : State} (h : Kept q n s) : Kept q n (redeliver s) :=
  kept_each _ (kept_lit h rfl rfl rfl) (fun _ _ h => deliver_kept h)

theorem execIslandClockReturn_kept {x0 : Nat} {x1 : Fin 33} {s : State} (h : Kept q n s) :
    ∃ t, execIslandClockReturn x0 x1 s = .next t ∧ Kept q n t :=
  ⟨_, rfl, redeliver_kept (clockReturns_kept (kept_at h _))⟩

theorem execJointSignVerified_kept {x0 : Nat} {x1 : BitVec 6} {s : State} (h : Kept q n s) :
    ∃ t, execJointSignVerified x0 x1 s = .next t ∧ Kept q n t :=
  ⟨_, rfl, redeliver_kept (settle_kept (clocked_kept (kept_at h _) (fun _ h => signVerified_kept h)))⟩

theorem execFrameEnd_kept {x0 : Nat} {s : State} (h : Kept q n s) : ∃ t, execFrameEnd x0 s = .next t ∧ Kept q n t :=
  ⟨_, rfl, redeliver_kept (framesEnd_kept (kept_at h _))⟩

end Sys2Proof.Machine
end

