-- ==== Sys2Proof/Laws/State.lean ====
section
/-! SUPPORT. What each named update of State leaves in each field, and what each accessor reads after it. -/

namespace Sys2Proof.Machine

open Sys2Proof

/-! ### at_ -/

section

variable (s : State) (t : Nat)

@[simp] theorem at__now : (at_ s t).now = max s.now (t % 2 ^ 64) := rfl
@[simp] theorem at__power : (at_ s t).power = s.power := rfl
@[simp] theorem at__ctl : (at_ s t).ctl = s.ctl := rfl
@[simp] theorem at__vault : (at_ s t).vault = s.vault := rfl
@[simp] theorem at__keys : (at_ s t).keys = s.keys := rfl
@[simp] theorem at__routes : (at_ s t).routes = s.routes := rfl
@[simp] theorem at__insts : (at_ s t).insts = s.insts := rfl
@[simp] theorem at__bays : (at_ s t).bays = s.bays := rfl
@[simp] theorem at__sched : (at_ s t).sched = s.sched := rfl
@[simp] theorem at__random : (at_ s t).random = s.random := rfl
@[simp] theorem at__alarm : (at_ s t).alarm = s.alarm := rfl
@[simp] theorem at__backup : (at_ s t).backup = s.backup := rfl
@[simp] theorem at__evr : (at_ s t).evr = s.evr := rfl
@[simp] theorem at__life : (at_ s t).life = s.life := rfl
@[simp] theorem at__fw : (at_ s t).fw = s.fw := rfl
@[simp] theorem at__acu : (at_ s t).acu = s.acu := rfl
@[simp] theorem at__link : (at_ s t).link = s.link := rfl
@[simp] theorem at__cnt : (at_ s t).cnt = s.cnt := rfl
@[simp] theorem at__kumCtr : (at_ s t).kumCtr = s.kumCtr := rfl
@[simp] theorem at__devCtr : (at_ s t).devCtr = s.devCtr := rfl
@[simp] theorem at__bad : (at_ s t).bad = s.bad := rfl
@[simp] theorem at__writers : (at_ s t).writers = s.writers := rfl
@[simp] theorem at__stores : (at_ s t).stores = s.stores := rfl
@[simp] theorem at__outbox : (at_ s t).outbox = s.outbox := rfl
@[simp] theorem at__free : (at_ s t).free = s.free := rfl
@[simp] theorem at__pending : (at_ s t).pending = s.pending := rfl

end

/-! ### emit -/

section

variable (s : State) (o : Out)

@[simp] theorem emit_now : (emit s o).now = s.now := rfl
@[simp] theorem emit_power : (emit s o).power = s.power := rfl
@[simp] theorem emit_ctl : (emit s o).ctl = s.ctl := rfl
@[simp] theorem emit_vault : (emit s o).vault = s.vault := rfl
@[simp] theorem emit_keys : (emit s o).keys = s.keys := rfl
@[simp] theorem emit_routes : (emit s o).routes = s.routes := rfl
@[simp] theorem emit_insts : (emit s o).insts = s.insts := rfl
@[simp] theorem emit_bays : (emit s o).bays = s.bays := rfl
@[simp] theorem emit_sched : (emit s o).sched = s.sched := rfl
@[simp] theorem emit_random : (emit s o).random = s.random := rfl
@[simp] theorem emit_alarm : (emit s o).alarm = s.alarm := rfl
@[simp] theorem emit_backup : (emit s o).backup = s.backup := rfl
@[simp] theorem emit_evr : (emit s o).evr = s.evr := rfl
@[simp] theorem emit_life : (emit s o).life = s.life := rfl
@[simp] theorem emit_fw : (emit s o).fw = s.fw := rfl
@[simp] theorem emit_acu : (emit s o).acu = s.acu := rfl
@[simp] theorem emit_link : (emit s o).link = s.link := rfl
@[simp] theorem emit_cnt : (emit s o).cnt = s.cnt := rfl
@[simp] theorem emit_kumCtr : (emit s o).kumCtr = s.kumCtr := rfl
@[simp] theorem emit_devCtr : (emit s o).devCtr = s.devCtr := rfl
@[simp] theorem emit_bad : (emit s o).bad = s.bad := rfl
@[simp] theorem emit_writers : (emit s o).writers = s.writers := rfl
@[simp] theorem emit_stores : (emit s o).stores = s.stores := rfl
@[simp] theorem emit_outbox : (emit s o).outbox = s.outbox ++ [o] := rfl
@[simp] theorem emit_free : (emit s o).free = s.free := rfl
@[simp] theorem emit_pending : (emit s o).pending = s.pending := rfl

end

/-! ### bumpBy -/

section

variable (s : State) (k n : Nat)

@[simp] theorem bumpBy_now : (bumpBy s k n).now = s.now := rfl
@[simp] theorem bumpBy_power : (bumpBy s k n).power = s.power := rfl
@[simp] theorem bumpBy_ctl : (bumpBy s k n).ctl = s.ctl := rfl
@[simp] theorem bumpBy_vault : (bumpBy s k n).vault = s.vault := rfl
@[simp] theorem bumpBy_keys : (bumpBy s k n).keys = s.keys := rfl
@[simp] theorem bumpBy_routes : (bumpBy s k n).routes = s.routes := rfl
@[simp] theorem bumpBy_insts : (bumpBy s k n).insts = s.insts := rfl
@[simp] theorem bumpBy_bays : (bumpBy s k n).bays = s.bays := rfl
@[simp] theorem bumpBy_sched : (bumpBy s k n).sched = s.sched := rfl
@[simp] theorem bumpBy_random : (bumpBy s k n).random = s.random := rfl
@[simp] theorem bumpBy_alarm : (bumpBy s k n).alarm = s.alarm := rfl
@[simp] theorem bumpBy_backup : (bumpBy s k n).backup = s.backup := rfl
@[simp] theorem bumpBy_evr : (bumpBy s k n).evr = s.evr := rfl
@[simp] theorem bumpBy_life : (bumpBy s k n).life = s.life := rfl
@[simp] theorem bumpBy_fw : (bumpBy s k n).fw = s.fw := rfl
@[simp] theorem bumpBy_acu : (bumpBy s k n).acu = s.acu := rfl
@[simp] theorem bumpBy_link : (bumpBy s k n).link = s.link := rfl
@[simp] theorem bumpBy_cnt : (bumpBy s k n).cnt = mmod 0 s.cnt k (fun v => (v + n) % 2 ^ 64) := rfl
@[simp] theorem bumpBy_kumCtr : (bumpBy s k n).kumCtr = s.kumCtr := rfl
@[simp] theorem bumpBy_devCtr : (bumpBy s k n).devCtr = s.devCtr := rfl
@[simp] theorem bumpBy_bad : (bumpBy s k n).bad = s.bad := rfl
@[simp] theorem bumpBy_writers : (bumpBy s k n).writers = s.writers := rfl
@[simp] theorem bumpBy_stores : (bumpBy s k n).stores = s.stores := rfl
@[simp] theorem bumpBy_outbox : (bumpBy s k n).outbox = s.outbox := rfl
@[simp] theorem bumpBy_free : (bumpBy s k n).free = s.free := rfl
@[simp] theorem bumpBy_pending : (bumpBy s k n).pending = s.pending := rfl

end

/-! ### setDevCounter -/

section

variable (s : State) (n v : Nat)

@[simp] theorem setDevCounter_now : (setDevCounter s n v).now = s.now := rfl
@[simp] theorem setDevCounter_power : (setDevCounter s n v).power = s.power := rfl
@[simp] theorem setDevCounter_ctl : (setDevCounter s n v).ctl = s.ctl := rfl
@[simp] theorem setDevCounter_vault : (setDevCounter s n v).vault = s.vault := rfl
@[simp] theorem setDevCounter_keys : (setDevCounter s n v).keys = s.keys := rfl
@[simp] theorem setDevCounter_routes : (setDevCounter s n v).routes = s.routes := rfl
@[simp] theorem setDevCounter_insts : (setDevCounter s n v).insts = s.insts := rfl
@[simp] theorem setDevCounter_bays : (setDevCounter s n v).bays = s.bays := rfl
@[simp] theorem setDevCounter_sched : (setDevCounter s n v).sched = s.sched := rfl
@[simp] theorem setDevCounter_random : (setDevCounter s n v).random = s.random := rfl
@[simp] theorem setDevCounter_alarm : (setDevCounter s n v).alarm = s.alarm := rfl
@[simp] theorem setDevCounter_backup : (setDevCounter s n v).backup = s.backup := rfl
@[simp] theorem setDevCounter_evr : (setDevCounter s n v).evr = s.evr := rfl
@[simp] theorem setDevCounter_life : (setDevCounter s n v).life = s.life := rfl
@[simp] theorem setDevCounter_fw : (setDevCounter s n v).fw = s.fw := rfl
@[simp] theorem setDevCounter_acu : (setDevCounter s n v).acu = s.acu := rfl
@[simp] theorem setDevCounter_link : (setDevCounter s n v).link = s.link := rfl
@[simp] theorem setDevCounter_cnt : (setDevCounter s n v).cnt = s.cnt := rfl
@[simp] theorem setDevCounter_kumCtr : (setDevCounter s n v).kumCtr = s.kumCtr := rfl
@[simp] theorem setDevCounter_devCtr : (setDevCounter s n v).devCtr = mset 0 s.devCtr n v := rfl
@[simp] theorem setDevCounter_bad : (setDevCounter s n v).bad = s.bad := rfl
@[simp] theorem setDevCounter_writers : (setDevCounter s n v).writers = s.writers := rfl
@[simp] theorem setDevCounter_stores : (setDevCounter s n v).stores = s.stores := rfl
@[simp] theorem setDevCounter_outbox : (setDevCounter s n v).outbox = s.outbox := rfl
@[simp] theorem setDevCounter_free : (setDevCounter s n v).free = s.free := rfl
@[simp] theorem setDevCounter_pending : (setDevCounter s n v).pending = s.pending := rfl

end

/-! ### setInst -/

section

variable (s : State) (i : Nat) (x : Inst)

@[simp] theorem setInst_now : (setInst s i x).now = s.now := rfl
@[simp] theorem setInst_power : (setInst s i x).power = s.power := rfl
@[simp] theorem setInst_ctl : (setInst s i x).ctl = s.ctl := rfl
@[simp] theorem setInst_vault : (setInst s i x).vault = s.vault := rfl
@[simp] theorem setInst_keys : (setInst s i x).keys = s.keys := rfl
@[simp] theorem setInst_routes : (setInst s i x).routes = s.routes := rfl
@[simp] theorem setInst_insts : (setInst s i x).insts = mset {} s.insts i x := rfl
@[simp] theorem setInst_bays : (setInst s i x).bays = s.bays := rfl
@[simp] theorem setInst_sched : (setInst s i x).sched = s.sched := rfl
@[simp] theorem setInst_random : (setInst s i x).random = s.random := rfl
@[simp] theorem setInst_alarm : (setInst s i x).alarm = s.alarm := rfl
@[simp] theorem setInst_backup : (setInst s i x).backup = s.backup := rfl
@[simp] theorem setInst_evr : (setInst s i x).evr = s.evr := rfl
@[simp] theorem setInst_life : (setInst s i x).life = s.life := rfl
@[simp] theorem setInst_fw : (setInst s i x).fw = s.fw := rfl
@[simp] theorem setInst_acu : (setInst s i x).acu = s.acu := rfl
@[simp] theorem setInst_link : (setInst s i x).link = s.link := rfl
@[simp] theorem setInst_cnt : (setInst s i x).cnt = s.cnt := rfl
@[simp] theorem setInst_kumCtr : (setInst s i x).kumCtr = s.kumCtr := rfl
@[simp] theorem setInst_devCtr : (setInst s i x).devCtr = s.devCtr := rfl
@[simp] theorem setInst_bad : (setInst s i x).bad = s.bad := rfl
@[simp] theorem setInst_writers : (setInst s i x).writers = s.writers := rfl
@[simp] theorem setInst_stores : (setInst s i x).stores = s.stores := rfl
@[simp] theorem setInst_outbox : (setInst s i x).outbox = s.outbox := rfl
@[simp] theorem setInst_free : (setInst s i x).free = s.free := rfl
@[simp] theorem setInst_pending : (setInst s i x).pending = s.pending := rfl

end

/-! ### setBay -/

section

variable (s : State) (b : Nat) (x : Bay)

@[simp] theorem setBay_now : (setBay s b x).now = s.now := rfl
@[simp] theorem setBay_power : (setBay s b x).power = s.power := rfl
@[simp] theorem setBay_ctl : (setBay s b x).ctl = s.ctl := rfl
@[simp] theorem setBay_vault : (setBay s b x).vault = s.vault := rfl
@[simp] theorem setBay_keys : (setBay s b x).keys = s.keys := rfl
@[simp] theorem setBay_routes : (setBay s b x).routes = s.routes := rfl
@[simp] theorem setBay_insts : (setBay s b x).insts = s.insts := rfl
@[simp] theorem setBay_bays : (setBay s b x).bays = mset {} s.bays b x := rfl
@[simp] theorem setBay_sched : (setBay s b x).sched = s.sched := rfl
@[simp] theorem setBay_random : (setBay s b x).random = s.random := rfl
@[simp] theorem setBay_alarm : (setBay s b x).alarm = s.alarm := rfl
@[simp] theorem setBay_backup : (setBay s b x).backup = s.backup := rfl
@[simp] theorem setBay_evr : (setBay s b x).evr = s.evr := rfl
@[simp] theorem setBay_life : (setBay s b x).life = s.life := rfl
@[simp] theorem setBay_fw : (setBay s b x).fw = s.fw := rfl
@[simp] theorem setBay_acu : (setBay s b x).acu = s.acu := rfl
@[simp] theorem setBay_link : (setBay s b x).link = s.link := rfl
@[simp] theorem setBay_cnt : (setBay s b x).cnt = s.cnt := rfl
@[simp] theorem setBay_kumCtr : (setBay s b x).kumCtr = s.kumCtr := rfl
@[simp] theorem setBay_devCtr : (setBay s b x).devCtr = s.devCtr := rfl
@[simp] theorem setBay_bad : (setBay s b x).bad = s.bad := rfl
@[simp] theorem setBay_writers : (setBay s b x).writers = s.writers := rfl
@[simp] theorem setBay_stores : (setBay s b x).stores = s.stores := rfl
@[simp] theorem setBay_outbox : (setBay s b x).outbox = s.outbox := rfl
@[simp] theorem setBay_free : (setBay s b x).free = s.free := rfl
@[simp] theorem setBay_pending : (setBay s b x).pending = s.pending := rfl

end

/-! ### setJoint -/

section

variable (s : State) (j : Nat) (x : Joint)

@[simp] theorem setJoint_now : (setJoint s j x).now = s.now := rfl
@[simp] theorem setJoint_power : (setJoint s j x).power = s.power := rfl
@[simp] theorem setJoint_ctl : (setJoint s j x).ctl = { s.ctl with joints := mset {} s.ctl.joints j x } := rfl
@[simp] theorem setJoint_vault : (setJoint s j x).vault = s.vault := rfl
@[simp] theorem setJoint_keys : (setJoint s j x).keys = s.keys := rfl
@[simp] theorem setJoint_routes : (setJoint s j x).routes = s.routes := rfl
@[simp] theorem setJoint_insts : (setJoint s j x).insts = s.insts := rfl
@[simp] theorem setJoint_bays : (setJoint s j x).bays = s.bays := rfl
@[simp] theorem setJoint_sched : (setJoint s j x).sched = s.sched := rfl
@[simp] theorem setJoint_random : (setJoint s j x).random = s.random := rfl
@[simp] theorem setJoint_alarm : (setJoint s j x).alarm = s.alarm := rfl
@[simp] theorem setJoint_backup : (setJoint s j x).backup = s.backup := rfl
@[simp] theorem setJoint_evr : (setJoint s j x).evr = s.evr := rfl
@[simp] theorem setJoint_life : (setJoint s j x).life = s.life := rfl
@[simp] theorem setJoint_fw : (setJoint s j x).fw = s.fw := rfl
@[simp] theorem setJoint_acu : (setJoint s j x).acu = s.acu := rfl
@[simp] theorem setJoint_link : (setJoint s j x).link = s.link := rfl
@[simp] theorem setJoint_cnt : (setJoint s j x).cnt = s.cnt := rfl
@[simp] theorem setJoint_kumCtr : (setJoint s j x).kumCtr = s.kumCtr := rfl
@[simp] theorem setJoint_devCtr : (setJoint s j x).devCtr = s.devCtr := rfl
@[simp] theorem setJoint_bad : (setJoint s j x).bad = s.bad := rfl
@[simp] theorem setJoint_writers : (setJoint s j x).writers = s.writers := rfl
@[simp] theorem setJoint_stores : (setJoint s j x).stores = s.stores := rfl
@[simp] theorem setJoint_outbox : (setJoint s j x).outbox = s.outbox := rfl
@[simp] theorem setJoint_free : (setJoint s j x).free = s.free := rfl
@[simp] theorem setJoint_pending : (setJoint s j x).pending = s.pending := rfl

end

/-! ### modHead -/

section

variable (s : State) (h : Nat) (f : Head → Head)

@[simp] theorem modHead_now : (modHead s h f).now = s.now := rfl
@[simp] theorem modHead_power : (modHead s h f).power = s.power := rfl
@[simp] theorem modHead_ctl : (modHead s h f).ctl = s.ctl := rfl
@[simp] theorem modHead_vault : (modHead s h f).vault = s.vault := rfl
@[simp] theorem modHead_keys : (modHead s h f).keys = s.keys := rfl
@[simp] theorem modHead_routes : (modHead s h f).routes = s.routes := rfl
@[simp] theorem modHead_insts : (modHead s h f).insts = s.insts := rfl
@[simp] theorem modHead_bays : (modHead s h f).bays = s.bays := rfl
@[simp] theorem modHead_sched : (modHead s h f).sched = s.sched := rfl
@[simp] theorem modHead_random : (modHead s h f).random = s.random := rfl
@[simp] theorem modHead_alarm : (modHead s h f).alarm = s.alarm := rfl
@[simp] theorem modHead_backup : (modHead s h f).backup = s.backup := rfl
@[simp] theorem modHead_evr : (modHead s h f).evr = s.evr := rfl
@[simp] theorem modHead_life : (modHead s h f).life = s.life := rfl
@[simp] theorem modHead_fw : (modHead s h f).fw = s.fw := rfl
@[simp] theorem modHead_acu : (modHead s h f).acu = s.acu := rfl
@[simp] theorem modHead_link : (modHead s h f).link = { s.link with heads := mmod {} s.link.heads h f } := rfl
@[simp] theorem modHead_cnt : (modHead s h f).cnt = s.cnt := rfl
@[simp] theorem modHead_kumCtr : (modHead s h f).kumCtr = s.kumCtr := rfl
@[simp] theorem modHead_devCtr : (modHead s h f).devCtr = s.devCtr := rfl
@[simp] theorem modHead_bad : (modHead s h f).bad = s.bad := rfl
@[simp] theorem modHead_writers : (modHead s h f).writers = s.writers := rfl
@[simp] theorem modHead_stores : (modHead s h f).stores = s.stores := rfl
@[simp] theorem modHead_outbox : (modHead s h f).outbox = s.outbox := rfl
@[simp] theorem modHead_free : (modHead s h f).free = s.free := rfl
@[simp] theorem modHead_pending : (modHead s h f).pending = s.pending := rfl

end

/-! ### modMon -/

section

variable (s : State) (m : Nat) (f : Mon → Mon)

@[simp] theorem modMon_now : (modMon s m f).now = s.now := rfl
@[simp] theorem modMon_power : (modMon s m f).power = s.power := rfl
@[simp] theorem modMon_ctl : (modMon s m f).ctl = s.ctl := rfl
@[simp] theorem modMon_vault : (modMon s m f).vault = s.vault := rfl
@[simp] theorem modMon_keys : (modMon s m f).keys = s.keys := rfl
@[simp] theorem modMon_routes : (modMon s m f).routes = s.routes := rfl
@[simp] theorem modMon_insts : (modMon s m f).insts = s.insts := rfl
@[simp] theorem modMon_bays : (modMon s m f).bays = s.bays := rfl
@[simp] theorem modMon_sched : (modMon s m f).sched = s.sched := rfl
@[simp] theorem modMon_random : (modMon s m f).random = s.random := rfl
@[simp] theorem modMon_alarm : (modMon s m f).alarm = { s.alarm with mons := mmod {} s.alarm.mons m f } := rfl
@[simp] theorem modMon_backup : (modMon s m f).backup = s.backup := rfl
@[simp] theorem modMon_evr : (modMon s m f).evr = s.evr := rfl
@[simp] theorem modMon_life : (modMon s m f).life = s.life := rfl
@[simp] theorem modMon_fw : (modMon s m f).fw = s.fw := rfl
@[simp] theorem modMon_acu : (modMon s m f).acu = s.acu := rfl
@[simp] theorem modMon_link : (modMon s m f).link = s.link := rfl
@[simp] theorem modMon_cnt : (modMon s m f).cnt = s.cnt := rfl
@[simp] theorem modMon_kumCtr : (modMon s m f).kumCtr = s.kumCtr := rfl
@[simp] theorem modMon_devCtr : (modMon s m f).devCtr = s.devCtr := rfl
@[simp] theorem modMon_bad : (modMon s m f).bad = s.bad := rfl
@[simp] theorem modMon_writers : (modMon s m f).writers = s.writers := rfl
@[simp] theorem modMon_stores : (modMon s m f).stores = s.stores := rfl
@[simp] theorem modMon_outbox : (modMon s m f).outbox = s.outbox := rfl
@[simp] theorem modMon_free : (modMon s m f).free = s.free := rfl
@[simp] theorem modMon_pending : (modMon s m f).pending = s.pending := rfl

end

/-! ### modChan -/

section

variable (s : State) (n : Nat) (f : Chan → Chan)

@[simp] theorem modChan_now : (modChan s n f).now = s.now := rfl
@[simp] theorem modChan_power : (modChan s n f).power = s.power := rfl
@[simp] theorem modChan_ctl : (modChan s n f).ctl = s.ctl := rfl
@[simp] theorem modChan_vault : (modChan s n f).vault = s.vault := rfl
@[simp] theorem modChan_keys : (modChan s n f).keys = s.keys := rfl
@[simp] theorem modChan_routes : (modChan s n f).routes = s.routes := rfl
@[simp] theorem modChan_insts : (modChan s n f).insts = s.insts := rfl
@[simp] theorem modChan_bays : (modChan s n f).bays = s.bays := rfl
@[simp] theorem modChan_sched : (modChan s n f).sched = s.sched := rfl
@[simp] theorem modChan_random : (modChan s n f).random = { s.random with chans := mmod {} s.random.chans n f } := rfl
@[simp] theorem modChan_alarm : (modChan s n f).alarm = s.alarm := rfl
@[simp] theorem modChan_backup : (modChan s n f).backup = s.backup := rfl
@[simp] theorem modChan_evr : (modChan s n f).evr = s.evr := rfl
@[simp] theorem modChan_life : (modChan s n f).life = s.life := rfl
@[simp] theorem modChan_fw : (modChan s n f).fw = s.fw := rfl
@[simp] theorem modChan_acu : (modChan s n f).acu = s.acu := rfl
@[simp] theorem modChan_link : (modChan s n f).link = s.link := rfl
@[simp] theorem modChan_cnt : (modChan s n f).cnt = s.cnt := rfl
@[simp] theorem modChan_kumCtr : (modChan s n f).kumCtr = s.kumCtr := rfl
@[simp] theorem modChan_devCtr : (modChan s n f).devCtr = s.devCtr := rfl
@[simp] theorem modChan_bad : (modChan s n f).bad = s.bad := rfl
@[simp] theorem modChan_writers : (modChan s n f).writers = s.writers := rfl
@[simp] theorem modChan_stores : (modChan s n f).stores = s.stores := rfl
@[simp] theorem modChan_outbox : (modChan s n f).outbox = s.outbox := rfl
@[simp] theorem modChan_free : (modChan s n f).free = s.free := rfl
@[simp] theorem modChan_pending : (modChan s n f).pending = s.pending := rfl

end

/-! ### Reading back -/

@[simp] theorem getInst_setInst_same (s : State) (i : Nat) (x : Inst) : getInst (setInst s i x) i = x := mget_mset_same _ _ _ _

theorem getInst_setInst_other (s : State) (i k : Nat) (x : Inst) (h : k ≠ i) : getInst (setInst s i x) k = getInst s k :=
  mget_mset_other _ _ _ _ _ h

@[simp] theorem getBay_setBay_same (s : State) (b : Nat) (x : Bay) : getBay (setBay s b x) b = x := mget_mset_same _ _ _ _

theorem getBay_setBay_other (s : State) (b k : Nat) (x : Bay) (h : k ≠ b) : getBay (setBay s b x) k = getBay s k :=
  mget_mset_other _ _ _ _ _ h

@[simp] theorem getJoint_setJoint_same (s : State) (j : Nat) (x : Joint) : getJoint (setJoint s j x) j = x := mget_mset_same _ _ _ _

theorem getJoint_setJoint_other (s : State) (j k : Nat) (x : Joint) (h : k ≠ j) : getJoint (setJoint s j x) k = getJoint s k :=
  mget_mset_other _ _ _ _ _ h

@[simp] theorem getHead_modHead_same (s : State) (h : Nat) (f : Head → Head) : getHead (modHead s h f) h = f (getHead s h) := mget_mset_same _ _ _ _

theorem getHead_modHead_other (s : State) (h k : Nat) (f : Head → Head) (e : k ≠ h) : getHead (modHead s h f) k = getHead s k :=
  mget_mset_other _ _ _ _ _ e

@[simp] theorem getMon_modMon_same (s : State) (m : Nat) (f : Mon → Mon) : getMon (modMon s m f) m = f (getMon s m) := mget_mset_same _ _ _ _

theorem getMon_modMon_other (s : State) (m k : Nat) (f : Mon → Mon) (e : k ≠ m) : getMon (modMon s m f) k = getMon s k :=
  mget_mset_other _ _ _ _ _ e

@[simp] theorem getChan_modChan_same (s : State) (n : Nat) (f : Chan → Chan) : getChan (modChan s n f) n = f (getChan s n) := mget_mset_same _ _ _ _

theorem getChan_modChan_other (s : State) (n k : Nat) (f : Chan → Chan) (e : k ≠ n) : getChan (modChan s n f) k = getChan s k :=
  mget_mset_other _ _ _ _ _ e

@[simp] theorem getSlot_setSlot_same (x : Inst) (n : Nat) (v : InSlot) : getSlot (setSlot x n v) n = v := mget_mset_same _ _ _ _

theorem getSlot_setSlot_other (x : Inst) (n k : Nat) (v : InSlot) (h : k ≠ n) : getSlot (setSlot x n v) k = getSlot x k :=
  mget_mset_other _ _ _ _ _ h

@[simp] theorem devCounter_setDevCounter_same (s : State) (n v : Nat) : devCounter (setDevCounter s n v) n = v := mget_mset_same _ _ _ _

theorem devCounter_setDevCounter_other (s : State) (n k v : Nat) (h : k ≠ n) : devCounter (setDevCounter s n v) k = devCounter s k :=
  mget_mset_other _ _ _ _ _ h

end Sys2Proof.Machine
end

