-- ==== Sys2Proof/Laws/Shared.lean ====
section
/-! SUPPORT. What each shared operation may write, said once: the recorder, the counters, the outbox, what answers a host, what
closes a bay. -/

namespace Sys2Proof.Machine

open Sys2Proof Sys2Proof.Safety

/-! ## The recorder and the counters -/

theorem intake_evr (s : State) (es : List EvRec) : intake s es = { s with evr := (intake s es).evr } := by
  unfold intake
  split
  · rfl
  · split <;> rfl

theorem recordLimited_evr (s : State) (code source : Nat) (args : Bytes) :
    recordLimited s code source args = { s with evr := (recordLimited s code source args).evr } := by
  unfold recordLimited
  dsimp only
  split
  · rw [intake_evr]
  · rfl

/-- An event of a limited or exempt code writes the recorder and nothing else. -/
theorem record_evr (s : State) (code source : Nat) (args : Bytes) :
    record s code source args = { s with evr := (record s code source args).evr } := by
  unfold record
  split
  · exact intake_evr s _
  · exact recordLimited_evr s _ _ _

/-- A repetition of a change that writes only the recorder writes only the recorder. -/
theorem each_evr {α : Type} (xs : List α) (f : State → α → State) (h : ∀ s a, f s a = { s with evr := (f s a).evr }) (s : State) :
    each xs s f = { s with evr := (each xs s f).evr } := by
  unfold each
  induction xs generalizing s with
  | nil => rfl
  | cons a rest ih =>
    simp only [List.foldl]
    rw [ih (f s a), h s a]

theorem Beside.refl (s : State) : Beside s s := rfl

theorem Noted.refl (s : State) : Noted s s := rfl

theorem Noted.record {w s : State} (h : Noted w s) (code source : Nat) (args : Bytes) : Noted w (record s code source args) := by
  rw [record_evr]
  unfold Noted at *
  rw [h]

theorem Noted.bumpBy {w s : State} (h : Noted w s) (k n : Nat) : Noted w (bumpBy s k n) := by
  unfold Noted at *
  rw [h]
  rfl

/-- The recording of a change of modes writes the modes last recorded, a counter and the recorder. -/
theorem settle_beside (s : State) : Beside s (settle s) := by
  unfold settle
  dsimp only
  split
  · rfl
  · rw [record_evr]
    rfl

theorem Noted.settle {w s : State} (h : Noted w s) : Beside w (settle s) := by
  have h1 : s = { w with cnt := s.cnt, evr := s.evr } := h
  have h2 : Machine.settle s = { s with power := { s.power with modes := (Machine.settle s).power.modes }, cnt := (Machine.settle s).cnt,
                                        evr := (Machine.settle s).evr } := settle_beside s
  show Machine.settle s = { w with power := { w.power with modes := (Machine.settle s).power.modes }, cnt := (Machine.settle s).cnt,
                                   evr := (Machine.settle s).evr }
  have h3 : s.power = w.power := by rw [h1]
  calc Machine.settle s = { s with power := { s.power with modes := (Machine.settle s).power.modes }, cnt := (Machine.settle s).cnt,
                                   evr := (Machine.settle s).evr } := h2
    _ = _ := by
      rw [h3]
      generalize (Machine.settle s).power.modes = a
      generalize (Machine.settle s).cnt = b
      generalize (Machine.settle s).evr = c
      rw [h1]

/-! ## Clocks and words -/

/-- An event of islands whose clocks all run takes place; where one stands still nothing does (R22). -/
theorem clocked_runs (s : State) (islands : List Nat) (f : State → State) (h : ∀ k ∈ islands, islandRuns s k = true) :
    clocked s islands f = f s := by
  unfold clocked
  rw [if_pos (List.all_eq_true.2 h)]

theorem clocked_stands (s : State) (islands : List Nat) (f : State → State) (k : Nat) (hk : k ∈ islands) (h : islandRuns s k = false) :
    clocked s islands f = s := by
  unfold clocked
  rw [if_neg]
  intro c
  rw [List.all_eq_true.1 c k hk] at h
  cases h

/-- Words written into a memory make those words whole, and a pass that runs over it skips their entry; nothing else changes (R27, R29,
R270). -/
theorem writeWords_frame (s : State) (mem w n : Nat) :
    writeWords s mem w n = { s with bad := (writeWords s mem w n).bad, keys := { s.keys with slotMask := (writeWords s mem w n).keys.slotMask } } := by
  unfold writeWords noteFresh
  dsimp only
  split <;> rfl

/-! ## Answers to a host -/

/-- A write or invalidation is answered, a read is answered or poisoned: the outbox grows by one message. -/
theorem answerRead_outbox (s : State) (ld tag : Nat) (data : Bytes) :
    answerRead s ld tag data = { s with outbox := s.outbox ++ [.read ld tag (loadOf s ld) data] } := rfl

theorem answerPoison_outbox (s : State) (ld tag : Nat) :
    answerPoison s ld tag = { s with outbox := s.outbox ++ [.poison ld tag (loadOf s ld)] } := rfl

theorem answerHeld_outbox (s : State) (h : Option Held) (line : Bytes) :
    answerHeld s h line = { s with outbox := (answerHeld s h line).outbox } := by
  unfold answerHeld
  split <;> rfl

/-- A Kallek reply is one message, whatever it answers. -/
theorem kReply_outbox (s : State) (h : KHdr) (op status : Nat) (body : Bytes) :
    kReply s h op status body = { s with outbox := s.outbox ++ [.kallek h op status body] } := rfl

/-! ## Access control, seeds, bays -/

/-- A violation counts, is captured where nothing is, and is recorded. -/
theorem violation_acu (s : State) (rule master len addr : Nat) (isRead : Bool) :
    violation s rule master len addr isRead =
      { s with acu := (violation s rule master len addr isRead).acu, evr := (violation s rule master len addr isRead).evr } ∧
    (violation s rule master len addr isRead).acu.count = min 0xFFFFFFFF (s.acu.count + 1) := by
  unfold violation
  dsimp only
  rw [record_evr]
  exact ⟨rfl, rfl⟩

/-- A request for random bits joins the queue of them, or takes the earlier place of the consumer that asks. -/
theorem requestSeed_random (s : State) (prio : Nat) (who : Consumer) (need : Nat) :
    requestSeed s prio who need = { s with random := { s.random with reqs := (requestSeed s prio who need).random.reqs } } := by
  unfold requestSeed
  dsimp only
  split <;> rfl

theorem setBook_bays (s : State) (b frame e : Nat) : setBook s b frame e = { s with bays := (setBook s b frame e).bays } := rfl

theorem each_bays {α : Type} (xs : List α) (f : State → α → State) (h : ∀ s a, f s a = { s with bays := (f s a).bays }) (s : State) :
    each xs s f = { s with bays := (each xs s f).bays } := by
  unfold each
  induction xs generalizing s with
  | nil => rfl
  | cons a rest ih =>
    simp only [List.foldl]
    rw [ih (f s a), h s a]

/-- A bay that closes changes no other part of the machine than the bays. -/
theorem closeBay_bays (s : State) (b : Nat) (why : BayOut) : closeBay s b why = { s with bays := (closeBay s b why).bays } := by
  unfold closeBay
  split
  · rfl
  · have hc : closeEntries s b (s.now / 2000) = { s with bays := (closeEntries s b (s.now / 2000)).bays } := by
      unfold closeEntries
      apply each_bays
      intro s a
      dsimp only
      split <;> rfl
    unfold modBay setBay
    rw [hc]

end Sys2Proof.Machine
end

