-- ==== Sys2Proof/Laws/Runs.lean ====
section
/-! SUPPORT. What the shared operations of running operations do, said once for each. -/

namespace Sys2Proof.Machine

open Sys2Proof Sys2Proof.Safety

/-! ## Engines -/

/-- An engine that writes its memory makes its words whole (R27). -/
theorem writeEngine_frame (s : State) (b k : Nat) :
    writeEngine s b k = { s with bad := s.bad.filter (fun e => !inEngines b [k] e.1) } := by
  unfold writeEngine writeWords noteFresh
  rw [if_neg (by
    unfold engineWords memMasked
    split
    · simp [memBnc]
    · split <;> simp [memCipher, memLane])]
  congr 2
  funext e
  simp only [inEngines, List.any_cons, List.any_nil, Bool.or_false, Bool.not_and, ← decide_not, Nat.not_le, Nat.not_lt]

theorem seatEngine_frame (s : State) (b op k : Nat) :
    seatEngine s b op k = { s with
      bays := (seatEngine s b op k).bays, free := (seatEngine s b op k).free, bad := s.bad.filter (fun e => !inEngines b [k] e.1) } := by
  unfold seatEngine
  dsimp only
  rw [writeEngine_frame]
  rfl

theorem seatEngine_other (s : State) (b op k b' : Nat) (h : b' ≠ b) : getBay (seatEngine s b op k) b' = getBay s b' := by
  unfold seatEngine
  dsimp only
  rw [writeEngine_frame]
  exact mget_mset_other _ _ _ _ _ h

theorem seatEngine_bay (s : State) (b op k : Nat) :
    getBay (seatEngine s b op k) b = { getBay s b with mem :=
      (mmod {} (getBay s b).mem k (fun m => { m with key := .ofOp op s.free, io := .ofOp op s.free })) } := by
  unfold seatEngine
  dsimp only
  rw [writeEngine_frame]
  exact mget_mset_same _ _ _ _

theorem inEngines_cons (b a : Nat) (ks : List Nat) (key : Nat) :
    inEngines b (a :: ks) key = (inEngines b [a] key || inEngines b ks key) := by
  simp [inEngines]

/-- Seating the segments of an operation changes the memories of its seats, whose words are whole again, and nothing else. -/
theorem seats_frame (b op : Nat) (ks : List Nat) (s : State) :
    each ks s (fun s k => seatEngine s b op k) =
        { s with bays := (each ks s (fun s k => seatEngine s b op k)).bays, free := (each ks s (fun s k => seatEngine s b op k)).free
                 bad := s.bad.filter (fun e => !inEngines b ks e.1) } ∧
    (∀ b', b' ≠ b → getBay (each ks s (fun s k => seatEngine s b op k)) b' = getBay s b') ∧
    getBay (each ks s (fun s k => seatEngine s b op k)) b =
        { getBay s b with mem := (getBay (each ks s (fun s k => seatEngine s b op k)) b).mem } ∧
    (∀ k ∈ ks, ∃ id, mget {} (getBay (each ks s (fun s k => seatEngine s b op k)) b).mem k =
      { mget {} (getBay s b).mem k with key := .ofOp op id, io := .ofOp op id }) ∧
    (∀ k, k ∉ ks → mget {} (getBay (each ks s (fun s k => seatEngine s b op k)) b).mem k = mget {} (getBay s b).mem k) := by
  induction ks generalizing s with
  | nil =>
    refine ⟨?_, fun _ _ => rfl, rfl, by simp, fun _ _ => rfl⟩
    have : s.bad.filter (fun e => !inEngines b [] e.1) = s.bad := List.filter_eq_self.2 (fun _ _ => rfl)
    rw [this]
    rfl
  | cons a rest ih =>
    obtain ⟨h1, h2, h3, h4, h5⟩ := ih (seatEngine s b op a)
    have he : each (a :: rest) s (fun s k => seatEngine s b op k) = each rest (seatEngine s b op a) (fun s k => seatEngine s b op k) := rfl
    rw [he]
    have hb := seatEngine_bay s b op a
    refine ⟨?_, ?_, ?_, ?_, ?_⟩
    · generalize each rest (seatEngine s b op a) (fun s k => seatEngine s b op k) = v at *
      have hf : (s.bad.filter (fun e => !inEngines b [a] e.1)).filter (fun e => !inEngines b rest e.1) =
          s.bad.filter (fun e => !inEngines b (a :: rest) e.1) := by
        rw [List.filter_filter]
        congr 1
        funext e
        rw [inEngines_cons b a rest, Bool.not_or, Bool.and_comm]
      rw [seatEngine_frame s b op a] at h1
      rw [← hf]
      exact h1
    · intro b' hb'
      rw [h2 b' hb', seatEngine_other s b op a b' hb']
    · rw [h3, hb]
    · intro k hk
      by_cases hr : k ∈ rest
      · obtain ⟨id, h⟩ := h4 k hr
        refine ⟨id, ?_⟩
        rw [h, hb]
        by_cases hka : k = a
        · subst hka; simp [mmod]
        · simp [mmod, mget_mset_other _ _ _ _ _ hka]
      · rcases List.mem_cons.1 hk with rfl | hk
        · refine ⟨s.free, ?_⟩
          rw [h5 k hr, hb]
          simp [mmod]
        · exact absurd hk hr
    · intro k hk
      have hka : k ≠ a := fun h => hk (by simp [h])
      rw [h5 k (fun h => hk (List.mem_cons_of_mem _ h)), hb]
      simp [mmod, mget_mset_other _ _ _ _ _ hka]

/-! ## A mismatched word -/

/-- Raising a monitor writes its latch, the counters of the recorder and the recorder. -/
theorem raiseIf_frame (s : State) (m : Nat) (d : Bytes) (c : Bool) :
    raiseIf s m d c = { s with alarm := (raiseIf s m d c).alarm, evr := (raiseIf s m d c).evr } := by
  unfold raiseIf raiseMonitor
  dsimp only
  split
  · split
    · rw [recordLimited_evr]; rfl
    · split
      · rw [recordLimited_evr]; rfl
      · rfl
  · rfl

theorem raiseFabric_frame (s : State) (a b m : Nat) :
    raiseFabric s a b m = { s with
      power := { s.power with modes := (raiseFabric s a b m).power.modes }
      alarm := (raiseFabric s a b m).alarm, cnt := (raiseFabric s a b m).cnt, evr := (raiseFabric s a b m).evr } := by
  unfold raiseFabric
  generalize hx : raiseIf s 11 _ true = x
  have h1 : x = { s with alarm := x.alarm, evr := x.evr } := by rw [← hx]; exact raiseIf_frame s 11 _ true
  have h2 : settle x = { x with power := { x.power with modes := (settle x).power.modes }, cnt := (settle x).cnt, evr := (settle x).evr } :=
    settle_beside x
  have h3 : x.power = s.power := by rw [h1]
  have h4 : (settle x).alarm = x.alarm := by rw [h2]
  rw [h4]
  generalize (settle x).power.modes = p at *
  generalize (settle x).cnt = q at *
  generalize (settle x).evr = r at *
  rw [h2, h3]
  generalize x.alarm = y at *
  generalize x.evr = z at *
  rw [h1]

/-! ## Operations -/

theorem find_map_other (o : RingOp) (c : Nat) (h : c ≠ o.count) (l : List RingOp) :
    (l.map (fun o' => if o'.count == o.count then o else o')).find? (fun p => p.count == c) = l.find? (fun p => p.count == c) := by
  induction l with
  | nil => rfl
  | cons a rest ih =>
    rw [List.map_cons]
    by_cases ha : a.count = o.count
    · have h0 : (a.count == o.count) = true := by simp [ha]
      have h1 : (o.count == c) = false := by simp; exact fun h' => h h'.symm
      have h2 : (a.count == c) = false := by simp; exact fun h' => h (h' ▸ ha)
      rw [h0, if_pos rfl, List.find?_cons_of_neg (by simp [h1]), List.find?_cons_of_neg (by simp [h2]), ih]
    · have h0 : (a.count == o.count) = false := by simp [ha]
      rw [h0, if_neg (by simp)]
      by_cases hc : (a.count == c) = true
      · rw [List.find?_cons_of_pos (by exact hc), List.find?_cons_of_pos (by exact hc)]
      · rw [List.find?_cons_of_neg (by exact hc), List.find?_cons_of_neg (by exact hc), ih]

theorem find_map_same (o : RingOp) (l : List RingOp) (h : (l.find? (fun p => p.count == o.count)).isSome) :
    (l.map (fun o' => if o'.count == o.count then o else o')).find? (fun p => p.count == o.count) = some o := by
  induction l with
  | nil => simp at h
  | cons a rest ih =>
    rw [List.map_cons]
    by_cases ha : (a.count == o.count) = true
    · rw [if_pos ha, List.find?_cons_of_pos (by simp)]
    · rw [if_neg ha, List.find?_cons_of_neg (by exact ha)]
      rw [List.find?_cons_of_neg (by exact ha)] at h
      exact ih h

theorem findOp_setOp_other (x : Inst) (o : RingOp) (c : Nat) (h : c ≠ o.count) : findOp (setOp x o) c = findOp x c :=
  find_map_other o c h x.ops

theorem findOp_setOp_same (x : Inst) (o : RingOp) (h : (findOp x o.count).isSome) : findOp (setOp x o) o.count = some o :=
  find_map_same o x.ops h

/-- An operation replaced in its instance. -/
theorem setOp_setsOp (w : State) (i : Nat) (o : RingOp) (h : (findOp (getInst w i) o.count).isSome) :
    SetsOp w (modInst w i (fun x => setOp x o)) i o := by
  unfold SetsOp modInst
  rw [getInst_setInst_same]
  exact ⟨findOp_setOp_same _ _ h, fun c hc => findOp_setOp_other _ _ _ hc, rfl⟩

/-- How an operation of a ring begins: on its engines, with its verdict, or ended by a mismatched word. -/
theorem beginOp_begins (s : State) (i : Nat) (o : RingOp) (oc : Option Outcome) (h : (findOp (getInst s i) o.count).isSome) :
    Begins s (beginOp s i o oc) i o oc := by
  unfold beginOp Begins
  by_cases hk : o.plan.kind = .cipher
  · simp only [hk, if_true, onSeats, seatAll]
    generalize hv : each (seatsOf s o) s (fun s k => seatEngine s o.bay (dOp o.snap) k) = v
    obtain ⟨h1, h2, h3, h4, h5⟩ := seats_frame o.bay (dOp o.snap) (seatsOf s o) s
    rw [hv] at h1 h2 h3 h4 h5
    have hw : wordBad v i { o with engines := seatsOf s o } = wordBad v i o := rfl
    have hi : getInst v i = getInst s i := by rw [h1]; rfl
    have hn : v.now = s.now := by rw [h1]
    have hs : ∀ key, writerOf s key islLink = writerOf v key islLink := by intro key; rw [h1]; rfl
    refine ⟨v, ⟨h1, fun c => absurd hk c, h2, h3, h4, h5⟩, ?_, ?_⟩
    · intro hb
      rw [hw, hb, ← hn]
      exact setOp_setsOp v i _ (by rw [hi]; exact h)
    · rintro ⟨mem, key⟩ hb
      rw [hw, hb]
      dsimp only
      rw [hs key]
      generalize writerOf v key islLink = isl
      have hr := raiseFabric_frame v isl (5 + o.bay) mem
      have hi' : getInst (raiseFabric v isl (5 + o.bay) mem) i = getInst s i := by rw [hr]; exact hi
      have hn' : (raiseFabric v isl (5 + o.bay) mem).now = s.now := by rw [hr]; exact hn
      simp only [failNow, Option.isSome_some, if_true, hn, hn']
      exact setOp_setsOp _ i _ (by rw [hi']; exact h)
  · simp only [hk, if_false, onSeats]
    refine ⟨s, ⟨?_, fun _ => rfl, fun _ _ => rfl, rfl, ?_, fun _ _ => rfl⟩, ?_, ?_⟩
    · have hf : s.bad.filter (fun e => !inEngines o.bay (seatsOf s o) e.1) = s.bad :=
        List.filter_eq_self.2 (fun _ _ => by simp [seatsOf, hk, inEngines])
      rw [hf]
    · intro k hm
      simp [seatsOf, hk] at hm
    · intro hb
      rw [hb]
      exact setOp_setsOp s i _ h
    · rintro ⟨mem, key⟩ hb
      rw [hb]
      dsimp only
      generalize writerOf s key islLink = isl
      have hr := raiseFabric_frame s isl (5 + o.bay) mem
      have hi' : getInst (raiseFabric s isl (5 + o.bay) mem) i = getInst s i := by rw [hr]; rfl
      have hn' : (raiseFabric s isl (5 + o.bay) mem).now = s.now := by rw [hr]
      simp only [failNow, Option.isSome_some, if_true, hn']
      exact setOp_setsOp _ i _ (by rw [hi']; exact h)

theorem fixOutcome_fixes (s : State) (i : Nat) (o : RingOp) (oc : Outcome) (h : (findOp (getInst s i) o.count).isSome) :
    Fixes s (fixOutcome s i o oc) i o oc := beginOp_begins s i o (some oc) h

/-- How a line in a lane is packed. -/
theorem fixLine_packs (s : State) (i n : Nat) (o : LaneOp) (oc : Outcome) : Packs s (fixLine s i n o oc) i n o oc := by
  unfold fixLine Packs
  constructor
  · intro h h'
    rw [h, h']
    rfl
  · intro h
    by_cases hw : wordsFail s memInline (inlineWord i n) 8 = true
    · rw [if_pos hw]
      exact ⟨_, rfl, (if_pos hw).symm⟩
    · rw [if_neg hw, if_pos (h.resolve_left hw)]
      exact ⟨_, rfl, (if_neg hw).symm⟩

/-! ## Completions -/

/-- Only the counters of the dictionary differ. -/
def Counted (s u : State) : Prop := u = { s with cnt := u.cnt }

theorem Counted.bump {s u : State} (h : Counted s u) (k : Nat) : Counted s (bump u k) := by
  unfold Counted at *
  unfold Machine.bump bumpBy
  rw [h]

theorem Counted.ite {s u v : State} {c : Prop} [Decidable c] (h : Counted s u) (h' : Counted s v) : Counted s (if c then u else v) := by
  split <;> assumption

/-- The counters of an ending status are all that its counting writes. -/
theorem countStatus_counted (s : State) (i op st done declined : Nat) (b : Bool) :
    Counted s (countStatus s i op st done declined b) := by
  have h0 : Counted s s := rfl
  unfold countStatus
  extract_lets s1 s1' s2 s3 s4
  have h1 : Counted s s1 := .ite (h0.bump _) h0
  have h1' : Counted s s1' := h1.bump _
  have h2 : Counted s s2 := by
    show Counted s (match declineSub st with | some k => if b = true then Machine.bump s1' _ else s1' | none => s1)
    cases declineSub st with
    | none => exact h1
    | some k => exact .ite (h1'.bump _) h1'
  have h3 : Counted s s3 := .ite (h2.bump _) h2
  have h4 : Counted s s4 := .ite (h3.bump _) h3
  exact .ite (h4.bump _) h4

theorem sendMsix_frame (s : State) (ld v : Nat) :
    sendMsix s ld v = { s with outbox := (sendMsix s ld v).outbox, link := { s.link with msixPend := (sendMsix s ld v).link.msixPend } } ∧
    (∀ m ∈ s.outbox, m ∈ (sendMsix s ld v).outbox) := by
  unfold sendMsix
  dsimp only
  split
  · exact ⟨rfl, fun m h => List.mem_append_left _ h⟩
  · exact ⟨rfl, fun m h => h⟩

theorem freeShelf_frame (s : State) : freeShelf s = { s with keys := { s.keys with cache := (freeShelf s).keys.cache } } := rfl

theorem findOp_dropOp_same (x : Inst) (c : Nat) : findOp (dropOp x c) c = none := by
  unfold findOp dropOp
  rw [List.find?_eq_none]
  intro a ha
  simp at ha
  simpa using ha.2

/-- What the completion of an operation of a ring does: its entry, its ownership, H, and what may change beside its instance. -/
theorem completeRing_ends (s : State) (i : Nat) (o : RingOp) (st ep bay hint len : Nat) (res : Bytes) :
    Ended s (completeRing s i o st ep bay hint len res) i o
      (completionEntry (ringEntries s.ctl.cfg i) o st ep bay hint len (s.now - o.arr) res) ∧
    EndFrame i s (completeRing s i o st ep bay hint len res) ∧
    getInst (completeRing s i o st ep bay hint len res) i = { getInst s i with
      ops := (getInst (completeRing s i o st ep bay hint len res) i).ops
      ring := (getInst (completeRing s i o st ep bay hint len res) i).ring
      h := (getInst (completeRing s i o st ep bay hint len res) i).h } := by
  unfold completeRing
  extract_lets n entry w s1 s2 s3
  have hw : ∀ isl, noteWriter (writeWords s memRing w 8) memRing w 8 isl =
      { s with bad := (writeWords s memRing w 8).bad, writers := (noteWriter (writeWords s memRing w 8) memRing w 8 isl).writers } := by
    intro isl
    have h0 : writeWords s memRing w 8 = { s with bad := (writeWords s memRing w 8).bad } := by
      unfold writeWords noteFresh
      dsimp only
      rw [if_neg (by simp [memMasked, memRing])]
    unfold noteWriter
    split <;> rw [h0]
  have h2 : s2 = { s1 with cnt := s2.cnt } := countStatus_counted s1 i (dOp o.snap) st 0x13 0x14 (bay == 0xFF)
  have h3 : s3 = { s2 with outbox := s3.outbox, link := { s2.link with msixPend := s3.link.msixPend } } ∧ ∀ m ∈ s2.outbox, m ∈ s3.outbox := by
    have key : ∀ v, v = (if dNotify o.snap = true ∧ (getInst s2 i).st ≠ 2 then sendMsix s2 o.att.ld o.att.vector else s2) →
        v = { s2 with outbox := v.outbox, link := { s2.link with msixPend := v.link.msixPend } } ∧ ∀ m ∈ s2.outbox, m ∈ v.outbox := by
      rintro v rfl
      split
      · exact sendMsix_frame s2 _ _
      · exact ⟨rfl, fun m h => h⟩
    exact key s3 rfl
  have hX : ∀ j, getInst (freeShelf s3) j = getInst s1 j := by
    intro j
    show mget {} s3.insts j = mget {} s1.insts j
    rw [h3.1]
    show mget {} s2.insts j = mget {} s1.insts j
    rw [h2]
  have i1 : getInst s1 i = { dropOp { getInst s i with ring := mset [] (getInst s i).ring (o.count % max n 1) entry } o.count with
      h := headAfter (dropOp { getInst s i with ring := mset [] (getInst s i).ring (o.count % max n 1) entry } o.count) } := by
    show getInst (setInst _ i _) i = _
    rw [getInst_setInst_same, hw]
    rfl
  have i2 : ∀ j, j ≠ i → getInst s1 j = getInst s j := by
    intro j hj
    show getInst (setInst _ i _) j = _
    rw [getInst_setInst_other _ _ _ _ hj, hw]
    rfl
  have e1 : s1 = { s with insts := s1.insts, bad := s1.bad, writers := s1.writers } := by
    show setInst _ i _ = { s with insts := (setInst _ i _).insts, bad := (setInst _ i _).bad, writers := (setInst _ i _).writers }
    rw [hw]
    rfl
  refine ⟨⟨?_, ?_, ?_, ?_, ?_⟩, ⟨?_, ?_, ?_⟩, ?_⟩
  · rw [hX, i1]
    exact findOp_dropOp_same _ _
  · rw [hX, i1]
    show mget [] (mset [] (getInst s i).ring (o.count % max n 1) entry) _ = _
    exact mget_mset_same _ _ _ _
  · intro k hk
    rw [hX, i1]
    show mget [] (mset [] (getInst s i).ring (o.count % max n 1) entry) _ = _
    exact mget_mset_other _ _ _ _ _ hk
  · rw [hX, i1]
    rfl
  · rw [hX, i1]
    rfl
  · rw [freeShelf_frame]
    generalize (freeShelf s3).keys.cache = kc
    have := h3.1
    generalize s3.outbox = a at *
    generalize s3.link.msixPend = b at *
    generalize s2.cnt = c at *
    generalize s1.insts = d at *
    generalize s1.bad = e at *
    generalize s1.writers = g at *
    rw [this, h2, e1]
  · intro j hj
    rw [hX, i2 j hj]
  · intro m hm
    have : m ∈ s2.outbox := by rw [h2]; show m ∈ s1.outbox; rw [e1]; exact hm
    exact h3.2 m this
  · rw [hX, i1]
    rfl

end Sys2Proof.Machine
end

