-- ==== Sys2Proof/WellFormed.lean ====
section
/-! DEFINITION. The shape of a command's operands as the outside can give them: the lengths of lines, entries and records,
and the values a field of fewer than a number's range may hold. -/

namespace Sys2Proof

/-- An answer of an Envelope as the contact can carry it (R389, R390): the lengths of its fields. -/
def EnvAnswer.shaped (a : EnvAnswer) : Bool :=
  a.serial.length == 16 && a.pubKey.length == 64 && (a.binding.isEmpty || a.binding.length == 32)
    && (a.sig.isEmpty || a.sig.length == 64)

/-- A reading of the mesh covers its nets (R380): at most 4 of them. -/
def netsShaped (ns : List NetReading) : Bool := ns.length ≤ 4

/-- A record of a JOINT_STAGE message (R334): its content fits the message. -/
def JRec.shaped (r : JRec) : Bool := r.data.length ≤ 73720

/-- The requester key of an SPDM exchange: x and y of P-384 (R456, R458). -/
def ReqKey.shaped : ReqKey → Bool
  | .none => true
  | .raw xy => xy.length == 96
  | .maker => true

/-- Operands have the shape the outside can give them. -/
def Instr.wellFormed : Instr → Bool
  | .startupStepDone _ env => env.env.shaped && netsShaped env.nets
  | .enrolRetry _ a nets => a.shaped && netsShaped nets
  | .envEnrolment _ a nets => a.shaped && netsShaped nets
  | .envAuth _ a => a.shaped
  | .envAuthRetry _ a => a.shaped
  | .meshCheck _ nets => netsShaped nets
  | .backupCheck _ nets _ _ _ => netsShaped nets
  | .inlineRequestWrite arr t _ _ _ line => line.length == 64 && decide (arr ≤ t)
  | .doorbell arr t _ _ _ _ _ => decide (arr ≤ t)
  | .ringEntryWrite _ _ _ _ data _ _ => data.length == 64
  | .stagingPageWrite _ _ _ off data _ _ => data.length == 64 && decide (off.toNat % 64 = 0)
  | .jointStage _ _ recs => recs.all JRec.shaped
  | .ideKeyProgram _ _ _ _ key => key.length == 32
  | .keyExchange _ _ key => key.shaped
  | _ => true

end Sys2Proof
end

