-- ==== Sys2Proof/Tests/Slice0.lean ====
section
/-! SUPPORT. Tests: operands that are ill-formed and refused, small steps checked against the manual, and for every statement
a state and operands that meet its hypotheses. -/

namespace Sys2Proof.Tests

open Sys2Proof Sys2Proof.Machine Sys2Proof.Safety

set_option maxRecDepth 4096
set_option Elab.async false

/-! ## Small states -/

/-- Instance 0 of tenant 0: LD 0, area 0, 16 ring entries, one staging page, 16 inline slots. -/
def cfg0 : Cfg :=
  { vals := [(0x800001, 0), (0x800002, 0), (0x800003, 0), (0x800010, 16), (0x800011, 1), (0x800020, 16), (0x901001, 1)] }

def inst0 : Inst := { st := 1, sub := 10 ^ 12, core := 10 ^ 12 }

def bay0 : Bay := { st := 0, drbg := { inst := true, reserve := List.replicate 300 0 } }

/-- A device in service with instance 0, one bay of each kind and one trained head. -/
def up : State := { State.reset with
  power := { pwrGood := true, supply := .main, step := 12, modes := 0 }
  ctl := { cfg := cfg0 }
  vault := { rootAbsent := false }
  insts := [(0, inst0)]
  bays := [(0, bay0), (16, bay0), (24, bay0)]
  random := { on := true, stopped := false, seeded := true }
  life := { st := 3 }
  link := { heads := [(0, { st := 2, speed := 64, width := 4, perst := false })], hdm := [(0, 0)] } }

def withInst (x : Inst) : State := setInst up 0 x
def withSlot (x : InSlot) : State := withInst (setSlot inst0 0 x)
def withOp (o : RingOp) : State := withInst { inst0 with ops := [o] }
def withKey (s : State) (k : Key) : State := { s with keys := { s.keys with slots := [(5, { gen := 1, key := some k })] } }

/-- Bytes with a few that are not zero. -/
def bytesOf (n : Nat) (m : Map Nat) : Bytes := (upTo n).map (fun k => BitVec.ofNat 8 (mget 0 m k))

/-- An operation booked in a bay, whose segment may start. -/
def booked (b : Nat) (m : Map Nat) : RingOp := { count := 0, snap := bytesOf 64 m, arr := 0, round := 0, stage := .booked, bay := b }

def covered (op : Nat) : RingOp := { count := 0, snap := bytesOf 64 [(0, 0x80), (1, op)], arr := 0, round := 0 }
def withBay (b : Nat) (x : Bay) : State := setBay up b x
/-- The clock of an island has stopped. -/
def clockless (k : Nat) : State := { up with link := { up.link with clockStops := [(k, 1)] } }
def debugState (scope : Nat) : State := { up with life := { up.life with debug := true, scope := scope } }
/-- Every scope is granted and its rules are in force. -/
def openDebug : State := { debugState 0xFFFF with acu := { up.acu with active := rulesFor (debugState 0xFFFF) cfg0 } }
/-- The device on its cell. -/
def cellState : State := { up with power := { up.power with pwrGood := false, supply := .cell, step := 0 } }
/-- A user rule that denies every access. -/
def denied : State := { up with acu := { up.acu with active := [(200, 2 ^ 127 + 2 ^ 126 + 2 ^ 125 + 2 ^ 124 + 0xFF * 2 ^ 104 + 0xFFFFFFF * 2 ^ 64)] } }

/-- The rules of the signed image are in force. -/
def ruled : State := { up with acu := { up.acu with active := firmwareRules } }

/-- An ECB encryption of 16 staged bytes, and one whose output goes to the host. -/
def ecbOp (out : Nat) : RingOp := booked 16 [(1, 0x40), (8, 5), (0x10, 1 + 4 * out), (0x14, 16), (0x20, 64)]

def got (f : Fetched) : Bool := match f with
  | .got _ _ _ => true
  | .refused _ => false

def ok {α : Type} (r : Except Nat α) : Bool := match r with
  | .ok _ => true
  | .error _ => false

/-! ## Witnesses -/

theorem up_legal : Legal up where
  insts := by
    intro e h
    have h2 : up.insts.all (fun e => decide (e.2.st ≤ 5) && Memory.wf e.2.staging) = true := by decide +kernel
    have h3 := List.all_eq_true.mp h2 e h
    simp only [Bool.and_eq_true, decide_eq_true_eq] at h3
    exact h3
  rising := by decide +kernel
  bays := by
    intro e h
    have h2 : up.bays.all (fun e => decide (e.2.st ≤ 2)) = true := by decide +kernel
    show e.2.st ≤ 2
    exact of_decide_eq_true (List.all_eq_true.mp h2 e h)
  bayRising := by decide +kernel
  life := by decide +kernel
  otp := by decide +kernel
  step := by decide +kernel
  now := by decide +kernel

theorem witness_StepRunsFront : up.pending = [] := rfl

theorem witness_StepAnswersLegal : Legal { up with pending := [.meshPatternReseed 0] } :=
  ⟨up_legal.insts, up_legal.rising, up_legal.bays, up_legal.bayRising, up_legal.life, up_legal.otp, up_legal.step, up_legal.now⟩

theorem witness_StepTakesFrontOnly : Legal up := up_legal

theorem witness_PowerBeginsAStart :
    (State.reset.power.pwrGood = false ∧ State.reset.power.resetLow = false) ∧
    ∃ s : State, s.power.pwrGood = true ∧ s.power.resetLow = true ∧ s.power.thermtrip = false :=
  ⟨by decide, { up with power := { up.power with resetLow := true } }, by decide⟩

theorem witness_MainPowerLost :
    (∃ s : State, s.power.pwrGood = true ∧ s.backup.contact = true ∧ s.power.thermtrip = false ∧ 1000 ≤ 1000 ∧ 2000 ≤ 2000 ∧ 999 < 1000) ∧
    State.reset.power.pwrGood = false :=
  ⟨⟨{ up with backup := { contact := true } }, by decide⟩, by decide⟩

/-- What a step of a start meets, with no Envelope. -/
def aStep : StepEnv := { us := 1, env := { present := false, closedMs := 0, serial := [], pubKey := [], certOk := false, binding := []
                                           tempDeciK := 0, sig := [], answerMs := 0, cellMv := 0 } }

def atStep (n : Nat) : State := { up with power := { up.power with step := n } }

theorem witness_StartStepsRun :
    ((atStep 2).power.pwrGood = true ∧ (atStep 2).power.resetLow = false ∧ (atStep 2).power.step = 2 ∧
      (atStep 2).power.stop = .running ∧ lcVote (fuseRow (atStep 2) (rowInForce (atStep 2))) ≠ 5) ∧
    ((atStep 9).power.step = 9 ∧ rootOwed (atStep 9) = false) ∧
    ((atStep 5).power.step = 5 ∧ vaultSound State.reset = false ∧
      bitOf { atStep 5 with backup := { latch := { mons := 1 } } }.backup.latch.mons 0 = true) ∧
    ((atStep 10).power.step = 10 ∧ epochOk (devCounter up 51) (devCounter up 51) = true ∧ epochOk (devCounter up 51) 7 = false ∧
      up.vault.rootAbsent = false ∧ up.backup.latch.keysDone = false ∧ State.reset.vault.rootAbsent = true ∧
      epochOk up.vault.journalEpoch (jourBest (readJournal up aStep)) = true ∧
      epochOk 7 (jourBest (readJournal { up with vault := { up.vault with journalEpoch := 7 } } aStep)) = false) ∧
    ((atStep 11).power.step = 11 ∧ 0 ∈ assignedIn (atStep 11).ctl.cfg ∧ 1 ∉ assignedIn (atStep 11).ctl.cfg) := by decide +kernel

/-- A root with the check value that the vault holds of it. -/
theorem witness_StartStepsRun_sound (root : Bytes) :
    vaultSound { atStep 5 with vault := { magic := vaultMagic, layout := 1, rootAbsent := false, root := root, rootCheck := rootCheckOf root
                                          idScalar := identityScalarBytes root, idCheck := identityCheckOf root } } = true := by
  simp [vaultSound]

/-- A NOP line. -/
def nopLine : Bytes := bytesOf 64 [(0, 1)]

theorem lets_inline : Lets (at_ up 0) 0 0 0x10000 false := ⟨by decide +kernel, by decide +kernel, by decide +kernel⟩

/-- The states that the decision on an accepted line of slot 0 reads: the line placed, and a submission token spent. -/
def taken (s : State) (line : Bytes) (p : State → State → Bool) : Bool :=
  let w := refill (setInst (writeWords (at_ s 0) memInline (inlineWord 0 0) 8) 0
    (setSlot (getInst s 0) 0 { getSlot (getInst s 0) 0 with st := .pending, req := Bytes.fit 64 line, result := [] })) 0
  p w (modInst w 0 (fun x => { x with sub := x.sub - oneToken }))

/-- The lane that takes a line. -/
def laneFor (s : State) (line : Bytes) : Option Nat :=
  (laneRotation s).find? (fun k => laneReady s k && laneRoom s k (lineCharge (lineOfRequest (Bytes.fit 64 line))))

/-- Every inline bay is out. -/
def noLanes : State := { up with bays := (upTo 4).map (fun k => (24 + k, { bay0 with st := 2 })) }

theorem witness_InlineRequestIsTaken :
    Lets (at_ up 0) 0 0 0x10000 false ∧ 0 < inlineSlots up.ctl.cfg 0 ∧ (getSlot (getInst up 0) 0).st ≠ .pending ∧
    ((getInst up 0).st ≠ 2 ∧ (getInst up 0).leaving.contains 0 = false) ∧
    (taken up nopLine (fun w v => lineStatus w 0 0 (Bytes.fit 64 nopLine) == (0, 0) && laneFor v nopLine == some 0) = true ∧
      taken noLanes nopLine (fun w v => lineStatus w 0 0 (Bytes.fit 64 nopLine) == (0, 0) && laneFor v nopLine == none) = true ∧
      taken up (Bytes.zeros 64) (fun w _ => (lineStatus w 0 0 (Bytes.fit 64 (Bytes.zeros 64))).1 != 0) = true) ∧
    (getSlot (getInst (withSlot { st := .pending }) 0) 0).st = .pending ∧
    (getInst (withInst { inst0 with st := 2 }) 0).st = 2 ∧ (getInst (withInst { inst0 with st := 2 }) 0).leaving.contains 0 = false :=
  ⟨lets_inline, by decide +kernel⟩

theorem witness_ResultReadAnswers :
    Lets (at_ up 0) 0 0 0x10040 true ∧ 0 < inlineSlots up.ctl.cfg 0 ∧
    ((getSlot (getInst (withSlot { st := .done }) 0) 0).st = .done ∧
      badWord (withSlot { st := .done }) memInline (inlineWord 0 0 + 8) 8 = none ∧
      badWord (spoilWord (withSlot { st := .done }) memInline (inlineWord 0 0 + 15) 1) memInline (inlineWord 0 0 + 8) 8 =
        some (wordKey memInline (inlineWord 0 0 + 15))) ∧
    (getSlot (getInst (withSlot { st := .pending, held := some ⟨0, 0, 0, 0⟩ }) 0) 0).held.isSome = true ∧
    (getSlot (getInst (withSlot { held := some ⟨0, 0, 0, 0⟩ }) 0) 0).held.isSome = true ∧
    (idleHold { cfg0 with vals := mput cfg0.vals 0x800021 0 } 0 = 0) ∧
    ((getSlot (getInst up 0) 0).held = none ∧ (getSlot (getInst up 0) 0).st = .idle ∧ idleHold up.ctl.cfg 0 ≠ 0 ∧ (getInst up 0).st ≠ 2) ∧
    (⟨0, 0, 0, 0⟩ : Held).t + idleHold up.ctl.cfg 0 ≤ 400 ∧ islandRuns up islHub = true :=
  ⟨⟨by decide +kernel, by decide +kernel, by decide +kernel⟩, by decide +kernel⟩

theorem witness_DroppedWritesAreCounted :
    Lets (at_ up 0) 0 0 0x10007 false ∧ Lets (at_ up 0) 0 0 0x30000 true ∧ backed up 0 0x10007 false = true ∧ mfind (getInst up 0).caps 0 = none ∧
    mfind (getInst (withInst { inst0 with caps := [(0, {})] }) 0).caps 0 ≠ none ∧ backed up 0 0x30000 true = false ∧
    serving State.reset = false ∧ portRuns State.reset = true :=
  ⟨⟨by decide +kernel, by decide +kernel, by decide +kernel⟩, ⟨by decide +kernel, by decide +kernel, by decide +kernel⟩, by decide +kernel⟩

/-- Head 0 requires Link IDE and has no stream; and head 0 is down. -/
def ideDue : State := { up with ctl := { up.ctl with cfg := { cfg0 with vals := mput cfg0.vals (odKey 0x1110 5) 1 } } }
def headDown : State := { up with link := { up.link with heads := [] } }

theorem witness_SpeculationAndInvalidation :
    (islandRuns up islLink = true ∧ headUp up 0 = true ∧ ideLacking up 0 = false) ∧
    (islandRuns ideDue islLink = true ∧ headUp ideDue 0 = true ∧ serving ideDue = true ∧ decoded ideDue 0 = true ∧ ideLacking ideDue 0 = true) ∧
    islandRuns (clockless 1) islLink = false ∧ portRuns (clockless 1) = false ∧ portRuns (clockless 2) = false ∧
    portRuns headDown = true ∧ headUp headDown 0 = false := by decide +kernel

/-- A line in lane 0, as it is looked up and as it waits for its packing. -/
def lane (op : Nat) (st : LaneStage) : LaneOp :=
  { line := bytesOf 64 [(0, op)], arr := 0, attachT := 0, att := {}, lane := 0, charge := 8, stage := st }

def withLane (o : LaneOp) : State := withSlot { st := .pending, op := some o }

/-- A route of partition 1 for every number. -/
def withRoute : State := { up with routes := { up.routes with blocks := [(0, { part := 1, len := 0, since := 0, closed := none, entries := [([], 7)] })] } }

theorem witness_InlineLineCompletes :
    ((getSlot (getInst (withLane (lane 2 .toLookup)) 0) 0).op = some (lane 2 .toLookup) ∧ islandRuns (withLane (lane 2 .toLookup)) islHub = true ∧
      bayClockRuns (withLane (lane 2 .toLookup)) (laneBay (lane 2 .toLookup).lane) = true) ∧
    ((lineOfRequest (lane 2 .toLookup).line).op = 2 ∧
      routeFault (at_ withRoute 0) 1 0 (lineOfRequest (lane 2 .toLookup).line).digits = none ∧
      (routeFault (at_ (spoilWord withRoute memRoutes 0 1) 0) 1 0 (lineOfRequest (lane 2 .toLookup).line).digits).isSome = true) ∧
    (lineKeys (at_ (withLane (lane 2 .toLookup)) 0) (lineOfRequest (lane 2 .toLookup).line) 29 0 engInline (some (some 7)) none
      (fun _ => none)).1.status = 0 ∧
    (lineKeys (at_ (withLane (lane 2 .toLookup)) 0) (lineOfRequest (lane 2 .toLookup).line) 29 0 engInline (some none) none
      (fun _ => none)).1.status = 0x0601 ∧
    (lineKeys (at_ (withLane (lane 0x20 .toLookup)) 0) (lineOfRequest (lane 0x20 .toLookup).line) 29 0 engInline none none
      (fun _ => none)).1.status ≠ 0 ∧
    (getInst (withInst { inst0 with leaving := [0] }) 0).leaving.contains 0 = true ∧
    ∃ oc, ({ lane 1 .packed with outcome := some oc } : LaneOp).outcome = some { status := 0, due := 10 } ∧ 10 ≤ 10 ∧ 10 - 0 ≤ 201 ∧
      ({ lane 1 .packed with outcome := some oc } : LaneOp).waits = [] :=
  ⟨by decide +kernel, by decide +kernel, by decide +kernel, by decide +kernel, by decide +kernel, by decide +kernel, { status := 0, due := 10 },
    rfl, by decide, by decide, by decide⟩

theorem witness_DoorbellTakesOwnership :
    Lets (at_ up 0) 0 0 0x100 false ∧
    (16 + 65536 - (getInst up 0).s % 65536) % 65536 = 16 ∧ owned (getInst up 0) + 16 ≤ ringEntries up.ctl.cfg 0 ∧
    ringEntries up.ctl.cfg 0 ≠ 0 ∧ (getInst up 0).st ≠ 2 ∧ (getInst up 0).st ≠ 5 ∧
    ((17 : Nat) ≠ 0 ∧ ringEntries up.ctl.cfg 0 < owned (getInst up 0) + 17) ∧
    ringEntries { cfg0 with vals := mput cfg0.vals 0x800010 0 } 0 = 0 ∧
    (getInst (withInst { inst0 with st := 2 }) 0).st = 2 ∧ (getInst (withInst { inst0 with st := 5 }) 0).st = 5 :=
  ⟨⟨by decide +kernel, by decide +kernel, by decide +kernel⟩, by decide +kernel⟩

theorem witness_RingWritesLand :
    Lets (at_ up 0) 0 0 (0x40000 + 64 * 15) false ∧ Lets (at_ up 0) 0 0 (0x60000 + 4032) false ∧
    15 < ringEntries up.ctl.cfg 0 ∧ entryOwned (getInst up 0) 16 15 = false ∧
    (4032 % 64 = 0 ∧ 4032 / 4096 < stagingPages up.ctl.cfg 0 ∧ (ownedPages (at_ up 0) 0).contains (4032 / 4096) = false) ∧
    entryOwned (getInst (withOp (covered 1)) 0) 16 0 = true ∧
    (ownedPages (at_ (withOp { ecbOp 1 with snap := bytesOf 64 [(0, 0x80), (1, 0x40), (0x10, 5), (0x14, 16)] }) 0) 0).contains (4032 / 4096) = true :=
  ⟨⟨by decide +kernel, by decide +kernel, by decide +kernel⟩, ⟨by decide +kernel, by decide +kernel, by decide +kernel⟩, by decide +kernel⟩

theorem witness_RegisterPageWrites :
    Lets (at_ up 0) 0 0 8 false ∧ Lets (at_ up 0) 0 0 0x1F0 false ∧ mfind (getInst up 0).caps 7 = none :=
  ⟨⟨by decide +kernel, by decide +kernel, by decide +kernel⟩, ⟨by decide +kernel, by decide +kernel, by decide +kernel⟩, by decide +kernel⟩

/-- A NOP and a ROUTE_LOOKUP that wait at the hub. -/
def atHub (op : Nat) : RingOp := { count := 0, snap := bytesOf 64 [(1, op)], arr := 0, round := 0, stage := .atHub }

theorem witness_HubOperationsComplete :
    (findOp (getInst (withOp (atHub 1)) 0) 0 = some (atHub 1) ∧ (atHub 1).stage = .atHub ∧ dOp (atHub 1).snap = 1) ∧
    (findOp (getInst (withOp (atHub 2)) 0) 0 = some (atHub 2) ∧ dOp (atHub 2).snap = 2) ∧
    ({ atHub 2 with route := some none } : RingOp).route = some none ∧ (atHub 2).routeBad = none ∧
    ({ atHub 2 with routeBad := some (wordKey memRoutes 0) } : RingOp).routeBad.isSome = true ∧
    (inlineAt (withLane (lane 2 .looked)) 0 0 .looked (fun b => Bytes.fieldLE b 0 1 == 2) = some (lane 2 .looked) ∧
      (lineOfRequest (lane 2 .looked).line).op = 2 ∧ laneFirst (withLane (lane 2 .looked)) (lane 2 .looked) = true) := by decide +kernel

/-- A TDES key for every use of R160 that a test needs, and an AES-256 key. -/
def tdesKey (usage : Nat) : Key := { type := 1, engine := 0x1F, usage := usage, material := List.replicate 24 1 }
def aesKey (usage : Nat) : Key := { type := 5, engine := 0x1F, usage := usage, material := List.replicate 32 1 }

/-- A retail MAC over key slot 5. -/
def macOp : RingOp := booked 16 [(1, 0x30), (8, 5), (0x1C, 8)]

theorem witness_LineOperationsRun :
    startable (at_ (withOp macOp) 0) 0 0 (fun d => dOp d == 0x30) = some macOp ∧
    (lineKeys (at_ (withOp macOp) 0) (lineOfDescriptor macOp.snap) 21 0 engCipher none (keyAOf (at_ (withOp macOp) 0) macOp)
      (fun _ => none)).1.status ≠ 0 ∧
    (lineKeys (at_ (withKey (withOp macOp) (tdesKey 4)) 0) (lineOfDescriptor macOp.snap) 21 0 engCipher none
      (keyAOf (at_ (withKey (withOp macOp) (tdesKey 4)) 0) macOp) (fun _ => none)).1.status = 0 ∧
    (inlineAt (withLane (lane 0x30 .looked)) 0 0 .looked (fun b => Bytes.fieldLE b 0 1 == 0x30) = some (lane 0x30 .looked) ∧
      laneFirst (withLane (lane 0x30 .looked)) (lane 0x30 .looked) = true) ∧
    (wordBad (withOp macOp) 0 macOp = none ∧ (wordBad (spoilWord (withOp macOp) memRing (ringWord 0 0) 1) 0 macOp).isSome = true ∧
      wordsFail (withOp macOp) memInline (inlineWord 0 0) 8 = false ∧
      wordsFail (spoilWord (withOp macOp) memInline (inlineWord 0 0) 1) memInline (inlineWord 0 0) 8 = true) := by
  decide +kernel

/-- A guarded key at v of a block that ends at its ceiling. -/
def guarded (v ceiling : Nat) (lost : Bool) : Key := { aesKey 3 with guard := some { limit := 2 ^ 20, v := v, ceiling := ceiling, lost := lost } }

def cipherKey (k : Key) : Nat := checkKey (withKey up k) 0 (cipherRole 0 false) (some (k, 1, .resident 5))

theorem witness_ClaimsConsume :
    (cipherKey (aesKey 3) = 0 ∧ (slotAt (withKey up (aesKey 3)) 5).key = some (aesKey 3) ∧ (slotAt (withKey up (aesKey 3)) 5).gen = 1 ∧
      (aesKey 3).guard = none) ∧
    (cipherKey (guarded 7 65536 true) = 0 ∧ cipherKey (guarded (2 ^ 20) (2 ^ 20) false) = 0 ∧
      guardBound (guarded (2 ^ 20) 0 false) { limit := 2 ^ 20 } ≤ 2 ^ 20) ∧
    (cipherKey (guarded 65535 65536 false) = 0 ∧ 65535 < 65536 ∧ 65536 < guardBound (guarded 0 0 false) { limit := 2 ^ 20 }) ∧
    (cipherKey (guarded 65536 65536 false) = 0 ∧ stageFull (withKey up (guarded 65536 65536 false)) = false) ∧
    reservationOpen { up with keys := { up.keys with journal := { up.keys.journal with
      stage := [{ r := ⟨5, false, 1, 0⟩, durable := false, postedT := 0 }] } } } 5 1 = true ∧
    stageFull { up with keys := { up.keys with journal := { up.keys.journal with
      stage := List.replicate 128 { r := ⟨0, false, 0, 0⟩, durable := false, postedT := 0 } } } } = true := by decide +kernel

/-- One whose input comes from the host and has not come. -/
def ecbHost : RingOp := booked 16 [(1, 0x40), (8, 5), (0x10, 6), (0x14, 16), (0x20, 64)]

theorem witness_CiphersRun :
    startable (at_ (withOp (ecbOp 1)) 0) 0 0 (fun d => dOp d == 0x40 && cipherMode d == 0) = some (ecbOp 1) ∧
    got (fetchKey (at_ (withOp (ecbOp 1)) 0) 21 0 (cipherRole 0 false) (keyAOf (at_ (withOp (ecbOp 1)) 0) (ecbOp 1)) noNonce
      (cipherClaims false)).1 = false ∧
    got (fetchKey (at_ (withKey (withOp (ecbOp 1)) (aesKey 3)) 0) 21 0 (cipherRole 0 false)
      (keyAOf (at_ (withKey (withOp (ecbOp 1)) (aesKey 3)) 0) (ecbOp 1)) noNonce (cipherClaims false)).1 = true ∧
    (outRegion (ecbOp 1).snap 0).map (·.host) = some false ∧ (outRegion (ecbOp 2).snap 0).map (·.host) = some true ∧
    (inputReady (ecbOp 1) = true ∧ inputReady ecbHost = false ∧
      startable (at_ (withOp ecbHost) 0) 0 0 (fun d => dOp d == 0x40 && cipherMode d == 0) = some ecbHost) ∧
    isNonceKey (aesKey 3) = false ∧ isNonceKey { aesKey 3 with guard := some { nonce := true, mode := 5 } } = true := by decide +kernel

def cmacOp (verify : Bool) : RingOp := booked 16 [(1, if verify then 0x39 else 0x38), (8, 5), (0x10, 1), (0x12, 16), (0x14, 16)]
def macHost : RingOp := booked 16 [(1, 0x38), (8, 5), (0x10, 2), (0x12, 16), (0x14, 16)]
def randomOp : RingOp := booked 16 [(1, 0x41), (0x10, 4), (0x14, 64)]

theorem witness_MacsAndRandomRun :
    startable (at_ (withOp (cmacOp true)) 0) 0 0 (fun d => dOp d == 0x39) = some (cmacOp true) ∧
    startable (at_ (withOp (cmacOp false)) 0) 0 0 (fun d => dOp d == 0x38) = some (cmacOp false) ∧
    got (fetchKey (at_ (withOp (cmacOp false)) 0) 21 0 (macRole 0 false) (keyAOf (at_ (withOp (cmacOp false)) 0) (cmacOp false)) noNonce
      always).1 = false ∧
    got (fetchKey (at_ (withKey (withOp (cmacOp false)) (aesKey 4)) 0) 21 0 (macRole 0 false)
      (keyAOf (at_ (withKey (withOp (cmacOp false)) (aesKey 4)) 0) (cmacOp false)) noNonce always).1 = true ∧
    (inputReady (cmacOp true) = true ∧ inputReady macHost = false ∧
      startable (at_ (withOp macHost) 0) 0 0 (fun d => dOp d == 0x38) = some macHost) ∧
    startable (at_ (withOp randomOp) 0) 0 0 (fun d => dOp d == 0x41) = some randomOp ∧
    (draw (at_ (withOp randomOp) 0) 16 64).1.isSome = true ∧ (draw (at_ (withOp randomOp) 0) 17 64).1 = none := by decide +kernel

/-- A TDES DUKPT decryption of 8 bytes for terminal 3. -/
def dukptOp : RingOp :=
  { booked 16 [(1, 0x50), (2, 4), (8, 5), (0x10, 3), (0x14, 0x11), (0x1D, 1), (0x20, 8)] with att := { termBase := 3, termCount := 1 } }

def withDeriv (high : Nat) : State :=
  let s := withKey (withOp dukptOp) (tdesKey 256)
  { s with keys := { s.keys with deriv := [(3, { aes := false, tenant := 0, bdk := 5, bdkGen := 1, high := high
                                                 ikid := (Payment.dukptInitialId false (Bytes.slice dukptOp.snap 0x14 10)).take 8
                                                 written := 0, ikey := [] })] } }

theorem witness_DukptDecryptRuns :
    (startable (at_ (withOp dukptOp) 0) 0 0 (fun d => dOp d == 0x50) = some dukptOp ∧
      startable (at_ (withDeriv 0) 0) 0 0 (fun d => dOp d == 0x50) = some dukptOp) ∧
    dukptStatus (at_ (withOp dukptOp) 0) dukptOp (dukptRole false false) 3 (keyAOf (at_ (withOp dukptOp) 0) dukptOp) ≠ 0 ∧
    dukptStatus (at_ (withDeriv 0) 0) dukptOp (dukptRole false false) 3 (keyAOf (at_ (withDeriv 0) 0) dukptOp) = 0 ∧
    dukptStatus (at_ (withDeriv 0) 0) dukptOp (dukptRole false false) 4 (keyAOf (at_ (withDeriv 0) 0) dukptOp) = 0x0302 ∧
    (derivEntry (at_ (withDeriv 0) 0) 3 0 0).isSome = true ∧ derivEntry (at_ (withOp dukptOp) 0) 3 0 0 = none ∧
    (wordsFail (withDeriv 0) memDeriv (derivWord 3) 8 = false ∧ wordsFail (spoilWord (withDeriv 0) memDeriv (derivWord 3) 1) memDeriv (derivWord 3) 8 = true) ∧
    got (fetchKey (at_ (withDeriv 0) 0) 21 0 (dukptRole false false) (keyAOf (at_ (withDeriv 0) 0) dukptOp) noNonce always).1 = true ∧
    0 < Payment.dukptCounter false (Bytes.slice dukptOp.snap 0x14 10) ∧
    Payment.dukptCounter false (Bytes.slice dukptOp.snap 0x14 10) ≤ 256 := by decide +kernel

def emvOp : RingOp := booked 16 [(1, 0x52), (8, 5), (0x10, 16), (0x2C, 8)]

theorem witness_EmvArqcRuns :
    startable (at_ (withOp emvOp) 0) 0 0 (fun d => dOp d == 0x52) = some emvOp ∧
    got (fetchKey (at_ (withOp emvOp) 0) 21 0 emvRole (keyAOf (at_ (withOp emvOp) 0) emvOp) noNonce always).1 = false ∧
    got (fetchKey (at_ (withKey (withOp emvOp) (tdesKey 1024)) 0) 21 0 emvRole
      (keyAOf (at_ (withKey (withOp emvOp) (tdesKey 1024)) 0) emvOp) noNonce always).1 = true := by decide +kernel

/-- An ECDSA signature, an RSA signature and an ECDSA verification under a key given in the input. -/
def signOp : RingOp := booked 0 [(1, 0x60), (8, 5), (0x10, 1), (0x14, 32)]
def rsaOp : RingOp := booked 0 [(1, 0x66), (8, 5), (0x10, 5), (0x15, 1)]
def checkOp : RingOp := booked 0 [(1, 0x61), (2, 2), (0x10, 1), (0x14, 160)]

theorem witness_PublicKeyOperationsRun :
    startable (at_ (withOp signOp) 0) 0 0 (fun d => dOp d == 0x60) = some signOp ∧
    pkEngines (at_ (withOp signOp) 0) 0 signOp.snap = some [0] ∧ pkEngines (at_ (withOp rsaOp) 0) 0 rsaOp.snap = some [0, 1] ∧
    pubIn checkOp.snap = true ∧ pubIn signOp.snap = false ∧
    (let w := enterAll (at_ (withOp signOp) 0) 0 0 signOp.snap [0]
     got (fetchKey w 5 0 (pkRole signOp.snap) (keyAOf w { signOp with engines := [0] }) noNonce always).1 = false) ∧
    (let w := enterAll (at_ (withKey (withOp signOp) { type := 0x10, engine := 4, usage := 2048 }) 0) 0 0 signOp.snap [0]
     got (fetchKey w 5 0 (pkRole signOp.snap) (keyAOf w { signOp with engines := [0] }) noNonce always).1 = true) ∧
    pkDraw checkOp.snap {} = 0 ∧ pkDraw signOp.snap { type := 0x10 } ≠ 0 ∧
    (draw up 0 (pkDraw signOp.snap { type := 0x10 })).1.isSome = true ∧ (draw up 1 (pkDraw signOp.snap { type := 0x10 })).1 = none := by
  decide +kernel

/-- An ML-DSA signature in its first attempt. -/
def dsaOp : RingOp := { booked 0 [(1, 0x6A), (8, 5), (0x10, 5), (0x14, 64)] with stage := .running }

theorem witness_DsaAttemptsRun :
    ∃ pl t, findOp (getInst (withKey (withOp dsaOp) { type := 0x38 }) 0) 0 = some dsaOp ∧ dsaOp.stage = .running ∧ dsaOp.outcome = none ∧
      dOp dsaOp.snap = 0x6A ∧ dsaOp.squashed = false ∧ dsaOp.checkWaited = false ∧ dsaOp.t0 + attemptEnd dsaOp.snap dsaOp.attempts ≤ t ∧
      bayClockRuns (withKey (withOp dsaOp) { type := 0x38 }) dsaOp.bay = true ∧
      keyAOf (at_ (withKey (withOp dsaOp) { type := 0x38 }) t) dsaOp = some ({ type := 0x38 }, 1, pl) ∧
      engineBad (withKey (withOp dsaOp) { type := 0x38 }) { dsaOp with engines := [0] } = false ∧
      engineBad (spoilWord (withOp dsaOp) memBnc 0 1) { dsaOp with engines := [0] } = true ∧
      freeEngine (withOp dsaOp) 0 [0] = some 1 ∧ freeEngine (withBay 0 { bay0 with failed := 0xFE }) 0 [0] = none :=
  ⟨.resident 5, 10 ^ 9, by decide +kernel⟩

/-- A wrapped AES-128 token under a zero AES-256 key: type 3, engine KDF, usage of a base derivation key, AES-GCM. -/
def tokenHead : Bytes := bytesOf 48 [(0, 1), (2, 0x4B), (3, 0x54), (4, 2), (8, 44), (16, 3), (18, 8), (25, 1)]
def tokenMsg : Bytes :=
  let c := Modes.aes (List.replicate 32 1)
  let ct := Modes.gcmCrypt c (Bytes.zeros 12) (Bytes.zeros 16)
  tokenHead ++ Bytes.zeros 12 ++ ct ++ Modes.gcmTag c (Bytes.zeros 12) tokenHead ct

def unwrapOp : RingOp := booked 16 [(1, 0x71), (8, 5), (0x10, 1), (0x14, 92)]

theorem witness_UnwrapRuns :
    startable (at_ (withOp unwrapOp) 0) 0 0 (fun d => dOp d == 0x71) = some unwrapOp ∧
    got (fetchKey (at_ (withOp unwrapOp) 0) 21 0 (carriageRole 0) (keyAOf (at_ (withOp unwrapOp) 0) unwrapOp) noNonce always).1 = false ∧
    got (fetchKey (at_ (withKey (withOp unwrapOp) (aesKey (2 ^ 18))) 0) 21 0 (carriageRole 2)
      (keyAOf (at_ (withKey (withOp unwrapOp) (aesKey (2 ^ 18))) 0) unwrapOp) noNonce always).1 = true ∧
    ok (unwrapToken up 0 (aesKey 0) []) = false ∧ ok (unwrapToken up 0 (aesKey 0) tokenMsg) = true := by decide +kernel

/-- A key update message of tenant 0 that deletes key slot 7, signed by the authority in slot 5; and one whose counter differs. -/
def kumBody (counter : Nat) : Bytes :=
  bytesOf 64 [(0, 1), (1, 0x4D), (2, 0x55), (3, 0x4B), (4, 176), (6, 1), (7, 1), (0x10, counter)] ++ bytesOf 16 [(0, 2), (4, 7), (8, 1)]
def kumZ : Nat := 0xe8652e20a22e8b400e9059fa8c0aece80a065d9b311dc501248777bf18b81ce780c22e3544a9d3dacdfaa4595dc8af72
def kumMsg (counter : Nat) : Bytes := kumBody counter ++ Bytes.ofNatBE 48 kumZ ++ Bytes.ofNatBE 48 kumZ

/-- The authority's public key, under which kumZ is the signature of the message with counter 1. -/
def authority : Key :=
  { type := 0x13, engine := 4, usage := 2 ^ 20
    material := Bytes.ofNatBE 48 0x198a7a857b1f744715aaf65a08fedd256a3c5bbf3669a0813036107cf11213b859e0b54325cf5d64e896311ea2bd1471
      ++ Bytes.ofNatBE 48 0xc0a1f926bfacb0d7406235d4b2a37963481479f80742c50426d3a67a47bf5220fc42efe6bb714b7bb8fdc0e5af149430 }

def kumOp : RingOp := { booked 0 [(1, 0x70), (0x10, 5), (0x14, 176), (0x21, 8)] with att := { authority := 5 } }

/-- Instance 0 with the message staged, its authority in slot 5 and a key in slot 7. -/
def kumState (o : RingOp) (counter : Nat) : State :=
  { up with
    ctl := { up.ctl with cfg := { cfg0 with vals := mput cfg0.vals (odKey 0x6050 0) 5 } }
    insts := [(0, { inst0 with ops := [o], staging := Memory.writeN [] 0 (kumMsg counter) })]
    keys := { up.keys with slots := [(5, { gen := 1, key := some authority }), (7, { gen := 1, key := some {} })] } }

def kumRunning : RingOp := { kumOp with stage := .running, kumVerified := true, drawn := some [], kumJoint := some 0 }

def refusedCut (e : KumEnd) : Bool := match e with
  | .refused _ _ _ => true
  | .cut _ _ _ => false

theorem witness_KumRunsAndCuts :
    startable (at_ (kumState kumOp 1) 0) 0 0 (fun d => dOp d == 0x70) = some kumOp ∧
    inputOf (kumState kumOp 1) 0 kumOp = kumMsg 1 ∧ pkEngines (at_ (kumState kumOp 1) 0) 0 kumOp.snap = some [0] ∧
    ok (kumEarly (kumState kumOp 1) 0 (authorityOf (kumState kumOp 1) kumOp) []) = false ∧
    ok (kumEarly (enterAll (at_ (kumState kumOp 1) 0) 0 0 kumOp.snap [0]) 0 (authorityOf (kumState kumOp 1) kumOp) (kumMsg 1)) = true ∧
    (kumDraws 0 0 (kumState kumOp 1)).1.isSome = true ∧ (kumDraws 1 0 (kumState kumOp 1)).1 = none ∧
    ok (parseKum (kumMsg 1) true) = true ∧
    (islandsTaken (at_ (kumState kumRunning 1) 0) = true ∧ islandRuns (kumState kumRunning 1) islControl = true ∧
      islandRuns (kumState kumRunning 1) islHub = true ∧ (kumState kumRunning 1).acu.drain = false ∧
      { (kumState kumRunning 1) with ctl := { (kumState kumRunning 1).ctl with commits := [0] } }.ctl.commits.head? = kumRunning.kumJoint) ∧
    (match parseKum (kumMsg 1) true with
      | .ok m => decide (kumCounter up m.tenant < m.counter) && decide (0 + 1000 * kumItemsUs m ≤ 286000)
          && refusedCut (kumCutNow (at_ (kumState kumRunning 1) 286000) kumRunning m) == false
          && refusedCut (kumCutNow { at_ (kumState kumRunning 1) 286000 with alarm := { up.alarm with rootCleared := true } } kumRunning m)
      | .error _ => false) = true := by decide +kernel

theorem witness_KumRunsAndCuts_signed :
    (match parseKum (kumMsg 1) true with
      | .ok m => kumSigned authority m
      | .error _ => false) = true := by decide +kernel

theorem witness_KumRunsAndCuts_unsigned :
    (match parseKum (kumBody 1 ++ Bytes.zeros 96) true with
      | .ok m => !kumSigned authority m
      | .error _ => false) = true := by decide +kernel

theorem witness_AdmissionRoundDecides :
    (∀ e ∈ (withOp (covered 1)).insts, ∀ o ∈ e.2.ops, o.stage = .covered → 99 / 100 ≤ o.round) ∧
    findOp (getInst (withOp (covered 1)) 0) 0 = some (covered 1) ∧ (covered 1).stage = .covered ∧ (covered 1).round < 100 / 100 ∧
    (∀ e ∈ (withOp (covered 1)).insts, ∀ o' ∈ e.2.ops, o'.stage = .covered → e.1 = 0 ∧ o' = covered 1) ∧
    1 ≤ schedWeight up.ctl.cfg 0 ∧
    orderCost { at_ (withOp (covered 1)) 100 with sched := { up.sched with drrStart := some 0 } } 0 (covered 1) ≤ 2 * 10 ^ 10 := by
  decide +kernel

/-- An ECB encryption before its decision. -/
def coveredEcb : RingOp :=
  { count := 0, snap := bytesOf 64 [(0, 0x80), (1, 0x40), (8, 5), (0x10, 5), (0x14, 16), (0x20, 64)], arr := 0, round := 0 }
def ecbState : State := withOp coveredEcb
def ecbNext : State := modInst (refill ecbState 0) 0 (fun x => { x with sub := x.sub - oneToken })

/-- Two instances with one descriptor each: NOPs, or an ECB encryption in instance 0 that the weight 1 does not cover at first. -/
def pair (w : Nat) (o : RingOp) : State := { up with
  ctl := { up.ctl with cfg := { cfg0 with vals := mput (mput cfg0.vals 0x800060 w) 0x800160 16 } }
  sched := { up.sched with drrStart := some 4095 }
  insts := [(0, { inst0 with ops := [o] }), (1, { inst0 with ops := [covered 1] })] }

def longEcb : RingOp := { coveredEcb with snap := bytesOf 64 [(0, 0x80), (1, 0x40), (8, 5), (0x10, 5), (0x15, 4), (0x21, 8)] }

theorem witness_AdmissionRoundDecides_pair :
    findOp (getInst (pair 16 (covered 1)) 1) 0 = some (covered 1) ∧ contenders (at_ (pair 16 (covered 1)) 100) 0 0 = [0, 1] ∧
    (∀ e ∈ (pair 16 (covered 1)).insts, ∀ q ∈ e.2.ops, q.stage = .covered → (e.1 = 0 ∧ q = covered 1) ∨ (e.1 = 1 ∧ q = covered 1)) ∧
    (let w := { at_ (pair 16 (covered 1)) 100 with sched := { up.sched with drrStart := some 0 } }
     let x := granted w 0
     let y := granted (Safety.taken x 0 (covered 1)) 1
     orderCost x 0 (covered 1) ≤ (getInst x 0).deficit ∧ orderCost y 1 (covered 1) ≤ (getInst y 1).deficit) := by decide +kernel

theorem witness_AdmissionRoundDecides_later :
    contenders (at_ (pair 1 longEcb) 100) 0 0 = [0, 1] ∧
    (let w := { at_ (pair 1 longEcb) 100 with sched := { up.sched with drrStart := some 0 } }
     let x := granted w 0
     let y := granted x 1
     let z := granted (Safety.taken y 1 (covered 1)) 0
     (getInst x 0).deficit < orderCost x 0 longEcb ∧ orderCost y 1 (covered 1) ≤ (getInst y 1).deficit ∧
       orderCost z 0 longEcb ≤ (getInst z 0).deficit) := by decide +kernel

theorem witness_AdmissionRoundDecides_legal : Legal (withOp (covered 1)) where
  insts := by
    intro e h
    have h2 : (withOp (covered 1)).insts.all (fun e => decide (e.2.st ≤ 5) && Memory.wf e.2.staging) = true := by decide +kernel
    have h3 := List.all_eq_true.mp h2 e h
    simp only [Bool.and_eq_true, decide_eq_true_eq] at h3
    exact h3
  rising := by decide +kernel
  bays := up_legal.bays
  bayRising := up_legal.bayRising
  life := up_legal.life
  otp := up_legal.otp
  step := up_legal.step
  now := up_legal.now

theorem witness_DescriptorDecision :
    findOp (getInst ecbState 0) 0 = some coveredEcb ∧ (preStatus (refill (withOp (covered 3)) 0) 0 (covered 3)).1 ≠ 0 ∧
    preStatus (refill ecbState 0) 0 coveredEcb = (0, 0) ∧
    (getInst { ecbNext with insts := [(0, { inst0 with core := 0 })] } 0).core < Int.ofNat ((opPlan ecbNext 0 coveredEcb).core * 1000) ∧
    Int.ofNat ((opPlan ecbNext 0 coveredEcb).core * 1000) ≤ (getInst ecbNext 0).core ∧
    dOp coveredEcb.snap ≠ 1 ∧ dOp coveredEcb.snap ≠ 2 ∧ dOp (covered 1).snap = 1 ∧
    preStatus (refill (withOp (covered 1)) 0) 0 (covered 1) = (0, 0) ∧
    findStart ecbNext 0 (opPlan ecbNext 0 coveredEcb) (0 / 2000 + classFrames (opPlan ecbNext 0 coveredEcb).cls - 2
      - (opPlan ecbNext 0 coveredEcb).len + 1 - (0 / 2000 + 1)) (0 / 2000 + 1) = some (1, 16) ∧
    findStart { ecbNext with bays := (upTo 28).map (fun b => (b, { bay0 with st := 2 })) } 0 (opPlan ecbNext 0 coveredEcb) 40 1 = none := by
  decide +kernel

theorem witness_FramesEndClear :
    (∃ n k : Nat, n = max up.now 4000 / 2000 ∧ k = min 10240 (n - up.sched.frameEnded) ∧ 0 < k) ∧
    (∃ n k : Nat, n = max up.now 2000 / 2000 ∧ k = min 10240 (n - up.sched.frameEnded) ∧ k = 1 ∧ framesRun up 16 = true ∧
      (getBay up 16).frame < n ∧ (getBay up 16).lag = 0 ∧ framesRun (withBay 16 { bay0 with lag := 200 }) 16 = true ∧
      (getBay (withBay 16 { bay0 with lag := 200 }) 16).lag ≠ 0) ∧ (getBay up 0).testBook = none :=
  ⟨⟨2, 2, by decide +kernel⟩, ⟨1, 1, by decide +kernel⟩, by decide +kernel⟩

theorem witness_FramesEndClear_books : (getBay (bookTests (at_ up (10 ^ 10)) 24) 24).testBook = some (0, 5000001) := by decide +kernel

theorem witness_EngineTestsRun :
    testable (at_ up 0) 0 3 = true ∧ (getBay up 0).lag = 0 ∧ isBncBay 0 = true ∧
    ((getBay (withBay 0 { bay0 with testBook := some (3, 0) }) 0).testBook = some (3, 0) ∧ 2000 * 0 + 0 ≤ 39999 ∧ 39999 / 2000 < 0 + testFrames 0 ∧
      testable (withBay 0 { bay0 with testBook := some (3, 0) }) 0 3 = true ∧ 0 + testFrames 0 ≤ 40000 / 2000) ∧
    (reactiveCalled (at_ up 0) 0 3 true = true ∧ reactiveCalled (at_ up 0) 0 3 false = false ∧
      reactiveCalled (at_ up (70 * 10 ^ 9)) 0 3 false = true ∧
      reactiveCalled (withBay 0 { bay0 with testQueue := [3] }) 0 3 false = true) ∧
    testable (withBay 0 { bay0 with failed := 8 }) 0 3 = false ∧
    (getBay (withBay 0 { bay0 with lag := 200 }) 0).lag ≠ 0 ∧
    ((getBay (withBay 0 { bay0 with test := some ⟨3, true, 0⟩ }) 0).test = some ⟨3, true, 0⟩ ∧
      bayClockRuns (withBay 0 { bay0 with test := some ⟨3, true, 0⟩ }) 0 = true) ∧
    (getBay (withBay 0 { bay0 with test := some ⟨3, false, 0⟩ }) 0).test = some ⟨3, false, 0⟩ ∧ bayClockRuns (clockless 5) 0 = false := by decide +kernel

theorem witness_BaysLeaveAndReturn :
    ((getBay (withBay 0 { bay0 with st := 1 }) 0).st = 1 ∧ bookingsPassed (at_ (withBay 0 { bay0 with st := 1 }) 2000) 0 = true ∧
      bayBusy (withBay 0 { bay0 with st := 1 }) 0 = false ∧ (getBay (withBay 0 { bay0 with st := 1 }) 0).test = none) ∧
    bookingsPassed (at_ (withBay 0 { bay0 with st := 1, book := [(1, 5)] }) 0) 0 = false ∧
    ((getBay (withBay 0 { bay0 with st := 2, drbg := { inst := true, reserve := List.replicate 8192 0 } }) 0).drbg.reserve.length = 8192 ∧
      1 ≤ up.power.step ∧ bayHeld (withBay 0 { bay0 with st := 2 }) 0 = false ∧ up.fw.act ≠ 2 ∧ up.fw.act ≠ 3) ∧
    { up with random := { up.random with stopped := true } }.random.stopped = true ∧
    (framesRun (withBay 16 { bay0 with lag := 200 }) 16 = true ∧ (getBay (withBay 16 { bay0 with lag := 200 }) 16).lag ≠ 0 ∧
      2000 * 0 + 200 + bayFrameLen 200 ≤ 2000 ∧ 1999 < 2000 * 0 + 200 + bayFrameLen 200) ∧
    islandRuns up (3 : Fin 33).val = true ∧ ((3 : Fin 33).val < 5 ∧ islandRuns (clockless 3) (3 : Fin 33).val = false) ∧
    ((21 : Fin 33).val = 5 + 16 ∧ islandRuns (clockless 21) (21 : Fin 33).val = false) ∧ mrising (clockless 21).insts = true := by decide +kernel

theorem witness_BaysLeaveAndReturn_words :
    up.link.stalled = [] ∧ { up with link := { up.link with stalled := [.conditionedBlock 0] } }.link.stalled = [.conditionedBlock 0] ∧
    isBncBay 16 = false ∧ isBncBay 0 = true := by decide +kernel

/-- An operation at the end of its round work, and an UNWRAP that inserts a token. -/
def ended (st : Nat) : RingOp := { ecbOp 1 with stage := .running, outcome := some { status := st, due := 10 } }
def aToken : Token := { tenant := 0, inst := 0, time := 0, maxAge := 60, tag := Bytes.zeros 32, key := aesKey 256 }
def unwrapped : RingOp := { unwrapOp with stage := .running, outcome := some { status := 0, due := 10, token := some aToken } }

/-- An ECDSA signature whose producing segment has ended. -/
def signed : RingOp := { signOp with stage := .running, engines := [0], outcome := some { status := 0, due := 34000 } }

theorem witness_SegmentsEnd :
    findOp (getInst (withOp (ended 0)) 0) 0 = some (ended 0) ∧ (ended 0).squashed = false ∧ 9 < 10 ∧ ([0] : List Nat) ≠ [] ∧
    (ended 0).waits = [] ∧ (ended 0).reads = 0 ∧ (ended 0).readBack = false ∧ bayClockRuns (withOp (ended 0)) (ended 0).bay = true ∧
    islandRuns (withOp (ended 0)) islHub = true ∧ islandRuns (clockless 2) islHub = false ∧ bayClockRuns (clockless 21) 16 = false ∧
    (ended 0).stage ≠ .atHub ∧ ((ended 0).outcome.map (fun oc => checkWanted (ended 0) oc || (hostRegion (ended 0) oc.out).isSome)) = some false ∧
    ((ended 0).outcome.map (·.token)) = some none ∧
    (checkWanted signed { status := 0, due := 34000 } = true ∧ signed.checking = false ∧ 0 + checkNs signed.snap ≤ 34000 ∧
      freeEngine (withOp signed) 0 signed.engines = some 1 ∧ freeEngine (withBay 0 { bay0 with failed := 0xFE }) 0 signed.engines = none ∧
      0 + checkNs signed.snap < 34001) ∧
    (hostRegion (ecbOp 2) (Bytes.zeros 16) = some ⟨true, 64, 16⟩ ∧ (ecbOp 2).written = false ∧
      decidingOver ruled dmaMaster (dmaRanges (ecbOp 2)) true = none ∧ headReads up 0 < 512 ∧ (decidingOver denied dmaMaster (dmaRanges (ecbOp 2)) true).isSome = true) ∧
    ((unwrapped.outcome.map (·.token)) = some (some aToken) ∧ (unwrapped.outcome.map (fun oc => (baseStatus unwrapped oc, oc.out, oc.deriv.isSome)))
        = some (0, [], false) ∧ dOp unwrapped.snap = 0x71) ∧
    (insertToken (leaveEngines (at_ { up with random := { up.random with seeded := true, tableKey := some (Bytes.zeros 16) } } 10) 0 unwrapped false) 16 0 aToken).1.isSome = true ∧
    (insertToken (leaveEngines (at_ up 10) 0 unwrapped false) 16 0 aToken).1 = none := by decide +kernel

/-- One that runs while its input still comes, on a bay whose other engines are at work, and 512 reads outstanding on its head. -/
def feeding : RingOp :=
  { ecbHost with stage := .running, job := some { key := aesKey 3, v := 0 }, asked := 16, asks := [0]
                 plan := { kind := .cipher, core := 208, charge := [208] } }
def crowded : State := { up with insts := [(0, { inst0 with ops := [{ feeding with asks := List.replicate 512 0 }] })] }

theorem witness_SegmentsEnd_streams :
    (engineBad (withOp (ended 0)) { ended 0 with engines := [0] } = false ∧
      engineBad (spoilWord (withOp (ended 0)) memCipher 0 1) { ended 0 with engines := [0] } = true) ∧
    (feeding.outcome = none ∧ feeding.job.isSome = true ∧ feeding.suspended = false ∧ inputReady feeding = false ∧
      inputReady { feeding with input := Bytes.zeros 16 } = true ∧ dataLate (at_ (withOp feeding) 0) feeding = false ∧
      dataLate (at_ (withOp feeding) (10 ^ 9)) feeding = true ∧ ({ feeding with waits := [5] } : RingOp).waits ≠ [] ∧
      seatsEnough (at_ (withOp feeding) 0) { feeding with suspended := true } = true ∧
      seatsEnough (at_ (withBay 16 { bay0 with failed := 0xFFFFFFFF }) 0) { feeding with suspended := true } = false) ∧
    512 ≤ headReads crowded 0 := by decide +kernel

def dmaOp : RingOp := { booked 16 [(1, 0x40), (8, 5), (0x10, 2 + 4), (0x14, 16)] with asks := [0], asked := 16 }

theorem witness_DmaRequestsRetire :
    findOp (getInst (withOp dmaOp) 0) 0 = some dmaOp ∧ dmaOp.squashed = false ∧ dmaOp.dmaFault = false ∧ dmaOp.reads ≠ 0 ∧
    islandRuns (withOp dmaOp) islLink = true ∧ islandRuns (withOp dmaOp) islHub = true ∧ islandRuns (clockless 1) islLink = false ∧
    dmaOp.readBack = false ∧ dmaOp.written = false ∧ dmaOp.outcome = none ∧ dmaOp.job = none ∧ dmaOp.stage ≠ .atHub ∧
    (∀ e ∈ (withOp dmaOp).insts, ∀ o' ∈ e.2.ops, asksMore o' = false) ∧ (inRegion dmaOp.snap).elim 0 (·.len) = dmaOp.asked ∧
    (decidingOver { withOp dmaOp with acu := ruled.acu } dmaMaster (dmaRanges dmaOp) false = none ∧
      (decidingOver denied dmaMaster (dmaRanges dmaOp) false).isSome = true ∧
      (takeInput (withOp dmaOp) dmaOp (Bytes.zeros 16)).asks = [] ∧ inputReady (takeInput (withOp dmaOp) dmaOp (Bytes.zeros 16)) = true) ∧
    (timedOut (at_ (withOp dmaOp) 0) dmaOp = false ∧ timedOut (at_ (withOp dmaOp) (10 ^ 9)) dmaOp = true) ∧
    (feeding.reads = 1 ∧ feeding.job.isSome = true ∧ bayClockRuns (withOp feeding) feeding.bay = true ∧
      inputReady (takeInput (withOp feeding) feeding (Bytes.zeros 8)) = false) ∧
    1 < ({ dmaOp with asks := [0, 0] } : RingOp).reads ∧
    (findOp (getInst (withOp { dmaOp with asks := [], readBack := true, written := true }) 0) 0).map (fun o => o.readBack && o.written) = some true ∧
    ({ dmaOp with squashed := true, outcome := some { status := 0x0903 } } : RingOp).outcome = some { status := 0x0903 } ∧
    (findOp (getInst (withOp { dmaOp with asks := [] }) 0) 0).map (·.reads) = some 0 := by decide +kernel

def aStage (d : Bool) : StageRec := { r := ⟨5, false, 1, 65536⟩, durable := d, postedT := 0 }
def withJournal (j : Journal) : State := { up with keys := { up.keys with journal := j } }
def aSeg : JourSeg := { under := [], epoch := 1, time := 0, snapshot := false, last := false, recs := [⟨5, false, 1, 65536⟩] }

theorem witness_JournalRuns :
    islandRuns up islControl = true ∧
    (markDurable 5 [aStage false]).any (fun r => r.r.slot == 5 && !r.durable) = false ∧
    (markDurable 6 [aStage false]).any (fun r => r.r.slot == 5 && !r.durable) = true ∧
    (((withJournal { stage := [aStage true] }).keys.journal.stage.filter (·.durable)).take 252).map (·.r) ≠ [] ∧ serving up = true ∧
    up.life.debug = false ∧ (debugState 3).life.debug = true ∧
    (withJournal {}).keys.journal.stage.filter (·.durable) = [] ∧
    (withJournal { stage := [aStage true], backoff := true }).keys.journal.backoff = true ∧
    (withJournal { flushing := some aSeg }).keys.journal.flushing = some aSeg ∧ up.power.pwrGood = true ∧
    segmentsUsed { flushing := some aSeg } < 1006 ∧
    segmentsUsed { flushing := some aSeg, halfA := List.replicate 1006 badJourSeg } = 1006 ∧
    ({ tries := 2 } : Journal).tries < 3 ∧ 3 ≤ ({ tries := 3 } : Journal).tries := by
  decide +kernel

theorem witness_JournalRuns_held :
    (withJournal { stage := [aStage true], rejected := true }).keys.journal.rejected = true ∧ islandRuns (clockless 2) islControl = true ∧
    islandRuns (clockless 2) islHub = false ∧ serving State.reset = false ∧
    (findOp (getInst (withOp { ended 0 with waits := [5] }) 0) 0).map (·.waits) = some [5] := by decide +kernel

theorem witness_LogsAndTablesSettle :
    (let w := { up with keys := { up.keys with log := { up.keys.log with queue := [⟨7, 2, none⟩] } } }
     islandRuns w islControl = true ∧ keyLogWrites (at_ w 0) = true ∧
      keySegsUsed w.keys.log + (keySegs w false w.keys.log.queue).length < 1200 ∧ keySegsUsed w.keys.log < 1199) ∧
    keyLogWrites (at_ up 0) = false ∧ islandRuns up islHub = true ∧
    State.reset.random.on = false ∧ up.random.on = true ∧ up.random.reqs.any (fun r => r.who == .evict) = false := by decide +kernel

/-- Windows of alternating and of equal samples. -/
def goodWindow : Bytes := List.replicate 128 0x55
def badWindow : Bytes := List.replicate 128 0

def withChan (x : Chan) : State := { up with random := { up.random with chans := [(2, x)] } }

theorem witness_ChannelsAreTested :
    up.random.on = true ∧ islandRuns up islRandom = true ∧ ((getChan up 2).st = 0 ∧ (getChan up 2).testing = false) ∧
    (rctFails up (getChan up 2) goodWindow = false ∧ aptFails up (getChan up 2) goodWindow = false) ∧
    rctFails up (getChan up 2) badWindow = true ∧ aptFails up (getChan up 2) badWindow = true ∧
    (getChan (withChan { st := 3 }) 2).st = 3 ∧
    ((getChan (withChan { st := 1 }) 2).st = 1 ∧ (getChan (withChan { st := 1 }) 2).testing = false ∧
      (getChan (withChan { st := 1 }) 2).failT + 10 ^ 9 ≤ 10 ^ 9 ∧ 10 ^ 9 - 1 < (getChan (withChan { st := 1 }) 2).failT + 10 ^ 9) ∧
    ((getChan (withChan { st := 1, testing := true }) 2).testing = true ∧
      rctFails up { st := 1, testing := true, run := none } goodWindow = false ∧
      aptFails up { st := 1, testing := true, run := none } goodWindow = false ∧
      aptFails up { st := 1, testing := true, run := none } badWindow = true ∧
      minHealthy up ≤ channelsLeft (withChan {})) ∧
    ((getChan (withChan { failsStart := 1 }) 2).failsStart < 2 ∧ 2 ≤ (getChan (withChan { failsStart := 2 }) 2).failsStart) := by
  decide +kernel

def withReq (r : SeedReq) : State := { up with random := { up.random with windows := [goodWindow], reqs := [r] } }

theorem witness_BlocksReachTheirConsumers :
    (up.random.on = true ∧ up.random.stopped = false ∧ up.random.katRunning = false ∧ islandRuns up islRandom = true ∧
      islandRuns up islHub = true ∧ bayClockRuns up 0 = true) ∧
    nextRequest (withReq ⟨2, .evict, 2, []⟩) = some ⟨2, .evict, 2, []⟩ ∧ 0 + 1 < 2 ∧
    nextRequest (withReq ⟨1, .inst 3, 1, []⟩) = some ⟨1, .inst 3, 1, []⟩ ∧ 1 ≤ 0 + 1 ∧
    ((getBay (withBay 0 { bay0 with drbg := { bay0.drbg with refill := true } }) 0).drbg.refill = true ∧
      drbgServes (withBay 0 { bay0 with drbg := { bay0.drbg with refill := true } }) 0 = true) ∧
    ((getBay (withBay 0 { bay0 with drbg := { bay0.drbg with seed := some [] } }) 0).drbg.seed = some [] ∧ 0 < reseedLimit up) := by decide +kernel

theorem witness_RandomTestsAndHolds :
    { up with random := { up.random with katRunning := true } }.random.katRunning = true ∧
    ((getBay (withBay 0 { bay0 with st := 2, why := .kat }) 0).st = 2 ∧ (getBay (withBay 0 { bay0 with st := 2, why := .kat }) 0).why = .kat) ∧
    ({ up with random := { up.random with stopped := true, stopT := some 0 } }.random.stopT = some 0 ∧ up.random.swapHold = false ∧
      up.alarm.random = false ∧ islandRuns up islRandom = true ∧ 0 + stopHoldMs up * 10 ^ 6 ≤ 10 ^ 10 ∧ 10 ^ 10 - 1 < 0 + stopHoldMs up * 10 ^ 6) := by decide +kernel

def withMask (m : Masks) : State := { up with keys := { up.keys with slotMask := m } }
def stoppedSeeded : State := { up with random := { up.random with stopped := true, seeded := true } }

theorem witness_MasksPassAndKeyClock :
    ((maskIsland up false).all (islandRuns up) = true ∧ (maskIsland up true).all (islandRuns up) = true) ∧
    ((maskOf up false).running = false ∧ up.power.pwrGood = true ∧ up.random.on = true ∧ up.random.stopped = false ∧
      up.random.reqs.any (fun r => r.who == .maskSlots) = false) ∧
    (stoppedSeeded.random.stopped = true ∧ stoppedSeeded.random.seeded = true ∧ idleWord (maskOf stoppedSeeded false) = []) ∧
    (cellState.power.pwrGood = false ∧ (maskOf cellState true).running = false) ∧
    ((maskOf (withMask { running := true, w1 := [1] }) false).running = true ∧ idleWord (maskOf (withMask { running := true, w1 := [1] }) false) ≠ [] ∧
      mismatchedEntries (withMask { running := true, w1 := [1] }) = []) ∧
    idleWord (maskOf (withMask { running := true }) false) = [] ∧
    (mismatchedEntries (spoilWord (withKey up (aesKey 3)) memSlots (slotWord 5) 1)).length = 1 ∧
    State.reset.vault.rootAbsent = true ∧ up.vault.rootAbsent = false := by decide +kernel

/-- The witness of a request that waits or is under way. -/
def resetting (r : Reset) (x : Inst) : State := withInst { x with st := 2, reset := some r }
def drainReq : Reset := { squash := false, arr := 0, deadline := 100, didSquash := false, toFrozen := false }

theorem witness_ResetsAndFreezes :
    ((getInst State.reset 0).st = 0 ∧ ({ drainReq with squash := true } : Reset).squash = true) ∧
    (mrising inst0.slots = true ∧ islandRuns up islHub = true ∧ (getInst up 0).st ≠ 0 ∧ (getInst up 0).st ≠ 5 ∧ (getInst up 0).reset = none) ∧
    ((getInst (resetting drainReq { inst0 with ops := [covered 1] }) 0).reset = some drainReq ∧ drainReq.squash = false ∧
      drainReq.deadline ≤ 100 ∧ quiet (getInst (resetting drainReq { inst0 with ops := [covered 1] }) 0) = false) ∧
    99 < drainReq.deadline ∧ quiet (getInst (resetting drainReq inst0) 0) = true ∧
    ((getInst (withInst { inst0 with st := 3 }) 0).st = 3 ∧ quiet (getInst (withInst { inst0 with st := 3 }) 0) = true) ∧
    quiet (getInst (withInst { inst0 with st := 3, ops := [covered 1] }) 0) = false := by decide +kernel

/-- An operation that waits for the host, and one that waits for nothing. -/
theorem witness_ResetsAndFreezes_left :
    (dmaOp.squashed = false ∧ dmaOp.stage ≠ .covered ∧ dmaOp.reads ≠ 0) ∧ ((ended 0).squashed = false ∧ (ended 0).reads = 0 ∧
      (ended 0).readBack = false) ∧ (covered 1).stage = .covered ∧ islandRuns (clockless 2) islHub = false := by decide +kernel

theorem witness_ResetRequestsMeet :
    islandRuns up islHub = true ∧ (getInst State.reset 0).st = 0 ∧ (getInst (withInst { inst0 with st := 5 }) 0).st = 5 ∧
    ((getInst (withInst { inst0 with st := 3 }) 0).st = 3 ∧ (getInst (withInst { inst0 with st := 4 }) 0).reset = none) ∧
    ((getInst (resetting drainReq { inst0 with ops := [covered 1] }) 0).st = 2 ∧
      (getInst (resetting drainReq { inst0 with ops := [covered 1] }) 0).reset = some drainReq ∧ drainReq.squash = false) ∧
    ((covered 1).squashed = false ∧ (covered 1).stage = .covered) ∧ ((ended 0).reads = 0 ∧ (ended 0).readBack = false) ∧
    quiet (getInst (resetting { drainReq with toFrozen := true } inst0) 0) = true := by decide +kernel

def anOffer : Offer := { bornT := 0, ready := false }
def sealedUp : State := { up with keys := { up.keys with identity := some [1] } }
/-- The same with one bay, whose generator has not been instantiated. -/
def undrawn (s : State) : State := { s with bays := [(0, { bay0 with drbg := {} })] }

theorem witness_MigrationOffersAndBlobs :
    ((getInst (withInst { inst0 with offer := some anOffer }) 0).offer = some anOffer ∧ anOffer.ready = false ∧
      sealedUp.keys.identity ≠ none ∧ anOffer.bornT + 600 * 10 ^ 9 ≤ 600 * 10 ^ 9 ∧ 600 * 10 ^ 9 - 1 < anOffer.bornT + 600 * 10 ^ 9) ∧
    (controllerDraws [16, 56, 32, 32, 56] (at_ sealedUp 0)).1.map (·.map (·.length)) = some [16, 56, 32, 32, 56] ∧
    (controllerDraws [16, 56, 32, 32, 56] (at_ (undrawn sealedUp) 0)).1 = none ∧
    (controllerDraws [56, 32, 12, 56] (at_ up 0)).1.map (·.map (·.length)) = some [56, 32, 12, 56] ∧
    (controllerDraws [56, 32, 12, 56] (at_ (undrawn up) 0)).1 = none ∧
    ((getInst (withInst { inst0 with st := 5, saveReq := some [1], blob := some [2] }) 0).saveReq = some [1] ∧
      (getInst (withInst { inst0 with st := 5, saveReq := some [1], blob := some [2] }) 0).blobReady = false) ∧
    islandRuns up islControl = true := by decide +kernel

theorem witness_HeadsResetAndTrain :
    up.power.pwrGood = true ∧ 0 < headsNow up ∧ 2 ≤ (getHead up 0).st ∧ linkAlive up = true ∧
    (getHead { up with link := { up.link with heads := [] } } 0).st = 0 ∧ (getHead up 0).perst = false ∧ trainable up 64 16 = true ∧
    trainable up 63 16 = false ∧ trainable up 64 32 = false ∧ (getInst up 0).st ≠ 0 ∧ (getInst up 0).st ≠ 5 ∧ instLd cfg0 0 = 0 := by
  decide +kernel

/-- A new split waits, and only head 0 is in use. -/
theorem witness_HeadsResetAndTrain_split :
    (let s := { up with ctl := { up.ctl with cfg := { cfg0 with vals := mput cfg0.vals (odKey 0x9000 1) 1 } }
                        link := { up.link with heads := mput up.link.heads 1 { st := 0, perst := false } } }
     headsNow s = 1 ∧ linkAlive s = true ∧ 1 < headsOf (setting s.ctl.cfg 0x9000 1 0) ∧ (getHead s 1).perst = false ∧ (getHead s 1).st = 0) := by
  decide +kernel

theorem witness_FunctionRegistersAnswer :
    headUp up 0 = true ∧ islandRuns up islLink = true ∧ islandRuns (clockless 1) islLink = false ∧ headUp up 1 = false ∧ ldServed up 0 = true ∧ ldServed up 16 = false ∧ ldServed State.reset 0 = false := by
  decide +kernel

/-- The same with no decoder committed. -/
def undecoded : State := { up with link := { up.link with hdm := [] } }

theorem witness_DecodersMapAreas :
    portRuns up = true ∧ ldServed up 0 = true ∧ portRuns undecoded = true ∧ headUp undecoded 0 = true ∧ serving undecoded = true ∧
    decoded undecoded 0 = false ∧ decoded up 0 = true ∧ bound undecoded 0 0 = true ∧
    (assignedIn undecoded.ctl.cfg).any (fun i => instLd undecoded.ctl.cfg i == 0 && instArea undecoded.ctl.cfg i == 255) = false := by
  decide +kernel

def ldMgrSwap (p : Nat) (s : State) : State := { s with fw := { s.fw with replacing := some p } }
def seeding (s : State) : State := { s with random := { s.random with awaiting := true } }

theorem witness_SpdmIdentityAnswers :
    (8 ≤ up.power.step ∧ up.power.stop = .running ∧ transportUp up .mctp = true ∧ transportUp up (.doe 0) = true ∧
      islandRuns up islLink = true) ∧
    ((ldMgrSwap 2 up).fw.replacing = some 2 ∧ isMctp (.doe 0) = false ∧ up.fw.replacing ≠ some 2 ∧ isMctp .mctp = true) ∧
    up.life.debug = false ∧ { up with life := { up.life with debug := true } }.life.debug = true ∧ up.vault.rootAbsent = false ∧
    seedingInForce (seeding up) = true ∧ seedingInForce up = false ∧
    identityThere { up with vault := { up.vault with rootAbsent := true } } = false ∧ identityThere up = true ∧
    ((controllerDraw (at_ up 0) 56).1.map (·.length) = some 56) := by decide +kernel

def aSession : Session := { role := 1, tr := .mctp, opener := 0x8000, beat := 0 }
def eight : Map Session := (upTo 8).map (fun n => (n, aSession))
def withSessions (m : Map Session) : State := { up with link := { up.link with sessions := m } }
theorem witness_SessionsOpenAndEnd :
    (8 ≤ up.power.step ∧ up.power.stop = .running ∧ up.fw.replacing ≠ some 2 ∧ islandRuns (withSessions eight) islLink = true) ∧
    (transportUp (withSessions eight) .mctp = true ∧ 8 ≤ (withSessions eight).link.sessions.length) ∧
    ((withSessions (eight.take 7)).link.sessions.length < 8 ∧ requesterRole up .maker = none ∧ requesterRole up .none = some (0, 0) ∧
      (upTo 8).find? (fun m => (mfind (withSessions (eight.take 7)).link.sessions m).isNone) = some 7) ∧
    (seedingInForce up = false ∧ identityThere up = true ∧ (controllerDraw (at_ up 0) 56).1.isSome = true) ∧
    (mfind (withSessions eight).link.sessions (7 : BitVec 3).toNat = some aSession ∧ transportUp (withSessions eight) aSession.tr = true) ∧
    aSession.beat + 60 * 10 ^ 9 ≤ 60 * 10 ^ 9 ∧ 60 * 10 ^ 9 - 1 < aSession.beat + 60 * 10 ^ 9 := by decide +kernel

theorem witness_MailboxAnswers :
    (ldServed up 0 = true ∧ up.power.stop = .running ∧ up.fw.replacing ≠ some 2 ∧ (ldMgrSwap 2 up).fw.replacing = some 2) ∧
    (ldMgrSwap 1 up).fw.replacing = some 1 ∧ tunnelPath up 0 (.tenant 1 0) = false ∧ tunnelPath up 0 (.tenant 0 0) = true ∧
    (Bytes.zeros 12).length = 12 := by decide +kernel

theorem witness_FabricManagerAndMctpAnswer :
    (up.power.pwrGood = true ∧ 8 ≤ up.power.step ∧ up.power.stop = .running ∧ up.fw.replacing ≠ some 2 ∧ linkAlive up = true ∧
      islandRuns up islLink = true) ∧
    (∀ l, l < 16 → 1 ≤ l → setting up.ctl.cfg (0x9010 + (16 * 0 + l)) 1 0 ≠ 1) ∧ setting up.ctl.cfg (0x9010 + (16 * 0 + 0)) 1 0 = 1 ∧
    ∃ l, 0 ≤ l ∧ l < 16 ∧ setting up.ctl.cfg (0x9010 + (16 * 0 + l)) 1 0 = 1 :=
  ⟨by decide +kernel, by decide +kernel, by decide +kernel, 0, by decide +kernel⟩

/-- An operator's session 0, and requests through it. -/
def opUp : State := withSessions [(0, aSession)]
def opHdr : KHdr := { path := .session 0 }
def tenHdr : KHdr := { path := .tenant 0 0 }

theorem witness_KallekReads :
    (gate opUp opHdr = .go roleOperator 0xFFFF ∧ roleOperator ≠ roleRecovery ∧ roleOperator ≠ roleReturn) ∧
    (readable (at_ opUp 0) roleOperator 0xFFFF 0x4002 2).isSome = true ∧ readable (at_ opUp 0) roleOperator 0xFFFF 1 1 = none ∧
    ((readable (at_ opUp 0) roleOperator 0xFFFF 0x4002 2).map (fun o => (readBytes (at_ opUp 0) 0x4002 2 o 0 4).1)) = some 4 ∧
    visible (at_ opUp 0) roleOperator 0xFFFF 1 1 = none ∧ (visible (at_ opUp 0) roleOperator 0xFFFF 0x4002 2).isSome = true ∧
    (nextVisible (at_ opUp 0) roleOperator 0xFFFF 0x4002 1).isSome = true ∧
    nextVisible (at_ opUp 0) roleOperator 0xFFFF 0xFFFF 255 = none ∧
    gate opUp { opHdr with version := 2 } = .refuse 0x0202 ∧ gate State.reset opHdr = .silent ∧ gate (ldMgrSwap 2 up) tenHdr = .busy (some 0) := by
  decide +kernel

/-- A request of a path waits behind a stopped clock, and behind a signature under verification. -/
theorem witness_KallekReads_waits :
    pathFree { opUp with link := { opUp.link with clockStops := [(0, 1)] } } opHdr.path = false ∧ pathFree opUp opHdr.path = true ∧
    signsPending opUp opHdr.path = false ∧ signsPending (setJoint opUp 0 { gen := 1, st := 0, path := .session 0, role := 1, verifying := [(0, [], opHdr)] }) opHdr.path = true := by
  decide +kernel

/-- A joint of the session in slot 0 under generation 1, and requests that name it. -/
def aJoint : Joint := { gen := 1, st := 0, path := .session 0, role := 1 }
def withJoint (j : Joint) : State := setJoint opUp 0 j
/-- An orderly shutdown is ready. -/
def ready (s : State) : State := { s with power := { s.power with shutdown := 2 } }
def jHdr : KHdr := { opHdr with jointId := 64 }
def aWrite : JRec := { kind := 1, sub := 2, index := 0x4002, data := [1, 0, 0, 0] }
def aBadWrite : JRec := { aWrite with index := 1 }
def tenantJoint : Joint := { aJoint with path := .tenant 0 0, opener := 0, role := 0 }

theorem witness_JointsOpenAndStage :
    (gate opUp opHdr = .go roleOperator 0xFFFF ∧ opUp.power.shutdown ≠ 2 ∧ freeJointSlot opUp = some 0 ∧ seedingInForce opUp = false ∧
      opUp.random.reqs.any (fun r => r.who == .jointNonce 0) = false ∧ seedingInForce (seeding opUp) = true) ∧
    (gate up tenHdr = .go roleTenant 0 ∧ (tenantJoints (setJoint up 0 tenantJoint)).any (fun e => e.2.opener == 0) = true) ∧
    (ownJoint (withJoint aJoint) jHdr = some (0, aJoint) ∧
      ok (getBody (touch (at_ (withJoint aJoint) 0) 0) roleOperator 0xFFFF 0x4002 2 0 4) = true ∧ (dictAt 0x4002 2).isSome = true) ∧
    (aJoint.commit = none ∧ aJoint.st ≠ 1 ∧ withinLimits (touch (at_ (withJoint aJoint) 0) 0) aJoint [aWrite] = true ∧
      firstRefused (touch (at_ (withJoint aJoint) 0) 0) roleOperator 0xFFFF aJoint.quorum aJoint.recs [aWrite] 0 [aWrite] = none ∧
      (firstRefused (touch (at_ (withJoint aJoint) 0) 0) roleOperator 0xFFFF aJoint.quorum aJoint.recs [aBadWrite] 0 [aBadWrite]).isSome
        = true) ∧
    (ownJoint (withJoint { aJoint with st := 1 }) jHdr = some (0, { aJoint with st := 1 }) ∧ ownJoint opUp jHdr = none) ∧
    anyJoint (withJoint aJoint) jHdr roleOperator = some (0, aJoint) ∧ anyJoint opUp jHdr roleOperator = none ∧
    (ready opUp).power.shutdown = 2 ∧ gate (ready opUp) opHdr = .go roleOperator 0xFFFF ∧
    ([aWrite].flatMap jrecBytes).length ≤ 73728 := by decide +kernel

theorem witness_JointsOpenAndStage_tenant :
    gate up tenHdr = .go roleTenant 0 ∧ (tenantJoints up).length < 32 ∧ (tenantJoints up).any (fun e => e.2.opener == 0) = false ∧
    freeJointSlot up = some 0 := by decide +kernel

/-- The records of a body of more than 73,728 bytes. -/
theorem witness_JointsOpenAndStage_long :
    73728 < ([{ aWrite with data := Bytes.zeros 73728 }, aWrite].flatMap jrecBytes).length := by
  have h : (Bytes.zeros 73728).length = 73728 := List.length_replicate ..
  simp [jrecBytes, h, Sys2Proof.Sha.ofNatLE_length]
  omega

def staged : Joint := { aJoint with recs := [aWrite] }
/-- A joint whose record needs a quorum that it has not. -/
def quorate : Joint := { aJoint with recs := [{ kind := 3, sub := 0, index := 0, data := bytesOf 16 [(6, 3)] }] }
def toCommit (j : Joint) : State × Joint :=
  (setJoint (setJoint (at_ (withJoint j) 0) 0 { j with lastMsg := 0 }) 0 { j with lastMsg := 0, commit := some jHdr }, { j with lastMsg := 0 })

theorem witness_JointsSignAndCommit :
    (gate (withJoint aJoint) jHdr = .go roleOperator 0xFFFF ∧ opUp.power.shutdown ≠ 2 ∧ roleOperator ≠ roleReturn ∧
      roleOperator ≠ roleRecovery) ∧
    anyJoint (withJoint aJoint) jHdr roleOperator = some (0, aJoint) ∧ anyJoint opUp jHdr roleOperator = none ∧
    ownJoint (withJoint { aJoint with commit := some jHdr }) jHdr = some (0, { aJoint with commit := some jHdr }) ∧
    (ownJoint (withJoint { staged with verifying := [(0, [], jHdr)] }) jHdr = some (0, { staged with verifying := [(0, [], jHdr)] })) ∧
    (cutForbidden { withJoint staged with alarm := { opUp.alarm with rootCleared := true } } = true ∧ cutForbidden (withJoint staged) = false) ∧
    (staged.verifying = [] ∧ ownJoint (withJoint staged) jHdr = some (0, staged)) ∧
    (quorumPresent (withJoint quorate) quorate = false ∧ quorumPresent (withJoint staged) staged = true) ∧
    (let q := { quorate with verifying := [(0, [], jHdr)] }
     ownJoint (withJoint q) jHdr = some (0, q) ∧ quorumPresent (setJoint (at_ (withJoint q) 0) 0 q) q = false) ∧
    (gate (ready (withJoint staged)) jHdr = .go roleOperator 0xFFFF ∧ (ready (withJoint staged)).power.shutdown = 2 ∧
      ownJoint (ready opUp) jHdr = none ∧ ownJoint (ready (withJoint staged)) jHdr = some (0, staged)) ∧
    (commitPass (toCommit staged).1 (toCommit staged).2).bad = 0 ∧ staged.prepTries < 3 ∧
    (commitPass (toCommit { staged with reads := [(5, 7)] }).1 (toCommit { staged with reads := [(5, 7)] }).2).bad ≠ 0 ∧
    (commitPass (toCommit { staged with prepTries := 3 }).1 (toCommit { staged with prepTries := 3 }).2).bad = 0 ∧
    ownJoint opUp jHdr = none ∧ namedJoint (withJoint { aJoint with st := 2 }) jHdr = some (0, { aJoint with st := 2 }) ∧
    samePath aJoint.path jHdr.path = true ∧ namedJoint opUp jHdr = none := by decide +kernel

theorem witness_JointsSignAndCommit_bad :
    jointBad (withJoint { staged with bytes := 16 }) 0 = none ∧
    (jointBad (spoilWord (withJoint { staged with bytes := 16 }) memJoints (jointWord 0) 1) 0).isSome = true := by decide +kernel

theorem witness_JointsVerifyAndExpire :
    (islandRuns (clockless 0) islControl = false ∧ islandRuns opUp islControl = true) ∧
    (quorumPresent (withJoint quorate) quorate = false ∧ quorumPresent (withJoint staged) staged = true) ∧
    (opUp.power.pwrGood = true ∧ jointOpen aJoint = true ∧ aJoint.verifying = [] ∧ aJoint.commit = none ∧ aJoint.opener ≠ 0xFFFE ∧
      opUp.fw.replacing ≠ some 1) ∧
    ({ aJoint with verifying := [(0, [], jHdr)], commit := some jHdr } : Joint).verifying = (0, [], jHdr) :: [] ∧
    ({ aJoint with prep := .writing 0 } : Joint).prep = .writing 0 ∧ aJoint.prepTries < 2 ∧ 2 ≤ ({ aJoint with prepTries := 2 } : Joint).prepTries ∧
    opUp.ctl.commits.contains 0 = false ∧ { opUp with ctl := { opUp.ctl with commits := [0] } }.ctl.commits.contains 0 = true ∧
    aJoint.lastMsg + setting opUp.ctl.cfg 0xE000 4 900 * 10 ^ 9 ≤ 900 * 10 ^ 9 ∧
    900 * 10 ^ 9 - 1 < aJoint.lastMsg + setting opUp.ctl.cfg 0xE000 4 900 * 10 ^ 9 := by decide +kernel

/-- A joint first among the commits, its prepare record durable. -/
def fullStage : State := { up with keys := { up.keys with journal := { up.keys.journal with
  stage := List.replicate 128 { r := ⟨0, false, 0, 0⟩, durable := false, postedT := 0 } } } }
def cutting (j : Joint) : State :=
  let s := withJoint { j with commit := some jHdr, prep := .durable }
  { s with ctl := { s.ctl with commits := [0] } }

theorem witness_CutsTakeEffect :
    (mayCut (at_ (withJoint aJoint) 0) 0 = false ∧ (getJoint (cutting staged) 0).commit = some jHdr ∧ mayCut (at_ (cutting staged) 0) 0 = true) ∧
    (commitPass (at_ (cutting { staged with reads := [(5, 7)] }) 0) (getJoint (cutting { staged with reads := [(5, 7)] }) 0)).bad ≠ 0 ∧
    (let p := commitPass (at_ (cutting staged) 0) (getJoint (cutting staged) 0)
     p.bad = 0 ∧ stageRoom (at_ (cutting staged) 0) (itemPosts p.items) = true ∧ (cutState p.s (getJoint (cutting staged) 0) p.items).isSome = true) ∧
    stageRoom (at_ fullStage 0) 1 = false ∧ (islandRuns (cutting staged) islControl = true ∧ islandRuns (cutting staged) islHub = true) ∧
    (islandRuns (clockless 0) islControl = false ∧ islandRuns (clockless 2) islHub = false) ∧
    (up.power.pwrGood = true ∧ up.fw.replacing ≠ some 1 ∧ up.ctl.cfgLogUsed + entrySegments (at_ up 0) (.cut 1 1) < 1200 ∧
      (debugState 3).life.debug = true ∧ 1200 ≤ 1200 + entrySegments (at_ up 0) (.cut 1 1) ∧ up.power.step = 12 ∧
      islandRuns up (7 : Fin 33).val = true) ∧
    armed State.reset 12 = false ∧ armed up 12 = true ∧ monClass up 12 ≠ 0 ∧ bitOf (putBit up.ctl.sweepFail 32 true) 32 = true := by
  decide +kernel

theorem witness_CutsTakeEffect_waits :
    jointBad (cutting staged) 0 = none ∧ (jointBad (spoilWord (cutting { staged with bytes := 16 }) memJoints (jointWord 0) 1) 0).isSome = true ∧
    mayCut (at_ (spoilWord (cutting { staged with bytes := 16 }) memJoints (jointWord 0) 1) 0) 0 = true ∧
    { up with ctl := { up.ctl with backupPending := true } }.ctl.backupPending = true ∧
    { up with ctl := { up.ctl with cutRing := [{ epoch := 1, serial := 1 }] } }.ctl.cutRing ≠ [] ∧
    islandRuns (clockless 3) islControl = true ∧ islandRuns (clockless 3) (3 : Fin 33).val = false := by decide +kernel

/-- A device without configuration, whose islands all hold what is expected. -/
theorem witness_CutsTakeEffect_plumb : ∀ k, 1 ≤ k → k < 33 →
    islandOk { up with ctl := {} } k = true ∧ bitOf ({ up with ctl := {} } : State).ctl.sweepFail k = false := by
  intro k _ _
  refine ⟨?_, ?_⟩
  · by_cases h : k = 4 <;> simp [islandOk, islandReport, mget, h]
  · simp [bitOf]

theorem witness_MonitorsAndDecisions :
    up.power.pwrGood = true ∧
    (∀ e ∈ [(0, glitchHolds cfg0 0 121 40000), (2, glitchHolds cfg0 2 1000 40000), (1, slowHolds cfg0 1 500 0 100000), (3, slowHolds cfg0 3 0 500 100000),
        (4, slowHolds cfg0 4 500 500 100000), (5, decide (limitIn cfg0 5 1 < 999)), (5, decide (limitIn cfg0 5 2 < 999)),
        (6, tempHolds (limitIn cfg0 6 1) (limitIn cfg0 6 2) 100 && decide (limitIn cfg0 6 3 ≤ 10 ^ 7)), (8, contactHolds cfg0 (10 ^ 6)),
        (9, cellHolds cfg0 0 (10 ^ 9))], armed up e.1 = true ∧ e.2 = true ∧ (getMon up e.1).latched = false) ∧
    armed State.reset 0 = false ∧ glitchHolds cfg0 0 0 0 = false ∧ up.alarm.fresh = [] ∧
    ([(4, [])] : List (Nat × Bytes)).foldl (fun c e => max c (monClass up e.1)) (executedNow up) = 1 ∧
    ([(0, [])] : List (Nat × Bytes)).foldl (fun c e => max c (monClass up e.1)) (executedNow up) = 2 ∧
    ([(7, [])] : List (Nat × Bytes)).foldl (fun c e => max c (monClass up e.1)) (executedNow up) = 3 ∧
    ([(7, []), (13, [])] : List (Nat × Bytes)).foldl (fun c e => max c (monClass up e.1)) (executedNow up) = 4 ∧ executedNow up < 2 ∧
    ({ up.alarm with tests := [13] } : Alarm).tests = (13 : Fin 14).val :: [] := by decide +kernel

def chip : EnvRec :=
  { serial := List.replicate 16 0x11, pubKey := Bytes.zeros 64, identity := Bytes.zeros 32, enrolled := 0, chargeUsed := 0, chargeFrac := 0
    notes := 0, mesh := List.replicate 4 (1000, 1000) }
def withBackup (f : Backup → Backup) : State := { up with backup := f up.backup }
def chipUp : State := withBackup (fun b => { b with env := some chip })
/-- A chip whose signature over the first authentication, taken at 298 K, is (z, z). -/
def chipZ : Nat := 0x2db8acb63d3ad9ef26db4f89de6ef8e6f1cf9955b06eaabc4cce8a94c8349bad
def chipAnswer : EnvAnswer :=
  { present := true, closedMs := 1000, serial := List.replicate 16 0x11
    pubKey := Bytes.ofNatBE 32 0x8a2fe49428ccbd7fea2854190027cea69ac1baca2453645e4632f127fa7818d0
      ++ Bytes.ofNatBE 32 0x118f160d8bbfe940c8d5886f92e0fb2982eb78a79570bdbf93cac3ad2c2bdf2d
    certOk := true, binding := [], tempDeciK := 2980, sig := Bytes.ofNatBE 32 chipZ ++ Bytes.ofNatBE 32 chipZ, answerMs := 50, cellMv := 3000 }
def goodNets : List NetReading := List.replicate 4 ⟨1000, 1000, true⟩

theorem witness_EnvelopeIsWatched :
    (chipUp.power.pwrGood = true ∧ chipUp.backup.env = some chip ∧ 4 ≤ chipUp.power.step ∧ 2 ≤ chipUp.life.st ∧ chipUp.life.st ≠ 5) ∧
    (netFails cfg0 true (1000, 1000) ⟨1000, 1000, false⟩ = true ∧ netFails cfg0 true (1000, 1000) ⟨1000, 1000, true⟩ = false ∧
      netUnderTest (at_ chipUp 0) = none ∧
      netUnderTest (at_ { chipUp with alarm := { chipUp.alarm with tests := [7], testT := 0 } } 40000) = some 1 ∧
      armed chipUp 7 = true ∧ monClass chipUp 7 ≠ 0 ∧ limitIn cfg0 7 3 ≤ 2 + 1) ∧
    (chipUp.random.on = true ∧ seedingInForce chipUp = false ∧ State.reset.random.on = false ∧ seedingInForce (seeding chipUp) = true) ∧
    (chipUp.backup.window = none ∧ chipUp.backup.authRetry = false ∧ (withBackup (fun b => { b with authRetry := true })).backup.authRetry = true) ∧
    (withBackup (fun b => { b with window := some 0 })).backup.window = some 0 ∧ 0 + 600 * 10 ^ 9 ≤ 600 * 10 ^ 9 ∧
    enrolFails 1 { chipAnswer with cellMv := 2999 } goodNets ≠ none := by decide +kernel

theorem witness_EnvelopeIsWatched_enrols : enrolFails 1 chipAnswer goodNets = none := by decide +kernel

def enrolling : State := { up with power := { up.power with step := 4, stop := .enrolment } }

theorem witness_StartStepsRun_enrolment :
    enrolling.power.step = 4 ∧ enrolling.power.stop = .enrolment ∧ (readEnvelope (at_ enrolling 0) chipAnswer).backup.authCount = 1 ∧
    enrolling.power.pwrGood = true ∧ enrolling.power.resetLow = false := by decide +kernel

/-- The device on its cell. -/
def cellUp : State := { chipUp with power := { chipUp.power with pwrGood := false, supply := .cell, step := 0 } }

theorem witness_BackupDomainWatches :
    (onBackup up = false ∧ watchesEarly up = false ∧ watchesEarly (atStep 2) = true ∧ onBackup (atStep 2) = false ∧ backupArmed (atStep 2) 8 = true ∧
      bitOf (atStep 2).backup.latch.mons 8 = false ∧ backupClass (atStep 2) 8 ≠ 0) ∧
    onBackup cellUp = true ∧ cellUp.life.st ≠ 5 ∧
    (let w := addCharge (at_ cellUp 0) (ageing (Int.ofNat 298 - 273) 460800 + backupCharge (Int.ofNat 298 - 273))
     let find := fun (levels mv : Nat) => match checkNets { w with backup := { w.backup with levels := levels, cellMv := mv, tempDeciK := 2980 } }
         cellUp.ctl.backupCfg false goodNets with
       | (v, fired) => ((backupFindings v fired 298 mv).filter (fun e => !bitOf cellUp.backup.latch.mons e.1 && backupClass cellUp e.1 != 0)).map (·.1)
     find 0 3000 = [] ∧ find 1 3000 = [10] ∧ find 15 0 = [10, 13]) ∧ backupClass cellUp 13 = 4 ∧ latchDone cellUp.backup.latch < 4 ∧
    cellHolds cellUp.ctl.backupCfg 0 (10 ^ 9) = true ∧ contactHolds cellUp.ctl.backupCfg (10 ^ 6) = true ∧ backupArmed cellUp 8 = true ∧
    backupArmed cellUp 9 = true ∧ cellUp.backup.latch.rootDone = false := by decide +kernel

theorem witness_BackupDomainWatches_early :
    onBackup (atStep 0) = false ∧ backupArmed (atStep 0) 8 = true ∧ backupArmed (atStep 0) 9 = true ∧ backupClass (atStep 0) 8 ≠ 0 ∧
    (getMon (atStep 2) 8).latched = false ∧ watchesEarly up = false := by decide +kernel

def withLife (l : Life) : State := { up with life := l }
def challenge (r a : Bool) : DebugChal := { bytes := [], nonce := [1], bornT := 0, scope := 0, ready := r, answered := a }
def withShutdown (n : Nat) : State := { up with power := { up.power with shutdown := n } }

theorem witness_LifeCycleAndRecorderEvents :
    ((withLife { st := 2, pending := true, target := some 3 }).life.pending = true ∧ up.power.pwrGood = true ∧ up.power.resetLow = false ∧
      up.power.thermtrip = false ∧ up.life.pending = false ∧ islandRuns up islControl = true ∧ islandRuns (clockless 0) islControl = false) ∧
    (withLife { up.life with chal := some (challenge false false) }).life.chal = some (challenge false false) ∧
    (challenge true false).bornT + 600 * 10 ^ 9 ≤ 600 * 10 ^ 9 ∧ (challenge true true).answered = true ∧
    ((withShutdown 1).power.shutdown = 1 ∧ noAdmitted (withShutdown 1) = true ∧ allFlushed (withShutdown 1) = true ∧ up.ctl.commits = [] ∧
      { up with ctl := { up.ctl with commits := [0] } }.ctl.commits ≠ [] ∧ up.power.shutdown ≠ 1 ∧
      noAdmitted { withOp { covered 1 with stage := .booked } with power := (withShutdown 1).power } = false) ∧
    (∀ e ∈ up.evr.buckets, e.2.lost = 0) ∧ mrising up.evr.buckets = true := by decide +kernel

/-- An unsigned manifest of one part, the boot patch, one block of zeros; and one whose digest does not match. -/
def manifestHead : Bytes :=
  bytesOf 64 [(0, 1), (1, 0x46), (2, 0x4E), (3, 0x4D), (4, 112), (0x0C, 1), (0x18, 1), (0x1C, 1)] ++ bytesOf 16 [(0, 8), (4, 1), (9, 16)]
def manifest (d : Bytes) : Bytes := manifestHead ++ d
def zeroBlock : Bytes := Bytes.ofNatBE 32 0xad7facb2586fc6e966c004d7d1d16b024f5805ff7cb47c7a85dabd8b48892ca7
def fwUp (f : Firmware) : State := { ruled with fw := f, life := { st := 1 } }
def writing : Firmware := { staged := manifest zeroBlock, stage := 2, act := 1, mask := 256, markPhase := 1, markPart := 8, markNext := 0 }

theorem witness_FirmwareIsStagedAndSwapped :
    (islandRuns (fwUp {}) islControl = true ∧ islandRuns (clockless 0) islControl = false ∧ (loaderTakes (at_ (fwUp {}) 0) [1]).1 = some [1] ∧
      blockGood (manifest zeroBlock) 0 (loaderTakes (at_ denied 0) [1]).1 = false ∧ 8 ≤ up.power.step) ∧
    (manifest zeroBlock ≠ [] ∧ manifestStatus (fwUp {}) (manifest zeroBlock) = 0 ∧ manifestStatus up (manifest zeroBlock) ≠ 0) ∧
    (nextWrite (fwUp writing) = some (8, 0) ∧ goesOn (fwUp writing) 8 = true ∧ up.power.step = 12 ∧ up.alarm.rootCleared = false ∧
      writing.blockRetry < 3 ∧ 3 ≤ ({ writing with blockRetry := 3 } : Firmware).blockRetry) ∧
    nextWrite (fwUp { writing with markNext := 1 }) = none ∧
    (nextSwap (fwUp { writing with act := 2 }) = some 8 ∧ swapRunning (fwUp { writing with act := 2 }) = false) ∧
    (nextSwap (fwUp { writing with act := 2, mask := 8, staged := bytesOf 64 [] }) = some (100 + (0 : BayNo).val) ∧ (getBay up 0).st = 0) ∧
    (bayLoading (withBay 0 { bay0 with st := 2, why := .update }) = some 0 ∧ up.fw.replacing = none) := by decide +kernel

theorem fieldLE_append (a d : Bytes) (off n : Nat) (h : off + n ≤ a.length) : Bytes.fieldLE (a ++ d) off n = Bytes.fieldLE a off n := by
  have h1 : off - a.length = 0 := by omega
  have h2 : n - (a.length - off) = 0 := by omega
  have h3 : n - (a.length - off + d.length) = 0 := by omega
  simp [Bytes.fieldLE, Bytes.slice, Bytes.fit, List.drop_append, List.take_append, h1, h2, h3]

theorem slice_append (a d : Bytes) : Bytes.slice (a ++ d) a.length d.length = d := by
  simp [Bytes.slice, Bytes.fit, Bytes.zeros]

/-- A manifest that holds the digest of its block. -/
theorem witness_FirmwareIsStagedAndSwapped_block (data : Bytes) :
    blockGood (manifest (Sha.sha256 (Bytes.fit 4096 data))) 0 (some data) = true := by
  have h := Sha.sha256_length (Bytes.fit 4096 data)
  have l : manifestHead.length = 80 := by decide +kernel
  have e : mfDigestsAt (manifest (Sha.sha256 (Bytes.fit 4096 data))) = 80 := by
    simp only [mfDigestsAt, mfCount, mfReqCount, manifest]
    rw [fieldLE_append _ _ _ _ (by omega), fieldLE_append _ _ _ _ (by omega)]
    decide +kernel
  have f := slice_append manifestHead (Sha.sha256 (Bytes.fit 4096 data))
  rw [l, h] at f
  simp only [blockGood, mfDigest, e]
  rw [manifest, f]
  simp

theorem witness_AccessControlActs :
    ({ up with acu := { up.acu with drain := true } }.acu.drain = true ∧ oldAccess (at_ up 0) = false ∧ up.acu.drain = false ∧
      oldAccess (at_ (withSlot { st := .pending, held := some ⟨0, 0, 0, 1⟩ }) 0) = true ∧ serving State.reset = false) ∧
    (tapOpen up = false ∧ tapOpen (debugState 3) = true ∧ portRuns (debugState 3) = true ∧
      portRuns { debugState 3 with link := (clockless 1).link } = false) ∧
    ((1024 : BitVec 11) ≠ 0 ∧ (1024 : BitVec 11).toNat ≤ 1024 ∧ 0x400000C00 % 4096 + (1024 : BitVec 11).toNat ≤ 4096) ∧
    (debugDenied (debugState 3) true 0x400000C00 = some 0x102 ∧ debugDenied (debugState 3) false 0x400000C00 = some 0x102 ∧ up.acu.cap = none) ∧
    (debugDenied openDebug true 0x430000000 = none ∧ debugDenied openDebug false 0x430000000 = none ∧
      (storeAt 0x430000000).isSome = true ∧ storeAt 0 = none) ∧
    (serving up = true ∧ headUp up 0 = true ∧ headUp headDown 0 = false ∧
      (assignedIn cfg0).any (fun i => instLd cfg0 i == 0 && instArea cfg0 i == 0) = true ∧
      (assignedIn cfg0).any (fun i => instLd cfg0 i == 0 && instArea cfg0 i == 255) = false ∧
      decoded up 0 = true ∧ decoded up 1 = false ∧ ideLacking up 0 = false ∧ ideLacking ideDue 0 = true) := by decide +kernel

/-! ## Operands that no sender can give, each refused by its check -/

theorem test_refuses_short_line : Instr.wellFormed (.inlineRequestWrite 0 0 0 0 0 (Bytes.zeros 63)) = false := by decide
theorem test_takes_whole_line : Instr.wellFormed (.inlineRequestWrite 0 0 0 0 0 (Bytes.zeros 64)) = true := by decide
theorem test_refuses_line_before_arrival : Instr.wellFormed (.inlineRequestWrite 1 0 0 0 0 (Bytes.zeros 64)) = false := by decide
theorem test_refuses_doorbell_before_arrival : Instr.wellFormed (.doorbell 1 0 0 0 0 true false) = false := by decide
theorem test_refuses_short_entry : Instr.wellFormed (.ringEntryWrite 0 0 0 0 (Bytes.zeros 32) true false) = false := by decide
theorem test_refuses_staging_between_lines : Instr.wellFormed (.stagingPageWrite 0 0 0 32 (Bytes.zeros 64) 1 false) = false := by decide
theorem test_refuses_short_staging : Instr.wellFormed (.stagingPageWrite 0 0 0 64 (Bytes.zeros 63) 1 false) = false := by decide
theorem test_refuses_serial_of_15 : Instr.wellFormed (.envAuth 0 { chipAnswer with serial := Bytes.zeros 15 }) = false := by decide +kernel
theorem test_refuses_short_public_key : Instr.wellFormed (.envAuth 0 { chipAnswer with pubKey := Bytes.zeros 63 }) = false := by decide +kernel
theorem test_refuses_short_binding : Instr.wellFormed (.envAuth 0 { chipAnswer with binding := [1] }) = false := by decide +kernel
theorem test_refuses_short_signature : Instr.wellFormed (.envAuth 0 { chipAnswer with sig := [1] }) = false := by decide +kernel
theorem test_refuses_five_nets : Instr.wellFormed (.meshCheck 0 (List.replicate 5 ⟨1, 1, true⟩)) = false := by decide
theorem test_refuses_short_stream_key : Instr.wellFormed (.ideKeyProgram 0 0 true 0 (Bytes.zeros 16)) = false := by decide
theorem test_refuses_short_requester : Instr.wellFormed (.keyExchange 0 .mctp (.raw (Bytes.zeros 64))) = false := by decide
/-- R334: the content of a record fits a message. -/
theorem test_refuses_long_record : Instr.wellFormed (.jointStage 0 opHdr [{ kind := 1, sub := 0, index := 0, data := Bytes.zeros 73721 }]) = false := by
  have h : (Bytes.zeros 73721).length = 73721 := List.length_replicate ..
  simp [Instr.wellFormed, JRec.shaped, h]

/-! ## The outside standards, by their own published examples -/

/-- FIPS 197, appendix C.1. -/
theorem test_aes128 : Aes.encrypt (Bytes.ofNatBE 16 0x000102030405060708090a0b0c0d0e0f) (Bytes.ofNatBE 16 0x00112233445566778899aabbccddeeff)
    = Bytes.ofNatBE 16 0x69c4e0d86a7b0430d8cdb78070b4c55a := by decide +kernel

/-- FIPS 180-4 with the message abc. -/
theorem test_sha256 : Sha.sha256 [0x61, 0x62, 0x63]
    = Bytes.ofNatBE 32 0xba7816bf8f01cfea414140de5dae2223b00361a396177a9cb410ff61f20015ad := by decide +kernel

/-- The classic example of DES. -/
theorem test_des : Des.encrypt (Bytes.ofNatBE 8 0x133457799BBCDFF1) (Bytes.ofNatBE 8 0x0123456789ABCDEF)
    = Bytes.ofNatBE 8 0x85E813540F0AB405 := by decide +kernel

/-- ANSI X9.24: the initial key of the example base derivation key. -/
theorem test_dukpt_initial : Payment.tdesInitialKey (Bytes.ofNatBE 16 0x0123456789ABCDEFFEDCBA9876543210) (Bytes.ofNatBE 10 0xFFFF9876543210E00000)
    = Bytes.ofNatBE 16 0x6AC292FAA1315B4D858AB3A3D7D5933A := by decide +kernel

/-- RFC 4493, example 2. -/
theorem test_cmac : Modes.cmac (Modes.aes (Bytes.ofNatBE 16 0x2b7e151628aed2a6abf7158809cf4f3c)) (Bytes.ofNatBE 16 0x6bc1bee22e409f96e93d7e117393172a)
    = Bytes.ofNatBE 16 0x070a16b46b4d4144f79bdd9dd04a287c := by decide +kernel

/-! ## One step of small states -/

def answers (r : Host.Outcome State Fault Refusal) (p : State → Bool) : Bool := match r with
  | .next s => p s
  | _ => false

def front (s : State) (c : Instr) : State := { s with pending := [c] }

/-- R361: PWR_GOOD begins step 1. -/
theorem test_power_begins : answers (step (front { State.reset with power := { supply := .cell } } (.pwrGoodAssert 7)))
    (fun s => s.now == 7 && s.power.step == 1 && s.power.pwrGood && s.pending == []) = true := by decide +kernel

/-- R446: a decoder of 64 MiB does not commit, one of 128 MiB does. -/
theorem test_decoder_64 : answers (step (front up (.hdmDecoderCommit 0 0 0 (64 * 2 ^ 20) 1 0))) (fun s => (mfind s.link.hdm 0).isNone) = true := by
  decide +kernel
theorem test_decoder_128 : answers (step (front up (.hdmDecoderCommit 0 0 5 (128 * 2 ^ 20) 1 0))) (fun s => mfind s.link.hdm 0 == some 5) = true := by
  decide +kernel

/-- R373: the class of a MESH event is CLEAR-KEYS, after which no slot holds a key. -/
theorem test_clear_keys : answers (step (front { withKey up {} with alarm := { up.alarm with fresh := [(7, [])] } } (.decisionIntervalEnd 0)))
    (fun s => s.alarm.executed == 3 && s.keys.slots.isEmpty && s.alarm.alarmN) = true := by decide +kernel

/-- R392: the window lasts 600 s. -/
theorem test_window_599 : answers (step (front (withBackup (fun b => { b with window := some 0 })) (.serviceWindowExpiry (600 * 10 ^ 9 - 1))))
    (fun s => s.backup.window.isSome) = true := by decide +kernel
theorem test_window_600 : answers (step (front (withBackup (fun b => { b with window := some 0 })) (.serviceWindowExpiry (600 * 10 ^ 9))))
    (fun s => s.backup.window.isNone) = true := by decide +kernel

/-- R332: a request of another version is refused with 0x0202. -/
theorem test_kallek_version : answers (step (front opUp (.get 0 { opHdr with version := 2 } 0x4002 2 0 4)))
    (fun s => s.outbox == [.kallek { opHdr with version := 2 } 1 0x0202 []]) = true := by decide +kernel

/-- R333: a GET of four bytes. -/
theorem test_kallek_get : answers (step (front opUp (.get 0 opHdr 0x4002 2 0 4))) (fun s => match s.outbox with
    | [.kallek _ 1 0 body] => body.length == 12 && Bytes.fieldLE body 4 4 == 4
    | _ => false) = true := by decide +kernel

/-- R458: the ninth session is Busy. -/
theorem test_ninth_session : answers (step (front (withSessions eight) (.keyExchange 0 .mctp .none)))
    (fun s => s.outbox == [.spdm .mctp "ERROR Busy" []]) = true := by decide +kernel

end Sys2Proof.Tests
end

section
/-! SUPPORT. Resets and freezes (R309 to R315): what the operations that end a unit of work leave of its instance, and what the
requests and the report come to. -/

namespace Sys2Proof.Machine

open Sys2Proof Sys2Proof.Safety

/-! ## Repetitions -/

/-- What every turn of a repetition keeps, the repetition keeps. -/
theorem each_keeps {α : Type} {P : State → Prop} {f : State → α → State} (h : ∀ s a, P s → P (f s a)) (xs : List α) {s : State}
    (h0 : P s) : P (each xs s f) := by
  induction xs generalizing s with
  | nil => exact h0
  | cons a rest ih => exact ih (h s a h0)

/-- What the turn of one element brings about and every turn keeps holds at the end. -/
theorem each_reaches {α : Type} {P : State → Prop} {f : State → α → State} {xs : List α} {a : α} (ha : a ∈ xs)
    (hit : ∀ s, P (f s a)) (h : ∀ s b, P s → P (f s b)) (s : State) : P (each xs s f) := by
  induction xs generalizing s with
  | nil => cases ha
  | cons b rest ih =>
    rcases List.mem_cons.1 ha with rfl | ha
    · exact each_keeps h rest (hit s)
    · exact ih ha (f s b)

/-! ## Operations that write no instance -/

theorem getInst_of_insts {s u : State} (h : u.insts = s.insts) (i : Nat) : getInst u i = getInst s i := by
  unfold getInst
  rw [h]

@[simp] theorem getInst_modInst_same (s : State) (i : Nat) (f : Inst → Inst) : getInst (modInst s i f) i = f (getInst s i) :=
  getInst_setInst_same _ _ _

theorem each_insts {α : Type} {f : State → α → State} (h : ∀ s a, (f s a).insts = s.insts) (xs : List α) (s : State) :
    (each xs s f).insts = s.insts :=
  each_keeps (P := fun u => u.insts = s.insts) (fun u a hu => (h u a).trans hu) xs rfl

@[simp] theorem writeWords_insts (s : State) (mem w n : Nat) : (writeWords s mem w n).insts = s.insts := by
  rw [writeWords_frame]

@[simp] theorem noteWriter_insts (s : State) (mem w n island : Nat) : (noteWriter s mem w n island).insts = s.insts := by
  unfold noteWriter
  split <;> rfl

@[simp] theorem record_insts (s : State) (code source : Nat) (args : Bytes) : (record s code source args).insts = s.insts := by
  rw [record_evr]

@[simp] theorem settle_insts (s : State) : (settle s).insts = s.insts := by
  rw [settle_beside s]

@[simp] theorem bump_insts (s : State) (k : Nat) : (bump s k).insts = s.insts := rfl

@[simp] theorem freeShelf_insts (s : State) : (freeShelf s).insts = s.insts := rfl

@[simp] theorem countStatus_insts (s : State) (i op st done declined : Nat) (b : Bool) :
    (countStatus s i op st done declined b).insts = s.insts := by
  rw [countStatus_counted s i op st done declined b]

@[simp] theorem sendMsix_insts (s : State) (ld v : Nat) : (sendMsix s ld v).insts = s.insts := by
  rw [(sendMsix_frame s ld v).1]

@[simp] theorem noteLate_insts (s : State) (i bay op st past : Nat) : (noteLate s i bay op st past).insts = s.insts := by
  unfold noteLate
  dsimp only
  rw [record_insts]
  split <;> rfl

@[simp] theorem answerHeld_insts (s : State) (h : Option Held) (line : Bytes) : (answerHeld s h line).insts = s.insts := by
  rw [answerHeld_outbox]

@[simp] theorem clearMem_insts (s : State) (b k : Nat) (o : Owner) : (clearMem s b k o).insts = s.insts := by
  unfold clearMem
  rw [writeEngine_frame]
  rfl

@[simp] theorem wipeBnc_insts (s : State) (b k : Nat) (o : Owner) : (wipeBnc s b k o).insts = s.insts := clearMem_insts s b k o

@[simp] theorem leaveSegment_insts (s : State) (b k : Nat) : (leaveSegment s b k).insts = s.insts := writeWords_insts _ _ _ _

@[simp] theorem leaveEngines_insts (s : State) (i : Nat) (o : RingOp) (aborted : Bool) :
    (leaveEngines s i o aborted).insts = s.insts := by
  unfold leaveEngines
  split
  · exact each_insts (fun s k => clearMem_insts s o.bay k .nobody) _ s
  · split
    · exact each_insts (fun s k => wipeBnc_insts s o.bay k .nobody) _ s
    · exact each_insts (fun s k => leaveSegment_insts s o.bay k) _ s

@[simp] theorem setKumCounter_insts (s : State) (t v : Nat) : (setKumCounter s t v).insts = s.insts := by
  unfold setKumCounter
  split <;> rfl

@[simp] theorem answerSigns_insts (s : State) (j : Joint) : (answerSigns s j).insts = s.insts := by
  unfold answerSigns
  exact each_insts (fun s v => emit_insts s _) _ s

@[simp] theorem closeJoint_insts (s : State) (slot st final : Nat) : (closeJoint s slot st final).insts = s.insts := rfl

@[simp] theorem abandonKum_insts (s : State) (i : Nat) (o : RingOp) : (abandonKum s i o).insts = s.insts := by
  unfold abandonKum
  split
  · extract_lets m s1
    have h1 : s1.insts = s.insts := by
      show (match m with | .ok m => _ | .error _ => s).insts = s.insts
      cases m with
      | ok m => dsimp only; split <;> simp
      | error e => rfl
    cases o.kumJoint with
    | none => exact h1
    | some j => simpa using h1
  · rfl

@[simp] theorem dropCharges_insts (s : State) (b since frame : Nat) (cs : List Nat) :
    (dropCharges s b since frame cs).insts = s.insts := by
  induction cs generalizing s frame with
  | nil => rfl
  | cons c cs ih =>
    rw [dropCharges, ih]
    split <;> rfl

@[simp] theorem dropDma_insts (s : State) (h start since : Nat) (p : Plan) : (dropDma s h start since p).insts = s.insts := by
  unfold dropDma
  split
  · rfl
  · refine each_insts (fun s k => ?_) _ s
    rfl

@[simp] theorem releaseBooking_insts (s : State) (o : RingOp) (f : Nat) : (releaseBooking s o f).insts = s.insts := by
  unfold releaseBooking
  split <;> simp

/-! ## What the end of outstanding work leaves of an instance -/

/-- What an instance keeps while its outstanding work ends: its state, its reset, and that a count which no operation has stays
without one. -/
structure Thins (x y : Inst) : Prop where
  st : y.st = x.st
  reset : y.reset = x.reset
  gone : ∀ c, findOp x c = none → findOp y c = none

theorem Thins.refl (x : Inst) : Thins x x := ⟨rfl, rfl, fun _ h => h⟩

theorem Thins.trans {x y z : Inst} (h : Thins x y) (h' : Thins y z) : Thins x z :=
  ⟨h'.st.trans h.st, h'.reset.trans h.reset, fun c hc => h'.gone c (h.gone c hc)⟩

/-- An instance with the state, the reset and the operations of another. -/
theorem Thins.of_ops {x y : Inst} (h1 : y.st = x.st) (h2 : y.reset = x.reset) (h3 : y.ops = x.ops) : Thins x y :=
  ⟨h1, h2, fun c hc => by unfold findOp; rw [h3]; exact hc⟩

theorem Thins.of_insts {s u : State} (h : u.insts = s.insts) (i : Nat) : Thins (getInst s i) (getInst u i) :=
  getInst_of_insts h i ▸ Thins.refl _

theorem Thins.modInst {s : State} {i : Nat} {f : Inst → Inst} (h : Thins (getInst s i) (f (getInst s i))) :
    Thins (getInst s i) (getInst (modInst s i f) i) := by
  rwa [getInst_modInst_same]

theorem Thins.each {α : Type} {i : Nat} {f : State → α → State} (h : ∀ s a, Thins (getInst s i) (getInst (f s a) i))
    (xs : List α) (s : State) : Thins (getInst s i) (getInst (each xs s f) i) :=
  each_keeps (P := fun u => Thins (getInst s i) (getInst u i)) (fun u a hu => hu.trans (h u a)) xs (.refl _)

theorem findOp_eq_none {x : Inst} {c : Nat} : findOp x c = none ↔ ∀ o ∈ x.ops, o.count ≠ c := by
  simp [findOp]

theorem thins_setOp (x : Inst) (o : RingOp) : Thins x (setOp x o) := by
  refine ⟨rfl, rfl, fun c hc => findOp_eq_none.2 fun a ha => ?_⟩
  obtain ⟨b, hb, rfl⟩ := List.mem_map.1 ha
  have hbc := findOp_eq_none.1 hc b hb
  split
  · next h => exact (beq_iff_eq.1 h) ▸ hbc
  · exact hbc

/-! ## Ring operations -/

theorem completeRing_ops (s : State) (i : Nat) (o : RingOp) (st ep bay hint len : Nat) (res : Bytes) :
    (getInst (completeRing s i o st ep bay hint len res) i).ops = (getInst s i).ops.filter (fun a => a.count != o.count) := by
  unfold completeRing
  extract_lets n entry w s1 s2 s3
  have h3 : s3.insts = s2.insts := by
    show (if _ then sendMsix s2 o.att.ld o.att.vector else s2).insts = s2.insts
    split
    · exact sendMsix_insts _ _ _
    · rfl
  have h2 : s2.insts = s1.insts := countStatus_insts s1 i (dOp o.snap) st 0x13 0x14 (bay == 0xFF)
  rw [getInst_of_insts ((freeShelf_insts s3).trans (h3.trans h2))]
  show (getInst (modInst _ i _) i).ops = _
  rw [getInst_modInst_same, getInst_of_insts ((noteWriter_insts _ _ _ _ _).trans (writeWords_insts s _ _ _))]
  rfl

theorem completeRing_thins (s : State) (i : Nat) (o : RingOp) (st ep bay hint len : Nat) (res : Bytes) :
    Thins (getInst s i) (getInst (completeRing s i o st ep bay hint len res) i) := by
  obtain ⟨-, -, hx⟩ := completeRing_ends s i o st ep bay hint len res
  refine ⟨(congrArg Inst.st hx).trans rfl, (congrArg Inst.reset hx).trans rfl, fun c hc => findOp_eq_none.2 fun a ha => ?_⟩
  rw [completeRing_ops] at ha
  exact findOp_eq_none.1 hc a (List.mem_filter.1 ha).1

theorem completeRing_findOp (s : State) (i : Nat) (o : RingOp) (st ep bay hint len : Nat) (res : Bytes) :
    findOp (getInst (completeRing s i o st ep bay hint len res) i) o.count = none :=
  (completeRing_ends s i o st ep bay hint len res).1.1

theorem writeStaged_thins (s : State) (i : Nat) (o : RingOp) (out : Bytes) :
    Thins (getInst s i) (getInst (writeStaged s i o out) i) := by
  unfold writeStaged
  split
  · split
    · exact .refl _
    · next r _ _ =>
      have h1 := Thins.modInst (s := s) (i := i) (f := fun x => { x with staging := Memory.writeN x.staging r.ref out }) (.of_ops rfl rfl rfl)
      exact h1.trans (.of_insts ((noteWriter_insts _ _ _ _ _).trans (writeWords_insts _ _ _ _)) i)
  · exact .refl _

/-- The end of an admitted operation takes it out of its instance. -/
theorem endRing_leaves (s : State) (i : Nat) (o : RingOp) (st len : Nat) (out res : Bytes) :
    Thins (getInst s i) (getInst (endRing s i o st len out res) i) ∧
    findOp (getInst (endRing s i o st len out res) i) o.count = none := by
  unfold endRing
  extract_lets late st' s1 s2
  have h1 : s1.insts = s.insts := by
    show (if _ then noteLate s i o.bay (dOp o.snap) st' (s.now - promised o) else s).insts = s.insts
    split
    · exact noteLate_insts _ _ _ _ _ _
    · rfl
  have h2 : Thins (getInst s1 i) (getInst s2 i) := by
    show Thins (getInst s1 i) (getInst (if _ then writeStaged s1 i o out else s1) i)
    split
    · exact writeStaged_thins s1 i o out
    · exact .refl _
  exact ⟨((Thins.of_insts h1 i).trans h2).trans (completeRing_thins ..), completeRing_findOp ..⟩

/-- An operation cut short leaves its instance at once where it waits for no host request; otherwise it stays, cut short (R128). -/
theorem cutShort_leaves (s : State) (i : Nat) (o : RingOp) (st : Nat) :
    Thins (getInst s i) (getInst (cutShort s i o st) i) ∧
    (o.reads = 0 → o.readBack = false → findOp (getInst (cutShort s i o st) i) o.count = none) := by
  unfold cutShort
  extract_lets s1
  have h1 : Thins (getInst s i) (getInst s1 i) := .of_insts (releaseBooking_insts s o _) i
  by_cases hr : o.reads = 0 ∧ o.readBack = false
  · rw [if_pos hr]
    obtain ⟨h2, h3⟩ := endRing_leaves s1 i o st 0 [] []
    exact ⟨h1.trans h2, fun _ _ => h3⟩
  · rw [if_neg hr]
    exact ⟨h1.trans (.modInst (thins_setOp _ _)), fun a b => absurd ⟨a, b⟩ hr⟩

theorem returnCore_thins (s : State) (i : Nat) (o : RingOp) : Thins (getInst s i) (getInst (returnCore s i o) i) := by
  unfold returnCore refill
  exact (Thins.modInst (.of_ops rfl rfl rfl)).trans (.modInst (.of_ops rfl rfl rfl))

theorem endEarly_leaves (s : State) (i : Nat) (o : RingOp) (st : Nat) :
    Thins (getInst s i) (getInst (endEarly s i o st) i) ∧
    (o.reads = 0 → o.readBack = false → findOp (getInst (endEarly s i o st) i) o.count = none) := by
  unfold endEarly
  extract_lets s1 s2 s3
  have h2 : Thins (getInst s i) (getInst s2 i) :=
    .of_insts ((abandonKum_insts s1 i o).trans (leaveEngines_insts s i o true)) i
  have h3 : Thins (getInst s2 i) (getInst s3 i) := by
    show Thins (getInst s2 i) (getInst (if _ then returnCore s2 i o else s2) i)
    split
    · exact returnCore_thins s2 i o
    · exact .refl _
  obtain ⟨h4, h5⟩ := cutShort_leaves s3 i { o with engines := [] } st
  exact ⟨(h2.trans h3).trans h4, h5⟩

/-! ## The squash of an instance (R311) -/

theorem endAdmittedTurn_thins (s : State) (i st : Nat) (o : RingOp) : Thins (getInst s i) (getInst
    (if o.squashed then (if st = 0x0802 then endWaiting s i o st else s) else endEarly s i o st) i) := by
  split
  · split
    · exact .modInst (thins_setOp _ _)
    · exact .refl _
  · exact (endEarly_leaves s i o st).1

theorem endAdmitted_thins (s : State) (i st : Nat) : Thins (getInst s i) (getInst (endAdmitted s i st) i) :=
  Thins.each (fun s o => endAdmittedTurn_thins s i st o) _ s

/-- An admitted operation that is not being ended yet and waits for no host request is gone after the end of the admitted ones. -/
theorem endAdmitted_findOp (s : State) (i st : Nat) (o : RingOp) (ho : o ∈ (getInst s i).ops) (hc : o.stage ≠ .covered)
    (hs : o.squashed = false) (hr : o.reads = 0) (hb : o.readBack = false) :
    findOp (getInst (endAdmitted s i st) i) o.count = none := by
  refine each_reaches (P := fun u => findOp (getInst u i) o.count = none) (a := o) (List.mem_filter.2 ⟨ho, by simpa using hc⟩)
    (fun u => ?_) (fun u p hu => (endAdmittedTurn_thins u i st p).gone _ hu) s
  rw [hs]
  exact (endEarly_leaves u i o st).2 hr hb

theorem writeLine_thins (s : State) (i n island : Nat) (line : Bytes) :
    Thins (getInst s i) (getInst (writeLine s i n island line) i) := by
  unfold writeLine
  extract_lets x sl w s1
  have h1 : s1.insts = s.insts := by simp [s1]
  refine (Thins.of_insts h1 i).trans ?_
  split <;> exact .modInst (.of_ops rfl rfl rfl)

theorem endLine_thins (s : State) (i n : Nat) (o : LaneOp) (st : Nat) (out : Bytes) :
    Thins (getInst s i) (getInst (endLine s i n o st out) i) := by
  unfold endLine
  extract_lets lat late st' op s1 s2
  have h2 : s2.insts = s.insts := by
    show (if _ then noteLate s1 i (laneBay o.lane) op st' (lat - 201) else s1).insts = s.insts
    split <;> simp [s1]
  exact (Thins.of_insts h2 i).trans ((writeLine_thins s2 i n _ _).trans (.of_insts (freeShelf_insts _) i))

theorem endLines_thins (s : State) (i st : Nat) : Thins (getInst s i) (getInst (endLines s i st) i) := by
  unfold endLines
  refine Thins.each (fun s e => ?_) _ s
  split
  · exact endLine_thins ..
  · exact .refl _

/-- The end of the covered operations of an instance, as its squash begins. -/
def endAllCovered (s : State) (i : Nat) : State :=
  each ((getInst s i).ops.filter (fun o => o.stage == .covered)) s (fun s o => endCovered s i o 0x0702)

theorem squashAll_eq (s : State) (i : Nat) : squashAll s i = endLines (endAdmitted (endAllCovered s i) i 0x0702) i 0x0702 := rfl

theorem endCovered_thins (s : State) (i : Nat) (o : RingOp) (st : Nat) :
    Thins (getInst s i) (getInst (endCovered s i o st) i) := completeRing_thins ..

theorem endAllCovered_thins (s : State) (i : Nat) : Thins (getInst s i) (getInst (endAllCovered s i) i) :=
  Thins.each (fun s o => endCovered_thins s i o 0x0702) _ s

theorem endAllCovered_findOp (s : State) (i : Nat) (o : RingOp) (ho : o ∈ (getInst s i).ops) (hc : o.stage = .covered) :
    findOp (getInst (endAllCovered s i) i) o.count = none :=
  each_reaches (P := fun u => findOp (getInst u i) o.count = none) (a := o) (List.mem_filter.2 ⟨ho, by simpa using hc⟩)
    (fun u => completeRing_findOp u i { o with att := attachOf u i } _ _ _ _ _ _)
    (fun u p hu => (endCovered_thins u i p 0x0702).gone _ hu) s

/-- The end of the covered operations leaves every other operation as it is, unless it shares its count with one of them. -/
theorem endAllCovered_mem (s : State) (i : Nat) (o : RingOp) (ho : o ∈ (getInst s i).ops) :
    o ∈ (getInst (endAllCovered s i) i).ops ∨ findOp (getInst (endAllCovered s i) i) o.count = none := by
  refine each_keeps (P := fun u => o ∈ (getInst u i).ops ∨ findOp (getInst u i) o.count = none) (fun u p hu => ?_) _ (.inl ho)
  rcases hu with hu | hu
  · by_cases hp : o.count = p.count
    · exact .inr (hp ▸ completeRing_findOp u i { p with att := attachOf u i } _ _ _ _ _ _)
    · left
      unfold endCovered
      rw [completeRing_ops]
      exact List.mem_filter.2 ⟨hu, by simpa using hp⟩
  · exact .inr ((endCovered_thins u i p 0x0702).gone _ hu)

theorem squashAll_thins (s : State) (i : Nat) : Thins (getInst s i) (getInst (squashAll s i) i) :=
  ((endAllCovered_thins s i).trans (endAdmitted_thins _ i _)).trans (endLines_thins _ i _)

/-- At the squash every operation that is not being ended already and waits for no host request leaves its instance (R311). -/
theorem squashAll_findOp (s : State) (i : Nat) (o : RingOp) (ho : o ∈ (getInst s i).ops) (hs : o.squashed = false)
    (hw : o.stage = .covered ∨ (o.reads = 0 ∧ o.readBack = false)) : findOp (getInst (squashAll s i) i) o.count = none := by
  rw [squashAll_eq]
  refine (endLines_thins _ i _).gone _ ?_
  by_cases hc : o.stage = .covered
  · exact (endAdmitted_thins _ i _).gone _ (endAllCovered_findOp s i o ho hc)
  · obtain ⟨hr, hb⟩ := hw.resolve_left hc
    rcases endAllCovered_mem s i o ho with h | h
    · exact endAdmitted_findOp _ i _ o h hc hs hr hb
    · exact (endAdmitted_thins _ i _).gone _ h

theorem answerIdle_thins (s : State) (i : Nat) : Thins (getInst s i) (getInst (answerIdle s i) i) := by
  unfold answerIdle
  refine Thins.each (fun s e => ?_) _ s
  split
  · exact (Thins.of_insts (answerHeld_insts _ _ _) i).trans (.modInst (.of_ops rfl rfl rfl))
  · exact .refl _

/-! ## What a reset request comes to (R309 to R311) -/

/-- A request to an instance that is UNASSIGNED or SAVED is ignored. -/
theorem requestReset_ignored {s : State} {i : Nat} (h : (getInst s i).st = 0 ∨ (getInst s i).st = 5) (sq : Bool) :
    requestReset s i sq = s := if_pos h

/-- The reset that a request begins (R311, R312); its report returns to a freeze that it meets (R310). -/
def newReset (s : State) (i : Nat) (sq : Bool) : Reset :=
  { squash := sq, arr := s.now, deadline := drainDeadline s i, didSquash := sq
    toFrozen := decide ((getInst s i).st = 3) || decide ((getInst s i).st = 4) }

/-- The instance as its reset begins. -/
def resetBegun (s : State) (i : Nat) (sq : Bool) : State :=
  modInst s i (fun x => { x with st := 2, reset := some (newReset s i sq) })

/-- A request to an instance in service, or in a freeze, begins a reset: held reads on IDLE slots are answered, and a squash ends the
outstanding work (R311). -/
theorem requestReset_of_none {s : State} {i : Nat} (h0 : (getInst s i).st ≠ 0) (h5 : (getInst s i).st ≠ 5)
    (hn : (getInst s i).reset = none) (sq : Bool) : requestReset s i sq =
      if sq then squashAll (answerIdle (resetBegun s i sq) i) i else answerIdle (resetBegun s i sq) i := by
  unfold requestReset
  dsimp only
  rw [if_neg (not_or.2 ⟨h0, h5⟩), hn]
  rfl

/-- A reset that begins stands, whatever leaves the instance with its request. -/
theorem requestReset_begins {s : State} {i : Nat} (h0 : (getInst s i).st ≠ 0) (h5 : (getInst s i).st ≠ 5)
    (hn : (getInst s i).reset = none) (sq : Bool) :
    Thins { getInst s i with st := 2, reset := some (newReset s i sq) } (getInst (requestReset s i sq) i) := by
  have hb : getInst (resetBegun s i sq) i = { getInst s i with st := 2, reset := some (newReset s i sq) } :=
    getInst_modInst_same _ _ _
  have ha := answerIdle_thins (resetBegun s i sq) i
  rw [requestReset_of_none h0 h5 hn, ← hb]
  split
  · exact ha.trans (squashAll_thins _ i)
  · exact ha

/-- A drain that meets a reset in progress is ignored. -/
theorem requestReset_drain_resetting {s : State} {i : Nat} {r : Reset} (hr : (getInst s i).reset = some r) :
    requestReset s i false = s := by
  unfold requestReset
  dsimp only
  split
  · rfl
  · rw [hr]
    rfl

/-- A squash that meets a drain converts it. -/
theorem requestReset_squash_draining {s : State} {i : Nat} {r : Reset} (h2 : (getInst s i).st = 2)
    (hr : (getInst s i).reset = some r) (hd : r.squash = false) :
    requestReset s i true =
      squashAll (modInst s i (fun x => { x with reset := some { r with squash := true, didSquash := true } })) i := by
  unfold requestReset
  dsimp only
  rw [if_neg (by omega), hr]
  simp [hd]

/-! ## Commands at a hub whose clock runs -/

section
variable {s : State} (t : Nat) (i : InstNo) (hub : islandRuns s islHub = true)
include hub

theorem hubRuns_at : ∀ k ∈ [islHub], islandRuns (at_ s t) k = true := fun k hk => by
  rw [List.mem_singleton.1 hk]
  exact hub

/-- A word for the hub acts when the hub has its clock. -/
theorem crossing_hub (c : Instr) (f : State → State) : crossing (at_ s t) [] [islHub] c f = f (at_ s t) := by
  unfold crossing
  rw [if_neg (by simp), if_pos (List.all_eq_true.2 (hubRuns_at t hub))]

theorem exec_resetDrain : exec (.resetDrain t i) s = .next (settle (requestReset (at_ s t) i.toNat false)) :=
  congrArg (fun u => Host.Outcome.next (settle u)) (crossing_hub t hub _ _)

theorem exec_resetSquash : exec (.resetSquash t i) s = .next (settle (requestReset (at_ s t) i.toNat true)) :=
  congrArg (fun u => Host.Outcome.next (settle u)) (crossing_hub t hub _ _)

/-- A drain or squash command is the arrival of its request at the hub. -/
theorem exec_resetRequest {cmd : Instr} (h : cmd ∈ [Instr.resetDrain t i, .resetSquash t i]) :
    ∃ sq, exec cmd s = .next (settle (requestReset (at_ s t) i.toNat sq)) := by
  simp only [List.mem_cons, List.not_mem_nil, or_false] at h
  rcases h with rfl | rfl
  · exact ⟨false, exec_resetDrain t i hub⟩
  · exact ⟨true, exec_resetSquash t i hub⟩

theorem exec_resetReport : exec (.resetReport t i) s = .next (settle (reportReset (at_ s t) i.toNat)) :=
  congrArg (fun u => Host.Outcome.next (settle u)) (clocked_runs _ _ _ (hubRuns_at t hub))

end

/-! ## The report, and a freeze during a reset (R310, R313) -/

theorem reportReset_inst {s : State} {i : Nat} {r : Reset} (hr : (getInst s i).reset = some r) (hq : quiet (getInst s i) = true) :
    getInst (reportReset s i) i = { cleanInst (getInst s i) with
      st := if r.toFrozen then 4 else 1, freezeDone := (getInst s i).freezeDone || r.toFrozen
      lastSquash := r.didSquash, resetDone := true, reset := none } := by
  unfold reportReset
  dsimp only
  rw [hr]
  dsimp only
  rw [if_pos hq, getInst_of_insts ((sendMsix_insts _ _ _).trans (bump_insts _ _)), getInst_modInst_same]

/-- A freeze that meets a reset writes into the reset what its report will leave. -/
theorem writeFreeze_resetting {s : State} {i : Nat} {r : Reset} (h2 : (getInst s i).st = 2) (hr : (getInst s i).reset = some r) :
    writeFreeze s i 1 = setInst s i { getInst s i with reset := some { r with toFrozen := true } } := by
  unfold writeFreeze
  dsimp only
  rw [if_pos rfl, if_neg (by omega), if_pos h2]
  simp only [modInst, hr, Option.map_some]

end Sys2Proof.Machine
end

section
/-! SUPPORT. Reset and freeze requests that meet a reset or an instance out of service (R310). -/

namespace Sys2Proof.Machine

open Sys2Proof Sys2Proof.Safety

section
variable {s : State} (t : Nat) (i : InstNo)

/-- Requested while the instance is UNASSIGNED or SAVED, a drain or squash command leaves the machine to the recording alone. -/
theorem resetCommand_ignored (hub : islandRuns s islHub = true) (h : (getInst s i.toNat).st = 0 ∨ (getInst s i.toNat).st = 5)
    {cmd : Instr} (hc : cmd ∈ [Instr.resetDrain t i, .resetSquash t i]) : ∃ u, exec cmd s = .next u ∧ Beside (at_ s t) u := by
  obtain ⟨sq, he⟩ := exec_resetRequest t i hub hc
  rw [requestReset_ignored (s := at_ s t) h sq] at he
  exact ⟨_, he, settle_beside _⟩

/-- Requested while the instance is FREEZING or FROZEN, a reset will leave it FROZEN at its report. -/
theorem resetCommand_frozen (hub : islandRuns s islHub = true) (h : (getInst s i.toNat).st = 3 ∨ (getInst s i.toNat).st = 4)
    (hn : (getInst s i.toNat).reset = none) {cmd : Instr} (hc : cmd ∈ [Instr.resetDrain t i, .resetSquash t i]) :
    ∃ u r, exec cmd s = .next u ∧ (getInst u i.toNat).st = 2 ∧ (getInst u i.toNat).reset = some r ∧ r.toFrozen = true := by
  obtain ⟨sq, he⟩ := exec_resetRequest t i hub hc
  have hb := requestReset_begins (s := at_ s t) (i := i.toNat) (show (getInst s i.toNat).st ≠ 0 by omega)
    (show (getInst s i.toNat).st ≠ 5 by omega) hn sq
  have hx := getInst_of_insts (settle_insts (requestReset (at_ s t) i.toNat sq)) i.toNat
  refine ⟨_, _, he, hx ▸ hb.st, hx ▸ hb.reset, ?_⟩
  rcases h with h | h <;> simp [newReset, getInst_of_insts (at__insts s t), h]

/-- A squash command during a drain converts it, and what waits for no host request leaves. -/
theorem squashCommand_draining (hub : islandRuns s islHub = true) {r : Reset} (h2 : (getInst s i.toNat).st = 2)
    (hr : (getInst s i.toNat).reset = some r) (hd : r.squash = false) :
    ∃ u y, exec (.resetSquash t i) s = .next u ∧ y = getInst u i.toNat ∧ y.st = 2 ∧
      y.reset = some { r with squash := true, didSquash := true } ∧
      ∀ o ∈ (getInst s i.toNat).ops, o.squashed = false → o.stage = .covered ∨ (o.reads = 0 ∧ o.readBack = false) →
        findOp y o.count = none := by
  have he := exec_resetSquash t i hub
  rw [requestReset_squash_draining (s := at_ s t) h2 hr hd] at he
  generalize hw : modInst (at_ s t) i.toNat (fun x => { x with reset := some { r with squash := true, didSquash := true } }) = w at he
  have hi : getInst w i.toNat = { getInst s i.toNat with reset := some { r with squash := true, didSquash := true } } :=
    hw ▸ getInst_modInst_same _ _ _
  have hs := squashAll_thins w i.toNat
  have hx := getInst_of_insts (settle_insts (squashAll w i.toNat)) i.toNat
  refine ⟨_, _, he, rfl, ?_, ?_, fun o ho hq hl => ?_⟩
  · rw [hx, hs.st, hi, h2]
  · rw [hx, hs.reset, hi]
  · rw [hx]
    exact squashAll_findOp w i.toNat o (by rw [hi]; exact ho) hq hl

/-- The report of a reset that a freeze met, or that met a freeze, leaves the instance FROZEN. -/
theorem reportCommand_frozen (hub : islandRuns s islHub = true) {r : Reset} (hr : (getInst s i.toNat).reset = some r)
    (hq : quiet (getInst s i.toNat) = true) (hf : r.toFrozen = true) :
    ∃ u, exec (.resetReport t i) s = .next u ∧ (getInst u i.toNat).st = 4 ∧ (getInst u i.toNat).reset = none ∧
      (getInst u i.toNat).freezeDone = true := by
  refine ⟨_, exec_resetReport t i hub, ?_⟩
  rw [getInst_of_insts (settle_insts _), reportReset_inst (s := at_ s t) hr hq]
  simp [hf]

end

/-- Settles O41: a request comes to what `requestReset` makes of the instance's state and reset; a squash only takes operations out
of the instance (`Thins`), so what the request wrote into the reset still stands for the report. -/
theorem resetRequestsMeet : Obligations.ResetRequestsMeet := by
  unfold Obligations.ResetRequestsMeet
  rintro s t i x rfl hub
  refine ⟨fun h => ⟨requestReset_ignored h, fun cmd hc => resetCommand_ignored t i hub h hc⟩,
    fun h hn cmd hc => resetCommand_frozen t i hub h hn hc, fun r h2 hr => ⟨requestReset_drain_resetting hr, ?_, ?_, ?_, ?_⟩⟩
  · have he := exec_resetDrain t i hub
    rw [requestReset_drain_resetting (s := at_ s t) hr] at he
    exact ⟨_, he, settle_beside _⟩
  · exact squashCommand_draining t i hub h2 hr
  · rw [writeFreeze_resetting h2 hr]
    exact ⟨getInst_setInst_same _ _ _, fun j hj => getInst_setInst_other _ _ _ _ hj⟩
  · exact reportCommand_frozen t i hub hr

end Sys2Proof.Machine
end

section
/-! SUPPORT. The decoder of an LD (R446): what a commit writes, and that an access which no committed decoder claims comes to its
completion alone. -/

namespace Sys2Proof.Machine

open Sys2Proof Sys2Proof.Safety

/-! ## The commit of a decoder -/

section
variable {s : State} {d base size ways skip : Nat} (hs : ldServed s d = true)
include hs

/-- The programming that a decoder takes. -/
theorem hdmCommit_commits (h : size = 128 * 2 ^ 20 ∧ ways = 1 ∧ skip = 0) : hdmCommit s d base size ways skip =
    { s with link := { s.link with hdm := mput s.link.hdm d base, hdmError := putBit s.link.hdmError d false } } := by
  unfold hdmCommit
  rw [if_neg (ne_false_of_eq_true hs), if_pos h]

/-- Every other programming. -/
theorem hdmCommit_refuses (h : size ≠ 128 * 2 ^ 20 ∨ ways ≠ 1 ∨ skip ≠ 0) : hdmCommit s d base size ways skip =
    { s with link := { s.link with hdm := mdel s.link.hdm d, hdmError := putBit s.link.hdmError d true } } := by
  unfold hdmCommit
  rw [if_neg (ne_false_of_eq_true hs), if_neg (by omega)]

end

/-- A commit writes the decoders and their error bits, and of the decoders only that of its LD. -/
theorem hdmCommit_frame (s : State) (d base size ways skip : Nat) :
    hdmCommit s d base size ways skip = { s with link := { s.link with
      hdm := (hdmCommit s d base size ways skip).link.hdm, hdmError := (hdmCommit s d base size ways skip).link.hdmError } } ∧
    ∀ e, e ≠ d → mfind (hdmCommit s d base size ways skip).link.hdm e = mfind s.link.hdm e := by
  unfold hdmCommit
  split
  · exact ⟨rfl, fun _ _ => rfl⟩
  · split
    · exact ⟨rfl, fun e he => mfind_mput_other _ _ _ _ he⟩
    · exact ⟨rfl, fun e he => mfind_mdel_other _ _ _ he⟩

/-- A request for the link island is served when that island has its clock. -/
theorem linkWord_runs {s : State} (hl : islandRuns s islLink = true) (c : Instr) (f : State → State) : linkWord s c f = f s := by
  unfold linkWord crossing
  rw [if_neg (ne_false_of_eq_true (List.all_nil ..)), if_pos (by rw [List.all_cons, hl, List.all_nil]; rfl)]

theorem exec_hdmDecoderCommit {s : State} (hl : islandRuns s islLink = true) (t : Nat) (ld : LdNo) (base size ways skip : Nat) :
    exec (.hdmDecoderCommit t ld base size ways skip) s = .next (hdmCommit (at_ s t) ld.toNat base size ways skip) :=
  congrArg Host.Outcome.next (linkWord_runs (s := at_ s t) hl _ _)

/-! ## Accesses while the decoder is not committed -/

/-- The message that completes an access of an LD without an effect: data for a read, with the read's tag, and a completion for a
write. -/
def Completes (s : State) (ld tag : Nat) (isRead : Bool) (o : Out) : Prop :=
  if isRead then ∃ data, o = .read ld tag (loadOf s ld) data else ∃ k, o = .done ld k (loadOf s ld)

/-- The state is left with the completion of an access, and otherwise as it was. -/
def CompletesOnly (s : State) (ld tag : Nat) (isRead : Bool) (u : State) : Prop :=
  ∃ o, Completes s ld tag isRead o ∧ u = emit s o

/-- What the machine answers is the state with the completion of an access added. -/
theorem CompletesOnly.next {s u : State} {ld tag : Nat} {isRead : Bool} (h : CompletesOnly s ld tag isRead u) :
    ∃ o, Completes s ld tag isRead o ∧ (.next u : Result) = .next (emit s o) := by
  obtain ⟨o, ho, rfl⟩ := h
  exact ⟨o, ho, rfl⟩

/-- A write may be completed under any tag. -/
theorem unclaimed_completesOnly_write (s : State) (ld tag k : Nat) : CompletesOnly s ld tag false (unclaimed s false ld k) :=
  ⟨_, ⟨k, rfl⟩, rfl⟩

theorem unclaimed_completesOnly (s : State) (ld tag : Nat) (isRead : Bool) :
    CompletesOnly s ld tag isRead (unclaimed s isRead ld tag) := by
  cases isRead with
  | false => exact unclaimed_completesOnly_write s ld tag tag
  | true => exact ⟨_, ⟨_, rfl⟩, rfl⟩

section
variable {s : State} {ld : Nat} (hrun : portRuns s = true) (hup : headUp s (ld / 16) = true) (hserv : serving s = true)
  (hdec : decoded s ld = false)
include hrun hup hserv hdec

/-- An access to the area of a bound instance is unclaimed, whatever its effect would have been. -/
theorem ldAccess_undecoded {i : Nat} (hb : bound s ld i = true) (c : Instr) (off : Nat) (isRead : Bool) (tag : Nat)
    (f : State → State) : ldAccess s c ld i off isRead tag f = unclaimed s isRead ld tag := by
  unfold ldAccess
  rw [if_neg (ne_false_of_eq_true hrun), if_neg (ne_false_of_eq_true hup), if_neg (ne_false_of_eq_true hserv),
    if_neg (ne_false_of_eq_true hb), if_pos hdec]

/-- So is an access to an area that no instance of the LD has. -/
theorem unboundAccess_undecoded {dpa : Nat}
    (hn : (assignedIn s.ctl.cfg).any (fun i => instLd s.ctl.cfg i == ld && instArea s.ctl.cfg i == dpa / 0x80000) = false)
    (c : Instr) (isRead : Bool) (tag : Nat) : unboundAccess s c ld dpa isRead tag = unclaimed s isRead ld tag := by
  unfold unboundAccess
  rw [if_neg (ne_false_of_eq_true hrun), if_neg (ne_false_of_eq_true hup), if_neg (ne_false_of_eq_true hserv),
    if_neg (ne_true_of_eq_false hn), if_pos hdec]

end

/-- Each write to an instance's area but the register page's is an access of the LD to that area, completed under tag 0. -/
theorem exec_areaWrite (s : State) (t arr : Nat) (ld : LdNo) (i : InstNo) (slot : BitVec 10) (entry : BitVec 11) (line data : Bytes)
    (k : InlineDrop) (off7 : BitVec 7) (off17 : BitVec 17) (tail : BitVec 16) (en : BitVec 64) (full poison : Bool) {c : Instr}
    (hc : c ∈ [Instr.inlineRequestWrite arr t ld i slot line, .inlineDroppedWrite t ld i slot k off7,
      .doorbell arr t ld i tail full poison, .ringEntryWrite t ld i entry data full poison,
      .stagingPageWrite t ld i off17 data en poison]) :
    ∃ off f, exec c s = .next (ldAccess (at_ s t) c ld.toNat i.toNat off false 0 f) := by
  simp only [List.mem_cons, List.not_mem_nil, or_false] at hc
  rcases hc with rfl | rfl | rfl | rfl | rfl <;> exact ⟨_, _, rfl⟩

/-- Settles O45: a commit is `hdmCommit`, whose two outcomes the programming decides; and an access that passes clocks, head, service
and binding meets the decoder before any rule or effect, so it is `unclaimed`. -/
theorem decodersMapAreas : Obligations.DecodersMapAreas := by
  unfold Obligations.DecodersMapAreas
  intro s t ld tag hrun
  have hl : islandRuns s islLink = true := (Bool.and_eq_true_iff.1 hrun).1
  refine ⟨fun base size ways skip hs => ?_, fun hup hserv hdec done hdone => ?_⟩
  · obtain ⟨hframe, hother⟩ := hdmCommit_frame (at_ s t) ld.toNat base size ways skip
    refine ⟨_, exec_hdmDecoderCommit hl t ld base size ways skip, hframe, fun h1 h2 h3 => ?_, fun h => ?_, hother⟩
    · rw [hdmCommit_commits (s := at_ s t) hs ⟨h1, h2, h3⟩]
      exact ⟨mfind_mput_same _ _ _, (bitOf_putBit _ _ _ _).trans (if_pos rfl)⟩
    · rw [hdmCommit_refuses (s := at_ s t) hs h]
      exact ⟨congrArg Option.isSome (mfind_mdel_same _ _), (bitOf_putBit _ _ _ _).trans (if_pos rfl)⟩
  · obtain rfl : done = Completes (at_ s t) ld.toNat tag.toNat := hdone
    refine ⟨fun i slot entry line data k off7 off12 off17 off19 arr v tail en full poison isRead hb => ?_,
      fun dpa isRead hn => ?_⟩
    · have access := ldAccess_undecoded (s := at_ s t) hrun hup hserv hdec hb
      have write (c off f) : CompletesOnly (at_ s t) ld.toNat tag.toNat false
          (ldAccess (at_ s t) c ld.toNat i.toNat off false 0 f) :=
        access c off false 0 f ▸ unclaimed_completesOnly_write ..
      have tagged (c off b f) : CompletesOnly (at_ s t) ld.toNat tag.toNat b
          (ldAccess (at_ s t) c ld.toNat i.toNat off b tag.toNat f) :=
        access c off b tag.toNat f ▸ unclaimed_completesOnly ..
      refine ⟨fun c hc => ?_, (tagged _ _ true _).next, (tagged _ _ isRead _).next, ?_⟩
      · obtain ⟨off, f, he⟩ := exec_areaWrite s t arr ld i slot entry line data k off7 off17 tail en full poison hc
        rw [he]
        exact (write c off f).next
      · obtain ⟨o, ho, he⟩ := write (.registerWrite t ld i off12 v full poison) off12.toNat
          (fun s => pageWrite s ld.toNat i.toNat off12.toNat v full poison)
        exact ⟨o, _, ho, congrArg (fun u => Host.Outcome.next (settle u)) he, settle_beside _⟩
    · have h := unclaimed_completesOnly (at_ s t) ld.toNat tag.toNat isRead
      rw [← unboundAccess_undecoded (s := at_ s t) hrun hup hserv hdec hn (.unboundAreaAccess t ld dpa isRead tag)] at h
      exact h.next

end Sys2Proof.Machine
end

section
/-! SUPPORT. What every step keeps (R6, R301, R361, R396): the case split over the table of commands, each of which keeps the queue,
device time and the legal form of the machine. -/

namespace Sys2Proof.Machine

-- One proof at a time: the check bounds the compiler's threads.
set_option Elab.async false

open Sys2Proof Sys2Proof.Safety

/-- Every command answers a state with the same queue and a device time no earlier, and keeps a legal machine legal. -/
theorem exec_kept {q : List Instr} {n : Nat} {s : State} (c : Instr) (h : Kept q n s) : ∃ t, exec c s = .next t ∧ Kept q n t := by
  cases c with
  | pwrGoodAssert => exact execPwrGoodAssert_kept h
  | startupStepDone => exact execStartupStepDone_kept h
  | enrolRetry => exact execEnrolRetry_kept h
  | pwrGoodDeassert => exact execPwrGoodDeassert_kept h
  | backupSwitchover => exact execBackupSwitchover_kept h
  | resetNAssert => exact execResetNAssert_kept h
  | thermtrip => exact execThermtrip_kept h
  | inlineRequestWrite => exact execInlineRequestWrite_kept h
  | inlineResultRead => exact execInlineResultRead_kept h
  | inlineDroppedWrite => exact execInlineDroppedWrite_kept h
  | inlineIdleHoldExpiry => exact execInlineIdleHoldExpiry_kept h
  | inlineLookup => exact execInlineLookup_kept h
  | inlineResultWrite => exact execInlineResultWrite_kept h
  | doorbell => exact execDoorbell_kept h
  | ringEntryWrite => exact execRingEntryWrite_kept h
  | stagingPageWrite => exact execStagingPageWrite_kept h
  | unbackedAccess => exact execUnbackedAccess_kept h
  | memSpecRd => exact ⟨_, rfl, kept_at h _⟩
  | memInv => exact execMemInv_kept h
  | admissionRoundEnd => exact execAdmissionRoundEnd_kept h
  | frameEnd => exact execFrameEnd_kept h
  | nop => exact execNop_kept h
  | routeLookup => exact execRouteLookup_kept h
  | pinXlate => exact execPinXlate_kept h
  | pinVerify => exact execPinVerify_kept h
  | dvvGen => exact execDvvGen_kept h
  | dvvVerify => exact execDvvVerify_kept h
  | macRetailGen => exact execMacRetailGen_kept h
  | macRetailVerify => exact execMacRetailVerify_kept h
  | cmacGen => exact execCmacGen_kept h
  | cmacVerify => exact execCmacVerify_kept h
  | macGen => exact execMacGen_kept h
  | macVerify => exact execMacVerify_kept h
  | cipherEcb => exact execCipherEcb_kept h
  | cipherCbc => exact execCipherCbc_kept h
  | cipherCfb8 => exact execCipherCfb8_kept h
  | cipherCfb128 => exact execCipherCfb128_kept h
  | cipherOfb => exact execCipherOfb_kept h
  | cipherCtr => exact execCipherCtr_kept h
  | cipherGcm => exact execCipherGcm_kept h
  | random => exact execRandom_kept h
  | dukptDecrypt => exact execDukptDecrypt_kept h
  | emvArqc => exact execEmvArqc_kept h
  | ecdsaSign => exact execEcdsaSign_kept h
  | ecdsaVerify => exact execEcdsaVerify_kept h
  | ed25519Sign => exact execEd25519Sign_kept h
  | ed25519Verify => exact execEd25519Verify_kept h
  | ecdhP256 => exact execEcdhP256_kept h
  | rsaPrivate => exact execRsaPrivate_kept h
  | rsaPublic => exact execRsaPublic_kept h
  | mlkemEncaps => exact execMlkemEncaps_kept h
  | mlkemDecaps => exact execMlkemDecaps_kept h
  | mldsaSign => exact execMldsaSign_kept h
  | mldsaVerify => exact execMldsaVerify_kept h
  | kum => exact execKum_kept h
  | unwrap => exact execUnwrap_kept h
  | mldsaAttemptEnd => exact execMldsaAttemptEnd_kept h
  | segmentEnd => exact execSegmentEnd_kept h
  | kumCut => exact execKumCut_kept h
  | dmaReadCompletion => exact execDmaReadCompletion_kept h
  | dmaCompletionTimeout => exact execDmaCompletionTimeout_kept h
  | periodicTestStart => exact execPeriodicTestStart_kept h
  | reactiveTestStart => exact execReactiveTestStart_kept h
  | engineTestEnd => exact execEngineTestEnd_kept h
  | bayLeave => exact execBayLeave_kept h
  | bayReturn => exact execBayReturn_kept h
  | journalReservationDurable => exact execJournalReservationDurable_kept h
  | journalFlushStart => exact execJournalFlushStart_kept h
  | journalFlushDone => exact execJournalFlushDone_kept h
  | journalFlushRetry => exact execJournalFlushRetry_kept h
  | keyLogFlushDone => exact execKeyLogFlushDone_kept h
  | routeBlockReturn => exact execRouteBlockReturn_kept h
  | evictionReseed => exact execEvictionReseed_kept h
  | noiseWindowEnd => exact execNoiseWindowEnd_kept h
  | channelFail => exact execChannelFail_kept h
  | channelRetest => exact execChannelRetest_kept h
  | channelStartupTestEnd => exact execChannelStartupTestEnd_kept h
  | conditionedBlock => exact execConditionedBlock_kept h
  | drbgGenerateDone => exact execDrbgGenerateDone_kept h
  | drbgReseed => exact execDrbgReseed_kept h
  | stopHoldExpiry => exact execStopHoldExpiry_kept h
  | conditionerKatDone => exact execConditionerKatDone_kept h
  | drbgKatDone => exact execDrbgKatDone_kept h
  | remaskPassStart => exact execRemaskPassStart_kept h
  | remaskPassEnd => exact execRemaskPassEnd_kept h
  | keyclockTick => exact execKeyclockTick_kept h
  | resetDrain => exact execResetDrain_kept h
  | resetSquash => exact execResetSquash_kept h
  | resetDrainDeadline => exact execResetDrainDeadline_kept h
  | resetReport => exact execResetReport_kept h
  | freezeComplete => exact execFreezeComplete_kept h
  | migrateOfferReady => exact execMigrateOfferReady_kept h
  | migrateOfferExpiry => exact execMigrateOfferExpiry_kept h
  | migrateBlobReady => exact execMigrateBlobReady_kept h
  | ldFunctionLevelReset => exact execLdFunctionLevelReset_kept h
  | perstAssert => exact execPerstAssert_kept h
  | linkDown => exact execLinkDown_kept h
  | linkUp => exact execLinkUp_kept h
  | configRequest => exact execConfigRequest_kept h
  | hdmDecoderCommit => exact execHdmDecoderCommit_kept h
  | msixUnmask => exact execMsixUnmask_kept h
  | registerWrite => exact execRegisterWrite_kept h
  | get => exact execGet_kept h
  | describe => exact execDescribe_kept h
  | next => exact execNext_kept h
  | kallekUnknownOp => exact execKallekUnknownOp_kept h
  | jointOpen => exact execJointOpen_kept h
  | jointRead => exact execJointRead_kept h
  | jointStage => exact execJointStage_kept h
  | jointStatement => exact execJointStatement_kept h
  | jointSign => exact execJointSign_kept h
  | jointSignVerified => exact execJointSignVerified_kept h
  | jointCommit => exact execJointCommit_kept h
  | jointAbort => exact execJointAbort_kept h
  | jointStatus => exact execJointStatus_kept h
  | prepareDurable => exact execPrepareDurable_kept h
  | jointCut => exact execJointCut_kept h
  | islandEpochSwitch => exact execIslandEpochSwitch_kept h
  | backupObjectsApplied => exact execBackupObjectsApplied_kept h
  | cutRecordDurable => exact execCutRecordDurable_kept h
  | digestPublished => exact execDigestPublished_kept h
  | jointIdleExpiry => exact execJointIdleExpiry_kept h
  | plumbRun => exact execPlumbRun_kept h
  | islandSweep => exact execIslandSweep_kept h
  | shutdownReady => exact execShutdownReady_kept h
  | monitorEvent => exact execMonitorEvent_kept h
  | decisionIntervalEnd => exact execDecisionIntervalEnd_kept h
  | monitorTestEnd => exact execMonitorTestEnd_kept h
  | meshCheck => exact execMeshCheck_kept h
  | meshPatternReseed => exact execMeshPatternReseed_kept h
  | envAuth => exact execEnvAuth_kept h
  | envAuthRetry => exact execEnvAuthRetry_kept h
  | envEnrolment => exact execEnvEnrolment_kept h
  | tamperInEdge => exact execTamperInEdge_kept h
  | backupCheck => exact execBackupCheck_kept h
  | backupWatchEvent => exact execBackupWatchEvent_kept h
  | serviceWindowExpiry => exact execServiceWindowExpiry_kept h
  | envLifeAccrual => exact execEnvLifeAccrual_kept h
  | lcFuseSequenceDone => exact execLcFuseSequenceDone_kept h
  | debugChallengeReady => exact execDebugChallengeReady_kept h
  | debugChallengeExpiry => exact execDebugChallengeExpiry_kept h
  | fwManifestChecked => exact execFwManifestChecked_kept h
  | fwStageBlock => exact execFwStageBlock_kept h
  | fwBlockWritten => exact execFwBlockWritten_kept h
  | fwSwitch => exact execFwSwitch_kept h
  | fwPartSwap => exact execFwPartSwap_kept h
  | acuDrainEnd => exact execAcuDrainEnd_kept h
  | debugAccess => exact execDebugAccess_kept h
  | evrSecondEnd => exact execEvrSecondEnd_kept h
  | doeDiscovery => exact execDoeDiscovery_kept h
  | cdatTableAccess => exact execCdatTableAccess_kept h
  | getMeasurements => exact execGetMeasurements_kept h
  | challenge => exact execChallenge_kept h
  | keyExchange => exact execKeyExchange_kept h
  | endSession => exact execEndSession_kept h
  | heartbeat => exact execHeartbeat_kept h
  | heartbeatLoss => exact execHeartbeatLoss_kept h
  | ideKeyProgram => exact execIdeKeyProgram_kept h
  | mbxIdentify => exact execMbxIdentify_kept h
  | identifyMemoryDevice => exact execIdentifyMemoryDevice_kept h
  | getSupportedLogs => exact execGetSupportedLogs_kept h
  | getLog => exact execGetLog_kept h
  | getPoisonList => exact execGetPoisonList_kept h
  | kallekTunnel => exact execKallekTunnel_kept h
  | mbxUnsupported => exact execMbxUnsupported_kept h
  | fmIdentify => exact execFmIdentify_kept h
  | getLdInfo => exact execGetLdInfo_kept h
  | getLdAllocations => exact execGetLdAllocations_kept h
  | setLdAllocations => exact execSetLdAllocations_kept h
  | getMultiHeadedInfo => exact execGetMultiHeadedInfo_kept h
  | getHeadInfo => exact execGetHeadInfo_kept h
  | getQosStatus => exact execGetQosStatus_kept h
  | fmUnsupported => exact execFmUnsupported_kept h
  | entdaa => exact execEntdaa_kept h
  | setEndpointId => exact execSetEndpointId_kept h
  | getEndpointId => exact execGetEndpointId_kept h
  | getEndpointUuid => exact execGetEndpointUuid_kept h
  | getMctpVersionSupport => exact execGetMctpVersionSupport_kept h
  | getMessageTypeSupport => exact execGetMessageTypeSupport_kept h
  | getVendorMessageSupport => exact execGetVendorMessageSupport_kept h
  | resetNDeassert => exact execResetNDeassert_kept h
  | perstDeassert => exact execPerstDeassert_kept h
  | islandClockReturn => exact execIslandClockReturn_kept h
  | bayFrameEnd => exact execBayFrameEnd_kept h
  | fwPartSwapDone => exact execFwPartSwapDone_kept h
  | unboundAreaAccess => exact execUnboundAreaAccess_kept h
  | getVersion => exact execGetVersion_kept h
  | negotiateAlgorithms => exact execNegotiateAlgorithms_kept h
  | getCertificate => exact execGetCertificate_kept h

theorem step_cons (s : State) (c : Instr) (rest : List Instr) :
    step { s with pending := c :: rest } = exec c { s with pending := rest } := rfl

theorem step_idle {s : State} (h : s.pending = []) : step s = .next s := by
  unfold step
  rw [h]

/-- The state without the front of its queue is legal as the state is. -/
theorem Legal.dequeue {s : State} (h : Legal s) (q : List Instr) : Legal { s with pending := q } :=
  ⟨h.insts, h.rising, h.bays, h.bayRising, h.life, h.otp, h.step, h.now⟩

/-- A step takes the front of the queue, runs device time forward and leaves a legal machine. -/
theorem step_kept {s : State} (h : Legal s) : ∃ t, step s = .next t ∧ Kept s.pending.tail s.now t := by
  cases hp : s.pending with
  | nil => exact ⟨s, step_idle hp, hp, Nat.le_refl _, h⟩
  | cons c rest =>
    obtain ⟨t, ht, hk⟩ := exec_kept c (h.dequeue rest).kept
    refine ⟨t, ?_, hk⟩
    rw [← ht, ← step_cons s c rest, ← hp]

/-- Settles O2: each command keeps the machine legal (`exec_kept`), and so does idling. -/
theorem stepAnswersLegal : Obligations.StepAnswersLegal := by
  unfold Obligations.StepAnswersLegal
  intro s h
  obtain ⟨t, ht, hk⟩ := step_kept h
  exact ⟨t, ht, hk.legal⟩

/-- Settles O3: the queue and device time are what `Kept` says of them besides. -/
theorem stepTakesFrontOnly : Obligations.StepTakesFrontOnly := by
  unfold Obligations.StepTakesFrontOnly
  intro s h
  obtain ⟨t, ht, hk⟩ := step_kept h
  exact ⟨t, ht, hk.queue, hk.time⟩

/-- Settles O1, by the two branches of `step`. -/
theorem stepRunsFront : Obligations.StepRunsFront := by
  unfold Obligations.StepRunsFront
  exact ⟨step_cons, fun _ => step_idle⟩

/-- Settles O4: the tables of the reset state are empty, so that every key reads as its default. -/
theorem resetIsLegal : Obligations.ResetIsLegal := by
  unfold Obligations.ResetIsLegal
  exact ⟨legal_reset, rfl, rfl, rfl, rfl, rfl, rfl, rfl, rfl, fun _ => ⟨rfl, rfl, fun _ => rfl⟩, fun _ => rfl, fun _ => rfl, fun _ => rfl,
    fun _ => rfl, fun _ => rfl⟩

end Sys2Proof.Machine
end

section
/-! SUPPORT. Accesses of a host (R22, R298, R422, R443, R447): what the access check comes to, said once for each outcome. -/

namespace Sys2Proof.Machine

open Sys2Proof Sys2Proof.Safety

section
variable {s : State} {c : Instr} {ld i off : Nat} {isRead : Bool} {tag : Nat} {f : State → State}

/-- While a clock on its way stands still, an access waits in its channel. -/
theorem ldAccess_stalls (h : portRuns s = false) : ldAccess s c ld i off isRead tag f = stall s c := if_pos h

/-- Without flit mode on its head there is no access. -/
theorem ldAccess_headDown (h : portRuns s = true) (hh : headUp s (ld / 16) = false) : ldAccess s c ld i off isRead tag f = s := by
  unfold ldAccess
  rw [if_neg (ne_false_of_eq_true h), if_pos hh]

/-- The parts of `reaches`. -/
theorem reaches_iff : reaches s ld i = true ↔ serving s = true ∧ headUp s (ld / 16) = true ∧ bound s ld i = true ∧ decoded s ld = true := by
  simp only [reaches, Bool.and_eq_true, and_assoc]

/-- An access that is let through has its effect, and a write its completion. -/
theorem ldAccess_lets (h : Lets s ld i off isRead) : ldAccess s c ld i off isRead tag f = complete (f s) isRead ld tag := by
  obtain ⟨hp, hr, hd⟩ := h
  obtain ⟨hs, hh, hb, hdec⟩ := reaches_iff.1 hr
  unfold ldAccess
  rw [if_neg (ne_false_of_eq_true hp), if_neg (ne_false_of_eq_true hh), if_neg (ne_false_of_eq_true hs), if_neg (ne_false_of_eq_true hb),
    if_neg (ne_false_of_eq_true hdec), hd]

/-- Before service runs an access has its effect on a head that is up. -/
theorem ldAccess_beforeService (h : portRuns s = true) (hh : headUp s (ld / 16) = true) (hs : serving s = false) :
    ldAccess s c ld i off isRead tag f = complete (f s) isRead ld tag := by
  unfold ldAccess
  rw [if_neg (ne_false_of_eq_true h), if_neg (ne_false_of_eq_true hh), if_pos hs]

end

/-- MEM_INV on a head that is up, whose link key is there where it is needed, is completed. -/
theorem memInvAt_answers {s : State} {ld : Nat} (hl : islandRuns s islLink = true) (hh : headUp s (ld / 16) = true)
    (hd : (serving s && decoded s ld && ideLacking s ld) = false) (c : Instr) (dpa tag : Nat) :
    memInvAt s c ld dpa tag = answerDone s ld tag := by
  unfold memInvAt
  rw [if_neg (ne_false_of_eq_true hl), if_neg (ne_false_of_eq_true hh), if_neg (ne_true_of_eq_false hd)]

/-- MEM_INV without the link key that its head requires is a violation besides. -/
theorem memInvAt_denied {s : State} {ld : Nat} (hl : islandRuns s islLink = true) (hh : headUp s (ld / 16) = true)
    (hs : serving s = true) (hdec : decoded s ld = true) (hi : ideLacking s ld = true) (c : Instr) (dpa tag : Nat) :
    memInvAt s c ld dpa tag = violation (answerDone s ld tag) 0x100 ld 64 (deniedAddr s ld dpa) false := by
  unfold memInvAt
  rw [if_neg (ne_false_of_eq_true hl), if_neg (ne_false_of_eq_true hh), hs, hdec, hi]
  rfl

/-- Each access to an instance's area but a register's write is an access of the LD to that area. -/
theorem exec_areaAccess (s : State) (t arr : Nat) (ld : LdNo) (i : InstNo) (slot : BitVec 10) (entry : BitVec 11) (line data : Bytes)
    (k : InlineDrop) (off7 : BitVec 7) (off17 : BitVec 17) (off19 : BitVec 19) (tail tag : BitVec 16) (en : BitVec 64)
    (full poison isRead : Bool) {c : Instr}
    (hc : c ∈ [Instr.inlineRequestWrite arr t ld i slot line, .inlineResultRead t ld i slot tag, .inlineDroppedWrite t ld i slot k off7,
      .doorbell arr t ld i tail full poison, .ringEntryWrite t ld i entry data full poison,
      .stagingPageWrite t ld i off17 data en poison, .unbackedAccess t ld i off19 isRead poison tag]) :
    ∃ off rd tg f, exec c s = .next (ldAccess (at_ s t) c ld.toNat i.toNat off rd tg f) := by
  simp only [List.mem_cons, List.not_mem_nil, or_false] at hc
  rcases hc with rfl | rfl | rfl | rfl | rfl | rfl | rfl <;> exact ⟨_, _, _, _, rfl⟩

/-- Settles O14: MEM_INV goes by its branches, and an access of a host to an area is `ldAccess`, whose first two branches are the
stopped clock and the head without flit mode. -/
theorem speculationAndInvalidation : Obligations.SpeculationAndInvalidation := by
  unfold Obligations.SpeculationAndInvalidation
  intro s t ld dpa tag
  refine ⟨rfl, fun hl hh hd => ?_, fun hl hh hs hdec hi => ⟨deniedAddr (at_ s t) ld.toNat dpa.toNat, ?_⟩, fun hl => congrArg Host.Outcome.next (if_pos hl), ?_⟩
  · exact congrArg Host.Outcome.next (memInvAt_answers (s := at_ s t) hl hh hd _ _ _)
  · exact congrArg Host.Outcome.next (memInvAt_denied (s := at_ s t) hl hh hs hdec hi _ _ _)
  · intro i slot line data k off7 off12 off17 off19 arr v tail entry en full poison isRead c hc
    obtain ⟨off, rd, tg, f, he⟩ := exec_areaAccess s t arr ld i slot entry line data k off7 off17 off19 tail tag en full poison isRead hc
    rw [he]
    refine ⟨fun hp => congrArg Host.Outcome.next (ldAccess_stalls hp),
      fun hp hh => congrArg Host.Outcome.next (ldAccess_headDown hp hh), fun hp => ⟨_, rfl, ?_⟩⟩
    unfold areaWrite
    rw [ldAccess_stalls (s := at_ s t) hp]
    exact settle_beside _

end Sys2Proof.Machine
end

section
/-! SUPPORT. How a start begins (R361, R432, R475): a recorder that queues, and the state in which step 1 runs. -/

namespace Sys2Proof.Machine

-- One proof at a time: the check bounds the compiler's threads.
set_option Elab.async false

open Sys2Proof Sys2Proof.Safety

/-! ## A recorder that queues -/

/-- While records are queued none is numbered. -/
theorem intake_queued {s : State} {room : Nat} (h : queueRoom s = some room) (es : List EvRec) :
    (intake s es).evr.head = s.evr.head ∧ (intake s es).evr.mark = s.evr.mark := by
  unfold intake
  rw [h]
  dsimp only
  split <;> exact ⟨rfl, rfl⟩

/-- A change of modes recorded while records are queued gives no number. -/
theorem settle_queued {s : State} {room : Nat} (h : queueRoom s = some room) :
    (settle s).evr.head = s.evr.head ∧ (settle s).evr.mark = s.evr.mark := by
  unfold settle
  dsimp only
  split
  · exact ⟨rfl, rfl⟩
  · unfold record
    rw [if_pos (by decide)]
    unfold recordExempt
    exact intake_queued (s := bump { s with power := { s.power with modes := modesNow s } } (odKey 0x4004 2)) h _

theorem queueRoom_of_step {s : State} (h : 1 ≤ s.power.step ∧ s.power.step < 7) : queueRoom s = some 64 := if_pos h

/-! ## The state in which a start begins -/

/-- The recorder as a start finds it: above every number used (R432). -/
def resumed (r : Recorder) : Recorder := { r with head := r.mark, floor := r.mark, mark := r.mark + 2 ^ 20 }

/-- The power state in step 1 of a start that begins at `now`. -/
def firstStep (p : Power) (now : Nat) : Power :=
  { p with step := 1, stop := .running, startT := now, startups := p.startups + 1, xspiReset := true }

theorem beginStart_starts {s : State} (hp : s.power.pwrGood = true) (hr : s.power.resetLow = false) (ht : s.power.thermtrip = false) :
    beginStart s = { s with bays := testBays, power := firstStep s.power s.now, evr := resumed s.evr } := if_pos ⟨hp, hr, ht⟩

/-- A start begun and recorded: step 1 runs and, but for modes, counters and recorder, nothing else changes. -/
theorem settle_beginStart {s : State} (hp : s.power.pwrGood = true) (hr : s.power.resetLow = false) (ht : s.power.thermtrip = false) :
    (settle (beginStart s)).evr.head = s.evr.mark ∧ (settle (beginStart s)).evr.mark = s.evr.mark + 2 ^ 20 ∧
      Beside { s with bays := testBays, power := firstStep s.power s.now } (settle (beginStart s)) := by
  rw [beginStart_starts hp hr ht]
  generalize hw : ({ s with bays := testBays, power := firstStep s.power s.now, evr := resumed s.evr } : State) = w
  have hq : queueRoom w = some 64 := by
    rw [← hw]
    exact queueRoom_of_step ⟨Nat.le_refl 1, show 1 < 7 by decide⟩
  obtain ⟨hhead, hmark⟩ := settle_queued hq
  refine ⟨by rw [hhead, ← hw]; rfl, by rw [hmark, ← hw]; rfl, ?_⟩
  have hb := settle_beside w
  unfold Beside at hb ⊢
  rw [hb, ← hw]

/-- Settles O5: both pins come to `beginStart` on a state in which nothing holds the start back. -/
theorem powerBeginsAStart : Obligations.PowerBeginsAStart := by
  unfold Obligations.PowerBeginsAStart
  intro s t
  refine ⟨fun hp hr => ?_, fun hp hr ht => ?_⟩
  · have he : exec (.pwrGoodAssert t) s = .next (settle (beginStart { at_ s t with
        power := { s.power with pwrGood := true, switched := false, supply := .main, thermtrip := false } })) :=
      congrArg Host.Outcome.next (if_neg (ne_true_of_eq_false hp))
    exact ⟨_, he, settle_beginStart rfl hr rfl⟩
  · have he : exec (.resetNDeassert t) s = .next (settle (beginStart { at_ s t with power := { s.power with resetLow := false } })) :=
      congrArg Host.Outcome.next (if_pos hr)
    exact ⟨_, he, settle_beginStart hp rfl ht⟩

end Sys2Proof.Machine
end

section
/-! SUPPORT. What a loss of main power leaves (R363, R364, R440, R477): the burning that stops, and the backup domain's tail. -/

namespace Sys2Proof.Machine

open Sys2Proof Sys2Proof.Safety

/-! ## The main domain -/

/-- Where no transition burns, what is lost leaves the fuses. -/
theorem cutBurning_frame (s : State) : cutBurning s =
    { s with life := { s.life with rows := (cutBurning s).life.rows }, free := (cutBurning s).free } ∧
    (s.life.pending = false → (cutBurning s).life.rows = s.life.rows) := by
  unfold cutBurning
  split
  · next hp _ => exact ⟨rfl, fun h => absurd (hp.symm.trans h) (by decide)⟩
  · exact ⟨rfl, fun _ => rfl⟩

/-- The instances that a loss of main power leaves are SAVED. -/
theorem instsLost_saved {s : State} {e : Nat × Inst} (h : e ∈ instsLost s) : e.2.st = 5 := by
  obtain ⟨x, -, rfl⟩ := List.mem_map.1 (mem_mofList h)
  rfl

/-- The loss leaves what `MainLost` says, whatever the pins showed. -/
theorem mainLost_lost (s : State) (p : Power) : MainLost s (mainLost { s with power := p }) := by
  obtain ⟨hframe, hrows⟩ := cutBurning_frame { s with power := p }
  unfold mainLost
  rw [hframe]
  exact ⟨rfl, rfl, rfl, rfl, rfl, rfl, rfl, rfl, fun _ => instsLost_saved, rfl, rfl, rfl, hrows, rfl, rfl, rfl, rfl, rfl, rfl, rfl, rfl, rfl,
    rfl, rfl⟩

/-- What no start has begun in, and what pins, mask register and backup domain show, is all one to `MainLost`. -/
theorem mainLost_alter {s u : State} (h : MainLost s u) {p : Power} (hp : p.step = 0) (n : Bytes) (b : Backup) :
    MainLost s { u with power := p, keys := { u.keys with nlfsr := n }, backup := b } := ⟨hp, h.2⟩

theorem mainLost_alterPower {s u : State} (h : MainLost s u) {p : Power} (hp : p.step = 0) : MainLost s { u with power := p } := ⟨hp, h.2⟩

theorem mainLost_power (s : State) : (mainLost s).power =
    { s.power with step := 0, stop := .running, stepUs := [], shutdown := 0, xspiReset := false } := by
  unfold mainLost
  rw [(cutBurning_frame s).1]

theorem mainLost_backup (s : State) : (mainLost s).backup = { s.backup with window := none, authRetry := false } := by
  unfold mainLost
  rw [(cutBurning_frame s).1]

/-! ## The tail of the backup domain -/

/-- A tail in which nothing but changes of modes is recorded, `n` at most. -/
def TailOfModes (n : Nat) (b : Backup) : Prop := b.tail.length ≤ n ∧ b.tailLost = 0 ∧ ∀ r ∈ b.tail, r.code = 0x1104

/-- A change of modes takes one record of a tail that has room. -/
theorem tailMode_tail {s : State} {n : Nat} (m : Nat) (hn : n < 1023) (h : TailOfModes n s.backup) :
    TailOfModes (n + 1) (tailMode s m).backup := by
  obtain ⟨hlen, hlost, hcode⟩ := h
  have hparts : ∀ k, recParts s.now 0x1104 (src 5 0) 0 (Bytes.ofNatLE 1 s.power.modes ++ Bytes.ofNatLE 1 k) =
      [{ seq := 0, time := s.now, code := 0x1104, src := src 5 0, flags := 0
         args := Bytes.slice (Bytes.ofNatLE 1 s.power.modes ++ Bytes.ofNatLE 1 k) 0 11 }] := fun _ => by
    simp [recParts, Bytes.ofNatLE, ceilDiv, upTo]
  unfold tailMode
  split
  · exact ⟨Nat.le_succ_of_le hlen, hlost, hcode⟩
  · unfold tailRecord
    rw [hparts]
    dsimp only
    rw [if_pos ⟨by simpa using by omega, hlost⟩]
    refine ⟨by simpa using hlen, hlost, fun r hr => ?_⟩
    rcases List.mem_append.1 hr with hr | hr
    · exact hcode r hr
    · rw [List.zipIdx_singleton, List.map_singleton, List.mem_singleton] at hr
      rw [hr]

/-- A state with other modes recorded last, and another tail of the backup domain. -/
def tailed (s : State) (m : Nat) (tail : List EvRec) (lost code source : Nat) : State :=
  { s with power := { s.power with modes := m }
           backup := { s.backup with tail := tail, tailLost := lost, tailLostCode := code, tailLostSrc := source } }

theorem tailMode_tailed (s : State) (m : Nat) : ∃ k l n c r, tailMode s m = tailed s k l n c r := by
  unfold tailMode tailRecord
  split
  · exact ⟨_, _, _, _, _, rfl⟩
  · dsimp only
    split <;> exact ⟨_, _, _, _, _, rfl⟩

theorem tailModes_tailed (s : State) (was : Nat) : ∃ k l n c r, tailModes s was = tailed s k l n c r := by
  obtain ⟨k, l, n, c, r, h⟩ := tailMode_tailed s was
  obtain ⟨k', l', n', c', r', h'⟩ := tailMode_tailed (tailMode s was) (modesNow (tailMode s was))
  rw [h] at h'
  refine ⟨k', l', n', c', r', ?_⟩
  unfold tailModes
  dsimp only
  rw [h, h']
  rfl

/-! ## Pins -/

/-- The supplies change with an Envelope seated: the main domain is lost, and the tail holds two changes of modes at most. -/
theorem enterBackup_lost {s : State} (hp : s.power.pwrGood = true) (hc : s.backup.contact = true) :
    MainLost s (enterBackup s) ∧ (enterBackup s).power.pwrGood = false ∧ (enterBackup s).power.supply = .cell ∧
      TailOfModes 2 (enterBackup s).backup ∧ (enterBackup s).backup.env = s.backup.env := by
  have hlost := mainLost_lost s { s.power with pwrGood := false }
  have hpower := mainLost_power { s with power := { s.power with pwrGood := false } }
  have hbackup := mainLost_backup { s with power := { s.power with pwrGood := false } }
  unfold enterBackup
  rw [if_neg (ne_false_of_eq_true hp)]
  dsimp only
  generalize (if heldInReset s = true then modesNow s else s.power.modes) = was
  generalize mainLost { s with power := { s.power with pwrGood := false } } = w at *
  rw [if_pos ((congrArg Backup.contact hbackup).trans hc)]
  have htail (v : State) (hv : v.backup = { w.backup with
      tail := [], tailLost := 0, tailLostCode := 0, tailLostSrc := 0, entryT := w.now }) : TailOfModes 2 (tailModes v was).backup :=
    tailMode_tail _ (by decide) (tailMode_tail _ (by decide) (hv ▸ ⟨Nat.le_refl 0, rfl, fun _ h => absurd h List.not_mem_nil⟩))
  refine ⟨?_, ?_, ?_, htail _ rfl, ?_⟩
  all_goals
    obtain ⟨k, l, n, c, r, h⟩ := tailModes_tailed { w with
      power := { w.power with supply := .cell }
      keys := { w.keys with nlfsr := Bytes.fit 32 (liveWord w.keys.vaultMask) }
      backup := { w.backup with tail := [], tailLost := 0, tailLostCode := 0, tailLostSrc := 0, entryT := w.now } } was
    rw [h]
  · exact mainLost_alter hlost (congrArg Power.step hpower :) _ _
  · exact (congrArg Power.pwrGood hpower :)
  · rfl
  · exact (congrArg Backup.env hbackup :)

/-- RESET_N qualifies and main power is good: the main domain is lost. -/
theorem resetAsserted_takes {s : State} {d : Nat} (hp : s.power.pwrGood = true) (hd : 2000 ≤ d) :
    resetAsserted s d = mainLost { s with power := { s.power with resetLow := true } } := by
  unfold resetAsserted resetTakes
  rw [if_pos hd]
  exact if_pos hp

/-- RESET_N qualifies on backup: its level is kept. -/
theorem resetAsserted_onBackup {s : State} {d : Nat} (hp : s.power.pwrGood = false) (hd : 2000 ≤ d) :
    resetAsserted s d = { s with power := { s.power with resetLow := true } } := by
  unfold resetAsserted resetTakes
  rw [if_pos hd]
  exact if_neg (ne_true_of_eq_false hp)

/-- A pulse of RESET_N below 1 µs does nothing. -/
theorem resetAsserted_short (s : State) {d : Nat} (hd : d < 1000) : resetAsserted s d = s := by
  unfold resetAsserted resetTakes
  rw [if_neg (by omega), if_pos hd]
  rfl

/-- Settles O6: each pin that takes comes to `mainLost`, and what follows it writes pins, mask register and backup domain only. -/
theorem mainPowerLost : Obligations.MainPowerLost := by
  unfold Obligations.MainPowerLost
  intro s t t' d
  have short (hd : d < 1000) (f : State → State) : (if 1000 ≤ d then f (at_ s t) else at_ s t) = at_ s t := if_neg (by omega)
  refine ⟨fun hp hd => ?_, fun hp hd => ?_, fun hd => ?_, fun hp hd hc => ?_, fun hp hd hc => ?_, fun hp => ?_,
    fun hd => ⟨congrArg Host.Outcome.next (short hd _), congrArg Host.Outcome.next (if_neg fun h => by omega)⟩⟩
  · have he : exec (.resetNAssert t d) s = .next (mainLost { at_ s t with power := { s.power with resetLow := true } }) :=
      congrArg Host.Outcome.next (resetAsserted_takes (s := at_ s t) hp hd)
    have hpower := mainLost_power { at_ s t with power := { s.power with resetLow := true } }
    refine ⟨_, he, mainLost_lost (at_ s t) _, ?_, ?_, ?_, ?_, fun ht => ?_⟩
    · rw [hpower]
    · rw [hpower]
      exact hp
    · rw [hpower]
    · rw [mainLost_backup]
      rfl
    · generalize mainLost { at_ s t with power := { s.power with resetLow := true } } = u at hpower ⊢
      have hu : exec (.resetNDeassert t') u = .next (settle (beginStart { at_ u t' with power := { u.power with resetLow := false } })) :=
        congrArg Host.Outcome.next (if_pos (congrArg Power.resetLow hpower :))
      obtain ⟨-, -, hb⟩ := settle_beginStart (s := { at_ u t' with power := { u.power with resetLow := false } })
        ((congrArg Power.pwrGood hpower).trans hp :) rfl ((congrArg Power.thermtrip hpower).trans ht :)
      refine ⟨_, hu, ?_, ?_, ?_⟩ <;> rw [hb] <;> rfl
  · exact congrArg Host.Outcome.next (resetAsserted_onBackup (s := at_ s t) hp hd)
  · exact congrArg Host.Outcome.next (resetAsserted_short (at_ s t) hd)
  · obtain ⟨hl, hgood, hsup, ⟨hlen, -, hcode⟩, henv⟩ := enterBackup_lost (s := at_ s t) hp hc
    exact ⟨_, congrArg Host.Outcome.next (if_pos hd), hl, hgood, hsup, hlen, hcode, henv⟩
  · obtain ⟨hl, hgood, hsup, -, -⟩ := enterBackup_lost (s := at_ s t) hp hc
    exact ⟨_, congrArg Host.Outcome.next (if_pos ⟨hd, hp⟩), mainLost_alterPower hl hl.1, hgood, rfl, hsup⟩
  · refine ⟨_, congrArg Host.Outcome.next (if_neg (ne_false_of_eq_true hp)), mainLost_lost (at_ s t) _, ?_⟩
    unfold mainReset
    rw [mainLost_power]

end Sys2Proof.Machine
end

section
/-! SUPPORT. Frames: which parts of the state a change may write, named by a `Scope`, and how frames compose. `Within F s u` says of `u`
that it is `s` but for the parts that `F` names; each operation has one such lemma, and what it leaves alone is read off it. -/

namespace Sys2Proof.Machine

-- One proof at a time: the check bounds the compiler's threads.
set_option Elab.async false

open Sys2Proof Sys2Proof.Safety

/-! ## Scopes -/

/-- Parts of the state that a change may write. A part named after a component that has parts of its own here (`power`, `keys`, `link`,
`random`, `sched`, `ctl`, `backup`) is the rest of that component. -/
structure Scope where
  now : Bool := false
  modes : Bool := false
  power : Bool := false
  joints : Bool := false
  commits : Bool := false
  cutRing : Bool := false
  cfgLog : Bool := false
  sweepFail : Bool := false
  ctl : Bool := false
  vault : Bool := false
  slots : Bool := false
  cache : Bool := false
  deriv : Bool := false
  slotMask : Bool := false
  vaultMask : Bool := false
  klog : Bool := false
  journal : Bool := false
  keys : Bool := false
  routes : Bool := false
  insts : Bool := false
  bays : Bool := false
  dma : Bool := false
  sched : Bool := false
  chans : Bool := false
  windows : Bool := false
  reqs : Bool := false
  random : Bool := false
  alarm : Bool := false
  backup : Bool := false
  evr : Bool := false
  life : Bool := false
  fw : Bool := false
  acu : Bool := false
  heads : Bool := false
  hdm : Bool := false
  msixOpen : Bool := false
  msixPend : Bool := false
  sessions : Bool := false
  stalled : Bool := false
  link : Bool := false
  cnt : Bool := false
  kumCtr : Bool := false
  devCtr : Bool := false
  bad : Bool := false
  writers : Bool := false
  stores : Bool := false
  outbox : Bool := false
  free : Bool := false
  pending : Bool := false

/-- Every part that one scope names the other names too. -/
def Scope.le (F G : Scope) : Bool :=
  (!F.now || G.now) && (!F.modes || G.modes) && (!F.power || G.power) && (!F.joints || G.joints) && (!F.commits || G.commits) &&
  (!F.cutRing || G.cutRing) && (!F.cfgLog || G.cfgLog) && (!F.sweepFail || G.sweepFail) && (!F.ctl || G.ctl) && (!F.vault || G.vault) &&
  (!F.slots || G.slots) && (!F.cache || G.cache) && (!F.deriv || G.deriv) && (!F.slotMask || G.slotMask) && (!F.vaultMask || G.vaultMask) &&
  (!F.klog || G.klog) && (!F.journal || G.journal) && (!F.keys || G.keys) && (!F.routes || G.routes) && (!F.insts || G.insts) &&
  (!F.bays || G.bays) && (!F.dma || G.dma) && (!F.sched || G.sched) && (!F.chans || G.chans) && (!F.windows || G.windows) &&
  (!F.reqs || G.reqs) && (!F.random || G.random) && (!F.alarm || G.alarm) && (!F.backup || G.backup) && (!F.evr || G.evr) &&
  (!F.life || G.life) && (!F.fw || G.fw) && (!F.acu || G.acu) && (!F.heads || G.heads) && (!F.hdm || G.hdm) &&
  (!F.msixOpen || G.msixOpen) && (!F.msixPend || G.msixPend) && (!F.sessions || G.sessions) && (!F.stalled || G.stalled) &&
  (!F.link || G.link) && (!F.cnt || G.cnt) && (!F.kumCtr || G.kumCtr) && (!F.devCtr || G.devCtr) && (!F.bad || G.bad) &&
  (!F.writers || G.writers) && (!F.stores || G.stores) && (!F.outbox || G.outbox) && (!F.free || G.free) && (!F.pending || G.pending)

/-! ## One state with the parts of another -/

/-- The new content of a part that may be written, else the old one. -/
@[simp] def pick {α : Type} (b : Bool) (new old : α) : α := cond b new old

@[simp] def Scope.onPower (F : Scope) (p q : Power) : Power := { pick F.power q p with modes := pick F.modes q.modes p.modes }

@[simp] def Scope.onCtl (F : Scope) (p q : Ctl) : Ctl :=
  { pick F.ctl q p with
    joints := pick F.joints q.joints p.joints, commits := pick F.commits q.commits p.commits
    cutRing := pick F.cutRing q.cutRing p.cutRing, cfgLog := pick F.cfgLog q.cfgLog p.cfgLog
    cfgLogUsed := pick F.cfgLog q.cfgLogUsed p.cfgLogUsed, sweepFail := pick F.sweepFail q.sweepFail p.sweepFail }

@[simp] def Scope.onKeys (F : Scope) (p q : Keys) : Keys :=
  { pick F.keys q p with
    slots := pick F.slots q.slots p.slots, cache := pick F.cache q.cache p.cache, deriv := pick F.deriv q.deriv p.deriv
    slotMask := pick F.slotMask q.slotMask p.slotMask, vaultMask := pick F.vaultMask q.vaultMask p.vaultMask
    log := pick F.klog q.log p.log, journal := pick F.journal q.journal p.journal }

@[simp] def Scope.onSched (F : Scope) (p q : Sched) : Sched := { pick F.sched q p with dma := pick F.dma q.dma p.dma }

@[simp] def Scope.onRandom (F : Scope) (p q : Random) : Random :=
  { pick F.random q p with
    chans := pick F.chans q.chans p.chans, windows := pick F.windows q.windows p.windows, reqs := pick F.reqs q.reqs p.reqs }

@[simp] def Scope.onLink (F : Scope) (p q : Link) : Link :=
  { pick F.link q p with
    heads := pick F.heads q.heads p.heads, hdm := pick F.hdm q.hdm p.hdm, hdmError := pick F.hdm q.hdmError p.hdmError
    msixOpen := pick F.msixOpen q.msixOpen p.msixOpen, msixPend := pick F.msixPend q.msixPend p.msixPend
    sessions := pick F.sessions q.sessions p.sessions, stalled := pick F.stalled q.stalled p.stalled }

/-- `s` with the parts of `u` that a scope names. -/
@[simp] def graft (F : Scope) (s u : State) : State :=
  { now := pick F.now u.now s.now, power := F.onPower s.power u.power, ctl := F.onCtl s.ctl u.ctl, vault := pick F.vault u.vault s.vault
    keys := F.onKeys s.keys u.keys, routes := pick F.routes u.routes s.routes, insts := pick F.insts u.insts s.insts
    bays := pick F.bays u.bays s.bays, sched := F.onSched s.sched u.sched, random := F.onRandom s.random u.random
    alarm := pick F.alarm u.alarm s.alarm, backup := pick F.backup u.backup s.backup, evr := pick F.evr u.evr s.evr
    life := pick F.life u.life s.life, fw := pick F.fw u.fw s.fw, acu := pick F.acu u.acu s.acu, link := F.onLink s.link u.link
    cnt := pick F.cnt u.cnt s.cnt, kumCtr := pick F.kumCtr u.kumCtr s.kumCtr, devCtr := pick F.devCtr u.devCtr s.devCtr
    bad := pick F.bad u.bad s.bad, writers := pick F.writers u.writers s.writers, stores := pick F.stores u.stores s.stores
    outbox := pick F.outbox u.outbox s.outbox, free := pick F.free u.free s.free, pending := pick F.pending u.pending s.pending }

/-- `u` is `s` but for the parts that a scope names. -/
def Within (F : Scope) (s u : State) : Prop := u = graft F s u

section
variable {α : Type} {b c : Bool} {x y z : α}

theorem pick_self : pick b x x = x := by cases b <;> rfl

theorem pick_pick_old : pick b x (pick b y z) = pick b x z := by cases b <;> rfl

theorem pick_pick_new (h : (!b || c) = true) : pick c (pick b x y) y = pick b x y := by
  cases b
  · exact pick_self
  · have hc : c = true := h
    rw [hc]
    rfl

end

section
variable (F : Scope)

theorem graft_self (s : State) : graft F s s = s := by
  simp only [graft, Scope.onPower, Scope.onCtl, Scope.onKeys, Scope.onSched, Scope.onRandom, Scope.onLink, pick_self]

theorem graft_graft_old (s u v : State) : graft F (graft F s u) v = graft F s v := by
  simp only [graft, Scope.onPower, Scope.onCtl, Scope.onKeys, Scope.onSched, Scope.onRandom, Scope.onLink, pick_pick_old]
  cases F.power <;> cases F.ctl <;> cases F.keys <;> cases F.sched <;> cases F.random <;> cases F.link <;> rfl

variable {F} {G : Scope}

theorem graft_graft_new (h : F.le G = true) (s u : State) : graft G s (graft F s u) = graft F s u := by
  simp only [Scope.le, Bool.and_eq_true] at h
  simp only [graft, Scope.onPower, Scope.onCtl, Scope.onKeys, Scope.onSched, Scope.onRandom, Scope.onLink, pick_pick_new, h]
  obtain ⟨hpower, hctl, hkeys, hsched, hrandom, hlink⟩ : (!F.power || G.power) = true ∧ (!F.ctl || G.ctl) = true ∧
      (!F.keys || G.keys) = true ∧ (!F.sched || G.sched) = true ∧ (!F.random || G.random) = true ∧ (!F.link || G.link) = true := by
    simp only [h, and_self]
  clear h
  congr 1
  · revert hpower; cases F.power <;> cases G.power <;> intro h <;> first | rfl | cases h
  · revert hctl; cases F.ctl <;> cases G.ctl <;> intro h <;> first | rfl | cases h
  · revert hkeys; cases F.keys <;> cases G.keys <;> intro h <;> first | rfl | cases h
  · revert hsched; cases F.sched <;> cases G.sched <;> intro h <;> first | rfl | cases h
  · revert hrandom; cases F.random <;> cases G.random <;> intro h <;> first | rfl | cases h
  · revert hlink; cases F.link <;> cases G.link <;> intro h <;> first | rfl | cases h

end

/-! ## Composition -/

section
variable {F G : Scope} {s u v : State}

theorem Within.refl (s : State) : Within F s s := (graft_self F s).symm

theorem Within.trans (h : Within F s u) (h' : Within F u v) : Within F s v := by
  have e : graft F u v = graft F s v := by
    conv =>
      lhs
      rw [h]
    exact graft_graft_old F s u v
  exact Eq.trans h' e

theorem Within.mono (h : Within F s u) (hle : F.le G = true) : Within G s u := by
  have e := graft_graft_new hle s u
  rw [← show u = graft F s u from h] at e
  exact e.symm

/-- A change of fewer parts after others. -/
theorem Within.then (h : Within F s u) (h' : Within G u v) (hle : G.le F = true := by rfl) : Within F s v := h.trans (h'.mono hle)

/-- What a scope does not name reads as before. -/
theorem Within.same {α : Type} (h : Within F s u) (p : State → α) (hp : ∀ s u, p (graft F s u) = p s := by intros; rfl) : p u = p s :=
  (congrArg p h).trans (hp s u)

/-- Of the power state a scope without it leaves all but the modes. -/
theorem Within.powerModes (h : Within F s u) (hF : F.power = false := by rfl) : u.power = { s.power with modes := u.power.modes } := by
  have e := congrArg State.power h
  simp only [graft, Scope.onPower, hF, pick, cond_false] at e
  rw [e]

theorem Within.ite {c : Prop} [Decidable c] (hu : Within F s u) (hv : Within F s v) : Within F s (if c then u else v) := by
  split <;> assumption

theorem Within.each {α : Type} {f : State → α → State} (h : ∀ s a, Within F s (f s a)) (xs : List α) (s : State) :
    Within F s (each xs s f) :=
  each_keeps (P := fun w => Within F s w) (fun w a hw => hw.trans (h w a)) xs (.refl s)

theorem Within.noted (h : Within { cnt := true, evr := true } s u) : Noted s u := h

theorem Within.beside (h : Within { modes := true, cnt := true, evr := true } s u) : Beside s u := h

theorem within_of_beside (h : Beside s u) : Within { modes := true, cnt := true, evr := true } s u := h

end

/-! ## Frames of the shared operations -/

section
variable (s : State)

theorem at_within (t : Nat) : Within { now := true } s (at_ s t) := rfl

theorem emit_within (o : Out) : Within { outbox := true } s (emit s o) := rfl

theorem answerDone_within (ld tag : Nat) : Within { outbox := true } s (answerDone s ld tag) := rfl

theorem answerRead_within (ld tag : Nat) (data : Bytes) : Within { outbox := true } s (answerRead s ld tag data) := rfl

theorem answerPoison_within (ld tag : Nat) : Within { outbox := true } s (answerPoison s ld tag) := rfl

theorem kReply_within (h : KHdr) (op status : Nat) (body : Bytes) : Within { outbox := true } s (kReply s h op status body) := rfl

theorem stall_within (c : Instr) : Within { stalled := true } s (stall s c) := rfl

theorem bump_within (k : Nat) : Within { cnt := true } s (bump s k) := rfl

theorem bumpBy_within (k n : Nat) : Within { cnt := true } s (bumpBy s k n) := rfl

theorem setCounter_within (k v : Nat) : Within { cnt := true } s (setCounter s k v) := rfl

theorem setDevCounter_within (n v : Nat) : Within { devCtr := true } s (setDevCounter s n v) := rfl

theorem setInst_within (i : Nat) (x : Inst) : Within { insts := true } s (setInst s i x) := rfl

theorem modInst_within (i : Nat) (f : Inst → Inst) : Within { insts := true } s (modInst s i f) := rfl

theorem setBay_within (b : Nat) (x : Bay) : Within { bays := true } s (setBay s b x) := rfl

theorem modBay_within (b : Nat) (f : Bay → Bay) : Within { bays := true } s (modBay s b f) := rfl

theorem modHead_within (h : Nat) (f : Head → Head) : Within { heads := true } s (modHead s h f) := rfl

theorem modMon_within (m : Nat) (f : Mon → Mon) : Within { alarm := true } s (modMon s m f) := rfl

theorem modChan_within (n : Nat) (f : Chan → Chan) : Within { chans := true } s (modChan s n f) := rfl

theorem setJoint_within (j : Nat) (x : Joint) : Within { joints := true } s (setJoint s j x) := rfl

theorem modJoint_within (j : Nat) (f : Joint → Joint) : Within { joints := true } s (modJoint s j f) := rfl

theorem setBook_within (b frame e : Nat) : Within { bays := true } s (setBook s b frame e) := rfl

theorem freeShelf_within : Within { cache := true } s (freeShelf s) := rfl

theorem intake_within (es : List EvRec) : Within { evr := true } s (intake s es) := intake_evr s es

theorem record_within (code source : Nat) (args : Bytes) : Within { evr := true } s (record s code source args) :=
  record_evr s code source args

theorem recordLimited_within (code source : Nat) (args : Bytes) : Within { evr := true } s (recordLimited s code source args) :=
  recordLimited_evr s code source args

theorem recordExempt_within (code source : Nat) (args : Bytes) : Within { evr := true } s (recordExempt s code source args) :=
  intake_evr s _

theorem settle_within : Within { modes := true, cnt := true, evr := true } s (settle s) := settle_beside s

theorem raiseIf_within (m : Nat) (d : Bytes) (c : Bool) : Within { alarm := true, evr := true } s (raiseIf s m d c) :=
  raiseIf_frame s m d c

theorem raiseFabric_within (a b m : Nat) :
    Within { modes := true, alarm := true, cnt := true, evr := true } s (raiseFabric s a b m) := raiseFabric_frame s a b m

theorem violation_within (rule master len addr : Nat) (isRead : Bool) :
    Within { acu := true, evr := true } s (violation s rule master len addr isRead) := (violation_acu s rule master len addr isRead).1

theorem requestSeed_within (prio : Nat) (who : Consumer) (need : Nat) : Within { reqs := true } s (requestSeed s prio who need) :=
  requestSeed_random s prio who need

theorem closeBay_within (b : Nat) (why : BayOut) : Within { bays := true } s (closeBay s b why) := closeBay_bays s b why

theorem answerHeld_within (h : Option Held) (line : Bytes) : Within { outbox := true } s (answerHeld s h line) :=
  answerHeld_outbox s h line

theorem writeWords_within (mem w n : Nat) : Within { bad := true, slotMask := true } s (writeWords s mem w n) :=
  writeWords_frame s mem w n

/-- A memory that is not masked keeps the mask pass alone (R270). -/
theorem writeWords_plain {mem : Nat} (h : 2 < mem) (w n : Nat) : writeWords s mem w n =
    { s with bad := s.bad.filter (fun e => decide (e.1 < wordKey mem w) || decide (wordKey mem w + n ≤ e.1)) } := by
  unfold writeWords noteFresh
  rw [if_neg (by simpa [memMasked] using h)]

theorem writeWords_within_plain {mem : Nat} (h : 2 < mem) (w n : Nat) : Within { bad := true } s (writeWords s mem w n) := by
  rw [writeWords_plain s h]
  rfl

theorem noteWriter_within (mem w n island : Nat) : Within { writers := true } s (noteWriter s mem w n island) := by
  unfold noteWriter
  exact .ite (.refl s) rfl

theorem countStatus_within (i op st done declined : Nat) (b : Bool) : Within { cnt := true } s (countStatus s i op st done declined b) :=
  countStatus_counted s i op st done declined b

theorem sendMsix_within (ld v : Nat) : Within { outbox := true, msixPend := true } s (sendMsix s ld v) := (sendMsix_frame s ld v).1

theorem completeRing_within (i : Nat) (o : RingOp) (st ep bay hint len : Nat) (res : Bytes) :
    Within { insts := true, cnt := true, outbox := true, bad := true, writers := true, cache := true, msixPend := true } s
      (completeRing s i o st ep bay hint len res) := (completeRing_ends s i o st ep bay hint len res).2.1.1

theorem clocked_within {F : Scope} (islands : List Nat) {f : State → State} (h : Within F s (f s)) : Within F s (clocked s islands f) := by
  unfold clocked
  exact .ite h (.refl s)

end

end Sys2Proof.Machine
end

section
/-! SUPPORT. What the steps of a start write (R344, R361, R365, R440): frames of the restore, of the loader's marks and of the random
settings, and the frame that every step has in common. -/

namespace Sys2Proof.Machine

-- One proof at a time: the check bounds the compiler's threads.
set_option Elab.async false

open Sys2Proof Sys2Proof.Safety

/-! ## Random settings (R245, R256, R261) -/

theorem randomAlarm_within (s : State) (cause bay : Nat) : Within { alarm := true, evr := true } s (randomAlarm s cause bay) := by
  unfold randomAlarm
  exact .ite ((recordExempt_within _ _ _ _).mono rfl) rfl

theorem failuresAlarm_within (s : State) : Within { alarm := true, evr := true } s (failuresAlarm s) := by
  unfold failuresAlarm
  exact .ite (randomAlarm_within _ _ _) (.refl s)

theorem holdCutoffs_within (s : State) (c0 : Cfg) : Within { chans := true } s (holdCutoffs s c0) := by
  unfold holdCutoffs
  exact .ite (.refl s) (.each (fun _ _ => modChan_within _ _ _) _ s)

theorem askReseed_within (s : State) (b : Nat) (newly : Bool) : Within { bays := true, reqs := true } s (askReseed s b newly) := by
  have ask (s' : State) (h : Within { bays := true, reqs := true } s s') (prio : Nat) :
      Within { bays := true, reqs := true } s (if (drbgOf s b).seed.isNone then requestSeed s' prio (.reseed b) 2 else s') :=
    .ite (h.then (requestSeed_within _ _ _ _)) h
  unfold askReseed
  exact .ite (ask _ (by rfl) 1) (.ite (ask _ (by rfl) 3) (.refl s))

theorem chainMask_within (s : State) (vault : Bool) :
    Within { slotMask := true, vaultMask := true, reqs := true, evr := true } s (chainMask s vault) := by
  unfold chainMask
  refine .ite (.refl s) ?_
  have h : ∀ m, Within { slotMask := true, vaultMask := true } s (setMask s vault m) := by
    intro m
    unfold setMask
    exact .ite rfl rfl
  refine .ite (((h _).mono rfl).then (G := { reqs := true }) (by rfl)) ?_
  exact (((h _).mono rfl).then (G := { reqs := true }) (by rfl)).then (record_within _ _ _ _)

/-- What the stop or the restart of the conditioner may write. -/
def conditionerScope : Scope := { slotMask := true, vaultMask := true, windows := true, reqs := true, random := true, evr := true }

theorem stopConditioner_within (s : State) : Within conditionerScope s (stopConditioner s) := by
  unfold stopConditioner
  exact .ite (.refl s) (((Within.refl s).then (G := { windows := true, random := true }) (by rfl)).then (chainMask_within _ _) |>.then (chainMask_within _ _))

theorem checkConditioner_within (s : State) : Within conditionerScope s (checkConditioner s) := by
  unfold checkConditioner
  exact .ite (stopConditioner_within s) (.refl s)

theorem restartConditioner_within (s : State) : Within conditionerScope s (restartConditioner s) := by
  unfold restartConditioner
  exact .ite rfl (.refl s)

/-- What the random settings of a configuration may write as they take effect. -/
def randomSettingsScope : Scope := { conditionerScope with chans := true, bays := true, alarm := true }

theorem randomSettings_within (s : State) (c0 : Cfg) : Within randomSettingsScope s (randomSettings s c0) := by
  unfold randomSettings
  extract_lets s1 old s2
  have h1 : Within randomSettingsScope s s1 := ((holdCutoffs_within s c0).mono rfl).then (failuresAlarm_within _)
  have h2 : Within randomSettingsScope s s2 :=
    h1.then (Within.each (F := { bays := true, reqs := true }) (fun s b => .ite (askReseed_within _ _ _) (.refl s)) _ s1)
  exact .ite h2 ((h2.then (checkConditioner_within _)).then (restartConditioner_within _))

/-! ## The restore of the configuration (R344) -/

theorem freshCfgLog_within (s : State) : Within { cfgLog := true, devCtr := true } s (freshCfgLog s) := rfl

theorem compactCfg_within (s : State) : Within { cfgLog := true, devCtr := true } s (compactCfg s) := by
  unfold compactCfg
  exact .ite (.refl s) (freshCfgLog_within s)

theorem appendCfgLog_within (s : State) (e : CfgEntry) : Within { cfgLog := true, devCtr := true } s (appendCfgLog s e) := by
  unfold appendCfgLog
  exact Within.trans (by rfl) (compactCfg_within _)

theorem cutDurable_within (s : State) : Within { joints := true, cutRing := true, cfgLog := true, devCtr := true } s (cutDurable s) := by
  unfold cutDurable
  split
  · refine .ite (.refl s) (Within.trans ?_ (.each (fun s e => (modJoint_within s _ _).mono rfl) _ _))
    exact Within.trans (by rfl) ((appendCfgLog_within _ _).mono rfl)
  · exact .refl s

/-- The log's own epoch is kept under a number of its own (R343). -/
theorem devCounter_freshCfgLog {s : State} {n : Nat} (h : n ≠ 51) : devCounter (freshCfgLog s) n = devCounter s n :=
  devCounter_setDevCounter_other _ _ _ _ h

theorem devCounter_compactCfg {s : State} {n : Nat} (h : n ≠ 51) : devCounter (compactCfg s) n = devCounter s n := by
  unfold compactCfg
  split
  · rfl
  · exact devCounter_freshCfgLog h

/-- The configuration that the restore of an accepted log leaves, before it is put in force: the epoch goes past the cuts made in DEBUG. -/
def cutsCounted (s : State) (best latest : Nat) : State :=
  if latest < devCounter (setDevCounter s 51 best) 1 then nextEpoch (setDevCounter s 51 best) else setDevCounter s 51 best

theorem nextEpoch_within (s : State) : Within { joints := true, cutRing := true, cfgLog := true, devCtr := true } s (nextEpoch s) := by
  unfold nextEpoch
  extract_lets e s1
  have h1 : Within { joints := true, cutRing := true, cfgLog := true, devCtr := true } s s1 := .ite (cutDurable_within s) (.refl s)
  exact h1.then (G := { cutRing := true, devCtr := true }) (by rfl)

theorem cutsCounted_within (s : State) (best latest : Nat) :
    Within { joints := true, cutRing := true, cfgLog := true, devCtr := true } s (cutsCounted s best latest) := by
  unfold cutsCounted
  have h : Within { joints := true, cutRing := true, cfgLog := true, devCtr := true } s (setDevCounter s 51 best) := rfl
  exact .ite (h.then (nextEpoch_within _)) h

theorem devCounter_nextEpoch (s : State) : devCounter (nextEpoch s) 1 = devCounter s 1 + 1 := devCounter_setDevCounter_same _ _ _

theorem devCounter_cutsCounted (s : State) (best latest : Nat) : devCounter (cutsCounted s best latest) 1 =
    devCounter s 1 + (if latest < devCounter s 1 then 1 else 0) := by
  have h : devCounter (setDevCounter s 51 best) 1 = devCounter s 1 := devCounter_setDevCounter_other _ _ _ _ (by decide)
  unfold cutsCounted
  rw [h]
  split
  · rw [devCounter_nextEpoch, h]
  · exact h

theorem installCfg_within (s : State) (c : Cfg) (epoch : Nat) :
    Within { ctl := true, routes := true, acu := true } s (installCfg s c epoch) := by
  simp [Within, installCfg]

/-- The configuration as a rejected log leaves it: empty, at the epoch kept (R344). -/
def cfgEmptied (s : State) : State :=
  { installCfg s {} (devCounter s 1) with ctl := { (installCfg s {} (devCounter s 1)).ctl with cfgRejected := true } }

theorem cfgEmptied_within (s : State) : Within { ctl := true, routes := true, acu := true } s (cfgEmptied s) := by
  simp [Within, cfgEmptied, installCfg]

/-- What the restore of the configuration may write. -/
def restoreCfgScope : Scope :=
  { randomSettingsScope with joints := true, cutRing := true, cfgLog := true, ctl := true, routes := true, acu := true, devCtr := true }

/-- A rejected configuration log leaves an empty configuration at the epoch kept. -/
theorem restoreCfgLog_rejects {s : State} {seen : Option Nat} (h : epochOk (devCounter s 51) (seen.getD (devCounter s 51)) = false) :
    Within restoreCfgScope s (restoreCfgLog s seen) ∧ (restoreCfgLog s seen).ctl.cfg = {} ∧
      (restoreCfgLog s seen).ctl.cfgRejected = true ∧ (restoreCfgLog s seen).ctl.epoch = devCounter s 1 := by
  have heq : restoreCfgLog s seen =
      randomSettings (logRejected (cfgEmptied s) 3 (seen.getD (devCounter s 51))) s.ctl.cfg := if_pos h
  have hrec : Within { evr := true } (cfgEmptied s) (logRejected (cfgEmptied s) 3 (seen.getD (devCounter s 51))) :=
    record_within _ _ _ _
  have hset := (hrec.mono (G := { randomSettingsScope with evr := true }) rfl).then (randomSettings_within _ s.ctl.cfg)
  rw [heq]
  exact ⟨((cfgEmptied_within s).mono rfl).then hset, hset.same (·.ctl.cfg), hset.same (·.ctl.cfgRejected), hset.same (·.ctl.epoch)⟩

/-- An accepted one leaves the configuration that its entries and the ring of cuts come to, at the epoch of the cuts counted. -/
theorem restoreCfgLog_accepts {s : State} {seen : Option Nat} (h : epochOk (devCounter s 51) (seen.getD (devCounter s 51)) = true) :
    Within restoreCfgScope s (restoreCfgLog s seen) ∧
      (restoreCfgLog s seen).ctl.cfg = (replayCfg (readableLog s) s.ctl.cutRing).1 ∧
      (restoreCfgLog s seen).ctl.cfgRejected = s.ctl.cfgRejected ∧
      (restoreCfgLog s seen).ctl.epoch = devCounter s 1 + (if (replayCfg (readableLog s) s.ctl.cutRing).2 < devCounter s 1 then 1 else 0) := by
  have heq : restoreCfgLog s seen = randomSettings (installCfg (cutsCounted s (seen.getD (devCounter s 51))
      (replayCfg (readableLog s) s.ctl.cutRing).2) (replayCfg (readableLog s) s.ctl.cutRing).1
      (devCounter (cutsCounted s (seen.getD (devCounter s 51)) (replayCfg (readableLog s) s.ctl.cutRing).2) 1)) s.ctl.cfg :=
    if_neg (ne_false_of_eq_true h)
  generalize hw : cutsCounted s (seen.getD (devCounter s 51)) (replayCfg (readableLog s) s.ctl.cutRing).2 = w at heq
  have hcut := cutsCounted_within s (seen.getD (devCounter s 51)) (replayCfg (readableLog s) s.ctl.cutRing).2
  have hepoch := devCounter_cutsCounted s (seen.getD (devCounter s 51)) (replayCfg (readableLog s) s.ctl.cutRing).2
  rw [hw] at hcut hepoch
  have hset := randomSettings_within (installCfg w (replayCfg (readableLog s) s.ctl.cutRing).1 (devCounter w 1)) s.ctl.cfg
  rw [heq]
  refine ⟨((hcut.mono rfl).then (installCfg_within _ _ _)).then hset, hset.same (·.ctl.cfg), ?_, ?_⟩
  · exact (hset.same (·.ctl.cfgRejected)).trans (hcut.same (·.ctl.cfgRejected))
  · exact (hset.same (·.ctl.epoch)).trans hepoch

/-! ## The restore of journal and keys (R154, R269, R291) -/

theorem logRejected_within (s : State) (log best : Nat) : Within { evr := true } s (logRejected s log best) := record_within _ _ _ _

theorem readJournal_within (s : State) (env : StepEnv) : Within { journal := true } s (readJournal s env) := by
  simp [Within, readJournal]

theorem readKeyLog_within (s : State) (env : StepEnv) : Within { klog := true } s (readKeyLog s env) := by
  simp [Within, readKeyLog]

theorem jourBest_congr {s u : State} (hv : u.vault = s.vault) (hj : u.keys.journal = s.keys.journal) : jourBest u = jourBest s := by
  have he : jourEpochs u = jourEpochs s := by
    funext l
    unfold jourEpochs jourValid
    rw [hv]
  unfold jourBest
  rw [he, hj]

/-- What the journal in flash comes to depends on vault and journal alone. -/
theorem readJournal_best_congr {s u : State} (env : StepEnv) (hv : u.vault = s.vault) (hj : u.keys.journal = s.keys.journal) :
    jourBest (readJournal u env) = jourBest (readJournal s env) := by
  refine jourBest_congr (((readJournal_within u env).same (·.vault)).trans (hv.trans ((readJournal_within s env).same (·.vault)).symm)) ?_
  obtain ⟨_, _, _, uv, uk⟩ := u
  obtain ⟨_, _, _, sv, sk⟩ := s
  obtain rfl : uv = sv := hv
  obtain ⟨⟩ := uk
  obtain ⟨⟩ := sk
  obtain rfl := hj
  rfl

theorem restoreJournal_accepts {s : State} (h : epochOk s.vault.journalEpoch (jourBest s) = true) :
    restoreJournal s = { s with vault := { s.vault with journalEpoch := jourBest s } } := if_pos h

theorem restoreJournal_rejects {s : State} (h : epochOk s.vault.journalEpoch (jourBest s) = false) :
    (restoreJournal s).keys.journal.rejected = true := by
  unfold restoreJournal
  dsimp only
  rw [if_neg (ne_true_of_eq_false h)]
  exact (logRejected_within _ _ _).same (·.keys.journal.rejected)

theorem restoreJournal_within (s : State) : Within { vault := true, journal := true, evr := true } s (restoreJournal s) := by
  unfold restoreJournal
  exact .ite rfl (Within.then (by rfl) (logRejected_within _ _ _))

/-- What the restore of the keys may write once the journal is read; the epoch of the journal stands. -/
def Replays (s u : State) : Prop :=
  Within { vault := true, slots := true, klog := true, keys := true, cnt := true, evr := true } s u ∧
    u.vault.journalEpoch = s.vault.journalEpoch

theorem Replays.refl (s : State) : Replays s s := ⟨.refl s, rfl⟩

theorem Replays.trans {s u v : State} (h : Replays s u) (h' : Replays u v) : Replays s v := ⟨h.1.trans h'.1, h'.2.trans h.2⟩

theorem Replays.record {s u : State} (h : Replays s u) (code source : Nat) (args : Bytes) : Replays s (record u code source args) :=
  ⟨h.1.then (record_within u _ _ _), ((record_within u _ _ _).same (·.vault.journalEpoch)).trans h.2⟩

theorem Replays.each {α : Type} {f : State → α → State} (h : ∀ s a, Replays s (f s a)) (xs : List α) (s : State) :
    Replays s (each xs s f) :=
  each_keeps (P := fun w => Replays s w) (fun w a hw => hw.trans (h w a)) xs (.refl s)

theorem clearBacked_replays (s : State) (faults : List Nat) : Replays s (clearBacked s faults) := by
  unfold clearBacked
  exact .each (fun s e => Replays.record ⟨by rfl, by rfl⟩ _ _ _) _ s

theorem applyPending_replays (s : State) (log : Map Slot) : Replays s (applyPending s log) := by
  unfold applyPending
  refine .each (fun s e => ?_) _ s
  dsimp only
  split
  · exact Replays.record ⟨by rfl, by rfl⟩ _ _ _
  · split <;> exact ⟨by rfl, by rfl⟩

/-- The slots as an accepted log describes them, before the pending list is applied (R291). -/
def slotsRestored (s : State) : State :=
  { s with
    vault := { s.vault with keyLogEpoch := keyBest s }
    keys := { s.keys with slots := (replayKeys (keyLogRecs s) s.ctl.epoch).map (fun e =>
      (e.1, restoreSlot s (journalRecs s) s.keys.journal.rejected e.1 e.2)) } }

theorem loadKeys_replays (s : State) : Replays s (loadKeys s) := by
  have h1 : Replays s (slotsRestored s) := ⟨by simp [Within, slotsRestored], rfl⟩
  have h2 := h1.trans (applyPending_replays (slotsRestored s) (replayKeys (keyLogRecs s) s.ctl.epoch))
  have he : ∀ w : State, Replays w (setCounter { w with keys := { w.keys with ext := extOf w.keys.slots } } (odKey 0x6002 2)
      (orphansIn { w with keys := { w.keys with ext := extOf w.keys.slots } })) := fun w => ⟨by simp [Within, setCounter], rfl⟩
  exact h2.trans (he _)

/-- The keys' part of the restore, where the latch register tells of no CLEAR-KEYS on backup: the key log is accepted or rejected. -/
theorem restoreKeys_replays {s : State} {env : StepEnv} (hr : s.vault.rootAbsent = false) (hk : s.backup.latch.keysDone = false) :
    Replays (restoreJournal (readKeyLog (readJournal s env) env)) (restoreKeys s env) := by
  unfold restoreKeys
  rw [if_neg (ne_true_of_eq_false hr)]
  dsimp only
  have h1 := clearBacked_replays (restoreJournal (readKeyLog (readJournal s env) env)) env.vaultFaults
  generalize clearBacked (restoreJournal (readKeyLog (readJournal s env) env)) env.vaultFaults = s1 at h1 ⊢
  have hb : s1.backup.latch.keysDone = false := by
    have hj := (restoreJournal_within (readKeyLog (readJournal s env) env)).same (·.backup.latch.keysDone)
    exact (h1.1.same (·.backup.latch.keysDone)).trans (hj.trans (((readKeyLog_within _ env).same (·.backup.latch.keysDone)).trans
      (((readJournal_within s env).same (·.backup.latch.keysDone)).trans hk)))
  rw [if_neg (fun h => absurd (h.1.symm.trans hb) (by decide))]
  split
  · exact h1.trans (loadKeys_replays s1)
  · exact h1.trans (Replays.record ⟨by simp [Within], by rfl⟩ _ _ _)

/-- A journal that is not the one last written is rejected; any other gives its epoch. -/
theorem restoreKeys_journal {s : State} {env : StepEnv} (hr : s.vault.rootAbsent = false) (hk : s.backup.latch.keysDone = false) :
    (epochOk s.vault.journalEpoch (jourBest (readJournal s env)) = false → (restoreKeys s env).keys.journal.rejected = true) ∧
    (epochOk s.vault.journalEpoch (jourBest (readJournal s env)) = true →
      (restoreKeys s env).vault.journalEpoch = jourBest (readJournal s env)) := by
  obtain ⟨hwithin, hepoch⟩ := restoreKeys_replays (env := env) hr hk
  have hlog := readKeyLog_within (readJournal s env) env
  have hbest : jourBest (readKeyLog (readJournal s env) env) = jourBest (readJournal s env) :=
    jourBest_congr (hlog.same (·.vault)) (hlog.same (·.keys.journal))
  have hold : (readKeyLog (readJournal s env) env).vault.journalEpoch = s.vault.journalEpoch :=
    (hlog.same (·.vault.journalEpoch)).trans ((readJournal_within s env).same (·.vault.journalEpoch))
  rw [← hbest, ← hold]
  refine ⟨fun h => ?_, fun h => ?_⟩
  · exact (hwithin.same (·.keys.journal.rejected)).trans (restoreJournal_rejects h)
  · rw [hepoch, restoreJournal_accepts h]

theorem restoreKeys_rootless {s : State} (env : StepEnv) (h : s.vault.rootAbsent = true) :
    (restoreKeys s env).keys.slots = s.keys.slots := by
  unfold restoreKeys
  rw [if_pos h]

/-- What the restore of journal and keys may write. -/
def restoreKeysScope : Scope :=
  { vault := true, slots := true, klog := true, journal := true, keys := true, modes := true, alarm := true, cnt := true, evr := true }

theorem snapshotKeys_within (s : State) :
    Within { klog := true, vault := true, modes := true, alarm := true, cnt := true, evr := true } s (snapshotKeys s) := by
  have h1 : Within { klog := true, vault := true, modes := true, alarm := true, cnt := true, evr := true } s
      (each (corruptSlots s) s (fun s _ => raiseFabric s islHub islControl memSlots)) :=
    .each (fun s _ => (raiseFabric_within s _ _ _).mono rfl) _ s
  exact h1.then (G := { klog := true, vault := true }) (by simp [Within, snapshotKeys])

theorem freshLogs_within (s : State) : Within restoreKeysScope s (freshLogs s) := by
  have h1 : Within restoreKeysScope s (newKeyLog s) := Within.then (by rfl) (snapshotKeys_within _)
  unfold freshLogs
  refine .ite h1 (h1.then (G := { vault := true, journal := true, cnt := true }) ?_)
  simp [Within, snapshotJournal, bumpBy]

theorem restoreKeys_within (s : State) (env : StepEnv) : Within restoreKeysScope s (restoreKeys s env) := by
  have h0 : Within restoreKeysScope s (readKeyLog (readJournal s env) env) :=
    ((readJournal_within s env).mono rfl).then (readKeyLog_within _ env)
  have h1 := (h0.then (restoreJournal_within _)).then (clearBacked_replays _ env.vaultFaults).1
  unfold restoreKeys
  dsimp only
  generalize clearBacked (restoreJournal (readKeyLog (readJournal s env) env)) env.vaultFaults = s1 at h1 ⊢
  exact .ite rfl (.ite (h1.trans (freshLogs_within s1))
    (.ite (h1.then (loadKeys_replays s1).1) (h1.trans (Within.then (by simp [Within, restoreKeysScope]) (logRejected_within _ _ _)))))

end Sys2Proof.Machine
end

section
/-! SUPPORT. The steps of a start (R361 to R365, R391, R397, R440): what the end of each leaves. -/

namespace Sys2Proof.Machine

open Sys2Proof Sys2Proof.Safety

/-! ## The end of a step -/

/-- The power state as the next step begins, after so many microseconds of this one. -/
def stepTaken (s : State) (us : Nat) : State :=
  { s with power := { s.power with step := min 12 (s.power.step + 1), stepUs := s.power.stepUs ++ [us] } }

theorem nextStep_eq (s : State) (us : Nat) (h : s.power.step < 11) : nextStep s us = stepTaken s us := by
  unfold nextStep stepTaken
  dsimp only
  rw [if_neg (by omega)]

section
variable {s : State} {env : StepEnv} (hp : s.power.pwrGood = true) (hr : s.power.resetLow = false) (h1 : 1 ≤ s.power.step)
  (h11 : s.power.step ≤ 11) (hs : s.power.stop = .running) (ho : s.power.step = 9 → rootOwed s = false)
include hp hr h1 h11 hs ho

/-- The end of a step that stops nothing begins the next. -/
theorem stepDone_goesOn (hw : (startStep s env s.power.step).power.stop = .running) :
    stepDone s env = nextStep (startStep s env s.power.step) env.us := by
  have hstart : starting s = true := by simp [starting, hp, hr, h1, h11]
  unfold stepDone
  rw [if_neg]
  · exact if_pos hw
  · rintro (h | h | ⟨h9, h⟩)
    · exact absurd (h.symm.trans hstart) (by decide)
    · exact h hs
    · exact absurd ((ho h9).symm.trans h) (by decide)

/-- Of a step before the last, whose effect leaves the power state to the recording of modes, the next begins. -/
theorem stepDone_taken {m : Nat} (hw : (startStep s env s.power.step).power = { s.power with modes := m }) (h : s.power.step < 11) :
    stepDone s env = stepTaken (startStep s env s.power.step) env.us := by
  rw [stepDone_goesOn hp hr h1 h11 hs ho (by rw [hw]; exact hs), nextStep_eq _ _ (by rw [hw]; exact h)]

end

/-! ## Step 2: the vote -/

/-- The vote, where it does not come to SCRAPPED. -/
theorem startVote_votes {s : State} (h : lcVote (fuseRow s (rowInForce s)) ≠ 5) : startVote s =
    { s with life := { s.life with
      st := lcVote (fuseRow s (rowInForce s)), target := openTransition (fuseRow s (rowInForce s))
      pending := (openTransition (fuseRow s (rowInForce s))).isSome } } := if_neg (fun hc => h hc.1)

/-! ## Step 5: vault and latches -/

theorem latchFrom_within (s : State) (mons cls : Nat) : Within { alarm := true } s (latchFrom s mons cls) := by
  have h1 : Within { alarm := true } s
      (each (upTo 14) s (fun s m => if bitOf mons m then modMon s m (fun x => { x with latched := true }) else s)) :=
    .each (fun s m => .ite (modMon_within s _ _) (.refl s)) _ s
  exact h1.trans (by rfl)

/-- The records of a mark follow its latches. -/
theorem rebuildMark_evr (s : State) (mark : Nat) :
    Within { evr := true } (latchFrom s (mark % 2 ^ 14) (bits mark 14 3)) (rebuildMark s mark) :=
  .each (fun _ _ => by rfl) _ _

theorem rebuildMark_within (s : State) (mark : Nat) : Within { alarm := true, evr := true } s (rebuildMark s mark) :=
  ((latchFrom_within s _ _).mono rfl).then (rebuildMark_evr s mark)

/-- A latch that a monitor has, it has still when others are set. -/
theorem modMon_latched {s : State} {m k : Nat} (h : (getMon s m).latched = true) :
    (getMon (modMon s k (fun x => { x with latched := true })) m).latched = true := by
  by_cases hk : m = k
  · rw [hk, getMon_modMon_same]
  · rw [getMon_modMon_other _ _ _ _ hk]
    exact h

theorem latchTurn_keeps {mons m : Nat} (s : State) (k : Nat) (h : (getMon s m).latched = true) :
    (getMon (if bitOf mons k then modMon s k (fun x => { x with latched := true }) else s) m).latched = true := by
  split
  · exact modMon_latched h
  · exact h

/-- The latches of the register are set. -/
theorem latchFrom_latches (s : State) {mons m : Nat} (cls : Nat) (hm : m < 14) (hb : bitOf mons m = true) :
    (getMon (latchFrom s mons cls) m).latched = true := by
  show (getMon (each (upTo 14) s _) m).latched = true
  refine each_reaches (P := fun u => (getMon u m).latched = true) (List.mem_range.2 hm) (fun u => ?_) (fun u k => latchTurn_keeps u k) s
  rw [if_pos hb, getMon_modMon_same]

theorem latchFrom_keeps {s : State} {m : Nat} (mons cls : Nat) (h : (getMon s m).latched = true) :
    (getMon (latchFrom s mons cls) m).latched = true :=
  each_keeps (P := fun u => (getMon u m).latched = true) (fun u k => latchTurn_keeps u k) (upTo 14) h

theorem rebuildMark_keeps {m : Nat} (s : State) (mark : Nat) (h : (getMon s m).latched = true) :
    (getMon (rebuildMark s mark) m).latched = true :=
  ((rebuildMark_evr s mark).same (fun u => (getMon u m).latched)).trans (latchFrom_keeps _ _ h)

/-- What the vault check writes. -/
theorem vaultCheck_sound {s : State} (h : vaultSound s = true) :
    Within { keys := true } s (vaultCheck s) ∧ (vaultCheck s).keys.identity = some (Bytes.ofNatBE 48 (identityScalar s.vault.root)) := by
  unfold vaultCheck
  rw [if_pos h]
  exact ⟨by simp [Within, setIdentity], rfl⟩

theorem vaultCheck_unsound {s : State} (h : vaultSound s = false) :
    Within { vault := true, free := true, evr := true } s (vaultCheck s) ∧ (vaultCheck s).vault = { s.vault with rootAbsent := true } := by
  unfold vaultCheck
  rw [if_neg (ne_true_of_eq_false h)]
  have hrec := recordExempt_within { s with vault := { s.vault with rootAbsent := true }, free := s.free + 1 } (unnamedCode s) srcDevice []
  exact ⟨Within.then (by rfl) hrec, hrec.same (·.vault)⟩

/-- After the vault check step 5 writes alarms and the recorder, and sets the latches that the backup domain kept. -/
theorem startVault_latches (s : State) : Within { alarm := true, evr := true } (vaultCheck s) (startVault s) ∧
    ∀ m, m < 14 → bitOf (vaultCheck s).backup.latch.mons m = true → (getMon (startVault s) m).latched = true := by
  unfold startVault
  dsimp only
  generalize vaultCheck s = v
  have h1 := latchFrom_within v v.backup.latch.mons v.backup.latch.cls
  have h2 (m : Nat) (hm : m < 14) (hb : bitOf v.backup.latch.mons m = true) := latchFrom_latches v v.backup.latch.cls hm hb
  generalize latchFrom v v.backup.latch.mons v.backup.latch.cls = w at h1 h2 ⊢
  refine ⟨?_, fun m hm hb => ?_⟩
  · refine (Within.trans ?_ (.each (fun s k => rebuildMark_within s k) _ _)).trans (by rfl)
    exact (h1.mono rfl).trans (by rfl)
  · exact each_keeps (P := fun u => (getMon u m).latched = true) (fun u k => rebuildMark_keeps u k) _ (h2 m hm hb)

/-! ## Step 11: the instances -/

theorem mget_filter_key {β : Type} (d : β) (m : Map β) (p : Nat → Bool) (k : Nat) :
    mget d (m.filter (fun e => p e.1)) k = if p k then mget d m k else d := by
  induction m with
  | nil => simp
  | cons e rest ih =>
    obtain ⟨j, v⟩ := e
    by_cases hj : j = k
    · subst hj
      cases hp : p j <;> simp [mget, ih, hp]
    · cases hp : p j <;> simp [mget, ih, hp, hj]

/-- An assigned instance as service begins. -/
def startedInst (s : State) (i : Nat) (x : Inst) : Inst := atBursts s i (if x.st = 5 then x else { st := 1 })

theorem startedInst_idem (s : State) (i : Nat) (x : Inst) : startedInst s i (startedInst s i x) = startedInst s i x := by
  unfold startedInst
  by_cases h : x.st = 5
  · rw [if_pos h, if_pos (show (atBursts s i x).st = 5 from h)]
    rfl
  · rw [if_neg h, if_neg (show (atBursts s i { st := 1 }).st ≠ 5 from (by decide : (1 : Nat) ≠ 5))]

theorem restoreInst_within (s : State) (i : Nat) : Within { insts := true } s (restoreInst s i) := rfl

theorem getInst_restoreInst (s : State) (i k : Nat) :
    getInst (restoreInst s i) k = if k = i then startedInst s i (getInst s i) else getInst s k := by
  unfold restoreInst
  split
  · next h =>
    rw [h, getInst_modInst_same]
    rfl
  · next h => exact getInst_setInst_other _ _ _ _ h

theorem getInst_each_restoreInst (is : List Nat) (s : State) (k : Nat) :
    getInst (each is s restoreInst) k = if k ∈ is then startedInst s k (getInst s k) else getInst s k := by
  induction is generalizing s with
  | nil => rfl
  | cons i rest ih =>
    show getInst (each rest (restoreInst s i) restoreInst) k = _
    rw [ih, getInst_restoreInst]
    have hs : ∀ x, startedInst (restoreInst s i) k x = startedInst s k x := fun _ => rfl
    by_cases hk : k = i
    · subst hk
      simp only [hs, if_true, List.mem_cons, true_or, startedInst_idem, ite_self]
    · simp only [hs, List.mem_cons, hk, false_or, if_false]

/-- Service finds every assigned instance saved, or active and clean, and no other. -/
theorem getInst_restoreInsts (s : State) (i : Nat) :
    getInst (restoreInsts s) i = if i ∈ assignedIn s.ctl.cfg then startedInst s i (getInst s i) else {} := by
  have hf : getInst { s with insts := s.insts.filter (fun e => (assignedIn s.ctl.cfg).contains e.1) } i =
      if (assignedIn s.ctl.cfg).contains i then getInst s i else {} :=
    mget_filter_key ({} : Inst) s.insts (fun k => (assignedIn s.ctl.cfg).contains k) i
  unfold restoreInsts
  dsimp only
  rw [getInst_each_restoreInst, hf]
  by_cases hi : i ∈ assignedIn s.ctl.cfg
  · rw [if_pos hi, if_pos hi, if_pos (List.contains_iff_mem.2 hi)]
    rfl
  · rw [if_neg hi, if_neg hi, if_neg (fun h => hi (List.contains_iff_mem.1 h))]

theorem startService_within (s : State) : Within { insts := true, fw := true, evr := true } s (startService s) := by
  have h1 : Within { insts := true } s (restoreInsts s) :=
    Within.trans (u := { s with insts := s.insts.filter (fun e => (assignedIn s.ctl.cfg).contains e.1) }) (by rfl)
      (.each (fun s i => restoreInst_within s i) _ _)
  unfold startService
  exact ((h1.mono rfl).trans (.ite (by rfl) (.refl _))).then (record_within _ _ _ _)

theorem startService_insts (s : State) : (startService s).insts = (restoreInsts s).insts := by
  unfold startService
  dsimp only
  rw [record_insts]
  split <;> rfl

theorem noteMark_within (s : State) : Within { fw := true, vault := true } s (noteMark s) := by
  unfold noteMark
  exact .ite (by rfl) (by rfl)

theorem sourceRead_within (s : State) (src : Bytes) (block : Nat) : Within { outbox := true } s (sourceRead s src block) := rfl

/-- The beginning of an activation writes firmware state, the vault's mark, and asks its source for a block. -/
theorem tryBegin_within (s : State) : Within { fw := true, vault := true, outbox := true } s (tryBegin s) := by
  unfold tryBegin
  refine .ite ?_ (.refl s)
  dsimp only
  split
  · refine Within.then (Within.then ?_ (noteMark_within _)) (sourceRead_within _ _ _)
    simp [Within]
  · refine Within.then ?_ (noteMark_within _)
    simp [Within]

/-! ## Step 4 again: enrolment (R391) -/

theorem bindEnvelope_within (s : State) (a : EnvAnswer) : Within { outbox := true } s (bindEnvelope s a) := by
  unfold bindEnvelope
  exact .ite rfl (.refl s)

theorem enrolRecord_chip (s : State) (a : EnvAnswer) (nets : List NetReading) :
    (enrolRecord s a nets).serial = a.serial ∧ (enrolRecord s a nets).pubKey = a.pubKey := by
  unfold enrolRecord
  dsimp only
  split
  · split
    · next h => exact ⟨h, rfl⟩
    · exact ⟨rfl, rfl⟩
  · exact ⟨rfl, rfl⟩

/-- An Envelope that passes is enrolled. -/
theorem enrol_passes {s : State} {a : EnvAnswer} {nets : List NetReading}
    (h : enrolFails (readEnvelope s a).backup.authCount a nets = none) :
    (enrol s a nets).1 = true ∧ Within { backup := true, outbox := true, evr := true } s (enrol s a nets).2 ∧
      (∃ r, (enrol s a nets).2.backup.env = some r ∧ r.serial = a.serial ∧ r.pubKey = a.pubKey) ∧
      (enrol s a nets).2.backup.envGood = true ∧ (enrol s a nets).2.backup.meshFails = [] := by
  unfold enrol
  dsimp only
  rw [h]
  dsimp only
  have hb := bindEnvelope_within (readEnvelope s a) a
  obtain ⟨hserial, hkey⟩ := enrolRecord_chip (bindEnvelope (readEnvelope s a) a) a nets
  have hread : Within { backup := true, outbox := true, evr := true } s (bindEnvelope (readEnvelope s a) a) := Within.then (by rfl) hb
  generalize bindEnvelope (readEnvelope s a) a = w at *
  refine ⟨rfl, ?_, ⟨enrolRecord w a nets, ?_, hserial, hkey⟩, ?_, ?_⟩
  · exact (hread.then (G := { backup := true }) (by rfl)).then (record_within _ _ _ _)
  · rw [record_evr]
  · rw [record_evr]
  · rw [record_evr]

/-! ## The command -/

theorem exec_startupStepDone (t : Nat) (env : StepEnv) (s : State) :
    exec (.startupStepDone t env) s = .next (settle (stepDone (at_ s t) env)) := rfl

section
variable {s : State} {t : Nat} {env : StepEnv} (hp : s.power.pwrGood = true) (hr : s.power.resetLow = false) (hs : s.power.stop = .running)
include hp hr hs

/-- The end of a step before the last, of a number that owes nothing, begins the next step: the machine records a change of modes over
the state that the step's effect leaves. -/
theorem startupStep_taken {n : Nat} (hn : s.power.step = n) (h1 : 1 ≤ n) (h11 : n < 11) (ho : n = 9 → rootOwed s = false)
    {m : Nat} (hw : (startStep (at_ s t) env n).power = { s.power with modes := m }) :
    ∃ u, exec (.startupStepDone t env) s = .next u ∧ Beside (stepTaken (startStep (at_ s t) env n) env.us) u ∧ u.power.step = n + 1 ∧
      u.power.stepUs = s.power.stepUs ++ [env.us] := by
  have hd : stepDone (at_ s t) env = stepTaken (startStep (at_ s t) env n) env.us := by
    rw [stepDone_taken (s := at_ s t) hp hr (hn ▸ h1) (hn ▸ Nat.le_of_lt h11) hs (fun h => ho (hn ▸ h)) (hn ▸ hw) (hn ▸ h11)]
    exact congrArg (fun k => stepTaken (startStep (at_ s t) env k) env.us) hn
  have hb := settle_beside (stepTaken (startStep (at_ s t) env n) env.us)
  refine ⟨_, exec_startupStepDone t env s, hd ▸ hb, ?_, ?_⟩
  · rw [hd, (within_of_beside hb).same (·.power.step)]
    show min 12 ((startStep (at_ s t) env n).power.step + 1) = n + 1
    rw [hw, hn]
    omega
  · rw [hd, (within_of_beside hb).same (·.power.stepUs)]
    show (startStep (at_ s t) env n).power.stepUs ++ [env.us] = _
    rw [hw]

theorem startupStep2 (hn : s.power.step = 2) (hv : lcVote (fuseRow s (rowInForce s)) ≠ 5) :
    ∃ u, exec (.startupStepDone t env) s = .next u ∧ u.life.st = lcVote (fuseRow s (rowInForce s)) ∧ u.power.step = 3 ∧
      u.power.stepUs = s.power.stepUs ++ [env.us] ∧ u.vault = s.vault ∧ u.keys = s.keys ∧ u.ctl = s.ctl := by
  have he : startStep (at_ s t) env 2 = _ := startVote_votes (s := at_ s t) hv
  obtain ⟨u, hu, hb, hstep, hus⟩ := startupStep_taken (t := t) (env := env) hp hr hs hn (by decide) (by decide) (fun h => absurd h (by decide)) (m := s.power.modes) (by rw [he]; rfl)
  rw [he] at hb
  have hw := within_of_beside hb
  exact ⟨u, hu, hw.same (·.life.st), hstep, hus, hw.same (·.vault), hw.same (·.keys), hw.same (·.ctl)⟩

theorem startupStep9 (hn : s.power.step = 9) (ho : rootOwed s = false) :
    ∃ u, exec (.startupStepDone t env) s = .next u ∧
      Beside { at_ s t with power := { s.power with step := 10, stepUs := s.power.stepUs ++ [env.us] } } u := by
  obtain ⟨u, hu, hb, -, -⟩ := startupStep_taken (t := t) (env := env) hp hr hs hn (by decide) (by decide) (fun _ => ho) (m := s.power.modes) rfl
  refine ⟨u, hu, ?_⟩
  have he : stepTaken (startStep (at_ s t) env 9) env.us =
      { at_ s t with power := { s.power with step := 10, stepUs := s.power.stepUs ++ [env.us] } } := by
    show ({ at_ s t with power := { s.power with step := min 12 (s.power.step + 1), stepUs := s.power.stepUs ++ [env.us] } } : State) = _
    rw [hn]
    rfl
  exact he ▸ hb

theorem startupStep5 (hn : s.power.step = 5) :
    ∃ u, exec (.startupStepDone t env) s = .next u ∧ u.power.step = 6 ∧ u.backup = s.backup ∧
      (vaultSound s = true → u.vault = s.vault ∧ u.keys.identity = some (Bytes.ofNatBE 48 (identityScalar s.vault.root))) ∧
      (vaultSound s = false → u.vault = { s.vault with rootAbsent := true } ∧ u.keys = s.keys) ∧
      (∀ m, m < 14 → bitOf s.backup.latch.mons m = true → (getMon u m).latched = true) := by
  have hcheck : Within { keys := true, vault := true, free := true, evr := true } (at_ s t) (vaultCheck (at_ s t)) := by
    cases hv : vaultSound (at_ s t) with
    | true => exact (vaultCheck_sound hv).1.mono rfl
    | false => exact (vaultCheck_unsound hv).1.mono rfl
  obtain ⟨hlate, hlatch⟩ := startVault_latches (at_ s t)
  have hpower : (startStep (at_ s t) env 5).power = s.power := (hlate.same (·.power)).trans (hcheck.same (·.power))
  obtain ⟨u, hu, hb, hstep, -⟩ := startupStep_taken (t := t) (env := env) hp hr hs hn (by decide) (by decide) (fun h => absurd h (by decide)) (m := s.power.modes) hpower
  have hw := within_of_beside hb
  have hvault : u.vault = (vaultCheck (at_ s t)).vault := (hw.same (·.vault)).trans (hlate.same (·.vault))
  have hkeys : u.keys = (vaultCheck (at_ s t)).keys := (hw.same (·.keys)).trans (hlate.same (·.keys))
  have hbackup : (vaultCheck (at_ s t)).backup = s.backup := hcheck.same (·.backup)
  refine ⟨u, hu, hstep, (hw.same (·.backup)).trans ((hlate.same (·.backup)).trans hbackup), fun h => ?_, fun h => ?_, fun m hm hbit => ?_⟩
  · obtain ⟨hk, hid⟩ := vaultCheck_sound (s := at_ s t) h
    exact ⟨hvault.trans (hk.same (·.vault)), (congrArg Keys.identity hkeys).trans hid⟩
  · obtain ⟨hk, hv⟩ := vaultCheck_unsound (s := at_ s t) h
    exact ⟨hvault.trans hv, hkeys.trans (hk.same (·.keys))⟩
  · exact (hw.same (fun v => (getMon v m).latched)).trans (hlatch m hm (by rw [hbackup]; exact hbit))

theorem startupStep10 (hn : s.power.step = 10) (best : Nat) (hbest : best = env.cfgLogSeen.getD (devCounter s 51)) :
    ∃ u, exec (.startupStepDone t env) s = .next u ∧ u.power.step = 11 ∧
      (epochOk (devCounter s 51) best = true →
        u.ctl.cfg = (replayCfg (readableLog s) s.ctl.cutRing).1 ∧ u.ctl.cfgRejected = s.ctl.cfgRejected ∧
        u.ctl.epoch = devCounter s 1 + (if (replayCfg (readableLog s) s.ctl.cutRing).2 < devCounter s 1 then 1 else 0)) ∧
      (epochOk (devCounter s 51) best = false → u.ctl.cfg = {} ∧ u.ctl.cfgRejected = true ∧ u.ctl.epoch = devCounter s 1) ∧
      (s.vault.rootAbsent = true → u.keys.slots = s.keys.slots) ∧
      (s.vault.rootAbsent = false → s.backup.latch.keysDone = false → ∀ n, n = jourBest (readJournal s env) →
        (epochOk s.vault.journalEpoch n = false → u.keys.journal.rejected = true) ∧
        (epochOk s.vault.journalEpoch n = true → u.vault.journalEpoch = n)) := by
  subst hbest
  have hcfg : Within restoreCfgScope (at_ s t) (restoreCfgLog (at_ s t) env.cfgLogSeen) := by
    cases h : epochOk (devCounter (at_ s t) 51) (env.cfgLogSeen.getD (devCounter (at_ s t) 51)) with
    | true => exact (restoreCfgLog_accepts h).1
    | false => exact (restoreCfgLog_rejects h).1
  have hkeys := restoreKeys_within (restoreCfgLog (at_ s t) env.cfgLogSeen) env
  have hpower : (startStep (at_ s t) env 10).power = { s.power with modes := (startStep (at_ s t) env 10).power.modes } := by
    have hm := hkeys.powerModes
    rw [hcfg.same (·.power)] at hm
    exact hm
  obtain ⟨u, hu, hb, hstep, -⟩ := startupStep_taken (t := t) (env := env) hp hr hs hn (by decide) (by decide) (fun h => absurd h (by decide)) hpower
  have hw := within_of_beside hb
  have hctl : u.ctl = (restoreCfgLog (at_ s t) env.cfgLogSeen).ctl := (hw.same (·.ctl)).trans (hkeys.same (·.ctl))
  have hjournal : jourBest (readJournal (restoreCfgLog (at_ s t) env.cfgLogSeen) env) = jourBest (readJournal s env) :=
    readJournal_best_congr env (hcfg.same (·.vault)) (hcfg.same (·.keys.journal))
  refine ⟨u, hu, hstep, fun h => ?_, fun h => ?_, fun h => ?_, fun h hk n hn => ?_⟩
  · rw [hctl]
    exact (restoreCfgLog_accepts (s := at_ s t) h).2
  · rw [hctl]
    exact (restoreCfgLog_rejects (s := at_ s t) h).2
  · have hslots := restoreKeys_rootless (s := restoreCfgLog (at_ s t) env.cfgLogSeen) env ((hcfg.same (·.vault.rootAbsent)).trans h)
    exact (hw.same (·.keys.slots)).trans (hslots.trans (hcfg.same (·.keys.slots)))
  · obtain ⟨hrej, hacc⟩ := restoreKeys_journal (s := restoreCfgLog (at_ s t) env.cfgLogSeen) (env := env)
      ((hcfg.same (·.vault.rootAbsent)).trans h) ((hcfg.same (·.backup.latch.keysDone)).trans hk)
    rw [hjournal, hcfg.same (·.vault.journalEpoch), ← hn] at hrej hacc
    exact ⟨fun he => (hw.same (·.keys.journal.rejected)).trans (hrej he), fun he => (hw.same (·.vault.journalEpoch)).trans (hacc he)⟩

theorem startupStep11 (hn : s.power.step = 11) :
    ∃ u, exec (.startupStepDone t env) s = .next u ∧ u.power.step = 12 ∧ serving u = true ∧
      (∀ i ∈ assignedIn s.ctl.cfg, getInst u i = atBursts (at_ s t) i (if (getInst s i).st = 5 then getInst s i else { st := 1 })) ∧
      (∀ i, i ∉ assignedIn s.ctl.cfg → getInst u i = {}) := by
  have hservice := startService_within (at_ s t)
  have hpower : (startService (at_ s t)).power = s.power := hservice.same (·.power)
  have hstart : startStep (at_ s t) env (at_ s t).power.step = startService (at_ s t) :=
    congrArg (startStep (at_ s t) env) hn
  have hd : stepDone (at_ s t) env = nextStep (startService (at_ s t)) env.us := by
    rw [stepDone_goesOn (s := at_ s t) hp hr (by rw [at__power, hn]; decide) (Nat.le_of_eq hn) hs
      (fun h => absurd (hn.symm.trans h) (by decide)) (by rw [hstart, hpower]; exact hs), hstart]
  have hnext : Within { fw := true, vault := true, outbox := true } (stepTaken (startService (at_ s t)) env.us)
      (nextStep (startService (at_ s t)) env.us) := .ite (tryBegin_within _) (.refl _)
  have hw : Within { modes := true, cnt := true, evr := true, fw := true, vault := true, outbox := true }
      (stepTaken (startService (at_ s t)) env.us) (settle (stepDone (at_ s t) env)) := by
    rw [hd]
    exact (hnext.mono rfl).then (settle_within _)
  have hstep : (settle (stepDone (at_ s t) env)).power.step = 12 := by
    rw [hw.same (·.power.step)]
    show min 12 ((startService (at_ s t)).power.step + 1) = 12
    rw [hpower, hn]
    rfl
  have hgood : (settle (stepDone (at_ s t) env)).power.pwrGood = true :=
    (hw.same (·.power.pwrGood)).trans ((congrArg Power.pwrGood hpower).trans hp)
  have hinst (i : Nat) : getInst (settle (stepDone (at_ s t) env)) i = getInst (restoreInsts (at_ s t)) i :=
    getInst_of_insts ((hw.same (·.insts)).trans (startService_insts (at_ s t))) i
  refine ⟨_, exec_startupStepDone t env s, hstep, ?_, fun i hi => ?_, fun i hi => ?_⟩
  · simp [serving, hstep, hgood]
  · rw [hinst, getInst_restoreInsts, if_pos (show i ∈ assignedIn (at_ s t).ctl.cfg from hi)]
    rfl
  · rw [hinst, getInst_restoreInsts, if_neg (show i ∉ assignedIn (at_ s t).ctl.cfg from hi)]

end

/-- The start that enrolment had stopped goes on. -/
def started (s : State) : State :=
  { s with power := { s.power with stop := .running }, alarm := { s.alarm with alarmN := s.alarm.executed != 0xFF } }

theorem enrolRetry_enrols {s : State} {t : Nat} {a : EnvAnswer} {nets : List NetReading} (hp : s.power.pwrGood = true)
    (hr : s.power.resetLow = false) (hn : s.power.step = 4) (hs : s.power.stop = .enrolment)
    (hf : enrolFails (readEnvelope (at_ s t) a).backup.authCount a nets = none) :
    ∃ u, exec (.enrolRetry t a nets) s = .next u ∧ u.power.step = 5 ∧ u.power.stop = .running ∧
      (∃ r, u.backup.env = some r ∧ r.serial = a.serial ∧ r.pubKey = a.pubKey) ∧ u.backup.envGood = true ∧ u.backup.meshFails = [] ∧
      u.vault = s.vault ∧ u.keys = s.keys := by
  obtain ⟨hok, hwithin, ⟨r, henv, hserial, hkey⟩, hgood, hfails⟩ := enrol_passes hf
  have hstart : starting (at_ s t) = true := by simp [starting, hp, hr, hn]
  have he : enrolAgain (at_ s t) a nets =
      nextStep (started (enrol (at_ s t) a nets).2) (((enrol (at_ s t) a nets).2.now - (enrol (at_ s t) a nets).2.power.startT) / 1000 -
        (enrol (at_ s t) a nets).2.power.stepUs.foldl (· + ·) 0) := by
    unfold enrolAgain
    rw [if_neg (not_or.2 ⟨ne_false_of_eq_true hstart, fun h => h hs⟩)]
    exact if_pos hok
  have hpower : (enrol (at_ s t) a nets).2.power = s.power := hwithin.same (·.power)
  generalize enrol (at_ s t) a nets = p at *
  rw [nextStep_eq (started p.2) _ (show p.2.power.step < 11 by rw [hpower, hn]; decide)] at he
  have hw := settle_within (enrolAgain (at_ s t) a nets)
  rw [he] at hw
  refine ⟨_, congrArg (fun u => Host.Outcome.next (settle u)) he, ?_, hw.same (·.power.stop), ⟨r, ?_, hserial, hkey⟩, ?_, ?_, ?_, ?_⟩
  · rw [hw.same (·.power.step)]
    show min 12 (p.2.power.step + 1) = 5
    rw [hpower, hn]
    rfl
  · exact (hw.same (·.backup.env)).trans henv
  · exact (hw.same (·.backup.envGood)).trans hgood
  · exact (hw.same (·.backup.meshFails)).trans hfails
  · exact (hw.same (·.vault)).trans (hwithin.same (·.vault))
  · exact (hw.same (·.keys)).trans (hwithin.same (·.keys))

/-- Settles O7: each step's own effect leaves the power state alone, so its end begins the next step over that effect; the statements are
what the effects write. -/
theorem startStepsRun : Obligations.StartStepsRun := by
  unfold Obligations.StartStepsRun
  intro s t env a nets hp hr
  exact ⟨fun hn hs hv => startupStep2 hp hr hs hn hv, fun hn hs ho => startupStep9 hp hr hs hn ho, fun hn hs => startupStep5 hp hr hs hn,
    fun hn hs best hbest => startupStep10 hp hr hs hn best hbest, fun hn hs => startupStep11 hp hr hs hn,
    fun hn hs hf => enrolRetry_enrols hp hr hn hs hf⟩

end Sys2Proof.Machine
end

section
/-! SUPPORT. Reads of result lines, dropped writes and unbacked accesses (R73 to R76, R299, R305): what each comes to once the access
check lets it through. -/

namespace Sys2Proof.Machine

-- One proof at a time: the check bounds the compiler's threads.
set_option Elab.async false

open Sys2Proof Sys2Proof.Safety

/-! ## Backed offsets (R299) -/

/-- The lines of an inline slot are backed where the instance has the slot. -/
theorem backed_slot {s : State} {i n off : Nat} (isRead : Bool) (hoff : off < 128) (hn : n < inlineSlots s.ctl.cfg i) (h : n < 1024) :
    backed s i (0x10000 + 128 * n + off) isRead = true := by
  unfold backed
  dsimp only
  rw [if_neg (by omega), if_pos (by omega), show (0x10000 + 128 * n + off - 0x10000) / 128 = n by omega]
  simp [hn]

/-- An entry of the ring is backed where the ring has it. -/
theorem backed_entry {s : State} {i j : Nat} (isRead : Bool) (hj : j < ringEntries s.ctl.cfg i) (h : j < 2048) :
    backed s i (0x40000 + 64 * j) isRead = true := by
  unfold backed
  dsimp only
  rw [if_neg (by omega), if_neg (by omega), if_pos (by omega), show (0x40000 + 64 * j - 0x40000) / 64 = j by omega]
  simp [hj]

/-- A byte of a staging page is backed where the instance has the page. -/
theorem backed_page {s : State} {i off : Nat} (isRead : Bool) (h : off / 4096 < stagingPages s.ctl.cfg i) :
    backed s i (0x60000 + off) isRead = true := by
  unfold backed
  dsimp only
  rw [if_neg (by omega), if_neg (by omega), if_neg (by omega), if_pos (by omega), show 0x60000 + off - 0x60000 = off by omega]
  simp [h]

/-! ## Result lines -/

/-- The hub writes result lines where no other island is noted. -/
theorem usualSource_result (i n : Nat) : usualSource memInline (inlineWord i n + 8) = islHub :=
  if_pos ⟨rfl, by unfold inlineWord; omega⟩

section
variable {s : State} {ld i n : Nat} (hr : reaches s ld i = true) (hn : n < inlineSlots s.ctl.cfg i) (h : n < 1024) (tag : Nat)
include hr hn h

/-- A read that reaches a slot goes by the slot's state. -/
theorem resultRead_slot : resultRead s ld i n tag =
    match (getSlot (getInst s i) n).st with
    | .done => answerLine s ld tag memInline (inlineWord i n + 8) (getSlot (getInst s i) n).result
    | .pending =>
      if (getSlot (getInst s i) n).held.isSome then answerRead s ld tag (pendingLine (getSlot (getInst s i) n).req)
      else setInst s i (setSlot (getInst s i) n
        { getSlot (getInst s i) n with held := some { ld := ld, tag := tag, t := s.now, parity := s.acu.epoch % 2 } })
    | .idle =>
      if (getSlot (getInst s i) n).held.isSome ∨ idleHold s.ctl.cfg i = 0 ∨ (getInst s i).st = 2 then answerRead s ld tag idleLine
      else setInst s i (setSlot (getInst s i) n
        { getSlot (getInst s i) n with held := some { ld := ld, tag := tag, t := s.now, parity := s.acu.epoch % 2 } }) := by
  unfold resultRead
  dsimp only
  rw [if_neg (ne_false_of_eq_true (reaches_iff.1 hr).1), if_neg (ne_false_of_eq_true hr),
    if_neg (ne_false_of_eq_true (backed_slot true (by decide) hn h))]
  rfl

end

theorem answerLine_whole {s : State} {mem w : Nat} (h : badWord s mem w 8 = none) (ld tag : Nat) (line : Bytes) :
    answerLine s ld tag mem w line = answerRead s ld tag line := by
  unfold answerLine
  rw [h]

theorem answerLine_bad {s : State} {mem w key : Nat} (h : badWord s mem w 8 = some key) (ld tag : Nat) (line : Bytes) :
    answerLine s ld tag mem w line = answerPoison (raiseFabric s (writerOf s key (usualSource mem w)) islLink mem) ld tag := by
  unfold answerLine
  rw [h]

theorem exec_inlineResultRead {s : State} {t : Nat} {ld : LdNo} {i : InstNo} {slot : BitVec 10}
    (h : Lets (at_ s t) ld.toNat i.toNat (0x10000 + 128 * slot.toNat + 64) true) (tag : BitVec 16) :
    exec (.inlineResultRead t ld i slot tag) s = .next (resultRead (at_ s t) ld.toNat i.toNat slot.toNat tag.toNat) :=
  congrArg Host.Outcome.next (ldAccess_lets h)

/-- The idle hold of an idle slot has run out. -/
theorem idleExpiry_ends {s : State} {i n : Nat} {h : Held} (hst : (getSlot (getInst s i) n).st = .idle)
    (hh : (getSlot (getInst s i) n).held = some h) (ht : h.t + idleHold s.ctl.cfg i ≤ s.now) :
    idleExpiry s i n = setInst (answerRead s h.ld h.tag idleLine) i (setSlot (getInst s i) n { getSlot (getInst s i) n with held := none }) := by
  unfold idleExpiry
  dsimp only
  rw [hst, hh]
  exact if_pos ht

/-- Settles O9: a read that is let through goes by the state of its slot (`resultRead_slot`). -/
theorem resultReadAnswers : Obligations.ResultReadAnswers := by
  unfold Obligations.ResultReadAnswers
  rintro s t ld i slot tag sl load rfl rfl
  refine ⟨fun hl hn => ?_, fun h hst hh ht hub => ?_⟩
  · have hslot := resultRead_slot (s := at_ s t) hl.2.1 hn slot.isLt tag.toNat
    rw [exec_inlineResultRead hl]
    refine ⟨fun hst hb => ?_, fun key hst hb => ?_, fun hst hh => ?_, fun hst hh => ?_, fun hh hst => ?_⟩
    · rw [hslot, show (getSlot (getInst (at_ s t) i.toNat) slot.toNat).st = .done from hst]
      exact congrArg Host.Outcome.next (answerLine_whole (s := at_ s t) hb _ _ _)
    · rw [hslot, show (getSlot (getInst (at_ s t) i.toNat) slot.toNat).st = .done from hst]
      have hline := answerLine_bad (s := at_ s t) hb ld.toNat tag.toNat (getSlot (getInst s i.toNat) slot.toNat).result
      rw [usualSource_result] at hline
      exact congrArg Host.Outcome.next hline
    · rw [hslot, show (getSlot (getInst (at_ s t) i.toNat) slot.toNat).st = .pending from hst]
      exact congrArg Host.Outcome.next (if_pos hh)
    · rw [hslot, show (getSlot (getInst (at_ s t) i.toNat) slot.toNat).st = .idle from hst]
      exact congrArg Host.Outcome.next (if_pos hh)
    · have hnone : ¬ (getSlot (getInst s i.toNat) slot.toNat).held.isSome = true := by rw [hh]; decide
      rcases hst with hst | ⟨hst, hz, h2⟩
      · rw [hslot, show (getSlot (getInst (at_ s t) i.toNat) slot.toNat).st = .pending from hst]
        exact congrArg Host.Outcome.next (if_neg hnone)
      · rw [hslot, show (getSlot (getInst (at_ s t) i.toNat) slot.toNat).st = .idle from hst]
        exact congrArg Host.Outcome.next (if_neg (not_or.2 ⟨hnone, not_or.2 ⟨hz, h2⟩⟩))
  · have he : exec (.inlineIdleHoldExpiry t i slot) s = .next (idleExpiry (at_ s t) i.toNat slot.toNat) :=
      congrArg Host.Outcome.next (clocked_runs _ _ _ (hubRuns_at t hub))
    rw [he, idleExpiry_ends (s := at_ s t) hst hh ht]
    rfl

/-! ## Dropped writes -/

theorem exec_inlineDroppedWrite {s : State} {t : Nat} {ld : LdNo} {i : InstNo} {slot : BitVec 10} {off : BitVec 7}
    (h : Lets (at_ s t) ld.toNat i.toNat (0x10000 + 128 * slot.toNat + off.toNat) false)
    (hb : backed s i.toNat (0x10000 + 128 * slot.toNat + off.toNat) false = true) (k : InlineDrop) :
    exec (.inlineDroppedWrite t ld i slot k off) s = .next (answerDone (capture (bump (at_ s t) (instKey i.toNat 0x24)) i.toNat (dropKind k)
      slot.toNat ld.toNat (0x10000 + 128 * slot.toNat + off.toNat) false (k == .poisoned)) ld.toNat 0) := by
  have hdrop : droppedWrite (at_ s t) ld.toNat i.toNat slot.toNat k off.toNat = capture (bump (at_ s t) (instKey i.toNat 0x24)) i.toNat
      (dropKind k) slot.toNat ld.toNat (0x10000 + 128 * slot.toNat + off.toNat) false (k == .poisoned) := by
    unfold droppedWrite
    dsimp only
    rw [if_neg (ne_false_of_eq_true h.2.1), if_neg (show ¬ backed (at_ s t) i.toNat _ false = false from ne_false_of_eq_true hb)]
  exact congrArg Host.Outcome.next ((ldAccess_lets h).trans (congrArg (fun u => answerDone u ld.toNat 0) hdrop))

/-! ## Unbacked accesses -/

/-- What an access to an unbacked offset comes to before service runs. -/
theorem unbacked_beforeService {s : State} (h : serving s = false) (ld i off : Nat) (isRead poison : Bool) (tag : Nat) :
    unbacked s ld i off isRead poison tag = if isRead then answerPoison s ld tag else s := by
  have hs : ¬ serving (if isRead then answerPoison s ld tag else s) = true := by
    cases isRead <;> exact ne_true_of_eq_false h
  exact if_neg hs

/-- And once service runs: it is counted and captured. -/
theorem unbacked_inService {s : State} (h : serving s = true) (ld i off : Nat) (isRead poison : Bool) (tag : Nat) :
    unbacked s ld i off isRead poison tag =
      capture (if isRead then answerPoison s ld tag else s) i 6 0xFFFF ld off isRead poison := by
  have hs : serving (if isRead then answerPoison s ld tag else s) = true := by
    cases isRead <;> exact h
  exact if_pos hs

section
variable {s : State} {ld i off : Nat} {isRead : Bool} (hr : reaches s ld i = true)
include hr

theorem unbackedAt_unbacked (hb : backed s i off isRead = false) (poison : Bool) (tag : Nat) :
    unbackedAt s ld i off isRead poison tag =
      capture (if isRead then answerPoison s ld tag else s) i 6 0xFFFF ld off isRead poison := by
  have hs := (reaches_iff.1 hr).1
  unfold unbackedAt
  rw [if_neg (ne_false_of_eq_true hs), if_neg (ne_false_of_eq_true hr), if_neg (ne_true_of_eq_false hb), unbacked_inService hs]

/-- A write to a backed part is no unbacked access. -/
theorem unbackedAt_backed (hb : backed s i off false = true) (poison : Bool) (tag : Nat) :
    unbackedAt s ld i off false poison tag = s := by
  unfold unbackedAt
  rw [if_neg (ne_false_of_eq_true (reaches_iff.1 hr).1), if_neg (ne_false_of_eq_true hr), if_pos hb]
  rfl

end

/-- Settles O10: an access that is let through is dropped, or met by no backed part, and comes to `capture`. -/
theorem droppedWritesAreCounted : Obligations.DroppedWritesAreCounted := by
  unfold Obligations.DroppedWritesAreCounted
  intro s t ld i slot k off7 off isRead poison tag
  have unb (rd : Bool) : exec (.unbackedAccess t ld i off rd poison tag) s = .next (ldAccess (at_ s t)
      (.unbackedAccess t ld i off rd poison tag) ld.toNat i.toNat off.toNat rd tag.toNat
      (fun s => unbackedAt s ld.toNat i.toNat off.toNat rd poison tag.toNat)) := rfl
  refine ⟨fun hl hb => exec_inlineDroppedWrite hl hb k, fun hl hb => ?_, fun hs hp hh => ?_, fun hl hb => ?_⟩
  · rw [unb, ldAccess_lets hl, unbackedAt_unbacked (s := at_ s t) hl.2.1 hb]
    cases isRead <;> rfl
  · rw [unb, ldAccess_beforeService (s := at_ s t) hp hh hs]
    unfold unbackedAt
    rw [if_pos (show serving (at_ s t) = false from hs), unbacked_beforeService (s := at_ s t) hs]
    cases isRead <;> rfl
  · rw [unb, ldAccess_lets hl, unbackedAt_backed (s := at_ s t) hl.2.1 hb]
    rfl

end Sys2Proof.Machine
end

section
/-! SUPPORT. Doorbells, and writes of ring entries and staging pages (R104 to R108): what each comes to once the access check lets it
through. -/

namespace Sys2Proof.Machine

-- One proof at a time: the check bounds the compiler's threads.
set_option Elab.async false

open Sys2Proof Sys2Proof.Safety

/-! ## Doorbells -/

section
variable {s : State} {ld i : Nat} (arr tail : Nat) (full poison : Bool)

/-- The device's ownership of `n` entries more, from S on. -/
def doorbellTaken (s : State) (i arr tail n : Nat) : State :=
  setInst s i { getInst s i with s := tail, ops := (getInst s i).ops ++ coverOps s i arr (getInst s i).s n }

/-- During a reset, and once the instance is SAVED, a doorbell is dropped. -/
theorem doorbellAt_out (hr : reaches s ld i = true) (h : (getInst s i).st = 2 ∨ (getInst s i).st = 5) :
    doorbellAt s ld i arr tail full poison = s := by
  unfold doorbellAt
  dsimp only
  rw [if_neg (ne_false_of_eq_true hr), if_pos h]

section
variable (hr : reaches s ld i = true) (h2 : (getInst s i).st ≠ 2) (h5 : (getInst s i).st ≠ 5) {n : Nat}
  (hn : n = (tail + 65536 - (getInst s i).s % 65536) % 65536)
include hr h2 h5 hn

theorem doorbellAt_takes (h0 : ringEntries s.ctl.cfg i ≠ 0) (hk : n = 0 ∨ owned (getInst s i) + n ≤ ringEntries s.ctl.cfg i) :
    doorbellAt s ld i arr tail true false = doorbellTaken s i arr tail n := by
  unfold doorbellAt
  dsimp only
  rw [← hn, if_neg (ne_false_of_eq_true hr), if_neg (by omega), if_neg (by simp only [h0, Bool.false_eq_true, reduceCtorEq, false_or]; omega)]
  rfl

theorem doorbellAt_drops (hd : ringEntries s.ctl.cfg i = 0 ∨ full = false ∨ poison = true ∨
    (n ≠ 0 ∧ ringEntries s.ctl.cfg i < owned (getInst s i) + n)) :
    doorbellAt s ld i arr tail full poison = ringDrop s i 3 tail ld 0x100 poison := by
  unfold doorbellAt
  dsimp only
  rw [← hn, if_neg (ne_false_of_eq_true hr), if_neg (by omega), if_pos hd]

end

theorem exec_doorbell {s : State} {t : Nat} {ld : LdNo} {i : InstNo} (h : Lets (at_ s t) ld.toNat i.toNat 0x100 false) (arr : Nat)
    (tail : BitVec 16) (full poison : Bool) : exec (.doorbell arr t ld i tail full poison) s =
      .next (answerDone (doorbellAt (at_ s t) ld.toNat i.toNat arr tail.toNat full poison) ld.toNat 0) :=
  congrArg Host.Outcome.next (ldAccess_lets h)

/-- A write to IPG_SQ_TAIL is the doorbell that arrives now (R104). -/
theorem pageWrite_tail (hr : reaches s ld i = true) {v : Nat} (hv : v < 65536) :
    pageWrite s ld i 0x100 v full poison = doorbellAt s ld i s.now v full poison := by
  unfold pageWrite
  rw [if_neg (ne_false_of_eq_true hr), show regAt 0x100 = some 0x100 by decide]
  dsimp only
  rw [if_pos rfl, Nat.mod_eq_of_lt hv]

end

/-- Settles O12: a doorbell that is let through is `doorbellAt`, whose branches are those of the statement; and a write to IPG_SQ_TAIL
comes to it. -/
theorem doorbellTakesOwnership : Obligations.DoorbellTakesOwnership := by
  unfold Obligations.DoorbellTakesOwnership
  intro s arr t ld i tail full poison n hn hl
  refine ⟨fun h => ?_, fun h2 h5 => ⟨fun h0 hk => ?_, fun hd => ?_⟩, ?_⟩
  · rw [exec_doorbell hl, doorbellAt_out (s := at_ s t) _ _ _ _ hl.2.1 h]
  · rw [exec_doorbell hl, doorbellAt_takes (s := at_ s t) _ _ hl.2.1 h2 h5 hn h0 hk]
    rfl
  · rw [exec_doorbell hl, doorbellAt_drops (s := at_ s t) _ _ _ _ hl.2.1 h2 h5 hn hd]
    rfl
  · refine ⟨_, exec_doorbell hl _ tail full poison, ?_⟩
    have hpage := pageWrite_tail (s := at_ s t) full poison hl.2.1 tail.isLt
    have he : exec (.registerWrite t ld i 0x100 tail.toNat full poison) s = .next (settle (answerDone
        (pageWrite (at_ s t) ld.toNat i.toNat 0x100 tail.toNat full poison) ld.toNat 0)) :=
      congrArg (fun u => Host.Outcome.next (settle u)) (ldAccess_lets (off := 0x100) hl)
    rw [he, hpage]

/-! ## Ring entries -/

/-- A write that the ring side drops is counted and captured. -/
theorem ringDrop_eq (s : State) (i k value ld off : Nat) (poison : Bool) : ∃ x, ringDrop s i k value ld off poison =
    setInst (bump s (instKey i 0x16)) i x ∧
      x = { getInst s i with caps := x.caps, capCount := min 0xFFFFFFFF ((getInst s i).capCount + 1) } := ⟨_, rfl, rfl⟩

section
variable {s : State} {ld i j : Nat} (data : Bytes) (hr : reaches s ld i = true) (hj : j < ringEntries s.ctl.cfg i) (h : j < 2048)
include hr hj h

/-- An entry that the host owns takes the line. -/
theorem entryWrite_lands (ho : entryOwned (getInst s i) (ringEntries s.ctl.cfg i) j = false) : entryWrite s ld i j data true false =
    setInst (noteWriter (writeWords s memRing (ringWord i j) 8) memRing (ringWord i j) 8 islLink) i
      { getInst s i with ring := mset [] (getInst s i).ring j (Bytes.fit 64 data) } := by
  unfold entryWrite
  dsimp only
  rw [if_neg (ne_false_of_eq_true hr), if_neg (ne_false_of_eq_true (backed_entry false hj h)), if_neg (by simp [ho])]
  unfold modInst
  rw [getInst_of_insts ((noteWriter_insts _ _ _ _ _).trans (writeWords_insts s _ _ _)) i]

theorem entryWrite_drops {full poison : Bool} (hd : full = false ∨ poison = true ∨
    entryOwned (getInst s i) (ringEntries s.ctl.cfg i) j = true) :
    entryWrite s ld i j data full poison = ringDrop s i 4 j ld (0x40000 + 64 * j) poison := by
  unfold entryWrite
  dsimp only
  rw [if_neg (ne_false_of_eq_true hr), if_neg (ne_false_of_eq_true (backed_entry false hj h)), if_pos hd]

end

/-! ## Staging pages -/

section
variable (m : List Host.Cell) (a : Nat) (en : Nat) (data : Bytes)

/-- The enabled ones of some bytes of a line written. -/
def writeSome (ks : List Nat) (m : List Host.Cell) : List Host.Cell :=
  ks.foldl (fun m k => if bitOf en k then Memory.write m (a + k) (Bytes.at' data k) else m) m

theorem writeEnabled_eq : writeEnabled m a en data = writeSome a en data (upTo 64) m := rfl

/-- A byte that is not written reads as before. -/
theorem read_writeSome_other {c : Nat} {ks : List Nat} (h : ∀ k ∈ ks, bitOf en k = true → c ≠ a + k) (m : List Host.Cell) :
    Memory.read (writeSome a en data ks m) c = Memory.read m c := by
  induction ks generalizing m with
  | nil => rfl
  | cons k ks ih =>
    refine (ih (fun k hk => h k (List.mem_cons_of_mem _ hk)) _).trans ?_
    dsimp only
    split
    · next hb => exact Memory.read_write_other _ _ _ _ (h k List.mem_cons_self hb)
    · rfl

/-- A byte that is written reads as written, in whatever order. -/
theorem read_writeSome_same {k : Nat} (hb : bitOf en k = true) {ks : List Nat} (hk : k ∈ ks) (m : List Host.Cell) :
    Memory.read (writeSome a en data ks m) (a + k) = Bytes.at' data k := by
  induction ks generalizing m with
  | nil => cases hk
  | cons j ks ih =>
    by_cases hin : k ∈ ks
    · exact ih hin _
    · obtain rfl : k = j := (List.mem_cons.1 hk).resolve_right hin
      refine (read_writeSome_other a en data (ks := ks) (fun n hn _ he => hin ?_)
        (if bitOf en k then Memory.write m (a + k) (Bytes.at' data k) else m)).trans ?_
      · rw [show k = n by omega]
        exact hn
      · rw [if_pos hb]
        exact Memory.read_write_same _ _ _

end

theorem writeLineWords_insts (s : State) (w en : Nat) : (writeLineWords s w en).insts = s.insts := by
  unfold writeLineWords
  refine each_insts (fun s j => ?_) _ s
  split <;> simp

section
variable {s : State} {ld i off : Nat} (data : Bytes) (en : Nat) (hr : reaches s ld i = true) (ha : off % 64 = 0)
  (hp : off / 4096 < stagingPages s.ctl.cfg i)
include hr ha hp

/-- A page that the host owns takes the enabled bytes. -/
theorem stagingWrite_lands (ho : (ownedPages s i).contains (off / 4096) = false) : stagingWrite s ld i off data en false =
    setInst (writeLineWords s (stagingWord i off) en) i
      { getInst s i with staging := writeEnabled (getInst s i).staging off en data } := by
  unfold stagingWrite
  dsimp only
  rw [show off / 64 * 64 = off by omega, if_neg (ne_false_of_eq_true hr), if_neg (ne_false_of_eq_true (backed_page false hp)),
    if_neg (by rw [ho]; decide)]
  unfold modInst
  rw [getInst_of_insts (writeLineWords_insts _ _ _) i]

theorem stagingWrite_drops {poison : Bool} (hd : poison = true ∨ (ownedPages s i).contains (off / 4096) = true) :
    stagingWrite s ld i off data en poison = ringDrop s i 5 (off / 4096) ld (0x60000 + off + firstByte en) poison := by
  unfold stagingWrite
  dsimp only
  rw [show off / 64 * 64 = off by omega, if_neg (ne_false_of_eq_true hr), if_neg (ne_false_of_eq_true (backed_page false hp)),
    if_pos hd]

end

/-- Settles O13: a write that is let through lands where the host owns the entry or page, and is dropped elsewhere. -/
theorem ringWritesLand : Obligations.RingWritesLand := by
  unfold Obligations.RingWritesLand
  intro s t ld i data
  refine ⟨fun entry hl hj => ⟨fun ho => ?_, fun full poison hd => ?_⟩, fun off en ha hl hp => ⟨fun ho => ?_, fun poison hd => ?_⟩⟩
  · have he : exec (.ringEntryWrite t ld i entry data true false) s = .next (answerDone _ ld.toNat 0) :=
      congrArg Host.Outcome.next (ldAccess_lets hl)
    rw [he, entryWrite_lands (s := at_ s t) data hl.2.1 hj entry.isLt ho]
    exact ⟨_, _, rfl, rfl, mget_mset_same _ _ _ _, fun j h => mget_mset_other _ _ _ _ _ h, rfl⟩
  · have he : exec (.ringEntryWrite t ld i entry data full poison) s = .next (answerDone _ ld.toNat 0) :=
      congrArg Host.Outcome.next (ldAccess_lets hl)
    obtain ⟨x, hx, hcaps⟩ := ringDrop_eq (at_ s t) i.toNat 4 entry.toNat ld.toNat (0x40000 + 64 * entry.toNat) poison
    rw [he, entryWrite_drops (s := at_ s t) data hl.2.1 hj entry.isLt hd, hx]
    exact ⟨x, rfl, hcaps⟩
  · have he : exec (.stagingPageWrite t ld i off data en false) s = .next (answerDone _ ld.toNat 0) :=
      congrArg Host.Outcome.next (ldAccess_lets hl)
    rw [he, stagingWrite_lands (s := at_ s t) data en.toNat hl.2.1 ha hp ho]
    refine ⟨_, _, rfl, rfl, fun k hk hb => ?_, fun a h => ?_, rfl⟩
    · exact read_writeSome_same _ _ _ hb (List.mem_range.2 hk) _
    · exact read_writeSome_other _ _ _ (fun k hk hb => h k (List.mem_range.1 hk) hb) _
  · have he : exec (.stagingPageWrite t ld i off data en poison) s = .next (answerDone _ ld.toNat 0) :=
      congrArg Host.Outcome.next (ldAccess_lets hl)
    obtain ⟨x, hx, hcaps⟩ := ringDrop_eq (at_ s t) i.toNat 5 (off.toNat / 4096) ld.toNat (0x60000 + off.toNat + firstByte en.toNat) poison
    rw [he, stagingWrite_drops (s := at_ s t) data en.toNat hl.2.1 ha hp hd, hx]
    exact ⟨x, rfl, hcaps⟩

end Sys2Proof.Machine
end

section
/-! SUPPORT. A line written to a request line (R59, R73, R85): what the hub writes, and what a lane takes. -/

namespace Sys2Proof.Machine

-- One proof at a time: the check bounds the compiler's threads.
set_option Elab.async false

open Sys2Proof Sys2Proof.Safety

/-! ## Frames -/

section
variable (s : State)

theorem getBay_of_bays {s u : State} (h : u.bays = s.bays) (b : Nat) : getBay u b = getBay s b := by
  unfold getBay
  rw [h]

theorem refill_within (i : Nat) : Within { insts := true } s (refill s i) := rfl

theorem noteLate_within (i bay op st past : Nat) : Within { bays := true, cnt := true, evr := true } s (noteLate s i bay op st past) :=
  ((bump_within s _).mono rfl).trans (.then (.ite ((modBay_within _ _ _).mono rfl) (.refl _)) (record_within _ _ _ _) (by rfl))

theorem writeEngine_within (b k : Nat) : Within { bad := true } s (writeEngine s b k) := by
  rw [writeEngine_frame]
  rfl

theorem modMem_within (b k : Nat) (f : EngMem → EngMem) : Within { bays := true } s (modMem s b k f) := rfl

theorem writeLine_within (i n island : Nat) (line : Bytes) :
    Within { insts := true, bad := true, writers := true, outbox := true } s (writeLine s i n island line) := by
  unfold writeLine
  have h := (writeWords_within_plain s (mem := memInline) (by decide) (inlineWord i n + 8) 8).mono
    (G := { insts := true, bad := true, writers := true, outbox := true }) rfl
  have h := (h.then (noteWriter_within _ memInline (inlineWord i n + 8) 8 island)).then
    (answerHeld_within _ (getSlot (getInst s i) n).held line)
  exact .ite (h.then (modInst_within _ _ _)) (h.then (modInst_within _ _ _))

end

/-! ## Slots -/

section
variable {s : State} {i n : Nat}

/-- A slot that no joint removed is DONE with the line written. -/
theorem writeLine_slot (h : (getInst s i).leaving.contains n = false) (island : Nat) (line : Bytes) :
    getSlot (getInst (writeLine s i n island line) i) n =
      { getSlot (getInst s i) n with st := .done, result := line, held := none, op := none } := by
  unfold writeLine
  dsimp only
  rw [if_neg (ne_true_of_eq_false h), getInst_modInst_same, getSlot_setSlot_same]

/-- A line that the hub decides is DONE with the hub's status and hint. -/
theorem hubLine_slot (h : (getInst s i).leaving.contains n = false) (arr : Nat) (req : Bytes) (st hint : Nat) :
    getSlot (getInst (hubLine s i n arr req st hint) i) n =
      { getSlot (getInst s i) n with
        st := .done, result := resultLine req st s.ctl.epoch 0x80 hint (s.now - arr) 0 [], held := none, op := none } := by
  let c := countStatus s i (Bytes.fieldLE req 0 1) st 0x22 0x23 true
  let u := if 201 < s.now - arr then noteLate c i 0xFF (Bytes.fieldLE req 0 1) st (s.now - arr - 201) else c
  have hu : Within { bays := true, cnt := true, evr := true } s u :=
    .ite (((countStatus_within s i _ st 0x22 0x23 true).mono rfl).then (noteLate_within _ _ _ _ _ _))
      ((countStatus_within s i _ st 0x22 0x23 true).mono rfl)
  have hi : getInst u i = getInst s i := getInst_of_insts (hu.same (·.insts)) i
  have hline : hubLine s i n arr req st hint =
      writeLine u i n islHub (resultLine req st u.ctl.epoch 0x80 hint (u.now - arr) 0 []) := rfl
  rw [hline, writeLine_slot (by rw [hi]; exact h), hi, hu.same (·.ctl), hu.same (·.now)]

end

/-! ## A request line -/

/-- A slot that takes a new line. -/
def requested (s : State) (i n : Nat) (line : Bytes) : State :=
  setInst (writeWords s memInline (inlineWord i n) 8) i
    (setSlot (getInst s i) n { getSlot (getInst s i) n with st := .pending, req := line, result := [] })

theorem requested_within (s : State) (i n : Nat) (line : Bytes) : Within { insts := true, bad := true } s (requested s i n line) :=
  ((writeWords_within_plain s (mem := memInline) (by decide) _ _).mono rfl).then (setInst_within _ _ _)

theorem getInst_requested (s : State) (i n : Nat) (line : Bytes) : getInst (requested s i n line) i =
    setSlot (getInst s i) n { getSlot (getInst s i) n with st := .pending, req := line, result := [] } := getInst_setInst_same _ _ _

/-- A new line stands in its slot. -/
theorem requested_slot (s : State) (i n : Nat) (line : Bytes) : getSlot (getInst (requested s i n line) i) n =
    { getSlot (getInst s i) n with st := .pending, req := line, result := [] } := by
  rw [getInst_requested, getSlot_setSlot_same]

theorem getInst_requested_other (s : State) {i j : Nat} (h : j ≠ i) (n : Nat) (line : Bytes) :
    getInst (requested s i n line) j = getInst s j :=
  (getInst_setInst_other _ _ _ _ h).trans (getInst_of_insts (writeWords_insts _ _ _ _) j)

section
variable {s : State} {ld i n arr : Nat} {line : Bytes} (hr : reaches s ld i = true) (hb : backed s i (0x10000 + 128 * n) false = true)
include hr hb

/-- What reaches a slot that is PENDING is dropped. -/
theorem requestWrite_pending (hp : (getSlot (getInst s i) n).st = .pending) :
    requestWrite s ld i n arr line = bump s (instKey i 0x24) := by
  unfold requestWrite
  dsimp only
  rw [if_neg (ne_false_of_eq_true hr), if_neg (ne_false_of_eq_true hb), if_pos hp]

theorem requestWrite_takes (hp : (getSlot (getInst s i) n).st ≠ .pending) : requestWrite s ld i n arr line =
    if (getInst s i).st = 2 then hubLine (requested s i n (Bytes.fit 64 line)) i n arr (Bytes.fit 64 line) 0x0703 0
    else dispatchLine (requested s i n (Bytes.fit 64 line)) i n arr (Bytes.fit 64 line) := by
  have hreq : modInst (writeWords s memInline (inlineWord i n) 8) i
      (fun x => setSlot x n { getSlot x n with st := .pending, req := Bytes.fit 64 line, result := [] }) =
      requested s i n (Bytes.fit 64 line) := by
    unfold modInst
    rw [getInst_of_insts (writeWords_insts s _ _ _) i]
    rfl
  unfold requestWrite
  dsimp only
  rw [if_neg (ne_false_of_eq_true hr), if_neg (ne_false_of_eq_true hb), if_neg hp, hreq, getInst_requested]
  rfl

end

/-! ## Checks 1 to 9 -/

/-- A line that passes its checks finds a token. -/
theorem lineStatus_token {s : State} {i arr : Nat} {line : Bytes} (h : lineStatus s i arr line = (0, 0)) :
    oneToken ≤ (getInst s i).sub := by
  refine Decidable.byContradiction fun hlt => ?_
  unfold lineStatus at h
  dsimp only at h
  rw [if_pos (show (getInst s i).sub < oneToken by omega)] at h
  split at h
  · cases h
  · split at h <;> cases h

/-- A token spent. -/
def tokenSpent (s : State) (i : Nat) : State := modInst s i (fun x => { x with sub := x.sub - oneToken })

theorem getInst_tokenSpent (s : State) (i : Nat) : getInst (tokenSpent s i) i =
    { getInst s i with sub := (getInst s i).sub - oneToken } := getInst_modInst_same _ _ _

theorem getInst_refill (s : State) (i : Nat) : getInst (refill s i) i = refilled s.ctl.cfg i s.now (getInst s i) :=
  getInst_modInst_same _ _ _

/-- Buckets are no matter of the slots. -/
theorem tokenSpent_slot (s : State) (i n : Nat) : getSlot (getInst (tokenSpent (refill s i) i) i) n = getSlot (getInst s i) n := by
  rw [getInst_tokenSpent, getInst_refill]
  rfl

theorem getInst_tokenSpent_other (s : State) {i j : Nat} (h : j ≠ i) : getInst (tokenSpent (refill s i) i) j = getInst s j :=
  (getInst_setInst_other _ _ _ _ h).trans (getInst_setInst_other _ _ _ _ h)

/-- A line that fails a check is decided by the hub, a token spent or not. -/
theorem dispatchLine_fails {s : State} {i n arr st hint : Nat} {line : Bytes}
    (h : lineStatus (refill s i) i arr line = (st, hint)) (h0 : st ≠ 0) :
    ∃ w, (w = refill s i ∨ w = tokenSpent (refill s i) i) ∧ dispatchLine s i n arr line = hubLine w i n arr line st hint := by
  unfold dispatchLine
  dsimp only
  rw [h]
  dsimp only
  rw [if_pos h0]
  split
  · exact ⟨_, .inr rfl, rfl⟩
  · exact ⟨_, .inl rfl, rfl⟩

/-- A line that passes the checks spends a token and goes to the lane found. -/
theorem dispatchLine_passes {s : State} {i n arr : Nat} {line : Bytes} (h : lineStatus (refill s i) i arr line = (0, 0)) :
    dispatchLine s i n arr line =
      match (laneRotation (tokenSpent (refill s i) i)).find? (fun l => laneReady (tokenSpent (refill s i) i) l &&
          laneRoom (tokenSpent (refill s i) i) l (lineCharge (lineOfRequest line))) with
      | some l => takeLane (tokenSpent (refill s i) i) i n arr l (lineCharge (lineOfRequest line)) line
      | none => hubLine (tokenSpent (refill s i) i) i n arr line 0x0101 1 := by
  have htoken := lineStatus_token h
  unfold dispatchLine
  dsimp only
  rw [h]
  dsimp only
  rw [if_neg (by decide), if_pos ⟨by decide, by decide, htoken⟩]
  rfl

/-! ## A lane that takes a line -/

section
variable (s : State) (i n arr l charge : Nat) (line : Bytes)

/-- The bay of a lane that takes a line: booked, with the line in the lane's I/O area. -/
def laneTaken : Bay :=
  { getBay s (laneBay l) with
    book := mset 0 (getBay s (laneBay l)).book (s.now / 2000 % 10240) (bookEntry s (laneBay l) (s.now / 2000) + charge)
    mem := mmod {} (getBay s (laneBay l)).mem (l % 4) (fun m => { m with io := .ofOp (Bytes.fieldLE line 0 1) s.free }) }

theorem takeLane_within :
    Within { insts := true, bays := true, sched := true, bad := true, free := true } s (takeLane s i n arr l charge line) := by
  unfold takeLane
  dsimp only [freshArea]
  rw [writeEngine_frame]
  rfl

theorem getInst_takeLane : getInst (takeLane s i n arr l charge line) i =
    setSlot { getInst s i with core := (getInst s i).core - Int.ofNat (charge * 1000) } n { getSlot (getInst s i) n with
      op := some { line := line, arr := arr, attachT := s.now, att := attachOf s i, lane := l, charge := charge } } := by
  unfold takeLane
  dsimp only [freshArea]
  rw [writeEngine_frame, getInst_modInst_same]
  rfl

theorem getInst_takeLane_other {j : Nat} (h : j ≠ i) : getInst (takeLane s i n arr l charge line) j = getInst s j := by
  unfold takeLane
  dsimp only [freshArea]
  rw [writeEngine_frame]
  exact mget_mset_other _ _ _ _ _ h

theorem getBay_takeLane : getBay (takeLane s i n arr l charge line) (laneBay l) = laneTaken s l charge line := by
  unfold takeLane
  dsimp only [freshArea]
  rw [writeEngine_frame]
  have hbook : getBay (setBook s (laneBay l) (s.now / 2000) (bookEntry s (laneBay l) (s.now / 2000) + charge)) (laneBay l) = _ :=
    getBay_setBay_same s _ _
  refine (getBay_setBay_same _ _ _).trans (congrArg (fun x : Bay => { x with
    mem := mmod {} x.mem (l % 4) (fun m => { m with io := .ofOp (Bytes.fieldLE line 0 1) s.free }) }) hbook)

theorem getBay_takeLane_other {b : Nat} (h : b ≠ laneBay l) : getBay (takeLane s i n arr l charge line) b = getBay s b := by
  unfold takeLane
  dsimp only [freshArea]
  rw [writeEngine_frame]
  exact (getBay_setBay_other _ _ _ _ h).trans (getBay_setBay_other s _ _ _ h)

/-- The slot holds its line in the lane. -/
theorem takeLane_slot : getSlot (getInst (takeLane s i n arr l charge line) i) n = { getSlot (getInst s i) n with
    op := some { line := line, arr := arr, attachT := s.now, att := attachOf s i, lane := l, charge := charge } } := by
  rw [getInst_takeLane, getSlot_setSlot_same]

/-- The charge is booked in the frame of now. -/
theorem takeLane_book : bookEntry (takeLane s i n arr l charge line) (laneBay l) (s.now / 2000) =
    bookEntry s (laneBay l) (s.now / 2000) + charge := by
  unfold bookEntry
  rw [getBay_takeLane]
  exact mget_mset_same _ _ _ _

/-- The line stands in the lane's I/O area. -/
theorem takeLane_io : (mget {} (getBay (takeLane s i n arr l charge line) (laneBay l)).mem (l % 4)).io =
    .ofOp (Bytes.fieldLE line 0 1) s.free := by
  rw [getBay_takeLane]
  exact congrArg EngMem.io (mget_mset_same _ _ _ _)

theorem takeLane_lastLane : (takeLane s i n arr l charge line).sched.lastLane = some l := by
  unfold takeLane
  dsimp only [freshArea]
  rw [writeEngine_frame]
  rfl

end

/-! ## The whole write -/

theorem exec_inlineRequestWrite {s : State} {arr t : Nat} {ld : LdNo} {i : InstNo} {slot : BitVec 10} {line : Bytes}
    (h : Lets (at_ s t) ld.toNat i.toNat (0x10000 + 128 * slot.toNat) false) : exec (.inlineRequestWrite arr t ld i slot line) s =
      .next (answerDone (requestWrite (at_ s t) ld.toNat i.toNat slot.toNat arr line) ld.toNat 0) :=
  congrArg Host.Outcome.next (ldAccess_lets h)

/-- What the host finds of a line that the hub decides. -/
theorem hubLine_answered {s w : State} {i n : Nat} (hw : Within { insts := true, bad := true } s w)
    (h : (getInst w i).leaving.contains n = false) (ld arr : Nat) (req : Bytes) (st hint : Nat) :
    (getSlot (getInst (answerDone (hubLine w i n arr req st hint) ld 0) i) n).st = .done ∧
      (getSlot (getInst (answerDone (hubLine w i n arr req st hint) ld 0) i) n).result =
        resultLine req st s.ctl.epoch 0x80 hint (s.now - arr) 0 [] := by
  rw [getInst_of_insts (answerDone_within _ ld 0 |>.same (·.insts)), hubLine_slot h, hw.same (·.ctl), hw.same (·.now)]
  exact ⟨rfl, rfl⟩

/-- Settles O8: the write is `requestWrite`; the hub's decisions are `hubLine`, whose slot is DONE with its line, and a lane that is
found takes the line by `takeLane`. -/
theorem inlineRequestIsTaken : Obligations.InlineRequestIsTaken := by
  unfold Obligations.InlineRequestIsTaken
  intro s arr t ld i slot line hl hslot
  have hb : backed (at_ s t) i.toNat (0x10000 + 128 * slot.toNat) false = true :=
    backed_slot (s := at_ s t) (off := 0) false (by decide) hslot slot.isLt
  have hq := requested_within (at_ s t) i.toNat slot.toNat (Bytes.fit 64 line)
  have hinst := getInst_requested (at_ s t) i.toNat slot.toNat (Bytes.fit 64 line)
  have hline := requested_slot (at_ s t) i.toNat slot.toNat (Bytes.fit 64 line)
  have hqother := fun j (hj : j ≠ i.toNat) => getInst_requested_other (at_ s t) hj slot.toNat (Bytes.fit 64 line)
  have htaken := fun hp => requestWrite_takes (s := at_ s t) (arr := arr) (line := line) hl.2.1 hb hp
  rw [exec_inlineRequestWrite hl]
  refine ⟨fun hp => ?_, fun hp h2 hlv => ?_, fun hp h2 w v hw hv => ?_⟩
  · rw [requestWrite_pending (s := at_ s t) hl.2.1 hb hp]
  · rw [htaken hp, if_pos (show (getInst (at_ s t) i.toNat).st = 2 from h2)]
    exact ⟨_, rfl, hubLine_answered hq (by rw [hinst]; exact hlv) _ _ _ _ _⟩
  · rw [htaken hp, if_neg (show ¬(getInst (at_ s t) i.toNat).st = 2 from h2)]
    change w = refill (requested (at_ s t) i.toNat slot.toNat (Bytes.fit 64 line)) i.toNat at hw
    generalize requested (at_ s t) i.toNat slot.toNat (Bytes.fit 64 line) = q at *
    obtain rfl : v = tokenSpent w i.toNat := hv
    have htoken := getInst_tokenSpent w i.toNat
    have hrefill := getInst_refill q i.toNat
    have hvslot := tokenSpent_slot q i.toNat slot.toNat
    have hvother := fun j (hj : j ≠ i.toNat) => getInst_tokenSpent_other q hj
    have hw' : Within { insts := true, bad := true } (at_ s t) w := hw ▸ hq.then (refill_within _ _)
    have hv : Within { insts := true, bad := true } (at_ s t) (tokenSpent w i.toNat) := hw'.then (modInst_within _ _ _)
    have hfails := @dispatchLine_fails q i.toNat slot.toNat arr
    have hpasses := @dispatchLine_passes q i.toNat slot.toNat arr (Bytes.fit 64 line)
    rw [← hw] at hvslot hrefill hfails hpasses
    simp only [← hw] at hvother
    generalize hvt : tokenSpent w i.toNat = v at *
    refine ⟨fun st hint hs h0 hlv => ?_, fun hs hlv hno => ?_, fun l hs hfind => ?_⟩
    · obtain ⟨w', hw'', he⟩ := hfails hs h0
      rw [he]
      refine ⟨_, rfl, ?_⟩
      obtain rfl | rfl := hw''
      · exact hubLine_answered hw' (by rw [hrefill, hinst]; exact hlv) _ _ _ _ _
      · exact hubLine_answered hv (by rw [htoken, hrefill, hinst]; exact hlv) _ _ _ _ _
    · rw [hpasses hs, hno]
      exact ⟨_, rfl, hubLine_answered hv (by rw [htoken, hrefill, hinst]; exact hlv) _ _ _ _ _⟩
    · rw [hpasses hs, hfind]
      dsimp only
      have hu := takeLane_within v i.toNat slot.toNat arr l (lineCharge (lineOfRequest (Bytes.fit 64 line))) (Bytes.fit 64 line)
      have hfinal : Within { now := true, insts := true, bays := true, dma := true, sched := true, bad := true, free := true, outbox := true } s
          (answerDone (takeLane v i.toNat slot.toNat arr l (lineCharge (lineOfRequest (Bytes.fit 64 line))) (Bytes.fit 64 line)) ld.toNat 0) :=
        ((((at_within s t).mono rfl).then hv).then hu).then (answerDone_within _ _ _)
      refine ⟨_, rfl, ?_⟩
      have hnow : v.now = (at_ s t).now := hv.same (·.now)
      have hslot := takeLane_slot v i.toNat slot.toNat arr l (lineCharge (lineOfRequest (Bytes.fit 64 line))) (Bytes.fit 64 line)
      rw [hvslot, hline] at hslot
      have hx := getInst_takeLane v i.toNat slot.toNat arr l (lineCharge (lineOfRequest (Bytes.fit 64 line))) (Bytes.fit 64 line)
      refine ⟨congrArg InSlot.st hslot, congrArg InSlot.req hslot, ⟨_, congrArg InSlot.op hslot, rfl, rfl, rfl, hnow, rfl⟩,
        (congrArg Inst.sub hx).trans ?_, (congrArg Inst.core hx).trans ?_, ?_, ⟨v.free, ?_⟩, fun b hb => ?_, ?_, fun j hj => ?_, ?_,
        hfinal⟩
      · exact congrArg Inst.sub htoken
      · rw [htoken]
        rfl
      · rw [← hnow]
        exact (takeLane_book v i.toNat slot.toNat arr l _ _).trans 
          (congrArg (fun b : Bay => mget 0 b.book _ + _) (getBay_of_bays (hv.same (·.bays)) _))
      · exact takeLane_io v i.toNat slot.toNat arr l _ _
      · exact (getBay_takeLane_other v i.toNat slot.toNat arr l _ _ hb).trans (getBay_of_bays (hv.same (·.bays)) b)
      · exact takeLane_lastLane v i.toNat slot.toNat arr l _ _
      · exact (getInst_takeLane_other v i.toNat slot.toNat arr l _ _ hj).trans ((hvother j hj).trans (hqother j hj))
      · exact congrArg (· ++ _) ((hu.same (·.outbox)).trans (hv.same (·.outbox)))

end Sys2Proof.Machine
end

section
/-! SUPPORT. A line in its lane (R85 to R90): the lookup at the hub, and the result line. -/

namespace Sys2Proof.Machine

-- One proof at a time: the check bounds the compiler's threads.
set_option Elab.async false

open Sys2Proof Sys2Proof.Safety

/-! ## The lookup -/

/-- A word whose source and sinks have their clocks arrives. -/
theorem crossing_arrives {s : State} {source sink : List Nat} (hs : source.all (islandRuns s) = true)
    (hk : sink.all (islandRuns s) = true) (c : Instr) (f : State → State) : crossing s source sink c f = f s := by
  unfold crossing
  rw [if_neg (ne_false_of_eq_true hs), if_pos hk]

/-- The memory of an engine that a change of it leaves. -/
theorem modMem_same (s : State) (b k : Nat) (f : EngMem → EngMem) :
    mget {} (getBay (modMem s b k f) b).mem k = f (mget {} (getBay s b).mem k) := by
  rw [show getBay (modMem s b k f) b = _ from getBay_setBay_same _ _ _]
  exact mget_mset_same _ _ _ _

section
variable {s : State} {i n : Nat} {o : LaneOp} (ho : (getSlot (getInst s i) n).op = some o)
include ho

theorem laneIsland_of_op : laneIsland s i n = [5 + laneBay o.lane] := by
  unfold laneIsland
  rw [ho]
  rfl

section
variable (hc : bayClockRuns s (laneBay o.lane) = true)
include hc

theorem inlineAt_of_op {st : LaneStage} (hst : o.stage = st) {sel : Bytes → Bool} (hsel : sel o.line = true) :
    inlineAt s i n st sel = some o := by
  unfold inlineAt
  rw [ho]
  exact if_pos ⟨hst, hsel, hc⟩

variable (hst : o.stage = .toLookup)
include hst

/-- A lookup that meets a mismatched word of the routing memories. -/
theorem lookupLine_fault {key : Nat} (hr : (lineOfRequest o.line).routed = true ∨ (lineOfRequest o.line).op = 2)
    (hf : routeFault s o.att.part o.att.epoch (lineOfRequest o.line).digits = some key) :
    lookupLine s i n = fixLine (raiseRoute s (5 + laneBay o.lane) key) i n { o with look := { status := 0x0801 } } (failNow s 0x0801) := by
  unfold lookupLine
  rw [inlineAt_of_op ho hc hst rfl]
  dsimp only
  rw [if_pos hr, Option.isSome_some, if_pos rfl, hf, Option.isSome_some, if_pos rfl]
  rfl

variable {l : Line} {route : Option (Option Nat)} {F : LineKeys × State} {D : Option Bytes × State} (hl : l = lineOfRequest o.line)
  (hf : l.routed = true ∨ l.op = 2 → routeFault s o.att.part o.att.epoch l.digits = none)
  (hroute : route = if l.routed ∨ l.op = 2 then some (routeLookup s o.att.part o.att.epoch l.digits) else none)
  (hF : F = lineKeys s l (5 + laneBay o.lane) o.att.tenant engInline route (keyByHandle s l.keyA o.att.epoch)
    (fun h => keyByHandle s h o.att.epoch))
include hl hf hroute hF

/-- A lookup over whole words goes on to the key work, and to the draw where that passes. -/
theorem lookupLine_whole (hD : D = if lineDraws l route.join o.att.matrix then draw F.2 (laneBay o.lane) 8 else (none, F.2)) :
    (F.1.status = 0 → lookupLine s i n = setLaneOp (modMem { D.2 with free := D.2.free + 1 } (laneBay o.lane) (o.lane % 4)
        (fun m => { m with key := .ofOp l.op D.2.free })) i n (some { o with
          stage := .looked, waits := F.1.waits
          look := { route := (F.1.route.join).getD 0, keyA := F.1.keyA, keyB := F.1.keyB, drawn := D.1 } })) ∧
    (F.1.status ≠ 0 → lookupLine s i n = fixLine (if F.1.status = 0x0601 then bump F.2 (odKey 0x5053 o.att.part) else F.2) i n
      { o with waits := F.1.waits, look := { status := F.1.status, route := (F.1.route.join).getD 0 } }
      { status := F.1.status, due := F.2.now }) := by
  have hnone : (if route.isSome then routeFault s o.att.part o.att.epoch l.digits else none) = none := by
    rw [hroute]
    split
    · next h => exact hf h
    · rfl
  unfold lookupLine
  rw [inlineAt_of_op ho hc hst rfl]
  dsimp only
  rw [← hl, ← hroute, hnone, ← hF]
  obtain ⟨lk, s1⟩ := F
  dsimp only at hD ⊢
  rw [Option.isSome_none, if_neg Bool.false_ne_true]
  refine ⟨fun h => ?_, fun h => ?_⟩
  · rw [if_neg (not_not_intro h), if_neg (show ¬lk.status = 0x0601 by omega), ← hD]
    rfl
  · rw [if_pos h]
    congr 2
    split <;> rfl

end
end

/-! ## The result line -/

section
variable (s : State) (i n island : Nat) (line : Bytes)

theorem getInst_writeLine : getInst (writeLine s i n island line) i =
    if (getInst s i).leaving.contains n then
      { setSlot (getInst s i) n {} with leaving := (getInst s i).leaving.filter (· != n) }
    else setSlot (getInst s i) n { getSlot (getInst s i) n with st := .done, result := line, held := none, op := none } := by
  have h : ∀ w : State, w = answerHeld (noteWriter (writeWords s memInline (inlineWord i n + 8) 8) memInline (inlineWord i n + 8) 8 island)
      (getSlot (getInst s i) n).held line → getInst w i = getInst s i := fun w hw => getInst_of_insts (by simp [hw]) i
  unfold writeLine
  dsimp only
  split
  · rw [getInst_modInst_same, h _ rfl]
  · rw [getInst_modInst_same, h _ rfl]

theorem getInst_writeLine_other {j : Nat} (hj : j ≠ i) : getInst (writeLine s i n island line) j = getInst s j := by
  have h : ∀ w : State, w = answerHeld (noteWriter (writeWords s memInline (inlineWord i n + 8) 8) memInline (inlineWord i n + 8) 8 island)
      (getSlot (getInst s i) n).held line → getInst w j = getInst s j := fun w hw => getInst_of_insts (by simp [hw]) j
  unfold writeLine
  dsimp only
  split
  · exact (getInst_setInst_other _ _ _ _ hj).trans (h _ rfl)
  · exact (getInst_setInst_other _ _ _ _ hj).trans (h _ rfl)

theorem getSlot_leaving (x : Inst) (ls : List Nat) (k : Nat) : getSlot { x with leaving := ls } k = getSlot x k := rfl

/-- Only the read that the slot holds is answered. -/
theorem writeLine_outbox : (∀ h, (getSlot (getInst s i) n).held = some h → ∃ load,
      (writeLine s i n island line).outbox = s.outbox ++ [.read h.ld h.tag load line]) ∧
    ((getSlot (getInst s i) n).held = none → (writeLine s i n island line).outbox = s.outbox) := by
  have hout : (writeLine s i n island line).outbox = (answerHeld (noteWriter (writeWords s memInline (inlineWord i n + 8) 8) memInline
      (inlineWord i n + 8) 8 island) (getSlot (getInst s i) n).held line).outbox := by
    unfold writeLine
    dsimp only
    split <;> rfl
  have hw : (noteWriter (writeWords s memInline (inlineWord i n + 8) 8) memInline (inlineWord i n + 8) 8 island).outbox = s.outbox :=
    ((noteWriter_within _ _ _ _ _).same (·.outbox)).trans ((writeWords_within s memInline (inlineWord i n + 8) 8).same (·.outbox))
  rw [hout]
  generalize noteWriter (writeWords s memInline (inlineWord i n + 8) 8) memInline (inlineWord i n + 8) 8 island = w at hw ⊢
  refine ⟨fun h hh => ⟨loadOf w h.ld, ?_⟩, fun hh => ?_⟩
  · rw [hh]
    exact congrArg (· ++ _) hw
  · rw [hh]
    exact hw

end

/-- What an ended line leaves beside its instance. -/
def endLineScope : Scope :=
  { insts := true, bays := true, cnt := true, evr := true, bad := true, writers := true, outbox := true, cache := true }

/-- The counting of an ended line, of its lateness too. -/
def endCounted (s : State) (i : Nat) (o : LaneOp) (st : Nat) : State :=
  if 201 < s.now - o.arr then
    noteLate (countStatus s i (Bytes.fieldLE o.line 0 1) st 0x22 0x23 false) i (laneBay o.lane) (Bytes.fieldLE o.line 0 1) st
      (s.now - o.arr - 201)
  else countStatus s i (Bytes.fieldLE o.line 0 1) st 0x22 0x23 false

theorem endCounted_within (s : State) (i : Nat) (o : LaneOp) (st : Nat) :
    Within { bays := true, cnt := true, evr := true } s (endCounted s i o st) :=
  .ite (((countStatus_within s _ _ _ _ _ _).mono rfl).then (noteLate_within _ _ _ _ _ _)) ((countStatus_within s _ _ _ _ _ _).mono rfl)

theorem endLine_eq (s : State) (i n : Nat) (o : LaneOp) (oc st : Nat) (out : Bytes)
    (h : st = if oc = 0 ∧ 201 < s.now - o.arr then 1 else oc) : endLine s i n o oc out =
      freeShelf (writeLine (endCounted s i o st) i n (5 + laneBay o.lane)
        (resultLine o.line st o.att.epoch o.lane 0 (s.now - o.arr) o.look.route out)) := by
  unfold endLine endCounted
  simp only [decide_eq_true_eq, ← h]

theorem endLine_within (s : State) (i n : Nat) (o : LaneOp) (oc : Nat) (out : Bytes) :
    Within endLineScope s (endLine s i n o oc out) := by
  rw [endLine_eq s i n o oc _ out rfl]
  exact (((endCounted_within s i o _).mono rfl).then (writeLine_within _ _ _ _ _)).then (freeShelf_within _)

theorem lineResult_ends {s : State} {i n : Nat} {o : LaneOp} {oc : Outcome} (ho : (getSlot (getInst s i) n).op = some o)
    (hoc : o.outcome = some oc) (hst : o.stage = .packed) (hw : o.waits = []) (hd : oc.due ≤ s.now)
    (hc : bayClockRuns s (laneBay o.lane) = true) : lineResult s i n = endLine s i n o oc.status oc.out := by
  unfold lineResult
  rw [ho]
  dsimp only
  rw [hoc]
  exact if_pos ⟨hst, hw, hd, hc⟩

/-- Settles O11: the lookup and the result line arrive at the hub; the lookup packs or sets its line, and the result line ends it. -/
theorem inlineLineCompletes : Obligations.InlineLineCompletes := by
  unfold Obligations.InlineLineCompletes
  intro s t i slot o ho hhub hc
  have hbay : [5 + laneBay o.lane].all (islandRuns (at_ s t)) = true := by
    rw [List.all_cons, List.all_nil, Bool.and_true]
    exact hc
  have hsink : [islHub].all (islandRuns (at_ s t)) = true := by
    rw [List.all_cons, List.all_nil, Bool.and_true]
    exact hhub
  have hlook : exec (.inlineLookup t i slot) s = .next (lookupLine (at_ s t) i.toNat slot.toNat) := by
    refine congrArg Host.Outcome.next (crossing_arrives ?_ hsink _ _)
    rw [laneIsland_of_op ho]
    exact hbay
  have hresult : exec (.inlineResultWrite t i slot) s = .next (lineResult (at_ s t) i.toNat slot.toNat) := by
    refine congrArg Host.Outcome.next (crossing_arrives ?_ hsink _ _)
    rw [laneIsland_of_op ho]
    exact hbay
  refine ⟨fun key hst hr hf => ?_, fun l route F D hst hl hf hroute hF hD => ⟨fun h => ?_, fun h => ?_⟩,
    fun oc lat st line hst hoc hw hd hlat hstat hline => ?_⟩
  · rw [hlook, lookupLine_fault (s := at_ s t) ho hc hst hr hf]
    exact ⟨_, rfl, fixLine_packs _ _ _ _ _⟩
  · rw [hlook, (lookupLine_whole (s := at_ s t) ho hc hst hl hf hroute hF hD).1 h]
    refine ⟨_, rfl, rfl, ?_, fun b hb => ?_⟩
    · exact congrArg EngMem.key (modMem_same _ _ _ _)
    · exact getBay_setBay_other _ _ _ _ hb
  · rw [hlook, (lookupLine_whole (s := at_ s t) ho hc hst hl hf hroute hF hD).2 h]
    exact ⟨_, rfl, fixLine_packs _ _ _ _ _⟩
  · subst hlat
    rw [hresult, lineResult_ends (s := at_ s t) ho hoc hst hw hd hc]
    have hu := endLine_within (at_ s t) i.toNat slot.toNat o oc.status oc.out
    have hcount := endCounted_within (at_ s t) i.toNat o st
    rw [endLine_eq (at_ s t) i.toNat slot.toNat o oc.status st oc.out hstat, ← hline] at hu ⊢
    generalize endCounted (at_ s t) i.toNat o st = c at *
    have hinst : ∀ j, getInst c j = getInst s j := getInst_of_insts (hcount.same (·.insts))
    have hwritten := getInst_writeLine c i.toNat slot.toNat (5 + laneBay o.lane) line
    have hother := fun j (hj : j ≠ i.toNat) => getInst_writeLine_other c i.toNat slot.toNat (5 + laneBay o.lane) line hj
    have hout := writeLine_outbox c i.toNat slot.toNat (5 + laneBay o.lane) line
    rw [hinst] at hwritten hout
    rw [hcount.same (·.outbox)] at hout
    refine ⟨_, rfl, fun hlv => ?_, fun hlv => ?_, hout.1, hout.2, fun n hn => ?_, fun j hj => ?_, ?_⟩
    · rw [if_neg (ne_true_of_eq_false hlv)] at hwritten
      have hslot := (congrArg (getSlot · slot.toNat) hwritten).trans (getSlot_setSlot_same _ _ _)
      exact ⟨congrArg InSlot.st hslot, congrArg InSlot.held hslot, congrArg InSlot.op hslot, congrArg InSlot.result hslot⟩
    · rw [if_pos hlv] at hwritten
      have hslot := (congrArg (getSlot · slot.toNat) hwritten).trans
        ((getSlot_leaving _ _ _).trans (getSlot_setSlot_same _ _ _))
      refine ⟨hslot, (congrArg (fun x : Inst => x.leaving.contains slot.toNat) hwritten).trans ?_⟩
      simp
    · refine (congrArg (getSlot · n) hwritten).trans ?_
      split
      · exact (getSlot_leaving _ _ _).trans (getSlot_setSlot_other _ _ _ _ hn)
      · exact getSlot_setSlot_other _ _ _ _ hn
    · exact (hother j hj).trans (hinst j)
    · exact (((at_within s t).mono rfl).then hu : Within { endLineScope with now := true } s _)

end Sys2Proof.Machine
end

section
/-! SUPPORT. NOP and ROUTE_LOOKUP at the hub and in a lane (R113, R184). -/

namespace Sys2Proof.Machine

-- One proof at a time: the check bounds the compiler's threads.
set_option Elab.async false

open Sys2Proof Sys2Proof.Safety

/-! ## In a lane -/

/-- The round work of a line whose turn it is in its lane (R87, R88). -/
theorem inlineLine_packs {s : State} {i n opcode : Nat} {o : LaneOp} {l : Line} {v : LineEnd}
    (h : inlineAt s i n .looked (fun b => Bytes.fieldLE b 0 1 == opcode) = some o) (hf : laneFirst s o = true)
    (hl : l = lineOfRequest o.line) (hv : v = lineVerdict l (keyBytes o.look.keyA) (keyBytes o.look.keyB)
      (if l.routed ∨ l.op = 2 then some o.look.route else none) o.att.matrix o.att.fmt0Max o.look.drawn) :
    Packs s (inlineLine opcode i n s) i n o
      { status := v.status, out := v.out, outLen := v.out.length, due := s.now, roundT := if v.full then some s.now else none } := by
  subst hv hl
  unfold inlineLine
  rw [h]
  dsimp only
  rw [if_neg (ne_false_of_eq_true hf)]
  exact fixLine_packs _ _ _ _ _

theorem lineVerdict_hub {l : Line} (h : l.op = 1 ∨ l.op = 2) (ka kb : Bytes) (route : Option Nat) (matrix fmt0Max : Nat)
    (drawn : Option Bytes) : lineVerdict l ka kb route matrix fmt0Max drawn = { status := 0 } := by
  unfold lineVerdict lineDraws lineStepA
  obtain h | h := h <;> rw [h] <;> rfl

/-! ## At the hub -/

/-- What an ended operation shows of instance and entries is the same from any state that agrees on both. -/
theorem ended_of_same {s w u : State} {i : Nat} {o : RingOp} {e : Bytes} (h : Ended w u i o e) (hi : getInst w i = getInst s i)
    (hc : w.ctl = s.ctl) : Ended s u i o e := by
  unfold Ended at *
  rwa [hi, hc] at h

/-- An operation without an output region completes at the hub with its entry alone. -/
theorem endRing_atHub {s : State} {o : RingOp} (ho : o.stage = .atHub) (hout : outRegion o.snap 0 = none) (i st : Nat) :
    endRing s i o st 0 [] [] = completeRing s i o st o.att.epoch 0xFF 0 0 (routeRes o st []) := by
  unfold endRing writeStaged
  simp only [ho, hout, bne_self_eq_false, Bool.and_false, Bool.false_eq_true, and_false, if_false, if_true, ite_self]

theorem hubOp_noOutput {d : Bytes} (h : dOp d = 1 ∨ dOp d = 2) : outRegion d 0 = none := by
  unfold outRegion
  obtain h | h := h <;> rw [h] <;> rfl

theorem routeRes_nop {o : RingOp} (h : dOp o.snap = 1) (st : Nat) : routeRes o st [] = [] := by
  unfold routeRes
  rw [h]
  exact ite_self _

theorem routeRes_lookup {o : RingOp} (h : dOp o.snap = 2) : routeRes o 0 [] = Bytes.zeros 32 ++ Bytes.ofNatLE 4 ((o.route.join).getD 0) := by
  unfold routeRes
  rw [h]
  rfl

theorem routeRes_fails {o : RingOp} {st : Nat} (hs : 1 < st) (h : st = 0x0801 ∨ o.route = some none) : routeRes o st [] = [] := by
  unfold routeRes
  rw [if_neg (show ¬st ≤ 1 by omega)]
  split
  · obtain rfl | h := h
    · split <;> rfl
    · rw [h]
  · exact ite_self _

section
variable {s : State} {i c opcode : Nat} {o : RingOp} (ho : findOp (getInst s i) c = some o) (hst : o.stage = .atHub)
  (hop : dOp o.snap = opcode) {w : State} {st : Nat} {res : Bytes}
  (hw : w = match o.routeBad with | some key => raiseRoute s islHub key | none => s)
  (hst' : (st, res) = (if o.routeBad.isSome then (0x0801, []) else if o.route = some none then (0x0601, [])
    else (0, if opcode = 2 then Bytes.zeros 32 ++ Bytes.ofNatLE 4 ((o.route.join).getD 0) else [])))
include ho hst hop hw hst'

theorem ringHub_ends (h12 : opcode = 1 ∨ opcode = 2) :
    ringHub opcode i c s = completeRing w i o st o.att.epoch 0xFF 0 0 res := by
  have hres : routeRes o st [] = res := by
    split at hst'
    · cases hst'
      exact routeRes_fails (by decide) (.inl rfl)
    · split at hst'
      · next h =>
        cases hst'
        exact routeRes_fails (by decide) (.inr h)
      · cases hst'
        obtain rfl | rfl := h12
        · exact routeRes_nop hop 0
        · exact routeRes_lookup hop
  have hend := fun v st => endRing_atHub (s := v) hst (hubOp_noOutput (d := o.snap) (by rw [hop]; exact h12)) i st
  unfold ringHub
  rw [ho]
  dsimp only
  rw [if_pos ⟨hst, hop⟩, ← hres, hw]
  cases hb : o.routeBad with
  | some key =>
    rw [hb] at hst'
    cases hst'
    exact hend _ _
  | none =>
    rw [hb] at hst'
    dsimp only
    by_cases hr : o.route = some none
    · rw [hr] at hst' ⊢
      cases hst'
      exact hend _ _
    · rw [Option.isSome_none, if_neg Bool.false_ne_true, if_neg hr] at hst'
      cases hst'
      split
      · next h => cases h
      · next h => exact absurd h hr
      · exact hend _ _

end

theorem raiseRoute_within (s : State) (sink key : Nat) :
    Within { modes := true, alarm := true, cnt := true, evr := true } s (raiseRoute s sink key) := raiseFabric_within _ _ _ _

/-- Settles O16: at the hub each comes to a completion of its entry, in a lane to a verdict without output. -/
theorem hubOperationsComplete : Obligations.HubOperationsComplete := by
  unfold Obligations.HubOperationsComplete
  intro s t i c slot
  refine ⟨fun p o hp ho hst hop w st res hw hres => ?_, fun p o hp h hop hf => ?_⟩
  · have hrun : (p.2 = 1 ∨ p.2 = 2) ∧ exec p.1 s = .next (ringHub p.2 i.toNat c.toNat (at_ s t)) := by
      simp only [List.mem_cons, List.not_mem_nil, or_false] at hp
      obtain rfl | rfl := hp
      · exact ⟨.inl rfl, rfl⟩
      · exact ⟨.inr rfl, rfl⟩
    have hframe : Within { now := true, modes := true, alarm := true, cnt := true, evr := true } s w := by
      rw [hw]
      split
      · exact ((at_within s t).mono rfl).then (raiseRoute_within _ _ _)
      · exact (at_within s t).mono rfl
    have hnow : w.now = (at_ s t).now := by
      rw [hw]
      split
      · exact (raiseRoute_within _ _ _).same (·.now)
      · rfl
    have hi := getInst_of_insts (hframe.same (·.insts)) i.toNat
    obtain ⟨hend, hbeside, hinst⟩ := completeRing_ends w i.toNat o st o.att.epoch 0xFF 0 0 res
    rw [hrun.2, ringHub_ends (s := at_ s t) ho hst hop hw hres hrun.1]
    rw [hi] at hinst
    rw [hframe.same (·.ctl), hnow] at hend
    exact ⟨_, rfl, ended_of_same hend hi (hframe.same (·.ctl)), hbeside, (congrArg Inst.slots hinst).trans rfl,
      fun a => (congrArg (fun x : Inst => Memory.read x.staging a) hinst).trans rfl⟩
  · have hrun : (p.2 = 1 ∨ p.2 = 2) ∧ exec p.1 s = .next (inlineLine p.2 i.toNat slot.toNat (at_ s t)) := by
      simp only [List.mem_cons, List.not_mem_nil, or_false] at hp
      obtain rfl | rfl := hp
      · exact ⟨.inl rfl, rfl⟩
      · exact ⟨.inr rfl, rfl⟩
    have hpacks := inlineLine_packs (s := at_ s t) h hf rfl rfl
    rw [lineVerdict_hub (by rw [hop]; exact hrun.1)] at hpacks
    exact ⟨_, hrun.2, hpacks⟩

end Sys2Proof.Machine
end

section
/-! SUPPORT. Key fetches, claims and draws: what they give and what they change (R122, R145 to R152, R248); and the line-form operations
on a ring and in a lane (R166 to R173). -/

namespace Sys2Proof.Machine

-- One proof at a time: the check bounds the compiler's threads.
set_option Elab.async false

open Sys2Proof Sys2Proof.Safety

/-! ## Frames -/

/-- What a key fetch may change: guards and the journal's stage, and what an event of FABRIC writes. -/
def fetchScope : Scope :=
  { modes := true, alarm := true, slots := true, cache := true, journal := true, cnt := true, evr := true }

/-- What a draw may change. -/
def drawScope : Scope := { bays := true, reqs := true, cnt := true }

section
variable (s : State)

theorem putGuard_within (p : Place) (g : Guard) : Within { slots := true, cache := true } s (putGuard s p g) := by
  unfold putGuard
  cases p <;> rfl

theorem postReservation_within (r : JourRec) : Within { journal := true } s (postReservation s r) := by
  unfold postReservation
  exact .ite (.refl s) rfl

theorem slotMismatch_within (sink : Nat) (found : Option (Key × Nat × Place)) :
    Within { modes := true, alarm := true, cnt := true, evr := true } s (slotMismatch s sink found) := by
  unfold slotMismatch
  split
  · exact raiseFabric_within _ _ _ _
  · exact raiseFabric_within _ _ _ _
  · exact .refl s

theorem refusedKey_within (sink st : Nat) (found : Option (Key × Nat × Place)) :
    Within { modes := true, alarm := true, cnt := true, evr := true } s (refusedKey s sink st found) :=
  .ite (slotMismatch_within s sink found) (.refl s)

theorem claimKey_within (k : Key) (gen : Nat) (p : Place) (owed : Nat) : Within fetchScope s (claimKey s k gen p owed).2.1 := by
  unfold claimKey
  dsimp only
  split
  · exact .refl s
  · split
    · exact .refl s
    · exact ((bump_within s _).mono rfl).then (recordLimited_within _ _ _ _)
    · split
      · exact ((putGuard_within s _ _).mono rfl).then (postReservation_within _ _)
      · exact (putGuard_within s _ _).mono rfl

theorem fetchKey_within (sink tenant : Nat) (r : Role) (found : Option (Key × Nat × Place)) (supplied claims : Key → Bool) (owed : Nat) :
    Within fetchScope s (fetchKey s sink tenant r found supplied claims owed).2.1 := by
  unfold fetchKey
  dsimp only
  split
  · exact (refusedKey_within s _ _ _).mono rfl
  · split
    · exact .refl s
    · next k gen p _ =>
      split
      · exact .refl s
      · split
        · split
          · exact claimKey_within s k gen p owed
          · exact claimKey_within s k gen p owed
        · split <;> exact .refl s

theorem lineKeys_within (l : Line) (sink tenant eng : Nat) (route : Option (Option Nat)) (foundA : Option (Key × Nat × Place))
    (findB : Nat → Option (Key × Nat × Place)) : Within fetchScope s (lineKeys s l sink tenant eng route foundA findB).2 := by
  unfold lineKeys
  have hA : ∀ f w wa, (if lineUsesA l then fetchKey s sink tenant (lineRoleA l eng) foundA noNonce always
      else (.got {} 0 0, s, [])) = (f, w, wa) → Within fetchScope s w := by
    intro f w wa h
    split at h
    · rw [← show _ = w from congrArg (fun x : Fetched × State × List Nat => x.2.1) h]
      exact fetchKey_within _ _ _ _ _ _ _ _
    · cases h
      exact .refl s
  generalize (if lineUsesA l then _ else _) = A at hA ⊢
  obtain ⟨f, w, wa⟩ := A
  have hw := hA f w wa rfl
  cases f with
  | refused st => exact hw
  | got ka gen v =>
    dsimp only
    split
    · exact hw
    · split
      · exact hw
      · split <;> exact hw.trans (fetchKey_within _ _ _ _ _ _ _ _)

theorem modDrbg_within (b : Nat) (f : Drbg → Drbg) : Within { bays := true } s (modDrbg s b f) := rfl

theorem generate_within (b n : Nat) : Within drawScope s (generate s b n).2 :=
  (((modDrbg_within s b _).mono rfl).then (modDrbg_within _ b _)).then (askReseed_within _ _ _) (by rfl)

theorem refillReserve_within (b : Nat) : Within drawScope s (refillReserve s b) := by
  have h := generate_within s b 2048
  unfold refillReserve
  generalize generate s b 2048 = g at h ⊢
  exact h.then (modDrbg_within g.2 b _)

theorem applyReseed_within (b : Nat) : Within drawScope s (applyReseed s b) := by
  unfold applyReseed
  split
  · next seed _ =>
    have h := fun f : Drbg → Drbg => ((modDrbg_within s b f).mono rfl : Within drawScope s _).then
      (bump_within _ (odKey (0x3020 + b) 3))
    exact .ite ((h _).then (modDrbg_within _ _ _)) (h _)
  · exact .refl s

theorem serveFirst_within (b : Nat) : Within drawScope s (serveFirst s b) :=
  (applyReseed_within s b).trans (.each (fun s _ => .ite (refillReserve_within s b) (.refl s)) _ _)

theorem draw_within (b n : Nat) : Within drawScope s (draw s b n).2 := by
  unfold draw
  have hserved := serveFirst_within s b
  have hmaybe : Within drawScope s (if (drbgOf s b).reserve.length < n then serveFirst s b else s) := .ite hserved (.refl s)
  dsimp only
  split
  · split
    · have hgiven := hserved.trans (generate_within (serveFirst s b) b n)
      generalize generate (serveFirst s b) b n = g at hgiven ⊢
      exact hgiven
    · exact hserved.then (bump_within (serveFirst s b) _)
  · generalize (if (drbgOf s b).reserve.length < n then serveFirst s b else s) = w at hmaybe ⊢
    split
    · exact hmaybe.then (bump_within _ _)
    · have htaken := hmaybe.then (modDrbg_within w b (fun d => { d with reserve := (drbgOf w b).reserve.drop n }))
      generalize modDrbg w b (fun d => { d with reserve := (drbgOf w b).reserve.drop n }) = v at htaken ⊢
      dsimp only
      exact .ite (htaken.then (modDrbg_within v b _)) htaken

end

/-! ## Operations that begin -/

section
variable {s w : State} {i c : Nat} {sel : Bytes → Bool} {o : RingOp}

/-- An operation that its instance owns is found under its count. -/
theorem findOp_count {x : Inst} (h : findOp x c = some o) : o.count = c := by
  unfold findOp at h
  simpa using List.find?_some h

/-- An operation that may start is its instance's, whatever else a state differs in. -/
theorem startable_owned (h : startable s i c sel = some o) (hw : w.insts = s.insts) : (findOp (getInst w i) o.count).isSome := by
  unfold startable at h
  rw [getInst_of_insts hw]
  split at h
  · next o' ho =>
    split at h
    · obtain rfl : o' = o := Option.some.inj h
      rw [findOp_count ho, ho]
      rfl
    · cases h
  · cases h

theorem fixOutcome_started (h : startable s i c sel = some o) (hw : w.insts = s.insts) (o' : RingOp) (hc : o'.count = o.count)
    (oc : Outcome) : Fixes w (fixOutcome w i o' oc) i o' oc :=
  fixOutcome_fixes w i o' oc (by rw [hc]; exact startable_owned h hw)

theorem beginOp_started (h : startable s i c sel = some o) (hw : w.insts = s.insts) (o' : RingOp) (hc : o'.count = o.count)
    (oc : Option Outcome) : Begins w (beginOp w i o' oc) i o' oc :=
  beginOp_begins w i o' oc (by rw [hc]; exact startable_owned h hw)

end

/-! ## Line-form operations -/

section
variable {s : State} {i c opcode : Nat} {o : RingOp} {l : Line} {F : LineKeys × State} {D : Option Bytes × State} {v : LineEnd}
  (h : startable s i c (fun d => dOp d == opcode) = some o) (hl : l = lineOfDescriptor o.snap)
include h

theorem ringLine_fault {key : Nat} (hb : o.routeBad = some key) : Fixes (raiseRoute s (5 + o.bay) key) (ringLine opcode i c s) i o
    { status := 0x0801, due := s.now } := by
  unfold ringLine
  rw [h]
  dsimp only
  rw [hb, Option.isSome_some, if_pos rfl]
  exact fixOutcome_started h ((raiseRoute_within _ _ _).same (·.insts)) o rfl _

variable (hb : o.routeBad = none) (hF : F = lineKeys s l (5 + o.bay) o.att.tenant engCipher o.route (keyAOf s o)
  (fun h => if l.routed then keyByHandle s h o.att.epoch else keyBOf s o))
include hl hb hF

theorem ringLine_refused (hst : F.1.status ≠ 0) :
    Fixes F.2 (ringLine opcode i c s) i o { status := F.1.status, due := F.2.now } := by
  have hw : F.2.insts = s.insts := by
    rw [hF]
    exact (lineKeys_within _ _ _ _ _ _ _ _).same (·.insts)
  unfold ringLine
  rw [h]
  dsimp only
  rw [hb, Option.isSome_none, if_neg Bool.false_ne_true, ← hl, ← hF, if_pos hst]
  exact fixOutcome_started h hw o rfl _

theorem ringLine_runs (hst : F.1.status = 0) (hD : D = if lineDraws l o.route.join o.att.matrix then draw F.2 o.bay 8 else (none, F.2))
    (hv : v = lineVerdict l (keyBytes F.1.keyA) (keyBytes F.1.keyB) o.route.join o.att.matrix o.att.fmt0Max D.1) :
    Fixes D.2 (ringLine opcode i c s) i { o with waits := o.waits ++ F.1.waits }
      { status := v.status, res := v.out, outLen := v.out.length
        due := if v.full then D.2.now + segTime o.plan else D.2.now, roundT := if v.full then some D.2.now else none } := by
  have hw : D.2.insts = s.insts := by
    have hk : F.2.insts = s.insts := by
      rw [hF]
      exact (lineKeys_within _ _ _ _ _ _ _ _).same (·.insts)
    rw [hD]
    split
    · exact ((draw_within _ _ _).same (·.insts)).trans hk
    · exact hk
  have he : ringLine opcode i c s = fixOutcome D.2 i (withWaits o F.1.waits)
      { status := v.status, res := v.out, outLen := v.out.length
        due := if v.full then D.2.now + segTime o.plan else D.2.now, roundT := if v.full then some D.2.now else none } := by
    unfold ringLine
    rw [h]
    dsimp only
    rw [hb, Option.isSome_none, if_neg Bool.false_ne_true, ← hl, ← hF, if_neg (not_not_intro hst), ← hD, ← hv]
  rw [he]
  exact fixOutcome_started h hw (withWaits o F.1.waits) rfl _

end

/-- Settles O17: on a ring the operation is `ringLine`, whose branches are those of the statement; in a lane it is `inlineLine`. -/
theorem lineOperationsRun : Obligations.LineOperationsRun := by
  unfold Obligations.LineOperationsRun
  intro s t i c slot
  refine ⟨fun p o l F D v hp h hl hF hD hv => ?_, fun p o l v hp h hf hl hv => ?_⟩
  · have hrun : exec p.1 s = .next (ringLine p.2 i.toNat c.toNat (at_ s t)) := by
      simp only [List.mem_cons, List.not_mem_nil, or_false] at hp
      rcases hp with rfl | rfl | rfl | rfl | rfl | rfl | rfl | rfl <;> rfl
    rw [hrun]
    exact ⟨fun key hb => ⟨_, rfl, ringLine_fault h hb⟩, fun hb hst => ⟨_, rfl, ringLine_refused h hl hb hF hst⟩,
      fun hb hst => ⟨_, rfl, ringLine_runs h hl hb hF hst hD hv⟩⟩
  · have hrun : exec p.1 s = .next (inlineLine p.2 i.toNat slot.toNat (at_ s t)) := by
      simp only [List.mem_cons, List.not_mem_nil, or_false] at hp
      rcases hp with rfl | rfl | rfl | rfl | rfl | rfl | rfl | rfl <;> rfl
    exact ⟨_, hrun, inlineLine_packs (s := at_ s t) h hf hl hv⟩

end Sys2Proof.Machine
end

section
/-! SUPPORT. Claims of guarded keys (R146 to R152). -/

namespace Sys2Proof.Machine

-- One proof at a time: the check bounds the compiler's threads.
set_option Elab.async false

open Sys2Proof Sys2Proof.Safety

/-! ## Guards -/

section
variable {s : State} {k : Key} {g : Guard} {mayOpen : Bool} {owed : Nat}

theorem claimGuard_refused (h : g.lost = true ∨ guardBound k g ≤ g.v) : claimGuard s k g mayOpen owed = .refused := if_pos h

section
variable (hl : g.lost = false) (hv : g.v < guardBound k g)
include hl hv

theorem guard_notRefused : ¬(g.lost = true ∨ guardBound k g ≤ g.v) := by
  rw [hl]
  simp only [Bool.false_eq_true, false_or]
  omega

theorem claimGuard_inBlock (hc : g.v < g.ceiling) : claimGuard s k g mayOpen owed = .value g.v false { g with v := g.v + 1 } := by
  unfold claimGuard
  rw [if_neg (guard_notRefused hl hv), if_pos hc]

theorem claimGuard_newBlock (hc : g.ceiling ≤ g.v) (hf : stageFull s owed = false) :
    claimGuard s k g true owed = .value g.v true { g with v := g.v + 1, ceiling := g.ceiling + 65536 } := by
  unfold claimGuard
  rw [if_neg (guard_notRefused hl hv), if_neg (by omega), if_neg (by decide), if_neg (ne_true_of_eq_false hf)]

theorem claimGuard_stalled (hc : g.ceiling ≤ g.v) (hf : stageFull s owed = true) : claimGuard s k g true owed = .stalled := by
  unfold claimGuard
  rw [if_neg (guard_notRefused hl hv), if_neg (by omega), if_neg (by decide), if_pos hf]

end
end

/-! ## A resident key -/

section
variable {s : State} {h : Nat} {k : Key} {gen : Nat}

theorem counterPlace_resident (n : Nat) : counterPlace s n (.resident h) = .resident h := by cases n <;> rfl

/-- A guard written back to a resident key. -/
theorem slotAt_putGuard (hk : (slotAt s h).key = some k) (g : Guard) :
    (slotAt (putGuard s (.resident h) g) h).key = some { k with guard := some g } := by
  have hslot : slotAt (putGuard s (.resident h) g) h = _ := mget_mset_same _ _ _ _
  rw [hslot]
  exact congrArg (Option.map _) hk

theorem slotAt_putGuard_other {h' : Nat} (hne : h' ≠ h) (g : Guard) : slotAt (putGuard s (.resident h) g) h' = slotAt s h' :=
  mget_mset_other _ _ _ _ _ hne

theorem slotAt_postReservation (r : JourRec) (h' : Nat) : slotAt (postReservation s r) h' = slotAt s h' := by
  unfold slotAt
  rw [(postReservation_within s r).same (·.keys.slots)]

theorem postReservation_stage (r : JourRec) : (postReservation s r).keys.journal.stage =
    s.keys.journal.stage ++ (if s.life.debug = true then [] else [{ r := r, durable := false, postedT := s.now }]) := by
  unfold postReservation
  split
  · exact (List.append_nil _).symm
  · rfl

theorem putGuard_claims (g : Guard) : ClaimFrame s (putGuard s (.resident h) g) := rfl

theorem postReservation_claims (g : Guard) (r : JourRec) : ClaimFrame s (postReservation (putGuard s (.resident h) g) r) := by
  unfold postReservation
  split <;> rfl

variable (hk : (slotAt s h).key = some k) (hg : (slotAt s h).gen = gen)
include hk hg

theorem claimKey_resident : claimKey s k gen (.resident h) = match k.guard with
    | none => (0, s, 0, none)
    | some g => match claimGuard s k g true with
      | .refused => (0x0305, s, 0, none)
      | .stalled => (0x0305, recordLimited (bump s (odKey 0x6020 6)) 0x5104 (src 2 0) (Bytes.ofNatLE 4 h), 0, none)
      | .value v newBlock g' =>
        if newBlock then
          (0, postReservation (putGuard s (.resident h) g') { slot := h, nonce := g.nonce, gen := gen, ceiling := g'.ceiling }, v,
            if s.life.debug then none else some h)
        else (0, putGuard s (.resident h) g', v, if reservationOpen s h gen then some h else none) := by
  have hat : keyAt s (.resident h) = some (k, gen) := by
    unfold keyAt
    dsimp only
    rw [hk, hg]
    rfl
  unfold claimKey
  rw [counterPlace_resident]
  dsimp only
  rw [hat]
  rfl

section
variable {sink tenant : Nat} {r : Role} (hc : checkKey s tenant r (some (k, gen, .resident h)) = 0)
include hc

omit hk hg in
theorem fetchKey_claimed {w : State} {v : Nat} {x : Option Nat} (hcl : claimKey s k gen (.resident h) = (0, w, v, x)) :
    fetchKey s sink tenant r (some (k, gen, .resident h)) noNonce always = (.got k gen v, w, x.toList) := by
  unfold fetchKey
  dsimp only
  rw [hc, if_neg (not_not_intro rfl), hcl]
  rfl

omit hk hg in
theorem fetchKey_notClaimed {w : State} {st v : Nat} {x : Option Nat} (hst : st ≠ 0)
    (hcl : claimKey s k gen (.resident h) = (st, w, v, x)) :
    fetchKey s sink tenant r (some (k, gen, .resident h)) noNonce always = (.refused st, w, []) := by
  unfold fetchKey
  dsimp only
  rw [hc, if_neg (not_not_intro rfl), hcl]
  exact if_pos hst

omit hk hg in
theorem fetchKey_claimsNothing : fetchKey s sink tenant r (some (k, gen, .resident h)) noNonce (fun _ => false) =
    if keyLost k then (.refused 0x0305, s, []) else (.got k gen 0, s, []) := by
  unfold fetchKey
  dsimp only
  rw [hc, if_neg (not_not_intro rfl)]
  rfl

end
end

/-- Settles O18: the key fetch of a resident key is its claim, which is that of its guard. -/
theorem claimsConsume : Obligations.ClaimsConsume := by
  unfold Obligations.ClaimsConsume
  intro s sink tenant r k gen h hc hk hg
  have hclaim := claimKey_resident hk hg
  refine ⟨fun hl => ?_, fun hl => ?_, fun hn => ?_, fun g hgu => ?_⟩
  · rw [fetchKey_claimsNothing hc, if_pos hl]
  · rw [fetchKey_claimsNothing hc, if_neg (ne_true_of_eq_false hl)]
  · rw [hn] at hclaim
    exact fetchKey_claimed hc hclaim
  · rw [hgu] at hclaim
    dsimp only at hclaim
    refine ⟨fun hr => ?_, fun hl hv hroom => ?_, fun hl hv hce hf => ?_⟩
    · rw [claimGuard_refused hr] at hclaim
      exact fetchKey_notClaimed hc (by decide) hclaim
    · by_cases hce : g.v < g.ceiling
      · rw [claimGuard_inBlock hl hv hce] at hclaim
        simp only [if_pos hce, if_pos (show g.v < g.ceiling ∨ s.life.debug = true from .inl hce)]
        refine ⟨_, _, fetchKey_claimed hc hclaim, putGuard_claims _, slotAt_putGuard hk _, fun h' hne => slotAt_putGuard_other hne _,
          (List.append_nil _).symm, ?_⟩
        cases reservationOpen s h gen <;> rfl
      · have hf : stageFull s = false := hroom.resolve_left hce
        rw [claimGuard_newBlock hl hv (by omega) hf] at hclaim
        simp only [false_or, hce]
        refine ⟨_, _, fetchKey_claimed hc hclaim, postReservation_claims _ _, ?_, fun h' hne => ?_, postReservation_stage _, ?_⟩
        · exact (congrArg Slot.key (slotAt_postReservation _ _)).trans (slotAt_putGuard hk _)
        · exact (slotAt_postReservation _ _).trans (slotAt_putGuard_other hne _)
        · cases s.life.debug <;> rfl
    · rw [claimGuard_stalled hl hv hce hf] at hclaim
      exact ⟨_, fetchKey_notClaimed hc (by decide) hclaim, (((bump_within s _).mono rfl).then (recordLimited_within _ _ _ _)).noted⟩

end Sys2Proof.Machine
end

section
/-! SUPPORT. CIPHER, the MACs of the buffer form and RANDOM as they start (R116, R134 to R142, R249). -/

namespace Sys2Proof.Machine

-- One proof at a time: the check bounds the compiler's threads.
set_option Elab.async false

open Sys2Proof Sys2Proof.Safety

/-! ## Starts -/

section
variable {s w : State} {i c : Nat} {sel : Bytes → Bool} {o : RingOp}

theorem startable_sel (h : startable s i c sel = some o) : sel o.snap = true := by
  unfold startable at h
  split at h
  · split at h
    · next hb =>
      cases h
      exact hb.2.1
    · cases h
  · cases h

/-- A key fetch leaves the instances alone. -/
theorem fetchKey_insts {f : Fetched} {hs : List Nat} {sink tenant : Nat} {r : Role} {found : Option (Key × Nat × Place)}
    {supplied claims : Key → Bool} (h : fetchKey s sink tenant r found supplied claims = (f, w, hs)) : w.insts = s.insts := by
  have hw := (fetchKey_within s sink tenant r found supplied claims 0).same (·.insts)
  rwa [h] at hw

theorem beginJob_waits {hs : List Nat} {k : Key} {v : Nat} {end_ : RingOp → Outcome} (h : startable s i c sel = some o)
    (hw : w.insts = s.insts) (hr : inputReady o = false) : Begins w (beginJob w i (withWaits o hs) k v end_) i
      { o with waits := o.waits ++ hs, job := some { key := k, v := v } } none := by
  have he : beginJob w i (withWaits o hs) k v end_ = beginOp w i { withWaits o hs with job := some { key := k, v := v } } none :=
    if_neg (ne_true_of_eq_false hr)
  rw [he]
  exact beginOp_started h hw { withWaits o hs with job := some { key := k, v := v } } rfl none

theorem beginJob_ends {hs : List Nat} {k : Key} {v : Nat} {end_ : RingOp → Outcome} (h : startable s i c sel = some o)
    (hw : w.insts = s.insts) (hr : inputReady o = true) : Fixes w (beginJob w i (withWaits o hs) k v end_) i
      { o with waits := o.waits ++ hs } (end_ { withWaits o hs with t0 := w.now }) := by
  have he : beginJob w i (withWaits o hs) k v end_ = fixOutcome w i (withWaits o hs) (end_ { withWaits o hs with t0 := w.now }) :=
    if_pos hr
  rw [he]
  exact fixOutcome_started h hw (withWaits o hs) rfl _

end

/-! ## CIPHER -/

section
variable {s w : State} {i c mode : Nat} {o : RingOp} {dec : Bool} {supplied : Key → Bool} {hs : List Nat}
  (h : startable s i c (fun d => dOp d == 0x40 && cipherMode d == mode) = some o) (hdec : dec = cipherDecrypts o.snap)
  (hsup : supplied = fun k => isNonceKey k && !dec && !Bytes.allZero ((dPrm o.snap).take (ivLen mode (if isTdes k.type then 8 else 16))))
include h hdec hsup

theorem ringCipher_refused {st : Nat} (hF : fetchKey s (5 + o.bay) o.att.tenant (cipherRole mode dec) (keyAOf s o) supplied
    (cipherClaims dec) = (.refused st, w, hs)) : Fixes w (ringCipher mode i c s) i o { status := st, due := w.now } := by
  subst hdec hsup
  unfold ringCipher
  rw [h]
  dsimp only
  rw [hF]
  exact fixOutcome_started h (fetchKey_insts hF) o rfl _

theorem ringCipher_fetched {k : Key} {gen v : Nat} (hF : fetchKey s (5 + o.bay) o.att.tenant (cipherRole mode dec) (keyAOf s o) supplied
    (cipherClaims dec) = (.got k gen v, w, hs)) : ringCipher mode i c s =
      beginJob w i (withWaits o hs) k v (fun o => cipherOutcome w i o k v (w.now + segTime o.plan)) := by
  subst hdec hsup
  unfold ringCipher
  rw [h]
  dsimp only
  rw [hF]

end

/-- What a CIPHER operation comes to, in the words of the statement. -/
theorem cipherOutcome_eq {w : State} {i : Nat} {o : RingOp} {k : Key} {v due mode : Nat} {dec : Bool} {iv shown : Bytes}
    {input aad m out tag res : Bytes} (hmode : cipherMode o.snap = mode) (hdec : dec = cipherDecrypts o.snap)
    (hiv : (iv, shown) = if isNonceKey k && !dec then deviceNonce k mode o.att.noncePrefix v
      else ((dPrm o.snap).take (ivLen mode (cipherOf k).n), []))
    (hin : input = inputOf w i o) (haad : aad = input.take (aadLen o.snap))
    (hm : m = (input.drop (aadLen o.snap)).take (cipherLen o.snap)) (hout : out = cipherData (cipherOf k) mode dec iv m)
    (htag : tag = if mode = 6 then Modes.gcmTag (cipherOf k) iv aad (if dec then m else out) else [])
    (hres : res = if dec then [] else if mode = 6 ∨ (isNonceKey k && !dec) = true then Bytes.fit 16 tag ++ Bytes.fit 16 shown else []) :
    cipherOutcome w i o k v due =
      { status := if mode = 6 ∧ dec = true ∧ tag ≠ input.drop (dInLen o.snap - 16) then 0x0406 else 0
        out := out, res := res, outLen := if out = [] then res.length else out.length, due := due, roundT := some o.t0 } := by
  subst hmode hdec
  unfold cipherOutcome
  dsimp only
  rw [← hiv]
  dsimp only
  rw [← hin, ← haad, ← hm, ← hout, ← htag, ← hres]
  have hok : (!(cipherMode o.snap == 6 && cipherDecrypts o.snap) || tag == input.drop (dInLen o.snap - 16)) = true ↔
      ¬(cipherMode o.snap = 6 ∧ cipherDecrypts o.snap = true ∧ tag ≠ input.drop (dInLen o.snap - 16)) := by
    simp only [Bool.or_eq_true, Bool.not_eq_true', Bool.and_eq_false_iff, beq_eq_false_iff_ne, beq_iff_eq,
      ← Bool.not_eq_true (cipherDecrypts o.snap)]
    grind
  simp only [hok, ite_not]

/-- Settles O19: a fetch refused is decided; a key fetched begins a job, whose verdict is `cipherOutcome` where the input is at hand. -/
theorem ciphersRun : Obligations.CiphersRun := by
  unfold Obligations.CiphersRun
  intro s t i c p o dec supplied hp h hdec hsup
  have hrun : exec p.1 s = .next (ringCipher p.2 i.toNat c.toNat (at_ s t)) := by
    simp only [List.mem_cons, List.not_mem_nil, or_false] at hp
    rcases hp with rfl | rfl | rfl | rfl | rfl | rfl | rfl <;> rfl
  have hmode : cipherMode o.snap = p.2 := by
    have hsel := startable_sel h
    simp only [Bool.and_eq_true, beq_iff_eq] at hsel
    exact hsel.2
  rw [hrun]
  refine ⟨fun st w hs hF => ⟨_, rfl, ringCipher_refused h hdec hsup hF⟩, fun k gen v w hs hr hF => ?_,
    fun k gen v w hs iv shown input aad m out tag res hr hF hiv hin haad hm hout htag hres => ?_⟩
  · rw [ringCipher_fetched h hdec hsup hF]
    exact ⟨_, rfl, beginJob_waits h (fetchKey_insts hF) hr⟩
  · rw [ringCipher_fetched h hdec hsup hF]
    have hends := beginJob_ends (hs := hs) (k := k) (v := v) (end_ := fun o => cipherOutcome w i.toNat o k v (w.now + segTime o.plan))
      h (fetchKey_insts hF) hr
    rw [cipherOutcome_eq (o := { withWaits o hs with t0 := w.now }) hmode hdec hiv hin haad hm hout htag hres] at hends
    exact ⟨_, rfl, hends⟩

/-! ## MACs and RANDOM -/

theorem macOutcome_eq {w : State} {i : Nat} {o : RingOp} {k : Key} {due : Nat} {verify : Bool} {mac : Bytes}
    (hop : (dOp o.snap == 0x39) = verify)
    (hmac : mac = (macOf (dVar o.snap % 4) (dVar o.snap / 4) k (inputOf w i o)).take (dAux o.snap)) : macOutcome w i o k due =
      { status := if verify = true ∧ mac ≠ (dPrm o.snap).take (dAux o.snap) then 0x0406 else 0, res := if verify then [] else mac
        outLen := if verify then 0 else mac.length, due := due, roundT := some o.t0 } := by
  subst hop
  unfold macOutcome
  dsimp only
  rw [← hmac]
  have hok : (!(dOp o.snap == 0x39) || mac == (dPrm o.snap).take (dAux o.snap)) = true ↔
      ¬((dOp o.snap == 0x39) = true ∧ mac ≠ (dPrm o.snap).take (dAux o.snap)) := by
    simp only [Bool.or_eq_true, Bool.not_eq_true', beq_eq_false_iff_ne, beq_iff_eq]
    grind
  simp only [hok, ite_not]

section
variable {s w : State} {i c : Nat} {o : RingOp} {verify : Bool} {hs : List Nat}
  (h : startable s i c (fun d => dOp d == (if verify then 0x39 else 0x38)) = some o)
include h

theorem ringMac_refused {st : Nat} (hF : fetchKey s (5 + o.bay) o.att.tenant (macRole (dVar o.snap % 4) verify) (keyAOf s o) noNonce
    always = (.refused st, w, hs)) : Fixes w (ringMac verify i c s) i o { status := st, due := w.now } := by
  unfold ringMac
  rw [h]
  dsimp only
  rw [hF]
  exact fixOutcome_started h (fetchKey_insts hF) o rfl _

theorem ringMac_fetched {k : Key} {gen v : Nat} (hF : fetchKey s (5 + o.bay) o.att.tenant (macRole (dVar o.snap % 4) verify)
    (keyAOf s o) noNonce always = (.got k gen v, w, hs)) : ringMac verify i c s =
      beginJob w i (withWaits o hs) k v (fun o => macOutcome w i o k (w.now + segTime o.plan)) := by
  unfold ringMac
  rw [h]
  dsimp only
  rw [hF]

end

section
variable {s w : State} {i c : Nat} {o : RingOp} (h : startable s i c (fun d => dOp d == 0x41) = some o)
include h

theorem ringRandom_unserved (hd : draw s o.bay (dInLen o.snap) = (none, w)) :
    Fixes w (ringRandom i c s) i o { status := 0x0501, due := w.now } := by
  have hw := (draw_within s o.bay (dInLen o.snap)).same (·.insts)
  rw [hd] at hw
  unfold ringRandom
  rw [h]
  dsimp only
  rw [hd]
  exact fixOutcome_started h hw o rfl _

theorem ringRandom_draws {out : Bytes} (hd : draw s o.bay (dInLen o.snap) = (some out, w)) : Fixes w (ringRandom i c s) i o
    { status := 0, out := out, outLen := out.length, due := w.now + segTime o.plan, roundT := some w.now } := by
  have hw := (draw_within s o.bay (dInLen o.snap)).same (·.insts)
  rw [hd] at hw
  unfold ringRandom
  rw [h]
  dsimp only
  rw [hd]
  exact fixOutcome_started h hw o rfl _

end

/-- Settles O20: as for CIPHER, with `macOutcome`; RANDOM is its draw. -/
theorem macsAndRandomRun : Obligations.MacsAndRandomRun := by
  unfold Obligations.MacsAndRandomRun
  intro s t i c o
  refine ⟨fun p f w hs hp h hF => ?_, fun r w h hd => ⟨fun hr => ?_, fun out hr => ?_⟩⟩
  · have hrun : exec p.1 s = .next (ringMac p.2 i.toNat c.toNat (at_ s t)) := by
      simp only [List.mem_cons, List.not_mem_nil, or_false] at hp
      rcases hp with rfl | rfl <;> rfl
    have hop : (dOp o.snap == 0x39) = p.2 := by
      have hsel := startable_sel h
      rw [beq_iff_eq.1 hsel]
      cases p.2 <;> rfl
    rw [hrun]
    refine ⟨fun st hf => ?_, fun k gen v hf hr => ?_, fun k gen v mac hf hr hmac => ?_⟩
    · exact ⟨_, rfl, ringMac_refused h (hf ▸ hF)⟩
    · rw [ringMac_fetched h (hf ▸ hF)]
      exact ⟨_, rfl, beginJob_waits h (fetchKey_insts hF) hr⟩
    · rw [ringMac_fetched h (hf ▸ hF)]
      have hends := beginJob_ends (hs := hs) (k := k) (v := v) (end_ := fun o => macOutcome w i.toNat o k (w.now + segTime o.plan))
        h (fetchKey_insts hF) hr
      rw [macOutcome_eq (o := { withWaits o hs with t0 := w.now }) hop hmac] at hends
      exact ⟨_, rfl, hends⟩
  · exact ⟨_, rfl, ringRandom_unserved h (hr ▸ hd)⟩
  · exact ⟨_, rfl, ringRandom_draws h (hr ▸ hd)⟩

end Sys2Proof.Machine
end

section
/-! SUPPORT. DUKPT_DECRYPT, EMV_ARQC and UNWRAP as they start (R177 to R183, R211, R285). -/

namespace Sys2Proof.Machine

-- One proof at a time: the check bounds the compiler's threads.
set_option Elab.async false

open Sys2Proof Sys2Proof.Safety

/-! ## EMV_ARQC -/

section
variable {s w : State} {i c : Nat} {o : RingOp} {hs : List Nat} (h : startable s i c (fun d => dOp d == 0x52) = some o)
include h

theorem ringEmv_refused {st : Nat} (hF : fetchKey s (5 + o.bay) o.att.tenant emvRole (keyAOf s o) noNonce always = (.refused st, w, hs)) :
    Fixes w (ringEmv i c s) i o { status := st, due := w.now } := by
  unfold ringEmv
  rw [h]
  dsimp only
  rw [hF]
  exact fixOutcome_started h (fetchKey_insts hF) o rfl _

theorem ringEmv_verdict {k : Key} {gen v : Nat} {mk sk arqc res : Bytes}
    (hF : fetchKey s (5 + o.bay) o.att.tenant emvRole (keyAOf s o) noNonce always = (.got k gen v, w, hs))
    (hmk : mk = Payment.emvMasterKey k.material (Payment.panDigits (Bytes.slice o.snap 0x11 10) (Bytes.fieldLE o.snap 0x10 1))
      (Bytes.at' o.snap 0x1B))
    (hsk : sk = Payment.emvSessionKey mk (dVar o.snap / 4 % 4 == 0) (Bytes.slice o.snap 0x1C 2)) (harqc : arqc = Bytes.slice o.snap 0x20 8)
    (hres : res = if Payment.emvMac sk (inputOf w i o) = arqc then
      Payment.arpc (dVar o.snap % 4) sk arqc (Bytes.slice o.snap 0x1E 2) (Bytes.slice o.snap 0x28 4) else []) :
    Fixes w (ringEmv i c s) i { o with waits := o.waits ++ hs }
      { status := if Payment.emvMac sk (inputOf w i o) = arqc then 0 else 0x0404, res := res, outLen := res.length
        due := w.now + segTime o.plan, roundT := some w.now } := by
  unfold ringEmv
  rw [h]
  dsimp only
  rw [hF]
  dsimp only
  rw [← hmk, ← hsk, ← harqc]
  simp only [beq_iff_eq]
  rw [← hres]
  exact fixOutcome_started h (fetchKey_insts hF) (withWaits o hs) rfl _

end

/-- Settles O22: a fetch refused is decided at once, and else the cryptogram decides. -/
theorem emvArqcRuns : Obligations.EmvArqcRuns := by
  unfold Obligations.EmvArqcRuns
  intro s t i c o f w hs h hF
  exact ⟨fun st hf => ⟨_, rfl, ringEmv_refused h (hf ▸ hF)⟩, fun k gen v mk sk arqc res hf hmk hsk harqc hres =>
    ⟨_, rfl, ringEmv_verdict h (hf ▸ hF) hmk hsk harqc hres⟩⟩

/-! ## UNWRAP -/

section
variable {s w : State} {i c : Nat} {o : RingOp} {hs : List Nat} (h : startable s i c (fun d => dOp d == 0x71) = some o)
include h

theorem ringUnwrap_refused {st : Nat} (hF : fetchKey s (5 + o.bay) o.att.tenant (carriageRole (Bytes.fieldLE (inputOf s i o) 4 1))
    (keyAOf s o) noNonce always = (.refused st, w, hs)) : Fixes w (ringUnwrap i c s) i o { status := st, due := w.now } := by
  unfold ringUnwrap
  rw [h]
  dsimp only
  rw [hF]
  exact fixOutcome_started h (fetchKey_insts hF) o rfl _

variable {k : Key} {gen v : Nat} (hF : fetchKey s (5 + o.bay) o.att.tenant (carriageRole (Bytes.fieldLE (inputOf s i o) 4 1))
  (keyAOf s o) noNonce always = (.got k gen v, w, hs))
include hF

theorem ringUnwrap_unopened {st : Nat} (hu : unwrapToken w o.att.tenant k (inputOf s i o) = .error st) :
    Fixes w (ringUnwrap i c s) i { o with waits := o.waits ++ hs } { status := st, due := w.now } := by
  have he : ringUnwrap i c s = fixOutcome w i (withWaits o hs) (failNow w st) := by
    unfold ringUnwrap withWaits
    rw [h]
    dsimp only
    rw [hF]
    dsimp only
    rw [hu]
  rw [he]
  exact fixOutcome_started h (fetchKey_insts hF) (withWaits o hs) rfl _

theorem ringUnwrap_opens {key : Key} (hu : unwrapToken w o.att.tenant k (inputOf s i o) = .ok key) :
    Fixes w (ringUnwrap i c s) i { o with waits := o.waits ++ hs }
      { status := 0, due := w.now + segTime o.plan, roundT := some w.now
        token := some { tenant := o.att.tenant, inst := i, time := 0, maxAge := o.att.tokenMaxAge
                        tag := Sha.sha256 (Bytes.ofNatLE 2 o.att.tenant ++ inputOf s i o), key := key } } := by
  have he : ringUnwrap i c s = fixOutcome w i (withWaits o hs)
      { status := 0, due := w.now + segTime o.plan, roundT := some w.now
        token := some { tenant := o.att.tenant, inst := i, time := 0, maxAge := o.att.tokenMaxAge
                        tag := Sha.sha256 (Bytes.ofNatLE 2 o.att.tenant ++ inputOf s i o), key := key } } := by
    unfold ringUnwrap withWaits
    rw [h]
    dsimp only
    rw [hF]
    dsimp only
    rw [hu]
  rw [he]
  exact fixOutcome_started h (fetchKey_insts hF) (withWaits o hs) rfl _

end

/-- Settles O25: a fetch refused and a message that does not open are decided at once, and else the token is the verdict. -/
theorem unwrapRuns : Obligations.UnwrapRuns := by
  unfold Obligations.UnwrapRuns
  intro s t i c o F msg h hmsg hF
  obtain ⟨f, w, hs⟩ := F
  subst hmsg
  refine ⟨fun st hf => ?_, fun k gen v hf => ⟨fun st hu => ?_, fun key hu => ?_⟩⟩
  · cases hf
    exact ⟨_, rfl, ringUnwrap_refused h hF.symm⟩
  · cases hf
    exact ⟨_, rfl, ringUnwrap_unopened h hF.symm hu⟩
  · cases hf
    exact ⟨_, rfl, ringUnwrap_opens h hF.symm hu⟩

/-! ## DUKPT_DECRYPT -/

/-- What the statement names of a DUKPT descriptor. -/
structure DukptNamed (o : RingOp) (aes data : Bool) (term ctr : Nat) (ksn ikid : Bytes) (role : Role) : Prop where
  isAes : aes = bitOf (dVar o.snap) 0
  isData : data = bitOf (dVar o.snap) 2
  isRole : role = dukptRole aes (!data)
  isTerm : term = Bytes.fieldLE o.snap 0x10 4
  isKsn : ksn = Bytes.slice o.snap 0x14 (if aes then 12 else 10)
  isIkid : ikid = (Payment.dukptInitialId aes ksn).take 8
  isCtr : ctr = Payment.dukptCounter aes ksn

/-- The deciphered data as a verdict, with the entry that it writes. -/
def dukptEnd (w : State) (i : Nat) (o : RingOp) (aes data : Bool) (ksn ikey : Bytes) (entry : Option (Nat × Deriv)) : Outcome :=
  let out := Payment.dukptDecipher aes data ikey ksn
    (if dukptStaged o.snap then inputOf w i o else Bytes.slice o.snap 0x28 (Bytes.fieldLE o.snap 0x20 1))
  { status := 0, out := out, res := if dukptStaged o.snap then [] else out, outLen := Bytes.fieldLE o.snap 0x20 1
    due := w.now + segTime o.plan, roundT := some w.now, deriv := entry }

/-- What a DUKPT decryption comes to once its key is fetched, by the cached entry that serves it. -/
def dukptDecided (w : State) (i : Nat) (o : RingOp) (k : Key) (gen hdl : Nat) (e : Option Deriv) (aes data : Bool) (term ctr : Nat)
    (ksn ikid : Bytes) : State :=
  match e with
  | some x =>
    if (o.att.dukptCheck && decide (ctr ≤ x.high)) = true then
      fixOutcome w i o { status := 0x0404, due := w.now + segTime o.plan, roundT := some w.now }
    else if o.att.dukptCheck then
      fixOutcome { w with keys := { w.keys with deriv := mput w.keys.deriv term { x with high := ctr } } } i o
        (dukptEnd w i o aes data ksn x.ikey none)
    else fixOutcome w i o (dukptEnd w i o aes data ksn x.ikey none)
  | none =>
    fixOutcome w i o (dukptEnd w i o aes data ksn (Payment.dukptInitialKey aes k.material ksn) (some (term,
      { aes := aes, tenant := o.att.tenant, bdk := hdl, bdkGen := gen, high := if o.att.dukptCheck then ctr else 0, ikid := ikid
        written := 0, ikey := Payment.dukptInitialKey aes k.material ksn })))

theorem noBadEntry {e : Option Deriv} {b : Bool} (h : e = none ∨ b = false) : ¬(e.isSome = true ∧ b = true) := by
  rintro ⟨he, rfl⟩
  obtain rfl | h := h
  · cases he
  · cases h

section
variable {s w : State} {i c : Nat} {o : RingOp} {hs : List Nat} {aes data : Bool} {term ctr : Nat} {ksn ikid : Bytes} {role : Role}
  (h : startable s i c (fun d => dOp d == 0x50) = some o) (hd : DukptNamed o aes data term ctr ksn ikid role)
include h hd

theorem ringDukpt_checksFail {st : Nat} (hst : st = dukptStatus s o role term (keyAOf s o)) (h0 : st ≠ 0) :
    Fixes (refusedKey s (5 + o.bay) st (keyAOf s o)) (ringDukpt i c s) i o { status := st, due := s.now } := by
  obtain ⟨rfl, rfl, rfl, rfl, rfl, rfl, rfl⟩ := hd
  unfold ringDukpt
  rw [h]
  dsimp only
  rw [← hst, if_pos h0]
  exact fixOutcome_started h ((refusedKey_within _ _ _ _).same (·.insts)) o rfl _

variable (hst : dukptStatus s o role term (keyAOf s o) = 0)
include hst

theorem ringDukpt_badEntry (he : (derivEntry s term o.att.tenant o.att.derivMaxAge).isSome = true)
    (hb : wordsFail s memDeriv (derivWord term) 8 = true) :
    Fixes (raiseFabric s islHub (5 + o.bay) memDeriv) (ringDukpt i c s) i o { status := 0x0801, due := s.now } := by
  obtain ⟨rfl, rfl, rfl, rfl, rfl, rfl, rfl⟩ := hd
  unfold ringDukpt
  rw [h]
  dsimp only
  rw [hst, if_neg (not_not_intro rfl), if_pos ⟨he, hb⟩]
  exact fixOutcome_started h ((raiseFabric_within _ _ _ _).same (·.insts)) o rfl _

variable (hw : derivEntry s term o.att.tenant o.att.derivMaxAge = none ∨ wordsFail s memDeriv (derivWord term) 8 = false)
include hw

theorem ringDukpt_refused {st : Nat} (hF : fetchKey s (5 + o.bay) o.att.tenant role (keyAOf s o) noNonce always = (.refused st, w, hs)) :
    Fixes w (ringDukpt i c s) i o { status := st, due := w.now } := by
  obtain ⟨rfl, rfl, rfl, rfl, rfl, rfl, rfl⟩ := hd
  unfold ringDukpt
  rw [h]
  dsimp only
  rw [hst, if_neg (not_not_intro rfl), if_neg (noBadEntry hw), hF]
  exact fixOutcome_started h (fetchKey_insts hF) o rfl _

variable {k : Key} {gen v hdl : Nat} {pl : Place} {e : Option Deriv}
  (hF : fetchKey s (5 + o.bay) o.att.tenant role (keyAOf s o) noNonce always = (.got k gen v, w, hs))
  (hkey : keyAOf s o = some (k, gen, pl)) (hh : hdl = placeHandle w pl)
  (he : e = (derivEntry w term o.att.tenant o.att.derivMaxAge).filter
    (fun e => e.aes == aes && e.bdk == hdl && e.bdkGen == gen && e.ikid == ikid))
include hF hkey hh he

theorem ringDukpt_fetched :
    ringDukpt i c s = dukptDecided w i { o with waits := o.waits ++ hs } k gen hdl e aes data term ctr ksn ikid := by
  obtain ⟨haes, hdata, hrole, hterm, hksn, hikid, hctr⟩ := hd
  subst hh
  unfold ringDukpt withWaits
  rw [h]
  dsimp only
  rw [← haes, ← hdata, ← hrole, ← hterm, ← hksn, ← hikid, ← hctr, hst, if_neg (not_not_intro rfl), if_neg (noBadEntry hw), hF]
  dsimp only
  rw [hkey, Option.map_some, Option.getD_some]
  dsimp only
  rw [← he]
  unfold dukptDecided dukptEnd
  cases e with
  | none => rfl
  | some x =>
    dsimp only
    split
    · rfl
    · split <;> rfl

end

section
variable {w : State} {i : Nat} {o : RingOp} {k : Key} {gen hdl : Nat} {aes data : Bool} {term ctr : Nat} {ksn ikid : Bytes}
  (h : (findOp (getInst w i) o.count).isSome)
include h

theorem dukptDecided_replayed {x : Deriv} (hc : o.att.dukptCheck = true) (hr : ctr ≤ x.high) :
    Fixes w (dukptDecided w i o k gen hdl (some x) aes data term ctr ksn ikid) i o
      { status := 0x0404, due := w.now + segTime o.plan, roundT := some w.now } := by
  unfold dukptDecided
  dsimp only
  rw [if_pos (by rw [hc, decide_eq_true hr]; rfl)]
  exact fixOutcome_fixes w i o _ h

theorem dukptDecided_cached {x : Deriv} (hc : o.att.dukptCheck = false ∨ x.high < ctr) :
    Fixes (if o.att.dukptCheck then { w with keys := { w.keys with deriv := mput w.keys.deriv term { x with high := ctr } } } else w)
      (dukptDecided w i o k gen hdl (some x) aes data term ctr ksn ikid) i o (dukptEnd w i o aes data ksn x.ikey none) := by
  have hfresh : ¬(o.att.dukptCheck && decide (ctr ≤ x.high)) = true := by
    rw [Bool.and_eq_true, decide_eq_true_eq]
    rintro ⟨hcheck, hle⟩
    obtain hc | hc := hc
    · rw [hc] at hcheck
      cases hcheck
    · omega
  unfold dukptDecided
  dsimp only
  rw [if_neg hfresh]
  split
  · exact fixOutcome_fixes _ i o _ h
  · exact fixOutcome_fixes w i o _ h

theorem dukptDecided_new : Fixes w (dukptDecided w i o k gen hdl none aes data term ctr ksn ikid) i o
    (dukptEnd w i o aes data ksn (Payment.dukptInitialKey aes k.material ksn) (some (term,
      { aes := aes, tenant := o.att.tenant, bdk := hdl, bdkGen := gen, high := if o.att.dukptCheck then ctr else 0, ikid := ikid
        written := 0, ikey := Payment.dukptInitialKey aes k.material ksn }))) := fixOutcome_fixes w i o _ h

end

/-- Settles O21: the checks, the entry's words, the fetch and the entry decide in this order. -/
theorem dukptDecryptRuns : Obligations.DukptDecryptRuns := by
  unfold Obligations.DukptDecryptRuns
  intro s t i c o aes data term ctr st ksn ikid role h haes hdata hrole hterm hksn hikid hctr hst
  have hd : DukptNamed o aes data term ctr ksn ikid role := ⟨haes, hdata, hrole, hterm, hksn, hikid, hctr⟩
  refine ⟨fun h0 => ⟨_, rfl, ringDukpt_checksFail h hd hst h0⟩, fun h0 he hb => ⟨_, rfl, ringDukpt_badEntry h hd (hst ▸ h0) he hb⟩,
    fun h0 hw F hF => ?_⟩
  obtain ⟨f, w', hs⟩ := F
  refine ⟨fun st' hf => ?_, fun k pl gen hdl v w e ikey out hf hw' hkey hh he hikey hout => ?_⟩
  · cases hf
    exact ⟨_, rfl, ringDukpt_refused h hd (hst ▸ h0) hw hF.symm⟩
  · cases hf
    subst hw' hout
    have hrun : exec (.dukptDecrypt t (.ring i c)) s = .next _ :=
      congrArg Host.Outcome.next (ringDukpt_fetched h hd (hst ▸ h0) hw hF.symm hkey hh he)
    have hown : (findOp (getInst w i.toNat) o.count).isSome := startable_owned h (fetchKey_insts hF.symm)
    rw [hrun]
    refine ⟨fun x hx hc hr => ?_, fun x hx hc => ?_, fun hx => ?_⟩
    · rw [hx]
      exact ⟨_, rfl, dukptDecided_replayed (o := { o with waits := o.waits ++ hs }) hown hc hr⟩
    · rw [hx] at hikey ⊢
      subst hikey
      exact ⟨_, rfl, dukptDecided_cached (o := { o with waits := o.waits ++ hs }) hown hc⟩
    · rw [hx] at hikey ⊢
      subst hikey
      exact ⟨_, rfl, dukptDecided_new (o := { o with waits := o.waits ++ hs }) hown⟩

end Sys2Proof.Machine
end

section
/-! SUPPORT. The big-number cores: segments that enter them, the public-key operations as they start, and the attempts of ML-DSA signing
(R216 to R234). -/

namespace Sys2Proof.Machine

-- One proof at a time: the check bounds the compiler's threads.
set_option Elab.async false

open Sys2Proof Sys2Proof.Safety

/-! ## Segments on a BNC -/

section
variable (s : State) (b k tenant op : Nat) (secret : Bool)

theorem clearMem_within (o : Owner) : Within { bays := true, bad := true } s (clearMem s b k o) :=
  ((modMem_within s b k _).mono rfl).then (writeEngine_within _ b k) (by rfl)

theorem wipeBnc_within (o : Owner) : Within { bays := true, bad := true, cnt := true } s (wipeBnc s b k o) :=
  ((clearMem_within s b k o).mono rfl).then (bump_within _ _)

/-- What a segment's beginning may change. -/
def segmentScope : Scope := { bays := true, bad := true, cnt := true, free := true }

theorem freshArea_within : Within { free := true } s (freshArea s).2 := rfl

theorem enterSegment_within : Within segmentScope s (enterSegment s b k tenant op secret) := by
  have h : Within segmentScope s (if (mget {} (getBay s b).mem k).owner = .tenant tenant then s else wipeBnc s b k (.tenant tenant)) :=
    .ite (.refl s) ((wipeBnc_within s b k _).mono rfl)
  unfold enterSegment
  exact ((h.then (freshArea_within _)).then (modMem_within _ b k _)).then (writeEngine_within _ b k)

theorem leaveOutput_within : Within { bays := true, bad := true, slotMask := true, free := true } s (leaveOutput s b k op) :=
  (((freshArea_within s).mono rfl).then (modMem_within _ b k _)).then (writeWords_within _ _ _ _) (by rfl)

theorem leaveSegment_within : Within { bays := true, bad := true, slotMask := true } s (leaveSegment s b k) :=
  ((modMem_within s b k _).mono rfl).then (writeWords_within _ _ _ _) (by rfl)

theorem modMem_other {j : Nat} (h : j ≠ k) (f : EngMem → EngMem) :
    mget {} (getBay (modMem s b k f) b).mem j = mget {} (getBay s b).mem j := by
  rw [show getBay (modMem s b k f) b = _ from getBay_setBay_same _ _ _]
  exact mget_mset_other _ _ _ _ _ h

/-- A memory that a segment enters is its tenant's. -/
theorem enterSegment_owner : (mget {} (getBay (enterSegment s b k tenant op secret) b).mem k).owner = .tenant tenant := by
  unfold enterSegment
  dsimp only
  rw [getBay_of_bays ((writeEngine_within _ b k).same (·.bays)), modMem_same]
  split
  · next h => exact h
  · show (mget {} (getBay (clearMem s b k (.tenant tenant)) b).mem k).owner = _
    unfold clearMem
    rw [getBay_of_bays ((writeEngine_within _ b k).same (·.bays)), modMem_same]

/-- A tenant's memory stays its tenant's when a segment of the tenant enters it or another one. -/
theorem enterSegment_owner_kept {j : Nat} (h : (mget {} (getBay s b).mem j).owner = .tenant tenant) :
    (mget {} (getBay (enterSegment s b k tenant op secret) b).mem j).owner = .tenant tenant := by
  by_cases hj : j = k
  · rw [hj]
    exact enterSegment_owner s b k tenant op secret
  · unfold enterSegment
    dsimp only
    rw [getBay_of_bays ((writeEngine_within _ b k).same (·.bays)), modMem_other _ _ _ hj]
    split
    · exact h
    · show (mget {} (getBay (clearMem s b k (.tenant tenant)) b).mem j).owner = _
      unfold clearMem
      rw [getBay_of_bays ((writeEngine_within _ b k).same (·.bays)), modMem_other _ _ _ hj]
      exact h

theorem enterAll_within (d : Bytes) (es : List Nat) : Within segmentScope s (enterAll s b tenant d es) :=
  .each (fun s k => enterSegment_within s b k tenant _ _) es s

theorem enterAll_owner (d : Bytes) {es : List Nat} {k : Nat} (hk : k ∈ es) :
    (mget {} (getBay (enterAll s b tenant d es) b).mem k).owner = .tenant tenant :=
  each_reaches (P := fun w => (mget {} (getBay w b).mem k).owner = .tenant tenant)
    (f := fun s k => enterSegment s b k tenant (dOp d) (pkSecret d)) hk (fun s => enterSegment_owner s b k tenant _ _)
    (fun s j h => enterSegment_owner_kept s b j tenant _ _ h) s

end

/-! ## Public-key operations that start -/

/-- A public-key operation with its draw. -/
def pkDrawn (i : Nat) (o : RingOp) (hs : List Nat) (k : Key) (due : Nat) (D : Option Bytes × State) : State :=
  match D with
  | (none, w) => fixOutcome w i o { status := 0x0501, due := due }
  | (some drawn, w) =>
    if dOp o.snap = 0x6A then beginOp w i { o with waits := o.waits ++ hs, drawn := some drawn } none
    else fixOutcome w i { o with waits := o.waits ++ hs } (pkOutcome w (pkEnd o.snap k (inputOf w i o) drawn))

/-- A public-key operation with its key. -/
def pkFetched (i : Nat) (o : RingOp) (due : Nat) (F : Fetched × State × List Nat) : State :=
  match F with
  | (.refused st, w, _) => fixOutcome w i o { status := st, due := due }
  | (.got k _ _, w, hs) =>
    pkDrawn i o hs k due (if pkDraw o.snap k = 0 then (some [], w) else draw w o.bay (pkDraw o.snap k))

section
variable {s w0 : State} {i c opcode : Nat} {o o1 : RingOp} {es : List Nat} {F : Fetched × State × List Nat}
  (h : startable s i c (fun d => dOp d == opcode) = some o) (hes : pkEngines s o.bay o.snap = some es)
  (hw0 : w0 = enterAll s o.bay o.att.tenant o.snap es) (ho1 : o1 = { o with engines := es })
  (hF : F = if pubIn o.snap then (.got {} 0 0, w0, [])
    else fetchKey w0 (5 + o.bay) o.att.tenant (pkRole o.snap) (keyAOf w0 o1) noNonce always)
include h hes hw0 ho1 hF

theorem ringPublic_eq : ringPublic opcode i c s = pkFetched i o1 (w0.now + 1000) F := by
  unfold ringPublic withWaits
  rw [h]
  dsimp only
  rw [hes]
  dsimp only
  rw [← hw0, ← ho1, ← hF]
  subst ho1
  obtain ⟨f, w, hs⟩ := F
  cases f with
  | refused st => rfl
  | got k gen v =>
    unfold pkFetched pkDrawn
    dsimp only
    generalize (if pkDraw o.snap k = 0 then (some [], w) else draw w o.bay (pkDraw o.snap k)) = D
    obtain ⟨r, u⟩ := D
    cases r <;> rfl

omit h hes hw0 ho1 in
/-- A fetch keeps instances and time. -/
theorem pkFetch_within : Within fetchScope w0 F.2.1 := by
  rw [hF]
  split
  · exact .refl w0
  · exact fetchKey_within _ _ _ _ _ _ _ _

end

/-- Settles O23: the operation takes its engines by `enterAll`, whose memories are then its tenant's, and goes on by `pkFetched`. -/
theorem publicKeyOperationsRun : Obligations.PublicKeyOperationsRun := by
  unfold Obligations.PublicKeyOperationsRun
  intro s t i c p o o1 es w0 F hp h hes hw0 ho1 hF
  have hrun : exec p.1 s = .next (ringPublic p.2 i.toNat c.toNat (at_ s t)) := by
    simp only [List.mem_cons, List.not_mem_nil, or_false] at hp
    rcases hp with rfl | rfl | rfl | rfl | rfl | rfl | rfl | rfl | rfl | rfl | rfl <;> rfl
  have hop : dOp o.snap = p.2 := by
    have hsel := startable_sel h
    exact beq_iff_eq.1 hsel
  have hfetch := pkFetch_within hF
  have heq := ringPublic_eq h hes hw0 ho1 hF
  have hinsts : w0.insts = s.insts := by
    rw [hw0]
    exact (enterAll_within (at_ s t) o.bay o.att.tenant o.snap es).same (·.insts)
  rw [hrun, heq]
  obtain ⟨f, w, hs⟩ := F
  have hw : w.insts = s.insts := (hfetch.same (·.insts)).trans hinsts
  have hnow : w.now = w0.now := hfetch.same (·.now)
  have hdraw := fun n => draw_within w o.bay n
  subst ho1
  refine ⟨fun k hk => ?_, fun st hf => ?_, fun k gen v D hf hD => ?_⟩
  · rw [hw0]
    exact enterAll_owner (at_ s t) o.bay o.att.tenant o.snap hk
  · cases hf
    rw [← hnow]
    exact ⟨_, rfl, fixOutcome_started h hw { o with engines := es } rfl _⟩
  · cases hf
    have hDw : Within drawScope w D.2 := by
      rw [hD]
      split
      · exact .refl w
      · exact hdraw _
    have hDi : D.2.insts = s.insts := (hDw.same (·.insts)).trans hw
    have hDn : D.2.now = w0.now := (hDw.same (·.now)).trans hnow
    have hgo : pkFetched i.toNat { o with engines := es } (w0.now + 1000) (.got k gen v, w, hs) =
        pkDrawn i.toNat { o with engines := es } hs k (w0.now + 1000) D := by rw [hD]; rfl
    rw [hgo]
    obtain ⟨r, u⟩ := D
    refine ⟨fun hr => ?_, fun drawn hr h6A => ?_, fun drawn e hr h6A he => ?_⟩
    · cases hr
      rw [← hDn]
      exact ⟨_, rfl, fixOutcome_started h hDi { o with engines := es } rfl _⟩
    · cases hr
      have hd : pkDrawn i.toNat { o with engines := es } hs k (w0.now + 1000) (some drawn, u) =
          beginOp u i.toNat { o with engines := es, waits := o.waits ++ hs, drawn := some drawn } none := if_pos (hop.trans h6A)
      rw [hd]
      exact ⟨_, rfl, beginOp_started h hDi { o with engines := es, waits := o.waits ++ hs, drawn := some drawn } rfl none⟩
    · cases hr
      have hd : pkDrawn i.toNat { o with engines := es } hs k (w0.now + 1000) (some drawn, u) =
          fixOutcome u i.toNat { o with engines := es, waits := o.waits ++ hs } (pkOutcome u e) := by
        rw [he]
        exact if_neg (fun hc => h6A (hop.symm.trans hc))
      rw [hd]
      exact ⟨_, rfl, fixOutcome_started h hDi { o with engines := es, waits := o.waits ++ hs } rfl _⟩

end Sys2Proof.Machine
end

section
/-! SUPPORT. The attempts of ML-DSA signing (R231, R232, R228). -/

namespace Sys2Proof.Machine

-- One proof at a time: the check bounds the compiler's threads.
set_option Elab.async false

open Sys2Proof Sys2Proof.Safety

/-! ## An operation replaced -/

/-- An operation of an instance is replaced in any state that agrees on the instances. -/
theorem setOp_sets {s w : State} {i c : Nat} {o : RingOp} (ho : findOp (getInst s i) c = some o) (hw : w.insts = s.insts) (o' : RingOp)
    (hc : o'.count = o.count) : SetsOp w (modInst w i (fun x => setOp x o')) i o' := by
  refine setOp_setsOp w i o' ?_
  rw [hc, findOp_count ho, getInst_of_insts hw, ho]
  rfl

theorem raiseEngine_within (s : State) (b : Nat) :
    Within { modes := true, alarm := true, cnt := true, evr := true } s (raiseEngine s b) := raiseFabric_within _ _ _ _

/-! ## The check on a second BNC -/

/-- The producing segment of an operation ends on each of its engines. -/
def segmentsLeft (s : State) (b op : Nat) (es : List Nat) : State :=
  each es s (fun w j => leaveSegment (leaveOutput w b j op) b j)

theorem segmentsLeft_within (s : State) (b op : Nat) (es : List Nat) :
    Within { bays := true, bad := true, slotMask := true, free := true } s (segmentsLeft s b op es) :=
  .each (fun w j => (leaveOutput_within w b j op).then (leaveSegment_within _ b j) (by rfl)) es s

section
variable {s : State} {i : Nat} {o : RingOp} {oc : Outcome} (hop : dOp o.snap = 0x6A)
include hop

theorem beginCheck_begins {j : Nat} (hw : o.checkWaited = false) (hj : freeEngine (segmentsLeft s o.bay 0x6A o.engines) o.bay o.engines = some j) :
    (beginCheck s i o oc).1 = modInst (enterSegment (segmentsLeft s o.bay 0x6A o.engines) o.bay j o.att.tenant 0x6A false) i
      (fun x => setOp x { o with engines := o.engines.filter (· != j) ++ [j], checking := true, outcome := some oc }) := by
  unfold beginCheck
  rw [hop]
  change freeEngine (each o.engines s (fun s k => leaveSegment (leaveOutput s o.bay k 0x6A) o.bay k)) o.bay o.engines = some j at hj
  dsimp only
  rw [hj]
  simp only [hw, hop, Bool.false_eq_true, if_false]
  rfl

theorem beginCheck_waits (hj : freeEngine (segmentsLeft s o.bay 0x6A o.engines) o.bay o.engines = none) :
    (beginCheck s i o oc).1 = modInst (segmentsLeft s o.bay 0x6A o.engines) i (fun x => setOp x { o with checkWaited := true }) := by
  unfold beginCheck
  rw [hop]
  change freeEngine (each o.engines s (fun s k => leaveSegment (leaveOutput s o.bay k 0x6A) o.bay k)) o.bay o.engines = none at hj
  dsimp only
  rw [hj]
  rfl

end

/-! ## Attempts -/

/-- An attempt of the operation has ended. -/
structure AttemptOver (s : State) (i c : Nat) (o : RingOp) : Prop where
  owned : findOp (getInst s i) c = some o
  running : o.stage = .running
  open_ : o.outcome = none
  signs : dOp o.snap = 0x6A
  kept : o.squashed = false
  due : o.t0 + attemptEnd o.snap o.attempts ≤ s.now
  clock : bayClockRuns s o.bay = true

/-- The verdict on a signature that an attempt gave. -/
def attemptOutcome (s : State) (o : RingOp) (ok : Bool) (sig : Bytes) : Outcome :=
  { status := if ok then 0 else 0x0405, out := if ok then sig else [], outLen := if ok then sig.length else 0
    due := max (o.t0 + attemptEnd o.snap o.attempts + 60000) (s.now + 60000), roundT := some o.t0, selfFail := if ok then 0 else 1 }

section
variable {s : State} {i c : Nat} {o : RingOp} (h : AttemptOver s i c o)
include h

theorem dsaAttemptDone_mismatch (hb : engineBad s o = true) : dsaAttemptDone i c s = engineMismatch s i o := by
  unfold dsaAttemptDone
  rw [h.owned]
  dsimp only
  rw [if_pos ⟨h.running, h.open_, h.signs, h.kept, h.due, h.clock⟩, if_pos hb]

variable (hb : engineBad s o = false) {k : Key} {gen : Nat} {pl : Place} (hk : keyAOf s o = some (k, gen, pl))
  {res : Option Bytes} (hres : res = Lattice.dsaAttempt (dsaPar o.snap)
    (Lattice.dsaKeyOf (dsaPar o.snap) (k.material.take (Lattice.dsaSkLen (dsaPar o.snap)))) (inputOf s i o) (o.drawn.getD []) o.attempts)
include hb hk hres

theorem dsaAttemptDone_rejects (hn : res = none) :
    dsaAttemptDone i c s = modInst s i (fun x => setOp x { o with attempts := o.attempts + 1 }) := by
  unfold dsaAttemptDone
  rw [h.owned]
  dsimp only
  rw [if_pos ⟨h.running, h.open_, h.signs, h.kept, h.due, h.clock⟩, if_neg (ne_true_of_eq_false hb), hk]
  dsimp only
  rw [← hres, hn]

theorem dsaAttemptDone_signs {sig : Bytes} (hsig : res = some sig) {ok : Bool} (hok : ok = Lattice.dsaVerify (dsaPar o.snap)
    (k.material.drop (Lattice.dsaSkLen (dsaPar o.snap))) (inputOf s i o) sig) : dsaAttemptDone i c s =
      (beginCheck s i { o with attempts := o.attempts + 1, outcome := some (attemptOutcome s o ok sig) } (attemptOutcome s o ok sig)).1 := by
  have hdue : o.t0 + 1000 * ((dsaTimes o.snap).1 + (dsaTimes o.snap).2.1 * (o.attempts + 1) + 60) =
      o.t0 + attemptEnd o.snap o.attempts + 60000 := by
    unfold attemptEnd
    rw [Nat.mul_add, Nat.add_assoc]
  unfold dsaAttemptDone attemptOutcome
  rw [h.owned]
  dsimp only
  rw [if_pos ⟨h.running, h.open_, h.signs, h.kept, h.due, h.clock⟩, if_neg (ne_true_of_eq_false hb), hk]
  dsimp only
  rw [← hres, hsig]
  dsimp only
  rw [← hok, hdue]
  cases ok <;> rfl

end

/-- Settles O24: a rejected attempt counts, and a signature's verdict goes to its check. -/
theorem dsaAttemptsRun : Obligations.DsaAttemptsRun := by
  unfold Obligations.DsaAttemptsRun
  intro s t i c o k gen pl q ho hst hoc hop hsq hcw hdue hclk
  have hover : AttemptOver (at_ s t) i.toNat c.toNat o := ⟨ho, hst, hoc, hop, hsq, hdue, hclk⟩
  refine ⟨fun hb => ⟨_, congrArg Host.Outcome.next (dsaAttemptDone_mismatch hover hb), ?_⟩, fun hb hk hq res hres =>
    ⟨fun hn => ⟨_, congrArg Host.Outcome.next (dsaAttemptDone_rejects hover hb hk (hq ▸ hres) hn), ?_⟩,
      fun sig ok v oc hsig hok hoc' hv => ?_⟩⟩
  · have hraise : (raiseEngine (at_ s t) o.bay).insts = s.insts := (raiseEngine_within (at_ s t) o.bay).same (·.insts)
    exact setOp_sets ho hraise { o with outcome := some (failNow (at_ s t) 0x0801) } rfl
  · exact setOp_sets (w := at_ s t) ho rfl { o with attempts := o.attempts + 1 } rfl
  · subst hq hv
    have hsame : attemptOutcome (at_ s t) o ok sig = oc := hoc'.symm
    have hrun : exec (.mldsaAttemptEnd t (.ring i c)) s = .next _ :=
      congrArg Host.Outcome.next (dsaAttemptDone_signs hover hb hk hres hsig hok)
    have hleft : (segmentsLeft (at_ s t) o.bay 0x6A o.engines).insts = s.insts :=
      (segmentsLeft_within (at_ s t) o.bay 0x6A o.engines).same (·.insts)
    rw [hrun, hsame]
    refine ⟨fun j hj => ?_, fun hj => ?_⟩
    · have he := beginCheck_begins (s := at_ s t) (i := i.toNat) (o := { o with attempts := o.attempts + 1, outcome := some oc }) (oc := oc)
        hop hcw hj
      have hin : (enterSegment (segmentsLeft (at_ s t) o.bay 0x6A o.engines) o.bay j o.att.tenant 0x6A false).insts = s.insts :=
        ((enterSegment_within _ _ _ _ _ _).same (·.insts)).trans hleft
      rw [he]
      exact ⟨_, rfl, setOp_sets ho hin { o with
        attempts := o.attempts + 1, engines := o.engines.filter (· != j) ++ [j], checking := true, outcome := some oc } rfl⟩
    · have he := beginCheck_waits (s := at_ s t) (i := i.toNat) (o := { o with attempts := o.attempts + 1, outcome := some oc }) (oc := oc)
        hop hj
      rw [he]
      exact ⟨_, rfl, setOp_sets ho hleft { o with attempts := o.attempts + 1, checkWaited := true, outcome := some oc } rfl⟩

end Sys2Proof.Machine
end

section
/-! SUPPORT. Frames of the custody controller's checks and of the items that a cut applies (R205, R281 to R289). -/

namespace Sys2Proof.Machine

-- One proof at a time: the check bounds the compiler's threads.
set_option Elab.async false

open Sys2Proof Sys2Proof.Safety

/-- What the custody controller may change by the items of a message: the stores of keys with what goes with them, and what an event of
FABRIC writes. -/
def custodyScope : Scope :=
  { modes := true, alarm := true, vault := true, slots := true, cache := true, slotMask := true, vaultMask := true, klog := true
    journal := true, keys := true, random := true, cnt := true, kumCtr := true, evr := true, bad := true, free := true }

theorem within_ite_mid {F : Scope} {s : State} {α β : Type} {a b : α × State × β} {c : Prop} [Decidable c] (ha : Within F s a.2.1)
    (hb : Within F s b.2.1) : Within F s (if c then a else b).2.1 := by
  split <;> assumption

section
variable (s : State)

/-! ## Checks -/

theorem setKumCounter_within (t v : Nat) : Within custodyScope s (setKumCounter s t v) := .ite rfl rfl

theorem fetchCarrier_within (claimed : Claims) (epoch owed tenant h : Nat) (r : Role) :
    Within custodyScope s (fetchCarrier s claimed epoch owed tenant h r).2.1 := by
  unfold fetchCarrier
  split
  · exact .refl s
  · have hf := fetchKey_within s islControl tenant r (keyByHandle s h epoch) noNonce (fun _ => !claimed.handles.contains h) owed
    generalize fetchKey s islControl tenant r (keyByHandle s h epoch) noNonce (fun _ => !claimed.handles.contains h) owed = F at hf ⊢
    obtain ⟨f, w, hs⟩ := F
    cases f <;> exact hf.mono rfl

theorem keptMaterial_within (tr : State) (h : Nat) (sl : Slot) : Within custodyScope s (keptMaterial s tr h sl).2 := by
  unfold keptMaterial
  split
  · split
    · exact (raiseFabric_within s _ _ _).mono rfl
    · exact .refl s
  · exact .refl s

theorem itemMaterial_within (tr : State) (claimed : Claims) (epoch owed tenant : Nat) (it : Item) (sl : Slot) (gen : Nat) (rand : Bytes) :
    Within custodyScope s (itemMaterial s tr claimed epoch owed tenant it sl gen rand).2.1 := by
  have hcarrier := fun r => fetchCarrier_within s claimed epoch owed tenant it.aux r
  unfold itemMaterial
  dsimp only
  split
  · specialize hcarrier (carriageRole it.carriage)
    generalize fetchCarrier s claimed epoch owed tenant it.aux (carriageRole it.carriage) = F at hcarrier ⊢
    obtain ⟨f, w, cl⟩ := F
    cases f <;> exact hcarrier
  · exact keptMaterial_within s tr it.handle sl
  · exact .refl s
  · specialize hcarrier { engine := engKdf, types := [3, 4, 5], usage := [19] }
    generalize fetchCarrier s claimed epoch owed tenant it.aux { engine := engKdf, types := [3, 4, 5], usage := [19] } = F at hcarrier ⊢
    obtain ⟨f, w, cl⟩ := F
    cases f <;> exact hcarrier

theorem checkItem_within (claimed : Claims) (epoch tenant : Nat) (done : List ItemOut) (it : Item) (rand : Bytes) :
    Within custodyScope s (checkItem s claimed epoch tenant done it rand).2.1 := by
  unfold checkItem
  dsimp only
  refine within_ite_mid (.refl s) (within_ite_mid (.refl s) (within_ite_mid (.refl s) (within_ite_mid (.refl s)
    (within_ite_mid (.refl s) (within_ite_mid (.refl s) ?_)))))
  have hw := itemMaterial_within s (trial s done) claimed epoch (itemPosts done) tenant it (slotAt (trial s done) it.handle)
    (if it.cmd = 2 then (slotAt (trial s done) it.handle).gen else nextGen (slotAt (trial s done) it.handle).gen) rand
  generalize itemMaterial s (trial s done) claimed epoch (itemPosts done) tenant it (slotAt (trial s done) it.handle)
    (if it.cmd = 2 then (slotAt (trial s done) it.handle).gen else nextGen (slotAt (trial s done) it.handle).gen) rand = M at hw ⊢
  obtain ⟨m, w, cl⟩ := M
  cases m with
  | error st => exact hw
  | ok m =>
    exact within_ite_mid hw (within_ite_mid hw (within_ite_mid (Within.then hw (bump_within w _)) (within_ite_mid hw hw)))

theorem checkItems_within (its : List Item) (claimed : Claims) (epoch tenant j : Nat) (done : List ItemOut) (rand : Bytes) :
    Within custodyScope s (checkItems s claimed epoch tenant j done rand its).2.1 := by
  induction its generalizing s claimed j done rand with
  | nil => exact .refl s
  | cons it rest ih =>
    have hit := checkItem_within s claimed epoch tenant done it rand
    unfold checkItems
    generalize checkItem s claimed epoch tenant done it rand = C at hit ⊢
    obtain ⟨r, w, cl⟩ := C
    cases r with
    | error st => exact hit
    | ok o => exact hit.trans (ih w cl (j + 1) (done ++ [o]) _)

/-! ## Effects -/

theorem putWay_within (x : Nat) (w : Way) : Within custodyScope s (putWay s x w) :=
  (show Within custodyScope s { s with keys := { s.keys with cache := mset {} s.keys.cache x w } } from rfl).then
    (writeWords_within _ memCache (wayWord x) 16)

theorem writeSlot_within (h e : Nat) (k : Option Key) : Within custodyScope s (writeSlot s h e k) :=
  ((show Within custodyScope s (clearExt s h) from rfl).then (writeWords_within _ memSlots (slotWord h)
    (8 * (1 + max ((slotAt (clearExt s h) h).key.elim 0 (·.ext)) (k.elim 0 (·.ext)))))).then
    (show Within custodyScope _ (writeSlot s h e k) from rfl)

theorem noteVault_within (h : Nat) : Within custodyScope s (noteVault s h) := rfl

theorem disinherit_within (h cut : Nat) (moved : Bool) : Within custodyScope s (disinherit s h cut moved) := rfl

theorem spoilWord_within (mem w e : Nat) : Within { bad := true } s (spoilWord s mem w e) := rfl

theorem carryCode_within (h x : Nat) : Within { bad := true } s (carryCode s h x) := by
  exact .each (fun s j => spoilWord_within s _ _ _) _ s

theorem putShelf_within (x : Nat) (e : Shelf) : Within custodyScope s (putShelf s x e) :=
  (putWay_within s x _).then (carryCode_within _ e.handle x)

theorem evictDraw_within (n : Nat) : Within custodyScope s (evictDraw s n).2 := rfl

theorem chooseWay_within (policy : Nat) (cands : List Nat) : Within custodyScope s (chooseWay s policy cands).2 := by
  unfold chooseWay
  split
  · exact .refl s
  · split
    · exact .refl s
    · exact evictDraw_within s cands.length

variable {s} {u : State}

theorem placeShelf_within {e : Shelf} (h : placeShelf s e = some u) : Within custodyScope s u := by
  unfold placeShelf at h
  dsimp only at h
  generalize cacheSet (s.random.tableKey.getD (Bytes.zeros 32)) 2 (Bytes.ofNatLE 4 e.handle) = st at h
  split at h
  · cases h
    exact putShelf_within s _ e
  · have hc := chooseWay_within s 0 ((setWays st).filter (fun x => (tokenInst s x).isSome))
    generalize chooseWay s 0 ((setWays st).filter (fun x => (tokenInst s x).isSome)) = C at h hc
    obtain ⟨x, w⟩ := C
    cases x with
    | none => cases h
    | some x =>
      cases h
      exact (hc.then (bump_within w _)).trans (putShelf_within _ x e)

/-- Steps that may fail, one after another, keep a frame that each keeps. -/
theorem within_foldl_bind {α : Type} {F : Scope} {f : State → α → Option State} (hf : ∀ w a v, f w a = some v → Within F w v) (xs : List α)
    {s u : State} (h : xs.foldl (fun acc a => acc.bind (fun w => f w a)) (some s) = some u) : Within F s u := by
  induction xs generalizing s with
  | nil =>
    cases h
    exact .refl _
  | cons a rest ih =>
    rw [List.foldl_cons, Option.bind_some] at h
    cases hw : f s a with
    | none =>
      rw [hw] at h
      have hnone : ∀ xs : List α, xs.foldl (fun acc a => acc.bind (fun w => f w a)) none = none := by
        intro xs
        induction xs with
        | nil => rfl
        | cons b xs ih => exact ih
      rw [hnone] at h
      cases h
    | some w =>
      rw [hw] at h
      exact (hf s a w hw).trans (ih h)

theorem shelveRun_within {h cut : Nat} {heir moved : Bool} (hs : shelveRun s h cut heir moved = some u) : Within custodyScope s u := by
  unfold shelveRun at hs
  dsimp only at hs
  split at hs
  · cases hs
    exact .refl s
  · exact within_foldl_bind (fun _ _ _ h => placeShelf_within h) _ hs

theorem shelveItem_within {epoch : Nat} {it : ItemOut} (h : shelveItem s epoch it = some u) : Within custodyScope s u := by
  unfold shelveItem at h
  split at h
  · cases h
    exact .ite (.refl s) (disinherit_within s _ _ _)
  · exact shelveRun_within h

theorem applyItem_within {epoch : Nat} {it : ItemOut} (h : applyItem s epoch it = some u) : Within custodyScope s u := by
  unfold applyItem at h
  split at h
  · cases h
  · next w hw =>
    have hwritten := (shelveItem_within hw).trans (writeSlot_within w it.handle epoch (writtenKey w it))
    have hcounted := hwritten.trans (Within.ite (c := ((mfind w.vault.backed it.handle).isSome &&
      !(((slotAt w it.handle).key.map (·.backed)).getD false)) = true)
      ((setCounter_within _ (odKey 0x6002 2) (counter (writeSlot w it.handle epoch (writtenKey w it)) (odKey 0x6002 2) - 1)).mono rfl)
      (.refl _))
    dsimp only at h
    generalize writeSlot w it.handle epoch (writtenKey w it) = v at h hwritten hcounted
    split at h
    · cases h
      exact hwritten
    · generalize (if ((mfind w.vault.backed it.handle).isSome && !(((slotAt w it.handle).key.map (·.backed)).getD false)) = true then
        setCounter v (odKey 0x6002 2) (counter v (odKey 0x6002 2) - 1) else v) = x at h hcounted
      split at h
      · cases h
        have hvault : ∀ (b : Map BackedEntry) (p : List (Nat × Nat)) (l : KeyLog), Within custodyScope s
            { noteVault x it.handle with
              vault := { x.vault with backed := b, pending := p }
              keys := { (noteVault x it.handle).keys with log := l } } := fun b p l => hcounted.trans rfl
        exact .ite ((hvault _ _ _).then (postReservation_within _ _)) (hvault _ _ _)
      · cases h
        exact hcounted.trans rfl

theorem applyItems_within {epoch : Nat} {its : List ItemOut} (h : applyItems s epoch its = some u) : Within custodyScope s u :=
  within_foldl_bind (fun _ _ _ h => applyItem_within h) its h

end

end Sys2Proof.Machine
end

section
/-! SUPPORT. Key update messages as they start, and their cuts (R287 to R290). -/

namespace Sys2Proof.Machine

-- One proof at a time: the check bounds the compiler's threads.
set_option Elab.async false

open Sys2Proof Sys2Proof.Safety

/-! ## The start -/

section
variable (s : State)

theorem kumDraws_within (b n : Nat) : Within drawScope s (kumDraws b n s).2 := by
  induction n generalizing s with
  | zero => exact draw_within s b 56
  | succ n ih =>
    have hd := draw_within s b 32
    unfold kumDraws
    generalize draw s b 32 = D at hd ⊢
    obtain ⟨r, w⟩ := D
    cases r with
    | none => exact hd
    | some r =>
      have hk := ih w
      dsimp only
      generalize kumDraws b n w = K at hk ⊢
      obtain ⟨rest, u⟩ := K
      cases rest <;> exact hd.trans hk

theorem queueCommit_within (slot t : Nat) : Within { joints := true, commits := true } s (queueCommit s slot t) := rfl

theorem openSlot_within (slot : Nat) (j : Joint) : Within { joints := true, devCtr := true } s (openSlot s slot j) := rfl

theorem openKumJoint_within (i t : Nat) (msg : Bytes) :
    Within { joints := true, commits := true, devCtr := true } s (openKumJoint s i t msg).2 := by
  unfold openKumJoint
  split
  · split
    · exact .refl s
    · exact ((openSlot_within s _ _).mono rfl).then (queueCommit_within _ _ t)
  · exact .refl s

end

/-- What a key update message that passed its early checks comes to, by its draws. -/
def kumDrawn (i : Nat) (o : RingOp) (m : Kum) (auth : Key) (msg : Bytes) (now : Nat) (D : Option Bytes × State) : State :=
  match D with
  | (none, w) => fixOutcome w i o { status := 0x0501, due := now + 1000 }
  | (some rand, w) =>
    if kumSigned auth m = false ∨ m.counter ≤ kumCounter w m.tenant then
      fixOutcome w i o { status := 0x0404, due := now + 1000 * kumVerifyUs m }
    else beginOp (openKumJoint w i (w.now + 1000 * kumVerifyUs m) msg).2 i
      { o with drawn := some rand, kumVerified := true, kumJoint := (openKumJoint w i (w.now + 1000 * kumVerifyUs m) msg).1 } none

section
variable {s w : State} {i c : Nat} {o : RingOp} {es : List Nat} {msg : Bytes} (h : startable s i c (fun d => dOp d == 0x70) = some o)
  (hes : pkEngines s o.bay o.snap = some es) (hw : w = enterAll s o.bay o.att.tenant o.snap es) (hmsg : msg = inputOf w i o)
include h hes hw hmsg

theorem ringKum_early {st : Nat} (he : kumEarly w o.att.tenant (authorityOf w o) msg = .error st) : ringKum i c s =
    fixOutcome (refusedKey w (5 + o.bay) st (authorityOf w o)) i { o with engines := es } { status := st, due := w.now + 1000 } := by
  unfold ringKum
  rw [h]
  dsimp only
  rw [hes]
  dsimp only
  rw [← hw]
  have he' : kumEarly w o.att.tenant (authorityOf w { o with engines := es }) (inputOf w i { o with engines := es }) = .error st := hmsg ▸ he
  rw [he']
  rfl

theorem ringKum_draws {m : Kum} {auth : Key} (he : kumEarly w o.att.tenant (authorityOf w o) msg = .ok (m, auth)) : ringKum i c s =
    kumDrawn i { o with engines := es } m auth msg w.now (kumDraws o.bay (generateBytes m / 32) w) := by
  unfold ringKum
  rw [h]
  dsimp only
  rw [hes]
  dsimp only
  rw [← hw]
  have he' : kumEarly w o.att.tenant (authorityOf w { o with engines := es }) (inputOf w i { o with engines := es }) = .ok (m, auth) :=
    hmsg ▸ he
  rw [he']
  dsimp only
  rw [hmsg]
  generalize kumDraws o.bay (generateBytes m / 32) w = D
  obtain ⟨r, u⟩ := D
  cases r <;> rfl

end

/-! ## The cut -/

section
variable (s : State)

theorem answerSigns_within (j : Joint) : Within { outbox := true } s (answerSigns s j) :=
  .each (f := fun s (v : Nat × Bytes × KHdr) => kReply s v.2.2 0x14 0x0902 []) (fun s v => kReply_within s v.2.2 0x14 0x0902 []) _ s

theorem commitRecord_within (slot status epoch : Nat) : Within { cnt := true, evr := true } s (commitRecord s slot status epoch) :=
  ((bump_within s _).mono rfl).then (record_within _ _ _ _)

theorem closeJoint_within (slot st final : Nat) : Within { joints := true, commits := true } s (closeJoint s slot st final) := rfl

theorem endKumJoint_within (o : RingOp) (status epoch : Nat) :
    Within { joints := true, commits := true, cnt := true, evr := true, outbox := true } s (endKumJoint s o status epoch) := by
  unfold endKumJoint
  split
  · exact (((answerSigns_within s _).mono rfl).then (commitRecord_within _ _ _ _)).then (closeJoint_within _ _ _ _)
  · exact .refl s

theorem advanceEpoch_within : Within { ctl := true, devCtr := true } s (advanceEpoch s) := rfl

/-- The parts that a key update's cut may write. -/
def kumCutScope : Scope := { custodyScope with ctl := true, devCtr := true }

/-- A refusal leaves its state, and is no cut. -/
theorem refusedCut_frame {s w : State} (h : Within custodyScope s w) {P : State → Prop} {st : Nat} {item : Option (Nat × Nat)} :
    (∀ st' item' w', KumEnd.refused st item w = .refused st' item' w' → Within custodyScope s w') ∧
    (∀ its ws w', KumEnd.refused st item w = .cut its ws w' → P w') := by
  refine ⟨fun _ _ _ he => ?_, fun _ _ _ he => ?_⟩
  · cases he
    exact h
  · cases he

/-- A cut made is no refusal. -/
theorem madeCut_frame {s w : State} {P : State → Prop} (h : P w) {its : List ItemOut} {ws : List Nat} :
    (∀ st item w', KumEnd.cut its ws w = .refused st item w' → Within custodyScope s w') ∧
    (∀ its' ws' w', KumEnd.cut its ws w = .cut its' ws' w' → P w') := by
  refine ⟨fun _ _ _ he => ?_, fun _ _ _ he => ?_⟩
  · cases he
  · cases he
    exact h

/-- The checks of a cut leave everything but the stores of keys; a cut made advances the epoch by one. -/
theorem kumCutNow_frame (o : RingOp) (m : Kum) :
    (∀ st item w, kumCutNow s o m = .refused st item w → Within custodyScope s w) ∧
    (∀ its ws w, kumCutNow s o m = .cut its ws w → Within kumCutScope s w ∧ w.ctl.epoch = s.ctl.epoch + 1) := by
  have hcounter := setKumCounter_within s m.tenant m.counter
  have hcheck := fun claimed rand => hcounter.trans
    (checkItems_within (setKumCounter s m.tenant m.counter) m.items claimed o.att.epoch m.tenant 0 [] rand)
  unfold kumCutNow
  dsimp only
  split
  · exact refusedCut_frame (.refl s)
  · specialize hcheck {} (o.drawn.getD [])
    generalize setKumCounter s m.tenant m.counter = w0 at hcounter hcheck ⊢
    split
    · exact refusedCut_frame hcounter
    · generalize checkItems w0 {} o.att.epoch m.tenant 0 [] (o.drawn.getD []) m.items = C at hcheck ⊢
      obtain ⟨r, w1, cl⟩ := C
      cases r with
      | error e =>
        obtain ⟨st, j, hdl⟩ := e
        exact refusedCut_frame hcheck
      | ok its =>
        dsimp only at hcheck ⊢
        split
        · exact refusedCut_frame hcheck
        · cases ha : applyItems (advanceEpoch w1) (w1.ctl.epoch + 1) its with
          | none => exact refusedCut_frame hcheck
          | some w2 =>
            have happly := applyItems_within ha
            refine madeCut_frame (P := fun w => Within kumCutScope s w ∧ w.ctl.epoch = s.ctl.epoch + 1) ⟨((((hcheck.mono rfl).then (advanceEpoch_within w1)).then happly).then (bump_within _ _)).then (freeShelf_within _), ?_⟩
            exact (congrArg Ctl.epoch (happly.same (·.ctl))).trans (congrArg (· + 1) (congrArg Ctl.epoch (hcheck.same (·.ctl))))

end

section
variable {s : State} {i c : Nat} {o : RingOp} {m : Kum} (ho : findOp (getInst s i) c = some o) (hm : parseKum (inputOf s i o) true = .ok m)
  (hready : o.kumVerified = true ∧ o.outcome = none ∧ o.squashed = false ∧ o.t0 + 1000 * kumItemsUs m ≤ s.now ∧ islandsTaken s = true ∧
    s.acu.drain = false ∧ (o.kumJoint = none ∨ s.ctl.commits.head? = o.kumJoint))
include ho hm hready

theorem ringKumCut_refused {st : Nat} {item : Option (Nat × Nat)} {w : State} (hc : kumCutNow s o m = .refused st item w) :
    ringKumCut i c s = modInst (endKumJoint w o st 0) i (fun x => setOp x { o with
      kumJoint := none, outcome := some { status := st, due := (endKumJoint w o st 0).now, item := item } }) := by
  unfold ringKumCut
  rw [ho]
  dsimp only
  rw [hm]
  dsimp only
  rw [if_pos hready, hc]

/-- The verdict on the receipt of a message, due at its time point. -/
def receiptOutcome (v : State) (o : RingOp) (m : Kum) (body sig : Bytes) : Outcome :=
  if p384Verify v.keys.idPublic body sig then
    { status := 0, out := body ++ sig, outLen := (body ++ sig).length, due := max (o.t0 + 1000 * kumReceiptUs m) v.now, roundT := some o.t0 }
  else { status := 0x0405, due := max (o.t0 + 1000 * kumReceiptUs m) v.now, roundT := some o.t0, selfFail := 1 }

theorem ringKumCut_cuts {its : List ItemOut} {ws : List Nat} {w v : State} {body sig : Bytes} (hc : kumCutNow s o m = .cut its ws w)
    (hv : v = endKumJoint w o 0 w.ctl.epoch) (hbody : body = receiptBody m (inputOf s i o) v.ctl.epoch its)
    (hsig : sig = identitySign v ((o.drawn.getD []).drop (generateBytes m)) body) :
    ringKumCut i c s = modInst (each o.engines v (fun v j => enterSegment v o.bay j o.att.tenant 0x70 true)) i (fun x => setOp x { o with
      waits := o.waits ++ ws, kumJoint := none, kumCutDone := true, outcome := some (receiptOutcome v o m body sig) }) := by
  subst hv hbody hsig
  unfold ringKumCut receiptOutcome
  rw [ho]
  dsimp only
  rw [hm]
  dsimp only
  rw [if_pos hready, hc]
  rfl

end

/-- Settles O26: a message goes on by its early checks, draws, signature and counter; its cut is `kumCutNow`, and the receipt its
verdict. -/
theorem kumRunsAndCuts : Obligations.KumRunsAndCuts := by
  unfold Obligations.KumRunsAndCuts
  intro s t i c o msg hmsg
  refine ⟨fun es w h hes hw => ?_, fun m ho hm hver hoc hsq hdue hisl hdr hj hctl hhub => ?_⟩
  · have hwi : w.insts = s.insts := by
      rw [hw]
      exact (enterAll_within (at_ s t) o.bay o.att.tenant o.snap es).same (·.insts)
    have hmsgw : msg = inputOf w i.toNat o := by
      rw [hmsg]
      unfold inputOf
      rw [getInst_of_insts hwi]
    refine ⟨fun st he => ⟨_, congrArg Host.Outcome.next (ringKum_early h hes hw hmsgw he), ?_⟩, fun m auth D J he hD hJ => ?_⟩
    · exact fixOutcome_started h (((refusedKey_within _ _ _ _).same (·.insts)).trans hwi) { o with engines := es } rfl _
    · have hrun : exec (.kum t (.ring i c)) s = .next _ := congrArg Host.Outcome.next (ringKum_draws h hes hw hmsgw he)
      have hDi : D.2.insts = s.insts := by
        rw [hD]
        exact ((kumDraws_within w o.bay _).same (·.insts)).trans hwi
      rw [hrun, ← hD]
      obtain ⟨r, u⟩ := D
      refine ⟨fun hr => ?_, fun rand hr hbad => ?_, fun rand hr hs hc => ?_⟩
      · cases hr
        exact ⟨_, rfl, fixOutcome_started h hDi { o with engines := es } rfl _⟩
      · cases hr
        refine ⟨_, rfl, ?_⟩
        rw [show kumDrawn i.toNat { o with engines := es } m auth msg w.now (some rand, u) = _ from if_pos hbad]
        exact fixOutcome_started h hDi { o with engines := es } rfl _
      · cases hr
        have hgood : ¬(kumSigned auth m = false ∨ m.counter ≤ kumCounter u m.tenant) := by
          rw [hs]
          simp only [Bool.true_eq_false, false_or]
          exact Nat.not_le.2 hc
        have hJi : J.2.insts = s.insts := by
          rw [hJ]
          exact ((openKumJoint_within _ _ _ _).same (·.insts)).trans hDi
        refine ⟨_, rfl, ?_⟩
        rw [show kumDrawn i.toNat { o with engines := es } m auth msg w.now (some rand, u) = _ from if_neg hgood]
        rw [← show J = openKumJoint u i.toNat (u.now + 1000 * kumVerifyUs m) msg from hJ]
        exact beginOp_started h hJi { o with engines := es, drawn := some rand, kumVerified := true, kumJoint := J.1 } rfl none
  · subst hmsg
    have hready : o.kumVerified = true ∧ o.outcome = none ∧ o.squashed = false ∧ o.t0 + 1000 * kumItemsUs m ≤ (at_ s t).now ∧
        islandsTaken (at_ s t) = true ∧ (at_ s t).acu.drain = false ∧
        (o.kumJoint = none ∨ (at_ s t).ctl.commits.head? = o.kumJoint) := ⟨hver, hoc, hsq, hdue, hisl, hdr, hj⟩
    have hrun : exec (.kumCut t (.ring i c)) s = .next (ringKumCut i.toNat c.toNat (at_ s t)) := by
      refine congrArg Host.Outcome.next (if_pos ?_)
      rw [List.all_cons, List.all_cons, List.all_nil, Bool.and_true]
      exact Bool.and_eq_true_iff.2 ⟨hctl, hhub⟩
    obtain ⟨hrefused, hcut⟩ := kumCutNow_frame (at_ s t) o m
    rw [hrun]
    refine ⟨fun st item w v hc hv => ?_, fun its ws w v body sig hc hv hbody hsig => ?_⟩
    · subst hv
      have hw : (endKumJoint w o st 0).insts = s.insts :=
        ((endKumJoint_within w o st 0).same (·.insts)).trans ((hrefused st item w hc).same (·.insts))
      rw [ringKumCut_refused (s := at_ s t) ho hm hready hc]
      exact ⟨_, rfl, setOp_sets ho hw _ rfl⟩
    · obtain ⟨hwithin, hepoch⟩ := hcut its ws w hc
      have hv' : v.insts = s.insts := by
        rw [hv]
        exact ((endKumJoint_within w o 0 _).same (·.insts)).trans (hwithin.same (·.insts))
      have hseg : (each o.engines v (fun v j => enterSegment v o.bay j o.att.tenant 0x70 true)).insts = s.insts :=
        ((Within.each (F := segmentScope) (fun v j => enterSegment_within v o.bay j _ _ _) o.engines v).same (·.insts)).trans hv'
      rw [ringKumCut_cuts (s := at_ s t) ho hm hready hc hv hbody hsig]
      refine ⟨_, receiptOutcome v o m body sig, rfl, hepoch, setOp_sets ho hseg _ rfl, ?_, fun hg => ?_, fun hb => ?_⟩
      · unfold receiptOutcome
        split <;> rfl
      · unfold receiptOutcome
        rw [if_pos hg]
        exact ⟨rfl, rfl⟩
      · unfold receiptOutcome
        rw [if_neg (ne_true_of_eq_false hb)]
        exact ⟨rfl, rfl⟩

end Sys2Proof.Machine
end

section
/-! SUPPORT. Tests of single engines (R61, R62, R66, R159, R235). -/

namespace Sys2Proof.Machine

-- One proof at a time: the check bounds the compiler's threads.
set_option Elab.async false

open Sys2Proof Sys2Proof.Safety

/-! ## A BNC that enters or leaves TEST -/

section
variable (s : State) (b k : Nat)

/-- The memory of a BNC under test: it holds test content that TEST owns. -/
def testMem (id : Nat) : EngMem := { owner := .test, key := .test id, work := .test id, io := .test id }

theorem clearMem_bays (o : Owner) : (clearMem s b k o).bays =
    (modMem s b k (fun _ => { owner := o, key := .zero, work := .zero, io := .zero })).bays := (writeEngine_within _ b k).same (·.bays)

theorem clearMem_frame (o : Owner) : clearMem s b k o = { s with
    bays := (clearMem s b k o).bays, bad := s.bad.filter (fun e => !inEngines b [k] e.1) } := by
  unfold clearMem
  rw [writeEngine_frame]
  rfl

/-- A change of an engine's memory leaves the rest of its bay. -/
theorem modMem_bay (f : EngMem → EngMem) : getBay (modMem s b k f) b = { getBay s b with mem := mmod {} (getBay s b).mem k f } :=
  getBay_setBay_same _ _ _

/-- A BNC enters TEST zeroed, whoever owned it; only the count of the wipes tells (R235, R238). -/
theorem enterTest_eq : ∃ c, enterTest s b k = modMem { clearMem s b k .test with cnt := c, free := s.free + 1 } b k
    (fun m => { m with key := .test s.free, work := .test s.free, io := .test s.free }) := by
  have hfree : (clearMem s b k .test).free = s.free := (clearMem_within s b k .test).same (·.free)
  unfold enterTest
  split
  · refine ⟨(wipeBnc s b k .test).cnt, ?_⟩
    show modMem { clearMem s b k .test with cnt := _, free := (clearMem s b k .test).free + 1 } b k
      (fun m => { m with key := .test (clearMem s b k .test).free, work := .test (clearMem s b k .test).free
                         io := .test (clearMem s b k .test).free }) = _
    rw [hfree]
  · refine ⟨(clearMem s b k .test).cnt, ?_⟩
    show modMem { clearMem s b k .test with free := (clearMem s b k .test).free + 1 } b k
      (fun m => { m with key := .test (clearMem s b k .test).free, work := .test (clearMem s b k .test).free
                         io := .test (clearMem s b k .test).free }) = _
    rw [hfree]

theorem enterTest_frame : enterTest s b k = { s with
    bays := (enterTest s b k).bays, cnt := (enterTest s b k).cnt, free := s.free + 1
    bad := s.bad.filter (fun e => !inEngines b [k] e.1) } := by
  obtain ⟨c, he⟩ := enterTest_eq s b k
  rw [he, clearMem_frame]
  rfl

theorem enterTest_other {b' : Nat} (h : b' ≠ b) : getBay (enterTest s b k) b' = getBay s b' := by
  obtain ⟨c, he⟩ := enterTest_eq s b k
  rw [he]
  exact ((getBay_setBay_other _ _ _ _ h).trans (getBay_of_bays (clearMem_bays s b k .test) b')).trans (getBay_setBay_other s _ _ _ h)

theorem enterTest_bay : getBay (enterTest s b k) b = { getBay s b with mem := (getBay (enterTest s b k) b).mem } := by
  obtain ⟨c, he⟩ := enterTest_eq s b k
  have hclear : getBay { clearMem s b k .test with cnt := c, free := s.free + 1 } b = _ :=
    (getBay_of_bays (clearMem_bays s b k .test) b).trans (modMem_bay s b k _)
  rw [he, modMem_bay, hclear]

theorem enterTest_mem : mget {} (getBay (enterTest s b k) b).mem k = testMem s.free := by
  obtain ⟨c, he⟩ := enterTest_eq s b k
  have hclear : getBay { clearMem s b k .test with cnt := c, free := s.free + 1 } b = _ := getBay_of_bays (clearMem_bays s b k .test) b
  rw [he, modMem_same, hclear, modMem_same]
  rfl

theorem enterTest_mem_other {j : Nat} (h : j ≠ k) :
    mget {} (getBay (enterTest s b k) b).mem j = mget {} (getBay s b).mem j := by
  obtain ⟨c, he⟩ := enterTest_eq s b k
  have hclear : getBay { clearMem s b k .test with cnt := c, free := s.free + 1 } b = _ := getBay_of_bays (clearMem_bays s b k .test) b
  rw [he, modMem_other _ _ _ h, hclear, modMem_other _ _ _ h]

end

/-! ## A test that begins beside data that have just become late -/

/-- An operation whose host data have not come by the end of its booked time, at device time 0. -/
def lateOp : RingOp :=
  { count := 0, snap := [], arr := 0, round := 0, stage := .running, plan := { len := 2 }, bay := 16, engines := [0]
    job := some { key := {}, v := 0 } }

/-- A machine at device time 0 with a test booked on the engine that the operation holds until then. -/
def lateState : State := { State.reset with insts := [(0, { ops := [lateOp] })], bays := [(16, { testBook := some (0, 0) })] }

/-- Whether an engine of bay 16 is under test after an answer. -/
def testRuns (r : Result) : Bool := match r with
  | .next u => (getBay u 16).test.isSome
  | _ => false

theorem lateState_busy : testable lateState 16 0 = false := by decide

theorem lateState_begins : testRuns (exec (.periodicTestStart 1 16 0) lateState) = true := by decide

/-- Refutes O30: whether an engine is at work is asked at the time of the test, when the operation that held the engine until then may
have become late (R57). At device time 0 engine 0 of bay 16 is at work, so the statement lets nothing change; at 1 ns its operation's data
are late, the engine is idle, and the booked test begins. -/
theorem not_engineTestsRun : ¬ Obligations.EngineTestsRun := by
  unfold Obligations.EngineTestsRun
  intro h
  obtain ⟨-, hstands, -⟩ := h lateState 1 16 0 _ rfl
  have hnone := congrArg testRuns (hstands (.inl lateState_busy))
  rw [lateState_begins] at hnone
  exact absurd hnone (by decide)

end Sys2Proof.Machine
end

section
/-! SUPPORT. Bays that leave service and return, bay frames and returning clocks (R17, R22, R60, R65, R235, R259). -/

namespace Sys2Proof.Machine

-- One proof at a time: the check bounds the compiler's threads.
set_option Elab.async false

open Sys2Proof Sys2Proof.Safety

/-! ## Turns over the engines of one bay -/

/-- A state differs from another in the memories of one bay's engines alone, as far as the bays go. -/
def MemsOnly (b : Nat) (s u : State) : Prop :=
  getBay u b = { getBay s b with mem := (getBay u b).mem } ∧ ∀ b', b' ≠ b → getBay u b' = getBay s b'

theorem MemsOnly.refl (b : Nat) (s : State) : MemsOnly b s s := ⟨rfl, fun _ _ => rfl⟩

theorem MemsOnly.trans {b : Nat} {s u v : State} (h : MemsOnly b s u) (h' : MemsOnly b u v) : MemsOnly b s v := by
  refine ⟨?_, fun b' hb => (h'.2 b' hb).trans (h.2 b' hb)⟩
  rw [h'.1, h.1]

theorem MemsOnly.each {b : Nat} {f : State → Nat → State} (h : ∀ w k, MemsOnly b w (f w k)) (ks : List Nat) (s : State) :
    MemsOnly b s (each ks s f) :=
  each_keeps (P := fun w => MemsOnly b s w) (fun w k hw => hw.trans (h w k)) ks (.refl b s)

@[simp] theorem getBay_modBay_same (s : State) (b : Nat) (f : Bay → Bay) : getBay (modBay s b f) b = f (getBay s b) :=
  getBay_setBay_same _ _ _

section
variable (s : State) (b : Nat)

theorem enterTest_mems (k : Nat) : MemsOnly b s (enterTest s b k) := ⟨enterTest_bay s b k, fun _ h => enterTest_other s b k h⟩

theorem leaveTest_mems (k : Nat) : MemsOnly b s (leaveTest s b k) := by
  refine ⟨?_, fun b' hb => getBay_setBay_other _ _ _ _ hb⟩
  unfold leaveTest
  rw [modMem_bay]

theorem enterTest_within (k : Nat) : Within { bays := true, cnt := true, free := true, bad := true } s (enterTest s b k) := by
  rw [enterTest_frame]
  rfl

theorem enterTests_within (ks : List Nat) :
    Within { bays := true, cnt := true, free := true, bad := true } s (each ks s (fun s k => enterTest s b k)) :=
  .each (fun w k => enterTest_within w b k) ks s

theorem enterTests_bad (ks : List Nat) : (each ks s (fun s k => enterTest s b k)).bad = s.bad.filter (fun e => !inEngines b ks e.1) := by
  induction ks generalizing s with
  | nil => exact (List.filter_eq_self.2 (fun _ _ => rfl)).symm
  | cons k rest ih =>
    calc (each rest (enterTest s b k) (fun s k => enterTest s b k)).bad
        = (enterTest s b k).bad.filter (fun e => !inEngines b rest e.1) := ih _
      _ = (s.bad.filter (fun e => !inEngines b [k] e.1)).filter (fun e => !inEngines b rest e.1) := by
          rw [show (enterTest s b k).bad = _ from congrArg State.bad (enterTest_frame s b k)]
      _ = s.bad.filter (fun e => !inEngines b (k :: rest) e.1) := by
          rw [List.filter_filter]
          exact List.filter_congr (fun e _ => by simp [inEngines, Bool.and_comm])

theorem enterTests_mem {k : Nat} (ks : List Nat) (hk : k ∈ ks) :
    ∃ id, mget {} (getBay (each ks s (fun s k => enterTest s b k)) b).mem k = testMem id := by
  refine each_reaches (P := fun w => ∃ id, mget {} (getBay w b).mem k = testMem id) hk (fun w => ⟨w.free, enterTest_mem w b k⟩)
    (fun w j hw => ?_) s
  by_cases hj : k = j
  · exact ⟨w.free, hj ▸ enterTest_mem w b k⟩
  · rw [enterTest_mem_other w b j hj]
    exact hw

omit s b in
theorem disowned {m m' : EngMem} (h : m.owner = .nobody) (he : { m with owner := .nobody } = { m' with owner := Owner.nobody }) :
    m = { m' with owner := .nobody } := by
  cases m
  cases h
  exact he

/-- Nobody owns an engine's memory any more; the memory stands. -/
theorem leaveTests_mem {k : Nat} (ks : List Nat) (hk : k ∈ ks) :
    mget {} (getBay (each ks s (fun s k => leaveTest s b k)) b).mem k = { mget {} (getBay s b).mem k with owner := .nobody } := by
  have hkept : ∀ w j, { mget {} (getBay (leaveTest w b j) b).mem k with owner := .nobody } = { mget {} (getBay w b).mem k with owner := Owner.nobody } := by
    intro w j
    by_cases hj : k = j
    · subst hj
      unfold leaveTest
      rw [modMem_same]
    · unfold leaveTest
      rw [modMem_other _ _ _ hj]
  have howner := each_reaches (P := fun w => (mget {} (getBay w b).mem k).owner = .nobody) (f := fun s k => leaveTest s b k) hk
    (fun w => by unfold leaveTest; rw [modMem_same])
    (fun w j hw => by
      by_cases hj : k = j
      · subst hj
        unfold leaveTest
        rw [modMem_same]
      · unfold leaveTest
        rw [modMem_other _ _ _ hj]
        exact hw) s
  have hrest := each_keeps (P := fun w => { mget {} (getBay w b).mem k with owner := .nobody } = { mget {} (getBay s b).mem k with owner := Owner.nobody })
    (f := fun s k => leaveTest s b k) (fun w j hw => (hkept w j).trans hw) ks rfl
  exact disowned howner hrest

end

/-! ## Leaving -/

/-- A bay that may leave. -/
structure BayLeaves (s : State) (b : Nat) : Prop where
  closing : (getBay s b).st = 1
  passed : bookingsPassed s b = true
  idle : bayBusy s b = false
  untested : (getBay s b).test = none

/-- A bay that is out, its memories tested. -/
def bayOut (s : State) (b : Nat) : State := testMemories (modBay s b (fun x => { x with st := 2, drbg := freshDrbg })) b

section
variable (s : State) (b : Nat)

theorem leaveBay_leaves (h : BayLeaves s b) : leaveBay s b =
    if (getBay s b).why = .fault ∧ bayClockRuns (bayOut s b) b then requestSeed (bayOut s b) 1 (.inst b) 3 else bayOut s b := by
  unfold leaveBay
  rw [if_pos ⟨h.closing, h.passed, h.idle, h.untested⟩]
  rfl

theorem leaveBay_stands (h : (getBay s b).st ≠ 1 ∨ bookingsPassed s b = false ∨ bayBusy s b = true ∨ (getBay s b).test.isSome = true) :
    leaveBay s b = s := by
  unfold leaveBay
  refine if_neg (fun ⟨hst, hpassed, hidle, htest⟩ => ?_)
  rcases h with h | h | h | h
  · exact h hst
  · rw [h] at hpassed
    cases hpassed
  · rw [h] at hidle
    cases hidle
  · rw [htest] at h
    cases h

theorem bayOut_within : Within { bays := true, cnt := true, free := true, bad := true } s (bayOut s b) := by
  unfold bayOut testMemories
  exact .ite ((modBay_within s b _).mono rfl |>.trans (enterTests_within _ b _)) ((modBay_within s b _).mono rfl)

theorem bayOut_bad : (bayOut s b).bad = if isBncBay b then s.bad.filter (fun e => !inEngines b (upTo 8) e.1) else s.bad := by
  unfold bayOut testMemories
  split
  · exact enterTests_bad _ b _
  · rfl

theorem bayOut_mems : MemsOnly b (modBay s b (fun x => { x with st := 2, drbg := freshDrbg })) (bayOut s b) := by
  unfold bayOut testMemories
  split
  · exact .each (fun w k => enterTest_mems w b k) _ _
  · exact .refl _ _

theorem bayOut_bay : getBay (bayOut s b) b = { getBay s b with st := 2, drbg := {}, mem := (getBay (bayOut s b) b).mem } := by
  have h := (bayOut_mems s b).1
  rw [getBay_modBay_same] at h
  exact h

theorem bayOut_other {b' : Nat} (h : b' ≠ b) : getBay (bayOut s b) b' = getBay s b' :=
  ((bayOut_mems s b).2 b' h).trans (getBay_setBay_other _ _ _ _ h)

theorem bayOut_tested (hb : isBncBay b = true) {k : Nat} (hk : k < 8) : ∃ id, mget {} (getBay (bayOut s b) b).mem k = testMem id := by
  unfold bayOut testMemories
  rw [if_pos hb]
  exact enterTests_mem _ b _ (List.mem_range.2 hk)

theorem bayOut_mem (hb : isBncBay b = false) : (getBay (bayOut s b) b).mem = (getBay s b).mem := by
  unfold bayOut testMemories
  rw [if_neg (by rw [hb]; decide)]
  rw [getBay_modBay_same]

/-- A seed asked for tells the random island alone. -/
theorem requestSeed_random_congr {s u : State} (h : u.random = s.random) (prio : Nat) (who : Consumer) (need : Nat) :
    (requestSeed u prio who need).random = (requestSeed s prio who need).random := by
  unfold requestSeed
  dsimp only
  rw [h]
  cases s.random.reqs.any (fun r => r.who == who) <;> rfl

/-- A bay leaves; a bay that its fault alone took out asks for its seed. -/
theorem leaveBay_out (h : BayLeaves s b) : (leaveBay s b).bays = (bayOut s b).bays ∧
    Within { bays := true, cnt := true, free := true, bad := true, random := true, reqs := true } s (leaveBay s b) ∧
    (leaveBay s b).bad = (bayOut s b).bad ∧
    (leaveBay s b).random = (if (getBay s b).why = .fault ∧ bayClockRuns s b = true then requestSeed s 1 (.inst b) 3 else s).random := by
  have hclock : bayClockRuns (bayOut s b) b = bayClockRuns s b :=
    (bayOut_within s b).same (fun w => bayClockRuns w b)
  have hrandom : (bayOut s b).random = s.random := (bayOut_within s b).same (·.random)
  have hseed : (requestSeed (bayOut s b) 1 (.inst b) 3).random = (requestSeed s 1 (.inst b) 3).random :=
    requestSeed_random_congr hrandom _ _ _
  have hreq := requestSeed_within (bayOut s b) 1 (.inst b) 3
  rw [leaveBay_leaves s b h, hclock]
  split
  · exact ⟨hreq.same (·.bays), ((bayOut_within s b).mono rfl).trans (hreq.mono rfl), hreq.same (·.bad), hseed⟩
  · exact ⟨rfl, (bayOut_within s b).mono rfl, rfl, hrandom⟩

end

/-! ## Returning -/

/-- A bay back in service, its memories not released yet. -/
def backInService (s : State) (b : Nat) (full : Bool) : State :=
  { modBay s b (fun x => { x with st := 0, why := .inService, book := [], lag := 0, frame := s.now / 2000, past := [], gone := 0 }) with
    random := { s.random with awaiting := if full then s.random.awaiting else s.random.on } }

theorem backInService_bay (s : State) (b : Nat) (full : Bool) : getBay (backInService s b full) b = { getBay s b with
    st := 0, why := .inService, book := [], lag := 0, frame := s.now / 2000, past := [], gone := 0 } := getBay_setBay_same s b _

theorem leaveTest_within (s : State) (b k : Nat) : Within { bays := true } s (leaveTest s b k) := rfl

section
variable {s : State} {b : Nat} {full : Bool}

theorem returnBay_returns (hst : (getBay s b).st = 2) (hstep : 1 ≤ s.power.step) (hheld : bayHeld s b = false)
    (hfull : full = ((getBay s b).drbg.inst && (getBay s b).drbg.reserve.length == 8192)) (hseed : full = true ∨ s.random.stopped = true) :
    returnBay s b = if isBncBay b then each (upTo 8) (backInService s b full) (fun s k => leaveTest s b k) else backInService s b full := by
  have hiff : ((getBay s b).drbg.inst = true ∧ (getBay s b).drbg.reserve.length = 8192) ↔ full = true := by
    rw [hfull]
    simp
  have hback : (if (getBay s b).drbg.inst = true ∧ (getBay s b).drbg.reserve.length = 8192 then
      modBay s b (fun x => { x with st := 0, why := .inService, book := [], lag := 0, frame := s.now / 2000, past := [], gone := 0 })
      else backInService s b false) = backInService s b full := by
    cases full with
    | true => exact if_pos (hiff.2 rfl)
    | false => exact if_neg (fun h => absurd (hiff.1 h) (by decide))
  unfold returnBay
  rw [if_pos ⟨hst, hstep, hheld, hseed.imp_left hiff.2⟩]
  dsimp only
  rw [← hback]
  rfl

variable (h : returnBay s b = if isBncBay b then each (upTo 8) (backInService s b full) (fun s k => leaveTest s b k) else backInService s b full)
include h

theorem returnBay_mems : MemsOnly b (backInService s b full) (returnBay s b) := by
  rw [h]
  split
  · exact .each (fun w k => leaveTest_mems w b k) _ _
  · exact .refl _ _

theorem returnBay_bay : getBay (returnBay s b) b = { getBay s b with
    st := 0, why := .inService, book := [], lag := 0, frame := s.now / 2000, past := [], gone := 0, mem := (getBay (returnBay s b) b).mem } := by
  have hm := (returnBay_mems h).1
  rw [backInService_bay] at hm
  exact hm

theorem returnBay_other {b' : Nat} (hb : b' ≠ b) : getBay (returnBay s b) b' = getBay s b' :=
  ((returnBay_mems h).2 b' hb).trans (getBay_setBay_other s _ _ _ hb)

theorem returnBay_disowned (hb : isBncBay b = true) {k : Nat} (hk : k < 8) :
    mget {} (getBay (returnBay s b) b).mem k = { mget {} (getBay s b).mem k with owner := .nobody } := by
  have hmem : (getBay (backInService s b full) b).mem = (getBay s b).mem := by
    rw [backInService_bay]
  rw [h, if_pos hb, leaveTests_mem (k := k) _ b (upTo 8) (List.mem_range.2 hk), hmem]

theorem returnBay_mem (hb : isBncBay b = false) : (getBay (returnBay s b) b).mem = (getBay s b).mem := by
  rw [h, if_neg (by rw [hb]; decide)]
  rw [backInService_bay]

theorem returnBay_within : Within { bays := true } (backInService s b full) (returnBay s b) := by
  rw [h]
  exact .ite (.each (fun w k => leaveTest_within w b k) _ _) (.refl _)

omit h in
/-- A return outside an activation's swaps is no step of an activation (R412). -/
theorem bayReturns_plain (h3 : (returnBay s b).fw.act ≠ 3) (h2 : (returnBay s b).fw.act ≠ 2) : bayReturns s b = returnBay s b := by
  unfold bayReturns
  dsimp only
  have hsame : activationStep (returnBay s b) = returnBay s b := if_pos (.inl h3)
  rw [if_neg (c := ((returnBay s b).fw.act = 2 ∨ (returnBay s b).fw.act = 3) ∧ _) (fun hx => hx.1.elim h2 h3), hsame, ite_self]

end

/-! ## Clocks that return -/

section
variable (s : State)

theorem getInst_each_modInst {is : List Nat} (hn : is.Nodup) (f : Inst → Inst) (k : Nat) :
    getInst (each is s (fun s i => modInst s i f)) k = if k ∈ is then f (getInst s k) else getInst s k := by
  induction is generalizing s with
  | nil => rfl
  | cons i rest ih =>
    obtain ⟨hi, hn⟩ := List.nodup_cons.1 hn
    show getInst (each rest (modInst s i f) _) k = _
    rw [ih _ hn]
    by_cases hk : k = i
    · subst hk
      simp [hi]
    · rw [show getInst (modInst s i f) k = getInst s k from getInst_setInst_other _ _ _ _ hk]
      simp [hk]

theorem nodup_of_mrising {β : Type} {m : Map β} (h : mrising m = true) : (m.map (·.1)).Nodup := by
  induction m with
  | nil => exact List.nodup_nil
  | cons e rest ih =>
    obtain ⟨habove, hrest⟩ := mrising_cons.1 h
    refine List.nodup_cons.2 ⟨fun hm => ?_, ih hrest⟩
    obtain ⟨e', he', hk⟩ := List.mem_map.1 hm
    have hlt : e.1 < e'.1 := habove e' he'
    exact absurd hk (by dsimp only; omega)

theorem mget_unlisted {β : Type} (d : β) {m : Map β} {k : Nat} (h : k ∉ m.map (·.1)) : mget d m k = d := by
  induction m with
  | nil => rfl
  | cons e rest ih =>
    simp only [List.map_cons, List.mem_cons, not_or] at h
    obtain ⟨j, v⟩ := e
    rw [show mget d ((j, v) :: rest) k = if j = k then v else mget d rest k from rfl, if_neg (Ne.symm h.1), ih h.2]

theorem lateRing_count (b d : Nat) (o : RingOp) : (lateRing b d o).count = o.count := by
  unfold lateRing
  split <;> rfl

theorem resumeBay_within (b d : Nat) : Within { insts := true } s (resumeBay s b d) := .each (fun w i => modInst_within w i _) _ s

theorem resumeBay_op {b d i c : Nat} {o : RingOp} (hr : mrising s.insts = true) (ho : findOp (getInst s i) c = some o) :
    findOp (getInst (resumeBay s b d) i) c = some (lateRing b d o) := by
  have hlisted : i ∈ s.insts.map (·.1) := by
    refine Decidable.byContradiction fun hi => ?_
    have hnone : getInst s i = {} := mget_unlisted ({} : Inst) hi
    rw [hnone] at ho
    cases ho
  unfold resumeBay
  rw [getInst_each_modInst s (nodup_of_mrising hr), if_pos hlisted]
  unfold findOp at ho ⊢
  show ((getInst s i).ops.map (lateRing b d)).find? _ = _
  rw [List.find?_map, show ((fun o : RingOp => o.count == c) ∘ lateRing b d) = fun o => o.count == c from
    funext (fun o => congrArg (· == c) (lateRing_count b d o)), ho]
  rfl

theorem redeliver_none (h : s.link.stalled = []) : redeliver s = s := by
  unfold redeliver
  rw [h]
  show { s with link := { s.link with stalled := [] } } = s
  rw [← h]

theorem redeliver_one {c : Instr} (h : s.link.stalled = [c]) : redeliver s = deliver c { s with link := { s.link with stalled := [] } } := by
  unfold redeliver
  rw [h]
  rfl

theorem clockReturns_runs {k : Nat} (h : islandRuns s k = true) : clockReturns s k = s := if_pos (eq_of_beq h)

theorem clockReturns_plain {k : Nat} (h : islandRuns s k = false) (hk : k < 5) : clockReturns s k =
    { s with link := { s.link with clockStops := mdel s.link.clockStops k, outMark := if k = islLink then none else s.link.outMark } } := by
  unfold clockReturns
  dsimp only
  rw [if_neg (by simpa [islandRuns] using h), if_pos hk]

/-- A state in which a bay's clock runs again. -/
def bayClockBack (s : State) (b : Nat) : State :=
  { s with link := { s.link with clockStops := mdel s.link.clockStops (5 + b) }, free := s.free + bit (isBncBay b) }

/-- What a bay's work does as its clock returns (R22, R237). -/
def bayGoesOn (s : State) (b : Nat) : State :=
  if isBncBay b && Config.freeNat s.free % 2 == 1 then abandonBay (bayClockBack s b) b
  else resumeBay (bayClockBack s b) b (s.now + 1 - mget 0 s.link.clockStops (5 + b))

theorem bayGoesOn_plain {b : Nat} (hb : isBncBay b = false) : bayGoesOn s b =
    resumeBay (bayClockBack s b) b (s.now + 1 - mget 0 s.link.clockStops (5 + b)) := by
  unfold bayGoesOn
  rw [hb]
  rfl

theorem bayGoesOn_cases (b : Nat) :
    bayGoesOn s b = resumeBay (bayClockBack s b) b (s.now + 1 - mget 0 s.link.clockStops (5 + b)) ∨
      bayGoesOn s b = abandonBay (bayClockBack s b) b := by
  unfold bayGoesOn
  split
  · exact .inr rfl
  · exact .inl rfl

theorem clockReturns_bay {b : Nat} (h : islandRuns s (5 + b) = false) : clockReturns s (5 + b) =
    if (getBay (bayGoesOn s b) b).st = 2 ∧ (getBay (bayGoesOn s b) b).why = .fault ∧ (bayGoesOn s b).random.on then
      requestSeed (bayGoesOn s b) 1 (.inst b) 3 else bayGoesOn s b := by
  unfold clockReturns
  dsimp only
  rw [if_neg (by simpa [islandRuns] using h), if_neg (show ¬ 5 + b < 5 by omega), Nat.add_sub_cancel_left,
    if_neg (show ¬ 5 + b = islLink by unfold islLink; omega)]
  rfl

end

/-! ## Bay frames -/

section
variable (s : State) (b f : Nat)

theorem bayFrame_ends (hrun : framesRun s b = true) (hlag : (getBay s b).lag ≠ 0)
    (hdue : 2000 * (getBay s b).frame + (getBay s b).lag + bayFrameLen (getBay s b).lag ≤ s.now) :
    bayFrame s b (getBay s b).frame = endBayFrame s b (getBay s b).frame
      ((getBay s b).past.head?.getD (bookTime (bookEntry s b (getBay s b).frame))) := by
  unfold bayFrame
  exact if_pos ⟨hrun, hlag, rfl, hdue⟩

theorem bayFrame_stands (h : framesRun s b = false ∨ (getBay s b).lag = 0 ∨ f ≠ (getBay s b).frame ∨
    s.now < 2000 * (getBay s b).frame + (getBay s b).lag + bayFrameLen (getBay s b).lag) : bayFrame s b f = s := by
  unfold bayFrame
  refine if_neg (fun ⟨hrun, hlag, hf, hdue⟩ => ?_)
  rcases h with h | h | h | h
  · rw [h] at hrun
    cases hrun
  · exact hlag h
  · exact h hf.symm
  · subst hf
    omega

end

/-! ## The obligation -/

section
variable {s : State} {t : Nat} (b : BayNo)

theorem exec_bayLeave (h : BayLeaves (at_ s t) b.val) :
    ∃ u, exec (.bayLeave t b) s = .next u ∧ getBay u b.val = { getBay s b.val with st := 2, drbg := {}, mem := (getBay u b.val).mem } ∧
      (isBncBay b.val = true → ∀ k, k < 8 → ∃ id, mget {} (getBay u b.val).mem k = testMem id) ∧
      (isBncBay b.val = false → (getBay u b.val).mem = (getBay s b.val).mem) ∧
      (∀ b', b' ≠ b.val → getBay u b' = getBay s b') ∧
      u.random = (if (getBay s b.val).why = .fault ∧ bayClockRuns s b.val = true then requestSeed s 1 (.inst b.val) 3 else s).random ∧
      u = { s with
        now := u.now, bays := u.bays, cnt := u.cnt, free := u.free, random := u.random
        bad := if isBncBay b.val then s.bad.filter (fun e => !inEngines b.val (upTo 8) e.1) else s.bad } := by
  obtain ⟨hbays, hw, hbad, hrandom⟩ := leaveBay_out (at_ s t) b.val h
  have hbay : ∀ k, getBay (leaveBay (at_ s t) b.val) k = getBay (bayOut (at_ s t) b.val) k := getBay_of_bays hbays
  have hall : Within { now := true, bays := true, cnt := true, free := true, bad := true, random := true, reqs := true, chans := true, windows := true }
      s (leaveBay (at_ s t) b.val) := ((at_within s t).mono rfl).trans (hw.mono rfl)
  rw [bayOut_bad] at hbad
  refine ⟨leaveBay (at_ s t) b.val, rfl, ?_, ?_, ?_, ?_, ?_, ?_⟩
  · rw [hbay]
    exact bayOut_bay (at_ s t) b.val
  · intro hb k hk
    rw [hbay]
    exact bayOut_tested (at_ s t) b.val hb hk
  · intro hb
    rw [hbay]
    exact bayOut_mem (at_ s t) b.val hb
  · intro k hk
    rw [hbay]
    exact bayOut_other (at_ s t) b.val hk
  · have hseed : (requestSeed (at_ s t) 1 (.inst b.val) 3).random = (requestSeed s 1 (.inst b.val) 3).random :=
      requestSeed_random_congr (s := s) (u := at_ s t) rfl _ _ _
    refine hrandom.trans ?_
    rw [apply_ite State.random, apply_ite State.random, hseed]
    rfl
  · generalize leaveBay (at_ s t) b.val = u at hall hbad ⊢
    have he : u = { s with
      now := u.now, bays := u.bays, cnt := u.cnt, free := u.free, random := u.random, bad := u.bad } := hall
    rw [hbad] at he
    exact he

theorem exec_bayReturn {full : Bool} (hst : (getBay s b.val).st = 2) (hstep : 1 ≤ s.power.step) (hheld : bayHeld s b.val = false)
    (h2 : s.fw.act ≠ 2) (h3 : s.fw.act ≠ 3)
    (hfull : full = ((getBay s b.val).drbg.inst && (getBay s b.val).drbg.reserve.length == 8192)) (hseed : full = true ∨ s.random.stopped = true) :
    ∃ u, exec (.bayReturn t b) s = .next u ∧
      getBay u b.val = { getBay s b.val with st := 0, why := .inService, book := [], lag := 0, frame := (at_ s t).now / 2000, past := [], gone := 0
                                             mem := (getBay u b.val).mem } ∧
      (isBncBay b.val = true → ∀ k, k < 8 → mget {} (getBay u b.val).mem k = { mget {} (getBay s b.val).mem k with owner := .nobody }) ∧
      (isBncBay b.val = false → (getBay u b.val).mem = (getBay s b.val).mem) ∧
      (∀ b', b' ≠ b.val → getBay u b' = getBay s b') ∧
      Beside { at_ s t with bays := u.bays, random := { s.random with awaiting := if full then s.random.awaiting else s.random.on } } u := by
  have hr := returnBay_returns (s := at_ s t) (b := b.val) (full := full) hst hstep hheld hfull hseed
  have hw := returnBay_within hr
  have hfw : (returnBay (at_ s t) b.val).fw = s.fw := hw.same (·.fw)
  have hplain : bayReturns (at_ s t) b.val = returnBay (at_ s t) b.val := bayReturns_plain (by rw [hfw]; exact h3) (by rw [hfw]; exact h2)
  have hexec : exec (.bayReturn t b) s = .next (settle (returnBay (at_ s t) b.val)) := by
    rw [← hplain]
    rfl
  have hbay : ∀ k, getBay (settle (returnBay (at_ s t) b.val)) k = getBay (returnBay (at_ s t) b.val) k :=
    getBay_of_bays ((settle_within _).same (·.bays))
  refine ⟨settle (returnBay (at_ s t) b.val), hexec, ?_, ?_, ?_, ?_, ?_⟩
  · rw [hbay]
    exact returnBay_bay hr
  · intro hb k hk
    rw [hbay]
    exact returnBay_disowned hr hb hk
  · intro hb
    rw [hbay]
    exact returnBay_mem hr hb
  · intro k hk
    rw [hbay]
    exact returnBay_other hr hk
  · have hs : (settle (returnBay (at_ s t) b.val)).bays = (returnBay (at_ s t) b.val).bays := (settle_within _).same (·.bays)
    have hrest : returnBay (at_ s t) b.val = { at_ s t with
      bays := (returnBay (at_ s t) b.val).bays, random := { s.random with awaiting := if full then s.random.awaiting else s.random.on } } := hw
    rw [hs, ← hrest]
    exact settle_beside _

theorem exec_islandClockReturn_bay {island : Fin 33} {c : Nat} (hi : island.val = 5 + c) (hstop : islandRuns s island.val = false) :
    exec (.islandClockReturn t island) s = .next (redeliver (
      if (getBay (bayGoesOn (at_ s t) c) c).st = 2 ∧ (getBay (bayGoesOn (at_ s t) c) c).why = .fault ∧ (bayGoesOn (at_ s t) c).random.on = true then
        requestSeed (bayGoesOn (at_ s t) c) 1 (.inst c) 3 else bayGoesOn (at_ s t) c)) := by
  rw [hi] at hstop
  show Host.Outcome.next (redeliver (clockReturns (at_ s t) island.val)) = _
  rw [hi, clockReturns_bay (at_ s t) hstop]

end

/-- Settles O31: a bay that leaves or returns differs in its memories engine by engine; a bay's work goes on instance by instance. -/
theorem baysLeaveAndReturn : Obligations.BaysLeaveAndReturn := by
  unfold Obligations.BaysLeaveAndReturn
  rintro s t bay x rfl
  refine ⟨?_, ?_, ?_, ?_, ?_, ?_, ?_, ?_, ?_, ?_⟩
  · exact fun hst hpassed hbusy htest => exec_bayLeave bay ⟨hst, hpassed, hbusy, htest⟩
  · exact fun h => congrArg Host.Outcome.next (leaveBay_stands (at_ s t) bay.val h)
  · exact fun hst hstep hheld h2 h3 full hfull hseed => exec_bayReturn bay hst hstep hheld h2 h3 hfull hseed
  · exact fun hrun hlag hdue => congrArg Host.Outcome.next (bayFrame_ends (at_ s t) bay.val hrun hlag hdue)
  · exact fun f h => congrArg Host.Outcome.next (bayFrame_stands (at_ s t) bay.val f h)
  · exact fun island h => congrArg (fun w => Host.Outcome.next (redeliver w)) (clockReturns_runs (at_ s t) h)
  · exact fun island hk h => congrArg (fun w => Host.Outcome.next (redeliver w)) (clockReturns_plain (at_ s t) h hk)
  · exact redeliver_none
  · intro w i k d c hw hc
    rw [redeliver_one w hw]
    simp only [List.mem_cons, List.not_mem_nil, or_false] at hc
    rcases hc with rfl | rfl | rfl | rfl <;> rfl
  · rintro island b d w hi hstop rfl rfl
    rw [hi]
    refine ⟨bayGoesOn (at_ s t) b, exec_islandClockReturn_bay hi hstop, fun hb => ?_, ?_, fun hv hr => ?_⟩
    · exact bayGoesOn_plain (at_ s t) hb
    · exact bayGoesOn_cases (at_ s t) b
    · rw [hv]
      exact ⟨resumeBay_within _ b _, fun i c o ho => resumeBay_op (s := bayClockBack (at_ s t) b) hr ho⟩

end Sys2Proof.Machine
end

section
/-! SUPPORT. The end of device frames (R46, R60, R62, R462). -/

namespace Sys2Proof.Machine

-- One proof at a time: the check bounds the compiler's threads.
set_option Elab.async false

open Sys2Proof Sys2Proof.Safety

/-! ## A turn for each bay -/

section
variable {f : State → Nat → State} (hw : ∀ w b, Within { bays := true } w (f w b))
  (ho : ∀ w b b', b' ≠ b → getBay (f w b) b' = getBay w b')
include ho

theorem getBay_each_other {bs : List Nat} {b : Nat} (hb : b ∉ bs) (s : State) : getBay (each bs s f) b = getBay s b := by
  induction bs generalizing s with
  | nil => rfl
  | cons a rest ih =>
    simp only [List.mem_cons, not_or] at hb
    exact (ih hb.2 (f s a)).trans (ho s a b hb.1)

include hw

/-- A bay's turn among those of other bays meets the bay as it was. -/
theorem getBay_each_turn {bs : List Nat} (hn : bs.Nodup) {b : Nat} (hb : b ∈ bs) (s : State) :
    ∃ w, Within { bays := true } s w ∧ getBay w b = getBay s b ∧ getBay (each bs s f) b = getBay (f w b) b := by
  induction bs generalizing s with
  | nil => cases hb
  | cons a rest ih =>
    obtain ⟨ha, hn⟩ := List.nodup_cons.1 hn
    rcases List.mem_cons.1 hb with rfl | hb
    · exact ⟨s, .refl s, rfl, getBay_each_other ho ha (f s b)⟩
    · have hne : b ≠ a := fun h => ha (h ▸ hb)
      obtain ⟨w, hs, hwb, hlast⟩ := ih hn hb (f s a)
      exact ⟨w, (hw s a).trans hs, hwb.trans (ho s a b hne), hlast⟩

end

theorem upTo_nodup (n : Nat) : (upTo n).Nodup := List.nodup_range

theorem mem_upTo {n k : Nat} : k ∈ upTo n ↔ k < n := List.mem_range

/-! ## Bay frames -/

section
variable (s : State) (f b : Nat)

theorem lagAfter_congr {s w : State} {b : Nat} (hi : w.insts = s.insts) (hb : getBay w b = getBay s b) (f lag booked : Nat) :
    lagAfter w b f lag booked = lagAfter s b f lag booked := by
  unfold lagAfter reactiveTime enginesInService overrunning
  simp only [hi, hb]

theorem deviceFrame_within : Within { bays := true } s (deviceFrame s f b) := by
  unfold deviceFrame
  exact .ite (.refl s) (.ite rfl rfl)

theorem deviceFrame_other {b' : Nat} (h : b' ≠ b) : getBay (deviceFrame s f b) b' = getBay s b' := by
  unfold deviceFrame
  dsimp only
  split
  · rfl
  · split <;> exact getBay_setBay_other _ _ _ _ h

theorem deviceFrame_ends (hrun : framesRun s b = true) (hf : (getBay s b).frame ≤ f) (hlag : (getBay s b).lag = 0) :
    getBay (deviceFrame s f b) b = { getBay s b with
      frame := f + 1, lag := lagAfter s b f 0 (bookTime (bookEntry s b f)), past := (getBay s b).past.drop 1, gone := 0 } := by
  unfold deviceFrame
  dsimp only
  rw [if_neg (by rw [hrun]; simp; omega), if_pos hlag]
  unfold endBayFrame
  rw [getBay_modBay_same, hlag]

theorem deviceFrame_lags (hrun : framesRun s b = true) (hf : (getBay s b).frame ≤ f) (hlag : (getBay s b).lag ≠ 0) :
    getBay (deviceFrame s f b) b = { getBay s b with past := (getBay s b).past ++ [bookTime (bookEntry s b f)] } := by
  unfold deviceFrame
  dsimp only
  rw [if_neg (by rw [hrun]; simp; omega), if_neg hlag, getBay_modBay_same]

/-- The frame's end tells a bay its frame, its lag and what was booked in it. -/
theorem deviceFrame_bay : getBay (deviceFrame s f b) b = { getBay s b with
    frame := (getBay (deviceFrame s f b) b).frame, lag := (getBay (deviceFrame s f b) b).lag
    past := (getBay (deviceFrame s f b) b).past, gone := (getBay (deviceFrame s f b) b).gone } := by
  unfold deviceFrame endBayFrame
  dsimp only
  split
  · rfl
  · split <;> rw [getBay_modBay_same]

end

/-- The device frame's end at every bay. -/
def bayFramesEnd (s : State) (f : Nat) : State := each (upTo 28) s (fun s b => deviceFrame s f b)

section
variable (s : State) (f : Nat)

theorem bayFramesEnd_within : Within { bays := true } s (bayFramesEnd s f) := .each (fun w b => deviceFrame_within w f b) _ s

theorem bayFramesEnd_turn {b : Nat} (hb : b < 28) :
    ∃ w, Within { bays := true } s w ∧ getBay w b = getBay s b ∧ getBay (bayFramesEnd s f) b = getBay (deviceFrame w f b) b :=
  getBay_each_turn (fun w b => deviceFrame_within w f b) (fun w b _ h => deviceFrame_other w f b h) (upTo_nodup 28) (mem_upTo.2 hb) s

theorem bayFramesEnd_beyond {b : Nat} (hb : ¬ b < 28) : getBay (bayFramesEnd s f) b = getBay s b :=
  getBay_each_other (fun w b _ h => deviceFrame_other w f b h) (fun h => hb (mem_upTo.1 h)) s

theorem bayFramesEnd_bay (b : Nat) : getBay (bayFramesEnd s f) b = { getBay s b with
    frame := (getBay (bayFramesEnd s f) b).frame, lag := (getBay (bayFramesEnd s f) b).lag
    past := (getBay (bayFramesEnd s f) b).past, gone := (getBay (bayFramesEnd s f) b).gone } := by
  by_cases hb : b < 28
  · obtain ⟨w, -, hwb, hlast⟩ := bayFramesEnd_turn s f hb
    have h := deviceFrame_bay w f b
    rw [← hlast, hwb] at h
    exact h
  · rw [bayFramesEnd_beyond s f hb]

end

/-! ## Ended entries -/

/-- The content of an entry that describes a future frame without bookings. -/
def emptyEntry (x : Bay) : Nat := if x.st = 0 then 0 else 65536

theorem getBay_setBook (s : State) (b f e : Nat) :
    getBay (setBook s b f e) b = { getBay s b with book := mset 0 (getBay s b).book (f % 10240) e } := getBay_setBay_same _ _ _

theorem setDma_within (s : State) (k f v : Nat) : Within { dma := true } s (setDma s k f v) := rfl

theorem dmaEntry_setDma (s : State) (k f v h g : Nat) :
    dmaEntry (setDma s k f v) h g = if h = k ∧ g % 10240 = f % 10240 then v else dmaEntry s h g := by
  show mget 0 (mget [] (mset [] s.sched.dma k _) h) (g % 10240) = _
  by_cases hk : h = k
  · subst hk
    rw [mget_mset_same]
    by_cases hg : g % 10240 = f % 10240
    · rw [hg, mget_mset_same, if_pos ⟨rfl, rfl⟩]
    · rw [mget_mset_other _ _ _ _ _ hg, if_neg (fun h => hg h.2)]
      rfl
  · rw [mget_mset_other _ _ _ _ _ hk, if_neg (fun h => hk h.1)]
    rfl

section
variable (s : State) (f : Nat)

/-- Every bay's entry of an ended frame describes a future one. -/
def booksClear (s : State) (f : Nat) : State := each (upTo 28) s (fun s b => setBook s b f (emptyEntry (getBay s b)))

theorem clearFrame_eq : clearFrame s f = each (upTo 8) (booksClear s f) (fun s k => setDma s k f 0) := rfl

theorem booksClear_within : Within { bays := true } s (booksClear s f) := .each (fun w b => setBook_within w b f _) _ s

theorem booksClear_bay (b : Nat) : getBay (booksClear s f) b =
    if b < 28 then { getBay s b with book := mset 0 (getBay s b).book (f % 10240) (emptyEntry (getBay s b)) } else getBay s b := by
  have hother : ∀ w b b', b' ≠ b → getBay (setBook w b f (emptyEntry (getBay w b))) b' = getBay w b' :=
    fun w b b' h => getBay_setBay_other _ _ _ _ h
  split
  · next hb =>
    obtain ⟨w, -, hwb, hlast⟩ := getBay_each_turn (f := fun s b => setBook s b f (emptyEntry (getBay s b)))
      (fun w b => setBook_within w b f _) hother (upTo_nodup 28) (mem_upTo.2 hb) s
    exact hlast.trans (by rw [getBay_setBook, hwb])
  · next hb => exact getBay_each_other hother (fun h => hb (mem_upTo.1 h)) s

theorem clearFrame_within : Within { bays := true, dma := true } s (clearFrame s f) := by
  rw [clearFrame_eq]
  exact ((booksClear_within s f).mono rfl).trans ((Within.each (f := fun s k => setDma s k f 0) (fun w k => setDma_within w k f 0) (upTo 8) _).mono rfl)

theorem clearFrame_bays : (clearFrame s f).bays = (booksClear s f).bays := by
  have h : Within { dma := true } (booksClear s f) (clearFrame s f) := by
    rw [clearFrame_eq]
    exact Within.each (f := fun s k => setDma s k f 0) (fun w k => setDma_within w k f 0) (upTo 8) (booksClear s f)
  exact h.same (·.bays)

theorem clearFrame_dma (h g : Nat) :
    dmaEntry (clearFrame s f) h g = if h < 8 ∧ g % 10240 = f % 10240 then 0 else dmaEntry s h g := by
  have hstart : dmaEntry (booksClear s f) h g = dmaEntry s h g := (booksClear_within s f).same (fun w => dmaEntry w h g)
  rw [clearFrame_eq, ← hstart]
  split
  · next hg =>
    refine each_reaches (P := fun w => dmaEntry w h g = 0) (mem_upTo.2 hg.1) (fun w => ?_) (fun w k hk => ?_) _
    · rw [dmaEntry_setDma, if_pos ⟨rfl, hg.2⟩]
    · rw [dmaEntry_setDma, hk, ite_self]
  · next hg =>
    have hne : ∀ k < 8, ¬ (h = k ∧ g % 10240 = f % 10240) := fun k hk hc => hg ⟨hc.1 ▸ hk, hc.2⟩
    generalize booksClear s f = w
    have hkeep : ∀ ks : List Nat, (∀ k ∈ ks, k < 8) → ∀ w, dmaEntry (each ks w (fun s k => setDma s k f 0)) h g = dmaEntry w h g := by
      intro ks
      induction ks with
      | nil => exact fun _ _ => rfl
      | cons k rest ih =>
        intro hks w
        refine (ih (fun j hj => hks j (List.mem_cons_of_mem _ hj)) (setDma w k f 0)).trans ?_
        rw [dmaEntry_setDma, if_neg (hne k (hks k List.mem_cons_self))]
    exact hkeep (upTo 8) (fun k hk => mem_upTo.1 hk) w

end

/-! ## One frame -/

section
variable (s : State) (f : Nat)

theorem noteLoad_within : Within { heads := true } s (noteLoad s f) := .each (fun w h => modHead_within w h _) _ s

theorem frameEnds_eq : frameEnds s f = clearFrame (noteLoad (bayFramesEnd s f) f) f := rfl

theorem frameEnds_within : Within { bays := true, dma := true, heads := true } s (frameEnds s f) := by
  rw [frameEnds_eq]
  exact (((bayFramesEnd_within s f).mono rfl).trans ((noteLoad_within _ f).mono rfl)).trans ((clearFrame_within _ f).mono rfl)

theorem frameEnds_bay (b : Nat) : getBay (frameEnds s f) b = if b < 28 then { getBay (bayFramesEnd s f) b with
    book := mset 0 (getBay s b).book (f % 10240) (emptyEntry (getBay s b)) } else getBay s b := by
  have hload : getBay (noteLoad (bayFramesEnd s f) f) b = getBay (bayFramesEnd s f) b :=
    getBay_of_bays ((noteLoad_within _ f).same (·.bays)) b
  have hclear : getBay (frameEnds s f) b = getBay (booksClear (noteLoad (bayFramesEnd s f) f) f) b := by
    rw [frameEnds_eq]
    exact getBay_of_bays (clearFrame_bays _ f) b
  have hbay := bayFramesEnd_bay s f b
  have hbook : (getBay (bayFramesEnd s f) b).book = (getBay s b).book := by rw [hbay]
  have hst : (getBay (bayFramesEnd s f) b).st = (getBay s b).st := by rw [hbay]
  rw [hclear, booksClear_bay, hload]
  split
  · unfold emptyEntry
    rw [hbook, hst]
  · next hb => exact bayFramesEnd_beyond s f hb

theorem frameEnds_rest (b : Nat) : getBay (frameEnds s f) b = { getBay s b with
    book := (getBay (frameEnds s f) b).book, frame := (getBay (frameEnds s f) b).frame, lag := (getBay (frameEnds s f) b).lag
    past := (getBay (frameEnds s f) b).past, gone := (getBay (frameEnds s f) b).gone } := by
  have hbay := bayFramesEnd_bay s f b
  rw [frameEnds_bay]
  split
  · generalize getBay (bayFramesEnd s f) b = x at hbay ⊢
    generalize mset 0 (getBay s b).book (f % 10240) (emptyEntry (getBay s b)) = m
    exact (congrArg (fun x : Bay => { x with book := m }) hbay).trans rfl
  · rfl

theorem frameEnds_st (b : Nat) : (getBay (frameEnds s f) b).st = (getBay s b).st := by rw [frameEnds_rest]

omit s f in
theorem emptyEntry_congr {x y : Bay} (h : x.st = y.st) : emptyEntry x = emptyEntry y := by
  unfold emptyEntry
  rw [h]

theorem frameEnds_book (b g : Nat) : bookEntry (frameEnds s f) b g =
    if b < 28 ∧ g % 10240 = f % 10240 then emptyEntry (getBay s b) else bookEntry s b g := by
  unfold bookEntry
  rw [frameEnds_bay]
  by_cases hb : b < 28
  · rw [if_pos hb]
    by_cases hg : g % 10240 = f % 10240
    · rw [if_pos ⟨hb, hg⟩, hg]
      exact mget_mset_same _ _ _ _
    · rw [if_neg (fun h => hg h.2)]
      exact mget_mset_other _ _ _ _ _ hg
  · rw [if_neg hb, if_neg (fun h => hb h.1)]

theorem frameEnds_dma (h g : Nat) :
    dmaEntry (frameEnds s f) h g = if h < 8 ∧ g % 10240 = f % 10240 then 0 else dmaEntry s h g := by
  have hload : dmaEntry (noteLoad (bayFramesEnd s f) f) h g = dmaEntry s h g :=
    ((noteLoad_within _ f).same (fun w => dmaEntry w h g)).trans ((bayFramesEnd_within s f).same (fun w => dmaEntry w h g))
  rw [frameEnds_eq, clearFrame_dma, hload]

end

/-! ## Tests that are due -/

/-- Entries of a bay that a test takes, from frame `f` on. -/
def chargeTest (s : State) (b f m : Nat) : State :=
  each (upTo m) s (fun s j => setBook s b (f + j) (bookEntry s b (f + j) + 2000 + 2 ^ 17))

section
variable (s : State) (b f m : Nat)

theorem each_upTo_succ (g : State → Nat → State) (m : Nat) : each (upTo (m + 1)) s g = g (each (upTo m) s g) m := by
  unfold each upTo
  rw [List.range_succ, List.foldl_append]
  rfl

theorem chargeTest_within : Within { bays := true } s (chargeTest s b f m) := .each (fun w _ => setBook_within w b _ _) _ s

theorem chargeTest_other {b' : Nat} (h : b' ≠ b) : getBay (chargeTest s b f m) b' = getBay s b' :=
  each_keeps (P := fun w => getBay w b' = getBay s b') (fun w _ hw => (getBay_setBay_other w _ _ _ h).trans hw) _ rfl

omit s b f m in
theorem rebooked {x y : Bay} (h : x = { y with book := x.book }) {m : Map Nat} : { x with book := m } = { y with book := m } :=
  (congrArg (fun x : Bay => { x with book := m }) h).trans rfl

theorem chargeTest_bay : getBay (chargeTest s b f m) b = { getBay s b with book := (getBay (chargeTest s b f m) b).book } :=
  each_keeps (P := fun w => getBay w b = { getBay s b with book := (getBay w b).book })
    (fun w _ hw => by
      rw [getBay_setBook]
      exact rebooked hw) _ rfl

theorem bookEntry_setBook (e g : Nat) : bookEntry (setBook s b f e) b g = if g % 10240 = f % 10240 then e else bookEntry s b g := by
  unfold bookEntry
  rw [getBay_setBook]
  by_cases hg : g % 10240 = f % 10240
  · rw [if_pos hg, hg]
    exact mget_mset_same _ _ _ _
  · rw [if_neg hg]
    exact mget_mset_other _ _ _ _ _ hg

variable {m}

theorem chargeTest_unbooked {g : Nat} (h : ∀ j, j < m → g % 10240 ≠ (f + j) % 10240) :
    bookEntry (chargeTest s b f m) b g = bookEntry s b g := by
  induction m with
  | zero => rfl
  | succ m ih =>
    unfold chargeTest
    rw [each_upTo_succ, bookEntry_setBook, if_neg (h m (Nat.lt_succ_self m))]
    exact ih (fun j hj => h j (Nat.lt_succ_of_lt hj))

theorem chargeTest_entry (hm : m ≤ 10240) {j : Nat} (hj : j < m) :
    bookEntry (chargeTest s b f m) b (f + j) = bookEntry s b (f + j) + 2000 + 2 ^ 17 := by
  induction m with
  | zero => cases hj
  | succ m ih =>
    unfold chargeTest
    rw [each_upTo_succ, bookEntry_setBook]
    by_cases hlast : j = m
    · subst hlast
      rw [if_pos rfl]
      have hfresh := chargeTest_unbooked s b f (m := j) (g := f + j) (fun _ _ => by omega)
      unfold chargeTest at hfresh
      rw [hfresh]
    · rw [if_neg (by omega)]
      exact ih (by omega) (by omega)

end

/-- A bay differs from another in its book and its booked test alone. -/
def BookOnly (y x : Bay) : Prop := x = { y with book := x.book, testBook := x.testBook }

section
variable {x y z : Bay}

theorem BookOnly.of_test (h : x = { y with testBook := x.testBook }) : BookOnly y x := by
  unfold BookOnly
  rw [h]

theorem BookOnly.of_book (h : x = { y with book := x.book }) : BookOnly y x := by
  unfold BookOnly
  rw [h]

theorem BookOnly.trans (h : BookOnly x y) (h' : BookOnly y z) : BookOnly x z :=
  Eq.trans h' ((congrArg (fun y : Bay => { y with book := z.book, testBook := z.testBook }) h).trans rfl)

end

/-- What the end of frame `n - 1` may do to a bay for a test that is due: it may book one in later frames. -/
structure TestBooked (n b : Nat) (s u : State) : Prop where
  rest : BookOnly (getBay s b) (getBay u b)
  stands : (getBay u b).testBook = none ∨ (getBay u b).testBook = (getBay s b).testBook → ∀ f, bookEntry u b f = bookEntry s b f
  booked : ∀ e f, (getBay u b).testBook = some (e, f) → (getBay s b).testBook ≠ some (e, f) → n < f ∧
    (∀ j, j < testFrames b → bookEntry u b (f + j) = bookEntry s b (f + j) + 2000 + 2 ^ 17) ∧
    (∀ f', (∀ j, j < testFrames b → f' % 10240 ≠ (f + j) % 10240) → bookEntry u b f' = bookEntry s b f')

/-- A bay whose booked test has passed its frames has none. -/
def testLapsed (s : State) (b : Nat) : State :=
  match (getBay s b).testBook with
  | some (_, f0) => if f0 + testFrames b ≤ s.now / 2000 then modBay s b (fun x => { x with testBook := none }) else s
  | none => s

/-- A due test of an engine is booked from a frame on. -/
def testPlaced (s : State) (b k f : Nat) : State :=
  modBay (chargeTest s b f (testFrames b)) b (fun x => { x with testBook := some (k, f) })

/-- A due test of a bay is booked in the earliest frames after `n` that have room. -/
def bookDue (s : State) (b n : Nat) : State :=
  if (getBay s b).st ≠ 0 ∨ (getBay s b).test.isSome ∨ (getBay s b).testBook.isSome ∨ bayClockRuns s b = false then s
  else match dueEngine s b with
    | none => s
    | some k =>
      match (upTo (10239 - testFrames b)).find? (fun j => testFits s b (n + 1 + j)) with
      | none => s
      | some j => testPlaced s b k (n + 1 + j)

section
variable (s : State) (b : Nat)

theorem testLapsed_within : Within { bays := true } s (testLapsed s b) := by
  unfold testLapsed
  split
  · exact .ite rfl (.refl s)
  · exact .refl s

theorem testLapsed_other {b' : Nat} (h : b' ≠ b) : getBay (testLapsed s b) b' = getBay s b' := by
  unfold testLapsed
  split
  · split
    · exact getBay_setBay_other _ _ _ _ h
    · rfl
  · rfl

theorem testLapsed_bay : getBay (testLapsed s b) b = { getBay s b with testBook := (getBay (testLapsed s b) b).testBook } := by
  unfold testLapsed
  split
  · split
    · rw [getBay_modBay_same]
    · rfl
  · rfl

/-- A bay without a booked test after that had none, or one whose frames have passed. -/
theorem testLapsed_free (h : (getBay (testLapsed s b) b).testBook = none) {e f : Nat} (hf : (getBay s b).testBook = some (e, f)) :
    f ≤ s.now / 2000 := by
  unfold testLapsed at h
  rw [hf] at h
  dsimp only at h
  split at h
  · omega
  · rw [hf] at h
    cases h

theorem testLapsed_kept : (getBay (testLapsed s b) b).testBook = none ∨ (getBay (testLapsed s b) b).testBook = (getBay s b).testBook := by
  unfold testLapsed
  split
  · split
    · rw [getBay_modBay_same]
      exact .inl rfl
    · exact .inr rfl
  · exact .inr rfl

theorem bookTests_eq : bookTests s b = bookDue (testLapsed s b) b (s.now / 2000) := rfl

/-- Only a bay without a booked test books one, in a later frame. -/
theorem bookTests_cases : bookTests s b = testLapsed s b ∨ ((getBay (testLapsed s b) b).testBook = none ∧
    ∃ k f, s.now / 2000 < f ∧ bookTests s b = testPlaced (testLapsed s b) b k f) := by
  rw [bookTests_eq]
  unfold bookDue
  split
  · exact .inl rfl
  · next hfree =>
    have hnone : (getBay (testLapsed s b) b).testBook = none := by
      refine Decidable.byContradiction fun hsome => ?_
      exact hfree (.inr (.inr (.inl (Option.isSome_iff_ne_none.2 hsome))))
    split
    · exact .inl rfl
    · next k _ =>
      split
      · exact .inl rfl
      · next j _ => exact .inr ⟨hnone, k, s.now / 2000 + 1 + j, by omega, rfl⟩

theorem bookTests_within : Within { bays := true } s (bookTests s b) := by
  rcases bookTests_cases s b with h | ⟨-, k, f, -, h⟩
  · rw [h]
    exact testLapsed_within s b
  · rw [h]
    exact ((testLapsed_within s b).trans (chargeTest_within _ b f _)).trans (modBay_within _ b _)

theorem bookTests_other {b' : Nat} (hb : b' ≠ b) : getBay (bookTests s b) b' = getBay s b' := by
  rcases bookTests_cases s b with h | ⟨-, k, f, -, h⟩
  · rw [h]
    exact testLapsed_other s b hb
  · rw [h]
    exact ((getBay_setBay_other _ _ _ _ hb).trans (chargeTest_other _ b f _ hb)).trans (testLapsed_other s b hb)

theorem testLapsed_entry (g : Nat) : bookEntry (testLapsed s b) b g = bookEntry s b g := by
  unfold bookEntry
  rw [testLapsed_bay]

theorem testPlaced_bay (k f : Nat) :
    getBay (testPlaced s b k f) b = { getBay (chargeTest s b f (testFrames b)) b with testBook := some (k, f) } := getBay_modBay_same _ _ _

theorem testPlaced_entry (k f g : Nat) : bookEntry (testPlaced s b k f) b g = bookEntry (chargeTest s b f (testFrames b)) b g := by
  unfold bookEntry
  rw [testPlaced_bay]

theorem testFrames_le : testFrames b ≤ 10240 := by
  unfold testFrames
  split <;> decide

theorem bookTests_booked : TestBooked (s.now / 2000) b s (bookTests s b) := by
  have hbay := testLapsed_bay s b
  have hentry := testLapsed_entry s b
  have hfree := testLapsed_free s b
  have hkept := testLapsed_kept s b
  rcases bookTests_cases s b with h | ⟨hnone, k, f, hf, h⟩
  · rw [h]
    refine ⟨.of_test hbay, fun _ => hentry, fun e f he hne => ?_⟩
    rcases hkept with hk | hk
    · rw [hk] at he
      cases he
    · exact absurd (hk ▸ he) hne
  · rw [h]
    have hbook : (getBay (testPlaced (testLapsed s b) b k f) b).testBook = some (k, f) := by rw [testPlaced_bay]
    refine ⟨?_, fun hs => ?_, fun e f' he hne => ?_⟩
    · exact ((BookOnly.of_test hbay).trans (.of_book (chargeTest_bay _ b f _))).trans
        (.of_test (by rw [testPlaced_bay]))
    · rw [hbook] at hs
      rcases hs with hs | hs
      · cases hs
      · exact absurd (hfree hnone hs.symm) (by omega)
    · rw [hbook] at he
      cases he
      refine ⟨hf, fun j hj => ?_, fun g hg => ?_⟩
      · rw [testPlaced_entry, chargeTest_entry _ b f (testFrames_le b) hj, hentry]
      · rw [testPlaced_entry, chargeTest_unbooked _ b f hg, hentry]

end

/-! ## The frames that have ended -/

/-- The last `k` of the frames before frame `n` end, in order. -/
def framesPast (s : State) (n k : Nat) : State := each ((upTo k).map (n - k + ·)) s frameEnds

section
variable (s : State) (n k : Nat)

theorem framesPast_within : Within { bays := true, dma := true, heads := true } s (framesPast s n k) := .each frameEnds_within _ s

theorem framesPast_rest (b : Nat) : getBay (framesPast s n k) b = { getBay s b with
    book := (getBay (framesPast s n k) b).book, frame := (getBay (framesPast s n k) b).frame, lag := (getBay (framesPast s n k) b).lag
    past := (getBay (framesPast s n k) b).past, gone := (getBay (framesPast s n k) b).gone } :=
  each_keeps (P := fun w => getBay w b = { getBay s b with
    book := (getBay w b).book, frame := (getBay w b).frame, lag := (getBay w b).lag, past := (getBay w b).past, gone := (getBay w b).gone })
    (fun w f hw => by
      have hf := frameEnds_rest w f b
      generalize getBay (frameEnds w f) b = y at hf ⊢
      exact hf.trans ((congrArg (fun x : Bay =>
        { x with book := y.book, frame := y.frame, lag := y.lag, past := y.past, gone := y.gone }) hw).trans rfl)) _ rfl

theorem framesPast_st (b : Nat) : (getBay (framesPast s n k) b).st = (getBay s b).st := by rw [framesPast_rest]

variable {n k}

theorem framesPast_cleared {b j : Nat} (hb : b < 28) (hj : j < k) :
    bookEntry (framesPast s n k) b (n - k + j) = emptyEntry (getBay s b) := by
  have hreach : bookEntry (framesPast s n k) b (n - k + j) = emptyEntry (getBay (framesPast s n k) b) := each_reaches (P := fun w => bookEntry w b (n - k + j) = emptyEntry (getBay w b)) (f := frameEnds)
    (xs := (upTo k).map (n - k + ·)) (a := n - k + j) (List.mem_map.2 ⟨j, mem_upTo.2 hj, rfl⟩)
    (fun w => by rw [frameEnds_book, if_pos ⟨hb, rfl⟩, emptyEntry_congr (frameEnds_st w _ b)])
    (fun w f hw => by rw [frameEnds_book, hw, ite_self, emptyEntry_congr (frameEnds_st w f b)]) s
  exact hreach.trans (emptyEntry_congr (framesPast_st s n k b))

theorem framesPast_dma {h j : Nat} (hh : h < 8) (hj : j < k) : dmaEntry (framesPast s n k) h (n - k + j) = 0 :=
  each_reaches (P := fun w => dmaEntry w h (n - k + j) = 0) (f := frameEnds) (a := n - k + j) (List.mem_map.2 ⟨j, mem_upTo.2 hj, rfl⟩)
    (fun w => by rw [frameEnds_dma, if_pos ⟨hh, rfl⟩]) (fun w f hw => by rw [frameEnds_dma, hw, ite_self]) s

/-- What no frame of a list ends, all their ends leave. -/
theorem frames_leave {α : Type} {p : State → α} {fs : List Nat} (h : ∀ w, ∀ f ∈ fs, p (frameEnds w f) = p w) (s : State) :
    p (each fs s frameEnds) = p s := by
  induction fs generalizing s with
  | nil => rfl
  | cons f rest ih =>
    rw [show each (f :: rest) s frameEnds = each rest (frameEnds s f) frameEnds from List.foldl_cons ..,
      ih (fun w g hg => h w g (List.mem_cons_of_mem _ hg)), h s f List.mem_cons_self]

variable {f : Nat} (hf : ∀ j, j < k → f % 10240 ≠ (n - k + j) % 10240)
include hf

theorem framesPast_book_kept (b : Nat) : bookEntry (framesPast s n k) b f = bookEntry s b f := by
  refine frames_leave (p := fun w => bookEntry w b f) (fun w g hg => ?_) s
  obtain ⟨j, hj, rfl⟩ := List.mem_map.1 hg
  rw [frameEnds_book, if_neg (fun h => hf j (mem_upTo.1 hj) h.2)]

theorem framesPast_dma_kept (h : Nat) : dmaEntry (framesPast s n k) h f = dmaEntry s h f := by
  refine frames_leave (p := fun w => dmaEntry w h f) (fun w g hg => ?_) s
  obtain ⟨j, hj, rfl⟩ := List.mem_map.1 hg
  rw [frameEnds_dma, if_neg (fun h => hf j (mem_upTo.1 hj) h.2)]

end

/-! ## One frame that has ended -/

section
variable (s : State) {n b : Nat} (hb : b < 28) (hrun : framesRun s b = true) (hf : (getBay s b).frame < n)

omit hb hrun hf in
theorem framesPast_last (n : Nat) : framesPast s n 1 = frameEnds s (n - 1) := by
  unfold framesPast each upTo
  simp only [List.range_one, List.map_cons, List.map_nil, List.foldl_cons, List.foldl_nil, Nat.add_zero]

include hb hrun

theorem framesPast_one : ∃ m w, Within { bays := true } s w ∧ getBay w b = getBay s b ∧ framesRun w b = true ∧
    getBay (framesPast s n 1) b = { getBay (deviceFrame w (n - 1) b) b with book := m } := by
  obtain ⟨w, hw, hwb, hlast⟩ := bayFramesEnd_turn s (n - 1) hb
  refine ⟨mset 0 (getBay s b).book ((n - 1) % 10240) (emptyEntry (getBay s b)), w, hw, hwb, ?_, ?_⟩
  · rw [← hrun]
    unfold framesRun
    rw [hwb, hw.same (fun w => bayClockRuns w b)]
  · rw [framesPast_last, frameEnds_bay, if_pos hb, hlast]

include hf

theorem framesPast_ends (hlag : (getBay s b).lag = 0) :
    (getBay (framesPast s n 1) b).frame = n ∧ (getBay (framesPast s n 1) b).gone = 0 ∧
      (getBay (framesPast s n 1) b).past = (getBay s b).past.drop 1 ∧
      (getBay (framesPast s n 1) b).lag = lagAfter s b (n - 1) 0 (bookTime (bookEntry s b (n - 1))) := by
  obtain ⟨m, w, hw, hwb, hwr, he⟩ := framesPast_one s (n := n) hb hrun
  have hentry : bookEntry w b (n - 1) = bookEntry s b (n - 1) := by
    unfold bookEntry
    rw [hwb]
  rw [he, deviceFrame_ends w (n - 1) b hwr (by rw [hwb]; omega) (by rw [hwb]; exact hlag), hwb, hentry,
    lagAfter_congr (hw.same (·.insts)) hwb]
  exact ⟨by dsimp only; omega, rfl, rfl, rfl⟩

theorem framesPast_lags (hlag : (getBay s b).lag ≠ 0) :
    (getBay (framesPast s n 1) b).frame = (getBay s b).frame ∧ (getBay (framesPast s n 1) b).lag = (getBay s b).lag ∧
      (getBay (framesPast s n 1) b).past = (getBay s b).past ++ [bookTime (bookEntry s b (n - 1))] := by
  obtain ⟨m, w, hw, hwb, hwr, he⟩ := framesPast_one s (n := n) hb hrun
  have hentry : bookEntry w b (n - 1) = bookEntry s b (n - 1) := by
    unfold bookEntry
    rw [hwb]
  rw [he, deviceFrame_lags w (n - 1) b hwr (by rw [hwb]; omega) (by rw [hwb]; exact hlag), hwb, hentry]
  exact ⟨rfl, rfl, rfl⟩

end

/-! ## The obligation -/

/-- Every bay may book the test that is due in it. -/
def testsBooked (s : State) : State := each (upTo 28) s bookTests

section
variable (s : State)

theorem testsBooked_within : Within { bays := true } s (testsBooked s) := .each bookTests_within _ s

theorem testsBooked_bay (b : Nat) : TestBooked (s.now / 2000) b s (testsBooked s) := by
  by_cases hb : b < 28
  · obtain ⟨w, hw, hwb, hlast⟩ := getBay_each_turn bookTests_within (fun w b _ h => bookTests_other w b h) (upTo_nodup 28) (mem_upTo.2 hb) s
    have hnow : w.now = s.now := hw.same (·.now)
    have hin : ∀ f, bookEntry w b f = bookEntry s b f := fun f => by
      unfold bookEntry
      rw [hwb]
    have hout : ∀ f, bookEntry (testsBooked s) b f = bookEntry (bookTests w b) b f := fun f =>
      congrArg (fun x : Bay => mget 0 x.book (f % 10240)) hlast
    have hlast' : getBay (testsBooked s) b = getBay (bookTests w b) b := hlast
    obtain ⟨hrest, hstands, hbooked⟩ := bookTests_booked w b
    rw [hnow] at hbooked
    simp only [hin, hwb, ← hout, ← hlast'] at hrest hstands hbooked
    exact ⟨hrest, hstands, hbooked⟩
  · have hsame : getBay (testsBooked s) b = getBay s b := getBay_each_other (fun w b _ h => bookTests_other w b h) (fun h => hb (mem_upTo.1 h)) s
    refine ⟨by rw [hsame]; rfl, fun _ f => ?_, fun e f he hne => absurd (hsame ▸ he) hne⟩
    unfold bookEntry
    rw [hsame]

end

/-- The state after the frames that have ended, before tests are booked. -/
def framesCounted (s : State) (n k : Nat) : State :=
  { framesPast s n k with sched := { (framesPast s n k).sched with frameEnded := max n (framesPast s n k).sched.frameEnded } }

theorem framesCounted_within (s : State) (n k : Nat) : Within { now := true, bays := true, dma := true, sched := true, heads := true }
    (framesPast s n k) (framesCounted s n k) := rfl

theorem framesCounted_sched (s : State) (n k : Nat) : (framesCounted s n k).sched = { s.sched with
    dma := (framesCounted s n k).sched.dma, frameEnded := (framesCounted s n k).sched.frameEnded } := by
  have hv : (framesPast s n k).sched = { s.sched with dma := (framesPast s n k).sched.dma } := congrArg State.sched (framesPast_within s n k)
  unfold framesCounted
  generalize framesPast s n k = w at hv ⊢
  exact (congrArg (fun x : Sched => { x with frameEnded := max n w.sched.frameEnded }) hv).trans rfl

theorem framesEnd_eq (s : State) : framesEnd s =
    testsBooked (framesCounted s (s.now / 2000) (min 10240 (s.now / 2000 - s.sched.frameEnded))) := rfl

/-- Settles O29: the frames end one by one, bay by bay, and each bay may then book one test. -/
theorem framesEndClear : Obligations.FramesEndClear := by
  unfold Obligations.FramesEndClear
  intro s t n k hn hk
  have hv : Within { now := true, bays := true, dma := true, heads := true } s (framesPast (at_ s t) n k) :=
    ((at_within s t).mono rfl).trans ((framesPast_within _ n k).mono rfl)
  have hu := testsBooked_within (framesCounted (at_ s t) n k)
  have hrest := framesPast_rest (at_ s t) n k
  have htest : ∀ b, (getBay (framesCounted (at_ s t) n k) b).testBook = (getBay s b).testBook := fun b => by
    show (getBay (framesPast (at_ s t) n k) b).testBook = _
    rw [hrest b]
    rfl
  have hbooked := fun b => testsBooked_bay (framesCounted (at_ s t) n k) b
  have hnow : (framesCounted (at_ s t) n k).now / 2000 = n := by
    have hsame : (framesPast (at_ s t) n k).now = (at_ s t).now := (framesPast_within (at_ s t) n k).same (·.now)
    exact (congrArg (· / 2000) hsame).trans hn.symm
  have hexec : exec (.frameEnd t) s = .next (redeliver (testsBooked (framesCounted (at_ s t) n k))) := by
    rw [hk, hn]
    rfl
  refine ⟨testsBooked (framesCounted (at_ s t) n k), framesPast (at_ s t) n k, hexec, ?_, ?_, ?_, ?_, ?_, hrest, ?_, ?_, ?_, ?_, ?_, ?_, ?_⟩
  · intro hs
    have hst : (testsBooked (framesCounted (at_ s t) n k)).link.stalled = s.link.stalled :=
      (hu.same (·.link.stalled)).trans (hv.same (·.link.stalled))
    exact redeliver_none _ (hst.trans hs)
  · exact fun b j hb hj => framesPast_cleared (at_ s t) hb hj
  · exact fun b f hf => framesPast_book_kept (at_ s t) hf b
  · exact fun h j hh hj => framesPast_dma (at_ s t) hh hj
  · exact fun h f hf => framesPast_dma_kept (at_ s t) hf h
  · rintro b hb rfl hrun hf
    exact ⟨framesPast_ends (at_ s t) hb hrun hf, framesPast_lags (at_ s t) hb hrun hf⟩
  · exact fun b => (hbooked b).rest
  · exact fun b h => (hbooked b).stands (h.imp_right (fun h => h.trans (htest b).symm))
  · intro b e f he hne
    have h := (hbooked b).booked e f he (by rw [htest]; exact hne)
    rw [hnow] at h
    exact h
  · have hf : (framesPast (at_ s t) n k).sched.frameEnded = s.sched.frameEnded := hv.same (·.sched.frameEnded)
    rw [hu.same (·.sched), ← hf]
    rfl
  · exact (hu.same (·.sched.dma)).symm
  · have hs : Within { now := true, bays := true, dma := true, sched := true, heads := true } s (testsBooked (framesCounted (at_ s t) n k)) :=
      ((hv.mono rfl).trans (framesCounted_within (at_ s t) n k)).trans (hu.mono rfl)
    have hsched : (testsBooked (framesCounted (at_ s t) n k)).sched = { s.sched with
        dma := (testsBooked (framesCounted (at_ s t) n k)).sched.dma
        frameEnded := (testsBooked (framesCounted (at_ s t) n k)).sched.frameEnded } := by
      rw [hu.same (·.sched)]
      exact framesCounted_sched (at_ s t) n k
    generalize testsBooked (framesCounted (at_ s t) n k) = u at hs hsched ⊢
    rw [← hsched]
    exact hs

end Sys2Proof.Machine
end

section
/-! SUPPORT. The decision on one descriptor (R50, R52, R53, R126, R189). -/

namespace Sys2Proof.Machine

-- One proof at a time: the check bounds the compiler's threads.
set_option Elab.async false

open Sys2Proof Sys2Proof.Safety

/-! ## Buckets -/

/-- A state differs from another in the buckets of one instance and in counters alone. -/
structure Bucketed (i : Nat) (s w : State) : Prop where
  frame : Within { insts := true, cnt := true } s w
  other : ∀ j, j ≠ i → getInst w j = getInst s j
  inst : getInst w i = { getInst s i with sub := (getInst w i).sub, core := (getInst w i).core, bucketT := (getInst w i).bucketT }

section
variable {i : Nat} {s w v : State}

theorem Bucketed.trans (h : Bucketed i s w) (h' : Bucketed i w v) : Bucketed i s v := by
  obtain ⟨hf, ho, hi⟩ := h
  obtain ⟨hf', ho', hi'⟩ := h'
  refine ⟨hf.trans hf', fun j hj => (ho' j hj).trans (ho j hj), ?_⟩
  generalize getInst v i = y at hi' ⊢
  exact hi'.trans ((congrArg (fun x : Inst => { x with sub := y.sub, core := y.core, bucketT := y.bucketT }) hi).trans rfl)

theorem bucketed_refill (s : State) (i : Nat) : Bucketed i s (refill s i) :=
  ⟨(refill_within s i).mono rfl, fun _ h => getInst_setInst_other _ _ _ _ h, by rw [getInst_refill]; rfl⟩

theorem bucketed_tokenSpent (s : State) (i : Nat) : Bucketed i s (tokenSpent s i) :=
  ⟨(modInst_within s i _).mono rfl, fun _ h => getInst_setInst_other _ _ _ _ h, by rw [getInst_tokenSpent]⟩

theorem bucketed_bump (s : State) (i k : Nat) : Bucketed i s (bump s k) := ⟨(bump_within s k).mono rfl, fun _ _ => rfl, rfl⟩

theorem Bucketed.ite {c : Prop} [Decidable c] (h : Bucketed i s w) (h' : Bucketed i s v) : Bucketed i s (if c then w else v) := by
  split <;> assumption

theorem Bucketed.refl (i : Nat) (s : State) : Bucketed i s s := ⟨.refl s, fun _ _ => rfl, rfl⟩

theorem bucketed_countMiss (s : State) (i : Nat) (o : RingOp) : Bucketed i s (countMiss s o) := by
  unfold countMiss
  exact .ite (bucketed_bump s i _) (.refl i s)

/-- What the completion of a descriptor does beside buckets and counters. -/
theorem completeRing_decides (h : Bucketed i s w) {o o' : RingOp} (hc : o'.count = o.count) (hs : o'.snap = o.snap) (ha : o'.arr = o.arr)
    (st ep bay hint len : Nat) (res : Bytes) :
    Ended s (completeRing w i o' st ep bay hint len res) i o
      (completionEntry (ringEntries s.ctl.cfg i) o st ep bay hint len (s.now - o.arr) res) ∧
    EndFrame i s (completeRing w i o' st ep bay hint len res) := by
  obtain ⟨⟨hend, hentry, hring, hhead, hsub⟩, ⟨hframe, hother, hout⟩, -⟩ := completeRing_ends w i o' st ep bay hint len res
  obtain ⟨hf, ho, hi⟩ := h
  have hctl : w.ctl = s.ctl := hf.same (·.ctl)
  have hnow : w.now = s.now := hf.same (·.now)
  have hbox : w.outbox = s.outbox := hf.same (·.outbox)
  have hr : (getInst w i).ring = (getInst s i).ring := by rw [hi]
  have hss : (getInst w i).s = (getInst s i).s := by rw [hi]
  have he : completionEntry (ringEntries s.ctl.cfg i) o' st ep bay hint len (s.now - o'.arr) res =
      completionEntry (ringEntries s.ctl.cfg i) o st ep bay hint len (s.now - o.arr) res := by
    unfold completionEntry
    rw [hc, hs, ha]
  generalize completeRing w i o' st ep bay hint len res = u at *
  rw [hc, hctl] at hentry hring
  rw [hnow, he] at hentry
  rw [hr] at hring
  have hall : Within { insts := true, cnt := true, outbox := true, bad := true, writers := true, cache := true, msixPend := true } s u :=
    (hf.mono rfl).trans hframe
  exact ⟨⟨hc ▸ hend, hentry, hring, hhead, hsub.trans hss⟩, hall, fun j hj => (hother j hj).trans (ho j hj), fun m hm => hout m (hbox ▸ hm)⟩

end

/-! ## The three ends of a decision -/

/-- The descriptor as it stands once its checks have passed (R35, R189). -/
def checked (s : State) (i : Nat) (o : RingOp) : RingOp :=
  { o with att := attachOf s i, route := admissionRoute s i o.snap, routeBad := admissionFault s i o.snap }

section
variable {s : State} {i : Nat} {o : RingOp}

/-- A descriptor that fails a check is completed, a token spent or not. -/
theorem decide1_declines {st hint : Nat} (h : preStatus (refill s i) i o = (st, hint)) (h0 : st ≠ 0) :
    ∃ X, Bucketed i s X ∧ decide1 s i o = completeRing X i { o with att := attachOf s i } st s.ctl.epoch 0xFF hint 0
      (if st = 0x0103 then routeRes { o with route := admissionRoute (refill s i) i o.snap } st [] else []) := by
  have hpre : preStatus (refill s i) i { o with att := attachOf (refill s i) i } = (st, hint) := h
  unfold decide1
  dsimp only
  rw [hpre]
  dsimp only
  rw [if_pos h0]
  have hY : Bucketed i s (if st ≠ 0x0701 ∧ st ≠ 0x0801 ∧ oneToken ≤ (getInst (refill s i) i).sub then
      modInst (refill s i) i (fun x => { x with sub := x.sub - oneToken }) else refill s i) :=
    .ite ((bucketed_refill s i).trans (bucketed_tokenSpent _ i)) (bucketed_refill s i)
  generalize (if st ≠ 0x0701 ∧ st ≠ 0x0801 ∧ oneToken ≤ (getInst (refill s i) i).sub then
      modInst (refill s i) i (fun x => { x with sub := x.sub - oneToken }) else refill s i) = Y at hY ⊢
  have hX : Bucketed i s (if st = 0x0204 then bump Y (instKey i 0x15) else Y) := .ite (hY.trans (bucketed_bump Y i _)) hY
  refine ⟨_, hX, ?_⟩
  generalize (if st = 0x0204 then bump Y (instKey i 0x15) else Y) = X at hX ⊢
  have hepoch : X.ctl.epoch = s.ctl.epoch := hX.frame.same (·.ctl.epoch)
  have hroute : admissionRoute X i o.snap = admissionRoute (refill s i) i o.snap :=
    (hX.frame.same (fun w => admissionRoute w i o.snap)).trans rfl
  rw [hepoch, hroute]
  rfl

/-- A descriptor whose checks pass has a token to spend. -/
theorem preStatus_token (h : preStatus s i o = (0, 0)) : oneToken ≤ (getInst s i).sub := by
  refine Decidable.byContradiction fun hlow => ?_
  unfold preStatus at h
  dsimp only at h
  split at h
  · cases h
  · split at h
    · cases h
    · rw [if_pos (by omega)] at h
      cases h

end

/-- What a decision does with a descriptor whose checks have passed: the plan, the core time, the booking (R52, R53). -/
def decideChecked (c : Cfg) (s : State) (i : Nat) (o : RingOp) : State :=
  let p := opPlan s i o
  let sMax := o.arr / 2000 + classFrames p.cls - 2 - p.len
  if (getInst s i).core < Int.ofNat (p.core * 1000) then
    completeRing s i o 0x0102 s.ctl.epoch 0xFF
      (refillFrames s.now o.arr (getInst s i).core (Int.ofNat (p.core * 1000)) (coreRate c i) (coreBurst c i * 10 ^ 6)) 0
      (routeRes o 0x0102 [])
  else if dOp o.snap = 1 ∨ dOp o.snap = 2 then modInst s i (fun x => setOp x { o with stage := .atHub })
  else
    match findStart s (headOf s i) p (sMax + 1 - (s.now / 2000 + 1)) (s.now / 2000 + 1) with
    | some (start, b) =>
      let A := askInput (addDma (addCharges s b start p.charge) (headOf s i) start p) { o with stage := .booked, plan := p, bay := b, start := start }
      moveRotor (modInst A.1 i (fun x => setOp { x with core := x.core - Int.ofNat (p.core * 1000) } A.2)) p.kind b
    | none =>
      completeRing s i o 0x0101 s.ctl.epoch 0xFF
        (match findStart s (headOf s i) p (s.now / 2000 + 10240 - p.len + 1 - (sMax + 1)) (sMax + 1) with
          | some (f, _) => min 0xFFFF (f - sMax)
          | none => 0xFFFF) 0
        (routeRes o 0x0101 [])

section
variable {s : State} {i : Nat} {o : RingOp}

theorem decide1_checked (h : preStatus (refill s i) i o = (0, 0)) : decide1 s i o =
    decideChecked (refill s i).ctl.cfg (countMiss (tokenSpent (refill s i) i) { checked (tokenSpent (refill s i) i) i o with att := attachOf (refill s i) i }) i
      { checked (tokenSpent (refill s i) i) i o with att := attachOf (refill s i) i } := by
  have hpre : preStatus (refill s i) i { o with att := attachOf (refill s i) i } = (0, 0) := h
  unfold decide1
  dsimp only
  rw [hpre]
  dsimp only
  rw [if_neg (show ¬ (0 : Nat) ≠ 0 by omega), if_pos (show (0 : Nat) ≠ 0x0701 ∧ (0 : Nat) ≠ 0x0801 ∧ oneToken ≤ (getInst (refill s i) i).sub from
    ⟨by decide, by decide, preStatus_token h⟩)]
  unfold decideChecked checked tokenSpent
  rfl

theorem decide1_passes (h : preStatus (refill s i) i o = (0, 0)) {v : State} (hv : v = tokenSpent (refill s i) i) {o' : RingOp}
    (ho' : o' = checked v i o) : decide1 s i o = decideChecked s.ctl.cfg (countMiss v o') i o' := by
  subst hv ho'
  exact decide1_checked h

end

section
variable {c : Cfg} {s : State} {i : Nat} {o : RingOp} {p : Plan} (hp : p = opPlan s i o)
include hp

theorem decideChecked_poor (hcore : (getInst s i).core < Int.ofNat (p.core * 1000)) : decideChecked c s i o =
    completeRing s i o 0x0102 s.ctl.epoch 0xFF
      (refillFrames s.now o.arr (getInst s i).core (Int.ofNat (p.core * 1000)) (coreRate c i) (coreBurst c i * 10 ^ 6)) 0
      (routeRes o 0x0102 []) := by
  subst hp
  unfold decideChecked
  exact if_pos hcore

variable (hcore : Int.ofNat (p.core * 1000) ≤ (getInst s i).core)
include hcore

theorem decideChecked_atHub (hop : dOp o.snap = 1 ∨ dOp o.snap = 2) :
    decideChecked c s i o = modInst s i (fun x => setOp x { o with stage := .atHub }) := by
  subst hp
  unfold decideChecked
  dsimp only
  rw [if_neg (by omega), if_pos hop]

variable (hop : ¬ (dOp o.snap = 1 ∨ dOp o.snap = 2)) {last : Nat} (hlast : last = o.arr / 2000 + classFrames p.cls - 2 - p.len)
include hop hlast

theorem decideChecked_books {start b : Nat}
    (hfound : findStart s (headOf s i) p (last + 1 - (s.now / 2000 + 1)) (s.now / 2000 + 1) = some (start, b)) {A : State × RingOp}
    (hA : A = askInput (addDma (addCharges s b start p.charge) (headOf s i) start p) { o with stage := .booked, plan := p, bay := b, start := start }) :
    decideChecked c s i o =
      moveRotor (modInst A.1 i (fun x => setOp { x with core := x.core - Int.ofNat (p.core * 1000) } A.2)) p.kind b := by
  subst hp hlast hA
  unfold decideChecked
  dsimp only
  rw [if_neg (by omega), if_neg hop, hfound]

theorem decideChecked_unfit (hfound : findStart s (headOf s i) p (last + 1 - (s.now / 2000 + 1)) (s.now / 2000 + 1) = none) :
    decideChecked c s i o = completeRing s i o 0x0101 s.ctl.epoch 0xFF
      (((findStart s (headOf s i) p (s.now / 2000 + 10240 - p.len + 1 - (last + 1)) (last + 1)).map (fun e => min 0xFFFF (e.1 - last))).getD 0xFFFF) 0
      (routeRes o 0x0101 []) := by
  subst hp hlast
  unfold decideChecked
  dsimp only
  rw [if_neg (by omega), if_neg hop, hfound]
  dsimp only
  generalize findStart s (headOf s i) (opPlan s i o) _ _ = q
  cases q <;> rfl

end

/-! ## Bookings -/

section
variable (s : State)

theorem addCharges_within (b frame : Nat) (cs : List Nat) : Within { bays := true } s (addCharges s b frame cs) := by
  induction cs generalizing s frame with
  | nil => exact .refl s
  | cons c cs ih => exact (setBook_within s b frame _).trans (ih _ _)

theorem addCharges_other {b b' : Nat} (h : b' ≠ b) (frame : Nat) (cs : List Nat) : getBay (addCharges s b frame cs) b' = getBay s b' := by
  induction cs generalizing s frame with
  | nil => rfl
  | cons c cs ih => exact (ih _ _).trans (getBay_setBay_other _ _ _ _ h)

theorem addCharges_bay (b frame : Nat) (cs : List Nat) :
    getBay (addCharges s b frame cs) b = { getBay s b with book := (getBay (addCharges s b frame cs) b).book } := by
  induction cs generalizing s frame with
  | nil => rfl
  | cons c cs ih =>
    have h := ih (setBook s b frame (bookEntry s b frame + c)) (frame + 1)
    rw [getBay_setBook] at h
    exact h

theorem addCharges_congr {s w : State} (h : w.bays = s.bays) (b frame : Nat) (cs : List Nat) :
    (addCharges w b frame cs).bays = (addCharges s b frame cs).bays := by
  induction cs generalizing s w frame with
  | nil => exact h
  | cons c cs ih =>
    refine ih ?_ _
    unfold setBook modBay setBay bookEntry getBay
    rw [h]

theorem addDma_within (h start : Nat) (p : Plan) : Within { dma := true } s (addDma s h start p) := by
  unfold addDma
  exact .ite (.refl s) (.each (fun w j => (setDma_within w _ _ _).trans (setDma_within _ _ _ _)) _ s)

theorem addDma_congr {s w : State} (h : w.sched = s.sched) (k start : Nat) (p : Plan) :
    (addDma w k start p).sched = (addDma s k start p).sched := by
  unfold addDma
  split
  · exact h
  · generalize upTo p.len = js
    induction js generalizing s w with
    | nil => exact h
    | cons j js ih =>
      refine ih ?_
      unfold setDma dmaEntry
      dsimp only
      rw [h]

theorem each_emit_outbox (ks : List Nat) (s : State) (g : Nat → Out) : (each ks s (fun s k => emit s (g k))).outbox = s.outbox ++ ks.map g := by
  induction ks generalizing s with
  | nil => exact (List.append_nil _).symm
  | cons k ks ih =>
    refine (ih (emit s (g k))).trans ?_
    show (s.outbox ++ [g k]) ++ ks.map g = _
    rw [List.append_assoc]
    rfl

theorem askInput_within (o : RingOp) : Within { outbox := true } s (askInput s o).1 := by
  unfold askInput askRegion
  split
  · split
    · exact .each (fun w k => emit_within w _) _ s
    · exact .refl s
  · exact .refl s

theorem moveRotor_within (k : Kind) (b : Nat) : Within { sched := true, dma := true } s (moveRotor s k b) := by
  unfold moveRotor
  exact .ite rfl rfl

/-- What an operation asks for depends on the instances, the link and the time. -/
theorem askInput_congr {s w : State} {o : RingOp} (hi : w.insts = s.insts) (hl : w.link = s.link) (hn : w.now = s.now) (ho : w.outbox = s.outbox) :
    (askInput w o).2 = (askInput s o).2 ∧ (askInput w o).1.outbox = (askInput s o).1.outbox := by
  unfold askInput
  split
  · split
    · unfold askRegion readsDue headReads readSize
      rw [hi, hl, hn]
      exact ⟨rfl, (each_emit_outbox _ w _).trans ((congrArg (· ++ _) ho).trans (each_emit_outbox _ s _).symm)⟩
    · exact ⟨rfl, ho⟩
  · exact ⟨rfl, ho⟩

theorem askInput_count (o : RingOp) : (askInput s o).2.count = o.count := by
  unfold askInput askRegion
  split
  · split <;> rfl
  · rfl

end

/-! ## The decision on a descriptor that passes its checks -/

section
variable {s w : State} (h : Within { cnt := true } s w)
include h

theorem fitsCharges_counters (b cap frame : Nat) (cs : List Nat) : fitsCharges w b cap frame cs = fitsCharges s b cap frame cs := by
  induction cs generalizing frame with
  | nil => rfl
  | cons c cs ih =>
    unfold fitsCharges
    rw [ih, h.same (fun w => bookEntry w b frame)]

theorem findStart_counters (k : Nat) (p : Plan) (n start : Nat) : findStart w k p n start = findStart s k p n start := by
  have hfits : ∀ b f, fitsBay w b f p = fitsBay s b f p := fun b f => by
    unfold fitsBay
    rw [fitsCharges_counters h, h.same (fun w => getBay w b), h.same (fun w => bayCap w b)]
  induction n generalizing start with
  | zero => rfl
  | succ n ih =>
    unfold findStart
    rw [ih, h.same (fun w => dmaFits w k start p), h.same (fun w => baysFrom w p.kind)]
    simp only [hfits]

end

/-- A descriptor whose checks pass: its instance has spent a token for it, and its lookup has been counted. -/
structure Checks (s : State) (i : Nat) (o : RingOp) (v : State) (o' : RingOp) (p : Plan) : Prop where
  owned : findOp (getInst s i) o.count = some o
  passes : preStatus (refill s i) i o = (0, 0)
  spent : v = tokenSpent (refill s i) i
  noted : o' = checked v i o
  planned : p = opPlan v i o'

section
variable {s v : State} {i : Nat} {o o' : RingOp} {p : Plan} (h : Checks s i o v o' p)
include h

theorem Checks.bucketed : Bucketed i s v := by
  rw [h.spent]
  exact (bucketed_refill s i).trans (bucketed_tokenSpent _ i)

theorem Checks.counted : Bucketed i s (countMiss v o') := h.bucketed.trans (bucketed_countMiss v i o')

omit h in
theorem countMiss_within (v : State) (o' : RingOp) : Within { cnt := true } v (countMiss v o') := by
  unfold countMiss
  exact .ite (bump_within v _) (.refl v)

theorem Checks.plan : p = opPlan (countMiss v o') i o' := h.planned.trans ((countMiss_within v o').same (fun w => opPlan w i o')).symm

omit h in
theorem countMiss_core : (getInst (countMiss v o') i).core = (getInst v i).core := (countMiss_within v o').same (fun w => (getInst w i).core)

theorem Checks.decides : decide1 s i o = decideChecked s.ctl.cfg (countMiss v o') i o' := decide1_passes h.passes h.spent h.noted

theorem Checks.count : o'.count = o.count := by
  rw [h.noted]
  rfl

theorem Checks.snap : o'.snap = o.snap := by
  rw [h.noted]
  rfl

theorem Checks.arr : o'.arr = o.arr := by
  rw [h.noted]
  rfl

theorem Checks.owns : (findOp (getInst (countMiss v o') i) o'.count).isSome := by
  have hops : (getInst (countMiss v o') i).ops = (getInst s i).ops := by rw [h.counted.inst]
  have ho := h.owned
  unfold findOp at ho ⊢
  rw [h.count, hops, ho]
  rfl

omit h in
theorem findStart_countMiss (n k : Nat) :
    findStart (countMiss v o') (headOf (countMiss v o') i) p n k = findStart v (headOf v i) p n k := by
  rw [show headOf (countMiss v o') i = headOf v i from (countMiss_within v o').same (fun w => headOf w i)]
  exact findStart_counters (countMiss_within v o') _ _ _ _

theorem Checks.poor (hcore : (getInst v i).core < Int.ofNat (p.core * 1000)) :
    Ended s (decide1 s i o) i o (completionEntry (ringEntries s.ctl.cfg i) o 0x0102 s.ctl.epoch 0xFF
      (refillFrames s.now o.arr (getInst v i).core (Int.ofNat (p.core * 1000)) (coreRate s.ctl.cfg i) (coreBurst s.ctl.cfg i * 10 ^ 6))
      0 (s.now - o.arr) (routeRes o' 0x0102 [])) ∧
    EndFrame i s (decide1 s i o) := by
  have hnow : (countMiss v o').now = s.now := h.counted.frame.same (·.now)
  have hepoch : (countMiss v o').ctl.epoch = s.ctl.epoch := h.counted.frame.same (·.ctl.epoch)
  rw [h.decides, decideChecked_poor h.plan (by rw [countMiss_core]; exact hcore), hnow, hepoch, countMiss_core, h.arr]
  exact completeRing_decides h.counted h.count h.snap h.arr _ _ _ _ _ _

variable (hcore : Int.ofNat (p.core * 1000) ≤ (getInst v i).core)
include hcore

theorem Checks.waits (hop : dOp o.snap = 1 ∨ dOp o.snap = 2) :
    SetsOp (countMiss v o') (decide1 s i o) i { o' with stage := .atHub } := by
  rw [h.decides, decideChecked_atHub h.plan (by rw [countMiss_core]; exact hcore) (by rw [h.snap]; exact hop)]
  exact setOp_setsOp _ i _ h.owns

variable (hop : ¬ (dOp o.snap = 1 ∨ dOp o.snap = 2)) {last : Nat} (hlast : last = o.arr / 2000 + classFrames p.cls - 2 - p.len)
include hop hlast

theorem Checks.unfit (hfound : findStart v (headOf v i) p (last + 1 - (s.now / 2000 + 1)) (s.now / 2000 + 1) = none) :
    Ended s (decide1 s i o) i o (completionEntry (ringEntries s.ctl.cfg i) o 0x0101 s.ctl.epoch 0xFF
      (((findStart v (headOf v i) p (s.now / 2000 + 10240 - p.len + 1 - (last + 1)) (last + 1)).map
        (fun e => min 0xFFFF (e.1 - last))).getD 0xFFFF)
      0 (s.now - o.arr) (routeRes o' 0x0101 [])) ∧
    EndFrame i s (decide1 s i o) := by
  have hnow : (countMiss v o').now = s.now := h.counted.frame.same (·.now)
  have hepoch : (countMiss v o').ctl.epoch = s.ctl.epoch := h.counted.frame.same (·.ctl.epoch)
  rw [h.decides, decideChecked_unfit h.plan (by rw [countMiss_core]; exact hcore) (by rw [h.snap]; exact hop) (last := last) (by rw [h.arr]; exact hlast)
    (by rw [findStart_countMiss, hnow]; exact hfound), findStart_countMiss, hnow, hepoch]
  exact completeRing_decides h.counted h.count h.snap h.arr _ _ _ _ _ _

/-- The state in which a booked descriptor asks for its input. -/
def charged (s : State) (i b start : Nat) (p : Plan) : State := addDma (addCharges s b start p.charge) (headOf s i) start p

theorem Checks.books {start b : Nat} (hfound : findStart v (headOf v i) p (last + 1 - (s.now / 2000 + 1)) (s.now / 2000 + 1) = some (start, b)) :
    decide1 s i o = moveRotor (modInst (askInput (charged (countMiss v o') i b start p) { o' with stage := .booked, plan := p, bay := b, start := start }).1 i
      (fun x => setOp { x with core := x.core - Int.ofNat (p.core * 1000) }
        (askInput (charged (countMiss v o') i b start p) { o' with stage := .booked, plan := p, bay := b, start := start }).2)) p.kind b := by
  have hnow : (countMiss v o').now = s.now := h.counted.frame.same (·.now)
  rw [h.decides]
  exact decideChecked_books h.plan (by rw [countMiss_core]; exact hcore) (by rw [h.snap]; exact hop) (last := last) (by rw [h.arr]; exact hlast)
    (by rw [findStart_countMiss, hnow]; exact hfound) rfl

end

/-! ## A booking -/

section
variable (s : State) (i b start : Nat) (p : Plan)

theorem charged_within : Within { bays := true, dma := true } s (charged s i b start p) :=
  ((addCharges_within s b start _).mono rfl).trans ((addDma_within _ _ start p).mono rfl)

theorem charged_bays : (charged s i b start p).bays = (addCharges s b start p.charge).bays := (addDma_within _ _ start p).same (·.bays)

theorem charged_sched : (charged s i b start p).sched = (addDma s (headOf s i) start p).sched :=
  addDma_congr ((addCharges_within s b start _).same (·.sched)) _ _ _

theorem moveRotor_congr {s w : State} (h : w.sched = s.sched) (k : Kind) (b : Nat) : (moveRotor w k b).sched = (moveRotor s k b).sched := by
  unfold moveRotor
  split <;> (dsimp only; rw [h])

theorem countMiss_congr {s w : State} (h : w.cnt = s.cnt) (o : RingOp) : (countMiss w o).cnt = (countMiss s o).cnt := by
  unfold countMiss
  split
  · unfold bump bumpBy
    dsimp only
    rw [h]
  · exact h

end

/-- The instance with its operation booked and the core time taken. -/
def withBooked (A : State × RingOp) (i : Nat) (p : Plan) : State :=
  modInst A.1 i (fun x => setOp { x with core := x.core - Int.ofNat (p.core * 1000) } A.2)

/-- The state after a booking in a bay. -/
def bookedFrom (A : State × RingOp) (i b : Nat) (p : Plan) : State := moveRotor (withBooked A i p) p.kind b

/-- A descriptor booked in a bay, as its instance and the books then stand. -/
structure Booked (s w v : State) (i : Nat) (o o' : RingOp) (p : Plan) (start b : Nat) (A : State × RingOp) (u : State) : Prop where
  op : findOp (getInst u i) o.count = some A.2
  core : (getInst u i).core = (getInst v i).core - Int.ofNat (p.core * 1000)
  sub : (getInst u i).sub = (getInst w i).sub - oneToken
  others : ∀ j, j ≠ i → getInst u j = getInst s j
  bays : ∀ b', b' ≠ b → getBay u b' = getBay s b'
  bay : getBay u b = { getBay s b with book := (getBay (addCharges v b start p.charge) b).book }
  sched : u.sched = (moveRotor (addDma v (headOf v i) start p) p.kind b).sched
  outbox : u.outbox = A.1.outbox
  cnt : u.cnt = (countMiss s o').cnt
  frame : u = { s with insts := u.insts, bays := u.bays, sched := u.sched, outbox := u.outbox, cnt := u.cnt }

section
variable {s v : State} {i : Nat} {o o' q : RingOp} {p : Plan} (h : Checks s i o v o' p) {start b : Nat} (hq : q.count = o.count)
include h hq

theorem Checks.booked {B : State × RingOp} (hB : B = askInput (charged (countMiss v o') i b start p) q) :
    Booked s (refill s i) v i o o' p start b (askInput v q)
      (bookedFrom B i b p) := by
  have hm := countMiss_within v o'
  have hW := charged_within (countMiss v o') i b start p
  have hvW : Within { cnt := true, bays := true, dma := true } v (charged (countMiss v o') i b start p) := (hm.mono rfl).trans (hW.mono rfl)
  obtain ⟨hop, hbox⟩ := askInput_congr (o := q) (hvW.same (·.insts)) (hvW.same (·.link)) (hvW.same (·.now)) (hvW.same (·.outbox))
  have hA : Within { outbox := true } (charged (countMiss v o') i b start p) B.1 := hB ▸ askInput_within _ q
  have hcount : B.2.count = o.count := by rw [hB, askInput_count, hq]
  rw [← hB] at hop hbox
  have hAv : B.1.insts = v.insts := (hA.same (·.insts)).trans (hvW.same (·.insts))
  have hrot : Within { sched := true, dma := true } (withBooked B i p) (bookedFrom B i b p) := moveRotor_within _ p.kind b
  have hbays : ∀ k, getBay (bookedFrom B i b p) k =
      getBay (addCharges (countMiss v o') b start p.charge) k := fun k =>
    (hrot.same (fun w => getBay w k)).trans ((hA.same (fun w => getBay w k)).trans (getBay_of_bays (charged_bays _ i b start p) k))
  have hinst : getInst (bookedFrom B i b p) i =
      setOp { getInst v i with core := (getInst v i).core - Int.ofNat (p.core * 1000) } B.2 := by
    rw [hrot.same (fun w => getInst w i), withBooked, getInst_modInst_same, getInst_of_insts hAv]
  have hother : ∀ j, j ≠ i → getInst (bookedFrom B i b p) j =
      getInst s j := fun j hj => by
    rw [hrot.same (fun w => getInst w j), show getInst (withBooked B i p) j = getInst B.1 j from getInst_setInst_other _ _ _ _ hj, getInst_of_insts hAv,
      h.bucketed.other j hj]
  have hall : Within { insts := true, bays := true, sched := true, dma := true, outbox := true, cnt := true } s
      (bookedFrom B i b p) :=
    ((h.bucketed.frame.mono rfl).trans (hvW.mono rfl)).trans (((hA.mono rfl).trans ((modInst_within _ i _).mono rfl)).trans (hrot.mono rfl))
  have hops : (findOp { getInst v i with core := (getInst v i).core - Int.ofNat (p.core * 1000) } B.2.count).isSome := by
    have hcnt : (getInst (countMiss v o') i).ops = (getInst v i).ops := hm.same (fun w => (getInst w i).ops)
    have hown := h.owns
    unfold findOp at hown ⊢
    rwa [hcount, ← h.count, show ({ getInst v i with core := _ } : Inst).ops = _ from hcnt.symm]
  have hsched : (withBooked B i p).sched = (addDma v (headOf v i) start p).sched :=
    (hA.same (·.sched)).trans ((charged_sched _ i b start p).trans ((addDma_congr (hm.same (·.sched)) _ _ _).trans
      (by rw [hm.same (fun w => headOf w i)])))
  refine ⟨?_, ?_, ?_, hother, fun k hk => ?_, ?_, ?_, ?_, ?_, hall⟩
  · rw [hinst, ← hcount, findOp_setOp_same _ _ hops, hop]
  · rw [hinst]
    rfl
  · rw [hinst]
    show (getInst v i).sub = _
    rw [h.spent, getInst_tokenSpent]
  · rw [hbays, addCharges_other _ hk, hm.same (fun w => getBay w k), h.bucketed.frame.same (fun w => getBay w k)]
  · have hbay := addCharges_bay (countMiss v o') b start p.charge
    have hbook : getBay (addCharges (countMiss v o') b start p.charge) b = getBay (addCharges v b start p.charge) b :=
      getBay_of_bays (addCharges_congr (hm.same (·.bays)) _ _ _) b
    rw [hm.same (fun w => getBay w b), h.bucketed.frame.same (fun w => getBay w b)] at hbay
    rw [hbays, ← hbook]
    exact hbay
  · exact moveRotor_congr hsched _ _
  · exact (hrot.same (·.outbox)).trans hbox
  · have hcnt : (bookedFrom B i b p).cnt = (countMiss v o').cnt :=
      (hrot.same (·.cnt)).trans ((hA.same (·.cnt)).trans (hW.same (·.cnt)))
    rw [hcnt]
    refine countMiss_congr ?_ o'
    rw [h.spent]
    rfl

end

/-- Settles O28: a decision is a decline, a wait at the hub, or a booking, told apart by the checks, the core time and the first fit. -/
theorem descriptorDecision : Obligations.DescriptorDecision := by
  unfold Obligations.DescriptorDecision
  rintro s i o ho w rfl
  refine ⟨fun st hint hpre h0 => ?_, fun hpre v p o' hv ho' hp => ?_⟩
  · obtain ⟨X, hX, he⟩ := decide1_declines hpre h0
    rw [he]
    exact completeRing_decides hX rfl rfl rfl _ _ _ _ _ _
  · have h : Checks s i o v o' p := ⟨ho, hpre, hv, ho', hp⟩
    refine ⟨h.poor, fun hcore => ⟨h.waits hcore, fun h1 h2 found last hlast hfound => ⟨fun hn => ?_, fun start b A hs hA => ?_⟩⟩⟩
    · exact h.unfit hcore (fun hop => hop.elim h1 h2) hlast (hfound ▸ hn)
    · have hbooked := h.booked (start := start) (b := b) (q := { o' with stage := .booked, plan := p, bay := b, start := start }) h.count rfl
      rw [← hA] at hbooked
      rw [h.books hcore (fun hop => hop.elim h1 h2) hlast (hfound ▸ hs)]
      exact ⟨hbooked.op, hbooked.core, hbooked.sub, hbooked.others, hbooked.bays, hbooked.bay, hbooked.sched, hbooked.outbox, hbooked.cnt, hbooked.frame⟩

end Sys2Proof.Machine
end

section
/-! SUPPORT. Admission rounds: deficit round robin over the instances (R51). -/

namespace Sys2Proof.Machine

-- One proof at a time: the check bounds the compiler's threads.
set_option Elab.async false

open Sys2Proof Sys2Proof.Safety

/-! ## The cost of a descriptor -/

theorem Within.symm {F : Scope} {s u : State} (h : Within F s u) : Within F u s := by
  have e : graft F u s = graft F s s := by
    conv =>
      lhs
      rw [h]
    exact graft_graft_old F s u s
  exact (e.trans (graft_self F s)).symm

section
variable {s w : State} {i d : Nat} (hf : Within { insts := true } s w) (hi : getInst w i = { getInst s i with deficit := d })
include hf hi

theorem preStatus_deficit (o : RingOp) : preStatus w i o = preStatus s i o := by
  have hw : w = { s with insts := w.insts } := hf
  generalize w.insts = m at hw
  subst hw
  have htype : admissionType { s with insts := m } i o.snap = admissionType s i o.snap := rfl
  have hroute : admissionRoute { s with insts := m } i o.snap = admissionRoute s i o.snap := rfl
  have hneeds : opNeedsRandom { s with insts := m } i o.snap = opNeedsRandom s i o.snap := rfl
  have hforb : ringForbidden { s with insts := m } o.snap = ringForbidden s o.snap := rfl
  unfold preStatus malformed opPlan
  rw [hi, htype, hroute, hneeds, hforb]
  rfl

theorem opPlan_deficit (o : RingOp) : opPlan w i o = opPlan s i o := by
  have hw : w = { s with insts := w.insts } := hf
  generalize w.insts = m at hw
  subst hw
  unfold opPlan
  rw [hi]
  rfl

theorem orderCost_deficit (o : RingOp) : orderCost w i o = orderCost s i o := by
  have hff : Within { insts := true } (refill s i) (refill w i) := ((refill_within s i).symm.trans hf).trans (refill_within w i)
  have hii : getInst (refill w i) i = { getInst (refill s i) i with deficit := d } := by
    rw [getInst_refill, getInst_refill, hi, hf.same (·.ctl.cfg), hf.same (·.now)]
    rfl
  unfold orderCost
  dsimp only
  rw [preStatus_deficit hff hii, opPlan_deficit hff hii]

end

/-! ## What a decision leaves undecided -/

/-- A decision takes its descriptor out of those undecided and leaves other instances. -/
structure Decides (i : Nat) (o : RingOp) (s u : State) : Prop where
  other : ∀ j, j ≠ i → getInst u j = getInst s j
  covered : ∀ q ∈ (getInst u i).ops, q.stage = .covered → q ∈ (getInst s i).ops ∧ q.count ≠ o.count

section
variable {s w : State} {i : Nat} {o : RingOp}

theorem Bucketed.ops (h : Bucketed i s w) : (getInst w i).ops = (getInst s i).ops := by rw [h.inst]

theorem decides_completeRing (h : Bucketed i s w) {o' : RingOp} (hc : o'.count = o.count) (st ep bay hint len : Nat) (res : Bytes) :
    Decides i o s (completeRing w i o' st ep bay hint len res) := by
  refine ⟨fun j hj => ((completeRing_ends w i o' st ep bay hint len res).2.1.2.1 j hj).trans (h.other j hj), fun q hq _ => ?_⟩
  rw [completeRing_ops, h.ops, hc] at hq
  obtain ⟨hin, hne⟩ := List.mem_filter.1 hq
  exact ⟨hin, by simpa using hne⟩

theorem decides_setOp {u : State} (ho : ∀ j, j ≠ i → getInst u j = getInst s j) {x : Inst} (hx : x.ops = (getInst s i).ops) {q : RingOp}
    (hu : (getInst u i).ops = (setOp x q).ops) (hc : q.count = o.count) (hq : q.stage ≠ .covered) : Decides i o s u := by
  refine ⟨ho, fun a ha hst => ?_⟩
  rw [hu] at ha
  obtain ⟨b, hb, he⟩ := List.mem_map.1 ha
  by_cases hbq : b.count == q.count
  · rw [if_pos hbq] at he
    exact absurd (he ▸ hst) hq
  · rw [if_neg hbq] at he
    subst he
    exact ⟨hx ▸ hb, by simpa [hc] using hbq⟩

theorem askInput_stage (s : State) (o : RingOp) : (askInput s o).2.stage = o.stage := by
  unfold askInput askRegion
  split
  · split <;> rfl
  · rfl

theorem decideChecked_decides (h : Bucketed i s w) (c : Cfg) {o' : RingOp} (hc : o'.count = o.count) : Decides i o s (decideChecked c w i o') := by
  by_cases hcore : (getInst w i).core < Int.ofNat ((opPlan w i o').core * 1000)
  · rw [decideChecked_poor rfl hcore]
    exact decides_completeRing h hc _ _ _ _ _ _
  · by_cases hop : dOp o'.snap = 1 ∨ dOp o'.snap = 2
    · rw [decideChecked_atHub rfl (by omega) hop]
      refine decides_setOp (fun j hj => (getInst_setInst_other _ _ _ _ hj).trans (h.other j hj)) h.ops
        (congrArg Inst.ops (getInst_modInst_same w i _)) hc (show Stage.atHub ≠ .covered by decide)
    · cases hfound : findStart w (headOf w i) (opPlan w i o') (o'.arr / 2000 + classFrames (opPlan w i o').cls - 2 - (opPlan w i o').len + 1 -
          (w.now / 2000 + 1)) (w.now / 2000 + 1) with
      | none =>
        rw [decideChecked_unfit rfl (by omega) hop rfl hfound]
        exact decides_completeRing h hc _ _ _ _ _ _
      | some e =>
        obtain ⟨start, b⟩ := e
        rw [decideChecked_books rfl (by omega) hop rfl hfound rfl]
        have hbooked : ∀ q, q.count = o.count → q.stage = .booked → Decides i o s
            (bookedFrom (askInput (charged w i b start (opPlan w i o')) q) i b (opPlan w i o')) := fun q hqc hqs => by
          have hask := askInput_within (charged w i b start (opPlan w i o')) q
          have hrot : Within { sched := true, dma := true } (withBooked (askInput (charged w i b start (opPlan w i o')) q) i (opPlan w i o'))
              (bookedFrom (askInput (charged w i b start (opPlan w i o')) q) i b (opPlan w i o')) := moveRotor_within _ _ _
          have hinsts : ∀ k, getInst (askInput (charged w i b start (opPlan w i o')) q).1 k = getInst w k := fun k =>
            (hask.same (fun w => getInst w k)).trans ((charged_within w i b start _).same (fun w => getInst w k))
          refine decides_setOp (fun j hj => ?_) (x := { getInst w i with core := (getInst w i).core - Int.ofNat ((opPlan w i o').core * 1000) })
            h.ops (q := (askInput (charged w i b start (opPlan w i o')) q).2) ?_ ?_ ?_
          · rw [hrot.same (fun w => getInst w j), ← h.other j hj, ← hinsts j]
            exact getInst_setInst_other _ _ _ _ hj
          · rw [hrot.same (fun w => getInst w i), withBooked, getInst_modInst_same, hinsts i]
          · rw [askInput_count, hqc]
          · rw [askInput_stage, hqs]
            decide
        exact hbooked _ hc rfl

/-- A check that gives no status has not failed. -/
theorem check_passes {c : Prop} [Decidable c] {a b : Nat × Nat} {hint : Nat} (h : (if c then a else b) = (0, hint)) (ha : c → a.1 ≠ 0) :
    b = (0, hint) := by
  by_cases hc : c
  · rw [if_pos hc] at h
    exact absurd (congrArg Prod.fst h) (ha hc)
  · rwa [if_neg hc] at h

/-- A descriptor that passes its checks carries no hint. -/
theorem preStatus_hint {hint : Nat} (h : preStatus s i o = (0, hint)) : hint = 0 := by
  unfold preStatus at h
  have hlatched := check_passes h (fun _ => (by decide : (0x0701 : Nat) ≠ 0))
  have htoken := check_passes hlatched (fun _ => (by decide : (0x0801 : Nat) ≠ 0))
  have hsound := check_passes htoken (fun _ => (by decide : (0x0102 : Nat) ≠ 0))
  have hmode := check_passes hsound id
  have hseed := check_passes hmode (fun _ => (by decide : (0x0104 : Nat) ≠ 0))
  have hpass := check_passes hseed (fun _ => (by decide : (0x0103 : Nat) ≠ 0))
  exact (congrArg Prod.snd hpass).symm

theorem decide1_decides (s : State) (i : Nat) (o : RingOp) : Decides i o s (decide1 s i o) := by
  cases hpre : preStatus (refill s i) i o with
  | mk st hint =>
    by_cases h0 : st = 0
    · have hpass : preStatus (refill s i) i o = (0, 0) := by
        subst h0
        rw [hpre, preStatus_hint hpre]
      rw [decide1_passes hpass rfl rfl]
      exact decideChecked_decides (((bucketed_refill s i).trans (bucketed_tokenSpent _ i)).trans (bucketed_countMiss _ i _)) _ rfl
    · obtain ⟨X, hX, he⟩ := decide1_declines hpre h0
      rw [he]
      exact decides_completeRing hX (o := o) (o' := { o with att := attachOf s i }) rfl _ _ _ _ _ _

end

/-! ## Instances and their undecided descriptors -/

section
variable {β : Type} {m : Map β}

theorem mget_of_mem (d : β) (hr : mrising m = true) {e : Nat × β} (he : e ∈ m) : mget d m e.1 = e.2 := by
  induction m with
  | nil => cases he
  | cons x rest ih =>
    obtain ⟨k, v⟩ := x
    obtain ⟨habove, hrest⟩ := mrising_cons.1 hr
    rcases List.mem_cons.1 he with rfl | he
    · exact if_pos rfl
    · have hlt : k < e.1 := habove e he
      exact (if_neg (by omega)).trans (ih hrest he)

theorem mem_mget (d : β) {k : Nat} (hk : k ∈ m.map (·.1)) : (k, mget d m k) ∈ m := by
  induction m with
  | nil => cases hk
  | cons x rest ih =>
    obtain ⟨j, v⟩ := x
    by_cases hj : j = k
    · subst hj
      rw [show mget d ((j, v) :: rest) j = v from if_pos rfl]
      exact List.mem_cons_self
    · rw [show mget d ((j, v) :: rest) k = mget d rest k from if_neg hj]
      exact List.mem_cons_of_mem _ (ih ((List.mem_cons.1 hk).resolve_left (fun h => hj h.symm)))

/-- Of a map that lists each key once, the entries of one key are one. -/
theorem filter_keys_one (hr : mrising m = true) {p : Nat × β → Bool} {i : Nat} (hp : ∀ e ∈ m, p e = true ↔ e.1 = i)
    (hi : i ∈ m.map (·.1)) : (m.filter p).map (·.1) = [i] := by
  induction m with
  | nil => cases hi
  | cons x rest ih =>
    obtain ⟨habove, hrest⟩ := mrising_cons (k := x.1) (v := x.2) |>.1 hr
    have hprest : ∀ e ∈ rest, p e = true ↔ e.1 = i := fun e he => hp e (List.mem_cons_of_mem _ he)
    by_cases hx : x.1 = i
    · have hnone : rest.filter p = [] := List.filter_eq_nil_iff.2 (fun e he h => by
        have hlt : x.1 < e.1 := habove e he
        have := (hprest e he).1 h
        omega)
      rw [List.filter_cons_of_pos ((hp x List.mem_cons_self).2 hx), hnone]
      exact congrArg (fun k => [k]) hx
    · rw [List.filter_cons_of_neg (fun h => hx ((hp x List.mem_cons_self).1 h))]
      exact ih hrest hprest ((List.mem_cons.1 hi).resolve_left (fun h => hx h.symm))

end

/-- The undecided descriptors of a legal machine: at most one of each instance. -/
structure Awaits (s : State) (A : Nat → Option RingOp) : Prop where
  legal : Legal s
  ops : ∀ k q, (q ∈ (getInst s k).ops ∧ q.stage = .covered) ↔ A k = some q

/-- The descriptors that wait once that of an instance is decided. -/
def without (A : Nat → Option RingOp) (i : Nat) (k : Nat) : Option RingOp := if k = i then none else A k

section
variable {s : State} {A : Nat → Option RingOp} (h : Awaits s A)
include h

theorem Awaits.insts {w : State} (hl : Legal w) (hw : w.insts = s.insts) : Awaits w A :=
  ⟨hl, fun k q => by rw [getInst_of_insts hw]; exact h.ops k q⟩

theorem Awaits.of_modInst {i : Nat} {f : Inst → Inst} (hf : ∀ x, InstOk x → InstOk (f x)) (ho : ∀ x, (f x).ops = x.ops) : Awaits (modInst s i f) A := by
  refine ⟨(kept_modInst h.legal.kept i hf).legal, fun k q => ?_⟩
  by_cases hk : k = i
  · subst hk
    rw [getInst_modInst_same, ho]
    exact h.ops k q
  · rw [show getInst (modInst s i f) k = getInst s k from getInst_setInst_other _ _ _ _ hk]
    exact h.ops k q

theorem Awaits.of_decide1 {i : Nat} {o : RingOp} (ho : A i = some o) : Awaits (decide1 s i o) (without A i) := by
  have hd := decide1_decides s i o
  refine ⟨(decide1_kept h.legal.kept).legal, fun k q => ?_⟩
  unfold without
  by_cases hk : k = i
  · subst hk
    rw [if_pos rfl]
    refine ⟨fun ⟨hq, hst⟩ => ?_, fun hn => by cases hn⟩
    obtain ⟨hin, hne⟩ := hd.covered q hq hst
    have hq' := (h.ops k q).1 ⟨hin, hst⟩
    rw [ho] at hq'
    cases hq'
    exact absurd rfl hne
  · rw [if_neg hk, hd.other k hk]
    exact h.ops k q

variable {r : Nat} (hr : ∀ k q, A k = some q → q.round ≤ r)
include hr

theorem Awaits.next (k : Nat) : nextCovered (getInst s k) r = A k := by
  unfold nextCovered
  cases hA : A k with
  | none =>
    refine List.find?_eq_none.2 (fun q hq hc => ?_)
    simp only [Bool.and_eq_true, beq_iff_eq] at hc
    rw [(h.ops k q).1 ⟨hq, hc.1⟩] at hA
    cases hA
  | some o =>
    obtain ⟨hin, hst⟩ := (h.ops k o).2 hA
    cases hfind : (getInst s k).ops.find? (fun o => o.stage == .covered && decide (o.round ≤ r)) with
    | none => exact absurd (List.find?_eq_none.1 hfind o hin) (by simp [hst, hr k o hA])
    | some q =>
      have hq := List.find?_some hfind
      simp only [Bool.and_eq_true, beq_iff_eq] at hq
      exact ((h.ops k q).1 ⟨List.mem_of_find?_eq_some hfind, hq.1⟩).symm.trans hA

theorem Awaits.contender {e : Nat × Inst} (he : e ∈ s.insts) : (nextCovered e.2 r).isSome = (A e.1).isSome := by
  rw [← h.next hr e.1]
  exact congrArg (fun x => (nextCovered x r).isSome) (mget_of_mem ({} : Inst) h.legal.rising he).symm

theorem Awaits.contenders_none (hA : ∀ k, A k = none) (start : Nat) : contenders s r start = [] := by
  have hnone : s.insts.filter (fun e => (nextCovered e.2 r).isSome) = [] :=
    List.filter_eq_nil_iff.2 (fun e he hc => by
      rw [h.contender hr he, hA] at hc
      cases hc)
  unfold contenders
  rw [hnone]
  rfl

theorem Awaits.contenders_one {i : Nat} (hA : ∀ k, (A k).isSome = true ↔ k = i) (start : Nat) : contenders s r start = [i] := by
  have hlisted : i ∈ s.insts.map (·.1) := by
    refine Decidable.byContradiction fun hi => ?_
    have hnone : getInst s i = {} := mget_unlisted ({} : Inst) hi
    have hsome := (hA i).2 rfl
    rw [← h.next hr, hnone] at hsome
    cases hsome
  have hone : (s.insts.filter (fun e => (nextCovered e.2 r).isSome)).map (·.1) = [i] :=
    filter_keys_one h.legal.rising (fun e he => by rw [h.contender hr he]; exact hA e.1) hlisted
  unfold contenders
  rw [hone]
  by_cases hs : start ≤ i
  · simp [hs]
  · simp [hs]
    omega

end

/-! ## Turns and passes -/

section
variable {s : State} {A : Nat → Option RingOp} (h : Awaits s A) {r : Nat} (hr : ∀ k q, A k = some q → q.round ≤ r)

theorem without_rounds {i : Nat} (hr : ∀ k q, A k = some q → q.round ≤ r) (k : Nat) (q : RingOp) (hq : without A i k = some q) : q.round ≤ r := by
  unfold without at hq
  split at hq
  · cases hq
  · exact hr k q hq

include h

theorem Awaits.of_deficit (i : Nat) (d : Nat → Nat) : Awaits (modInst s i (fun x => { x with deficit := d x.deficit })) A :=
  h.of_modInst (fun _ hx => hx) (fun _ => rfl)

theorem Awaits.of_granted (i : Nat) : Awaits (granted s i) A :=
  h.of_deficit i (· + schedWeight s.ctl.cfg i * 512)

theorem Awaits.of_taken {i : Nat} {o : RingOp} (ho : A i = some o) : Awaits (taken s i o) (without A i) := by
  have hspent := (h.of_deficit i (· - orderCost s i o)).of_decide1 ho
  unfold taken
  generalize decide1 (modInst s i (fun x => { x with deficit := x.deficit - orderCost s i o })) i o = w at hspent ⊢
  exact hspent.of_deficit i (fun _ => 0)

include hr

/-- A turn whose counter covers the instance's descriptor decides it. -/
theorem Awaits.turn_takes {i : Nat} {o : RingOp} (ho : A i = some o) (hcost : orderCost s i o ≤ (getInst s i).deficit) (n : Nat) :
    takeDescriptors r i (n + 2) s = taken s i o := by
  have hnone := ((h.of_deficit i (· - orderCost s i o)).of_decide1 ho).next (without_rounds hr) i
  rw [show without A i i = none from if_pos rfl] at hnone
  rw [takeDescriptors]
  dsimp only
  rw [h.next hr i, ho]
  dsimp only
  rw [if_pos hcost, takeDescriptors]
  dsimp only
  rw [hnone]
  rfl

/-- A turn whose counter does not cover the instance's descriptor leaves it. -/
theorem Awaits.turn_waits {i : Nat} {o : RingOp} (ho : A i = some o) (hcost : (getInst s i).deficit < orderCost s i o) (n : Nat) :
    takeDescriptors r i (n + 1) s = s := by
  rw [takeDescriptors]
  dsimp only
  rw [h.next hr i, ho]
  exact if_neg (by omega)

theorem Awaits.passes_end (hA : ∀ k, A k = none) (start n : Nat) : drrPasses r start n s = s := by
  cases n with
  | zero => rfl
  | succ n =>
    rw [drrPasses, h.contenders_none hr hA]
    rfl

omit h hr in
theorem drrPass_eq (start : Nat) (s : State) :
    drrPass r start s = (contenders s r start).foldl (fun s i => takeDescriptors r i 2049 (granted s i)) s := rfl

omit h hr in
theorem drrPasses_passes {start i : Nat} {rest : List Nat} (hc : contenders s r start = i :: rest) (n : Nat) :
    drrPasses r start (n + 1) s = drrPasses r start n ((i :: rest).foldl (fun s i => takeDescriptors r i 2049 (granted s i)) s) := by
  rw [drrPasses, hc, if_neg (by simp), drrPass_eq, hc]

end

/-! ## The rounds that are due -/

theorem each_nil (s : State) (f : State → Nat → State) : each [] s f = s := rfl

section
variable {s : State}

theorem dueRounds_none {n : Nat} (h : ∀ e ∈ s.insts, ∀ o ∈ e.2.ops, o.stage = .covered → n ≤ o.round) : dueRounds s n = [] := by
  have hnone : s.insts.flatMap (fun e => (e.2.ops.filter (fun o => o.stage == .covered && decide (o.round < n))).map (·.round)) = [] := by
    refine List.flatMap_eq_nil_iff.2 (fun e he => List.map_eq_nil_iff.2 (List.filter_eq_nil_iff.2 (fun o ho hc => ?_)))
    simp only [Bool.and_eq_true, beq_iff_eq, decide_eq_true_eq] at hc
    exact absurd (h e he o ho hc.1) (by omega)
  unfold dueRounds
  rw [hnone]
  rfl

/-- One round, once, from a list of nothing else. -/
theorem rounds_one {r : Nat} {rs : List Nat} (h : ∀ x ∈ rs, x = r) (hne : rs ≠ []) :
    rs.foldl (fun (acc : List Nat) r => if acc.contains r then acc else acc.filter (· < r) ++ [r] ++ acc.filter (r < ·)) [] = [r] := by
  have hkeep : ∀ xs : List Nat, (∀ x ∈ xs, x = r) →
      xs.foldl (fun (acc : List Nat) r => if acc.contains r then acc else acc.filter (· < r) ++ [r] ++ acc.filter (r < ·)) [r] = [r] := by
    intro xs
    induction xs with
    | nil => exact fun _ => rfl
    | cons x xs ih =>
      intro hx
      rw [List.foldl_cons, hx x List.mem_cons_self, if_pos (by simp)]
      exact ih (fun y hy => hx y (List.mem_cons_of_mem _ hy))
  cases rs with
  | nil => exact absurd rfl hne
  | cons x xs =>
    rw [List.foldl_cons, h x List.mem_cons_self]
    exact hkeep xs (fun y hy => h y (List.mem_cons_of_mem _ hy))

variable {A : Nat → Option RingOp} (hA : Awaits s A) {r n : Nat} (hr : ∀ k q, A k = some q → q.round = r) (hn : r < n)
  {i : Nat} (hi : (A i).isSome = true)
include hA hr hn hi

theorem dueRounds_one : dueRounds s n = [r] := by
  refine rounds_one (fun x hx => ?_) (fun hnil => ?_)
  · obtain ⟨e, he, hx⟩ := List.mem_flatMap.1 hx
    obtain ⟨q, hq, rfl⟩ := List.mem_map.1 hx
    obtain ⟨hin, hc⟩ := List.mem_filter.1 hq
    simp only [Bool.and_eq_true, beq_iff_eq] at hc
    rw [← mget_of_mem ({} : Inst) hA.legal.rising he] at hin
    exact hr e.1 q ((hA.ops e.1 q).1 ⟨hin, hc.1⟩)
  · obtain ⟨o, ho⟩ := Option.isSome_iff_exists.1 hi
    obtain ⟨hin, hst⟩ := (hA.ops i o).2 ho
    have hlisted : i ∈ s.insts.map (·.1) := by
      refine Decidable.byContradiction fun hnot => ?_
      have hnone : getInst s i = {} := mget_unlisted ({} : Inst) hnot
      rw [hnone] at hin
      cases hin
    have hempty := List.map_eq_nil_iff.1 (List.flatMap_eq_nil_iff.1 hnil _ (mem_mget ({} : Inst) hlisted))
    exact absurd (List.filter_eq_nil_iff.1 hempty o hin) (by simp [hst, hr i o ho, hn])

end

/-- The rounds that have ended are that of the descriptors that wait. -/
theorem roundsEnd_one {s : State} {A : Nat → Option RingOp} (hA : Awaits s A) {r : Nat} (hr : ∀ k q, A k = some q → q.round = r)
    (hn : r < s.now / 100) {i : Nat} {rest : List Nat} (hi : (A i).isSome = true) {start : Nat}
    (hstart : start = s.sched.drrStart.elim 0 (fun k => (k + 1) % 4096)) (hc : contenders s r start = i :: rest) :
    roundsEnd s = drrPasses r start (39999999 + 1) { s with sched := { s.sched with drrStart := some i } } := by
  have hround : roundsEnd s = admitRound s r := by
    unfold roundsEnd
    rw [dueRounds_one hA hr hn hi]
    rfl
  rw [hround]
  unfold admitRound
  cases hd : s.sched.drrStart with
  | none =>
    rw [hd] at hstart
    subst hstart
    dsimp only [Option.elim] at hc ⊢
    rw [hc]
  | some k =>
    rw [hd] at hstart
    subst hstart
    dsimp only [Option.elim] at hc ⊢
    rw [hc]

/-! ## One descriptor alone -/

theorem mput_mput {β : Type} (m : Map β) (k : Nat) (v w : β) : mput (mput m k v) k w = mput m k w := by
  induction m with
  | nil => simp [mput]
  | cons e rest ih =>
    obtain ⟨j, x⟩ := e
    by_cases h1 : j < k
    · simp [mput, h1, ih]
    · by_cases h2 : j = k
      · simp [mput, h2]
      · simp [mput, h1, h2]

/-- An instance with an operation, written twice. -/
theorem setInst_setInst (s : State) (i : Nat) {x y : Inst} (hx : x.ops ≠ []) (hy : y.ops ≠ []) : setInst (setInst s i x) i y = setInst s i y := by
  have hx' : x ≠ {} := fun h => hx (by rw [h])
  have hy' : y ≠ {} := fun h => hy (by rw [h])
  unfold setInst mset
  simp only [if_neg hx', if_neg hy', mput_mput]

/-- The state at which a round begins, with some deficit counter of an instance. -/
def withDeficit (s : State) (i d : Nat) : State := modInst s i (fun x => { x with deficit := d })

/-- A state stands for another with the deficit counter of an instance at `d`. -/
structure StandsFor (B : State) (i d : Nat) (s : State) : Prop where
  counter : (getInst s i).deficit = d
  cfg : s.ctl.cfg = B.ctl.cfg
  cost : ∀ o, orderCost s i o = orderCost B i o
  again : ∀ e : Nat → Nat, modInst s i (fun x => { x with deficit := e x.deficit }) = withDeficit B i (e d)

section
variable {B : State} {i : Nat}

theorem StandsFor.self (B : State) (i : Nat) : StandsFor B i (getInst B i).deficit B := ⟨rfl, rfl, fun _ => rfl, fun _ => rfl⟩

variable (hops : (getInst B i).ops ≠ [])
include hops

theorem standsFor_withDeficit (d : Nat) : StandsFor B i d (withDeficit B i d) := by
  have hinst : getInst (withDeficit B i d) i = { getInst B i with deficit := d } := getInst_modInst_same _ _ _
  refine ⟨by rw [hinst], rfl, fun o => orderCost_deficit (modInst_within B i _) hinst o, fun e => ?_⟩
  unfold modInst
  rw [hinst]
  exact setInst_setInst B i hops hops

variable {o : RingOp} {A : Nat → Option RingOp} (hA : ∀ k, (A k).isSome = true ↔ k = i) (ho : A i = some o)
  {r : Nat} (hr : ∀ k q, A k = some q → q.round ≤ r) (hw : 1 ≤ schedWeight B.ctl.cfg i)
include hA ho hr hw

/-- Pass by pass the counter of a lone instance grows until it covers its descriptor, which then is decided. -/
theorem drrPasses_alone (start n : Nat) {d : Nat} {s : State} (h : Awaits s A) (hs : StandsFor B i d s) (hn : 0 < n)
    (hcost : orderCost B i o ≤ d + n * 512) :
    ∃ e, drrPasses r start n s = modInst (decide1 (withDeficit B i e) i o) i (fun x => { x with deficit := 0 }) := by
  induction n generalizing d s with
  | zero => cases hn
  | succ n ih =>
    have hgrant : granted s i = withDeficit B i (d + schedWeight B.ctl.cfg i * 512) := by
      unfold granted
      rw [hs.cfg]
      exact hs.again (· + schedWeight B.ctl.cfg i * 512)
    have hstands := standsFor_withDeficit hops (d + schedWeight B.ctl.cfg i * 512)
    have hawaits : Awaits (granted s i) A := h.of_granted i
    rw [drrPasses_passes (h.contenders_one hr hA start)]
    simp only [List.foldl_cons, List.foldl_nil]
    rw [hgrant] at hawaits ⊢
    by_cases hcovers : orderCost B i o ≤ d + schedWeight B.ctl.cfg i * 512
    · have htakes := hawaits.turn_takes hr ho (by rw [hstands.cost, hstands.counter]; exact hcovers) 2047
      have hempty : ∀ k, without A i k = none := fun k => by
        unfold without
        split
        · rfl
        · next hk => exact Option.not_isSome_iff_eq_none.1 (fun hsome => hk ((hA k).1 hsome))
      rw [htakes, (hawaits.of_taken ho).passes_end (without_rounds hr) hempty]
      refine ⟨d + schedWeight B.ctl.cfg i * 512 - orderCost B i o, ?_⟩
      unfold taken
      rw [hstands.again (· - orderCost (withDeficit B i (d + schedWeight B.ctl.cfg i * 512)) i o), hstands.cost]
    · have hwaits := hawaits.turn_waits hr ho (by rw [hstands.cost, hstands.counter]; omega) 2048
      rw [hwaits]
      exact ih hawaits hstands (by omega) (by omega)

end

/-! ## Two descriptors of two instances -/

/-- The two descriptors that wait. -/
def pairOf (i j : Nat) (o p : RingOp) (k : Nat) : Option RingOp := if k = i then some o else if k = j then some p else none

section
variable {w : State} {i j : Nat} {o p : RingOp} (hij : i ≠ j) (h : Awaits w (pairOf i j o p)) {r : Nat} (ho : o.round = r) (hp : p.round = r)

theorem pairOf_round (ho : o.round = r) (hp : p.round = r) (k : Nat) (q : RingOp) (hq : pairOf i j o p k = some q) : q.round = r := by
  unfold pairOf at hq
  split at hq
  · cases hq
    exact ho
  · split at hq
    · cases hq
      exact hp
    · cases hq

theorem pairOf_first : pairOf i j o p i = some o := if_pos rfl

include hij

theorem pairOf_second : pairOf i j o p j = some p := (if_neg hij.symm).trans (if_pos rfl)

theorem without_first_second : without (pairOf i j o p) i j = some p := (if_neg hij.symm).trans (pairOf_second hij)

theorem without_second_first : without (pairOf i j o p) j i = some o := (if_neg hij).trans pairOf_first

theorem without_second_one (k : Nat) : (without (pairOf i j o p) j k).isSome = true ↔ k = i := by
  unfold without pairOf
  by_cases hk : k = i
  · subst hk
    rw [if_neg hij, if_pos rfl]
    exact ⟨fun _ => rfl, fun _ => rfl⟩
  · rw [if_neg hk]
    refine ⟨fun hs => ?_, fun hs => absurd hs hk⟩
    by_cases hj : k = j
    · rw [if_pos hj] at hs
      cases hs
    · rw [if_neg hj, if_neg hj] at hs
      cases hs

omit hij in
theorem without_both {a b : Nat} (h : ∀ k, k ≠ a → k ≠ b → pairOf i j o p k = none) (k : Nat) : without (without (pairOf i j o p) a) b k = none := by
  unfold without
  split
  · rfl
  · next hb =>
    split
    · rfl
    · next ha => exact h k ha hb

omit hij in
theorem pairOf_others (k : Nat) (hi : k ≠ i) (hj : k ≠ j) : pairOf i j o p k = none := (if_neg hi).trans (if_neg hj)

include h ho hp
variable {start : Nat} (hc : contenders w r start = [i, j]) {x y : State} (hx : x = granted w i)
include hc hx

/-- Each counter covers its descriptor in the first pass. -/
theorem drrPasses_both (h1 : orderCost x i o ≤ (getInst x i).deficit) (hy : y = granted (taken x i o) j)
    (h2 : orderCost y j p ≤ (getInst y j).deficit) (n : Nat) : drrPasses r start (n + 1) w = taken y j p := by
  have hr : ∀ k q, pairOf i j o p k = some q → q.round ≤ r := fun k q hq => Nat.le_of_eq (pairOf_round ho hp k q hq)
  have hxa : Awaits x (pairOf i j o p) := hx ▸ h.of_granted i
  have hya : Awaits y (without (pairOf i j o p) i) := hy ▸ (hxa.of_taken pairOf_first).of_granted j
  rw [drrPasses_passes hc]
  simp only [List.foldl_cons, List.foldl_nil]
  rw [← hx, hxa.turn_takes hr pairOf_first h1 2047, ← hy, hya.turn_takes (without_rounds hr) (without_first_second hij) h2 2047]
  exact (hya.of_taken (without_first_second hij)).passes_end (without_rounds (without_rounds hr)) (without_both pairOf_others) start n

/-- The second instance's counter covers its descriptor in the first pass, the first one's only in the second. -/
theorem drrPasses_later {z : State} (h1 : (getInst x i).deficit < orderCost x i o) (hy : y = granted x j)
    (h2 : orderCost y j p ≤ (getInst y j).deficit) (hz : z = granted (taken y j p) i) (h3 : orderCost z i o ≤ (getInst z i).deficit) (n : Nat) :
    drrPasses r start (n + 2) w = taken z i o := by
  have hr : ∀ k q, pairOf i j o p k = some q → q.round ≤ r := fun k q hq => Nat.le_of_eq (pairOf_round ho hp k q hq)
  have hxa : Awaits x (pairOf i j o p) := hx ▸ h.of_granted i
  have hya : Awaits y (pairOf i j o p) := hy ▸ hxa.of_granted j
  have hta : Awaits (taken y j p) (without (pairOf i j o p) j) := hya.of_taken (pairOf_second hij)
  have hza : Awaits z (without (pairOf i j o p) j) := hz ▸ hta.of_granted i
  rw [drrPasses_passes hc]
  simp only [List.foldl_cons, List.foldl_nil]
  rw [← hx, hxa.turn_waits hr pairOf_first h1 2048, ← hy, hya.turn_takes hr (pairOf_second hij) h2 2047,
    drrPasses_passes (hta.contenders_one (without_rounds hr) (without_second_one hij) start)]
  simp only [List.foldl_cons, List.foldl_nil]
  rw [← hz, hza.turn_takes (without_rounds hr) (without_second_first hij) h3 2047]
  exact (hza.of_taken (without_second_first hij)).passes_end (without_rounds (without_rounds hr))
    (without_both (fun k hj hi => pairOf_others k hi hj)) start n

end

/-! ## The obligation -/

/-- The descriptor that waits alone. -/
def loneOf (i : Nat) (o : RingOp) (k : Nat) : Option RingOp := if k = i then some o else none

section
variable {s : State} (hl : Legal s)
include hl

/-- The undecided descriptors of a legal machine, from what its table lists. -/
theorem awaits_of_listed {A : Nat → Option RingOp} (hall : ∀ e ∈ s.insts, ∀ q ∈ e.2.ops, q.stage = .covered → A e.1 = some q)
    (hhas : ∀ k q, A k = some q → findOp (getInst s k) q.count = some q ∧ q.stage = .covered) : Awaits s A := by
  refine ⟨hl, fun k q => ⟨fun ⟨hq, hst⟩ => ?_, fun hq => ?_⟩⟩
  · have hlisted : k ∈ s.insts.map (·.1) := by
      refine Decidable.byContradiction fun hk => ?_
      have hnone : getInst s k = {} := mget_unlisted ({} : Inst) hk
      rw [hnone] at hq
      cases hq
    exact hall _ (mem_mget ({} : Inst) hlisted) q hq hst
  · obtain ⟨hfind, hst⟩ := hhas k q hq
    exact ⟨List.mem_of_find?_eq_some hfind, hst⟩

theorem legal_drrStart (i : Nat) : Legal { s with sched := { s.sched with drrStart := some i } } :=
  ⟨hl.insts, hl.rising, hl.bays, hl.bayRising, hl.life, hl.otp, hl.step, hl.now⟩

end

/-- Settles O27: a round's passes go on until the counters cover what waits, each decision leaving the others waiting. -/
theorem admissionRoundDecides : Obligations.AdmissionRoundDecides := by
  unfold Obligations.AdmissionRoundDecides
  intro s t hlegal hrun
  have hl : Legal (at_ s t) := (kept_at hlegal.kept t).legal
  have hexec : exec (.admissionRoundEnd t) s = .next (roundsEnd (at_ s t)) :=
    congrArg Host.Outcome.next (clocked_runs (at_ s t) [islHub] roundsEnd (fun k hk => List.mem_singleton.1 hk ▸ hrun))
  rw [hexec]
  refine ⟨fun hnone => ?_, fun i o ho hst hdue hall hw hcost => ?_, fun i j o p w x y hij ho host hp hpst hround hdue hall hc hwdef hx => ?_⟩
  · unfold roundsEnd
    rw [dueRounds_none (s := at_ s t) hnone]
    rfl
  · have hA : Awaits (at_ s t) (loneOf i o) := awaits_of_listed hl
      (fun e he q hq hst => by
        obtain ⟨hi, hqo⟩ := hall e he q hq hst
        rw [hqo]
        exact if_pos hi)
      (fun k q hq => by
        unfold loneOf at hq
        split at hq
        · next hk =>
          cases hq
          exact ⟨hk ▸ ho, hst⟩
        · cases hq)
    have hone : ∀ k, (loneOf i o k).isSome = true ↔ k = i := fun k => by
      unfold loneOf
      split
      · next hk => exact ⟨fun _ => hk, fun _ => rfl⟩
      · next hk => exact ⟨fun hs => (by cases hs), fun h => absurd h hk⟩
    have hself : loneOf i o i = some o := if_pos rfl
    have hr : ∀ k q, loneOf i o k = some q → q.round = o.round := fun k q hq => by
      unfold loneOf at hq
      split at hq
      · cases hq
        rfl
      · cases hq
    have hrle : ∀ k q, loneOf i o k = some q → q.round ≤ o.round := fun k q hq => Nat.le_of_eq (hr k q hq)
    have hB : Awaits { at_ s t with sched := { s.sched with drrStart := some i } } (loneOf i o) := hA.insts (legal_drrStart hl i) rfl
    have hops : (getInst { at_ s t with sched := { s.sched with drrStart := some i } } i).ops ≠ [] :=
      List.ne_nil_of_mem ((hB.ops i o).2 hself).1
    obtain ⟨e, he⟩ := drrPasses_alone hops hone hself hrle hw _ (39999999 + 1) hB (StandsFor.self _ i) (by omega) (by omega)
    rw [roundsEnd_one hA hr hdue (by rw [hself]; rfl) rfl (hA.contenders_one hrle hone _)]
    exact ⟨_, e, congrArg Host.Outcome.next he, rfl⟩
  · have hA : Awaits (at_ s t) (pairOf i j o p) := awaits_of_listed hl
      (fun e he q hq hst => by
        rcases hall e he q hq hst with ⟨hi, hqo⟩ | ⟨hj, hqp⟩
        · rw [hqo, hi]
          exact pairOf_first
        · rw [hqp, hj]
          exact pairOf_second hij)
      (fun k q hq => by
        unfold pairOf at hq
        split at hq
        · next hk =>
          cases hq
          exact ⟨hk ▸ ho, host⟩
        · split at hq
          · next hk =>
            cases hq
            exact ⟨hk ▸ hp, hpst⟩
          · cases hq)
    have hW : Awaits w (pairOf i j o p) := hwdef ▸ hA.insts (legal_drrStart hl i) rfl
    have hcw : contenders w o.round (s.sched.drrStart.elim 0 (fun k => (k + 1) % 4096)) = [i, j] := hwdef ▸ hc
    rw [roundsEnd_one hA (pairOf_round rfl hround.symm) hdue (by rw [pairOf_first]; rfl) rfl hc]
    have hend : ∀ q, drrPasses o.round (s.sched.drrStart.elim 0 (fun k => (k + 1) % 4096)) (39999999 + 1) w = q →
        (Host.Outcome.next (drrPasses o.round (s.sched.drrStart.elim 0 (fun k => (k + 1) % 4096)) (39999999 + 1)
          { at_ s t with sched := { (at_ s t).sched with drrStart := some i } }) : Result) = .next q := fun q hq => by
      rw [← hq, hwdef]
      rfl
    refine ⟨fun h1 hy h2 => hend _ ?_, fun z h1 hy h2 hz h3 => hend _ ?_⟩
    · exact drrPasses_both hij hW rfl hround.symm hcw hx h1 hy h2 39999999
    · exact drrPasses_later hij hW rfl hround.symm hcw hx h1 hy h2 hz h3 39999998

end Sys2Proof.Machine
end

section
/-! SUPPORT. Known-answer tests of the random island, its stop hold, the passes over masked memories and the key clock (R255 to R258, R268,
R270 to R272). -/

namespace Sys2Proof.Machine

-- One proof at a time: the check bounds the compiler's threads.
set_option Elab.async false

open Sys2Proof Sys2Proof.Safety

/-! ## Events that the recorder notes -/

section
variable {s : State} {t : Nat} {islands : List Nat} {f : State → State}

/-- An event of islands whose clocks run, as its step ends. -/
theorem clocked_at (h : ∀ k ∈ islands, islandRuns s k = true) : clocked (at_ s t) islands f = f (at_ s t) :=
  clocked_runs (at_ s t) islands f h

theorem clocked_one {k : Nat} (h : islandRuns s k = true) : clocked (at_ s t) [k] f = f (at_ s t) :=
  clocked_at (fun _ hj => List.mem_singleton.1 hj ▸ h)

theorem clocked_one_stands {k : Nat} (h : islandRuns s k = false) : clocked (at_ s t) [k] f = at_ s t :=
  clocked_stands (at_ s t) [k] f k (List.mem_singleton.2 rfl) h

end

/-! ## Known-answer tests -/

section
variable (s : State)

theorem randomAlarm_latched (cause bay : Nat) : (randomAlarm s cause bay).alarm.random = true := by
  unfold randomAlarm
  dsimp only
  split
  · next h => rw [(recordExempt_within s _ _ _).same (·.alarm), h]
  · rfl

theorem randomAlarm_fresh {cause bay : Nat} (h : s.alarm.random = false) : randomAlarm s cause bay =
    { s with alarm := { s.alarm with random := true, fresh := s.alarm.fresh ++ [(15, Bytes.ofNatLE 1 cause ++ Bytes.ofNatLE 1 bay)] } } := by
  unfold randomAlarm
  exact if_neg (by rw [h]; decide)

theorem chainMask_random (v : Bool) : (chainMask s v).random = { s.random with reqs := (chainMask s v).random.reqs } :=
  congrArg State.random (chainMask_within s v)

/-- However the conditioner stood, it is stopped; what held it, its tests' results and its alarm stand. -/
theorem stopConditioner_stops : (stopConditioner s).random.stopped = true ∧ (stopConditioner s).random.katHold = s.random.katHold ∧
    (stopConditioner s).random.katRunning = s.random.katRunning ∧ (stopConditioner s).random.katLast = s.random.katLast := by
  unfold stopConditioner
  split
  · next h => exact ⟨h, rfl, rfl, rfl⟩
  · rw [chainMask_random, chainMask_random]
    exact ⟨rfl, rfl, rfl, rfl⟩

theorem condKat_passes (h : s.random.katRunning = true) : condKat s true = { s with random := { s.random with
    katRunning := false, katLast := (0x0100 + 2 ^ 16 + 2 ^ 17 * (s.now / 1000)) % 2 ^ 64 } } := by
  unfold condKat
  rw [if_neg (by rw [h]; decide)]
  rfl

/-- The state of a conditioner whose test has failed, before it stops. -/
def condFailed (s : State) : State :=
  { s with random := { s.random with
    katRunning := false, katHold := true, katLast := (0x0100 + 2 ^ 17 * (s.now / 1000)) % 2 ^ 64 } }

theorem condKat_fails (h : s.random.katRunning = true) : condKat s false = randomAlarm (stopConditioner (condFailed s)) 3 0xFF := by
  unfold condKat
  rw [if_neg (by rw [h]; decide)]
  rfl

theorem requestSeed_asked (prio : Nat) (who : Consumer) (need : Nat) : ∃ r ∈ (requestSeed s prio who need).random.reqs, r.who = who := by
  unfold requestSeed
  dsimp only
  split
  · next h =>
    obtain ⟨r, hr, hw⟩ := List.any_eq_true.1 h
    refine ⟨_, List.mem_map.2 ⟨r, hr, rfl⟩, ?_⟩
    rw [if_pos (beq_iff_eq.1 hw)]
    exact beq_iff_eq.1 hw
  · exact ⟨_, List.mem_append.2 (.inr (List.mem_singleton.2 rfl)), rfl⟩

/-- A consumer that waits for nothing yet joins the queue. -/
theorem requestSeed_joins {prio : Nat} {who : Consumer} {need : Nat} (h : s.random.reqs.any (fun r => r.who == who) = false) :
    requestSeed s prio who need = { s with random := { s.random with reqs := s.random.reqs ++ [{ prio := prio, who := who, need := need }] } } := by
  unfold requestSeed
  exact if_neg (by rw [h]; decide)

variable {s} {b : Nat} (hst : (getBay s b).st = 2) (hwhy : (getBay s b).why = .kat)
include hst hwhy

theorem drbgKat_passes : drbgKat s b true = readyBay (katResult s (0x0200 + b) true) b := by
  unfold drbgKat
  exact if_pos ⟨hst, hwhy⟩

theorem drbgKat_fails : drbgKat s b false = drbgFailed (katResult s (0x0200 + b) false) b := by
  unfold drbgKat
  exact if_pos ⟨hst, hwhy⟩

end

section
variable (s : State) (b : Nat)

theorem readyBay_within : Within { bays := true, reqs := true } s (readyBay s b) :=
  ((modBay_within s b _).mono rfl).then (requestSeed_within _ _ _ _)

theorem readyBay_bay : getBay (readyBay s b) b = { getBay s b with why := .fault } :=
  ((requestSeed_within _ _ _ _).same (fun w => getBay w b)).trans (getBay_modBay_same _ _ _)

theorem readyBay_other {k : Nat} (h : k ≠ b) : getBay (readyBay s b) k = getBay s k :=
  ((requestSeed_within _ _ _ _).same (fun w => getBay w k)).trans (getBay_setBay_other _ _ _ _ h)

theorem drbgFailed_bay : getBay (drbgFailed s b) b = { getBay s b with st := 2, why := .katFailed, drbg := {} } :=
  ((randomAlarm_within _ _ _).same (fun w => getBay w b)).trans (getBay_setBay_same s b _)

theorem drbgFailed_other {k : Nat} (h : k ≠ b) : getBay (drbgFailed s b) k = getBay s k :=
  ((randomAlarm_within _ _ _).same (fun w => getBay w k)).trans (getBay_setBay_other s _ _ _ h)

theorem drbgFailed_reqs : (drbgFailed s b).random.reqs = s.random.reqs.filter (fun r => r.who != .inst b) :=
  (randomAlarm_within _ _ _).same (·.random.reqs)

end

/-- Settles O38: each test's end is one case of its result, and the hold one of its time. -/
theorem randomTestsAndHolds : Obligations.RandomTestsAndHolds := by
  unfold Obligations.RandomTestsAndHolds
  intro s t bay
  refine ⟨fun hkat hrun => ⟨?_, ?_⟩, fun hst hwhy hclock => ⟨?_, ?_⟩, fun since hsince hstop hswap halarm hrun => ⟨fun hdue => ?_, fun hearly => ?_⟩⟩
  · have hexec : exec (.conditionerKatDone t true) s = .next (settle (condKat (at_ s t) true)) :=
      congrArg (fun w => Host.Outcome.next (settle w)) (clocked_one hrun)
    rw [hexec, condKat_passes (at_ s t) hkat]
    exact ⟨_, rfl, settle_beside _⟩
  · have hexec : exec (.conditionerKatDone t false) s = .next (settle (condKat (at_ s t) false)) :=
      congrArg (fun w => Host.Outcome.next (settle w)) (clocked_one hrun)
    rw [hexec, condKat_fails (at_ s t) hkat]
    obtain ⟨hstop, hhold, hrunning, hlast⟩ := stopConditioner_stops (condFailed (at_ s t))
    have hwithin := stopConditioner_within (condFailed (at_ s t))
    have hlatched := randomAlarm_latched (stopConditioner (condFailed (at_ s t))) 3 0xFF
    generalize stopConditioner (condFailed (at_ s t)) = w at *
    have halarm := randomAlarm_within w 3 0xFF
    generalize randomAlarm w 3 0xFF = v at *
    have hs := settle_within v
    have hrandom : (settle v).random = w.random := (hs.same (·.random)).trans (halarm.same (·.random))
    refine ⟨settle v, rfl, ?_, ?_, ?_, (hs.same (·.alarm.random)).trans hlatched, ?_, ?_, ?_, ?_⟩
    · rw [hrandom, hrunning]
      rfl
    · rw [hrandom, hstop]
    · rw [hrandom, hhold]
      rfl
    · rw [hrandom, hlast]
      rfl
    · exact (hs.same (·.keys.slots)).trans ((halarm.same (·.keys.slots)).trans (hwithin.same (·.keys.slots)))
    · exact (hs.same (·.vault)).trans ((halarm.same (·.vault)).trans (hwithin.same (·.vault)))
    · exact (hs.same (·.bays)).trans ((halarm.same (·.bays)).trans (hwithin.same (·.bays)))
  · have hexec : exec (.drbgKatDone t bay true) s = .next (settle (readyBay (katResult (at_ s t) (0x0200 + bay.val) true) bay.val)) :=
      congrArg (fun w => Host.Outcome.next (settle w)) ((clocked_one hclock).trans (drbgKat_passes (s := at_ s t) hst hwhy))
    have hbay := readyBay_bay (katResult (at_ s t) (0x0200 + bay.val) true) bay.val
    have hother := fun k hk => readyBay_other (katResult (at_ s t) (0x0200 + bay.val) true) bay.val (k := k) hk
    have hasked := requestSeed_asked (modBay (katResult (at_ s t) (0x0200 + bay.val) true) bay.val (fun x => { x with why := .fault })) 1 (.inst bay.val) 3
    have hwithin := readyBay_within (katResult (at_ s t) (0x0200 + bay.val) true) bay.val
    have hs := settle_within (readyBay (katResult (at_ s t) (0x0200 + bay.val) true) bay.val)
    have hsbay := fun k => hs.same (fun w => getBay w k)
    refine ⟨_, hexec, ?_, (hs.same (·.alarm)).trans (hwithin.same (·.alarm)), ?_, ?_, fun b hb => (hsbay b).trans (hother b hb)⟩
    · rw [hs.same (·.random)]
      exact hasked
    · rw [hsbay, hbay]
      exact hst
    · rw [hsbay, hbay]
  · have hexec : exec (.drbgKatDone t bay false) s = .next (settle (drbgFailed (katResult (at_ s t) (0x0200 + bay.val) false) bay.val)) :=
      congrArg (fun w => Host.Outcome.next (settle w)) ((clocked_one hclock).trans (drbgKat_fails (s := at_ s t) hst hwhy))
    have hbay := drbgFailed_bay (katResult (at_ s t) (0x0200 + bay.val) false) bay.val
    have hother := fun k hk => drbgFailed_other (katResult (at_ s t) (0x0200 + bay.val) false) bay.val (k := k) hk
    have hreqs := drbgFailed_reqs (katResult (at_ s t) (0x0200 + bay.val) false) bay.val
    have halarm : (drbgFailed (katResult (at_ s t) (0x0200 + bay.val) false) bay.val).alarm.random = true := randomAlarm_latched _ _ _
    have hs := settle_within (drbgFailed (katResult (at_ s t) (0x0200 + bay.val) false) bay.val)
    have hsbay := fun k => hs.same (fun w => getBay w k)
    refine ⟨_, hexec, ?_, ?_, ?_, (hs.same (·.alarm.random)).trans halarm, fun r hr => ?_, fun b hb => (hsbay b).trans (hother b hb)⟩
    · rw [hsbay, hbay]
    · rw [hsbay, hbay]
    · rw [hsbay, hbay]
    · rw [hs.same (·.random.reqs), hreqs] at hr
      exact bne_iff_ne.1 (List.mem_filter.1 hr).2
  · have hheld : stopHeld (at_ s t) = randomAlarm (at_ s t) 1 0xFF := by
      unfold stopHeld
      rw [show (at_ s t).random.stopT = some since from hsince]
      exact if_pos ⟨hstop, hswap, hdue, halarm⟩
    have hexec : exec (.stopHoldExpiry t) s = .next (settle (randomAlarm (at_ s t) 1 0xFF)) :=
      congrArg (fun w => Host.Outcome.next (settle w)) ((clocked_one hrun).trans hheld)
    rw [hexec, randomAlarm_fresh (at_ s t) halarm]
    exact ⟨_, rfl, settle_beside _⟩
  · have hheld : stopHeld (at_ s t) = at_ s t := by
      unfold stopHeld
      rw [show (at_ s t).random.stopT = some since from hsince]
      exact if_neg (fun h => absurd h.2.2.1 (by show ¬ since + stopHoldMs s * 10 ^ 6 ≤ (at_ s t).now; omega))
    exact ⟨_, congrArg (fun w => Host.Outcome.next (settle w)) ((clocked_one hrun).trans hheld), settle_beside _⟩

/-! ## Passes over masked memories -/

section
variable (s : State) (v : Bool) (m : Masks)

@[simp] theorem maskOf_setMask : maskOf (setMask s v m) v = m := by cases v <;> rfl

@[simp] theorem maskOf_setMask_not : maskOf (setMask s v m) (!v) = maskOf s (!v) := by cases v <;> rfl

theorem setMask_within : Within { slotMask := true, vaultMask := true } s (setMask s v m) := by
  unfold setMask
  exact .ite rfl rfl

theorem setMask_noted {m : Masks} (h : m.chainNoted = (maskOf s v).chainNoted) :
    ((setMask s v m).keys.slotMask.chainNoted || (setMask s v m).keys.vaultMask.chainNoted) =
      (s.keys.slotMask.chainNoted || s.keys.vaultMask.chainNoted) := by
  cases v
  · exact congrArg (· || s.keys.vaultMask.chainNoted) h
  · exact congrArg (s.keys.slotMask.chainNoted || ·) h

theorem maskOf_of_keys {s w : State} (h : w.keys = s.keys) (v : Bool) : maskOf w v = maskOf s v := by
  unfold maskOf
  rw [h]

theorem idleWord_started : idleWord { m with running := true, passNo := m.passNo + 1 } = idleWord m := rfl

/-- The masks of a memory whose pass has taken the chained word. -/
def chained (m : Masks) : Masks := { deliverMask m (chainWord m) with chainNoted := true }

/-- The state after a pass has taken the chained word, before the record. -/
def withChain (s : State) (v : Bool) : State :=
  { setMask s v (chained (maskOf s v)) with random := { (setMask s v (chained (maskOf s v))).random with
    reqs := (setMask s v (chained (maskOf s v))).random.reqs.filter (fun r => r.who != (if v then .maskVault else .maskSlots)) } }

theorem withChain_masks : maskOf (withChain s v) v = chained (maskOf s v) ∧ maskOf (withChain s v) (!v) = maskOf s (!v) := by
  have h : (withChain s v).keys = (setMask s v (chained (maskOf s v))).keys := rfl
  rw [maskOf_of_keys h, maskOf_of_keys h, maskOf_setMask, maskOf_setMask_not]
  exact ⟨rfl, rfl⟩

/-- A pass that waits takes the chained word; the stop is recorded once for both memories. -/
theorem chainMask_takes (hw : maskWaits (maskOf s v) = true) (hs : s.random.seeded = true) :
    chainMask s v = if (s.keys.slotMask.chainNoted || s.keys.vaultMask.chainNoted) = true then withChain s v
      else record (withChain s v) 0x2114 (src 4 0xFFF) [] := by
  unfold chainMask
  dsimp only
  rw [if_neg (by rw [hw, hs]; decide)]
  rfl

theorem chainMask_masks (hw : maskWaits (maskOf s v) = true) (hs : s.random.seeded = true) :
    maskOf (chainMask s v) v = chained (maskOf s v) ∧ maskOf (chainMask s v) (!v) = maskOf s (!v) := by
  rw [chainMask_takes s v hw hs]
  split
  · exact withChain_masks s v
  · have h : (record (withChain s v) 0x2114 (src 4 0xFFF) []).keys = (withChain s v).keys := (record_within _ _ _ _).same (·.keys)
    rw [maskOf_of_keys h, maskOf_of_keys h]
    exact withChain_masks s v

theorem chainMask_noted (hw : maskWaits (maskOf s v) = true) (hs : s.random.seeded = true)
    (hn : (s.keys.slotMask.chainNoted || s.keys.vaultMask.chainNoted) = true) : (chainMask s v).evr = s.evr := by
  rw [chainMask_takes s v hw hs, if_pos hn]
  exact (setMask_within s v _).same (·.evr)

end

/-! ## The entries that a pass leaves -/

section
variable {m : Masks} {K : Nat}

theorem leaveStale_fresh (m : Masks) (key : Nat) : (leaveStale m key).fresh = m.fresh := by
  unfold leaveStale
  split <;> rfl

/-- An entry stands under its word when a pass leaves it, and when it leaves another. -/
theorem leaveStale_same (key : Nat) : leaveStale m key = { m with stale := (leaveStale m key).stale } := by
  unfold leaveStale
  split <;> rfl

theorem mfind_leaveStale_kept {key : Nat} {e : Bool × Bytes} (h : mfind m.stale K = some e) : mfind (leaveStale m key).stale K = some e := by
  unfold leaveStale
  split
  · exact h
  · next hfree =>
    by_cases hk : K = key
    · subst hk
      rw [h] at hfree
      exact absurd (.inr rfl) hfree
    · exact (mfind_mput_other _ _ _ _ hk).trans h

theorem mfind_leaveStale_self (hf : m.fresh.contains K = false) (h : mfind m.stale K = none) :
    mfind (leaveStale m K).stale K = some (m.phase, liveWord m) := by
  unfold leaveStale
  rw [if_neg (by rw [hf, h]; decide)]
  exact mfind_mput_same _ _ _

/-- What a pass leaves of an entry: the word it stands under. -/
theorem stale_word {e : Bool × Bytes} (h : mfind m.stale K = some e) : entryWord m K = e.2 := by
  unfold entryWord
  rw [h]

theorem fresh_word (hf : m.fresh.contains K = false) (h : mfind m.stale K = none) : entryWord m K = liveWord m := by
  have hphase : entryPhase m K = m.phase := by
    unfold entryPhase
    rw [h]
    exact if_neg (fun hc => by rw [hf] at hc; exact absurd hc.2 (by decide))
  unfold entryWord liveWord
  rw [h, hphase]

/-- The masks after a pass has left some entries. -/
def leavesAll (m : Masks) (ks : List Nat) : Masks := ks.foldl leaveStale m

theorem leavesAll_same (ks : List Nat) : leavesAll m ks = { m with stale := (leavesAll m ks).stale } := by
  unfold leavesAll
  induction ks generalizing m with
  | nil => rfl
  | cons k ks ih =>
    rw [List.foldl_cons]
    generalize hw : ks.foldl leaveStale (leaveStale m k) = w
    have h := ih (m := leaveStale m k)
    rw [hw] at h
    exact h.trans ((congrArg (fun x : Masks => { x with stale := w.stale }) (leaveStale_same k)).trans rfl)

theorem leavesAll_kept {ks : List Nat} {e : Bool × Bytes} (h : mfind m.stale K = some e) : mfind (leavesAll m ks).stale K = some e := by
  unfold leavesAll
  induction ks generalizing m with
  | nil => exact h
  | cons k ks ih => exact ih (mfind_leaveStale_kept h)

/-- Every entry left keeps the word under which it stood. -/
theorem leavesAll_left {ks : List Nat} (hK : K ∈ ks) (hf : m.fresh.contains K = false) :
    ∃ p, mfind (leavesAll m ks).stale K = some (p, entryWord m K) := by
  cases hstale : mfind m.stale K with
  | some e => exact ⟨e.1, (leavesAll_kept hstale).trans (by rw [stale_word hstale])⟩
  | none =>
    rw [fresh_word hf hstale]
    unfold leavesAll
    induction ks generalizing m with
    | nil => cases hK
    | cons k ks ih =>
      by_cases hk : K = k
      · subst hk
        exact ⟨m.phase, leavesAll_kept (ks := ks) (mfind_leaveStale_self hf hstale)⟩
      · have hsame : liveWord (leaveStale m k) = liveWord m := by
          rw [leaveStale_same]
          rfl
        have hnone : mfind (leaveStale m k).stale K = none := by
          unfold leaveStale
          split
          · exact hstale
          · exact (mfind_mput_other _ _ _ _ hk).trans hstale
        rw [List.foldl_cons, ← hsame]
        exact ih ((List.mem_cons.1 hK).resolve_left hk) (by rw [leaveStale_fresh]; exact hf) hnone

end

/-- The masks of a memory once its pass has ended. -/
def passOver (m : Masks) : Masks :=
  if m.phase then { m with phase := false, running := false, fresh := [], w1 := [] } else { m with phase := true, running := false, fresh := [], w0 := [] }

section
variable (m : Masks)

theorem passOver_live : liveWord (passOver m) = idleWord m := by
  unfold passOver liveWord idleWord
  cases m.phase <;> rfl

theorem passOver_idle : idleWord (passOver m) = [] := by
  unfold passOver idleWord
  cases m.phase <;> rfl

theorem passOver_ends : (passOver m).running = false ∧ (passOver m).fresh = [] ∧ (passOver m).stale = m.stale := by
  unfold passOver
  cases m.phase <;> exact ⟨rfl, rfl, rfl⟩

end

/-- Keys of the entries that a pass over slots or vault finds mismatched. -/
def leftKeys (s : State) (v : Bool) : List Nat := (if v then [] else mismatchedEntries s).map (fun e => wordKey e.1 (e.2 * entryWords e.1))

/-- A pass that has its word ends. -/
theorem passEnds_ends (s : State) (v : Bool) (hr : (maskOf s v).running = true) (hi : idleWord (maskOf s v) ≠ []) :
    passEnds s v = setMask (each (if v then [] else mismatchedEntries s) s (fun w e => raiseFabric w islHub islHub e.1)) v
      (passOver (leavesAll (maskOf s v) (leftKeys s v))) := by
  unfold passEnds
  dsimp only
  rw [if_pos ⟨hr, hi⟩]
  unfold passOver leavesAll leftKeys
  rw [List.foldl_map]

/-! ## How a pass begins -/

/-- The masks of a memory whose pass begins. -/
def passStarted (m : Masks) : Masks := { m with running := true, passNo := m.passNo + 1 }

section
variable {s : State} {v : Bool}

theorem passStarts_runs (h : (maskOf s v).running = true) : passStarts s v = s := if_pos h

variable (hr : (maskOf s v).running = false)
include hr

theorem passStarts_main (hp : s.power.pwrGood = true) (hon : s.random.on = true) : passStarts s v =
    if s.random.stopped = true ∧ s.random.seeded = true then chainMask (setMask s v (passStarted (maskOf s v))) v
    else requestSeed (setMask s v (passStarted (maskOf s v))) 2 (if v then .maskVault else .maskSlots) 2 := by
  unfold passStarts
  dsimp only
  rw [if_neg (by rw [hr]; decide), if_neg (by unfold backupInForce; rw [hp]; decide), if_neg (by rw [hon]; decide)]
  rfl

theorem passStarts_backup (hp : s.power.pwrGood = false) (hv : v = true) : passStarts s v =
    { s with free := s.free + 32, keys := { s.keys with
      nlfsr := (freeBytes s 32).1
      vaultMask := deliverMask (passStarted (maskOf s v)) (Bytes.xor (Bytes.fit 32 (liveWord (maskOf s v))) (freeBytes s 32).1) } } := by
  subst hv
  unfold passStarts
  dsimp only
  rw [if_neg (by rw [hr]; decide), if_pos (by unfold backupInForce; rw [hp]; decide)]
  rfl

end

/-- Settles O39: a pass begins by power and conditioner, and ends entry by entry. -/
theorem masksPassAndKeyClock : Obligations.MasksPassAndKeyClock := by
  unfold Obligations.MasksPassAndKeyClock
  rintro s t v m m' rfl rfl
  refine ⟨fun hclock => ?_, fun h => congrArg Host.Outcome.next (if_pos h),
    fun h => congrArg Host.Outcome.next (if_neg (by rw [show (at_ s t).vault.rootAbsent = false from h]; decide))⟩
  have hruns : ∀ k ∈ maskIsland s v, islandRuns s k = true := List.all_eq_true.1 hclock
  have hstart : exec (.remaskPassStart t v) s = .next (passStarts (at_ s t) v) := congrArg Host.Outcome.next (clocked_at hruns)
  have hend : exec (.remaskPassEnd t v) s = .next (passEnds (at_ s t) v) := congrArg Host.Outcome.next (clocked_at hruns)
  have hmask : maskOf (at_ s t) v = maskOf s v := maskOf_of_keys rfl v
  rw [hstart, hend]
  refine ⟨fun hr => ?_, fun hr hp hon => ⟨fun hnot hfree => ?_, fun hstop hseeded hidle => ?_⟩, fun hr hp hv => ?_, fun hr hidle hleft => ?_,
    fun hr hidle hv => ?_, fun hno => ?_⟩
  · rw [passStarts_runs (s := at_ s t) (hmask ▸ hr)]
  · rw [passStarts_main (s := at_ s t) (hmask ▸ hr) hp hon, if_neg (fun h => by
      rcases hnot with hn | hn
      · exact absurd (h.1.symm.trans hn) (by decide)
      · exact absurd (h.2.symm.trans hn) (by decide)), hmask]
    have hreqs : (setMask (at_ s t) v (passStarted (maskOf s v))).random = s.random := (setMask_within _ v _).same (·.random)
    rw [requestSeed_joins _ (by rw [hreqs]; exact hfree), hreqs]
    rfl
  · rw [passStarts_main (s := at_ s t) (hmask ▸ hr) hp hon, if_pos ⟨hstop, hseeded⟩, hmask]
    have hset := maskOf_setMask (at_ s t) v (passStarted (maskOf s v))
    have hnot := maskOf_setMask_not (at_ s t) v (passStarted (maskOf s v))
    have hframe := setMask_within (at_ s t) v (passStarted (maskOf s v))
    have hnoted := setMask_noted (at_ s t) v (m := passStarted (maskOf s v)) (congrArg Masks.chainNoted hmask).symm
    generalize setMask (at_ s t) v (passStarted (maskOf s v)) = w at hset hnot hframe hnoted ⊢
    have hw : maskWaits (maskOf w v) = true := by
      rw [hset]
      unfold maskWaits
      rw [show idleWord (passStarted (maskOf s v)) = [] from hidle]
      rfl
    have hs : w.random.seeded = true := (hframe.same (·.random.seeded)).trans hseeded
    obtain ⟨h1, h2⟩ := chainMask_masks w v hw hs
    have hchain := chainMask_within w v
    refine ⟨_, rfl, h1.trans (by rw [hset]; rfl), h2.trans hnot, fun hn => ?_, (hchain.same (·.keys.slots)).trans (hframe.same (·.keys.slots)),
      (hchain.same (·.vault)).trans (hframe.same (·.vault)), (hchain.same (·.bays)).trans (hframe.same (·.bays))⟩
    refine (chainMask_noted w v hw hs ?_).trans (hframe.same (·.evr))
    rw [hnoted]
    exact Bool.or_eq_true_iff.2 hn
  · exact ⟨_, congrArg Host.Outcome.next (passStarts_backup (s := at_ s t) (hmask ▸ hr) hp hv)⟩
  · have hnone : (if v then [] else mismatchedEntries (at_ s t)) = [] := by
      rcases hleft with hv | hn
      · exact if_pos hv
      · exact (ite_congr rfl (fun _ => rfl) (fun _ => hn)).trans (ite_self _)
    have hstale := passEnds_ends (at_ s t) v (hmask ▸ hr) (hmask ▸ hidle)
    unfold leftKeys at hstale
    rw [hnone, hmask] at hstale
    rw [hstale]
    refine ⟨_, rfl, ?_⟩
    rw [maskOf_setMask]
    exact ⟨passOver_live _, passOver_idle _, (passOver_ends _).1, (passOver_ends _).2.1, rfl⟩
  · subst hv
    have hpass := passEnds_ends (at_ s t) false (hmask ▸ hr) (hmask ▸ hidle)
    rw [hmask] at hpass
    have hraise : Within { modes := true, alarm := true, cnt := true, evr := true } (at_ s t)
        (each (mismatchedEntries s) (at_ s t) (fun w e => raiseFabric w islHub islHub e.1)) := .each (fun w e => raiseFabric_within w _ _ _) _ _
    change passEnds (at_ s t) false = setMask (each (mismatchedEntries s) (at_ s t) (fun w e => raiseFabric w islHub islHub e.1)) false _ at hpass
    generalize each (mismatchedEntries s) (at_ s t) (fun w e => raiseFabric w islHub islHub e.1) = w at hpass hraise ⊢
    rw [hpass]
    have hset := setMask_within w false (passOver (leavesAll (maskOf s false) (leftKeys (at_ s t) false)))
    refine ⟨_, rfl, ?_⟩
    rw [maskOf_setMask]
    refine ⟨?_, passOver_idle _, (hset.same (·.bad)).trans (hraise.same (·.bad)), (hset.same (·.keys.slots)).trans (hraise.same (·.keys.slots)),
      fun e he K hK hfresh => ?_, rfl⟩
    · rw [passOver_live, leavesAll_same]
      rfl
    · have hleft : K ∈ leftKeys (at_ s t) false := List.mem_map.2 ⟨e, he, hK.symm⟩
      obtain ⟨p, hp⟩ := leavesAll_left hleft hfresh
      exact stale_word (e := (p, entryWord (maskOf s false) K)) ((congrArg (fun q => mfind q K) (passOver_ends _).2.2).trans hp)
  · have hsame : passEnds (at_ s t) v = at_ s t := by
      unfold passEnds
      refine if_neg (fun h => ?_)
      rw [hmask] at h
      rcases hno with hn | hn
      · exact absurd (hn.symm.trans h.1) (by decide)
      · exact h.2 hn
    rw [hsame]

end Sys2Proof.Machine
end

section
/-! SUPPORT. Noise channels, their tests and failures (R240 to R245, R260, R261). -/

namespace Sys2Proof.Machine

-- One proof at a time: the check bounds the compiler's threads.
set_option Elab.async false

open Sys2Proof Sys2Proof.Safety

/-! ## A channel fails -/

/-- A channel after a failure at device time `now`. -/
def chanFailed (x : Chan) (now : Nat) : Chan :=
  { x with st := if 3 ≤ x.failsStart + 1 then 2 else 1, testing := false, fails := x.fails + 1, failsStart := x.failsStart + 1, failT := now
           windows := x.windows + 1, run := none, held := none }

/-- What the failure of a channel may write. -/
def failScope : Scope := { conditionerScope with chans := true, alarm := true }

section
variable (s : State) (n test : Nat)

/-- The channels after one has failed, before the conditioner is looked at. -/
def failNoted (s : State) (n test : Nat) : State :=
  record { modChan s n (fun x => chanFailed x s.now) with random := { (modChan s n (fun x => chanFailed x s.now)).random with
    failTs := (s.random.failTs.filter (fun t => decide (s.now < t + 600 * 10 ^ 9))) ++ [s.now] } } 0x2113 (src 4 n)
    (Bytes.ofNatLE 1 (test + 128 * bit (getChan s n).testing) ++ Bytes.ofNatLE 8 ((getChan s n).windows + 1))

theorem failChannel_eq : failChannel s n test = failuresAlarm (checkConditioner (failNoted s n test)) := rfl

theorem failNoted_within : Within { chans := true, random := true, evr := true } s (failNoted s n test) := by
  unfold failNoted
  refine Within.then (u := { modChan s n (fun x => chanFailed x s.now) with random := { (modChan s n (fun x => chanFailed x s.now)).random with
    failTs := (s.random.failTs.filter (fun t => decide (s.now < t + 600 * 10 ^ 9))) ++ [s.now] } }) rfl (record_within _ _ _ _)

theorem failChannel_within : Within failScope s (failChannel s n test) := by
  rw [failChannel_eq]
  exact (((failNoted_within s n test).mono rfl).then (checkConditioner_within _) (by rfl)).then (failuresAlarm_within _) (by rfl)

theorem failNoted_chan : getChan (failNoted s n test) n = chanFailed (getChan s n) s.now :=
  ((record_within _ _ _ _).same (fun w => getChan w n)).trans (mget_mset_same _ _ _ _)

theorem failNoted_other {k : Nat} (h : k ≠ n) : getChan (failNoted s n test) k = getChan s k :=
  ((record_within _ _ _ _).same (fun w => getChan w k)).trans (mget_mset_other _ _ _ _ _ h)

/-- The conditioner and the alarm leave the channels. -/
theorem failChannel_chans (k : Nat) : getChan (failChannel s n test) k = getChan (failNoted s n test) k := by
  rw [failChannel_eq]
  exact ((failuresAlarm_within _).same (fun w => getChan w k)).trans ((checkConditioner_within _).same (fun w => getChan w k))

theorem failChannel_chan : getChan (failChannel s n test) n = chanFailed (getChan s n) s.now :=
  (failChannel_chans s n test n).trans (failNoted_chan s n test)

theorem failChannel_other {k : Nat} (h : k ≠ n) : getChan (failChannel s n test) k = getChan s k :=
  (failChannel_chans s n test k).trans (failNoted_other s n test h)

theorem checkConditioner_windows (w : State) : (checkConditioner w).random.windows = w.random.windows ∨ (checkConditioner w).random.windows = [] := by
  unfold checkConditioner stopConditioner
  split
  · split
    · exact .inl rfl
    · rw [chainMask_random, chainMask_random]
      exact .inr rfl
  · exact .inl rfl

theorem failChannel_windows {y : Bytes} (h : y ∈ (failChannel s n test).random.windows) : y ∈ s.random.windows := by
  have hnoted : (failNoted s n test).random.windows = s.random.windows := (failNoted_within s n test).same (·.random.windows)
  rw [failChannel_eq, (failuresAlarm_within _).same (·.random.windows)] at h
  rcases checkConditioner_windows (failNoted s n test) with he | he
  · rwa [he, hnoted] at h
  · rw [he] at h
    cases h

end

/-! ## Windows -/

/-- A test that a window passes does not fail. -/
theorem passes_neg {b : Bool} (h : b = false) : ¬ b = true := by
  rw [h]
  decide

section
variable {s : State} {n : Nat} {w : Bytes} (hon : s.random.on = true)
include hon

theorem windowEnds_captured (hst : (getChan s n).st = 3) : windowEnds s n w =
    { modChan s n (fun x => windowOver x w) with random := { (modChan s n (fun x => windowOver x w)).random with
      captured := (s.random.captured ++ w ++ [healthResult s (getChan s n) w]).drop
        ((s.random.captured ++ w ++ [healthResult s (getChan s n) w]).length - 65536) } } := by
  unfold windowEnds
  dsimp only
  rw [if_neg (by rw [hon]; decide), if_pos hst]

theorem windowEnds_unhealthy (hst : (getChan s n).st ≠ 3) (h : (getChan s n).st ≠ 0 ∨ (getChan s n).testing = true) :
    windowEnds s n w = modChan s n (fun x => { x with windows := x.windows + 1, held := none }) := by
  have hh : chanHealthy s n = false := by
    unfold chanHealthy
    rcases h with h | h
    · simp [h]
    · simp [h]
  unfold windowEnds
  dsimp only
  rw [if_neg (by rw [hon]; decide), if_neg hst, if_pos hh]

variable (hst : (getChan s n).st = 0) (htest : (getChan s n).testing = false)
include hst htest

theorem windowEnds_healthy : windowEnds s n w =
    if rctFails s (getChan s n) w then failChannel s n 1 else if aptFails s (getChan s n) w then failChannel s n 2
    else if s.random.stopped then modChan s n (fun x => windowOver x w)
    else { modChan s n (fun x => windowOver x w) with random := { (modChan s n (fun x => windowOver x w)).random with
      windows := s.random.windows ++ [w] } } := by
  have hh : ¬ chanHealthy s n = false := by
    unfold chanHealthy
    simp [hon, hst, htest]
  unfold windowEnds
  dsimp only
  rw [if_neg (by rw [hon]; decide), if_neg (by omega), if_neg hh]
  rfl

theorem windowEnds_passes (hr : rctFails s (getChan s n) w = false) (ha : aptFails s (getChan s n) w = false) : windowEnds s n w =
    if s.random.stopped then modChan s n (fun x => windowOver x w)
    else { modChan s n (fun x => windowOver x w) with random := { (modChan s n (fun x => windowOver x w)).random with
      windows := s.random.windows ++ [w] } } := by
  rw [windowEnds_healthy hon hst htest, if_neg (passes_neg hr), if_neg (passes_neg ha)]

theorem windowEnds_fails (h : rctFails s (getChan s n) w = true ∨ aptFails s (getChan s n) w = true) :
    ∃ test, windowEnds s n w = failChannel s n test := by
  rw [windowEnds_healthy hon hst htest]
  by_cases hr : rctFails s (getChan s n) w = true
  · exact ⟨1, if_pos hr⟩
  · exact ⟨2, (if_neg hr).trans (if_pos (h.resolve_left hr))⟩

end

/-! ## Start-up tests -/

/-- A channel that has passed its start-up test. -/
def joined (s : State) (n : Nat) : State :=
  modChan s n (fun x => { x with st := 0, testing := false, windows := x.windows + 1, run := none, held := none })

section
variable {s : State} {n : Nat} {w : Bytes}

theorem startupTestEnds_none (h : (getChan s n).testing = false) : startupTestEnds s n w = s := by
  unfold startupTestEnds
  exact if_pos (.inr h)

theorem startupTestEnds_tested (hon : s.random.on = true) (h : (getChan s n).testing = true) : startupTestEnds s n w =
    if rctFails s { getChan s n with run := none } w then failChannel s n 1
    else if aptFails s { getChan s n with run := none } w then failChannel s n 2 else restartConditioner (joined s n) := by
  unfold startupTestEnds
  dsimp only
  rw [if_neg (by rw [hon, h]; decide)]
  rfl

theorem startupTestEnds_passes (hon : s.random.on = true) (h : (getChan s n).testing = true)
    (hr : rctFails s { getChan s n with run := none } w = false) (ha : aptFails s { getChan s n with run := none } w = false) :
    startupTestEnds s n w = restartConditioner (joined s n) := by
  rw [startupTestEnds_tested hon h, if_neg (passes_neg hr), if_neg (passes_neg ha)]

theorem startupTestEnds_fails (hon : s.random.on = true) (h : (getChan s n).testing = true)
    (hf : rctFails s { getChan s n with run := none } w = true ∨ aptFails s { getChan s n with run := none } w = true) :
    ∃ test, startupTestEnds s n w = failChannel s n test := by
  rw [startupTestEnds_tested hon h]
  by_cases hr : rctFails s { getChan s n with run := none } w = true
  · exact ⟨1, if_pos hr⟩
  · exact ⟨2, (if_neg hr).trans (if_pos (hf.resolve_left hr))⟩

theorem restartConditioner_restarts (hs : s.random.stopped = true) (hon : s.random.on = true) (hm : minHealthy s ≤ channelsLeft s)
    (hk : s.random.katHold = false) (hw : s.random.swapHold = false) : (restartConditioner s).random.stopped = false := by
  unfold restartConditioner
  rw [if_pos ⟨hs, hon, hm, hk, hw⟩]

end

/-- Settles O36: a window's end and a channel's failure are told apart by the channel's state and its tests. -/
theorem channelsAreTested : Obligations.ChannelsAreTested := by
  unfold Obligations.ChannelsAreTested
  rintro s t ch w x rfl hon hrun
  have hwindow : exec (.noiseWindowEnd t ch w) s = .next (settle (windowEnds (at_ s t) ch.val w)) :=
    congrArg (fun w => Host.Outcome.next (settle w)) (clocked_one hrun)
  have hstartup : exec (.channelStartupTestEnd t ch w) s = .next (settle (startupTestEnds (at_ s t) ch.val w)) :=
    congrArg (fun w => Host.Outcome.next (settle w)) (clocked_one hrun)
  have hchan : ∀ v k, getChan (settle v) k = getChan v k := fun v k => (settle_within v).same (fun w => getChan w k)
  have hrandom : ∀ v, (settle v).random = v.random := fun v => (settle_within v).same (·.random)
  have hfail : ∀ test, (getChan (failChannel (at_ s t) ch.val test) ch.val) = chanFailed (getChan s ch.val) (at_ s t).now :=
    fun test => failChannel_chan (at_ s t) ch.val test
  have hthird : ∀ k : Nat, (if 3 ≤ k + 1 then 2 else 1) = (if 2 ≤ k then 2 else 1) := fun k =>
    ite_congr (propext (by omega)) (fun _ => rfl) (fun _ => rfl)
  rw [hwindow, hstartup]
  refine ⟨fun hst htest hr ha => ?_, fun hst htest hf => ?_, fun hst => ?_, fun h3 hst => ?_, fun apt hst => ?_,
    fun hst htest => ⟨fun hdue => ?_, fun hearly => ?_⟩, fun htest y hy => ?_, fun htest => ?_⟩
  · rw [windowEnds_passes (s := at_ s t) hon hst htest hr ha]
    by_cases hs : s.random.stopped = true
    · rw [if_pos (show (at_ s t).random.stopped = true from hs), if_pos hs]
      refine ⟨_, rfl, ?_, ?_, fun k hk => ?_, ?_⟩
      · rw [hrandom]
        rfl
      · rw [hchan]
        exact getChan_modChan_same (at_ s t) ch.val _
      · rw [hchan]
        exact getChan_modChan_other (at_ s t) ch.val k _ hk
      · rw [hrandom]
        exact settle_beside _
    · rw [if_neg (show ¬ (at_ s t).random.stopped = true from hs), if_neg hs]
      refine ⟨_, rfl, ?_, ?_, fun k hk => ?_, ?_⟩
      · rw [hrandom]
        rfl
      · rw [hchan]
        exact mget_mset_same _ _ _ _
      · rw [hchan]
        exact mget_mset_other _ _ _ _ _ hk
      · rw [hrandom]
        exact settle_beside _
  · obtain ⟨test, he⟩ := windowEnds_fails (s := at_ s t) (w := w) hon hst htest hf
    rw [he]
    refine ⟨_, rfl, ?_, ?_, fun y hy => ?_⟩
    · rw [hchan, hfail]
      exact hthird _
    · rw [hchan, hfail]
      rfl
    · rw [hrandom] at hy
      exact failChannel_windows (at_ s t) ch.val test hy
  · rw [windowEnds_captured (s := at_ s t) hon hst]
    refine ⟨_, rfl, ?_, ?_, ?_⟩
    · have hresult : healthResult (at_ s t) (getChan (at_ s t) ch.val) w = healthResult s (getChan s ch.val) w := rfl
      rw [hrandom, hresult, at__random]
    · rw [hrandom]
      rfl
    · rw [hrandom]
      exact settle_beside _
  · rw [windowEnds_unhealthy (s := at_ s t) hon h3 hst]
    refine ⟨_, rfl, ?_, ?_, ?_⟩
    · rw [hchan]
      exact getChan_modChan_same (at_ s t) ch.val _
    · rw [hrandom]
      rfl
    · rw [hrandom]
      exact settle_beside _
  · have hexec : exec (.channelFail t ch apt) s = .next (settle (failChannel (at_ s t) ch.val (if apt then 2 else 1))) := by
      refine congrArg (fun w => Host.Outcome.next (settle w)) ((clocked_one hrun).trans ?_)
      unfold channelFails
      refine if_pos ⟨hon, ?_, hst.imp_right And.right⟩
      rcases hst with h | h
      · exact Nat.le_trans (Nat.le_of_eq (show (getChan (at_ s t) ch.val).st = 0 from h)) (by decide)
      · exact Nat.le_of_eq h.1
    have hw := failChannel_within (at_ s t) ch.val (if apt then 2 else 1)
    have hs := settle_within (failChannel (at_ s t) ch.val (if apt then 2 else 1))
    refine ⟨_, hexec, ?_, ?_, ?_, ?_, fun k hk => ?_, (hs.same (·.keys.slots)).trans (hw.same (·.keys.slots)),
      (hs.same (·.vault)).trans (hw.same (·.vault)), (hs.same (·.bays)).trans (hw.same (·.bays)), (hs.same (·.insts)).trans (hw.same (·.insts))⟩
    · rw [hchan, hfail]
      exact hthird _
    · rw [hchan, hfail]
      rfl
    · rw [hchan, hfail]
      rfl
    · rw [hchan, hfail]
      rfl
    · rw [hchan]
      exact failChannel_other (at_ s t) ch.val _ hk
  · have hexec : exec (.channelRetest t ch) s = .next (modChan (at_ s t) ch.val (fun x => { x with testing := true, held := none })) :=
      congrArg Host.Outcome.next ((clocked_one hrun).trans (if_pos ⟨hon, hst, htest, hdue⟩))
    exact ⟨_, hexec, getChan_modChan_same (at_ s t) ch.val _, fun k hk => getChan_modChan_other (at_ s t) ch.val k _ hk, rfl⟩
  · exact congrArg Host.Outcome.next ((clocked_one hrun).trans (if_neg (fun h => by
      have hdue : (getChan s ch.val).failT + 10 ^ 9 ≤ (at_ s t).now := h.2.2.2
      omega)))
  · subst hy
    refine ⟨fun hr ha => ?_, fun hf => ?_⟩
    · rw [startupTestEnds_passes (s := at_ s t) hon htest hr ha]
      have hw := restartConditioner_within (joined (at_ s t) ch.val)
      have hread : ∀ k, getChan (settle (restartConditioner (joined (at_ s t) ch.val))) k = getChan (joined (at_ s t) ch.val) k := fun k =>
        (hchan _ k).trans (hw.same (fun w => getChan w k))
      have hsame : getChan (joined (at_ s t) ch.val) ch.val = _ := getChan_modChan_same (at_ s t) ch.val _
      refine ⟨_, rfl, ?_, ?_, fun k hk => ?_, fun hstop hmin hkat hswap => ?_⟩
      · rw [hread, hsame]
      · rw [hread, hsame]
      · rw [hread]
        exact getChan_modChan_other (at_ s t) ch.val k _ hk
      · rw [hrandom]
        have hleft : channelsLeft (settle (restartConditioner (joined (at_ s t) ch.val))) = channelsLeft (joined (at_ s t) ch.val) := by
          unfold channelsLeft
          simp only [hread]
        rw [hleft] at hmin
        exact restartConditioner_restarts hstop hon hmin hkat hswap
    · obtain ⟨test, he⟩ := startupTestEnds_fails (s := at_ s t) (w := w) hon htest hf
      rw [he]
      refine ⟨_, rfl, ?_⟩
      rw [hchan, hfail]
      exact hthird _
  · rw [startupTestEnds_none (s := at_ s t) htest]
    exact ⟨_, rfl, settle_beside _⟩

end Sys2Proof.Machine
end

section
/-! SUPPORT. Conditioned blocks, their consumers, and the bays' generators (R244, R246 to R252, R263). -/

namespace Sys2Proof.Machine

-- One proof at a time: the check bounds the compiler's threads.
set_option Elab.async false

open Sys2Proof Sys2Proof.Safety

/-! ## The end of SEEDING -/

/-- The end of SEEDING tells whether it is in effect, and nothing else. -/
theorem seedingCheck_frame (s : State) : seedingCheck s = { s with random := { s.random with
    awaiting := (seedingCheck s).random.awaiting, seeded := (seedingCheck s).random.seeded } } := by
  unfold seedingCheck
  split <;> rfl

theorem seedingCheck_within (s : State) : Within { random := true } s (seedingCheck s) := by
  unfold seedingCheck
  exact .ite rfl (.refl s)

/-- What the end of a step that may end SEEDING leaves. -/
theorem settle_seedingCheck (w : State) : (settle (seedingCheck w)).random.windows = w.random.windows ∧
    (settle (seedingCheck w)).random.blocks = w.random.blocks ∧ (settle (seedingCheck w)).random.reqs = w.random.reqs ∧
    (settle (seedingCheck w)).keys = w.keys ∧ (settle (seedingCheck w)).bays = w.bays ∧ (settle (seedingCheck w)).vault = w.vault ∧
    (settle (seedingCheck w)).insts = w.insts := by
  have h := settle_within (seedingCheck w)
  have hrandom : (settle (seedingCheck w)).random = (seedingCheck w).random := h.same (·.random)
  rw [hrandom, h.same (·.keys), h.same (·.bays), h.same (·.vault), h.same (·.insts), seedingCheck_frame]
  exact ⟨rfl, rfl, rfl, rfl, rfl, rfl, rfl⟩

/-! ## Blocks and their consumers -/

/-- The random island as a block leaves it: its oldest window is gone, and the block counts. -/
def blockTaken (s : State) (ws : List Bytes) : State := { s with random := { s.random with windows := ws, blocks := s.random.blocks + 1 } }

/-- A request has all its blocks and leaves the queue. -/
def requestServed (s : State) (r : SeedReq) : State :=
  { s with random := { s.random with reqs := s.random.reqs.filter (fun q => q.who != r.who) } }

section
variable (s : State) (who : Consumer) (seed : Bytes)

theorem serveSeed_queue : (serveSeed s who seed).random.windows = s.random.windows ∧ (serveSeed s who seed).random.blocks = s.random.blocks ∧
    (serveSeed s who seed).random.reqs = s.random.reqs := by
  cases who with
  | jointNonce j =>
    unfold serveSeed
    dsimp only
    split <;> exact ⟨rfl, rfl, rfl⟩
  | _ => exact ⟨rfl, rfl, rfl⟩

end

section
variable {s : State} {x : Bytes} {ws : List Bytes} {r : SeedReq}

theorem blockDone_delivers (hw : s.random.windows = x :: ws) (hon : s.random.on = true) (hs : s.random.stopped = false)
    (hk : s.random.katRunning = false) : blockDone s = seedingCheck (deliverBlock (blockTaken s ws) (conditionedBlock x)) := by
  unfold blockDone
  rw [hw]
  exact if_pos ⟨hon, hs, hk⟩

variable (hn : nextRequest s = some r)
include hn

theorem deliverBlock_goes_on {b : Bytes} (h : r.got.length + 1 < r.need) : deliverBlock s b = { s with random := { s.random with
    reqs := s.random.reqs.map (fun q => if q.who = r.who then { q with got := r.got ++ [b] } else q) } } := by
  unfold deliverBlock
  rw [hn]
  exact if_pos (by rw [List.length_append]; exact h)

theorem deliverBlock_serves {b : Bytes} (h : r.need ≤ r.got.length + 1) :
    deliverBlock s b = serveSeed (requestServed s r) r.who (r.got ++ [b]).flatten := by
  unfold deliverBlock
  rw [hn]
  refine if_neg ?_
  rw [List.length_append]
  exact Nat.not_lt.2 h

end

/-! ## Generators of bays -/

section
variable (s : State) (b : Nat)

theorem getBay_modDrbg (f : Drbg → Drbg) : getBay (modDrbg s b f) b = { getBay s b with drbg := f (getBay s b).drbg } :=
  getBay_modBay_same _ _ _

theorem getBay_modDrbg_other {k : Nat} (f : Drbg → Drbg) (h : k ≠ b) : getBay (modDrbg s b f) k = getBay s k := getBay_setBay_other _ _ _ _ h

theorem drbgOf_modDrbg (f : Drbg → Drbg) : drbgOf (modDrbg s b f) b = f (drbgOf s b) := congrArg Bay.drbg (getBay_modDrbg s b f)

/-- A generator differs from another in the calls for its reseed alone. -/
def Flagged (d e : Drbg) : Prop := e = { d with pending := e.pending, owed := e.owed }

theorem askReseed_flags (newly : Bool) : Flagged (drbgOf s b) (drbgOf (askReseed s b newly) b) := by
  have hask : ∀ w prio, drbgOf (if (drbgOf s b).seed.isNone then requestSeed w prio (.reseed b) 2 else w) b = drbgOf w b := fun w prio => by
    split
    · exact (requestSeed_within w _ _ _).same (fun w => drbgOf w b)
    · rfl
  unfold askReseed
  dsimp only
  split
  · rw [hask, drbgOf_modDrbg]
    rfl
  · split
    · rw [hask, drbgOf_modDrbg]
      rfl
    · rfl

theorem askReseed_other (newly : Bool) {k : Nat} (h : k ≠ b) : getBay (askReseed s b newly) k = getBay s k := by
  have hask : ∀ w prio, getBay (if (drbgOf s b).seed.isNone then requestSeed w prio (.reseed b) 2 else w) k = getBay w k := fun w prio => by
    split
    · exact (requestSeed_within w _ _ _).same (fun w => getBay w k)
    · rfl
  unfold askReseed
  dsimp only
  split
  · rw [hask, getBay_modDrbg_other _ _ _ h]
  · split
    · rw [hask, getBay_modDrbg_other _ _ _ h]
    · rfl

/-- The state of a generator after a call. -/
theorem generate_drbg (n : Nat) : (generate s b n).1 = (Modes.ctrGenerate { key := (drbgOf s b).key, v := (drbgOf s b).v } n).1 ∧
    Flagged { drbgOf s b with
      key := (Modes.ctrGenerate { key := (drbgOf s b).key, v := (drbgOf s b).v } n).2.key
      v := (Modes.ctrGenerate { key := (drbgOf s b).key, v := (drbgOf s b).v } n).2.v, calls := (drbgOf s b).calls + 1 }
      (drbgOf (generate s b n).2 b) := by
  refine ⟨rfl, ?_⟩
  have h := askReseed_flags (modDrbg (modDrbg s b (fun d => { d with
    key := (Modes.ctrGenerate { key := (drbgOf s b).key, v := (drbgOf s b).v } n).2.key
    v := (Modes.ctrGenerate { key := (drbgOf s b).key, v := (drbgOf s b).v } n).2.v })) b (fun d => { d with calls := d.calls + 1 })) b true
  rw [drbgOf_modDrbg, drbgOf_modDrbg] at h
  exact h

theorem generate_other (n : Nat) {k : Nat} (h : k ≠ b) : getBay (generate s b n).2 k = getBay s k :=
  (askReseed_other _ b true h).trans ((getBay_modDrbg_other _ b _ h).trans (getBay_modDrbg_other s b _ h))

theorem refillReserve_drbg : (drbgOf (refillReserve s b) b).reserve =
      (drbgOf s b).reserve ++ (Modes.ctrGenerate { key := (drbgOf s b).key, v := (drbgOf s b).v } 2048).1 ∧
    (drbgOf (refillReserve s b) b).calls = (drbgOf s b).calls + 1 ∧ (drbgOf (refillReserve s b) b).seed = (drbgOf s b).seed := by
  obtain ⟨hout, hflag⟩ := generate_drbg s b 2048
  have hall : drbgOf (refillReserve s b) b = { drbgOf (generate s b 2048).2 b with
      reserve := (drbgOf (generate s b 2048).2 b).reserve ++ (generate s b 2048).1, refill := false
      filled := (drbgOf (generate s b 2048).2 b).filled ||
        decide (8192 ≤ (drbgOf (generate s b 2048).2 b).reserve.length + (generate s b 2048).1.length) } := drbgOf_modDrbg _ b _
  rw [hall, hout, hflag]
  exact ⟨rfl, rfl, rfl⟩

theorem refillReserve_other {k : Nat} (h : k ≠ b) : getBay (refillReserve s b) k = getBay s k :=
  (getBay_modDrbg_other _ b _ h).trans (generate_other s b 2048 h)

/-- What a generate call that has ended leaves, of a generator that serves. -/
def callEnded (s : State) (b : Nat) : State :=
  if refillDue (refillReserve s b) b then modDrbg (refillReserve s b) b (fun d => { d with refill := true }) else refillReserve s b

theorem callEnded_drbg : (drbgOf (callEnded s b) b).reserve =
      (drbgOf s b).reserve ++ (Modes.ctrGenerate { key := (drbgOf s b).key, v := (drbgOf s b).v } 2048).1 ∧
    (drbgOf (callEnded s b) b).calls = (drbgOf s b).calls + 1 ∧ (drbgOf (callEnded s b) b).seed = (drbgOf s b).seed := by
  unfold callEnded
  split
  · rw [drbgOf_modDrbg]
    exact refillReserve_drbg s b
  · exact refillReserve_drbg s b

theorem callEnded_other {k : Nat} (h : k ≠ b) : getBay (callEnded s b) k = getBay s k := by
  unfold callEnded
  split
  · exact (getBay_modDrbg_other _ b _ h).trans (refillReserve_other s b h)
  · exact refillReserve_other s b h

theorem callEnded_within : Within drawScope s (callEnded s b) := by
  unfold callEnded
  exact .ite ((refillReserve_within s b).then (modDrbg_within _ b _) (by rfl)) (refillReserve_within s b)

/-! ## Reseeds -/

variable {s b}

theorem drbgOf_bump (w : State) (k : Nat) : drbgOf (bump w k) b = drbgOf w b := rfl

theorem getBay_bump (w : State) (n k : Nat) : getBay (bump w n) k = getBay w k := rfl

theorem applyReseed_none (h : (drbgOf s b).seed = none) : applyReseed s b = s := by
  unfold applyReseed
  rw [h]

/-- A reseed that has arrived is applied; a refill may become due by it. -/
theorem applyReseed_drbg {seed : Bytes} (h : (drbgOf s b).seed = some seed) : ∃ f, ((drbgOf s b).refill = true → f = true) ∧
    drbgOf (applyReseed s b) b = { drbgOf s b with
      key := (Modes.ctrReseed { key := (drbgOf s b).key, v := (drbgOf s b).v } seed).key
      v := (Modes.ctrReseed { key := (drbgOf s b).key, v := (drbgOf s b).v } seed).v
      calls := 0, pending := false, owed := false, seed := none, refill := f } := by
  unfold applyReseed
  rw [h]
  dsimp only
  split
  · refine ⟨true, fun _ => rfl, ?_⟩
    rw [drbgOf_modDrbg, drbgOf_bump, drbgOf_modDrbg]
  · refine ⟨(drbgOf s b).refill, id, ?_⟩
    rw [drbgOf_bump, drbgOf_modDrbg]

theorem applyReseed_other {k : Nat} (h : k ≠ b) : getBay (applyReseed s b) k = getBay s k := by
  unfold applyReseed
  split
  · dsimp only
    split
    · rw [getBay_modDrbg_other _ b _ h, getBay_bump, getBay_modDrbg_other s b _ h]
    · rw [getBay_bump, getBay_modDrbg_other s b _ h]
  · rfl

theorem applyReseed_beside : Within { bays := true, cnt := true } s (applyReseed s b) := by
  unfold applyReseed
  split
  · exact .ite rfl rfl
  · exact .refl s

theorem callDone_none (h : (drbgOf s b).refill = false) : callDone s b = s := by
  unfold callDone
  dsimp only
  rw [if_neg (fun hr => absurd (h.symm.trans hr) (by decide))]
  exact if_neg (fun hr => absurd (h.symm.trans hr.1) (by decide))

theorem callDone_ends (h : (drbgOf s b).refill = true) {w : State} (hw : w = applyReseed s b) (hr : (drbgOf w b).refill = true)
    (hs : drbgServes w b = true) : callDone s b = seedingCheck (callEnded w b) := by
  subst hw
  unfold callDone
  dsimp only
  rw [if_pos h, if_pos ⟨hr, hs⟩]
  rfl

end

/-! ## The obligation -/

section
variable {s : State} {t : Nat} {x : Bytes} {ws : List Bytes} {r : SeedReq} (hon : s.random.on = true) (hstop : s.random.stopped = false)
  (hkat : s.random.katRunning = false) (hwin : s.random.windows = x :: ws) (hrandom : islandRuns s islRandom = true)
  (hhub : islandRuns s islHub = true)
include hon hstop hkat hwin hrandom hhub

theorem exec_conditionedBlock : exec (.conditionedBlock t) s =
    .next (settle (seedingCheck (deliverBlock (blockTaken (at_ s t) ws) (conditionedBlock x)))) := by
  refine congrArg (fun w => Host.Outcome.next (settle w)) ((crossing_arrives (s := at_ s t)
    (List.all_eq_true.2 (fun k hk => List.mem_singleton.1 hk ▸ hrandom))
    (List.all_eq_true.2 (fun k hk => List.mem_singleton.1 hk ▸ hhub)) _ _).trans ?_)
  exact blockDone_delivers (s := at_ s t) hwin hon hstop hkat

variable (hn : nextRequest s = some r)
include hn

theorem exec_conditionedBlock_goes_on (h : r.got.length + 1 < r.need) : ∃ u, exec (.conditionedBlock t) s = .next u ∧
    u.random.windows = ws ∧ u.random.blocks = s.random.blocks + 1 ∧
    u.random.reqs = s.random.reqs.map (fun q => if q.who = r.who then { q with got := r.got ++ [conditionedBlock x] } else q) ∧
    u.keys = s.keys ∧ u.bays = s.bays ∧ u.vault = s.vault ∧ u.insts = s.insts := by
  have hexec := exec_conditionedBlock (t := t) hon hstop hkat hwin hrandom hhub
  rw [deliverBlock_goes_on (s := blockTaken (at_ s t) ws) hn h] at hexec
  exact ⟨_, hexec, settle_seedingCheck _⟩

theorem exec_conditionedBlock_serves (h : r.need ≤ r.got.length + 1) : exec (.conditionedBlock t) s =
    .next (settle (seedingCheck (serveSeed (requestServed (blockTaken (at_ s t) ws) r) r.who (r.got ++ [conditionedBlock x]).flatten))) := by
  rw [exec_conditionedBlock (t := t) hon hstop hkat hwin hrandom hhub, deliverBlock_serves (s := blockTaken (at_ s t) ws) hn h]

end

/-! ## What the consumers hold -/

section
variable (w : State)

/-- What a consumer has, once it is served, stands at the end of the step. -/
theorem settle_seedingCheck_seeds : (settle (seedingCheck w)).random.tableKey = w.random.tableKey ∧
    (settle (seedingCheck w)).random.evictSeed = w.random.evictSeed ∧ (settle (seedingCheck w)).random.evictDraws = w.random.evictDraws := by
  have hrandom : (settle (seedingCheck w)).random = (seedingCheck w).random := (settle_within (seedingCheck w)).same (·.random)
  rw [hrandom, seedingCheck_frame]
  exact ⟨rfl, rfl, rfl⟩

theorem settle_seedingCheck_bay (b : Nat) : getBay (settle (seedingCheck w)) b = getBay w b :=
  ((settle_within _).same (fun v => getBay v b)).trans ((seedingCheck_within w).same (fun v => getBay v b))

end

section
variable {s : State} {t b : Nat}

theorem exec_drbgGenerateDone (hc : bayClockRuns s b = true) {bay : BayNo} (hb : bay.val = b) :
    exec (.drbgGenerateDone t bay) s = .next (settle (callDone (at_ s t) b)) :=
  hb ▸ congrArg (fun w => Host.Outcome.next (settle w)) (clocked_one (hb ▸ hc))

/-- What the end of a generate call leaves: the reserve grows by 2 KiB of the generator `w` holds. -/
theorem exec_drbgGenerateDone_ends {bay : BayNo} {w : State} (hc : bayClockRuns s bay.val = true) (hr : (drbgOf s bay.val).refill = true)
    (hw : w = applyReseed (at_ s t) bay.val) (hrw : (drbgOf w bay.val).refill = true) (hs : drbgServes w bay.val = true) :
    ∃ u, exec (.drbgGenerateDone t bay) s = .next u ∧ (getBay u bay.val).drbg.reserve = (drbgOf w bay.val).reserve ++
        (Modes.ctrGenerate { key := (drbgOf w bay.val).key, v := (drbgOf w bay.val).v } 2048).1 ∧
      (getBay u bay.val).drbg.calls = (drbgOf w bay.val).calls + 1 ∧ (getBay u bay.val).drbg.seed = (drbgOf w bay.val).seed ∧
      (∀ k, k ≠ bay.val → getBay u k = getBay w k) ∧ u.insts = w.insts ∧ u.keys = w.keys := by
  have hexec := (exec_drbgGenerateDone (t := t) hc rfl).trans
    (congrArg (fun w => Host.Outcome.next (settle w)) (callDone_ends (s := at_ s t) hr hw hrw hs))
  obtain ⟨hreserve, hcalls, hseed⟩ := callEnded_drbg w bay.val
  obtain ⟨-, -, -, hkeys, -, -, hinsts⟩ := settle_seedingCheck (callEnded w bay.val)
  have hwithin := callEnded_within w bay.val
  have hbay : (getBay (settle (seedingCheck (callEnded w bay.val))) bay.val).drbg = drbgOf (callEnded w bay.val) bay.val :=
    congrArg Bay.drbg (settle_seedingCheck_bay _ _)
  refine ⟨_, hexec, ?_, ?_, ?_, fun k hk => (settle_seedingCheck_bay _ _).trans (callEnded_other w bay.val hk),
    hinsts.trans (hwithin.same (·.insts)), hkeys.trans (hwithin.same (·.keys))⟩
  · rw [hbay, hreserve]
  · rw [hbay, hcalls]
  · rw [hbay, hseed]

end

/-- A step that reaches bays, counters and recorder leaves the rest of the state. -/
theorem beside_bays {w u : State} (h : Within { bays := true, modes := true, cnt := true, evr := true } w u) :
    Beside { w with bays := u.bays } u := h

/-- Settles O37: a block that completes no request joins it, one that does is served; a call's end is that of its refill, after its reseed. -/
theorem blocksReachTheirConsumers : Obligations.BlocksReachTheirConsumers := by
  unfold Obligations.BlocksReachTheirConsumers
  intro s t bay d hd
  subst hd
  refine ⟨fun hrandom hhub => ?_, fun x ws r hon hstop hkat hwin hrandom hhub hn => ⟨fun h =>
      exec_conditionedBlock_goes_on hon hstop hkat hwin hrandom hhub hn h, fun h seed hseed => ?_⟩,
    fun hc hr => ⟨fun hseed hserves => ?_, fun seed hseed hinst hlimit => ?_⟩, fun hc hr => ?_, fun hc seed hseed => ?_, fun hseed => ?_⟩
  · have hcross : crossing (at_ s t) [islRandom] [islHub] (.conditionedBlock t) blockDone = stall (at_ s t) (.conditionedBlock t) := by
      unfold crossing
      have hsource : [islRandom].all (islandRuns (at_ s t)) = true := List.all_eq_true.2 (fun k hk => List.mem_singleton.1 hk ▸ hrandom)
      have hsink : [islHub].all (islandRuns (at_ s t)) = false :=
        List.all_eq_false.2 ⟨islHub, List.mem_singleton.2 rfl, fun hrun => absurd (hhub.symm.trans hrun) (by decide)⟩
      rw [hsource, hsink]
      rfl
    exact ⟨_, congrArg (fun w => Host.Outcome.next (settle w)) hcross, settle_beside _⟩
  · have hexec := exec_conditionedBlock_serves (t := t) hon hstop hkat hwin hrandom hhub hn h
    rw [← hseed] at hexec
    obtain ⟨hqw, hqb, hqr⟩ := serveSeed_queue (requestServed (blockTaken (at_ s t) ws) r) r.who seed
    obtain ⟨hw, hb, hr, -, hbays, -, -⟩ := settle_seedingCheck (serveSeed (requestServed (blockTaken (at_ s t) ws) r) r.who seed)
    obtain ⟨htable, hevict, hdraws⟩ := settle_seedingCheck_seeds (serveSeed (requestServed (blockTaken (at_ s t) ws) r) r.who seed)
    have hbay := settle_seedingCheck_bay (serveSeed (requestServed (blockTaken (at_ s t) ws) r) r.who seed)
    refine ⟨_, hexec, hw.trans hqw, hb.trans hqb, hr.trans hqr, fun b c hwho hcc => ?_, fun b hwho => ?_, fun hwho => ?_, fun hwho => ?_⟩
    · rw [hwho] at hbay ⊢
      refine ⟨?_, fun k hk => (hbay k).trans (getBay_modDrbg_other _ b _ hk)⟩
      rw [hbay, hcc]
      exact drbgOf_modDrbg _ b _
    · rw [hwho] at hbay ⊢
      refine ⟨?_, fun k hk => (hbay k).trans (getBay_modDrbg_other _ b _ hk)⟩
      rw [hbay]
      exact drbgOf_modDrbg _ b _
    · rw [hwho] at htable hbays ⊢
      exact ⟨htable, hbays⟩
    · rw [hwho] at hevict hdraws hbays ⊢
      exact ⟨hevict, hdraws, hbays⟩
  · have hnone : at_ s t = applyReseed (at_ s t) bay.val := (applyReseed_none (s := at_ s t) hseed).symm
    obtain ⟨u, hexec, hreserve, hcalls, -, hother, hinsts, hkeys⟩ := exec_drbgGenerateDone_ends hc hr hnone hr hserves
    exact ⟨u, hexec, hreserve, hcalls, hother, hinsts, hkeys⟩
  · obtain ⟨f, hf, hdrbg⟩ := applyReseed_drbg (s := at_ s t) (b := bay.val) hseed
    have hrefill : (drbgOf (applyReseed (at_ s t) bay.val) bay.val).refill = true := by
      rw [hdrbg]
      exact hf hr
    have hserves : drbgServes (applyReseed (at_ s t) bay.val) bay.val = true := by
      unfold drbgServes reseedLimit
      rw [hdrbg, (applyReseed_beside (s := at_ s t) (b := bay.val)).same (·.ctl)]
      exact Bool.and_eq_true_iff.2 ⟨hinst, decide_eq_true hlimit⟩
    obtain ⟨u, hexec, hreserve, hcalls, hnone, -, -, -⟩ := exec_drbgGenerateDone_ends hc hr rfl hrefill hserves
    rw [hdrbg] at hreserve hcalls hnone
    exact ⟨u, hexec, hreserve, hcalls, hnone⟩
  · exact ⟨_, (exec_drbgGenerateDone (t := t) hc rfl).trans (congrArg (fun w => Host.Outcome.next (settle w)) (callDone_none (s := at_ s t) hr)),
      settle_beside _⟩
  · obtain ⟨f, -, hdrbg⟩ := applyReseed_drbg (s := at_ s t) (b := bay.val) hseed
    have hexec : exec (.drbgReseed t bay) s = .next (settle (applyReseed (at_ s t) bay.val)) :=
      congrArg (fun w => Host.Outcome.next (settle w)) (clocked_one hc)
    have hs := settle_within (applyReseed (at_ s t) bay.val)
    refine ⟨_, hexec, ⟨f, (hs.same (fun w => drbgOf w bay.val)).trans hdrbg⟩,
      fun b hb => (hs.same (fun w => getBay w b)).trans (applyReseed_other hb), ?_⟩
    exact beside_bays ((applyReseed_beside.mono rfl).trans (hs.mono rfl))
  · have hstands : clocked (at_ s t) [5 + bay.val] (fun s => applyReseed s bay.val) = at_ s t := by
      unfold clocked
      split
      · exact applyReseed_none (s := at_ s t) hseed
      · rfl
    exact ⟨_, congrArg (fun w => Host.Outcome.next (settle w)) hstands, settle_beside _⟩

end Sys2Proof.Machine
end

section
/-! SUPPORT. The flushes of the usage journal and of the key log, the news of durable reservations, and the return of route copies
(R149 to R153, R202, R246, R289, R291). -/

namespace Sys2Proof.Machine

-- One proof at a time: the check bounds the compiler's threads.
set_option Elab.async false

open Sys2Proof Sys2Proof.Safety

/-! ## Failed segments -/

section
variable {s : State}

theorem counter_bump (k : Nat) : counter (bump s k) k = (counter s k + 1) % 2 ^ 64 := mget_mset_same _ _ _ _

variable {γ : Type} {put : γ → State → State} (hput : ∀ x, Within { cnt := true } (put x s) (put x (flashFailed s))) (tries segment : Nat)
  (a b : γ)
include hput

/-- A segment has failed: the flush is left for its next attempt, or for its hold, and beside that the failure is noted. -/
theorem retrySegment_within : Within { cnt := true, evr := true } (put (if tries < 3 then a else b) s)
    (retrySegment s tries segment (put a) (put b)) := by
  unfold retrySegment
  dsimp only
  split
  · exact ((hput a).mono rfl).then (record_within _ _ _ _)
  · exact (hput b).mono rfl

theorem retrySegment_last (h : 3 ≤ tries) : Within { cnt := true } (put b s) (retrySegment s tries segment (put a) (put b)) := by
  unfold retrySegment
  dsimp only
  rw [if_neg (Nat.not_lt.2 h)]
  exact hput b

omit hput in
theorem retrySegment_counts (hcnt : ∀ x w, (put x w).cnt = w.cnt) :
    counter (retrySegment s tries segment (put a) (put b)) (odKey 0x1100 4) = (counter s (odKey 0x1100 4) + 1) % 2 ^ 64 := by
  refine Eq.trans ?_ (counter_bump (s := s) (odKey 0x1100 4))
  refine congrArg (mget 0 · _) ?_
  unfold retrySegment
  dsimp only
  split
  · exact ((record_within _ _ _ _).same (·.cnt)).trans (hcnt a _)
  · exact hcnt b _

end

/-! ## The key log -/

section
variable {l : KeyLog} (segs : List KeySeg)

/-- Segments join the active half. -/
theorem putKeySegs_halves : putKeySegs l segs = { l with
    halfA := if l.activeB then l.halfA else l.halfA ++ segs, halfB := if l.activeB then l.halfB ++ segs else l.halfB } := by
  unfold putKeySegs
  split <;> rfl

theorem keySegsUsed_putKeySegs : keySegsUsed (putKeySegs l segs) = keySegsUsed l + segs.length := by
  rw [putKeySegs_halves]
  unfold keySegsUsed
  by_cases h : l.activeB = true
  · simp [h]
  · simp [h]

variable {s : State} (hl : l = s.keys.log) (hw : keyLogWrites s = true)
include hl hw

theorem keyLogDone_succeeds {segs : List KeySeg} (hsegs : segs = keySegs s false l.queue) (hroom : keySegsUsed l + segs.length < 1200) :
    keyLogDone s true = { s with
      vault := { s.vault with
        keyLogEpoch := s.vault.keyLogEpoch + segs.length
        pending := s.vault.pending.filter (fun e => !l.queue.any (fun r => pendingWord r.handle r.key.isNone == e.1 && r.gen == e.2)) }
      keys := { s.keys with log := { putKeySegs l segs with queue := [], tries := 0, hold := 0 } } } := by
  subst hl hsegs
  unfold keyLogDone
  dsimp only
  rw [if_neg (by rw [hw]; decide), if_pos rfl]
  exact if_pos (Nat.lt_of_le_of_lt (Nat.le_of_eq (keySegsUsed_putKeySegs _)) hroom)

/-- A state with another key log. -/
def withLog (x : KeyLog) (w : State) : State := { w with keys := { w.keys with log := x } }

/-- The log after a failed segment. -/
def keyLogFailed (s : State) (l : KeyLog) : KeyLog := { putKeySegs l [badKeySeg] with
  tries := if l.tries < 3 then l.tries + 1 else 0, hold := if l.tries < 3 then l.hold else s.now + 10 ^ 8 }

theorem keyLogDone_fails (hroom : keySegsUsed l < 1199) :
    Within { cnt := true, evr := true } (withLog (keyLogFailed s l) s) (keyLogDone s false) ∧
    counter (keyLogDone s false) (odKey 0x1100 4) = (counter s (odKey 0x1100 4) + 1) % 2 ^ 64 := by
  have hused : keySegsUsed (putKeySegs l [badKeySeg]) < 1200 := by
    rw [keySegsUsed_putKeySegs]
    exact Nat.succ_lt_succ hroom
  have hdone : keyLogDone s false = compactKeys (retrySegment s l.tries (keySegsUsed (putKeySegs l [badKeySeg]) + 1536 * bit l.activeB)
      (withLog { putKeySegs l [badKeySeg] with tries := l.tries + 1 })
      (withLog { putKeySegs l [badKeySeg] with tries := 0, hold := s.now + 10 ^ 8 })) := by
    unfold keyLogDone
    dsimp only
    rw [if_neg (by rw [hw]; decide), if_neg Bool.false_ne_true, ← hl]
    rfl
  have hlog : (if l.tries < 3 then { putKeySegs l [badKeySeg] with tries := l.tries + 1 }
      else { putKeySegs l [badKeySeg] with tries := 0, hold := s.now + 10 ^ 8 }) = keyLogFailed s l := by
    unfold keyLogFailed
    rw [putKeySegs_halves]
    split <;> rfl
  have hwithin := retrySegment_within (s := s) (put := withLog) (fun _ => rfl) l.tries
    (keySegsUsed (putKeySegs l [badKeySeg]) + 1536 * bit l.activeB) { putKeySegs l [badKeySeg] with tries := l.tries + 1 }
    { putKeySegs l [badKeySeg] with tries := 0, hold := s.now + 10 ^ 8 }
  have hcount := retrySegment_counts (s := s) (put := withLog) l.tries (keySegsUsed (putKeySegs l [badKeySeg]) + 1536 * bit l.activeB)
    { putKeySegs l [badKeySeg] with tries := l.tries + 1 } { putKeySegs l [badKeySeg] with tries := 0, hold := s.now + 10 ^ 8 } (fun _ _ => rfl)
  rw [hlog] at hwithin
  rw [hdone]
  generalize retrySegment s l.tries _ _ _ = w at *
  have hroomed : compactKeys w = w := by
    refine if_pos ?_
    rw [hwithin.same (·.keys.log)]
    exact hused
  rw [hroomed]
  exact ⟨hwithin, hcount⟩

end

/-! ## Route copies (R202) -/

section
variable (s : State)

theorem returnCopies_frame : returnCopies s = { s with routes := (returnCopies s).routes } := by
  unfold returnCopies
  split <;> rfl

theorem returnCopies_returns (r : Ret) : r ∈ (returnCopies s).routes.returns ↔ r ∈ s.routes.returns ∧ s.now < r.cutT + 1000 := by
  unfold returnCopies
  split
  · exact ⟨fun h => ⟨h, by omega⟩, And.left⟩
  · refine List.mem_filter.trans (and_congr_right fun _ => ?_)
    rw [decide_eq_true_iff]
    omega

/-- The copies that are due, of an entry of the kind `f` gives. -/
theorem due_contains {f : Ret → List Nat} {n : Nat} (h : ¬s.now < 1000) :
    (!((s.routes.returns.filter (fun x => decide (x.cutT ≤ s.now - 1000))).flatMap f).contains n) = true ↔
      ∀ r ∈ s.routes.returns, r.cutT + 1000 ≤ s.now → n ∉ f r := by
  rw [Bool.not_eq_true', ← Bool.not_eq_true, List.contains_iff_mem, List.mem_flatMap]
  simp only [not_exists, not_and]
  refine forall_congr' fun r => ⟨fun hr hmem hdue => hr (List.mem_filter.2 ⟨hmem, decide_eq_true (by omega)⟩), fun hr hmem => ?_⟩
  obtain ⟨hin, hdue⟩ := List.mem_filter.1 hmem
  exact hr hin (by have := of_decide_eq_true hdue; omega)

theorem returnCopies_blocks (b : Nat × Block) : b ∈ (returnCopies s).routes.blocks ↔
    b ∈ s.routes.blocks ∧ ∀ r ∈ s.routes.returns, r.cutT + 1000 ≤ s.now → b.1 ∉ r.blocks := by
  unfold returnCopies
  split
  · exact ⟨fun h => ⟨h, fun r _ _ => by omega⟩, And.left⟩
  · next h => exact List.mem_filter.trans (and_congr_right fun _ => due_contains s h)

theorem returnCopies_arrays (a : Nat × List TNode) : a ∈ (returnCopies s).routes.arrays ↔
    a ∈ s.routes.arrays ∧ ∀ r ∈ s.routes.returns, r.cutT + 1000 ≤ s.now → ∀ e ∈ r.arrays, a.1 ≠ e.1 * 65536 + e.2 := by
  unfold returnCopies
  split
  · exact ⟨fun h => ⟨h, fun r _ _ => by omega⟩, And.left⟩
  · next h =>
    refine List.mem_filter.trans (and_congr_right fun _ => ?_)
    rw [List.map_flatMap]
    refine (due_contains s h).trans (forall_congr' fun r => forall_congr' fun _ => forall_congr' fun _ => ?_)
    rw [List.mem_map]
    exact ⟨fun hn e he heq => hn ⟨e, he, heq.symm⟩, fun hn ⟨e, he, heq⟩ => hn e he heq.symm⟩

end

/-- Settles O35: one lemma for each end of a flush, one for each memory of the copies that return, and the request for a block. -/
theorem logsAndTablesSettle : Obligations.LogsAndTablesSettle := by
  unfold Obligations.LogsAndTablesSettle
  intro s t l hl
  refine ⟨fun hrun hw => ⟨fun segs hsegs hroom => ?_, fun hroom => ?_⟩, fun ok h => ?_, fun hrun => ?_, fun hoff => ?_, fun hon hnew => ?_⟩
  · refine congrArg Host.Outcome.next ((clocked_one hrun).trans ?_)
    rw [keyLogDone_succeeds (s := at_ s t) hl hw hsegs hroom, putKeySegs_halves]
    rfl
  · obtain ⟨hwithin, hcount⟩ := keyLogDone_fails (s := at_ s t) hl hw hroom
    refine ⟨keyLogDone (at_ s t) false, congrArg Host.Outcome.next (clocked_one hrun), ?_, hcount, ?_⟩
    · rw [hwithin.same (·.keys.log)]
      show keyLogFailed (at_ s t) l = _
      unfold keyLogFailed
      rw [putKeySegs_halves]
    · rw [show (keyLogDone (at_ s t) false).now = (at_ s t).now from hwithin.same (·.now),
        show (keyLogDone (at_ s t) false).keys.log = keyLogFailed (at_ s t) l from hwithin.same (·.keys.log)]
      exact hwithin
  · refine congrArg Host.Outcome.next ?_
    cases hrun : islandRuns s islControl with
    | false => exact clocked_one_stands (s := s) hrun
    | true =>
      have hw : keyLogWrites (at_ s t) = false := h.resolve_left (by rw [hrun]; decide)
      exact (clocked_one hrun).trans (if_pos hw)
  · refine ⟨returnCopies (at_ s t), congrArg Host.Outcome.next (clocked_one hrun), returnCopies_returns (at_ s t), returnCopies_blocks (at_ s t),
      returnCopies_arrays (at_ s t), ?_⟩
    rw [returnCopies_frame]
    rfl
  · exact congrArg Host.Outcome.next (if_neg (fun h => absurd (hoff.symm.trans h) (by decide)))
  · refine congrArg Host.Outcome.next ((if_pos hon).trans ?_)
    exact requestSeed_joins (at_ s t) hnew

end Sys2Proof.Machine
end

section
/-! SUPPORT. The usage journal: durable reservations, flushes, their retries and snapshots (R149 to R153). -/

namespace Sys2Proof.Machine

-- One proof at a time: the check bounds the compiler's threads.
set_option Elab.async false

open Sys2Proof Sys2Proof.Safety

/-! ## News of a durable reservation -/

/-- A map of the contents of a map, where what unlisted keys hold maps to itself. -/
theorem mget_map {β : Type} (d : β) (m : Map β) {g : β → β} (hd : g d = d) (k : Nat) : mget d (m.map (fun e => (e.1, g e.2))) k = g (mget d m k) := by
  induction m with
  | nil => exact hd.symm
  | cons e m ih =>
    rw [List.map_cons, mget, mget]
    split
    · rfl
    · exact ih

/-- An instance whose operations wait no more for a handle. -/
def unwaited (h : Nat) (x : Inst) : Inst :=
  { x with ops := x.ops.map (fun o => { o with waits := dropWait h o.waits })
           slots := x.slots.map (fun e => (e.1, { e.2 with op := e.2.op.map (fun o => { o with waits := dropWait h o.waits }) })) }

section
variable (s : State) (h : Nat)

theorem reservationDurable_stage : (reservationDurable s h).keys.journal.stage = markDurable h s.keys.journal.stage := by
  unfold reservationDurable
  dsimp only
  split <;> rfl

theorem reservationDurable_frame : reservationDurable s h = { s with
    insts := (reservationDurable s h).insts
    keys := { s.keys with journal := { s.keys.journal with stage := (reservationDurable s h).keys.journal.stage } } } := by
  unfold reservationDurable
  dsimp only
  split <;> rfl

variable {s h}

theorem reservationDurable_waits (hany : (markDurable h s.keys.journal.stage).any (fun r => r.r.slot == h && !r.durable) = true) :
    (reservationDurable s h).insts = s.insts := by
  unfold reservationDurable
  dsimp only
  rw [if_pos hany]

theorem reservationDurable_frees (hany : (markDurable h s.keys.journal.stage).any (fun r => r.r.slot == h && !r.durable) = false) (i : Nat) :
    getInst (reservationDurable s h) i = unwaited h (getInst s i) := by
  unfold reservationDurable
  dsimp only
  rw [if_neg (by rw [hany]; decide)]
  exact mget_map {} s.insts (g := unwaited h) rfl i

theorem findOp_unwaited {x : Inst} {c : Nat} {o : RingOp} (ho : findOp x c = some o) :
    findOp (unwaited h x) c = some { o with waits := o.waits.filter (· != h) } := by
  unfold findOp at ho ⊢
  unfold unwaited
  rw [List.find?_map]
  exact (congrArg (Option.map _) ho)

theorem getSlot_unwaited {x : Inst} {n : Nat} {o : LaneOp} (ho : (getSlot x n).op = some o) :
    (getSlot (unwaited h x) n).op = some { o with waits := o.waits.filter (· != h) } := by
  have hslot : getSlot (unwaited h x) n = { getSlot x n with op := (getSlot x n).op.map (fun o => { o with waits := dropWait h o.waits }) } :=
    mget_map ({} : InSlot) x.slots (g := fun e => { e with op := e.op.map (fun o => { o with waits := dropWait h o.waits }) }) rfl n
  rw [hslot, ho]
  rfl

end

/-! ## Flushes -/

section
variable {s : State} {j : Journal} (hj : j = s.keys.journal) {rs : List JourRec} {seg : JourSeg}
  (hrs : rs = ((j.stage.filter (·.durable)).take 252).map (·.r))
  (hseg : seg = { under := s.vault.rootCheck, epoch := s.vault.journalEpoch + 1, time := s.now, snapshot := false, last := false, recs := rs })
include hj hrs

theorem beginFlush_stands (h : rs = [] ∨ j.flushing.isSome = true ∨ j.backoff = true ∨ j.rejected = true ∨ serving s = false ∨ s.life.debug = true) :
    beginFlush s = s := by
  subst hj hrs
  exact if_pos h

include hseg

theorem beginFlush_begins (hn : rs ≠ []) (hf : j.flushing = none) (hb : j.backoff = false) (hr : j.rejected = false) (hserv : serving s = true)
    (hd : s.life.debug = false) :
    beginFlush s = { s with keys := { s.keys with journal := { j with tries := 0, flushing := some seg } } } := by
  subst hj hrs hseg
  refine if_neg ?_
  rw [hf, hb, hr, hserv, hd]
  simpa using hn

end

section
variable {j : Journal} (seg : JourSeg)

/-- A segment joins the active half. -/
theorem putSegment_halves : putSegment j seg = { j with
    halfA := if j.activeB then j.halfA else j.halfA ++ [seg], halfB := if j.activeB then j.halfB ++ [seg] else j.halfB } := by
  unfold putSegment
  split <;> rfl

theorem segmentsUsed_putSegment : segmentsUsed (putSegment j seg) = segmentsUsed j + 1 := by
  rw [putSegment_halves]
  unfold segmentsUsed
  by_cases h : j.activeB = true
  · simp [h]
  · simp [h]

/-- A state with another journal. -/
def withJournal (x : Journal) (w : State) : State := { w with keys := { w.keys with journal := x } }

/-- The journal whose flush has ended well. -/
def flushed (j : Journal) (seg : JourSeg) : Journal :=
  { putSegment j seg with flushing := none, tries := 0, stage := j.stage.filter (fun x => !(x.durable && seg.recs.contains x.r)) }

/-- The journal after a failed segment. -/
def flushFailed (j : Journal) (seg : JourSeg) : Journal := { putSegment j badJourSeg with
  flushing := if j.tries < 3 then some seg else none, tries := if j.tries < 3 then j.tries + 1 else 0
  backoff := if j.tries < 3 then j.backoff else true }

theorem segmentsUsed_flushed : segmentsUsed (flushed j seg) = segmentsUsed j + 1 := segmentsUsed_putSegment seg

/-- The state in which a flush has ended well, before a snapshot that may be due. -/
def afterFlush (s : State) (j : Journal) (seg : JourSeg) : State :=
  bump { s with vault := { s.vault with journalEpoch := seg.epoch }, keys := { s.keys with journal := flushed j seg } } (odKey 0x6020 5)

variable {seg} {s : State} (hj : j = s.keys.journal)
include hj

theorem flushDone_stands (ok : Bool) (h : j.flushing = none ∨ s.power.pwrGood = false) : flushDone s ok = s := by
  subst hj
  unfold flushDone
  dsimp only
  split
  · rfl
  · next seg hf =>
    rw [hf] at h
    exact if_pos (h.resolve_left (Option.some_ne_none _))

variable (hf : j.flushing = some seg) (hp : s.power.pwrGood = true)
include hf hp

theorem flushDone_succeeds : flushDone s true = snapshotDue (afterFlush s j seg) := by
  subst hj
  unfold flushDone
  dsimp only
  rw [hf]
  dsimp only
  rw [if_neg (by rw [hp]; decide), if_pos rfl]
  rfl

theorem flushDone_fails (hroom : segmentsUsed j < 1006) :
    Within { cnt := true, evr := true } (withJournal (flushFailed j seg) s) (flushDone s false) ∧
    counter (flushDone s false) (odKey 0x1100 4) = (counter s (odKey 0x1100 4) + 1) % 2 ^ 64 ∧
    (3 ≤ j.tries → (flushDone s false).evr = s.evr) := by
  obtain ⟨again, hagain⟩ : ∃ x, x = { putSegment j badJourSeg with tries := j.tries + 1 } := ⟨_, rfl⟩
  obtain ⟨rest, hrest⟩ : ∃ x, x = { putSegment j badJourSeg with flushing := none, tries := 0, backoff := true } := ⟨_, rfl⟩
  have hdone : flushDone s false = snapshotDue (retrySegment s j.tries (segmentsUsed (putSegment j badJourSeg) + 2048 * bit j.activeB)
      (withJournal again) (withJournal rest)) := by
    subst hj hagain hrest
    unfold flushDone
    dsimp only
    rw [hf]
    dsimp only
    rw [if_neg (by rw [hp]; decide), if_neg Bool.false_ne_true]
    rfl
  have hlog : (if j.tries < 3 then again else rest) = flushFailed j seg := by
    subst hagain hrest
    unfold flushFailed
    rw [putSegment_halves, hf]
    split <;> rfl
  have hwithin := retrySegment_within (s := s) (put := withJournal) (fun _ => rfl) j.tries
    (segmentsUsed (putSegment j badJourSeg) + 2048 * bit j.activeB) again rest
  have hlast := fun h => retrySegment_last (s := s) (put := withJournal) (fun _ => rfl) j.tries
    (segmentsUsed (putSegment j badJourSeg) + 2048 * bit j.activeB) again rest h
  have hcount := retrySegment_counts (s := s) (put := withJournal) j.tries
    (segmentsUsed (putSegment j badJourSeg) + 2048 * bit j.activeB) again rest (fun _ _ => rfl)
  rw [hlog] at hwithin
  rw [hdone]
  generalize retrySegment s j.tries _ _ _ = w at *
  have hroomed : snapshotDue w = w := by
    refine if_pos ?_
    rw [hwithin.same (·.keys.journal)]
    exact Nat.lt_of_le_of_lt (Nat.le_of_eq (segmentsUsed_putSegment badJourSeg)) (Nat.succ_lt_succ hroom)
  rw [hroomed]
  exact ⟨hwithin, hcount, fun h => (hlast h).same (·.evr)⟩

end

/-! ## Snapshots (R153) -/

/-- A journal that goes on behind a snapshot in its other half. -/
def snapshotted (j : Journal) (segs : List JourSeg) : Journal := { j with
  activeB := !j.activeB, halfA := if j.activeB then segs else j.halfA, halfB := if j.activeB then j.halfB else segs }

theorem snapshotted_halves (j : Journal) (segs : List JourSeg) :
    (if j.activeB then { j with halfA := segs, activeB := false } else { j with halfB := segs, activeB := true }) = snapshotted j segs := by
  unfold snapshotted
  by_cases h : j.activeB = true
  · simp [h]
  · simp [h]

section
variable (s : State)

/-- The state with a snapshot of its journal, before the count of its segments. -/
def withSnapshot (s : State) : State :=
  { s with
    vault := { s.vault with journalEpoch := s.vault.journalEpoch + (snapshotSegs s (s.vault.journalEpoch + 1)).length }
    keys := { s.keys with journal := snapshotted s.keys.journal (snapshotSegs s (s.vault.journalEpoch + 1)) } }

theorem snapshotJournal_within : Within { cnt := true } (withSnapshot s) (snapshotJournal s) := by
  have h : snapshotJournal s = bumpBy (withSnapshot s) (odKey 0x6020 5) (snapshotSegs s (s.vault.journalEpoch + 1)).length := by
    unfold snapshotJournal
    dsimp only
    rw [snapshotted_halves]
    rfl
  rw [h]
  exact bumpBy_within _ _ _

variable {s}

/-- A journal that no flush waits for stands. -/
theorem flushing_none (f : JourSeg → JourSeg) (h : s.keys.journal.flushing = none) :
    withJournal { s.keys.journal with flushing := s.keys.journal.flushing.map f } s = s :=
  congrArg (fun x => withJournal { s.keys.journal with flushing := x } s) (show Option.map f s.keys.journal.flushing = s.keys.journal.flushing by rw [h]; rfl)

theorem snapshotDue_full (hfull : segmentsUsed s.keys.journal = 1007) (hnone : s.keys.journal.flushing = none) :
    snapshotDue s = snapshotJournal s := by
  have hflush : (snapshotJournal s).keys.journal.flushing = none := ((snapshotJournal_within s).same (·.keys.journal.flushing)).trans hnone
  unfold snapshotDue
  rw [if_neg (by rw [hfull]; decide)]
  exact flushing_none _ hflush

theorem snapshotDue_room (h : segmentsUsed s.keys.journal < 1007) : snapshotDue s = s := if_pos h

end

/-! ## The obligation -/

/-- Settles O34: one lemma for each case of the stage, of a flush's beginning and of its end. -/
theorem journalRuns : Obligations.JournalRuns := by
  unfold Obligations.JournalRuns
  intro s t h j hj hrun
  have hclock : ∀ f, clocked (at_ s t) [islControl] f = f (at_ s t) := fun f => clocked_one hrun
  refine ⟨fun hhub => ?_, fun hhub => ?_, fun rs seg hrs hseg => ⟨fun hn hf hb hr hs hd => ?_, fun hstands => ?_, fun hb hr hp hs hd hf hn => ?_,
    fun hstands => ?_⟩, fun ok hstands => ?_, fun seg hf hp stage hstage => ⟨fun hroom => ?_, fun hfull => ?_, fun hroom => ?_⟩⟩
  · refine congrArg Host.Outcome.next ?_
    unfold crossing
    have hsource : [islControl].all (islandRuns (at_ s t)) = true := List.all_eq_true.2 (fun k hk => List.mem_singleton.1 hk ▸ hrun)
    have hsink : [islHub].all (islandRuns (at_ s t)) = false :=
      List.all_eq_false.2 ⟨islHub, List.mem_singleton.2 rfl, fun hon => absurd (hhub.symm.trans hon) (by decide)⟩
    rw [hsource, hsink]
    rfl
  · have hcross := crossing_arrives (s := at_ s t) (source := [islControl]) (sink := [islHub])
      (List.all_eq_true.2 (fun k hk => List.mem_singleton.1 hk ▸ hrun)) (List.all_eq_true.2 (fun k hk => List.mem_singleton.1 hk ▸ hhub))
      (.journalReservationDurable t h) (fun s => reservationDurable s h.toNat)
    subst hj
    refine ⟨_, congrArg Host.Outcome.next hcross, reservationDurable_stage _ _, reservationDurable_waits (s := at_ s t), fun hdone i c => ?_, ?_⟩
    · have hinst := reservationDurable_frees (s := at_ s t) hdone i
      exact ⟨fun o ho => by rw [hinst]; exact findOp_unwaited ho, fun o ho => by rw [hinst]; exact getSlot_unwaited ho⟩
    · rw [show (reservationDurable (at_ s t) h.toNat).now = (at_ s t).now from
        (congrArg State.now (reservationDurable_frame (at_ s t) h.toNat)).trans rfl]
      exact reservationDurable_frame (at_ s t) h.toNat
  · exact congrArg Host.Outcome.next ((hclock _).trans (beginFlush_begins (s := at_ s t) hj hrs hseg hn hf hb hr hs hd))
  · exact congrArg Host.Outcome.next ((hclock _).trans (beginFlush_stands (s := at_ s t) hj hrs hstands))
  · refine congrArg Host.Outcome.next ((hclock _).trans ?_)
    unfold flushRetry
    subst hj
    rw [if_pos ⟨hb, hp⟩]
    exact beginFlush_begins (s := withJournal { s.keys.journal with backoff := false } (at_ s t)) (j := { s.keys.journal with backoff := false })
      rfl hrs hseg hn hf rfl hr hs hd
  · refine congrArg Host.Outcome.next ((hclock _).trans (if_neg fun hgo => ?_))
    rcases hstands with h | h
    · exact absurd (h.symm.trans (hj ▸ hgo.1)) (by decide)
    · exact absurd (h.symm.trans hgo.2) (by decide)
  · exact congrArg Host.Outcome.next ((hclock _).trans (flushDone_stands (s := at_ s t) hj ok hstands))
  · refine congrArg Host.Outcome.next ((hclock _).trans ((flushDone_succeeds (s := at_ s t) hj hf hp).trans ?_))
    rw [snapshotDue_room (s := afterFlush (at_ s t) j seg)
      (Nat.lt_of_le_of_lt (Nat.le_of_eq (segmentsUsed_flushed seg)) (Nat.succ_lt_succ hroom))]
    unfold afterFlush flushed
    rw [putSegment_halves, hstage]
    rfl
  · have hdue := snapshotDue_full (s := afterFlush (at_ s t) j seg) ((segmentsUsed_flushed seg).trans (congrArg (· + 1) hfull)) rfl
    have hexec := (hclock (fun s => flushDone s true)).trans ((flushDone_succeeds (s := at_ s t) hj hf hp).trans hdue)
    have hwithin := snapshotJournal_within (afterFlush (at_ s t) j seg)
    refine ⟨_, congrArg Host.Outcome.next hexec, (hwithin.same (·.vault)).trans rfl, ?_, ?_⟩
    · rw [hwithin.same (·.keys.journal)]
      show snapshotted (flushed j seg) (snapshotSegs (at_ s t) (seg.epoch + 1)) = _
      unfold snapshotted flushed
      rw [putSegment_halves, hstage]
      cases j.activeB <;> rfl
    · rw [show (snapshotJournal (afterFlush (at_ s t) j seg)).now = (at_ s t).now from hwithin.same (·.now),
        show (snapshotJournal (afterFlush (at_ s t) j seg)).vault = (withSnapshot (afterFlush (at_ s t) j seg)).vault from hwithin.same (·.vault),
        show (snapshotJournal (afterFlush (at_ s t) j seg)).keys.journal = (withSnapshot (afterFlush (at_ s t) j seg)).keys.journal
          from hwithin.same (·.keys.journal)]
      exact hwithin
  · obtain ⟨hwithin, hcount, hevr⟩ := flushDone_fails (s := at_ s t) hj hf hp hroom
    refine ⟨flushDone (at_ s t) false, congrArg Host.Outcome.next (hclock _), ?_, hcount, hevr, ?_⟩
    · rw [hwithin.same (·.keys.journal)]
      show flushFailed j seg = _
      unfold flushFailed
      rw [putSegment_halves]
    · rw [show (flushDone (at_ s t) false).now = (at_ s t).now from hwithin.same (·.now),
        show (flushDone (at_ s t) false).keys.journal = flushFailed j seg from hwithin.same (·.keys.journal)]
      exact hwithin

end Sys2Proof.Machine
end

section
/-! SUPPORT. The end of a fuse sequence, debug challenges, an orderly shutdown, and the recorder's second (R355, R398, R400, R404, R437). -/

namespace Sys2Proof.Machine

-- One proof at a time: the check bounds the compiler's threads.
set_option Elab.async false

open Sys2Proof Sys2Proof.Safety

/-! ## The end of a fuse sequence -/

section
variable {s : State}

/-- The fuses of a sequence are burnt, and its transition is no longer pending. -/
theorem burnSequence_ends (t : Nat) (unburnt : List (Nat × Nat)) : Within { life := true, evr := true } s (burnSequence s t unburnt) ∧
    (burnSequence s t unburnt).life.pending = false ∧ (burnSequence s t unburnt).life.target = none := by
  have heach : ∀ (es : List (Nat × Nat)) (r : Nat) (w : State),
      Within { evr := true } w (each es w (fun s e => record s 0x7105 srcDevice (Bytes.ofNatLE 1 r ++ Bytes.ofNatLE 1 e.1 ++ Bytes.ofNatLE 1 e.2))) :=
    fun es r w => Within.each (fun v e => record_within v _ _ _) es w
  have hlife : ∀ l : Life, Within { life := true, evr := true } s { s with life := l } := fun _ => rfl
  unfold burnSequence
  dsimp only
  refine ⟨Within.then (G := { evr := true }) (hlife _) (heach _ _ _), ?_, ?_⟩
  · exact (heach _ _ _).same (·.life.pending)
  · exact (heach _ _ _).same (·.life.target)

/-- Whatever state the fuses of the row in force vote, the transition that gave it is over. -/
theorem endTransition_votes (t : Nat) (unburnt : List (Nat × Nat)) {w : State} (hw : w = endTransition s t unburnt) :
    w.power = s.power ∧ w.life.pending = false ∧ w.life.target = none ∧ w.life.st = lcVote (fuseRow w (rowInForce w)) ∧
    w.vault.transition = none := by
  obtain ⟨hwithin, hpending, htarget⟩ := burnSequence_ends (s := s) t unburnt
  subst hw
  exact ⟨hwithin.same (·.power), hpending, htarget, rfl, rfl⟩

theorem fuseRow_congr {w v : State} (h : w.life.rows = v.life.rows) : fuseRow w = fuseRow v := by
  funext r
  unfold fuseRow
  rw [h]

theorem rowInForce_congr {w v : State} (h : w.life.rows = v.life.rows) : rowInForce w = rowInForce v := by
  unfold rowInForce
  rw [fuseRow_congr h]

/-- The reset that the device makes once nothing burns: step 1 of a start over the fuses as they stand. -/
theorem internalReset_starts (hp : s.power.pwrGood = true) (hr : s.power.resetLow = false) (ht : s.power.thermtrip = false)
    (hb : s.life.pending = false) :
    (internalReset s).power.step = 1 ∧ (internalReset s).life = lifeLost s.life ∧ (internalReset s).vault = s.vault ∧
    (internalReset s).keys.slots = [] := by
  have hcut : cutBurning s = s := by
    unfold cutBurning
    rw [hb]
  have hpower := mainLost_power s
  have hlost : (mainLost s).life = lifeLost s.life ∧ (mainLost s).vault = s.vault ∧ (mainLost s).keys.slots = [] := by
    unfold mainLost
    rw [hcut]
    exact ⟨rfl, rfl, rfl⟩
  obtain ⟨-, -, hstart⟩ := settle_beginStart (s := mainLost s) (by rw [hpower]; exact hp) (by rw [hpower]; exact hr) (by rw [hpower]; exact ht)
  have hwithin := within_of_beside hstart
  obtain ⟨hlife, hvault, hslots⟩ := hlost
  exact ⟨hwithin.same (·.power.step), (hwithin.same (·.life)).trans hlife, (hwithin.same (·.vault)).trans hvault,
    (hwithin.same (·.keys.slots)).trans hslots⟩

end

/-! ## Debug challenges (R404) -/

section
variable {s : State} {c : DebugChal} (hc : s.life.chal = some c)
include hc

theorem challengeReads_ready (h : c.ready = false) (hn : c.nonce ≠ []) : challengeReads s =
    { s with life := { s.life with chal := some { c with bytes := challengeBytes s c, bornT := s.now, ready := true } } } := by
  unfold challengeReads
  rw [hc]
  exact if_pos ⟨h, hn⟩

theorem challengeReads_stands (h : c.ready = true ∨ c.nonce = []) : challengeReads s = s := by
  unfold challengeReads
  rw [hc]
  exact if_neg (fun hgo => h.elim (fun hr => absurd (hr.symm.trans hgo.1) (by decide)) hgo.2)

theorem challengeLapses_gone (hr : c.ready = true) (ha : c.answered = false) (ht : c.bornT + 600 * 10 ^ 9 ≤ s.now) :
    challengeLapses s = { s with life := { s.life with chal := none } } := by
  unfold challengeLapses
  rw [hc]
  exact if_pos ⟨hr, ha, ht⟩

theorem challengeLapses_stands (h : c.ready = false ∨ c.answered = true ∨ s.now < c.bornT + 600 * 10 ^ 9) : challengeLapses s = s := by
  unfold challengeLapses
  rw [hc]
  refine if_neg fun ⟨hr, ha, ht⟩ => ?_
  rcases h with h | h | h
  · exact absurd (h.symm.trans hr) (by decide)
  · exact absurd (h.symm.trans ha) (by decide)
  · exact absurd ht (Nat.not_le.2 h)

end

/-! ## The recorder's second (R437) -/

/-- The summary of one code, whose count of suppressed events is 0 again. -/
def summarise (s : State) (e : Nat × EvBucket) : State :=
  if 0 < e.2.lost then
    let s := recordExempt s 0x1102 srcDevice (Bytes.ofNatLE 2 e.1 ++ Bytes.ofNatLE 4 e.2.lost ++ Bytes.ofNatLE 2 e.2.src)
    { s with evr := { s.evr with buckets := mput s.evr.buckets e.1 { e.2 with lost := 0 } } }
  else s

theorem secondEnd_summarises (s : State) : secondEnd s = s.evr.buckets.foldl summarise s := rfl

theorem storeParts_buckets (r : Recorder) (es : List EvRec) : (storeParts r es).buckets = r.buckets := by
  have hpart : ∀ (r : Recorder) (e : EvRec), (storePart r e).buckets = r.buckets := fun r e => by
    have hraise : (raiseMark r).buckets = r.buckets := by
      unfold raiseMark
      split <;> rfl
    unfold storePart
    dsimp only
    rw [hraise]
  unfold storeParts
  induction es generalizing r with
  | nil => rfl
  | cons e es ih => rw [List.foldl_cons, ih, hpart]

theorem recordExempt_buckets (s : State) (code source : Nat) (args : Bytes) : (recordExempt s code source args).evr.buckets = s.evr.buckets := by
  unfold recordExempt intake
  split
  · exact storeParts_buckets _ _
  · split <;> rfl

section
variable (s : State) (e : Nat × EvBucket)

theorem summarise_within : Within { evr := true } s (summarise s e) := by
  unfold summarise
  split
  · exact (recordExempt_within s _ _ _).then (G := { evr := true }) rfl
  · exact .refl s

theorem summarise_buckets : (summarise s e).evr.buckets = if 0 < e.2.lost then mput s.evr.buckets e.1 { e.2 with lost := 0 } else s.evr.buckets := by
  unfold summarise
  split
  · dsimp only
    rw [recordExempt_buckets]
  · rfl

variable {s e}

theorem summarise_rising (h : mrising s.evr.buckets = true) : mrising (summarise s e).evr.buckets = true := by
  rw [summarise_buckets]
  split
  · exact mrising_mput _ _ h
  · exact h

/-- A count that still stands after a summary stood before, and was not the one summarised. -/
theorem lost_of_summarise (h : mrising s.evr.buckets = true) {b : Nat × EvBucket} (hb : b ∈ (summarise s e).evr.buckets) (hl : b.2.lost ≠ 0) :
    b ∈ s.evr.buckets ∧ b ≠ e := by
  have hrise := summarise_rising (e := e) h
  rw [summarise_buckets] at hb hrise
  split at hb
  · next hpos =>
    rw [if_pos hpos] at hrise
    rcases mem_mput hb with rfl | hin
    · exact absurd rfl hl
    · refine ⟨hin, fun heq => hl ?_⟩
      subst heq
      have hread := mget_of_mem b.2 hrise hb
      rw [mget_mput_same] at hread
      rw [← hread]
  · next hpos => exact ⟨hb, fun heq => hl (by rw [heq]; omega)⟩

/-- After a run of summaries only counts that are not among them stand. -/
theorem lost_of_summaries (es : List (Nat × EvBucket)) {s : State} (h : mrising s.evr.buckets = true) {b : Nat × EvBucket}
    (hb : b ∈ (es.foldl summarise s).evr.buckets) (hl : b.2.lost ≠ 0) : b ∈ s.evr.buckets ∧ b ∉ es := by
  induction es generalizing s with
  | nil => exact ⟨hb, List.not_mem_nil⟩
  | cons e es ih =>
    obtain ⟨hmid, hnot⟩ := ih (summarise_rising h) hb
    obtain ⟨hin, hne⟩ := lost_of_summarise h hmid hl
    exact ⟨hin, fun hmem => (List.mem_cons.1 hmem).elim hne hnot⟩

end

theorem secondEnd_lost {s : State} (h : mrising s.evr.buckets = true) : ∀ e ∈ (secondEnd s).evr.buckets, e.2.lost = 0 := by
  intro e he
  rw [secondEnd_summarises] at he
  refine Decidable.byContradiction fun hl => ?_
  obtain ⟨hin, hnot⟩ := lost_of_summaries s.evr.buckets h he hl
  exact hnot hin

theorem secondEnd_noted (s : State) : Noted s (secondEnd s) := by
  have hfold : ∀ (es : List (Nat × EvBucket)) (w : State), Within { evr := true } w (es.foldl summarise w) := fun es => by
    induction es with
    | nil => exact fun w => .refl w
    | cons e es ih => exact fun w => (summarise_within w e).trans (ih _)
  exact ((hfold s.evr.buckets s).mono rfl : Within { cnt := true, evr := true } s _)

theorem secondEnd_stands {s : State} (h : ∀ e ∈ s.evr.buckets, e.2.lost = 0) : secondEnd s = s := by
  have hfold : ∀ (es : List (Nat × EvBucket)), (∀ e ∈ es, e.2.lost = 0) → es.foldl summarise s = s := fun es => by
    induction es with
    | nil => exact fun _ => rfl
    | cons e es ih =>
      intro hes
      have hzero : summarise s e = s := if_neg (by rw [hes e List.mem_cons_self]; decide)
      rw [List.foldl_cons, hzero]
      exact ih (fun e he => hes e (List.mem_cons_of_mem _ he))
  exact hfold _ h

/-! ## Orderly shutdown (R355) -/

theorem shutdownDone_ready {s : State} (h1 : s.power.shutdown = 1) (h2 : noAdmitted s = true) (h3 : s.ctl.commits = []) (h4 : allFlushed s = true) :
    Noted { s with power := { s.power with shutdown := 2 } } (shutdownDone s) := by
  unfold shutdownDone
  rw [if_pos ⟨h1, h2, by rw [h3]; rfl, h4⟩]
  exact ((record_within _ _ _ _).mono rfl : Within { cnt := true, evr := true } _ _)

theorem shutdownDone_stands {s : State} (h : s.power.shutdown ≠ 1 ∨ noAdmitted s = false ∨ s.ctl.commits ≠ [] ∨ allFlushed s = false) :
    shutdownDone s = s := by
  refine if_neg fun ⟨h1, h2, h3, h4⟩ => ?_
  rcases h with h | h | h | h
  · exact h h1
  · exact absurd (h.symm.trans h2) (by decide)
  · exact h (List.isEmpty_iff.1 h3)
  · exact absurd (h.symm.trans h4) (by decide)

/-- Settles O58: each event is one lemma of its condition and one of its opposite. -/
theorem lifeCycleAndRecorderEvents : Obligations.LifeCycleAndRecorderEvents := by
  unfold Obligations.LifeCycleAndRecorderEvents
  intro s t unburnt
  refine ⟨fun target hpend htarget hp hr ht => ?_, fun hpend => ?_, fun hstop c hc => ?_, fun hrun => ⟨fun c hc => ⟨fun hready hn => ?_, fun h => ?_,
    fun hready ha hdue => ?_, fun h => ?_⟩, fun h1 h2 h3 h4 => ?_, fun h => ?_, fun h => ?_, fun h => ?_⟩⟩
  · have hdone : fusesDone (at_ s t) unburnt = internalReset (endTransition (at_ s t) target unburnt) := by
      unfold fusesDone
      rw [show (at_ s t).life.pending = true from hpend, show (at_ s t).life.target = some target from htarget]
      exact if_pos hp
    have hexec : exec (.lcFuseSequenceDone t unburnt) s = .next (settle (internalReset (endTransition (at_ s t) target unburnt))) :=
      congrArg (fun w => Host.Outcome.next (settle w)) hdone
    obtain ⟨hpower, hpending, -, hst, htrans⟩ := endTransition_votes (s := at_ s t) target unburnt rfl
    generalize endTransition (at_ s t) target unburnt = w at *
    obtain ⟨hstep, hlife, hvault, hslots⟩ := internalReset_starts (s := w) (by rw [hpower]; exact hp) (by rw [hpower]; exact hr)
      (by rw [hpower]; exact ht) hpending
    have hs := settle_within (internalReset w)
    have hlife' : (settle (internalReset w)).life = lifeLost w.life := (hs.same (·.life)).trans hlife
    have hrows : (settle (internalReset w)).life.rows = w.life.rows := by rw [hlife']; rfl
    refine ⟨_, hexec, ?_, by rw [hlife']; rfl, by rw [hlife']; rfl, ?_, (hs.same (·.power.step)).trans hstep,
      (hs.same (·.keys.slots)).trans hslots⟩
    · rw [fuseRow_congr hrows, rowInForce_congr hrows, hlife']
      exact hst
    · rw [hs.same (·.vault), hvault]
      exact htrans
  · have hdone : fusesDone (at_ s t) unburnt = at_ s t := by
      unfold fusesDone
      rw [show (at_ s t).life.pending = false from hpend]
    exact ⟨_, congrArg (fun w => Host.Outcome.next (settle w)) hdone, settle_beside _⟩
  · have hclock : ∀ f, clocked (at_ s t) [islControl] f = at_ s t := fun f => clocked_one_stands hstop
    simp only [List.mem_cons, List.not_mem_nil, or_false] at hc
    rcases hc with rfl | rfl | rfl | rfl <;> exact congrArg Host.Outcome.next (hclock _)
  · exact congrArg Host.Outcome.next ((clocked_one hrun).trans (challengeReads_ready (s := at_ s t) hc hready hn))
  · exact congrArg Host.Outcome.next ((clocked_one hrun).trans (challengeReads_stands (s := at_ s t) hc h))
  · exact congrArg Host.Outcome.next ((clocked_one hrun).trans (challengeLapses_gone (s := at_ s t) hc hready ha hdue))
  · exact congrArg Host.Outcome.next ((clocked_one hrun).trans (challengeLapses_stands (s := at_ s t) hc h))
  · exact ⟨_, congrArg Host.Outcome.next (clocked_one hrun), shutdownDone_ready (s := at_ s t) h1 h2 h3 h4⟩
  · exact congrArg Host.Outcome.next ((clocked_one hrun).trans (shutdownDone_stands (s := at_ s t) h))
  · exact congrArg Host.Outcome.next ((clocked_one hrun).trans (secondEnd_stands (s := at_ s t) h))
  · exact ⟨_, congrArg Host.Outcome.next (clocked_one hrun), secondEnd_lost (s := at_ s t) h, secondEnd_noted (at_ s t)⟩

end Sys2Proof.Machine
end

section
/-! SUPPORT. The reduced watch on backup power: its checks, the decisions of the backup domain, and what the loss of the cell leaves
(R272, R366 to R369, R382 to R388, R440). -/

namespace Sys2Proof.Machine

-- One proof at a time: the check bounds the compiler's threads.
set_option Elab.async false

open Sys2Proof Sys2Proof.Safety

/-! ## What leaves the latch register alone -/

/-- Beside the backup domain and the recorder nothing has changed, and the latch register stands. -/
def LatchStands (s u : State) : Prop := Within { backup := true, evr := true } s u ∧ u.backup.latch = s.backup.latch

section
variable {s u v : State}

theorem LatchStands.refl (s : State) : LatchStands s s := ⟨.refl s, rfl⟩

theorem LatchStands.trans (h : LatchStands s u) (h' : LatchStands u v) : LatchStands s v := ⟨h.1.trans h'.1, h'.2.trans h.2⟩

theorem LatchStands.each {α : Type} {f : State → α → State} (h : ∀ w a, LatchStands w (f w a)) (xs : List α) (s : State) :
    LatchStands s (each xs s f) :=
  each_keeps (P := fun w => LatchStands s w) (fun w a hw => hw.trans (h w a)) xs (.refl s)

variable (s)

theorem tailRecord_latch (time code source flags : Nat) (args : Bytes) : LatchStands s (tailRecord s time code source flags args) := by
  unfold tailRecord
  dsimp only
  split <;> exact ⟨rfl, rfl⟩

theorem record_latch (code source : Nat) (args : Bytes) : LatchStands s (record s code source args) :=
  ⟨(record_within s code source args).mono rfl, (record_within s code source args).same (·.backup.latch)⟩

theorem periodRecord_latch (m : Nat) (args : Bytes) : LatchStands s (periodRecord s m args) := by
  unfold periodRecord
  split
  · exact tailRecord_latch s _ _ _ _ _
  · exact .refl s

theorem noteLife_latch : LatchStands s (noteLife s) := by
  have hlevel : ∀ w l, LatchStands w (recordLife w l) := fun w l => by
    unfold recordLife
    split
    · exact tailRecord_latch w _ _ _ _ _
    · exact record_latch w _ _ _
  unfold noteLife
  dsimp only
  generalize (if envLife s = 0 then 3 else if envLife s ≤ 50 then 2 else if envLife s ≤ 250 then 1 else 0) = level
  split
  · split
    · refine LatchStands.trans (u := { s with backup := _ }) ⟨rfl, rfl⟩ (.each (fun w l => ?_) _ _)
      split
      · exact hlevel w l
      · exact .refl w
    · exact .refl s
  · exact .refl s

theorem addCharge_latch (q : Nat) : LatchStands s (addCharge s q) := by
  unfold addCharge
  split
  · exact LatchStands.trans (u := { s with backup := _ }) ⟨rfl, rfl⟩ (noteLife_latch _)
  · exact .refl s

theorem checkNets_latch (c : Cfg) (withCap : Bool) (nets : List NetReading) : LatchStands s (checkNets s c withCap nets).1 := by
  unfold checkNets
  split <;> exact ⟨rfl, rfl⟩

theorem tamperTail_latch (was : Bool) : LatchStands s (tamperTail s was) := by
  unfold tamperTail
  exact LatchStands.trans (u := { s with backup := _ }) ⟨rfl, rfl⟩ (.each (fun w _ => tailRecord_latch w _ _ _ _ _) _ _)

end

/-! ## Decisions (R385) -/

section
variable (s : State) (found : List (Nat × Bytes)) (floor : Nat)

/-- The monitors that a decision latches. -/
def newLatches (s : State) (found : List (Nat × Bytes)) : List (Nat × Bytes) :=
  (found.filter (fun e => !bitOf s.backup.latch.mons e.1)).filter (fun e => backupClass s e.1 != 0)

/-- The class that a decision comes to. -/
def decidedClass (s : State) (found : List (Nat × Bytes)) (floor : Nat) : Nat :=
  let held := if s.backup.latch.cls = 0xFF then 0 else s.backup.latch.cls
  (newLatches s found).foldl (fun c e => max c (max floor (backupClass s e.1))) (if floor ≠ 0 ∧ found ≠ [] then max held floor else held)

/-- The latches that a decision leaves. -/
def decidedMons (s : State) (found : List (Nat × Bytes)) : Nat :=
  (newLatches s found).foldl (fun m e => putBit m e.1 true) s.backup.latch.mons

/-- The events of class NOTE, each with its record. -/
def notesWritten (s : State) (found : List (Nat × Bytes)) : State :=
  each ((found.filter (fun e => !bitOf s.backup.latch.mons e.1)).filter (fun e => backupClass s e.1 == 0)) s
    (fun w e => periodRecord w e.1 (Bytes.ofNatLE 1 0 ++ Bytes.ofNatLE 2 s.backup.latch.mons ++ e.2))

theorem notesWritten_latch : LatchStands s (notesWritten s found) := .each (fun w _ => periodRecord_latch w _ _) _ s

theorem backupDecide_decides (cellGone one : Bool) : backupDecide s found floor cellGone one =
    if decidedClass s found floor = 0 then notesWritten s found
    else each (if one then found.take 1 else newLatches s found)
      (backupActions (setLatch (notesWritten s found) (decidedMons s found) (decidedClass s found floor)) (latchDone s.backup.latch)
        (decidedClass s found floor) cellGone)
      (fun w e => periodRecord w e.1
        (Bytes.ofNatLE 1 (decidedClass s found floor) ++ Bytes.ofNatLE 2 (decidedMons s found) ++ e.2)) := rfl

/-- A decision of no class writes records alone. -/
theorem backupDecide_none (cellGone one : Bool) (h : decidedClass s found floor = 0) : LatchStands s (backupDecide s found floor cellGone one) := by
  rw [backupDecide_decides, if_pos h]
  exact notesWritten_latch s found

/-- Any other takes the actions of its class, its records before and behind them. -/
theorem backupDecide_acts (cellGone one : Bool) (h : decidedClass s found floor ≠ 0) : ∃ w, LatchStands s w ∧
    LatchStands (backupActions (setLatch w (decidedMons s found) (decidedClass s found floor)) (latchDone s.backup.latch)
      (decidedClass s found floor) cellGone) (backupDecide s found floor cellGone one) := by
  rw [backupDecide_decides, if_neg h]
  exact ⟨_, notesWritten_latch s found, .each (fun w _ => periodRecord_latch w _ _) _ _⟩

theorem writeMark_latch (cls : Nat) (cellGone : Bool) : LatchStands s (writeMark s cls cellGone) := by
  unfold writeMark
  dsimp only
  split
  · exact ⟨rfl, rfl⟩
  · exact .refl s

/-- What a cleared vault leaves. -/
theorem clearVault_clears : (clearVault s).vault = {} ∧ (clearVault s).kumCtr = [] ∧ (clearVault s).devCtr = [] ∧
    (clearVault s).backup.latch = s.backup.latch ∧ (clearVault s).power = { s.power with startups := 0 } := by
  unfold clearVault
  dsimp only
  split <;> exact ⟨rfl, rfl, rfl, rfl, rfl⟩

variable {s}

/-- A class below CLEAR-KEYS takes nothing from the vault. -/
theorem backupActions_mild {done cls : Nat} (cellGone : Bool) (h : cls ≤ 2) : backupActions s done cls cellGone = s := by
  unfold backupActions
  dsimp only
  rw [if_neg (by omega), if_neg (by omega), if_neg (by omega)]

/-- CLEAR-ROOT and above clear the vault where that is not yet done. -/
theorem backupActions_clears {done cls : Nat} (cellGone : Bool) (h : 4 ≤ cls) (hd : done < 4) :
    LatchStands (clearVault s) (backupActions s done cls cellGone) := by
  unfold backupActions
  dsimp only
  rw [if_pos (show 4 ≤ cls ∧ done < 4 from ⟨h, hd⟩), if_pos (show 4 ≤ cls ∧ done < cls from ⟨h, by omega⟩)]
  exact writeMark_latch _ _ _

theorem backupActions_latch (done cls : Nat) (cellGone : Bool) : (backupActions s done cls cellGone).backup.latch = s.backup.latch ∧
    (backupActions s done cls cellGone).power = { s.power with startups := (backupActions s done cls cellGone).power.startups } := by
  have hmark : ∀ w : State, (w.backup.latch = s.backup.latch ∧ w.power = { s.power with startups := w.power.startups }) →
      ∀ c : Prop, ∀ _ : Decidable c, (if c then writeMark w cls cellGone else w).backup.latch = s.backup.latch ∧
        (if c then writeMark w cls cellGone else w).power =
          { s.power with startups := (if c then writeMark w cls cellGone else w).power.startups } := fun w hw c _ => by
    split
    · obtain ⟨hwithin, hlatch⟩ := writeMark_latch w cls cellGone
      rw [hlatch, hwithin.same (·.power)]
      exact hw
    · exact hw
  unfold backupActions
  refine hmark _ ?_ _ _
  split
  · obtain ⟨-, -, -, hlatch, hpower⟩ := clearVault_clears s
    rw [hlatch, hpower]
    exact ⟨rfl, rfl⟩
  · split <;> exact ⟨rfl, rfl⟩

/-- A vault that no CLEAR-ROOT has cleared. -/
theorem latchDone_lt {l : LatchReg} (h : l.rootDone = false) : latchDone l < 4 := by
  unfold latchDone
  rw [h]
  split
  · decide
  · split
    · omega
    · split
      · decide
      · next hcls =>
        have : ¬4 ≤ l.cls := fun hge => hcls ⟨hge, rfl⟩
        split <;> omega

end

/-! ## What a decision leaves -/

section
variable {s : State} {found : List (Nat × Bytes)} {floor : Nat} (cellGone one : Bool)

/-- The latch register after a decision of some class. -/
theorem backupDecide_latch (h : decidedClass s found floor ≠ 0) :
    (backupDecide s found floor cellGone one).backup.latch.cls = decidedClass s found floor ∧
    (backupDecide s found floor cellGone one).backup.latch.mons = decidedMons s found := by
  obtain ⟨w, -, hacts⟩ := backupDecide_acts s found floor cellGone one h
  rw [hacts.2, (backupActions_latch _ _ _).1]
  exact ⟨rfl, rfl⟩

/-- Of the power state a decision reaches the count of starts alone. -/
theorem backupDecide_power : (backupDecide s found floor cellGone one).power =
    { s.power with startups := (backupDecide s found floor cellGone one).power.startups } := by
  by_cases h : decidedClass s found floor = 0
  · rw [(backupDecide_none s found floor cellGone one h).1.same (·.power)]
  · obtain ⟨w, hw, hacts⟩ := backupDecide_acts s found floor cellGone one h
    have hpower := (backupActions_latch (s := setLatch w (decidedMons s found) (decidedClass s found floor)) (latchDone s.backup.latch)
      (decidedClass s found floor) cellGone).2
    rw [hacts.1.same (·.power), hpower, show (setLatch w (decidedMons s found) (decidedClass s found floor)).power = s.power from
      hw.1.same (·.power)]

/-- A class below CLEAR-KEYS leaves the vault and the counters. -/
theorem backupDecide_mild (h : decidedClass s found floor ≤ 2) : (backupDecide s found floor cellGone one).vault = s.vault ∧
    (backupDecide s found floor cellGone one).kumCtr = s.kumCtr := by
  by_cases h0 : decidedClass s found floor = 0
  · have hnone := (backupDecide_none s found floor cellGone one h0).1
    exact ⟨hnone.same (·.vault), hnone.same (·.kumCtr)⟩
  · obtain ⟨w, hw, hacts⟩ := backupDecide_acts s found floor cellGone one h0
    rw [backupActions_mild cellGone h] at hacts
    exact ⟨(hacts.1.same (·.vault)).trans (hw.1.same (·.vault)), (hacts.1.same (·.kumCtr)).trans (hw.1.same (·.kumCtr))⟩

/-- CLEAR-ROOT and above clear vault and counters. -/
theorem backupDecide_clears (h : 4 ≤ decidedClass s found floor) (hd : latchDone s.backup.latch < 4) :
    (backupDecide s found floor cellGone one).vault = {} ∧ (backupDecide s found floor cellGone one).kumCtr = [] ∧
    (backupDecide s found floor cellGone one).devCtr = [] := by
  obtain ⟨w, -, hacts⟩ := backupDecide_acts s found floor cellGone one (by omega)
  have hall := (backupActions_clears (s := setLatch w (decidedMons s found) (decidedClass s found floor)) cellGone h hd).trans hacts
  obtain ⟨hvault, hkum, hdev, -, -⟩ := clearVault_clears (setLatch w (decidedMons s found) (decidedClass s found floor))
  exact ⟨(hall.1.same (·.vault)).trans hvault, (hall.1.same (·.kumCtr)).trans hkum, (hall.1.same (·.devCtr)).trans hdev⟩

end

/-! ## Checks (R384) -/

section
variable {s w v : State} {nets : List NetReading} {kelvin cellMv levels fired cls : Nat} {new : List (Nat × Bytes)}

/-- A check is the decision over its findings, with the inputs seen behind it. -/
theorem backupCheck_decides (hb : onBackup s = true) (hl : s.life.st ≠ 5)
    (hw : w = addCharge s (ageing (Int.ofNat kelvin - 273) 460800 + backupCharge (Int.ofNat kelvin - 273)))
    (hv : (v, fired) = checkNets (drivePatterns { w with backup := { w.backup with
      levels := levels % 16, cellMv := cellMv % 65536, tempDeciK := kelvin * 10 % 65536 } }) s.ctl.backupCfg false nets) :
    LatchStands s v ∧ LatchStands (backupDecide v (backupFindings v fired kelvin cellMv) 0 false false) (backupCheck s nets kelvin cellMv levels) := by
  obtain ⟨p, hp⟩ : ∃ p, p = drivePatterns { w with backup := { w.backup with
      levels := levels % 16, cellMv := cellMv % 65536, tempDeciK := kelvin * 10 % 65536 } } := ⟨_, rfl⟩
  have hcharge : LatchStands s w := hw ▸ addCharge_latch s _
  have hdrive : LatchStands w p := hp ▸ ⟨rfl, rfl⟩
  have hcfg : p.ctl.backupCfg = s.ctl.backupCfg := (hcharge.trans hdrive).1.same (·.ctl.backupCfg)
  rw [← hp] at hv
  have hcheck : backupCheck s nets kelvin cellMv levels =
      if backupArmed (backupDecide v (backupFindings v fired kelvin cellMv) 0 false false) 10 then
        tamperTail (backupDecide v (backupFindings v fired kelvin cellMv) 0 false false) (bitOf v.backup.latch.mons 10)
      else backupDecide v (backupFindings v fired kelvin cellMv) 0 false false := by
    have hall : backupCheck s nets kelvin cellMv levels =
        let q := checkNets p p.ctl.backupCfg false nets
        if backupArmed (backupDecide q.1 (backupFindings q.1 q.2 kelvin cellMv) 0 false false) 10 then
          tamperTail (backupDecide q.1 (backupFindings q.1 q.2 kelvin cellMv) 0 false false) (bitOf q.1.backup.latch.mons 10)
        else backupDecide q.1 (backupFindings q.1 q.2 kelvin cellMv) 0 false false := by
      subst hp hw
      unfold backupCheck
      rw [if_neg (by rw [hb]; simp [hl])]
      rfl
    rw [hall, hcfg, ← hv]
  have hnets : LatchStands p v := by
    have hfst : v = (checkNets p s.ctl.backupCfg false nets).1 := congrArg Prod.fst hv
    exact hfst ▸ checkNets_latch p _ _ _
  refine ⟨(hcharge.trans hdrive).trans hnets, ?_⟩
  rw [hcheck]
  split
  · exact tamperTail_latch _ _
  · exact .refl _

theorem backupClass_congr (h : v.ctl.backupCfg = s.ctl.backupCfg) (m : Nat) : backupClass v m = backupClass s m := by
  unfold backupClass
  rw [h]

/-- Without a floor the class is the highest of the new latches, and of what has been executed. -/
theorem decidedClass_unfloored (h : LatchStands s v) {found : List (Nat × Bytes)}
    (hnew : new = found.filter (fun e => !bitOf s.backup.latch.mons e.1 && backupClass s e.1 != 0))
    (hcls : cls = new.foldl (fun c e => max c (backupClass s e.1)) (if s.backup.latch.cls = 0xFF then 0 else s.backup.latch.cls)) :
    decidedClass v found 0 = cls := by
  have hclass : ∀ m, backupClass v m = backupClass s m := backupClass_congr (h.1.same (·.ctl.backupCfg))
  subst hcls hnew
  unfold decidedClass newLatches
  simp only [h.2, hclass, List.filter_filter, Nat.zero_max, ne_eq, not_true_eq_false, false_and, if_false]
  simp only [Bool.and_comm]

end

/-! ## Continuous watches (R383, R385, R386) -/

section
variable {s : State} {m : Nat} (d : Bytes)

/-- An event on the cell decides CLEAR-ROOT at least. -/
theorem decidedClass_floored {floor : Nat} (hf : 4 ≤ floor) : 4 ≤ decidedClass s [(m, d)] floor := by
  have hfold : ∀ (es : List (Nat × Bytes)) (c : Nat), c ≤ es.foldl (fun c e => max c (max floor (backupClass s e.1))) c := fun es => by
    induction es with
    | nil => exact fun c => Nat.le_refl c
    | cons e es ih => exact fun c => Nat.le_trans (Nat.le_max_left _ _) (ih _)
  unfold decidedClass
  refine Nat.le_trans ?_ (hfold _ _)
  rw [if_pos ⟨by omega, List.cons_ne_nil _ _⟩]
  exact Nat.le_trans hf (Nat.le_max_right _ _)

/-- An event of a class, of a monitor not yet latched, is one new latch. -/
theorem decided_one (hc : backupClass s m ≠ 0) (hbit : bitOf s.backup.latch.mons m = false) :
    backupClass s m ≤ decidedClass s [(m, d)] 0 ∧ bitOf (decidedMons s [(m, d)]) m = true := by
  have hnew : newLatches s [(m, d)] = [(m, d)] := by
    unfold newLatches
    simp [hbit, hc]
  unfold decidedClass decidedMons
  rw [hnew]
  refine ⟨?_, ?_⟩
  · exact Nat.le_trans (Nat.le_max_right 0 _) (Nat.le_max_right _ _)
  · rw [List.foldl_cons, List.foldl_nil, bitOf_putBit, if_pos rfl]

/-- Whether the domain runs on the cell is a matter of pins and supply. -/
theorem onBackup_congr {w v : State} {n : Nat} (h : w.power = { v.power with startups := n }) : onBackup w = onBackup v := by
  unfold onBackup backupInForce
  rw [h]

/-- An event that the watch detects, as what it comes to, and the loss of the cell behind it. -/
theorem watchEvent_decided {present : Bool} (ha : backupArmed s m = true) {u : State}
    (hu : (if onBackup s then backupDecide s [(m, d)] (if backupClass s m = 5 then 5 else 4) (!present) true
      else if 1 ≤ s.power.step then raiseMonitor s m d else backupDecide s [(m, d)] 0 (!present) true) = u) :
    watchEvent s m d present = if onBackup u && !present then loseSupply u else u :=
  congrArg (fun u => if onBackup u && !present then loseSupply u else u)
    ((if_neg (fun h => absurd (ha.symm.trans h) (by decide))).trans hu)

theorem watchEvent_onBackup {present : Bool} (ha : backupArmed s m = true) (hb : onBackup s = true) (hr : s.backup.latch.rootDone = false) :
    ∃ u, u.vault = {} ∧ u.kumCtr = [] ∧ 4 ≤ u.backup.latch.cls ∧ u.power = { s.power with startups := u.power.startups } ∧
    watchEvent s m d present = if present then u else loseSupply u := by
  have hfloor : 4 ≤ decidedClass s [(m, d)] (if backupClass s m = 5 then 5 else 4) := decidedClass_floored d (by split <;> decide)
  obtain ⟨hvault, hkum, -⟩ := backupDecide_clears (s := s) (!present) true hfloor (latchDone_lt hr)
  have hlatch := (backupDecide_latch (s := s) (found := [(m, d)]) (!present) true (Nat.ne_of_gt (Nat.lt_of_lt_of_le (by decide) hfloor))).1
  have hpower := backupDecide_power (s := s) (found := [(m, d)]) (floor := if backupClass s m = 5 then 5 else 4) (!present) true
  have hall := watchEvent_decided d (present := present) ha (if_pos hb)
  rw [onBackup_congr hpower, hb] at hall
  refine ⟨_, hvault, hkum, hlatch ▸ hfloor, hpower, hall.trans ?_⟩
  cases present <;> rfl

theorem watchEvent_onMain {present : Bool} (ha : backupArmed s m = true) (hb : onBackup s = false) : ∃ u,
    (1 ≤ s.power.step → u = raiseMonitor s m d) ∧ (s.power.step = 0 → u = backupDecide s [(m, d)] 0 (!present) true) ∧
    watchEvent s m d present = if onBackup u && !present then loseSupply u else u := by
  have hoff : ¬onBackup s = true := fun h => absurd (hb.symm.trans h) (by decide)
  by_cases h : 1 ≤ s.power.step
  · exact ⟨_, fun _ => rfl, fun h0 => absurd h0 (by omega), watchEvent_decided d ha ((if_neg hoff).trans (if_pos h))⟩
  · exact ⟨_, fun h1 => absurd h1 h, fun _ => rfl, watchEvent_decided d ha ((if_neg hoff).trans (if_neg h))⟩

theorem raiseMonitor_within : Within { alarm := true, evr := true } s (raiseMonitor s m d) := by
  unfold raiseMonitor
  dsimp only
  refine .ite ?_ (.ite ?_ rfl)
  · exact ((modMon_within s m _).mono rfl).then (recordLimited_within _ _ _ _)
  · exact ((modMon_within s m _).mono rfl).then (recordLimited_within _ _ _ _)

/-- An event of a monitor that is not latched: it counts, and latches unless its class is NOTE. -/
theorem raiseMonitor_mon (h : (getMon s m).latched = false) : getMon (raiseMonitor s m d) m = { getMon s m with
    events := (getMon s m).events + 1, lastT := s.now, latched := decide (monClass s m ≠ 0) } := by
  have hclass : ∀ f, monClass (modMon s m f) m = monClass s m := fun _ => rfl
  unfold raiseMonitor
  dsimp only
  rw [hclass]
  split
  · next h0 =>
    rw [(recordLimited_within _ _ _ _).same (fun w => getMon w m), getMon_modMon_same, h0]
    exact congrArg (fun b => ({ getMon s m with events := (getMon s m).events + 1, lastT := s.now, latched := b } : Mon)) h
  · next h0 =>
    rw [if_neg (by rw [getMon_modMon_same]; exact fun hl => absurd (h.symm.trans hl) Bool.noConfusion), decide_eq_true h0]
    show getMon (modMon (modMon s m _) m (fun x => { x with latched := true })) m = _
    rw [getMon_modMon_same, getMon_modMon_same]

/-- Early in a start a monitor of the Envelope has the class that the backup domain holds. -/
theorem monClass_shared (hs : s.power.step ≤ 10) (hm : m ≠ 15) (he : envMonitor m = true) : monClass s m = backupClass s m := by
  unfold monClass
  rw [if_neg hm, if_pos ⟨hs, .inl he⟩]

end

/-- The senses that the backup domain's own watch reports as events of monitor `p.2`. -/
def Reported (s : State) (p : MonSense × Nat) : Prop :=
  (∃ mv ns, p = (.cell mv ns, 9) ∧ cellHolds s.ctl.backupCfg mv ns = true) ∨
    (∃ us, p = (.envOpen us, 8) ∧ us ≠ 0 ∧ contactHolds s.ctl.backupCfg us = true)

section
variable {s : State} {p : MonSense × Nat} (hp : Reported s p)
include hp

theorem Reported.monitor : envMonitor p.2 = true ∧ p.2 ≠ 15 := by
  rcases hp with ⟨mv, ns, rfl, -⟩ | ⟨us, rfl, -, -⟩
  · exact ⟨rfl, show 9 ≠ 15 by decide⟩
  · exact ⟨rfl, show 8 ≠ 15 by decide⟩

theorem Reported.watched (ha : backupArmed s p.2 = true) : ∃ w d, LatchStands s w ∧ ∀ present, backupWatch s p.1 present = watchEvent w p.2 d present := by
  have hwatch : ¬(onBackup s = false ∧ watchesEarly s = false) := fun ⟨h1, h2⟩ => by
    unfold backupArmed at ha
    rw [h1, h2] at ha
    exact absurd ha Bool.noConfusion
  rcases hp with ⟨mv, ns, rfl, hh⟩ | ⟨us, rfl, hne, hh⟩
  · refine ⟨s, detail mv, .refl s, fun present => ?_⟩
    unfold backupWatch
    rw [if_neg hwatch]
    exact if_pos hh
  · refine ⟨{ s with backup := { s.backup with contact := false } }, detail us, ⟨rfl, rfl⟩, fun present => ?_⟩
    unfold backupWatch
    rw [if_neg hwatch]
    exact (if_neg hne).trans (if_pos hh)

end

/-- The backup domain without supply. -/
theorem loseSupply_loses (s : State) : (loseSupply s).vault = {} ∧ (loseSupply s).power.supply = .dead ∧ (loseSupply s).backup.latch = {} ∧
    (loseSupply s).backup.tail = [] := ⟨(clearVault_clears s).1, rfl, rfl, rfl⟩

/-- Settles O57: a check is the decision over what it finds, an event of a watch is the decision with its floor, or an event of its monitor. -/
theorem backupDomainWatches : Obligations.BackupDomainWatches := by
  unfold Obligations.BackupDomainWatches
  intro s t nets kelvin cellMv levels
  refine ⟨fun hb => ⟨?_, fun he sense present => ?_⟩, fun hb hl w v fired cls new hw hv hnew hcls => ?_, fun p hp ha => ⟨fun hb present => ?_, fun hb hr => ?_⟩⟩
  · exact congrArg Host.Outcome.next (if_pos (.inl hb))
  · have hexec : exec (.backupWatchEvent t sense present) s = .next (settle (at_ s t)) :=
      congrArg (fun w => Host.Outcome.next (settle w)) (if_pos ⟨hb, he⟩)
    exact ⟨_, hexec, settle_beside _⟩
  · obtain ⟨hsv, hdu⟩ := backupCheck_decides (s := at_ s t) hb hl hw hv
    have hclass : decidedClass v (backupFindings v fired kelvin cellMv) 0 = cls := decidedClass_unfloored (s := at_ s t) hsv hnew hcls
    have hlatch : v.backup.latch = s.backup.latch := hsv.2
    refine ⟨_, rfl, fun h0 => ?_, fun h0 => ?_, fun h2 => ?_, fun h4 hd => ?_⟩
    · have hall := (hsv.trans (backupDecide_none v _ 0 false false (hclass.trans h0))).trans hdu
      exact ⟨hall.2, hall.1.same (·.vault), hall.1.same (·.kumCtr)⟩
    · have hcls' := (backupDecide_latch (s := v) (found := backupFindings v fired kelvin cellMv) (floor := 0) false false
        (hclass.symm ▸ h0)).1
      exact (congrArg LatchReg.cls hdu.2).trans (hcls'.trans hclass)
    · have hmild := (backupDecide_mild (s := v) (found := backupFindings v fired kelvin cellMv) (floor := 0) false false (hclass.symm ▸ h2)).1
      exact (hdu.1.same (·.vault)).trans (hmild.trans (hsv.1.same (·.vault)))
    · obtain ⟨hvault, hkum, hdev⟩ := backupDecide_clears (s := v) (found := backupFindings v fired kelvin cellMv) (floor := 0) false false
        (hclass.symm ▸ h4) (hlatch.symm ▸ hd)
      exact ⟨(hdu.1.same (·.vault)).trans hvault, (hdu.1.same (·.kumCtr)).trans hkum, (hdu.1.same (·.devCtr)).trans hdev⟩
  · obtain ⟨w, d, hsw, hwatch⟩ := Reported.watched (s := at_ s t) hp ha
    obtain ⟨henv, h15⟩ := Reported.monitor (s := at_ s t) hp
    have hexec : exec (.backupWatchEvent t p.1 present) s = .next (settle (watchEvent w p.2 d present)) :=
      congrArg (fun w => Host.Outcome.next (settle w)) (hwatch present)
    have hbw : onBackup w = false := (hsw.1.same onBackup).trans hb
    have haw : backupArmed w p.2 = true := (hsw.1.same (fun w => backupArmed w p.2)).trans ha
    have hstep : w.power.step = s.power.step := hsw.1.same (·.power.step)
    have hclass : backupClass w p.2 = backupClass s p.2 := hsw.1.same (fun w => backupClass w p.2)
    obtain ⟨u, hraise, hdecide, hu⟩ := watchEvent_onMain (s := w) (m := p.2) d (present := present) haw hbw
    have hearly : s.power.step < 4 := by
      unfold backupArmed at ha
      rw [hb] at ha
      simp only [watchesEarly, Bool.false_or, Bool.and_eq_true, decide_eq_true_eq] at ha
      exact ha.1.1.2
    have hpower : u.power = { w.power with startups := u.power.startups } := by
      rcases Nat.eq_zero_or_pos w.power.step with h | h
      · rw [hdecide h]
        exact backupDecide_power _ _
      · rw [hraise h, (raiseMonitor_within d).same (·.power)]
    rw [onBackup_congr hpower, hbw] at hu
    have hu' : watchEvent w p.2 d present = u := hu
    rw [hu'] at hexec
    have hs := settle_within u
    refine ⟨_, hexec, ?_, fun h1 hnl => ?_, fun h0 hc hbit => ?_⟩
    · rw [hs.same (·.power.supply), hpower]
      exact hsw.1.same (·.power.supply)
    · have hmon : getMon w p.2 = getMon s p.2 := hsw.1.same (fun w => getMon w p.2)
      have hnow : w.now = (at_ s t).now := hsw.1.same (·.now)
      rw [hs.same (fun w => getMon w p.2), hraise (by rw [hstep]; exact h1), raiseMonitor_mon d (by rw [hmon]; exact hnl),
        monClass_shared (by rw [hstep]; omega) h15 henv, hmon, hnow, hclass]
    · have hbitw : bitOf w.backup.latch.mons p.2 = false := by rw [hsw.2]; exact hbit
      obtain ⟨hle, hset⟩ := decided_one d (s := w) (by rw [hclass]; exact hc) hbitw
      rw [hclass] at hle
      obtain ⟨hcls, hmons⟩ := backupDecide_latch (s := w) (found := [(p.2, d)]) (floor := 0) (!present) true
        (fun h => hc (Nat.le_zero.1 (h ▸ hle)))
      rw [hs.same (·.backup.latch), hdecide (hstep.trans h0), hcls, hmons]
      exact ⟨hset, hle⟩
  · obtain ⟨w, d, hsw, hwatch⟩ := Reported.watched (s := at_ s t) hp ha
    have hbw : onBackup w = true := (hsw.1.same onBackup).trans hb
    have haw : backupArmed w p.2 = true := (hsw.1.same (fun w => backupArmed w p.2)).trans ha
    have hexec : ∀ present, exec (.backupWatchEvent t p.1 present) s = .next (settle (watchEvent w p.2 d present)) := fun present =>
      congrArg (fun w => Host.Outcome.next (settle w)) (hwatch present)
    have hrw : w.backup.latch.rootDone = false := by rw [hsw.2]; exact hr
    refine ⟨?_, ?_⟩
    · obtain ⟨u, hvault, hkum, hcls, hpower, hu⟩ := watchEvent_onBackup (s := w) (m := p.2) d (present := true) haw hbw hrw
      have hu' : watchEvent w p.2 d true = u := hu
      have hs := settle_within u
      have hwpower : w.power = s.power := hsw.1.same (·.power)
      refine ⟨settle u, hu' ▸ hexec true, (hs.same (·.vault)).trans hvault, (hs.same (·.kumCtr)).trans hkum, ?_, ?_⟩
      · rw [hs.same (·.backup.latch)]
        exact hcls
      · rw [hs.powerModes, hpower, hwpower]
    · obtain ⟨u, -, -, -, -, hu⟩ := watchEvent_onBackup (s := w) (m := p.2) d (present := false) haw hbw hrw
      have hu' : watchEvent w p.2 d false = loseSupply u := hu
      obtain ⟨hvault, hsupply, hlatch, htail⟩ := loseSupply_loses u
      have hs := settle_within (loseSupply u)
      exact ⟨_, hu' ▸ hexec false, (hs.same (·.vault)).trans hvault, (hs.same (·.power.supply)).trans hsupply,
        (hs.same (·.backup.latch)).trans hlatch, (hs.same (·.backup.tail)).trans htail⟩

end Sys2Proof.Machine
end

section
/-! SUPPORT. The watch over the Envelope: mesh checks, authentications, enrolment, the service window and the cell's life (R378, R380, R381,
R389 to R393). -/

namespace Sys2Proof.Machine

-- One proof at a time: the check bounds the compiler's threads.
set_option Elab.async false

open Sys2Proof Sys2Proof.Safety

/-! ## Lists of checks -/

section
variable {α : Type} (n : Nat)

theorem getD_map_upTo (g : Nat → α) (d : α) {k : Nat} (hk : k < n) : ((upTo n).map g).getD k d = g k := by
  simp [upTo, hk]

/-- A run of writes at the keys of a list, each with the content its key gives. -/
theorem mget_foldl_mset (f : Nat → Nat) (l : List Nat) (m : Map Nat) (k : Nat) :
    mget 0 (l.foldl (fun m k => mset 0 m k (f k)) m) k = if k ∈ l then f k else mget 0 m k := by
  induction l generalizing m with
  | nil => rw [List.foldl_nil, if_neg List.not_mem_nil]
  | cons x l ih =>
    rw [List.foldl_cons, ih]
    by_cases hl : k ∈ l
    · rw [if_pos hl, if_pos (List.mem_cons_of_mem x hl)]
    · rw [if_neg hl]
      by_cases hx : k = x
      · rw [hx, mget_mset_same, if_pos List.mem_cons_self]
      · rw [mget_mset_other _ _ _ _ _ hx, if_neg (fun h => (List.mem_cons.1 h).elim hx hl)]

theorem boolsToNat_pos (f : Nat → Bool) {k : Nat} (hk : k < n) (hf : f k = true) : boolsToNat n f ≠ 0 := by
  have hle : ∀ (l : List Nat) (a : Nat), a ≤ l.foldl (fun a k => a + bit (f k) * 2 ^ k) a := fun l => by
    induction l with
    | nil => exact fun a => Nat.le_refl a
    | cons x l ih => exact fun a => Nat.le_trans (Nat.le_add_right _ _) (ih _)
  have hpos : ∀ (l : List Nat) (a : Nat), k ∈ l → 0 < l.foldl (fun a k => a + bit (f k) * 2 ^ k) a := fun l => by
    induction l with
    | nil => exact fun a h => absurd h List.not_mem_nil
    | cons x l ih =>
      intro a h
      rcases List.mem_cons.1 h with rfl | h
      · refine Nat.lt_of_lt_of_le (m := a + bit (f k) * 2 ^ k) ?_ (hle _ _)
        rw [hf, show bit true = 1 from rfl, Nat.one_mul]
        exact Nat.lt_of_lt_of_le (Nat.two_pow_pos k) (Nat.le_add_left _ _)
      · exact ih _ h
  exact Nat.ne_of_gt (hpos _ _ (mem_upTo.2 hk))

end

/-! ## Mesh checks (R380) -/

section
variable {s : State} {e : EnvRec} {c : Cfg} {withCap : Bool} {nets : List NetReading} (he : s.backup.env = some e) {k : Nat} (hk : k < 4)
  {r : NetReading} {ref : Nat × Nat} (hr : nets[k]? = some r) (href : e.mesh[k]? = some ref)
include he hk hr href

/-- The consecutive failures of a net after a check. -/
theorem checkNets_count : mget 0 (checkNets s c withCap nets).1.backup.meshFails k =
    if netUnderTest s = some k then mget 0 s.backup.meshFails k
    else if netFails c withCap ref r then mget 0 s.backup.meshFails k + 1 else 0 := by
  unfold checkNets
  rw [he]
  dsimp only
  rw [mget_foldl_mset, if_pos (mem_upTo.2 hk), getD_map_upTo 4 _ _ hk, getD_map_upTo 4 _ _ hk, hr, href]
  by_cases ho : netUnderTest s = some k
  · simp [ho]
  · simp [ho]

/-- A net that has failed often enough is answered. -/
theorem checkNets_fires (ho : netUnderTest s ≠ some k) (hf : netFails c withCap ref r = true)
    (hl : limitIn c 7 3 ≤ mget 0 s.backup.meshFails k + 1) : (checkNets s c withCap nets).2 ≠ 0 := by
  unfold checkNets
  rw [he]
  dsimp only
  refine boolsToNat_pos 4 _ hk ?_
  rw [getD_map_upTo 4 _ _ hk, getD_map_upTo 4 _ _ hk, getD_map_upTo 4 _ _ hk, hr, href]
  simp [ho, hf, hl]

end

/-- Beside the counts and the mask of failing nets a check changes nothing. -/
theorem checkNets_frame (s : State) (c : Cfg) (withCap : Bool) (nets : List NetReading) : (checkNets s c withCap nets).1 =
    { s with backup := { s.backup with
      meshFails := (checkNets s c withCap nets).1.backup.meshFails, meshMask := (checkNets s c withCap nets).1.backup.meshMask } } := by
  unfold checkNets
  split <;> rfl

section
variable {s : State} {m : Nat} {d : Bytes}

/-- A monitor's latch, once set, stands through its own events. -/
theorem raiseMonitor_latches (h : monClass s m ≠ 0) : (getMon (raiseMonitor s m d) m).latched = true := by
  cases hl : (getMon s m).latched with
  | false =>
    rw [raiseMonitor_mon d hl]
    exact decide_eq_true h
  | true =>
    have hclass : ∀ f, monClass (modMon s m f) m = monClass s m := fun _ => rfl
    unfold raiseMonitor
    dsimp only
    rw [hclass, if_neg h, if_pos (by rw [getMon_modMon_same]; exact hl), (recordLimited_within _ _ _ _).same (fun w => getMon w m), getMon_modMon_same]
    exact hl

theorem raiseIf_latches (ha : armed s m = true) (h : monClass s m ≠ 0) : (getMon (raiseIf s m d true) m).latched = true := by
  unfold raiseIf
  rw [ha]
  exact raiseMonitor_latches h

end

/-! ## The cell's life (R393) -/

/-- Beside the record of the Envelope, the tail and the recorder nothing has changed, and of the Envelope's record the notes alone. -/
def LifeNoted (s u : State) : Prop :=
  u = { s with
    evr := u.evr
    backup := { s.backup with env := u.backup.env, tail := u.backup.tail, tailLost := u.backup.tailLost, tailLostCode := u.backup.tailLostCode
                              tailLostSrc := u.backup.tailLostSrc } } ∧
  ∀ e, s.backup.env = some e → ∃ n, u.backup.env = some { e with notes := n }

section
variable {s u v : State}

theorem LifeNoted.refl (s : State) : LifeNoted s s := ⟨rfl, fun e he => ⟨e.notes, he⟩⟩

theorem LifeNoted.trans (h : LifeNoted s u) (h' : LifeNoted u v) : LifeNoted s v := by
  refine ⟨?_, fun e he => ?_⟩
  · have h2 := h'.1
    rw [h.1] at h2
    exact h2
  · obtain ⟨n, hn⟩ := h.2 e he
    obtain ⟨n', hn'⟩ := h'.2 _ hn
    exact ⟨n', hn'⟩

theorem LifeNoted.each {α : Type} {f : State → α → State} (h : ∀ w a, LifeNoted w (f w a)) (xs : List α) (s : State) : LifeNoted s (each xs s f) :=
  each_keeps (P := fun w => LifeNoted s w) (fun w a hw => hw.trans (h w a)) xs (.refl s)

variable (s)

theorem recordLife_noted (l : Nat) : LifeNoted s (recordLife s l) := by
  unfold recordLife
  split
  · unfold tailRecord
    dsimp only
    split <;> exact ⟨rfl, fun e he => ⟨e.notes, he⟩⟩
  · refine ⟨?_, fun e he => ⟨e.notes, ((record_within s _ _ _).same (·.backup.env)).trans he⟩⟩
    rw [(record_within s _ _ _).same (·.backup)]
    exact record_within s _ _ _

theorem noteLife_noted : LifeNoted s (noteLife s) := by
  unfold noteLife
  dsimp only
  generalize (if envLife s = 0 then 3 else if envLife s ≤ 50 then 2 else if envLife s ≤ 250 then 1 else 0) = level
  split
  · next e he =>
    split
    · refine LifeNoted.trans (u := { s with backup := { s.backup with env := some { e with notes := level } } })
        ⟨rfl, fun x hx => ⟨level, ?_⟩⟩ (.each (fun w l => ?_) _ _)
      · rw [he] at hx
        rw [← Option.some.inj hx]
      · split
        · exact recordLife_noted w l
        · exact .refl w
    · exact .refl s
  · exact .refl s

end

/-! ## Authentication and enrolment (R381, R389 to R392) -/

section
variable (s : State) (e : EnvRec) (a : EnvAnswer) (nets : List NetReading)

/-- Beside what it reads, the verdict that it shows and the notes of the cell's life an authentication changes nothing. -/
theorem authenticate_frame {ok : Bool} {u : State} (h : (ok, u) = authenticate s e a) : ok = envPasses (s.backup.authCount + 1) e a ∧
    LifeNoted { readEnvelope s a with backup := { (readEnvelope s a).backup with envGood := ok || s.backup.envGood } } u := by
  have hok : ok = envPasses (s.backup.authCount + 1) e a := congrArg Prod.fst h
  refine ⟨hok, ?_⟩
  have hu : u = noteLife { readEnvelope s a with backup := { (readEnvelope s a).backup with
      envGood := envPasses (s.backup.authCount + 1) e a || s.backup.envGood } } := congrArg Prod.snd h
  rw [hu, hok]
  exact noteLife_noted _

variable {s e} (he : s.backup.env = some e) (hp : s.power.pwrGood = true) (hs : 4 ≤ s.power.step) (h2 : 2 ≤ s.life.st) (h5 : s.life.st ≠ 5)
include hp hs h2 h5

theorem authenticates : ¬(s.power.pwrGood = false ∨ s.power.step < 4 ∨ s.life.st < 2 ∨ s.life.st = 5) := by
  rintro (h | h | h | h)
  · exact absurd (hp.symm.trans h) (by decide)
  · omega
  · omega
  · exact h5 h

include he

theorem envAuth_window (hw : s.backup.window.isSome = true) (retry : Bool) :
    envAuth s a retry = { s with backup := { s.backup with contact := a.present } } := by
  unfold envAuth
  rw [he]
  dsimp only
  rw [if_neg (authenticates hp hs h2 h5), if_pos hw]

variable (hw : s.backup.window = none)
include hw

theorem envAuth_made {retry : Bool} (hr : s.backup.authRetry = retry) {ok : Bool} {u : State} (h : (ok, u) = authenticate s e a) :
    envAuth s a retry = if ok then { u with backup := { u.backup with authRetry := false } }
      else if retry = false then { u with backup := { u.backup with authRetry := true } }
      else raiseIf { u with backup := { u.backup with authRetry := false, envGood := false } } 8 (detail 0) true := by
  unfold envAuth
  rw [he]
  dsimp only
  rw [if_neg (authenticates hp hs h2 h5), if_neg (by rw [hw]; decide), if_neg (not_not_intro hr), ← h]

end

section
variable {s : State} {a : EnvAnswer} {nets : List NetReading}

/-- The record of an enrolment has the mesh that it measured. -/
theorem enrolRecord_mesh : (enrolRecord s a nets).mesh = nets.map (fun x => (x.res, x.cap)) := by
  unfold enrolRecord
  dsimp only
  split
  · split <;> rfl
  · rfl

theorem enrol_replaces (h : enrolFails (s.backup.authCount + 1) a nets = none) : ∃ r, (enrol s a nets).2.backup.env = some r ∧
    r.serial = a.serial ∧ r.pubKey = a.pubKey ∧ r.mesh = nets.map (fun x => (x.res, x.cap)) ∧ (enrol s a nets).2.backup.window = none ∧
    (enrol s a nets).2.backup.envGood = true ∧
    (enrol s a nets).2.outbox = s.outbox ++ (if a.binding = [] then [.envBind a.serial bindingValue] else []) := by
  have hr : (readEnvelope s a).backup.authCount = s.backup.authCount + 1 := rfl
  unfold enrol
  dsimp only
  rw [hr, h]
  dsimp only
  have hrec := fun w c x y => record_within w c x y
  obtain ⟨hserial, hkey⟩ := enrolRecord_chip (bindEnvelope (readEnvelope s a) a) a nets
  have hmesh := enrolRecord_mesh (s := bindEnvelope (readEnvelope s a) a) (a := a) (nets := nets)
  refine ⟨_, (hrec _ _ _ _).same (·.backup.env), hserial, hkey, hmesh, (hrec _ _ _ _).same (·.backup.window),
    (hrec _ _ _ _).same (·.backup.envGood), ((hrec _ _ _ _).same (·.outbox)).trans ?_⟩
  show (bindEnvelope (readEnvelope s a) a).outbox = _
  unfold bindEnvelope
  split
  · rfl
  · exact (List.append_nil _).symm

theorem enrol_leaves (h : enrolFails (s.backup.authCount + 1) a nets ≠ none) :
    (enrol s a nets).2.backup.env = s.backup.env ∧ (enrol s a nets).2.backup.window = s.backup.window := by
  obtain ⟨k, hk⟩ := Option.ne_none_iff_exists'.1 h
  have hr : (readEnvelope s a).backup.authCount = s.backup.authCount + 1 := rfl
  unfold enrol
  dsimp only
  rw [hr, hk]
  dsimp only
  rw [(record_within _ _ _ _).same (·.backup)]
  split <;> exact ⟨rfl, rfl⟩

end

/-- Charge is accounted to the enrolled Envelope, in whole units and a rest. -/
theorem addCharge_charges {s : State} {e : EnvRec} (he : s.backup.env = some e) (q : Nat) : ∃ r, (addCharge s q).backup.env = some r ∧
    r.chargeUsed * 2 ^ 32 + r.chargeFrac = e.chargeUsed * 2 ^ 32 + e.chargeFrac + q ∧ r.serial = e.serial ∧ r.pubKey = e.pubKey ∧
    (addCharge s q).vault = s.vault := by
  unfold addCharge
  rw [he]
  dsimp only
  obtain ⟨hframe, henv⟩ := noteLife_noted { s with backup := { s.backup with env := some { e with
    chargeFrac := (e.chargeFrac + q) % 2 ^ 32, chargeUsed := e.chargeUsed + (e.chargeFrac + q) / 2 ^ 32 } } }
  obtain ⟨n, hn⟩ := henv _ rfl
  refine ⟨_, hn, ?_, rfl, rfl, (congrArg State.vault hframe).trans rfl⟩
  have := Nat.div_add_mod (e.chargeFrac + q) (2 ^ 32)
  show (e.chargeUsed + (e.chargeFrac + q) / 2 ^ 32) * 2 ^ 32 + (e.chargeFrac + q) % 2 ^ 32 = _
  omega

/-! ## The obligation -/

section
variable {s : State} {t : Nat} {nets : List NetReading} (hp : s.power.pwrGood = true)
include hp

/-- A mesh check on main power: what it counts, and the answer to a net that has failed often enough. -/
theorem meshCheck_counts (hs : 4 ≤ s.power.step) : ∃ u, exec (.meshCheck t nets) s = .next u ∧
    u.backup = (checkNets (drivePatterns (at_ s t)) s.ctl.cfg true nets).1.backup ∧ u.vault = s.vault ∧ u.keys = s.keys ∧
    ((checkNets (drivePatterns (at_ s t)) s.ctl.cfg true nets).2 ≠ 0 → armed s 7 = true → monClass s 7 ≠ 0 → (getMon u 7).latched = true) := by
  have hcheck := checkNets_frame (drivePatterns (at_ s t)) s.ctl.cfg true nets
  generalize hq : checkNets (drivePatterns (at_ s t)) s.ctl.cfg true nets = q at *
  have hmesh : meshCheck (at_ s t) nets = raiseIf q.1 7 (detail q.2) (q.2 != 0) := by
    rw [← hq]
    exact if_pos ⟨hp, hs⟩
  have hexec : exec (.meshCheck t nets) s = .next (settle (raiseIf q.1 7 (detail q.2) (q.2 != 0))) :=
    congrArg (fun w => Host.Outcome.next (settle w)) hmesh
  have hwithin := raiseIf_within q.1 7 (detail q.2) (q.2 != 0)
  have hq' : Within { backup := true } s { q.1 with now := s.now } := by
    rw [hcheck]
    rfl
  have hset := settle_within (raiseIf q.1 7 (detail q.2) (q.2 != 0))
  refine ⟨_, hexec, (hset.same (·.backup)).trans (hwithin.same (·.backup)),
    (hset.same (·.vault)).trans ((hwithin.same (·.vault)).trans (hq'.same (·.vault))),
    (hset.same (·.keys)).trans ((hwithin.same (·.keys)).trans (hq'.same (·.keys))), fun hfired ha hc => ?_⟩
  have harmed : armed q.1 7 = true := by
    rw [hcheck]
    exact ha
  have hclass : monClass q.1 7 ≠ 0 := by
    rw [hcheck]
    exact hc
  rw [hset.same (fun w => getMon w 7), bne_iff_ne.2 hfired]
  exact raiseIf_latches harmed hclass

end

/-- Settles O56: checks, authentications and enrolments each by the lemma of what they read and decide. -/
theorem envelopeIsWatched : Obligations.EnvelopeIsWatched := by
  unfold Obligations.EnvelopeIsWatched
  intro s t a nets e hp he
  refine ⟨fun hs => ?_, fun hon hseed => ⟨Config.freeNat s.free, ?_⟩, fun hs hw h2 h5 c hc => ?_, fun hoff => ?_, fun hs hw h2 h5 ok hok =>
    ⟨fun hr => ?_, fun hr => ?_⟩, fun hw => ⟨fun hf => ?_, fun hf => ?_⟩, fun since hw => ⟨fun hdue => ?_, fun hearly => ?_⟩, ?_⟩
  · obtain ⟨u, hexec, hbackup, hvault, hkeys, hlatch⟩ := meshCheck_counts (t := t) (nets := nets) hp hs
    have hframe := checkNets_frame (drivePatterns (at_ s t)) s.ctl.cfg true nets
    refine ⟨u, hexec, fun k r ref hk hr href => ?_, ?_, ?_, hvault, hkeys⟩
    · have hcount := checkNets_count (s := drivePatterns (at_ s t)) (c := s.ctl.cfg) (withCap := true) he hk hr href
      rw [← hbackup] at hcount
      refine ⟨fun ho => hcount.trans (if_pos ho), fun ho => hcount.trans (if_neg ho), fun ho hfail hlim ha hcls => ?_⟩
      exact hlatch (checkNets_fires (s := drivePatterns (at_ s t)) he hk hr href ho hfail hlim) ha hcls
    · rw [hbackup, hframe]
      rfl
    · rw [hbackup, hframe]
      rfl
  · exact congrArg Host.Outcome.next (if_pos ⟨hp, hon, hseed⟩)
  · simp only [List.mem_cons, List.not_mem_nil, or_false] at hc
    have hwin := envAuth_window (s := at_ s t) a he hp hs h2 h5 hw
    rcases hc with rfl | rfl
    · exact ⟨_, congrArg (fun w => Host.Outcome.next (settle w)) (hwin false), settle_beside _⟩
    · exact ⟨_, congrArg (fun w => Host.Outcome.next (settle w)) (hwin true), settle_beside _⟩
  · refine congrArg Host.Outcome.next (if_neg fun ⟨_, hon, hseed⟩ => ?_)
    rcases hoff with h | h
    · exact absurd (h.symm.trans hon) (by decide)
    · exact absurd (h.symm.trans hseed) (by decide)
  · obtain ⟨u, hu⟩ : ∃ u, (ok, u) = authenticate (at_ s t) e a := ⟨_, Prod.ext hok rfl⟩
    obtain ⟨-, hframe, -⟩ := authenticate_frame (at_ s t) e a hu
    have hmade := envAuth_made (s := at_ s t) a he hp hs h2 h5 hw hr hu
    have hset : envAuth (at_ s t) a false = { u with backup := { u.backup with authRetry := !ok } } := by
      rw [hmade]
      cases ok <;> rfl
    have hs' := settle_within { u with backup := { u.backup with authRetry := !ok } }
    refine ⟨_, congrArg (fun w => Host.Outcome.next (settle w)) hset, ?_, ?_, ?_, ?_, ?_⟩
    · rw [hs'.same (·.backup)]
      exact (congrArg (·.backup.authCount) hframe).trans rfl
    · rw [hs'.same (·.backup)]
    · rw [hs'.same (·.backup)]
      exact (congrArg (·.backup.envGood) hframe).trans rfl
    · rw [hs'.same (·.alarm)]
      exact (congrArg (·.alarm) hframe).trans rfl
    · rw [hs'.same (·.vault)]
      exact (congrArg (·.vault) hframe).trans rfl
  · obtain ⟨u, hu⟩ : ∃ u, (ok, u) = authenticate (at_ s t) e a := ⟨_, Prod.ext hok rfl⟩
    obtain ⟨-, hframe, -⟩ := authenticate_frame (at_ s t) e a hu
    have hmade := envAuth_made (s := at_ s t) a he hp hs h2 h5 hw hr hu
    cases ok with
    | true =>
      have hs' := settle_within { u with backup := { u.backup with authRetry := false } }
      refine ⟨_, congrArg (fun w => Host.Outcome.next (settle w)) hmade, ?_, ?_, fun h => absurd h (by decide), fun _ => ?_⟩
      · rw [if_pos rfl, hs'.same (·.backup)]
      · rw [if_pos rfl, hs'.same (·.backup)]
        exact (congrArg (·.backup.envGood) hframe).trans rfl
      · rw [if_pos rfl, hs'.same (·.alarm)]
        exact (congrArg (·.alarm) hframe).trans rfl
    | false =>
      have hraise : envAuth (at_ s t) a true =
          raiseIf { u with backup := { u.backup with authRetry := false, envGood := false } } 8 (detail 0) true := hmade
      generalize hv : ({ u with backup := { u.backup with authRetry := false, envGood := false } } : State) = v at *
      have hr' := raiseIf_within v 8 (detail 0) true
      have hs' := settle_within (raiseIf v 8 (detail 0) true)
      refine ⟨_, congrArg (fun w => Host.Outcome.next (settle w)) hraise, ?_, ?_, fun _ ha hc => ?_, fun h => absurd h (by decide)⟩
      · rw [hs'.same (·.backup), hr'.same (·.backup), ← hv]
      · rw [hs'.same (·.backup), hr'.same (·.backup), ← hv]
      · rw [hs'.same (fun w => getMon w 8)]
        refine raiseIf_latches ?_ ?_
        · rw [← hv, hframe]
          exact ha
        · rw [← hv, hframe]
          exact hc
  · obtain ⟨r, henv, hserial, hkey, hmesh, hwindow, hgood, hout⟩ := enrol_replaces (s := at_ s t) hf
    have hdone : enrolInWindow (at_ s t) a nets = (enrol (at_ s t) a nets).2 := if_pos ⟨hp, hw⟩
    rw [← hdone] at henv hwindow hgood hout
    exact ⟨_, r, rfl, henv, hserial, hkey, hmesh, hwindow, hgood, hout⟩
  · obtain ⟨henv, hwindow⟩ := enrol_leaves (s := at_ s t) hf
    have hdone : enrolInWindow (at_ s t) a nets = (enrol (at_ s t) a nets).2 := if_pos ⟨hp, hw⟩
    rw [← hdone] at henv hwindow
    exact ⟨_, rfl, henv, hwindow⟩
  · refine congrArg Host.Outcome.next ?_
    unfold windowEnds_
    rw [show (at_ s t).backup.window = some since from hw]
    exact (if_pos hdue).trans (if_pos (by rw [show (at_ s t).backup.window = some since from hw]; rfl))
  · refine congrArg Host.Outcome.next ?_
    unfold windowEnds_
    rw [show (at_ s t).backup.window = some since from hw]
    exact if_neg (Nat.not_le.2 hearly)
  · obtain ⟨r, henv, hcharge, hserial, hkey, hvault⟩ := addCharge_charges (s := at_ s t) he (ageing (degreesC s.backup.tempDeciK) 60)
    exact ⟨_, r, congrArg Host.Outcome.next (if_pos hp), henv, hcharge, hserial, hkey, hvault⟩

end Sys2Proof.Machine
end

section
/-! SUPPORT. What the end of an operation from outside may reach: its engines, its bookings, its instance and the joint of a key update
(R44, R57, R64, R108 to R112, R128, R133, R234, R288, R311). -/

namespace Sys2Proof.Machine

-- One proof at a time: the check bounds the compiler's threads.
set_option Elab.async false

open Sys2Proof Sys2Proof.Safety

/-- What the end of an operation that a reset, a response or a fault ends may write. -/
def cutShortScope : Scope :=
  { insts := true, bays := true, dma := true, cnt := true, evr := true, outbox := true, msixPend := true, kumCtr := true, keys := true
    joints := true, commits := true, bad := true, writers := true, slotMask := true, cache := true }

section
variable (s : State)

theorem dropCharges_within (b since frame : Nat) (cs : List Nat) : Within { bays := true } s (dropCharges s b since frame cs) := by
  induction cs generalizing s frame with
  | nil => exact .refl s
  | cons c cs ih =>
    have hstep : Within { bays := true } s (if since ≤ frame then lessCharge s b frame c else s) := .ite rfl (.refl s)
    exact hstep.trans (ih _ _)

theorem dropDma_within (h start since : Nat) (p : Plan) : Within { dma := true } s (dropDma s h start since p) := by
  have hfold : ∀ (js : List Nat) (w : State), Within { dma := true } w (js.foldl (fun s j =>
      let s := setDma s (dmaKey h false) (start + j) (dmaEntry s (dmaKey h false) (start + j) - p.dmaRead)
      setDma s (dmaKey h true) (start + j) (dmaEntry s (dmaKey h true) (start + j) - p.dmaWrite)) w) := fun js => by
    induction js with
    | nil => exact fun w => .refl w
    | cons j js ih => exact fun w => ((setDma_within w _ _ _).trans (setDma_within _ _ _ _)).trans (ih _)
  unfold dropDma
  exact .ite (.refl s) (hfold _ s)

theorem releaseBooking_within (o : RingOp) (f : Nat) : Within { bays := true, dma := true } s (releaseBooking s o f) := by
  unfold releaseBooking
  exact .ite (((dropCharges_within s _ _ _ _).mono rfl).then (dropDma_within _ _ _ _ _)) (.refl s)

theorem leaveEngines_within (i : Nat) (o : RingOp) (aborted : Bool) :
    Within { bays := true, bad := true, cnt := true, slotMask := true } s (leaveEngines s i o aborted) := by
  unfold leaveEngines
  refine .ite (.each (fun w k => (clearMem_within w _ _ _).mono rfl) _ s) (.ite (.each (fun w k => (wipeBnc_within w _ _ _).mono rfl) _ s)
    (.each (fun w k => (leaveSegment_within w _ _).mono rfl) _ s))

theorem kumCounted_within (t v : Nat) : Within { keys := true, kumCtr := true } s (setKumCounter s t v) := by
  unfold setKumCounter
  exact .ite rfl rfl

theorem abandonKum_within (i : Nat) (o : RingOp) :
    Within { keys := true, kumCtr := true, outbox := true, joints := true, commits := true } s (abandonKum s i o) := by
  have hclose : ∀ w : State, Within { keys := true, kumCtr := true } s w → ∀ j,
      Within { keys := true, kumCtr := true, outbox := true, joints := true, commits := true } s
        (closeJoint (answerSigns w (getJoint w j)) j 4 0x0702) := fun w hw j =>
    ((hw.mono rfl).then (answerSigns_within w _)).then (closeJoint_within _ _ _ _)
  have hcounted : ∀ {c : Prop} [Decidable c] {t v : Nat}, Within { keys := true, kumCtr := true } s (if c then setKumCounter s t v else s) :=
    .ite (kumCounted_within s _ _) (.refl s)
  unfold abandonKum
  dsimp only
  split
  · cases o.kumJoint with
    | none =>
      dsimp only
      split
      · exact hcounted.mono rfl
      · exact .refl s
    | some j =>
      refine hclose _ ?_ j
      split
      · exact hcounted
      · exact .refl s
  · exact .refl s

theorem returnCore_within (i : Nat) (o : RingOp) : Within { insts := true } s (returnCore s i o) := rfl

theorem writeStaged_within (i : Nat) (o : RingOp) (out : Bytes) :
    Within { insts := true, bad := true, slotMask := true, writers := true } s (writeStaged s i o out) := by
  unfold writeStaged
  split
  · refine .ite (.refl s) ?_
    exact (((modInst_within s i _).mono rfl).then (writeWords_within _ _ _ _)).then (noteWriter_within _ _ _ _ _)
  · exact .refl s

/-- What the end of a ring operation may write. -/
def endRingScope : Scope :=
  { insts := true, bays := true, cnt := true, evr := true, outbox := true, msixPend := true, bad := true, writers := true, slotMask := true
    cache := true }

theorem endRing_within (i : Nat) (o : RingOp) (st len : Nat) (out res : Bytes) : Within endRingScope s (endRing s i o st len out res) := by
  unfold endRing
  have hlate : ∀ {c : Prop} [Decidable c] (st' past : Nat), Within endRingScope s (if c then noteLate s i o.bay (dOp o.snap) st' past else s) :=
    fun _ _ => .ite ((noteLate_within s _ _ _ _ _).mono rfl) (.refl s)
  have hstaged : ∀ (w : State) {c : Prop} [Decidable c], Within endRingScope w (if c then writeStaged w i o out else w) :=
    fun w => .ite ((writeStaged_within w _ _ _).mono rfl) (.refl w)
  exact ((hlate _ _).trans (hstaged _)).then (completeRing_within _ _ _ _ _ _ _ _ _)

theorem cutShort_within (i : Nat) (o : RingOp) (st : Nat) : Within cutShortScope s (cutShort s i o st) := by
  unfold cutShort
  have h := (releaseBooking_within s o (s.now / 2000 + 1)).mono (G := cutShortScope) rfl
  exact .ite (h.then (endRing_within _ _ _ _ _ _ _)) (h.then (modInst_within _ _ _))

theorem endEarly_within (i : Nat) (o : RingOp) (st : Nat) : Within cutShortScope s (endEarly s i o st) := by
  unfold endEarly
  have h := ((leaveEngines_within s i o true).mono (G := cutShortScope) rfl).then (abandonKum_within _ i o)
  have hcore : ∀ (w : State) {c : Prop} [Decidable c], Within cutShortScope w (if c then returnCore w i o else w) :=
    fun w => .ite ((returnCore_within w _ _).mono rfl) (.refl w)
  exact (h.trans (hcore _)).trans (cutShort_within _ _ _ _)

theorem endAdmitted_within (i st : Nat) : Within cutShortScope s (endAdmitted s i st) :=
  .each (fun w o => by
    split
    · exact .ite ((modInst_within w _ _).mono rfl) (.refl w)
    · exact endEarly_within w _ _ _) _ s

theorem endLines_within (i st : Nat) : Within cutShortScope s (endLines s i st) :=
  .each (fun w e => by
    split
    · exact (endLine_within w _ _ _ _ _).mono rfl
    · exact .refl w) _ s

theorem withhold_within (inBays : Nat → Bool) : Within cutShortScope s (withhold s inBays) :=
  .each (fun w e => by
    refine Within.trans (.each (fun w o => endEarly_within w _ _ _) _ w) (.each (fun w sl => ?_) _ _)
    split
    · exact .ite ((endLine_within w _ _ _ _ _).mono rfl) (.refl w)
    · exact .refl w) _ s

theorem clearWork_within : Within cutShortScope s (clearWork s) :=
  .each (fun w i => (endAdmitted_within w i _).trans (endLines_within _ i _)) _ s

end

end Sys2Proof.Machine
end

section
/-! SUPPORT. Monitors on main power, their tests, and the decisions over their latches with the actions of each class (R295, R366 to R374,
R378, R379). -/

namespace Sys2Proof.Machine

-- One proof at a time: the check bounds the compiler's threads.
set_option Elab.async false

open Sys2Proof Sys2Proof.Safety

/-! ## The actions of the classes (R295, R371, R372) -/

section
variable (s : State)

theorem stopActivation_within : Within { fw := true } s (stopActivation s) := by
  unfold stopActivation
  exact .ite (.refl s) (.ite rfl rfl)

/-- What the bulk clear of the vault may write. -/
def vaultClearScope : Scope :=
  { vault := true, kumCtr := true, devCtr := true, cutRing := true, journal := true, vaultMask := true, klog := true, backup := true, evr := true
    life := true, power := true, alarm := true, keys := true }

theorem clearVault_within : Within vaultClearScope s (clearVault s) := by
  unfold clearVault
  exact .ite rfl rfl

theorem clearVault_alarm : (clearVault s).alarm = { s.alarm with rootCleared := true } := by
  unfold clearVault
  dsimp only
  split <;> rfl

/-- A key store without a slot has no mismatched one, and its snapshot finds none. -/
theorem snapshotKeys_empty (h : s.keys.slots = []) : Within { vault := true, klog := true } s (snapshotKeys s) ∧
    (snapshotKeys s).vault = { s.vault with keyLogEpoch := (snapshotKeys s).vault.keyLogEpoch } := by
  have hnone : each (corruptSlots s) s (fun s _ => raiseFabric s islHub islControl memSlots) = s := by
    unfold corruptSlots
    rw [h]
    rfl
  unfold snapshotKeys
  rw [hnone]
  exact ⟨rfl, rfl⟩

theorem snapshotJournal_logs : Within { vault := true, journal := true, cnt := true } s (snapshotJournal s) ∧
    (snapshotJournal s).vault = { s.vault with journalEpoch := (snapshotJournal s).vault.journalEpoch } := by
  have h := snapshotJournal_within s
  refine ⟨Within.then (u := withSnapshot s) (G := { cnt := true }) rfl h, ?_⟩
  rw [show (snapshotJournal s).vault = (withSnapshot s).vault from h.same (·.vault)]
  rfl

/-- New logs over an empty key store: of the vault their epochs alone. -/
theorem freshLogs_empty (h : s.keys.slots = []) : Within { vault := true, klog := true, journal := true, cnt := true } s (freshLogs s) ∧
    (freshLogs s).vault = { s.vault with
      keyLogEpoch := (freshLogs s).vault.keyLogEpoch, journalEpoch := (freshLogs s).vault.journalEpoch } := by
  obtain ⟨hkeys, hkvault⟩ := snapshotKeys_empty { s with keys := { s.keys with log := { s.keys.log with queue := [], tries := 0, hold := 0 } } } h
  have hnew : Within { vault := true, klog := true } s (newKeyLog s) := Within.then (by rfl) hkeys
  have hnvault : (newKeyLog s).vault = { s.vault with keyLogEpoch := (newKeyLog s).vault.keyLogEpoch } := hkvault
  obtain ⟨hjour, hjvault⟩ := snapshotJournal_logs (newKeyLog s)
  unfold freshLogs
  dsimp only
  split
  · refine ⟨hnew.mono rfl, ?_⟩
    rw [hnvault]
  · refine ⟨(hnew.mono rfl).then hjour, ?_⟩
    rw [hjvault, hnvault]

/-- CLEAR-SESSION's items: caches, engines, sessions and generators. -/
def sessionScope : Scope :=
  { cache := true, deriv := true, bad := true, bays := true, sessions := true, joints := true, heads := true, reqs := true, chans := true
    windows := true, random := true }

theorem reinstantiate_within : Within { bays := true, reqs := true, chans := true, windows := true, random := true } s (reinstantiate s) := by
  have heach : Within { bays := true, reqs := true } s (each (upTo 28) s (fun s b =>
      if (getBay s b).st = 2 ∧ bayHeld s b then modBay s b (fun x => { x with drbg := freshDrbg })
      else requestSeed (modBay s b (fun x => { x with drbg := freshDrbg })) 1 (.inst b) 3)) :=
    .each (fun w b => .ite ((modBay_within w b _).mono rfl) (((modBay_within w b _).mono rfl).then (requestSeed_within _ _ _ _))) _ s
  unfold reinstantiate
  generalize each (upTo 28) s _ = w at *
  have hkey : Within { reqs := true, chans := true, windows := true, random := true } w
      { w with random := { w.random with awaiting := w.random.on, tableKey := none } } := rfl
  exact ((heach.mono rfl).then hkey).then (requestSeed_within _ _ _ _)

theorem clearSession_clears : Within sessionScope s (clearSession s) ∧ (clearSession s).keys.cache = [] ∧ (clearSession s).keys.deriv = [] ∧
    (clearSession s).link.sessions = [] := by
  have hwipe : ∀ w, Within { bays := true } w (wipeOperands w) := fun w => .each (fun v b => modBay_within v b _) _ w
  have hheads : ∀ w, Within { heads := true } w (each (upTo 4) w (fun s h => modHead s h (fun x => { x with ideIo := none, ideMem := none }))) :=
    fun w => .each (fun v h => modHead_within v h _) _ w
  have hend : ∀ w, Within { sessions := true, joints := true } w (endSessions w (fun _ _ => true)) := fun _ => rfl
  have hgone : ∀ w, (endSessions w (fun _ _ => true)).link.sessions = [] := fun w => by
    unfold endSessions
    simp
  have hcaches : Within { cache := true, deriv := true, bad := true } s (clearCaches s) := rfl
  have hsessions : Within { bays := true, sessions := true, joints := true, heads := true } (clearCaches s)
      (clearSessions (wipeOperands (clearCaches s))) := (((hwipe _).mono rfl).then (hend _)).then (hheads _)
  have hre := reinstantiate_within (clearSessions (wipeOperands (clearCaches s)))
  have hall : clearSession s = reinstantiate (clearSessions (wipeOperands (clearCaches s))) := rfl
  rw [hall]
  refine ⟨((hcaches.mono rfl).then hsessions).then hre, ?_, ?_, ?_⟩
  · rw [hre.same (·.keys.cache), hsessions.same (·.keys.cache)]
    rfl
  · rw [hre.same (·.keys.deriv), hsessions.same (·.keys.deriv)]
    rfl
  · rw [hre.same (·.link.sessions)]
    unfold clearSessions
    rw [(hheads _).same (·.link.sessions), hgone]

theorem beginTransition_within (k : Nat) : Within { life := true, free := true } s (beginTransition s k) := by
  unfold beginTransition
  dsimp only
  split
  · split <;> rfl
  · rfl

theorem writeLatchReg_within (cls : Nat) : Within { backup := true } s (writeLatchReg s cls) := rfl

end

/-! ### The actions as they follow one another -/

/-- A class takes the actions of class `k`, which none executed before has taken. -/
def takes (done cls k : Nat) : Bool := decide (k ≤ cls) && decide (done < k)

theorem takes_iff {done cls k : Nat} : takes done cls k = true ↔ k ≤ cls ∧ done < k := by
  unfold takes
  simp

section
variable (s : State) (done cls : Nat)

def workEnded : State := if takes done cls 2 then clearWork s else s

def vaultTaken : State := if takes done cls 4 then clearVault (stopActivation s) else s

def slotsTaken : State :=
  if takes done cls 3 then (if cls < 4 then freshLogs (clearSlots (clearVaultKeys s)) else clearSlots s) else s

def sessionTaken : State := if takes done cls 2 then clearSession s else s

def scrapTaken : State := if takes done cls 5 then beginTransition s 5 else s

theorem takeActions_order : takeActions s done cls =
    scrapTaken (sessionTaken (slotsTaken (vaultTaken (workEnded s done cls) done cls) done cls) done cls) done cls := rfl

theorem workEnded_within : Within cutShortScope s (workEnded s done cls) := .ite (clearWork_within s) (.refl s)

theorem vaultTaken_within : Within { vaultClearScope with fw := true } s (vaultTaken s done cls) :=
  .ite (((stopActivation_within s).mono rfl).then (clearVault_within _)) (.refl s)

theorem vaultTaken_alarm : ∃ r, (vaultTaken s done cls).alarm = { s.alarm with rootCleared := r } := by
  unfold vaultTaken
  split
  · refine ⟨true, (clearVault_alarm _).trans ?_⟩
    rw [(stopActivation_within s).same (·.alarm)]
  · exact ⟨_, rfl⟩

/-- What the clearing of the slots may write. -/
def slotsScope : Scope := { slots := true, keys := true, vault := true, klog := true, journal := true, cnt := true, bad := true }

theorem clearedSlots_logs : Within slotsScope s (freshLogs (clearSlots (clearVaultKeys s))) ∧
    (freshLogs (clearSlots (clearVaultKeys s))).vault.root = s.vault.root ∧
    (freshLogs (clearSlots (clearVaultKeys s))).vault.backed = [] ∧ (freshLogs (clearSlots (clearVaultKeys s))).vault.pending = [] ∧
    (freshLogs (clearSlots (clearVaultKeys s))).keys.slots = [] ∧ (freshLogs (clearSlots (clearVaultKeys s))).keys.ext = [] := by
  obtain ⟨hlogs, hvault⟩ := freshLogs_empty (clearSlots (clearVaultKeys s)) rfl
  have hclear : Within slotsScope s (clearSlots (clearVaultKeys s)) := rfl
  refine ⟨hclear.then hlogs, ?_, ?_, ?_, hlogs.same (·.keys.slots), hlogs.same (·.keys.ext)⟩
  · rw [hvault]
    rfl
  · rw [hvault]
    rfl
  · rw [hvault]
    rfl

theorem slotsTaken_within : Within slotsScope s (slotsTaken s done cls) :=
  .ite (.ite (clearedSlots_logs s).1 rfl) (.refl s)

theorem sessionTaken_within : Within sessionScope s (sessionTaken s done cls) := .ite (clearSession_clears s).1 (.refl s)

theorem scrapTaken_within : Within { life := true, free := true } s (scrapTaken s done cls) := .ite (beginTransition_within s 5) (.refl s)

/-- What follows the clearing of the slots. -/
theorem afterSlots_within (w : State) : Within { sessionScope with life := true, free := true } w (scrapTaken (sessionTaken w done cls) done cls) :=
  ((sessionTaken_within w done cls).mono rfl).then (scrapTaken_within _ done cls)

/-- No class rewrites latches or what has been executed. -/
theorem takeActions_alarm : ∃ r, (takeActions s done cls).alarm = { s.alarm with rootCleared := r } := by
  obtain ⟨r, hr⟩ := vaultTaken_alarm (workEnded s done cls) done cls
  refine ⟨r, ?_⟩
  rw [takeActions_order, (afterSlots_within _ _ _).same (·.alarm), (slotsTaken_within _ _ _).same (·.alarm), hr,
    (workEnded_within s _ _).same (·.alarm)]

variable {done cls}

theorem takeActions_note (h : cls ≤ 1) : takeActions s done cls = s := by
  have hno : ∀ k, 2 ≤ k → takes done cls k = false := fun k hk => by
    rw [← Bool.not_eq_true, takes_iff]
    omega
  rw [takeActions_order]
  unfold scrapTaken sessionTaken slotsTaken vaultTaken workEnded
  simp only [hno 2 (by decide), hno 3 (by decide), hno 4 (by decide), hno 5 (by decide), Bool.false_eq_true, if_false]

theorem takeActions_session (h : 2 ≤ cls) (hd : done < 2) : (takeActions s done cls).keys.cache = [] ∧ (takeActions s done cls).keys.deriv = [] ∧
    (takeActions s done cls).link.sessions = [] := by
  rw [takeActions_order]
  generalize slotsTaken (vaultTaken (workEnded s done cls) done cls) done cls = w
  have htaken : sessionTaken w done cls = clearSession w := if_pos (takes_iff.2 ⟨h, hd⟩)
  have hscrap := scrapTaken_within (sessionTaken w done cls) done cls
  obtain ⟨-, hcache, hderiv, hsessions⟩ := clearSession_clears w
  rw [hscrap.same (·.keys.cache), hscrap.same (·.keys.deriv), hscrap.same (·.link.sessions), htaken]
  exact ⟨hcache, hderiv, hsessions⟩

theorem takeActions_slots (h : 3 ≤ cls) (hd : done < 3) : (takeActions s done cls).keys.slots = [] ∧ (takeActions s done cls).keys.ext = [] ∧
    (takeActions s done cls).vault.backed = [] ∧ (takeActions s done cls).vault.pending = [] := by
  rw [takeActions_order]
  have hafter := afterSlots_within done cls (slotsTaken (vaultTaken (workEnded s done cls) done cls) done cls)
  rw [hafter.same (·.keys.slots), hafter.same (·.keys.ext), hafter.same (·.vault)]
  unfold slotsTaken
  rw [if_pos (takes_iff.2 ⟨h, hd⟩)]
  split
  · obtain ⟨-, -, hbacked, hpending, hslots, hext⟩ := clearedSlots_logs (vaultTaken (workEnded s done cls) done cls)
    exact ⟨hslots, hext, hbacked, hpending⟩
  · have hcleared : vaultTaken (workEnded s done cls) done cls = clearVault (stopActivation (workEnded s done cls)) :=
      if_pos (takes_iff.2 ⟨by omega, by omega⟩)
    have hvault : (clearSlots (vaultTaken (workEnded s done cls) done cls)).vault = {} := by
      rw [hcleared]
      exact (clearVault_clears _).1
    rw [hvault]
    exact ⟨rfl, rfl, rfl, rfl⟩

theorem takeActions_root (h : 4 ≤ cls) (hd : done < 4) : (takeActions s done cls).vault = {} ∧ (takeActions s done cls).kumCtr = [] ∧
    (takeActions s done cls).devCtr = [] := by
  rw [takeActions_order]
  have hafter := afterSlots_within done cls (slotsTaken (vaultTaken (workEnded s done cls) done cls) done cls)
  have hslots : Within { slots := true, keys := true, bad := true } (vaultTaken (workEnded s done cls) done cls)
      (slotsTaken (vaultTaken (workEnded s done cls) done cls) done cls) := by
    unfold slotsTaken
    rw [if_neg (show ¬cls < 4 by omega)]
    exact .ite rfl (.refl _)
  have hcleared : vaultTaken (workEnded s done cls) done cls = clearVault (stopActivation (workEnded s done cls)) := if_pos (takes_iff.2 ⟨h, hd⟩)
  obtain ⟨hvault, hkum, hdev, -, -⟩ := clearVault_clears (stopActivation (workEnded s done cls))
  rw [hafter.same (·.vault), hafter.same (·.kumCtr), hafter.same (·.devCtr), hslots.same (·.vault), hslots.same (·.kumCtr),
    hslots.same (·.devCtr), hcleared]
  exact ⟨hvault, hkum, hdev⟩

/-- Below CLEAR-ROOT the vault's clear is not taken. -/
theorem vaultTaken_below (w : State) (h : cls ≤ 3) : vaultTaken w done cls = w :=
  if_neg (fun ht => absurd (takes_iff.1 ht).1 (by omega))

theorem takeActions_below (h : cls ≤ 3) : (takeActions s done cls).vault.root = s.vault.root := by
  rw [takeActions_order, vaultTaken_below _ h]
  have hwork := workEnded_within s done cls
  rw [(afterSlots_within _ _ _).same (·.vault), ← hwork.same (·.vault)]
  unfold slotsTaken
  split
  · rw [if_pos (by omega)]
    exact (clearedSlots_logs _).2.1
  · rfl

theorem takeActions_keeps (h : cls ≤ 2) : (takeActions s done cls).vault = s.vault ∧ (takeActions s done cls).keys.slots = s.keys.slots := by
  rw [takeActions_order, vaultTaken_below _ (by omega)]
  have hwork := workEnded_within s done cls
  have hslots : slotsTaken (workEnded s done cls) done cls = workEnded s done cls := if_neg (fun ht => absurd (takes_iff.1 ht).1 (by omega))
  rw [(afterSlots_within _ _ _).same (·.vault), (afterSlots_within _ _ _).same (·.keys.slots), hslots]
  exact ⟨hwork.same (·.vault), hwork.same (·.keys.slots)⟩

end

end Sys2Proof.Machine
end

section
/-! SUPPORT. What a detector reports, the tests of the monitors, and a decision as a whole (R366 to R369, R373, R378, R379). -/

namespace Sys2Proof.Machine

-- One proof at a time: the check bounds the compiler's threads.
set_option Elab.async false

open Sys2Proof Sys2Proof.Safety

/-! ## Events of a monitor -/

section
variable {s : State} {m : Nat} (d : Bytes)

theorem raiseMonitor_other {k : Nat} (h : k ≠ m) : getMon (raiseMonitor s m d) k = getMon s k := by
  unfold raiseMonitor
  dsimp only
  split
  · rw [(recordLimited_within _ _ _ _).same (fun w => getMon w k), getMon_modMon_other _ _ _ _ h]
  · split
    · rw [(recordLimited_within _ _ _ _).same (fun w => getMon w k), getMon_modMon_other _ _ _ _ h]
    · show getMon (modMon (modMon s m _) m (fun x => { x with latched := true })) k = _
      rw [getMon_modMon_other _ _ _ _ h, getMon_modMon_other _ _ _ _ h]

/-- What an event leaves of a monitor's test, and of the tests that wait. -/
theorem raiseMonitor_tests : (getMon (raiseMonitor s m d) m).result = (getMon s m).result ∧ (raiseMonitor s m d).alarm.tests = s.alarm.tests := by
  unfold raiseMonitor
  dsimp only
  split
  · refine ⟨?_, (recordLimited_within _ _ _ _).same (·.alarm.tests)⟩
    rw [(recordLimited_within _ _ _ _).same (fun w => getMon w m), getMon_modMon_same]
  · split
    · refine ⟨?_, (recordLimited_within _ _ _ _).same (·.alarm.tests)⟩
      rw [(recordLimited_within _ _ _ _).same (fun w => getMon w m), getMon_modMon_same]
    · refine ⟨?_, rfl⟩
      show (getMon (modMon (modMon s m _) m (fun x => { x with latched := true })) m).result = _
      rw [getMon_modMon_same, getMon_modMon_same]

/-- A monitor not yet latched waits for the next decision, unless its class is NOTE. -/
theorem raiseMonitor_fresh (h : (getMon s m).latched = false) :
    (raiseMonitor s m d).alarm.fresh = s.alarm.fresh ++ (if monClass s m = 0 then [] else [(m, d)]) := by
  have hclass : ∀ f, monClass (modMon s m f) m = monClass s m := fun _ => rfl
  unfold raiseMonitor
  dsimp only
  rw [hclass]
  split
  · rw [(recordLimited_within _ _ _ _).same (·.alarm.fresh), List.append_nil]
    rfl
  · rw [if_neg (by rw [getMon_modMon_same]; exact fun hl => absurd (h.symm.trans hl) (by decide))]
    rfl

end

/-! ## What a detector reports -/

/-- What may change beside an event: the contact that a detector saw, and the clock whose stop it reports. -/
def sensedScope : Scope := { backup := true, bays := true, link := true }

/-- A detector reports an event of monitor `m` with its detail, or none where the condition does not hold. -/
def Reports (s : State) (e : MonSense × Nat × Bytes × Bool) : Prop :=
  ∃ (w : State) (f : State → State), Within sensedScope s w ∧ (∀ v, Within cutShortScope v (f v)) ∧
    monitorSense s e.1 = if armed s e.2.1 && e.2.2.2 then f (raiseMonitor w e.2.1 e.2.2.1) else w

section
variable {s : State}

theorem reports_raiseIf {e : MonSense × Nat × Bytes × Bool} (h : monitorSense s e.1 = raiseIf s e.2.1 e.2.2.1 e.2.2.2) : Reports s e :=
  ⟨s, id, .refl s, fun v => .refl v, h⟩

theorem stopClock_within (island : Nat) : Within { bays := true, link := true } s (stopClock s island) := by
  have hhold : Within { bays := true, link := true } s (if islandRuns s island then holdClock s island else s) := .ite rfl (.refl s)
  unfold stopClock
  exact .ite (hhold.then (closeBay_within _ _ _)) hhold

/-- An event of a clock, over the state in which it has stopped where it has. -/
theorem clockEvent_reports {w : State} (hw : Within sensedScope s w) {island cond : Nat} (h4 : island ≠ 4) (c : Bool) :
    clockEvent w island cond c = if armed s 5 && c then
      withhold (raiseMonitor w 5 (detail (island + 256 * cond))) (fun b => symmetricBay b && island == 5 + b) else w := by
  have harmed : armed w 5 = armed s 5 := by
    unfold armed
    rw [hw.same (·.power), hw.same (·.life)]
    rfl
  have hne : (island != 4) = true := bne_iff_ne.2 h4
  unfold clockEvent
  rw [harmed, hne, Bool.and_true]

theorem reports_of_mem {k : Fin 14} {mv ps below above us kelvin ns island permille : Nat} (hk : k.val = 1 ∨ k.val = 3 ∨ k.val = 4) (h4 : island ≠ 4)
    {e : MonSense × Nat × Bytes × Bool}
    (he : e ∈ [(MonSense.glitch false mv ps, 0, detail mv, glitchHolds s.ctl.cfg 0 mv ps), (.glitch true mv ps, 2, detail mv, glitchHolds s.ctl.cfg 2 mv ps),
      (.slow k below above us, k.val, detail (if limitIn s.ctl.cfg k.val 1 < below then below else above), slowHolds s.ctl.cfg k.val below above us),
      (.clockShort island permille, 5, detail (island + 256), decide (limitIn s.ctl.cfg 5 1 < permille)),
      (.clockFreq island permille, 5, detail (island + 512), decide (limitIn s.ctl.cfg 5 2 < permille)),
      (.clockStop island, 5, detail (island + 768), true),
      (.temp kelvin us, 6, detail kelvin, tempHolds (limitIn s.ctl.cfg 6 1) (limitIn s.ctl.cfg 6 2) kelvin && decide (limitIn s.ctl.cfg 6 3 ≤ us)),
      (.envOpen us, 8, detail us, decide (us ≠ 0) && contactHolds s.ctl.cfg us), (.cell mv ns, 9, detail mv, cellHolds s.ctl.cfg mv ns)]) :
    Reports s e := by
  simp only [List.mem_cons, List.not_mem_nil, or_false] at he
  rcases he with rfl | rfl | rfl | rfl | rfl | rfl | rfl | rfl | rfl
  · exact ⟨s, fun v => withhold v symmetricBay, .refl s, fun v => withhold_within v _, rfl⟩
  · exact reports_raiseIf rfl
  · exact reports_raiseIf (if_pos hk)
  · exact ⟨s, _, .refl s, fun v => withhold_within v _, clockEvent_reports (.refl s) h4 _⟩
  · exact ⟨s, _, .refl s, fun v => withhold_within v _, clockEvent_reports (.refl s) h4 _⟩
  · have hw : Within sensedScope s (if s.power.pwrGood && island != 4 then stopClock s island else s) :=
      .ite ((stopClock_within island).mono rfl) (.refl s)
    exact ⟨_, _, hw, fun v => withhold_within v _, clockEvent_reports hw h4 _⟩
  · exact reports_raiseIf rfl
  · refine ⟨if us = 0 ∨ contactHolds s.ctl.cfg us then { s with backup := { s.backup with contact := decide (us = 0) } } else s, id,
      .ite rfl (.refl s), fun v => .refl v, ?_⟩
    have harmed : ∀ {c : Prop} [Decidable c], armed (if c then { s with backup := { s.backup with contact := decide (us = 0) } } else s) 8 = armed s 8 := by
      intro c _
      split <;> rfl
    show raiseIf _ 8 _ _ = _
    unfold raiseIf
    rw [harmed]
    rfl
  · exact reports_raiseIf rfl

variable {e : MonSense × Nat × Bytes × Bool} {t : Nat} (h : Reports (at_ s t) e)
include h

theorem reports_event (ha : armed s e.2.1 = true) (hc : e.2.2.2 = true) (hl : (getMon s e.2.1).latched = false) :
    ∃ u, exec (.monitorEvent t e.1) s = .next u ∧
      getMon u e.2.1 = { getMon s e.2.1 with
        events := (getMon s e.2.1).events + 1, lastT := (at_ s t).now, latched := decide (monClass s e.2.1 ≠ 0) } ∧
      u.alarm.fresh = s.alarm.fresh ++ (if monClass s e.2.1 = 0 then [] else [(e.2.1, e.2.2.1)]) ∧
      (∀ m, m ≠ e.2.1 → getMon u m = getMon s m) := by
  obtain ⟨w, f, hw, hf, hsense⟩ := h
  rw [if_pos (by rw [show armed (at_ s t) e.2.1 = true from ha, hc]; rfl)] at hsense
  have hmon : ∀ m, getMon w m = getMon s m := fun m => hw.same (fun w => getMon w m)
  have hnow : w.now = (at_ s t).now := hw.same (·.now)
  have hclass : monClass w e.2.1 = monClass s e.2.1 := hw.same (fun w => monClass w e.2.1)
  have hfresh : w.alarm.fresh = s.alarm.fresh := hw.same (·.alarm.fresh)
  have halarm : (settle (f (raiseMonitor w e.2.1 e.2.2.1))).alarm = (raiseMonitor w e.2.1 e.2.2.1).alarm :=
    ((settle_within _).same (·.alarm)).trans ((hf _).same (·.alarm))
  have hget : ∀ m, getMon (settle (f (raiseMonitor w e.2.1 e.2.2.1))) m = getMon (raiseMonitor w e.2.1 e.2.2.1) m := fun m => by
    unfold getMon
    rw [halarm]
  refine ⟨_, congrArg (fun w => Host.Outcome.next (settle w)) hsense, ?_, ?_, fun m hm => ?_⟩
  · rw [hget, raiseMonitor_mon _ (by rw [hmon]; exact hl), hmon, hnow, hclass]
  · rw [halarm, raiseMonitor_fresh _ (by rw [hmon]; exact hl), hfresh, hclass]
  · rw [hget, raiseMonitor_other _ hm, hmon]

theorem reports_nothing (hn : armed s e.2.1 = false ∨ e.2.2.2 = false) : ∃ u, exec (.monitorEvent t e.1) s = .next u ∧ u.alarm = s.alarm := by
  obtain ⟨w, f, hw, -, hsense⟩ := h
  have hoff : ¬(armed (at_ s t) e.2.1 && e.2.2.2) = true := fun hand => by
    obtain ⟨ha, hc⟩ := Bool.and_eq_true_iff.1 hand
    rcases hn with hn | hn
    · exact absurd (hn.symm.trans ha) (by decide)
    · exact absurd (hn.symm.trans hc) (by decide)
  rw [if_neg hoff] at hsense
  exact ⟨_, congrArg (fun w => Host.Outcome.next (settle w)) hsense, ((settle_within _).same (·.alarm)).trans (hw.same (·.alarm))⟩

end

/-! ## Decisions (R373) -/

section
variable (s : State) (cls : Nat)

theorem decisionRecords_within : Within { evr := true } s (decisionRecords s cls) :=
  .each (fun w m => by
    split
    · exact .ite (recordExempt_within w _ _ _) (recordExempt_within w _ _ _)
    · exact .refl w) _ s

/-- The state in which a decision takes its actions. -/
def decided (s : State) (cls : Nat) : State :=
  let s := decisionRecords s cls
  let s := { s with alarm := { s.alarm with fresh := [], executed := cls, alarmN := s.alarm.alarmN || s.power.pwrGood } }
  if 3 ≤ cls then { s with backup := { s.backup with window := none } } else s

theorem decided_within : Within { evr := true, alarm := true, backup := true } s (decided s cls) := by
  have h := (decisionRecords_within s cls).mono (G := { evr := true, alarm := true, backup := true }) rfl
  have ha : ∀ (v : State) (a : Alarm), Within { alarm := true } v { v with alarm := a } := fun _ _ => rfl
  have hb : ∀ (v : State) (b : Backup), Within { backup := true } v { v with backup := b } := fun _ _ => rfl
  unfold decided
  exact .ite ((h.then (ha _ _)).then (hb _ _)) (h.then (ha _ _))

theorem decided_alarm (hp : s.power.pwrGood = true) : (decided s cls).alarm = { s.alarm with fresh := [], executed := cls, alarmN := true } := by
  have h := decisionRecords_within s cls
  have halarm : (decided s cls).alarm = { (decisionRecords s cls).alarm with
      fresh := [], executed := cls, alarmN := (decisionRecords s cls).alarm.alarmN || (decisionRecords s cls).power.pwrGood } := by
    unfold decided
    dsimp only
    split <;> rfl
  rw [halarm, h.same (·.alarm), h.same (·.power.pwrGood), hp, Bool.or_true]

variable {s cls}

theorem decide_none (h : s.alarm.fresh = []) : decide_ s = s := by
  unfold decide_
  rw [h]

theorem decide_decides (h : s.alarm.fresh ≠ []) (hc : cls = s.alarm.fresh.foldl (fun c e => max c (monClass s e.1)) (executedNow s)) :
    decide_ s = writeLatchReg (takeActions (decided s cls) (executedNow s) cls) cls := by
  subst hc
  unfold decide_
  split
  · next hnil => exact absurd hnil h
  · rfl

end

/-! ## Tests (R378) -/

section
variable {s : State} {m : Nat}

theorem startTest_mon (n k : Nat) : (getMon (startTest s n) k).result = (getMon s k).result := by
  unfold startTest
  by_cases h : k = n
  · rw [h, getMon_modMon_same]
    rfl
  · rw [getMon_modMon_other _ _ _ _ h]
    rfl

/-- The state in which a test has its result, and the next has begun. -/
def tested (s : State) (m : Nat) (rest : List Nat) (pass : Bool) : State :=
  let s := { s with alarm := { s.alarm with tests := rest } }
  let s := modMon s m (fun x => { x with testing := false, result := (bit pass + 2 * (s.now / 1000)) % 2 ^ 64 })
  match rest with
  | n :: _ => startTest s n
  | [] => s

theorem tested_tests (rest : List Nat) (pass : Bool) : (tested s m rest pass).alarm.tests = rest ∧
    (getMon (tested s m rest pass) m).result = (bit pass + 2 * (s.now / 1000)) % 2 ^ 64 ∧ (tested s m rest pass).alarm.fresh = s.alarm.fresh := by
  have hmon : ∀ w : State, getMon (modMon w m (fun x => { x with testing := false, result := (bit pass + 2 * (w.now / 1000)) % 2 ^ 64 })) m =
      { getMon w m with testing := false, result := (bit pass + 2 * (w.now / 1000)) % 2 ^ 64 } := fun w => getMon_modMon_same _ _ _
  unfold tested
  cases rest with
  | nil => exact ⟨rfl, congrArg Mon.result (hmon _), rfl⟩
  | cons n rest => exact ⟨rfl, (startTest_mon n m).trans (congrArg Mon.result (hmon _)), rfl⟩

theorem testEnds_tested {rest : List Nat} {pass : Bool} (hp : s.power.pwrGood = true) (ht : s.alarm.tests = m :: rest) :
    testEnds s m pass = if pass then record (tested s m rest pass) 0x2112 (src 6 m) (Bytes.ofNatLE 1 m ++ Bytes.ofNatLE 1 (bit pass))
      else raiseMonitor (record (tested s m rest pass) 0x2112 (src 6 m) (Bytes.ofNatLE 1 m ++ Bytes.ofNatLE 1 (bit pass))) m (detail 0) := by
  unfold testEnds
  rw [ht]
  dsimp only
  rw [if_neg (by rw [hp]; simp)]
  rfl

end

/-- Settles O55: an event is what its detector reports, a decision its actions in their order, a test's end its result. -/
theorem monitorsAndDecisions : Obligations.MonitorsAndDecisions := by
  unfold Obligations.MonitorsAndDecisions
  intro s t hp
  refine ⟨fun k mv ps below above us kelvin ns island permille e hk h4 he => ?_, fun hnone => ?_, fun hsome cls hcls => ?_,
    fun m rest pass htests => ?_, fun n width => ⟨fun hw => ?_, fun hw => ?_⟩⟩
  · have hr : Reports (at_ s t) e := reports_of_mem (s := at_ s t) hk h4 he
    exact ⟨reports_event hr, reports_nothing hr⟩
  · refine ⟨settle (at_ s t), ?_, settle_beside _⟩
    exact congrArg Host.Outcome.next ((if_pos hp).trans (congrArg settle (decide_none (s := at_ s t) hnone)))
  · have hexec : exec (.decisionIntervalEnd t) s =
        .next (settle (writeLatchReg (takeActions (decided (at_ s t) cls) (executedNow s) cls) cls)) :=
      congrArg Host.Outcome.next ((if_pos hp).trans (congrArg settle (decide_decides (s := at_ s t) hsome hcls)))
    have halarm := decided_alarm (at_ s t) cls hp
    have hwithin := decided_within (at_ s t) cls
    generalize decided (at_ s t) cls = w at *
    generalize hdone : executedNow s = done at *
    obtain ⟨r, hactions⟩ := takeActions_alarm w done cls
    have hs := fun v => settle_within (writeLatchReg v cls)
    have hl := fun v => writeLatchReg_within v cls
    have hset : ∀ {α : Type} (p : State → α), (∀ v, p (settle (writeLatchReg v cls)) = p v) →
        p (settle (writeLatchReg (takeActions w done cls) cls)) = p (takeActions w done cls) := fun p hpv => hpv _
    have hvault := hset (·.vault) (fun v => ((hs v).same (·.vault)).trans ((hl v).same (·.vault)))
    have hkeys := hset (·.keys) (fun v => ((hs v).same (·.keys)).trans ((hl v).same (·.keys)))
    have hlink := hset (·.link) (fun v => ((hs v).same (·.link)).trans ((hl v).same (·.link)))
    have hkum := hset (·.kumCtr) (fun v => ((hs v).same (·.kumCtr)).trans ((hl v).same (·.kumCtr)))
    have hdev := hset (·.devCtr) (fun v => ((hs v).same (·.devCtr)).trans ((hl v).same (·.devCtr)))
    have hal := hset (·.alarm) (fun v => ((hs v).same (·.alarm)).trans ((hl v).same (·.alarm)))
    rw [hactions, halarm] at hal
    refine ⟨_, hexec, congrArg Alarm.executed hal, congrArg Alarm.fresh hal, congrArg Alarm.alarmN hal, (congrArg Alarm.mons hal).trans rfl,
      fun h2 hd => ?_, fun h3 hd => ?_, fun h4 hd => ?_, fun h1 => ?_, fun h3 => ?_, fun h2 => ?_⟩
    · rw [hkeys, hlink]
      exact takeActions_session w h2 hd
    · rw [hkeys, hvault]
      exact takeActions_slots w h3 hd
    · rw [hvault, hkum, hdev]
      exact takeActions_root w h4 hd
    · rw [hkum, takeActions_note w h1]
      exact hwithin.same (·.kumCtr)
    · rw [hvault, takeActions_below w h3]
      exact hwithin.same (·.vault.root)
    · obtain ⟨hkv, hks⟩ := takeActions_keeps w (done := done) h2
      rw [hvault, hkeys, hkv, hks]
      exact ⟨hwithin.same (·.vault), hwithin.same (·.keys.slots)⟩
  · have hends := testEnds_tested (s := at_ s t) (pass := pass) hp htests
    obtain ⟨hrest, hresult, hfresh⟩ := tested_tests (s := at_ s t) (m := m.val) rest pass
    have hrec := record_within (tested (at_ s t) m.val rest pass) 0x2112 (src 6 m.val) (Bytes.ofNatLE 1 m.val ++ Bytes.ofNatLE 1 (bit pass))
    generalize record (tested (at_ s t) m.val rest pass) 0x2112 (src 6 m.val) _ = w at *
    have hwalarm : w.alarm = (tested (at_ s t) m.val rest pass).alarm := hrec.same (·.alarm)
    have hwmon : getMon w m.val = getMon (tested (at_ s t) m.val rest pass) m.val := hrec.same (fun w => getMon w m.val)
    have hs := settle_within (testEnds (at_ s t) m.val pass)
    refine ⟨_, rfl, ?_, ?_, fun hpass => ?_⟩
    · rw [hs.same (·.alarm), hends]
      split
      · rw [hwalarm, hrest]
      · rw [(raiseMonitor_tests _).2, hwalarm, hrest]
    · rw [hs.same (fun w => getMon w m.val), hends]
      split
      · rw [hwmon, hresult]
      · rw [(raiseMonitor_tests _).1, hwmon, hresult]
    · rw [hs.same (·.alarm), hends, if_pos hpass, hwalarm]
      exact hfresh
  · refine congrArg Host.Outcome.next ?_
    have hn : ¬width < 20 := Nat.not_lt.2 hw
    unfold tamperEdge
    simp only [hn, decide_eq_true hw, Bool.true_or, if_false, Bool.true_eq_false]
    rfl
  · refine ⟨_, rfl, ?_⟩
    unfold tamperEdge
    dsimp only
    rw [if_pos hw]
    split <;> rfl

end Sys2Proof.Machine
end

section
/-! SUPPORT. The Kallek protocol: a request and its path, its gate, and the messages that read the dictionary (R22, R326 to R333, R356). -/

namespace Sys2Proof.Machine

-- One proof at a time: the check bounds the compiler's threads.
set_option Elab.async false

open Sys2Proof Sys2Proof.Safety

/-! ## A request, its path and its gate -/

section
variable {s : State} {h : KHdr} {c : Instr} {f : State → State} {behind : Bool}

/-- A request that meets a stopped clock, or an earlier request of its path, waits in its channel. -/
theorem kallekWord_waits (hp : pathFree s h.path = false ∨ (behind = true ∧ signsPending s h.path = true)) :
    kallekWord s h behind c f = stall s c := if_pos hp

theorem kallekWord_arrives (hp : pathFree s h.path = true) (hs : behind = false ∨ signsPending s h.path = false) :
    kallekWord s h behind c f = f s := by
  refine if_neg ?_
  rintro (hf | ⟨hb, hg⟩)
  · exact absurd (hp.symm.trans hf) (by decide)
  · rcases hs with hs | hs
    · exact absurd (hs.symm.trans hb) (by decide)
    · exact absurd (hs.symm.trans hg) (by decide)

variable {op : Nat} {serve : Nat → Nat → State}

theorem kallek_serves {role inst : Nat} (hg : gate s h = .go role inst) : kallek s h op serve = serve role inst := by
  unfold kallek
  rw [hg]

theorem kallek_refuses {st : Nat} (hg : gate s h = .refuse st) : kallek s h op serve = emit s (.kallek h op st []) := by
  unfold kallek
  rw [hg]
  rfl

theorem kallek_silent (hg : gate s h = .silent) : kallek s h op serve = s := by
  unfold kallek
  rw [hg]

theorem kallek_busy {ld : Option Nat} (hg : gate s h = .busy ld) : kallek s h op serve = emit s (.mailbox ld "Busy" []) := by
  unfold kallek
  rw [hg]

end

/-! ## Messages that read (R326, R329, R333, R438) -/

section
variable {s : State} {h : KHdr} {role inst : Nat} (hg : gate s h = .go role inst) {index sub : Nat}
include hg

/-- GET of what the role does not read. -/
theorem kGet_none {offset most : Nat} (hrole : role ≠ roleRecovery) (hn : readable s role inst index sub = none) :
    kGet s h index sub offset most = emit s (.kallek h 1 0x0203 []) := by
  unfold kGet
  rw [kallek_serves hg, if_neg hrole]
  unfold getBody
  rw [hn]
  rfl

theorem kGet_some {offset most : Nat} (hrole : role ≠ roleRecovery) {o : Obj} {total : Nat} {bytes : Bytes}
    (ho : readable s role inst index sub = some o) (hm : ¬(index = 0xC000 ∧ sub = 4 ∧ 65536 < most))
    (hb : readBytes s index sub o offset most = (total, bytes)) : kGet s h index sub offset most =
      emit s (.kallek h 1 0 (Bytes.ofNatLE 1 o.type ++ Bytes.zeros 3 ++ Bytes.ofNatLE 4 total ++ bytes)) := by
  unfold kGet
  rw [kallek_serves hg, if_neg hrole]
  unfold getBody
  rw [ho]
  dsimp only
  rw [if_neg hm, hb]
  rfl

theorem kDescribe_none (hn : visible s role inst index sub = none) : kDescribe s h index sub = emit s (.kallek h 2 0x0203 []) := by
  unfold kDescribe
  rw [kallek_serves hg, hn]
  rfl

theorem kDescribe_some {o : Obj} (ho : visible s role inst index sub = some o) (hrole : role ≠ roleReturn) :
    kDescribe s h index sub = emit s (.kallek h 2 0 (descriptor { o with dflt := shownDefault s index sub o })) := by
  unfold kDescribe
  rw [kallek_serves hg, ho]
  exact if_neg hrole

variable (hret : role ≠ roleReturn) (hrec : role ≠ roleRecovery)
include hret hrec

theorem kNext_some {x k : Nat} (hn : nextVisible s role inst index sub = some (x, k)) :
    kNext s h index sub = emit s (.kallek h 3 0 (Bytes.ofNatLE 2 x ++ Bytes.ofNatLE 1 k)) := by
  unfold kNext
  rw [kallek_serves hg, if_neg (not_or.2 ⟨hret, hrec⟩), hn]
  rfl

theorem kNext_none (hn : nextVisible s role inst index sub = none) : kNext s h index sub = emit s (.kallek h 3 0 [0xFF, 0xFF, 0xFF]) := by
  unfold kNext
  rw [kallek_serves hg, if_neg (not_or.2 ⟨hret, hrec⟩), hn]
  rfl

end

/-- The object, the subindex and the length that a GET may ask for (R438), as the command gives them. -/
theorem get_length {index : BitVec 16} {sub : Byte} {most : BitVec 32} (h : index ≠ 0xC000 ∨ sub ≠ 4 ∨ most.toNat ≤ 65536) :
    ¬(index.toNat = 0xC000 ∧ sub.toNat = 4 ∧ 65536 < most.toNat) := by
  rintro ⟨hi, hs, hm⟩
  rcases h with h | h | h
  · exact h (BitVec.eq_of_toNat_eq hi)
  · exact h (BitVec.eq_of_toNat_eq hs)
  · exact absurd hm (Nat.not_lt.2 h)

/-- Settles O50: a request waits for its path, is answered by its gate, or is served by its message. -/
theorem kallekReads : Obligations.KallekReads := by
  unfold Obligations.KallekReads
  intro s t h index sub offset most op
  refine ⟨fun hwait c hc => ?_, fun hfree hsigns => ⟨fun role inst hg => ⟨fun hrole => ⟨fun hn => ?_, fun o total bytes ho hm hb => ?_⟩, fun hn => ?_,
    fun o ho hrole => ?_, fun hret hrec => ⟨fun x k hn => ?_, fun hn => ?_⟩, ?_⟩, fun p hp => ⟨fun st hg => ?_, fun hg => ?_, fun ld hg => ?_⟩⟩⟩
  · have hw : ∀ cmd f, kallekWord (at_ s t) h true cmd f = stall (at_ s t) cmd := fun cmd f =>
      kallekWord_waits (s := at_ s t) (hwait.imp_right fun hs => ⟨rfl, hs⟩)
    simp only [List.mem_cons, List.not_mem_nil, or_false] at hc
    rcases hc with rfl | rfl | rfl | rfl <;> exact congrArg Host.Outcome.next (hw _ _)
  all_goals
    have ha : ∀ cmd f, kallekWord (at_ s t) h true cmd f = f (at_ s t) := fun cmd f =>
      kallekWord_arrives (s := at_ s t) hfree (.inr hsigns)
  · exact congrArg Host.Outcome.next ((ha _ _).trans (kGet_none (s := at_ s t) hg hrole hn))
  · exact congrArg Host.Outcome.next ((ha _ _).trans (kGet_some (s := at_ s t) hg hrole ho (get_length hm) hb))
  · exact congrArg Host.Outcome.next ((ha _ _).trans (kDescribe_none (s := at_ s t) hg hn))
  · exact congrArg Host.Outcome.next ((ha _ _).trans (kDescribe_some (s := at_ s t) hg ho hrole))
  · exact congrArg Host.Outcome.next ((ha _ _).trans (kNext_some (s := at_ s t) hg hret hrec hn))
  · exact congrArg Host.Outcome.next ((ha _ _).trans (kNext_none (s := at_ s t) hg hret hrec hn))
  · exact congrArg Host.Outcome.next ((ha _ _).trans (kallek_serves (s := at_ s t) hg))
  all_goals simp only [List.mem_cons, List.not_mem_nil, or_false] at hp
  · rcases hp with rfl | rfl | rfl | rfl <;> exact congrArg Host.Outcome.next ((ha _ _).trans (kallek_refuses (s := at_ s t) hg))
  · rcases hp with rfl | rfl | rfl | rfl <;> exact congrArg Host.Outcome.next ((ha _ _).trans (kallek_silent (s := at_ s t) hg))
  · rcases hp with rfl | rfl | rfl | rfl <;> exact congrArg Host.Outcome.next ((ha _ _).trans (kallek_busy (s := at_ s t) hg))

end Sys2Proof.Machine
end

section
/-! SUPPORT. Requests that the link island serves: function registers, mailboxes, the fabric manager and MCTP over I3C (R22, R446, R450,
R451, R461 to R463). -/

namespace Sys2Proof.Machine

-- One proof at a time: the check bounds the compiler's threads.
set_option Elab.async false

open Sys2Proof Sys2Proof.Safety

/-! ## A request over the link island (R22) -/

section
variable {s : State} {t : Nat} {c : Instr} {f : State → State}

theorem linkWord_waits (hl : islandRuns s islLink = false) : linkWord (at_ s t) c f = stall (at_ s t) c := by
  unfold linkWord crossing
  have hsink : [islLink].all (islandRuns (at_ s t)) = false :=
    List.all_eq_false.2 ⟨islLink, List.mem_singleton.2 rfl, fun hon => absurd (hl.symm.trans hon) (by decide)⟩
  rw [hsink]
  rfl

theorem linkWord_at (hl : islandRuns s islLink = true) : linkWord (at_ s t) c f = f (at_ s t) := linkWord_runs (s := at_ s t) hl c f

end

/-! ## MSI-X entries (R451) -/

section
variable {s : State} {d entry : Nat}

theorem unmask_unserved (h : ldServed s d = false) : unmask s d entry = s := if_pos h

theorem unmask_frame (h : ldServed s d = true) : unmask s d entry = { s with
    outbox := s.outbox ++ (if mget false s.link.msixPend (d * 2048 + entry) then [.msix d entry] else [])
    link := { s.link with
      msixOpen := mset false s.link.msixOpen (d * 2048 + entry) true, msixPend := mset false s.link.msixPend (d * 2048 + entry) false } } := by
  unfold unmask
  rw [if_neg (by rw [h]; decide)]
  dsimp only
  split
  · rfl
  · rw [List.append_nil]

theorem configAnswer_up {h tag : Nat} (hu : headUp s h = true) :
    configAnswer s h tag = emit s (.config h tag (decide (s.power.step < 8)) (serving s) 1) := if_pos hu

theorem configAnswer_down {h tag : Nat} (hu : headUp s h = false) : configAnswer s h tag = s := if_neg (by rw [hu]; decide)

end

/-- Settles O44: a request waits for the link island's clock, and is served as the registers stand. -/
theorem functionRegistersAnswer : Obligations.FunctionRegistersAnswer := by
  unfold Obligations.FunctionRegistersAnswer
  intro s t h ld tag entry base size ways skip
  refine ⟨fun hl cmd hc => ?_, fun hl => ⟨fun hu => ?_, fun hu => ?_, fun hserved => ⟨?_, fun hbad => ?_, ?_⟩, fun hserved => ⟨?_, ?_⟩⟩⟩
  · simp only [List.mem_cons, List.not_mem_nil, or_false] at hc
    rcases hc with rfl | rfl | rfl <;> exact congrArg Host.Outcome.next (linkWord_waits hl)
  · exact congrArg Host.Outcome.next ((linkWord_at hl).trans (configAnswer_up (s := at_ s t) hu))
  · exact congrArg Host.Outcome.next ((linkWord_at hl).trans (configAnswer_down (s := at_ s t) hu))
  · have hcommit := hdmCommit_commits (s := at_ s t) (d := ld.toNat) (base := base) hserved ⟨rfl, rfl, rfl⟩
    refine ⟨_, congrArg Host.Outcome.next ((linkWord_at hl).trans hcommit), mfind_mput_same _ _ _, ?_,
      fun d hd => mfind_mput_other _ _ _ _ hd, rfl⟩
    exact (bitOf_putBit _ _ _ _).trans (if_pos rfl)
  · have hcommit := hdmCommit_refuses (s := at_ s t) (d := ld.toNat) (base := base) hserved hbad
    refine ⟨_, congrArg Host.Outcome.next ((linkWord_at hl).trans hcommit), mfind_mdel_same _ _, ?_,
      fun d hd => mfind_mdel_other _ _ _ hd, rfl⟩
    exact (bitOf_putBit _ _ _ _).trans (if_pos rfl)
  · refine ⟨_, congrArg Host.Outcome.next ((linkWord_at hl).trans (unmask_frame (s := at_ s t) hserved)), mget_mset_same false s.link.msixOpen _ true,
      mget_mset_same false s.link.msixPend _ false, rfl, fun k hk =>
      ⟨mget_mset_other false s.link.msixOpen _ _ true hk, mget_mset_other false s.link.msixPend _ _ false hk⟩, rfl⟩
  · exact congrArg Host.Outcome.next ((linkWord_at hl).trans (if_pos hserved))
  · exact congrArg Host.Outcome.next ((linkWord_at hl).trans (unmask_unserved (s := at_ s t) hserved))

/-! ## Mailboxes (R461) -/

section
variable {s : State} {ld : Nat} {serve : State}

theorem onMailbox_serves (h : ldServed s ld = true) (hs : s.power.stop = .running) (hr : s.fw.replacing ≠ some 2) : onMailbox s ld serve = serve := by
  unfold onMailbox
  have hout : managerOut s = false := beq_eq_false_iff_ne.2 hr
  rw [if_neg (by rw [h, hs]; decide), hout]
  rfl

theorem onMailbox_busy (h : ldServed s ld = true) (hs : s.power.stop = .running) (hr : s.fw.replacing = some 2) :
    onMailbox s ld serve = emit s (.mailbox (some ld) "Busy" []) := by
  unfold onMailbox
  have hout : managerOut s = true := beq_iff_eq.2 hr
  rw [if_neg (by rw [h, hs]; decide), hout]
  rfl

variable {h : KHdr} {op : Nat} {b : Bytes} (hserved : ldServed s ld = true)
include hserved

theorem tunnel_reached : ¬(ldServed s ld = false ∧ (!(headUp s (ld / 16) && ld % 16 == 0 && s.power.stop == .images)) = true) :=
  fun hno => absurd (hserved.symm.trans hno.1) (by decide)

theorem tunnel_busy (hr : s.fw.replacing = some 1 ∨ s.fw.replacing = some 2) : tunnel s ld h op b = emit s (.mailbox (some ld) "Busy" []) := by
  unfold tunnel
  rw [if_neg (tunnel_reached hserved)]
  exact if_pos (hr.symm.imp_left (fun h2 => beq_iff_eq.2 h2))

theorem tunnel_serves (h1 : s.fw.replacing ≠ some 1) (h2 : s.fw.replacing ≠ some 2) :
    tunnel s ld h op b = if tunnelPath s ld h.path = false then s else kallekBody s h op b := by
  unfold tunnel
  rw [if_neg (tunnel_reached hserved), if_neg]
  rintro (hm | hm)
  · exact h2 (beq_iff_eq.1 hm)
  · exact h1 hm

end

theorem kallekBody_get (s : State) (h : KHdr) {b : Bytes} (hb : b.length = 12) : kallekBody s h 1 b =
    kGet s h (Bytes.fieldLE b 0 2) (Bytes.fieldLE b 2 1) (Bytes.fieldLE b 4 4) (Bytes.fieldLE b 8 4) := if_pos hb

/-- Settles O48: each command is a fixed answer of its mailbox, and a tunnelled request the request of its path. -/
theorem mailboxAnswers : Obligations.MailboxAnswers := by
  unfold Obligations.MailboxAnswers
  intro s t ld opcode h0 op0 body0
  have htunnel : ∀ (h : KHdr) (op : Byte) (body : Bytes), exec (.kallekTunnel t ld h op body) s =
      .next (settle (linkWord (at_ s t) (.kallekTunnel t ld h op body) (fun s =>
        kallekWord s h (op != 0x14 && op != 0x15) (.kallekTunnel t ld h op body) (fun s => tunnel s ld.toNat h op.toNat body)))) :=
    fun _ _ _ => rfl
  refine ⟨fun hl => ⟨fun cmd hc => ?_, ?_⟩, fun hl hwait => ?_, fun hl hserved hstop => ⟨fun hr p hp => ?_, fun hr cmd hc => ?_,
    fun h op body hfree hsigns => ?_⟩⟩
  · simp only [List.mem_cons, List.not_mem_nil, or_false] at hc
    rcases hc with rfl | rfl | rfl | rfl | rfl | rfl <;> exact congrArg Host.Outcome.next (linkWord_waits hl)
  · refine ⟨_, htunnel _ _ _, ?_⟩
    rw [linkWord_waits hl]
    exact settle_beside _
  · refine ⟨_, htunnel _ _ _, ?_⟩
    rw [linkWord_at hl, kallekWord_waits (s := at_ s t)]
    · exact settle_beside _
    · refine hwait.imp_right fun ⟨h14, h15, hs⟩ => ⟨?_, hs⟩
      rw [bne_iff_ne.2 h14, bne_iff_ne.2 h15]
      rfl
  · simp only [List.mem_cons, List.not_mem_nil, or_false] at hp
    rcases hp with rfl | rfl | rfl | rfl | rfl | rfl <;>
      exact congrArg Host.Outcome.next ((linkWord_at hl).trans (onMailbox_serves (s := at_ s t) hserved hstop hr))
  · simp only [List.mem_cons, List.not_mem_nil, or_false] at hc
    rcases hc with rfl | rfl | rfl | rfl | rfl | rfl <;>
      exact congrArg Host.Outcome.next ((linkWord_at hl).trans (onMailbox_busy (s := at_ s t) hserved hstop hr))
  · have hexec : exec (.kallekTunnel t ld h op body) s = .next (settle (tunnel (at_ s t) ld.toNat h op.toNat body)) := by
      rw [htunnel, linkWord_at hl, kallekWord_arrives (s := at_ s t) hfree (.inr hsigns)]
    refine ⟨fun hr => ⟨_, hexec, ?_⟩, fun h1 h2 hpath => ⟨_, hexec, ?_⟩, fun h1 h2 hpath hop hlen => ⟨_, hexec, ?_⟩⟩
    · rw [tunnel_busy (s := at_ s t) hserved hr]
      exact settle_beside _
    · rw [tunnel_serves (s := at_ s t) hserved h1 h2, if_pos (show tunnelPath (at_ s t) ld.toNat h.path = false from hpath)]
      exact settle_beside _
    · subst hop
      rw [tunnel_serves (s := at_ s t) hserved h1 h2, if_neg (by rw [show tunnelPath (at_ s t) ld.toNat h.path = true from hpath]; decide)]
      exact (kallekBody_get (at_ s t) h hlen) ▸ settle_beside _

/-! ## The fabric manager and MCTP (R462, R463) -/

section
variable {s serve : State}

theorem onFm_serves (hp : s.power.pwrGood = true) (h8 : 8 ≤ s.power.step) (hs : s.power.stop = .running) (hr : s.fw.replacing ≠ some 2) :
    onFm s serve = serve := by
  have hout : managerOut s = false := beq_eq_false_iff_ne.2 hr
  unfold onFm
  rw [if_neg, hout]
  · rfl
  · rintro (h | h | h)
    · exact absurd (hp.symm.trans h) (by decide)
    · omega
    · exact h hs

theorem onI3c_serves (h : linkAlive s = true) : onI3c s serve = serve := if_pos h

end

/-- An enabled LD lies above a count. -/
theorem any_enabled {c : Cfg} {h count : Nat} : (upTo 16).any (fun l => decide (count ≤ l) && setting c (0x9010 + (16 * h + l)) 1 0 == 1) = true ↔
    ∃ l, count ≤ l ∧ l < 16 ∧ setting c (0x9010 + (16 * h + l)) 1 0 = 1 := by
  simp only [List.any_eq_true, mem_upTo, Bool.and_eq_true, decide_eq_true_eq, beq_iff_eq]
  exact ⟨fun ⟨l, h1, h2, h3⟩ => ⟨l, h2, h1, h3⟩, fun ⟨l, h1, h2, h3⟩ => ⟨l, h2, h1, h3⟩⟩

/-- Settles O49: each command is a fixed answer, an allocation the one of its checks. -/
theorem fabricManagerAndMctpAnswer : Obligations.FabricManagerAndMctpAnswer := by
  unfold Obligations.FabricManagerAndMctpAnswer
  intro s t h opcode count mib addr eid
  refine ⟨fun hl cmd hc => ?_, fun hl => ⟨fun hp h8 hs hr => ⟨fun p hmem => ?_, fun h1 h16 hfree => ?_, fun hbad => ?_⟩, fun halive =>
    ⟨?_, ?_, fun p hmem => ?_⟩⟩⟩
  · simp only [List.mem_cons, List.not_mem_nil, or_false] at hc
    rcases hc with rfl | rfl | rfl | rfl | rfl | rfl | rfl | rfl | rfl | rfl | rfl | rfl | rfl | rfl | rfl <;>
      exact congrArg Host.Outcome.next (linkWord_waits hl)
  · simp only [List.mem_cons, List.not_mem_nil, or_false] at hmem
    rcases hmem with rfl | rfl | rfl | rfl | rfl | rfl | rfl <;>
      exact congrArg Host.Outcome.next ((linkWord_at hl).trans (onFm_serves (s := at_ s t) hp h8 hs hr))
  · refine congrArg Host.Outcome.next ((linkWord_at hl).trans ((onFm_serves (s := at_ s t) hp h8 hs hr).trans (if_neg ?_)))
    rintro (h | h | h | h)
    · omega
    · omega
    · exact h rfl
    · obtain ⟨l, hcl, hl16, hset⟩ := any_enabled.1 h
      exact hfree l hcl hl16 hset
  · refine congrArg Host.Outcome.next ((linkWord_at hl).trans ((onFm_serves (s := at_ s t) hp h8 hs hr).trans (if_pos ?_)))
    exact hbad.imp_right (Or.imp_right (Or.imp_right any_enabled.2))
  · exact congrArg Host.Outcome.next ((linkWord_at hl).trans (onI3c_serves (s := at_ s t) halive))
  · exact congrArg Host.Outcome.next ((linkWord_at hl).trans (onI3c_serves (s := at_ s t) halive))
  · simp only [List.mem_cons, List.not_mem_nil, or_false] at hmem
    rcases hmem with rfl | rfl | rfl | rfl | rfl <;>
      exact congrArg Host.Outcome.next ((linkWord_at hl).trans (onI3c_serves (s := at_ s t) halive))

end Sys2Proof.Machine
end

section
/-! SUPPORT. Answers over a transport, signed ones too, and secured sessions (R22, R252, R265, R267, R455 to R460). -/

namespace Sys2Proof.Machine

-- One proof at a time: the check bounds the compiler's threads.
set_option Elab.async false

open Sys2Proof Sys2Proof.Safety

/-! ## Answers in objects (R455) -/

/-- An answer is cut into objects of at most 4,096 bytes, and stays whole where one object holds it. -/
theorem pieces_cut {n : Nat} {b : Bytes} (h : b.length ≤ n) :
    (pieces n b).flatten = b ∧ pieces n b ≠ [] ∧ (∀ p ∈ pieces n b, p.length ≤ 4096) ∧ (b.length ≤ 4096 → pieces n b = [b]) := by
  induction n generalizing b with
  | zero =>
    refine ⟨by simp [pieces], List.cons_ne_nil _ _, fun p hp => ?_, fun _ => rfl⟩
    rw [List.mem_singleton.1 hp]
    omega
  | succ n ih =>
    by_cases hs : b.length ≤ 4096
    · have hone : pieces (n + 1) b = [b] := if_pos hs
      rw [hone]
      refine ⟨by simp, List.cons_ne_nil _ _, fun p hp => ?_, fun _ => rfl⟩
      rw [List.mem_singleton.1 hp]
      exact hs
    · have hcut : pieces (n + 1) b = b.take 4096 :: pieces n (b.drop 4096) := if_neg hs
      obtain ⟨hflat, -, hlen, -⟩ := ih (b := b.drop 4096) (by rw [List.length_drop]; omega)
      rw [hcut]
      refine ⟨?_, List.cons_ne_nil _ _, fun p hp => ?_, fun h' => absurd h' hs⟩
      · rw [List.flatten_cons, hflat, List.take_append_drop]
      · rcases List.mem_cons.1 hp with rfl | hp
        · exact List.length_take_le _ _
        · exact hlen p hp

theorem answer_parts (w : State) (tr : Transport) (name : String) (body : Bytes) : ∃ parts : List Bytes, parts.flatten = body ∧ parts ≠ [] ∧
    (isMctp tr = false → ∀ p ∈ parts, p.length ≤ 4096) ∧ (body.length ≤ 4096 → parts = [body]) ∧
    answer w tr name body = { w with outbox := w.outbox ++ parts.map (.spdm tr name ·) } := by
  obtain ⟨hflat, hne, hlen, hone⟩ := pieces_cut (n := body.length) (b := body) (Nat.le_refl _)
  cases h : isMctp tr with
  | true =>
    have hobjects : answerObjects tr body = [body] := if_pos h
    refine ⟨[body], by simp, List.cons_ne_nil _ _, fun hf => absurd hf (by decide), fun _ => rfl, ?_⟩
    unfold answer
    rw [hobjects]
  | false =>
    have hobjects : answerObjects tr body = pieces body.length body := if_neg (by rw [h]; decide)
    refine ⟨pieces body.length body, hflat, hne, fun _ => hlen, hone, ?_⟩
    unfold answer
    rw [hobjects]

/-! ## Requests over a transport -/

section
variable {s serve : State} {tr : Transport} (ht : transportUp s tr = true) (h8 : 8 ≤ s.power.step) (hs : s.power.stop = .running)
include ht h8 hs

theorem transport_serves : ¬(transportUp s tr = false ∨ s.power.step < 8 ∨ s.power.stop ≠ .running) := by
  rintro (h | h | h)
  · exact absurd (ht.symm.trans h) (by decide)
  · omega
  · exact h hs

theorem onTransport_busy (hr : s.fw.replacing = some 2) (hm : isMctp tr = false) : onTransport s tr serve = answer s tr "Busy" [] := by
  unfold onTransport
  rw [if_neg (transport_serves ht h8 hs)]
  exact if_pos ⟨beq_iff_eq.2 hr, hm⟩

theorem onTransport_serves (hr : s.fw.replacing ≠ some 2 ∨ isMctp tr = true) : onTransport s tr serve = serve := by
  unfold onTransport
  rw [if_neg (transport_serves ht h8 hs)]
  refine if_neg fun ⟨hm, hd⟩ => ?_
  rcases hr with hr | hr
  · exact hr (beq_iff_eq.1 hm)
  · exact absurd (hr.symm.trans hd) (by decide)

end

/-! ## Signed answers (R252, R267) -/

section
variable {s w : State} {tr : Transport} {name : String} {body : Bytes} {andThen : State → State}

theorem signedAnswer_seeding (h : seedingInForce s = true) : signedAnswer s tr name body andThen = answer s tr "ERROR Busy" [] := if_pos h

theorem signedAnswer_rootless (h : seedingInForce s = false) (hi : identityThere s = false) :
    signedAnswer s tr name body andThen = answer s tr "ERROR Unspecified" [] := by
  unfold signedAnswer
  rw [if_neg (by rw [h]; decide)]
  exact if_pos hi

theorem signedAnswer_signed (h : seedingInForce s = false) (hi : identityThere s = true) {n : Bytes}
    (hd : controllerDraw s 56 = (some n, w)) : ∃ sig : Bytes, sig.length = 96 ∧
      signedAnswer s tr name body andThen = answer (andThen { w with free := w.free + 96 }) tr name (body ++ sig) := by
  refine ⟨(freeBytes w 96).1, by simp [freeBytes, upTo], ?_⟩
  unfold signedAnswer
  rw [if_neg (by rw [h]; decide), if_neg (by rw [hi]; decide), hd]
  rfl

end

/-- Settles O46: every answer is that of its request's branch, cut into objects by `answer`. -/
theorem spdmIdentityAnswers : Obligations.SpdmIdentityAnswers := by
  unfold Obligations.SpdmIdentityAnswers
  intro s t tr ld slot first last signed
  refine ⟨fun hl cmd hc => ?_, fun w name body => answer_parts w tr name body, fun h8 hs ht hl => ⟨fun hr hm cmd hc => ?_, fun hr => ?_⟩⟩
  · simp only [List.mem_cons, List.not_mem_nil, or_false] at hc
    rcases hc with rfl | rfl | rfl | rfl | rfl | rfl | rfl <;> exact congrArg Host.Outcome.next (linkWord_waits hl)
  · have hbusy : ∀ serve, onTransport (at_ s t) tr serve = answer (at_ s t) tr "Busy" [] := fun _ =>
      onTransport_busy (s := at_ s t) ht h8 hs hr hm
    simp only [List.mem_cons, List.not_mem_nil, or_false] at hc
    rcases hc with rfl | rfl | rfl | rfl | rfl | rfl
    · exact congrArg Host.Outcome.next ((linkWord_at hl).trans (hbusy _))
    · exact congrArg Host.Outcome.next ((linkWord_at hl).trans (hbusy _))
    · exact congrArg Host.Outcome.next ((linkWord_at hl).trans ((if_neg (by rw [hm]; decide)).trans (hbusy _)))
    · exact congrArg Host.Outcome.next ((linkWord_at hl).trans (hbusy _))
    · exact congrArg Host.Outcome.next ((linkWord_at hl).trans (hbusy _))
    · exact congrArg Host.Outcome.next ((linkWord_at hl).trans (hbusy _))
  · have hserve : ∀ serve, onTransport (at_ s t) tr serve = serve := fun _ => onTransport_serves (s := at_ s t) ht h8 hs hr
    have hword : ∀ {c : Instr} {f : State → State} {v u : State}, f (at_ s t) = onTransport (at_ s t) tr v → v = u →
        linkWord (at_ s t) c f = u := fun hf hv => (linkWord_at hl).trans (hf.trans ((hserve _).trans hv))
    refine ⟨congrArg Host.Outcome.next (hword rfl rfl), ⟨_, congrArg Host.Outcome.next (hword rfl rfl)⟩, fun hm => ?_, fun hd => ?_,
      congrArg Host.Outcome.next (hword rfl rfl), fun h0 => ?_, fun hd => ?_, fun hd hroot => ?_, fun hd hroot => ?_,
      fun v hv => ⟨fun hseed => ?_, fun hseed hid => ?_, fun n w hseed hid hdraw => ?_⟩, fun hseed => ?_, fun hseed hid => ?_,
      fun n w hseed hid hdraw => ?_⟩
    · exact congrArg Host.Outcome.next ((linkWord_at hl).trans ((if_neg (by rw [hm]; decide)).trans (hserve _)))
    · subst hd
      exact congrArg Host.Outcome.next (hword rfl rfl)
    · have hne : slot.toNat ≠ 0 := fun hz => h0 (BitVec.eq_of_toNat_eq hz)
      exact congrArg Host.Outcome.next (hword rfl (if_pos hne))
    · exact congrArg Host.Outcome.next (hword rfl (if_pos hd))
    · refine congrArg Host.Outcome.next (hword rfl ?_)
      exact (if_neg (show ¬(at_ s t).life.debug = true by rw [show (at_ s t).life.debug = false from hd]; decide)).trans
        (if_neg (show ¬(at_ s t).vault.rootAbsent = true by rw [show (at_ s t).vault.rootAbsent = false from hroot]; decide))
    · refine congrArg Host.Outcome.next (hword rfl ?_)
      exact (if_neg (show ¬(at_ s t).life.debug = true by rw [show (at_ s t).life.debug = false from hd]; decide)).trans (if_pos hroot)
    · subst hv
      exact congrArg Host.Outcome.next (hword rfl (signedAnswer_seeding (s := { at_ s t with free := s.free + 1 }) hseed))
    · subst hv
      exact congrArg Host.Outcome.next (hword rfl (signedAnswer_rootless (s := { at_ s t with free := s.free + 1 }) hseed hid))
    · subst hv
      obtain ⟨sig, hlen, hsig⟩ := signedAnswer_signed (s := { at_ s t with free := s.free + 1 }) (tr := tr) (name := "CHALLENGE_AUTH")
        (body := summaryHash (at_ s t) (Config.freeNat s.free % 2 == 1)) (andThen := id) hseed hid hdraw
      exact ⟨_, sig, Config.freeNat s.free % 2 == 1, congrArg Host.Outcome.next (hword rfl hsig), hlen, rfl⟩
    · exact congrArg Host.Outcome.next (hword rfl (signedAnswer_seeding (s := at_ s t) hseed))
    · exact congrArg Host.Outcome.next (hword rfl (signedAnswer_rootless (s := at_ s t) hseed hid))
    · obtain ⟨sig, hlen, hsig⟩ := signedAnswer_signed (s := at_ s t) (tr := tr) (name := "MEASUREMENTS")
        (body := measurements (at_ s t) first.val last.val) (andThen := id) hseed hid hdraw
      exact ⟨_, sig, congrArg Host.Outcome.next (hword rfl hsig), hlen, rfl⟩

end Sys2Proof.Machine
end

section
/-! SUPPORT. Secured sessions: their opening, heartbeats and end, and the stream keys that arrive in them (R458, R460). -/

namespace Sys2Proof.Machine

-- One proof at a time: the check bounds the compiler's threads.
set_option Elab.async false

open Sys2Proof Sys2Proof.Safety

section
variable {s : State}

theorem controllerDraw_within (n : Nat) : Within drawScope s (controllerDraw s n).2 := by
  unfold controllerDraw
  split
  · exact draw_within s _ n
  · exact .refl s

/-! ## Key exchanges -/

theorem openSession_first {x : Session} {k : Nat} (h : (upTo 8).find? (fun m => (mfind s.link.sessions m).isNone) = some k) :
    openSession s x = { s with link := { s.link with sessions := mput s.link.sessions k x } } := by
  unfold openSession
  rw [h]

variable {tr : Transport} {key : ReqKey}

theorem exchangeKeys_full (h : 8 ≤ s.link.sessions.length) : exchangeKeys s tr key = answer s tr "ERROR Busy" [] := if_pos h

variable (h : s.link.sessions.length < 8)
include h

theorem exchangeKeys_refused (hr : requesterRole s key = none) : exchangeKeys s tr key = answer s tr "ERROR InvalidRequest" [] := by
  unfold exchangeKeys
  rw [if_neg (Nat.not_le.2 h), hr]

theorem exchangeKeys_opens {role opener : Nat} (hr : requesterRole s key = some (role, opener)) (hseed : seedingInForce s = false)
    (hid : identityThere s = true) {r : Bytes} {w : State} (hd : controllerDraw s 56 = (some r, w)) {k : Nat}
    (hk : (upTo 8).find? (fun m => (mfind s.link.sessions m).isNone) = some k) : ∃ sig : Bytes, sig.length = 96 ∧
      exchangeKeys s tr key = answer { w with
        free := w.free + 96
        link := { w.link with sessions := mput s.link.sessions k { role := role, tr := tr, opener := opener, beat := s.now } } }
        tr "KEY_EXCHANGE_RSP" sig := by
  obtain ⟨sig, hlen, hsig⟩ := signedAnswer_signed (tr := tr) (name := "KEY_EXCHANGE_RSP") (body := [])
    (andThen := fun s => openSession s { role := role, tr := tr, opener := opener, beat := s.now }) hseed hid hd
  have hw : Within drawScope s w := by
    have hall := controllerDraw_within (s := s) 56
    rw [hd] at hall
    exact hall
  have hsessions : w.link.sessions = s.link.sessions := hw.same (·.link.sessions)
  have hnow : w.now = s.now := hw.same (·.now)
  refine ⟨sig, hlen, ?_⟩
  unfold exchangeKeys
  rw [if_neg (Nat.not_le.2 h), hr]
  refine hsig.trans ?_
  rw [openSession_first (s := { w with free := w.free + 96 }) (k := k) (by rw [show ({ w with free := w.free + 96 } : State).link.sessions = _ from hsessions]; exact hk)]
  dsimp only
  rw [hsessions, hnow, List.nil_append]

end

/-! ## Open sessions -/

section
variable {s : State} {n : Nat} {x : Session} (hx : mfind s.link.sessions n = some x)

include hx in
theorem inSession_open {serve : Session → State} : inSession s n serve = onTransport s x.tr (serve x) := by
  unfold inSession
  rw [hx]

/-- What a map reads as once entries have gone. -/
theorem mfind_filter {β : Type} (m : Map β) (p : Nat → Bool) (k : Nat) : mfind (m.filter (fun e => p e.1)) k = if p k then mfind m k else none := by
  induction m with
  | nil => simp [mfind]
  | cons e m ih =>
    obtain ⟨k', v⟩ := e
    rw [List.filter_cons]
    by_cases hk : k' = k
    · subst hk
      by_cases hp : p k' = true
      · rw [if_pos hp, if_pos hp, mfind, if_pos rfl, mfind, if_pos rfl]
      · rw [if_neg hp, ih, if_neg hp, if_neg hp]
    · by_cases hp : p k' = true
      · rw [if_pos hp, mfind, if_neg hk, ih, mfind, if_neg hk]
      · rw [if_neg hp, ih, mfind, if_neg hk]

/-- The session alone ends; of the joints that it opened the path changes, and nothing else. -/
theorem endSessionNo_ends : mfind (endSessionNo s n).link.sessions n = none ∧
    (∀ m, m ≠ n → mfind (endSessionNo s n).link.sessions m = mfind s.link.sessions m) ∧
    (∀ j, getJoint (endSessionNo s n) j = { getJoint s j with path := (getJoint (endSessionNo s n) j).path }) ∧
    endSessionNo s n = { s with
      link := { s.link with sessions := (endSessionNo s n).link.sessions }, ctl := { s.ctl with joints := (endSessionNo s n).ctl.joints } } := by
  have hread := fun m => mfind_filter s.link.sessions (fun k => !(k == n)) m
  refine ⟨(hread n).trans (if_neg (by simp)), fun m hm => (hread m).trans (if_pos (by simpa using hm)), fun j => ?_, rfl⟩
  unfold endSessionNo endSessions getJoint
  dsimp only
  generalize ((s.link.sessions.filter (fun e => e.1 == n)).map (·.1)) = gone
  induction s.ctl.joints with
  | nil => rfl
  | cons e js ih =>
    rw [List.map_cons, mget, mget]
    split
    · split <;> rfl
    · exact ih

variable {h : Nat} {mem : Bool} {key : Bytes}

theorem heartbeatLost_late (hx : mfind s.link.sessions n = some x) (ht : x.beat + 60 * 10 ^ 9 ≤ s.now) : heartbeatLost s n = endSessionNo s n := by
  unfold heartbeatLost
  rw [hx]
  exact if_pos ht

theorem heartbeatLost_early (hx : mfind s.link.sessions n = some x) (ht : s.now < x.beat + 60 * 10 ^ 9) : heartbeatLost s n = s := by
  unfold heartbeatLost
  rw [hx]
  exact if_neg (Nat.not_le.2 ht)

end

/-- An answer without a body is one object. -/
theorem answer_empty (w : State) (tr : Transport) (name : String) : answer w tr name [] = { w with outbox := w.outbox ++ [.spdm tr name []] } := by
  obtain ⟨parts, -, -, -, hone, hanswer⟩ := answer_parts w tr name []
  rw [hanswer, hone (Nat.zero_le _)]
  rfl

/-- Settles O47: a request of a session is served over its transport, and one lemma says what each leaves. -/
theorem sessionsOpenAndEnd : Obligations.SessionsOpenAndEnd := by
  unfold Obligations.SessionsOpenAndEnd
  intro s t tr key n x h mem0 k0
  refine ⟨fun hl cmd hc => ?_, fun h8 hs hr hl => ⟨fun ht hfull => ?_, fun ht hroom hrole => ?_,
    fun role opener r w k ht hroom hrole hseed hid hdraw hk => ?_, fun hx => ⟨fun ht => ⟨?_, ?_, fun mem bytes => ?_⟩, fun hlate => ?_, fun hearly => ?_⟩⟩⟩
  · simp only [List.mem_cons, List.not_mem_nil, or_false] at hc
    rcases hc with rfl | rfl | rfl | rfl <;> exact congrArg Host.Outcome.next (linkWord_waits hl)
  all_goals
    have hserve : ∀ {tr : Transport}, transportUp s tr = true → ∀ serve, onTransport (at_ s t) tr serve = serve := fun ht _ =>
      onTransport_serves (s := at_ s t) ht h8 hs (.inl hr)
  · exact congrArg Host.Outcome.next ((linkWord_at hl).trans ((hserve ht _).trans (exchangeKeys_full (s := at_ s t) hfull)))
  · exact congrArg Host.Outcome.next ((linkWord_at hl).trans ((hserve ht _).trans (exchangeKeys_refused (s := at_ s t) hroom hrole)))
  · obtain ⟨sig, hlen, hkeys⟩ := exchangeKeys_opens (s := at_ s t) (tr := tr) hroom hrole hseed hid hdraw hk
    exact ⟨_, sig, congrArg Host.Outcome.next ((linkWord_at hl).trans ((hserve ht _).trans hkeys)), hlen, rfl⟩
  · exact congrArg Host.Outcome.next ((linkWord_at hl).trans ((inSession_open (s := at_ s t) hx).trans (hserve ht _)))
  · obtain ⟨hgone, hother, hjoints, hframe⟩ := endSessionNo_ends (s := at_ s t) (n := n.toNat)
    have hexec : exec (.endSession t n) s = .next (answer (endSessionNo (at_ s t) n.toNat) x.tr "END_SESSION_ACK" []) :=
      congrArg Host.Outcome.next ((linkWord_at hl).trans ((inSession_open (s := at_ s t) hx).trans (hserve ht _)))
    rw [answer_empty] at hexec
    refine ⟨_, hexec, hgone, hother, ?_, hjoints, ?_⟩
    · exact congrArg (·.outbox ++ [_]) hframe
    · generalize endSessionNo (at_ s t) n.toNat = w at *
      rw [hframe]
      rfl
  · have hexec : exec (.ideKeyProgram t h mem n bytes) s =
        .next (answer (modHead (at_ s t) h.val (fun y => if mem then { y with ideMem := some bytes } else { y with ideIo := some bytes }))
          x.tr "KP_ACK" []) :=
      congrArg Host.Outcome.next ((linkWord_at hl).trans ((inSession_open (s := at_ s t) hx).trans (hserve ht _)))
    rw [answer_empty] at hexec
    exact ⟨_, hexec, getHead_modHead_same _ _ _, fun k hk => getHead_modHead_other _ _ _ _ hk, rfl, rfl⟩
  · obtain ⟨hgone, hother, -, hframe⟩ := endSessionNo_ends (s := at_ s t) (n := n.toNat)
    refine ⟨_, congrArg Host.Outcome.next (heartbeatLost_late (s := at_ s t) hx hlate), hgone, hother, ?_⟩
    exact congrArg (·.outbox) hframe
  · exact congrArg Host.Outcome.next (heartbeatLost_early (s := at_ s t) hx hearly)

end Sys2Proof.Machine
end

section
/-! SUPPORT. Function level resets of an LD (R309, R449). -/

namespace Sys2Proof.Machine

-- One proof at a time: the check bounds the compiler's threads.
set_option Elab.async false

open Sys2Proof Sys2Proof.Safety

/-! ## A reset record of an instance that is in service -/

/-- A machine with main power and one instance: it is ACTIVE, bound to LD 0, and keeps the record of a squash. -/
def recordedState : State := { State.reset with
  power := { State.reset.power with pwrGood := true }
  ctl := { State.reset.ctl with cfg := { State.reset.ctl.cfg with vals := [(odKey 0x8000 0x02, 0)] } }
  insts := [(0, { st := 1, reset := some { squash := true, arr := 0, deadline := 0, didSquash := true, toFrozen := false } })] }

/-- The state of an instance after an answer. -/
def instAfter (r : Result) (i : Nat) : Nat := match r with
  | .next u => (getInst u i).st
  | _ => 6

theorem recordedState_stands : instAfter (exec (.ldFunctionLevelReset 0 0) recordedState) 0 = 1 := by decide

/-- Refutes O43: the statement takes every state, and a request that meets the record of a squash begins no reset, whatever
InstanceState says (R311). Instance 0 of LD 0 is ACTIVE here with such a record left in it, which the invariant of O2 does not exclude;
the function level reset of its LD leaves it ACTIVE, not RESETTING. -/
theorem not_headsResetAndTrain : ¬ Obligations.HeadsResetAndTrain := by
  unfold Obligations.HeadsResetAndTrain
  intro h
  obtain ⟨⟨u, hu, hresets, -⟩, -⟩ := h recordedState 0 0 0 rfl
  have hresetting : (getInst u 0).st = 2 := hresets 0 (by decide) (by decide) (by decide)
  have hactive : instAfter (.next u) 0 = 1 := hu ▸ recordedState_stands
  exact absurd (hresetting.symm.trans hactive) (by decide)

end Sys2Proof.Machine
end

section
/-! SUPPORT. The access-control unit: the end of a switch, the debug master, accesses without a binding (R300, R422 to R430, R446). -/

namespace Sys2Proof.Machine

-- One proof at a time: the check bounds the compiler's threads.
set_option Elab.async false

open Sys2Proof Sys2Proof.Safety

/-! ## The end of a switch of the rules (R427, R428) -/

section
variable (s : State)

theorem prepareRules_shadow (j : Joint) : prepareRules s j = { s with acu := { s.acu with shadow := (prepareRules s j).acu.shadow } } := by
  unfold prepareRules
  dsimp only
  split <;> rfl

theorem commitReplies_sent (waiting : List (KHdr × Nat × Nat)) :
    each waiting s (fun s w => kReply s w.1 0x15 0 (Bytes.ofNatLE 8 w.2.1 ++ Bytes.ofNatLE 8 w.2.2)) =
      { s with outbox := s.outbox ++ waiting.map (fun w => .kallek w.1 0x15 0 (Bytes.ofNatLE 8 w.2.1 ++ Bytes.ofNatLE 8 w.2.2)) } := by
  induction waiting generalizing s with
  | nil => simp [each]
  | cons w ws ih =>
    refine (ih (kReply s w.1 0x15 0 (Bytes.ofNatLE 8 w.2.1 ++ Bytes.ofNatLE 8 w.2.2))).trans ?_
    simp [kReply, emit]

theorem drainEnds_stands (h : s.acu.drain = false ∨ oldAccess s = true) : drainEnds s = s := if_pos h

theorem drainEnds_ends (hd : s.acu.drain = true) (ho : oldAccess s = false) :
    drainEnds s = { s with
      acu := { s.acu with drain := false, shadow := (drainEnds s).acu.shadow, waiting := [] }
      outbox := s.outbox ++ s.acu.waiting.map (fun w => .kallek w.1 0x15 0 (Bytes.ofNatLE 8 w.2.1 ++ Bytes.ofNatLE 8 w.2.2)) } ∧
    (s.ctl.commits = [] → (drainEnds s).acu.shadow = s.acu.active) := by
  unfold drainEnds
  rw [if_neg (by rw [hd, ho]; decide)]
  dsimp only
  rw [commitReplies_sent]
  split
  next slot rest hc =>
    rw [prepareRules_shadow]
    exact ⟨rfl, fun h => absurd (hc.symm.trans h) (by simp)⟩
  next => exact ⟨rfl, fun _ => rfl⟩

end

/-! ## Bytes of a program memory -/

section
variable (s : State) (n off : Nat)

/-- A run of bytes written at successive places. -/
theorem mfind_writeRun (d : Bytes) (m : Map Byte) (j a : Nat) :
    mfind ((d.zipIdx j).foldl (fun o e => mput o (off + e.2) e.1) m) a =
      if off + j ≤ a ∧ a < off + j + d.length then some (Bytes.at' d (a - off - j)) else mfind m a := by
  induction d generalizing m j with
  | nil => rw [if_neg (by simp)]; rfl
  | cons b d ih =>
    rw [List.zipIdx_cons, List.foldl_cons, ih, List.length_cons]
    by_cases ha : a = off + j
    · subst ha
      rw [if_neg (by omega), mfind_mput_same, if_pos (by omega), Nat.add_sub_cancel_left, Nat.sub_self]
      rfl
    · rw [mfind_mput_other _ _ _ _ ha]
      by_cases hin : off + (j + 1) ≤ a ∧ a < off + (j + 1) + d.length
      · rw [if_pos hin, if_pos (by omega), show a - off - j = (a - off - (j + 1)) + 1 by omega]
        rfl
      · rw [if_neg hin, if_neg (by omega)]

theorem storeRead_written {v : State} {a : Nat} {b : Byte} (h : mfind (mget {} v.stores n).written a = some b) : storeRead v n a = b := by
  have hread : storeRead v n a = (mfind (mget {} v.stores n).written a).getD
      (if isMicrocode n then Config.areaByte (mget {} v.stores n).id a else Config.storeByte (mget {} v.stores n).id a v.now) := rfl
  rw [hread, h]
  rfl

theorem storeWrite_writes (len : Nat) : ∃ d : Bytes, d.length = len ∧
    storeWrite s n off len = { s with free := (storeWrite s n off len).free, stores := (storeWrite s n off len).stores } ∧
    (∀ k, k ≠ n → mget {} (storeWrite s n off len).stores k = mget {} s.stores k) ∧
    (∀ v : State, v.stores = (storeWrite s n off len).stores → ∀ k, k < len → storeRead v n (off + k) = Bytes.at' d k) ∧
    (∀ a, a < off ∨ off + len ≤ a → storeRead (storeWrite s n off len) n a = storeRead s n a) := by
  have hlen : (freeBytes s len).1.length = len := by simp [freeBytes, upTo]
  have hput : (storeWrite s n off len).stores = mput s.stores n { mget {} s.stores n with
      written := ((freeBytes s len).1.zipIdx).foldl (fun o e => mput o (off + e.2) e.1) (mget {} s.stores n).written } := rfl
  refine ⟨(freeBytes s len).1, hlen, rfl, fun k hk => mget_mput_other _ _ _ _ _ hk, fun v hv k hk => storeRead_written n ?_, fun a ha => ?_⟩
  · rw [hv, hput, mget_mput_same]
    refine (mfind_writeRun off _ _ 0 _).trans ?_
    rw [if_pos (by omega), Nat.add_sub_cancel_left, Nat.sub_zero]
  · have hout : mfind (((freeBytes s len).1.zipIdx).foldl (fun o e => mput o (off + e.2) e.1) (mget {} s.stores n).written) a =
        mfind (mget {} s.stores n).written a := (mfind_writeRun off _ _ 0 _).trans (if_neg (by omega))
    unfold storeRead
    rw [hput, mget_mput_same]
    dsimp only
    rw [hout]
    rfl

end

/-! ## The debug master (R429, R430) -/

section
variable (s : State) (addr : Nat)

/-- A permitted read gives one byte for each address, and draws only free values. -/
theorem debugData_reads (n : Nat) : (debugData addr n s).1.length = n ∧
    (debugData addr n s).2 = { s with free := (debugData addr n s).2.free } := by
  induction n generalizing s addr with
  | zero => exact ⟨rfl, rfl⟩
  | succ n ih =>
    unfold debugData
    dsimp only
    split
    next => exact ⟨congrArg (· + 1) (ih s (addr + 1)).1, (ih s (addr + 1)).2⟩
    next => exact ⟨congrArg (· + 1) (ih _ (addr + 1)).1, (ih { s with free := s.free + 1 } (addr + 1)).2⟩

theorem debugPart_denied {isRead : Bool} {r : Nat} (h : debugDenied s isRead addr = some r) (len : Nat) :
    debugPart s isRead addr len = (List.replicate len 0x5A, true, violation s r debugMaster len addr isRead) := by
  unfold debugPart
  rw [h]

theorem debugPart_read (h : debugDenied s true addr = none) (len : Nat) :
    debugPart s true addr len = ((debugData addr len s).1, false, (debugData addr len s).2) := by
  unfold debugPart
  rw [h]
  rfl

theorem debugPart_written (h : debugDenied s false addr = none) {n off : Nat} (hs : storeAt addr = some (n, off)) (len : Nat) :
    debugPart s false addr len = ([], false, storeWrite s n off len) := by
  unfold debugPart
  rw [h]
  dsimp only
  rw [hs]
  rfl

theorem debugPart_dropped (h : debugDenied s false addr = none) (hs : storeAt addr = none) (len : Nat) :
    debugPart s false addr len = ([], false, s) := by
  unfold debugPart
  rw [h]
  dsimp only
  rw [hs]
  rfl

/-- An access through an open TAP within one page is one part. -/
theorem debugAccess_page (c : Instr) (isRead : Bool) {len : Nat} (ht : tapOpen s = true) (h0 : len ≠ 0) (h1 : len ≤ 1024)
    (hrun : portRuns s = true) (hpage : addr % 4096 + len ≤ 4096) {d : Bytes} {x : Bool} {u : State}
    (hp : debugPart s isRead addr len = (d, x, u)) : debugAccess s c isRead addr len =
      if isRead then { u with acu := { u.acu with tapDenied := x }, outbox := u.outbox ++ [.debugRead addr d x] } else u := by
  have hwhole : min len (4096 - addr % 4096) = len := by omega
  unfold debugAccess
  rw [if_neg (not_or.2 ⟨ne_false_of_eq_true ht, by omega⟩), if_neg (by rw [hrun]; decide)]
  dsimp only
  rw [hwhole, hp, if_neg (Nat.lt_irrefl _), List.append_nil, Bool.or_false]
  rfl

theorem debugAccess_none (c : Instr) (isRead : Bool) {len : Nat} (h : tapOpen s = false ∨ len = 0 ∨ 1024 < len) :
    debugAccess s c isRead addr len = s := if_pos h

theorem debugAccess_waits (c : Instr) (isRead : Bool) {len : Nat} (ht : tapOpen s = true) (h0 : len ≠ 0) (h1 : len ≤ 1024)
    (hrun : portRuns s = false) : debugAccess s c isRead addr len = stall s c := by
  unfold debugAccess
  rw [if_neg (not_or.2 ⟨ne_false_of_eq_true ht, by omega⟩), if_pos hrun]

/-- The capture of a violation holds the first one (R425). -/
theorem violation_cap (rule master len : Nat) (isRead : Bool) :
    (s.acu.cap = none → (violation s rule master len addr isRead).acu.cap =
      some { rule := rule, isRead := isRead, master := master, len := len, addr := addr, epoch := s.acu.epoch }) ∧
    (s.acu.cap ≠ none → (violation s rule master len addr isRead).acu.cap = s.acu.cap) := by
  unfold violation
  dsimp only
  rw [record_evr]
  refine ⟨fun h => ?_, fun h => ?_⟩
  · rw [h]
  · obtain ⟨c, hc⟩ := Option.ne_none_iff_exists'.1 h
    rw [hc]

end

/-! ## Accesses without a binding (R300, R422, R446) -/

section
variable {s : State} {ld : Nat}

theorem unboundAccess_waits (c : Instr) (dpa : Nat) (isRead : Bool) (tag : Nat) (hrun : portRuns s = false) :
    unboundAccess s c ld dpa isRead tag = stall s c := if_pos hrun

variable (hrun : portRuns s = true)
include hrun

theorem unboundAccess_off (c : Instr) (dpa : Nat) (isRead : Bool) (tag : Nat) (hup : headUp s (ld / 16) = false) :
    unboundAccess s c ld dpa isRead tag = s := by
  unfold unboundAccess
  rw [if_neg (ne_false_of_eq_true hrun), if_pos hup]

variable (hup : headUp s (ld / 16) = true)
include hup

theorem unboundAccess_early (c : Instr) (dpa : Nat) (isRead : Bool) (tag : Nat) (hserv : serving s = false) :
    unboundAccess s c ld dpa isRead tag = if isRead then answerPoison s ld tag else answerDone s ld tag := by
  unfold unboundAccess
  rw [if_neg (ne_false_of_eq_true hrun), if_neg (ne_false_of_eq_true hup), if_pos hserv]

variable (hserv : serving s = true)
include hserv

theorem unboundAccess_bound (c : Instr) (dpa : Nat) (isRead : Bool) (tag : Nat)
    (hb : (assignedIn s.ctl.cfg).any (fun i => instLd s.ctl.cfg i == ld && instArea s.ctl.cfg i == dpa / 0x80000) = true) :
    unboundAccess s c ld dpa isRead tag = s := by
  unfold unboundAccess
  rw [if_neg (ne_false_of_eq_true hrun), if_neg (ne_false_of_eq_true hup), if_neg (ne_false_of_eq_true hserv), if_pos hb]

theorem unboundAccess_denied (c : Instr) (dpa : Nat) (isRead : Bool) (tag : Nat)
    (hb : (assignedIn s.ctl.cfg).any (fun i => instLd s.ctl.cfg i == ld && instArea s.ctl.cfg i == dpa / 0x80000) = false)
    (hdec : decoded s ld = true) :
    unboundAccess s c ld dpa isRead tag = deny s (if ideLacking s ld then 0x100 else 0x103) ld (dpa / 64 * 64) isRead tag := by
  unfold unboundAccess
  rw [if_neg (ne_false_of_eq_true hrun), if_neg (ne_false_of_eq_true hup), if_neg (ne_false_of_eq_true hserv),
    if_neg (ne_true_of_eq_false hb), if_neg (ne_false_of_eq_true hdec)]

end

/-- What answers a denied access of an LD. -/
theorem deny_answers (s : State) (rule ld addr : Nat) (isRead : Bool) (tag : Nat) :
    (deny s rule ld addr isRead tag).acu.count = min 0xFFFFFFFF (s.acu.count + 1) ∧
    (s.acu.cap = none → (deny s rule ld addr isRead tag).acu.cap =
      some { rule := rule, isRead := isRead, master := ld, len := 64, addr := addr, epoch := s.acu.epoch }) ∧
    (deny s rule ld addr isRead tag).outbox = s.outbox ++ [if isRead then .poison ld tag (loadOf s ld) else .done ld tag (loadOf s ld)] ∧
    (deny s rule ld addr isRead tag).insts = s.insts := by
  have hacu : (if isRead then answerPoison s ld tag else answerDone s ld tag) = { s with
      outbox := s.outbox ++ [if isRead then .poison ld tag (loadOf s ld) else .done ld tag (loadOf s ld)] } := by
    cases isRead <;> rfl
  unfold deny
  rw [hacu]
  generalize hv : { s with
      outbox := s.outbox ++ [if isRead then Out.poison ld tag (loadOf s ld) else .done ld tag (loadOf s ld)] } = v
  have hw := violation_within (s := v) rule ld 64 addr isRead
  have hcap := (violation_cap v addr rule ld 64 isRead).1
  have hcount := (violation_acu v rule ld 64 addr isRead).2
  subst hv
  exact ⟨hcount, hcap, hw.same (·.outbox), hw.same (·.insts)⟩

/-- Settles O60: each command by the lemmas above, for its parts. -/
theorem accessControlActs : Obligations.AccessControlActs := by
  unfold Obligations.AccessControlActs
  intro s t addr len ld dpa isRead tag
  refine ⟨fun hd ho => ?_, fun h => congrArg Host.Outcome.next (drainEnds_stands (at_ s t) h), fun h => ?_, fun ht h0 h1 => ⟨fun hr => ?_,
    fun hr hpage => ⟨fun r hden => ?_, fun hfree => ?_, fun r hden => ?_, fun hfree => ⟨fun hs => ?_, fun n off hs => ?_⟩⟩⟩,
    fun hr => congrArg Host.Outcome.next (unboundAccess_waits (s := at_ s t) _ _ _ _ hr),
    fun hr hu => congrArg Host.Outcome.next (unboundAccess_off (s := at_ s t) hr _ _ _ _ hu), fun hr hu load bd hload hbd => ?_⟩
  · exact ⟨_, rfl, drainEnds_ends (at_ s t) hd ho⟩
  · refine congrArg Host.Outcome.next (debugAccess_none (at_ s t) _ _ _ ?_)
    exact h.imp id (Or.imp (fun h => by rw [h]; rfl) id)
  all_goals try have hne : len.toNat ≠ 0 := fun h => h0 (BitVec.eq_of_toNat_eq h)
  · exact congrArg Host.Outcome.next (debugAccess_waits (at_ s t) _ _ _ ht hne h1 hr)
  · have hpart := debugAccess_page (at_ s t) addr.toNat (.debugAccess t true addr len) true ht hne h1 hr hpage
      (debugPart_denied (at_ s t) _ hden len.toNat)
    have hw := violation_within (s := at_ s t) r debugMaster len.toNat addr.toNat true
    refine ⟨_, congrArg Host.Outcome.next hpart, ?_, ?_, rfl, ?_⟩
    · exact congrArg (· ++ _) (hw.same (·.outbox))
    · exact (violation_acu (at_ s t) r debugMaster len.toNat addr.toNat true).2
    · exact violation_cap (at_ s t) addr.toNat r debugMaster len.toNat true
  · obtain ⟨hlen, hst⟩ := debugData_reads (at_ s t) addr.toNat len.toNat
    refine ⟨_, _, congrArg Host.Outcome.next (debugAccess_page (at_ s t) addr.toNat (.debugAccess t true addr len) true ht hne h1 hr hpage
      (debugPart_read (at_ s t) _ hfree len.toNat)), hlen, ?_⟩
    rw [hst]
    rfl
  · have hw := violation_within (s := at_ s t) r debugMaster len.toNat addr.toNat false
    exact ⟨_, congrArg Host.Outcome.next (debugAccess_page (at_ s t) addr.toNat (.debugAccess t false addr len) false ht hne h1 hr hpage
      (debugPart_denied (at_ s t) _ hden len.toNat)), (violation_acu (at_ s t) r debugMaster len.toNat addr.toNat false).2,
      hw.same (·.outbox), hw.same (·.stores), hw.same (·.insts)⟩
  · exact congrArg Host.Outcome.next (debugAccess_page (at_ s t) addr.toNat (.debugAccess t false addr len) false ht hne h1 hr hpage
      (debugPart_dropped (at_ s t) _ hfree hs len.toNat))
  · obtain ⟨d, hlen, hframe, hother, hread, hout⟩ := storeWrite_writes (at_ s t) n off len.toNat
    exact ⟨_, d, congrArg Host.Outcome.next (debugAccess_page (at_ s t) addr.toNat (.debugAccess t false addr len) false ht hne h1 hr hpage
      (debugPart_written (at_ s t) _ hfree hs len.toNat)), hframe, hother, hlen, hread, hout⟩
  · subst hload hbd
    refine ⟨fun hs => ?_, fun hs hb => ?_, fun hs hb hdec => ?_, fun hs hb hdec => ?_⟩
    · refine congrArg Host.Outcome.next ((unboundAccess_early (s := at_ s t) hr hu _ _ _ _ hs).trans ?_)
      cases isRead <;> rfl
    · exact congrArg Host.Outcome.next (unboundAccess_bound (s := at_ s t) hr hu hs _ _ _ _ hb)
    · refine congrArg Host.Outcome.next ((unboundAccess_undecoded (s := at_ s t) hr hu hs hdec hb _ _ _).trans ?_)
      cases isRead <;> rfl
    · exact ⟨_, congrArg Host.Outcome.next (unboundAccess_denied (s := at_ s t) hr hu hs _ _ _ _ hb hdec), deny_answers ..⟩

end Sys2Proof.Machine
end

section
/-! SUPPORT. Migration: offers and the blobs of saves (R316 to R319). -/

namespace Sys2Proof.Machine

-- One proof at a time: the check bounds the compiler's threads.
set_option Elab.async false

open Sys2Proof Sys2Proof.Safety

section
variable {s : State}

/-- The state with which an answer comes, by the answer's name. -/
theorem Within.answer {α : Type} {F : Scope} {p : α × State} {a : α} {w : State} (hw : Within F s p.2) (h : p = (a, w)) : Within F s w := by
  subst h
  exact hw

theorem controllerDraws_within (ns : List Nat) : Within drawScope s (controllerDraws ns s).2 := by
  induction ns generalizing s with
  | nil => exact .refl s
  | cons n ns ih =>
    have hdraw := controllerDraw_within (s := s) n
    unfold controllerDraws
    split
    next w h => exact hdraw.answer h
    next r w h =>
      have hw : Within drawScope s w := hdraw.answer h
      have hrest := hw.trans (ih (s := w))
      split
      next rs v hv => exact hrest.answer hv
      next v hv => exact hrest.answer hv

theorem getInst_of_draws {ns : List Nat} {rs : Option (List Bytes)} {w : State} (h : controllerDraws ns s = (rs, w)) (j : Nat) :
    getInst w j = getInst s j := by
  have hw : Within drawScope s w := (controllerDraws_within ns).answer h
  exact getInst_of_insts (hw.same (·.insts)) j

/-! ## Offers (R316) -/

section
variable {j : Nat} {o : Offer} (ho : (getInst s j).offer = some o)
include ho

theorem offerExpires_late (h : o.bornT + 600 * 10 ^ 9 ≤ s.now) :
    offerExpires s j = setInst s j { getInst s j with offer := none } := by
  unfold offerExpires
  rw [ho]
  exact if_pos h

theorem offerExpires_early (h : s.now < o.bornT + 600 * 10 ^ 9) : offerExpires s j = s := by
  unfold offerExpires
  rw [ho]
  exact if_neg (Nat.not_le.2 h)

variable (hr : o.ready = false) (hid : s.keys.identity ≠ none) {w : State}
include hr hid

theorem offerReady_drawn {id e d z n ek dk : Bytes} (hd : controllerDraws [16, 56, 32, 32, 56] s = (some [id, e, d, z, n], w))
    (hk : Lattice.kemKeyGen Lattice.kem1024 d z = (ek, dk)) {body : Bytes}
    (hb : body = offerBody j id (identityDigest w) (publicOfScalar (Curve.drawnNonce Curve.p384 e)) ek) :
    offerReady s j = setInst w j { getInst s j with offer := some { o with
      ready := true, bytes := body ++ identitySign w n body, offerId := id
      ecdh := Bytes.ofNatBE 48 (Curve.drawnNonce Curve.p384 e), kem := dk } } := by
  unfold offerReady
  rw [ho]
  dsimp only
  rw [if_neg (by rw [hr]; simp [hid]), hd]
  dsimp only
  rw [hk, hb, ← getInst_of_draws hd j]
  rfl

theorem offerReady_waits (hd : controllerDraws [16, 56, 32, 32, 56] s = (none, w)) : offerReady s j = w := by
  unfold offerReady
  rw [ho]
  dsimp only
  rw [if_neg (by rw [hr]; simp [hid]), hd]

end

/-! ## Blobs (R318, R319) -/

section
variable {i : Nat} {req payload : Bytes} (hq : (getInst s i).saveReq = some req) (hp : (getInst s i).blob = some payload)
  (h5 : (getInst s i).st = 5) (hb : (getInst s i).blobReady = false) {w : State}
include hq hp h5 hb

theorem blobReady_waits (hd : controllerDraws [56, 32, 12, 56] s = (none, w)) : blobReady s i = w := by
  unfold blobReady
  dsimp only
  rw [hq, hp]
  dsimp only
  rw [if_neg (by rw [h5, hb]; simp), hd]

theorem blobReady_sealed {e m n2 n z2 ct k head c body : Bytes} (hd : controllerDraws [56, 32, 12, 56] s = (some [e, m, n2, n], w))
    (hz : Lattice.kemEncaps Lattice.kem1024 (Bytes.slice (offerOf req) 0xA8 1568) m = (z2, ct))
    (hk : k = migrationKey ((agree384 (Curve.drawnNonce Curve.p384 e) (Bytes.slice (offerOf req) 0x48 96)).getD (Bytes.zeros 48)) z2
      (Bytes.slice (offerOf req) 0x10 16) (identityDigest w) (Bytes.slice (offerOf req) 0x20 32))
    (hh : head = blobHeader (0x710 + payload.length + 96) i (instTenant s.ctl.cfg i) (saveHandles req).length
      (Bytes.slice (offerOf req) 0x10 16) (identityDigest w) (Bytes.slice (offerOf req) 0x20 32) (getInst s i).saveEpoch
      (publicOfScalar (Curve.drawnNonce Curve.p384 e)) ct n2)
    (hc : c = Modes.gcmCrypt (Modes.aes k) n2 payload) (hbody : body = head ++ c ++ Modes.gcmTag (Modes.aes k) n2 head c) :
    blobReady s i = setInst w i { getInst s i with blobReady := true, blob := some (body ++ identitySign w n body) } := by
  have hdraws : Within drawScope s w := (controllerDraws_within [56, 32, 12, 56]).answer hd
  have hcfg : w.ctl.cfg = s.ctl.cfg := hdraws.same (·.ctl.cfg)
  rw [← getInst_of_draws hd i] at hh ⊢
  refine Eq.trans (b := modInst w i (fun x => { x with blobReady := true, blob := some (body ++ identitySign w n body) })) ?_ rfl
  rw [getInst_of_draws hd i] at hh
  unfold blobReady
  dsimp only
  rw [hq, hp]
  dsimp only
  rw [if_neg (by rw [h5, hb]; simp), hd]
  dsimp only
  rw [hz]
  dsimp only
  rw [hcfg, ← hk, ← hh, ← hc, ← hbody]

end

end

/-- Settles O42: each event runs with the clock of the control island, and draws change no instance. -/
theorem migrationOffersAndBlobs : Obligations.MigrationOffersAndBlobs := by
  unfold Obligations.MigrationOffersAndBlobs
  intro s t i x hx hrun
  subst hx
  have hrunAt : ∀ f : State → State, clocked (at_ s t) [islControl] f = f (at_ s t) := fun f => clocked_one hrun
  refine ⟨fun o ho => ⟨fun h => congrArg Host.Outcome.next ?_, fun h => congrArg Host.Outcome.next ?_, fun hr hid =>
      ⟨fun id e d z n ek dk w body hd hk hb => congrArg Host.Outcome.next ?_, fun w hd => congrArg Host.Outcome.next ?_⟩⟩,
    fun req payload hq hp h5 hb => ⟨fun e m n2 n w z2 ct k head c body hd hz hk hh hc hbody => congrArg Host.Outcome.next ?_,
      fun w hd => congrArg Host.Outcome.next ?_⟩⟩
  · exact (hrunAt _).trans (offerExpires_late (s := at_ s t) ho h)
  · exact (hrunAt _).trans (offerExpires_early (s := at_ s t) ho h)
  · exact (hrunAt _).trans (offerReady_drawn (s := at_ s t) ho hr hid hd hk.symm hb)
  · exact (hrunAt _).trans (offerReady_waits (s := at_ s t) ho hr hid hd)
  · exact (hrunAt _).trans (blobReady_sealed (s := at_ s t) hq hp h5 hb hd hz.symm hk hh hc hbody)
  · exact (hrunAt _).trans (blobReady_waits (s := at_ s t) hq hp h5 hb hd)

end Sys2Proof.Machine
end

section
/-! SUPPORT. The joint family: opening, reads, staging and statements (R328 to R337, R355). -/

namespace Sys2Proof.Machine

-- One proof at a time: the check bounds the compiler's threads.
set_option Elab.async false

open Sys2Proof Sys2Proof.Safety

/-! ## A message of the joint family (R332, R355) -/

section
variable {s : State} {h : KHdr} {role inst : Nat} (hg : gate s h = .go role inst) {op : Nat} {serve : Nat → Nat → State}
include hg

theorem jointMsg_ready (hp : s.power.shutdown = 2) : jointMsg s h op serve = emit s (.kallek h op 0x0104 []) :=
  (kallek_serves hg).trans (if_pos hp)

theorem jointMsg_serves (hp : s.power.shutdown ≠ 2) : jointMsg s h op serve = serve role inst :=
  (kallek_serves hg).trans (if_neg hp)

end

/-! ## The joint that a message reaches -/

theorem getJoint_of_joints {s u : State} (h : u.ctl.joints = s.ctl.joints) (k : Nat) : getJoint u k = getJoint s k := by
  unfold getJoint
  rw [h]

section
variable {s : State} {h : KHdr} {slot : Nat} {j : Joint}

theorem namedJoint_holds (hj : namedJoint s h = some (slot, j)) : getJoint s slot = j := by
  unfold namedJoint at hj
  dsimp only at hj
  split at hj
  · obtain ⟨rfl, rfl⟩ := Prod.mk.inj (Option.some.inj hj)
    rfl
  · cases hj

theorem ownJoint_named (hj : ownJoint s h = some (slot, j)) : namedJoint s h = some (slot, j) := by
  unfold ownJoint at hj
  split at hj
  next n i hn =>
    split at hj
    · rw [hn, hj]
    · cases hj
  next => cases hj

theorem ownJoint_holds (hj : ownJoint s h = some (slot, j)) : getJoint s slot = j := namedJoint_holds (ownJoint_named hj)

theorem touch_holds (hj : getJoint s slot = j) : getJoint (touch s slot) slot = { j with lastMsg := s.now } := by
  subst hj
  exact getJoint_setJoint_same _ _ _

end

/-! ## JOINT_OPEN (R335, R337, R343) -/

/-- The joint that a request opens in a slot, without a quorum. -/
def openedJoint (s : State) (h : KHdr) (role slot : Nat) : Joint :=
  { gen := if ((getJoint s slot).gen + 1) % 1024 = 0 then 1 else ((getJoint s slot).gen + 1) % 1024
    st := 0, opener := openerOf s h.path, path := h.path, role := role, serial := devCounter s 2 + 1, base := s.ctl.epoch, lastMsg := s.now }

theorem openSlot_opens (s : State) (h : KHdr) (role slot : Nat) (quorum : Bool) (opening : Option KHdr) :
    openSlot s slot { opener := openerOf s h.path, path := h.path, role := role, quorum := quorum, opening := opening } =
      setJoint (setDevCounter s 2 (devCounter s 2 + 1)) slot { openedJoint s h role slot with quorum := quorum, opening := opening } := rfl

section
variable {s : State} {h : KHdr} {role inst : Nat} (hg : gate s h = .go role inst) (hp : s.power.shutdown ≠ 2)
include hg hp

theorem jointOpens_seeding (hs : seedingInForce s = true) : jointOpens s h 1 = emit s (.kallek h 0x10 0x0103 []) := by
  unfold jointOpens
  rw [jointMsg_serves hg hp, if_neg (by decide), if_pos ⟨rfl, hs⟩]
  rfl

theorem jointOpens_crowded (hr : role = roleTenant)
    (hn : 32 ≤ (tenantJoints s).length ∨ (tenantJoints s).any (fun e => e.2.opener == inst) = true) :
    jointOpens s h 0 = emit s (.kallek h 0x10 0x0903 []) := by
  unfold jointOpens
  rw [jointMsg_serves hg hp, if_neg (by decide), if_neg (fun h => absurd h.1 (by decide)), if_pos ⟨hr, hn⟩]
  rfl

variable (hr : role = roleTenant → (tenantJoints s).length < 32 ∧ (tenantJoints s).any (fun e => e.2.opener == inst) = false)
  {slot : Nat} (hslot : freeJointSlot s = some slot)
include hr hslot

/-- A joint that may be opened takes the free slot: a plain one is answered at once, a quorum joint asks for its nonce. -/
theorem jointOpens_opens {flags : Nat} (hf : flags ≤ 1) (hseed : flags = 1 → seedingInForce s = false) :
    jointOpens s h flags =
      (let u := openSlot s slot { opener := openerOf s h.path, path := h.path, role := role, quorum := flags == 1
                                  opening := if flags = 1 then some h else none }
       if flags = 1 then requestSeed u 2 (.jointNonce slot) 2 else kReply u h 0x10 0 (openBody slot (getJoint u slot))) := by
  unfold jointOpens
  rw [jointMsg_serves hg hp, if_neg (Nat.not_lt.2 hf), if_neg (fun h => ne_true_of_eq_false (hseed h.1) h.2), if_neg ?_, hslot]
  rintro ⟨hrole, hn | hn⟩
  · exact Nat.not_lt.2 hn (hr hrole).1
  · exact ne_true_of_eq_false (hr hrole).2 hn

theorem jointOpens_plain : jointOpens s h 0 = emit (setJoint (setDevCounter s 2 (devCounter s 2 + 1)) slot (openedJoint s h role slot))
    (.kallek h 0x10 0 (openBody slot (openedJoint s h role slot))) := by
  rw [jointOpens_opens hg hp hr hslot (by decide) (fun h => absurd h (by decide))]
  dsimp only
  rw [openSlot_opens, if_neg (by decide), getJoint_setJoint_same]
  rfl

theorem jointOpens_quorum (hseed : seedingInForce s = false) (hreq : s.random.reqs.any (fun r => r.who == .jointNonce slot) = false) :
    jointOpens s h 1 =
      { setJoint (setDevCounter s 2 (devCounter s 2 + 1)) slot { openedJoint s h role slot with quorum := true, opening := some h } with
        random := { s.random with reqs := s.random.reqs ++ [{ prio := 2, who := .jointNonce slot, need := 2 }] } } := by
  rw [jointOpens_opens hg hp hr hslot (by decide) (fun _ => hseed)]
  dsimp only
  rw [openSlot_opens, if_pos rfl]
  exact requestSeed_joins _ hreq

end

/-! ## JOINT_READ (R336) -/

section
variable {s : State} {h : KHdr} {role inst : Nat} (hg : gate s h = .go role inst) (hp : s.power.shutdown ≠ 2)
include hg hp

theorem jointReads_unreached (hj : ownJoint s h = none) (index sub offset most : Nat) :
    jointReads s h index sub offset most = emit s (.kallek h 0x11 0x0203 []) := by
  unfold jointReads
  rw [jointMsg_serves hg hp, hj]
  rfl

theorem jointReads_reads {slot : Nat} {j : Joint} (hj : ownJoint s h = some (slot, j)) (hret : role ≠ roleReturn) (hrec : role ≠ roleRecovery)
    {index sub offset most : Nat} {b : Bytes} (hb : getBody (touch s slot) role inst index sub offset most = .ok b) {o : Obj}
    (ho : dictAt index sub = some o) : ∃ w, jointReads s h index sub offset most =
      emit w (.kallek h 0x11 0 (b ++ Bytes.ofNatLE 8 (mget 0 s.ctl.cfg.vers (odKey index sub)))) ∧
    getJoint w slot = { j with
      lastMsg := s.now
      reads := j.reads ++ if jointWritable o then [(odKey index sub, mget 0 s.ctl.cfg.vers (odKey index sub))] else [] } ∧
    (∀ k, k ≠ slot → getJoint w k = getJoint s k) ∧ Within { joints := true } s w := by
  have htouch := touch_holds (s := s) (ownJoint_holds hj)
  have hother : ∀ k, k ≠ slot → getJoint (touch s slot) k = getJoint s k := fun k hk => getJoint_setJoint_other _ _ _ _ hk
  unfold jointReads
  rw [jointMsg_serves hg hp, hj]
  dsimp only
  rw [if_neg (not_or.2 ⟨hret, hrec⟩), hb, ho]
  dsimp only
  split
  · refine ⟨_, rfl, ?_, fun k hk => (getJoint_setJoint_other _ _ _ _ hk).trans (hother k hk), rfl⟩
    exact (getJoint_setJoint_same _ _ _).trans (by rw [htouch]; rfl)
  · refine ⟨_, rfl, ?_, hother, rfl⟩
    rw [htouch, List.append_nil]

end

/-! ## JOINT_STAGE (R334, R335) -/

section
variable {s : State} {slot : Nat}

theorem stageRefused_within (st : Nat) (r : Option JRec) : Within custodyScope s (stageRefused s st r) := by
  unfold stageRefused
  split
  · exact .refl s
  · split
    · exact (slotMismatch_within s _ _).mono rfl
    · exact .refl s

/-- The words of a message's records in the staging store, before the message joins its joint. -/
def stagingWritten (s : State) (slot : Nat) (msg : List JRec) : State :=
  noteWriter (writeWords s memJoints (jointWord slot + (getJoint s slot).bytes / 8) (ceilDiv (recsCost msg) 8)) memJoints
    (jointWord slot + (getJoint s slot).bytes / 8) (ceilDiv (recsCost msg) 8) islControl

theorem stagingWritten_within (msg : List JRec) :
    Within { bad := true, writers := true, slotMask := true } s (stagingWritten s slot msg) :=
  ((writeWords_within s memJoints _ _).mono rfl).then (noteWriter_within _ memJoints _ _ islControl)

/-- A message staged whole joins its joint; besides, the codes of the words that it takes and an answered challenge may change. -/
theorem stageRecs_stages (msg : List JRec) : (getJoint (stageRecs s slot msg) slot).recs = (getJoint s slot).recs ++ msg ∧
    (getJoint (stageRecs s slot msg) slot).bytes = (getJoint s slot).bytes + recsCost msg ∧
    (∀ k, k ≠ slot → getJoint (stageRecs s slot msg) k = getJoint s k) ∧
    Within { joints := true, bad := true, writers := true, slotMask := true, life := true } s (stageRecs s slot msg) := by
  have hw := stagingWritten_within (s := s) (slot := slot) msg
  have hjoint : ∀ k, getJoint (stagingWritten s slot msg) k = getJoint s k := fun k => getJoint_of_joints (hw.same (·.ctl.joints)) k
  have hput : ∃ f : Joint → Joint, (∀ j, (f j).recs = j.recs ++ msg ∧ (f j).bytes = j.bytes + recsCost msg) ∧
      Within { life := true } (modJoint (stagingWritten s slot msg) slot f) (stageRecs s slot msg) :=
    ⟨_, fun _ => ⟨rfl, rfl⟩, .ite rfl (.refl _)⟩
  obtain ⟨f, hf, hlife⟩ := hput
  have hall : ∀ k, getJoint (stageRecs s slot msg) k = getJoint (modJoint (stagingWritten s slot msg) slot f) k :=
    fun k => getJoint_of_joints (hlife.same (·.ctl.joints)) k
  have hsame : getJoint (stageRecs s slot msg) slot = f (getJoint s slot) := by
    rw [hall, ← hjoint slot]
    exact getJoint_setJoint_same _ _ _
  refine ⟨hsame ▸ (hf _).1, hsame ▸ (hf _).2, fun k hk => ?_, ?_⟩
  · rw [hall, ← hjoint k]
    exact getJoint_setJoint_other _ _ _ _ hk
  · exact ((hw.mono rfl).then (modJoint_within _ slot f)).then hlife

end

section
variable {s : State} {h : KHdr} {role inst : Nat} (hg : gate s h = .go role inst) (hp : s.power.shutdown ≠ 2)
include hg hp

theorem jointStages_unreached (hj : ownJoint s h = none) (recs : List JRec) :
    jointStages s h recs = emit s (.kallek h 0x12 0x0203 []) := by
  unfold jointStages
  rw [jointMsg_serves hg hp, hj]
  rfl

variable {slot : Nat} {j : Joint} (hj : ownJoint s h = some (slot, j)) {recs : List JRec}
include hj

theorem jointStages_long (hlen : 73728 < (recs.flatMap jrecBytes).length) :
    jointStages s h recs = emit (touch s slot) (.kallek h 0x12 0x0202 []) := by
  unfold jointStages
  rw [jointMsg_serves hg hp, hj]
  exact if_pos hlen

variable (hlen : (recs.flatMap jrecBytes).length ≤ 73728) (hc : j.commit = none)
include hlen hc

theorem jointStages_sealed (hst : j.st = 1) : jointStages s h recs = emit (touch s slot) (.kallek h 0x12 0x0902 []) := by
  unfold jointStages
  rw [jointMsg_serves hg hp, hj]
  dsimp only
  rw [touch_holds (ownJoint_holds hj), if_neg (Nat.not_lt.2 hlen), if_neg (by simp [hc])]
  exact if_pos hst

variable (hst : j.st ≠ 1) (hne : recs ≠ []) (hlim : withinLimits (touch s slot) j recs = true)
include hst hne hlim

/-- A message within the limits comes to the check of its records (R334). -/
theorem jointStages_checks : jointStages s h recs =
    match firstRefused (touch s slot) role inst j.quorum j.recs recs 0 recs with
    | some (n, st) => kReply (stageRefused (touch s slot) st recs[n]?) h 0x12 st (stageBody 0 (some n))
    | none => kReply (stageRecs (touch s slot) slot recs) h 0x12 0 (stageBody recs.length none) := by
  have hwithin : withinLimits (touch s slot) { j with lastMsg := s.now } recs = true := hlim
  unfold jointStages
  rw [jointMsg_serves hg hp, hj]
  dsimp only
  rw [touch_holds (ownJoint_holds hj), if_neg (Nat.not_lt.2 hlen), if_neg (by simp [hc]), if_neg hst, if_neg hne,
    if_neg (ne_false_of_eq_true hwithin)] <;> rfl

theorem jointStages_refused {n st : Nat} (hr : firstRefused (touch s slot) role inst j.quorum j.recs recs 0 recs = some (n, st)) :
    jointStages s h recs = emit (stageRefused (touch s slot) st recs[n]?) (.kallek h 0x12 st (Bytes.ofNatLE 2 0 ++ Bytes.ofNatLE 2 n)) := by
  rw [jointStages_checks hg hp hj hlen hc hst hne hlim, hr]
  rfl

theorem jointStages_stages (hr : firstRefused (touch s slot) role inst j.quorum j.recs recs 0 recs = none) :
    jointStages s h recs =
      emit (stageRecs (touch s slot) slot recs) (.kallek h 0x12 0 (Bytes.ofNatLE 2 recs.length ++ Bytes.ofNatLE 2 0xFFFF)) := by
  rw [jointStages_checks hg hp hj hlen hc hst hne hlim, hr]
  rfl

end

/-! ## JOINT_STATEMENT (R337) -/

section
variable {s : State} {h : KHdr} {role inst : Nat} (hg : gate s h = .go role inst) (hp : s.power.shutdown ≠ 2) (hret : role ≠ roleReturn)
  (hrec : role ≠ roleRecovery)
include hg hp hret hrec

theorem jointStatements_answered {slot : Nat} {j : Joint} (hj : anyJoint s h role = some (slot, j)) :
    jointStatements s h = emit (touch s slot) (.kallek h 0x13 0 (statement s slot j)) := by
  unfold jointStatements
  rw [jointMsg_serves hg hp, if_neg (not_or.2 ⟨hret, hrec⟩), hj]
  rfl

theorem jointStatements_unreached (hj : anyJoint s h role = none) : jointStatements s h = emit s (.kallek h 0x13 0x0203 []) := by
  unfold jointStatements
  rw [jointMsg_serves hg hp, if_neg (not_or.2 ⟨hret, hrec⟩), hj]
  rfl

end

/-- What a message that reaches its joint leaves: its time, other joints, configuration and epoch. -/
theorem touch_leaves {s : State} {slot : Nat} {j : Joint} (hj : getJoint s slot = j) : getJoint (touch s slot) slot = { j with lastMsg := s.now } ∧
    (∀ k, k ≠ slot → getJoint (touch s slot) k = getJoint s k) ∧ Within { joints := true } s (touch s slot) :=
  ⟨touch_holds hj, fun _ hk => getJoint_setJoint_other _ _ _ _ hk, rfl⟩

/-- Settles O51: what each message comes to once its way is free and its gate lets it pass. -/
theorem jointsOpenAndStage : Obligations.JointsOpenAndStage := by
  unfold Obligations.JointsOpenAndStage
  intro s t h role inst
  refine ⟨fun hwait flags sub index offset most recs c hc => ?_, fun hfree hsigns hg => ?_⟩
  · have hw : ∀ cmd f, kallekWord (at_ s t) h true cmd f = stall (at_ s t) cmd := fun cmd f =>
      kallekWord_waits (s := at_ s t) (hwait.imp_right fun hs => ⟨rfl, hs⟩)
    simp only [List.mem_cons, List.not_mem_nil, or_false] at hc
    rcases hc with rfl | rfl | rfl | rfl <;> exact congrArg Host.Outcome.next (hw _ _)
  have ha : ∀ cmd f, kallekWord (at_ s t) h true cmd f = f (at_ s t) := fun cmd f =>
    kallekWord_arrives (s := at_ s t) hfree (.inr hsigns)
  refine ⟨fun hp flags sub index offset most recs p hmem => ?_, fun hp => ⟨fun hr slot hslot j serial hserial hj => ?_, fun hrole hn => ?_,
    fun slot j hj => ⟨fun index sub offset most o b hret hrec hb ho => ?_, fun recs hlen => ?_, fun recs hlen hc hst hne hlim =>
      ⟨fun n st hr => ?_, fun hr => ?_⟩, fun recs hlen hc hst => ?_⟩,
    fun hj => ⟨fun recs => ?_, fun index sub offset most => ?_⟩, fun hret hrec => ⟨fun slot j hj => ?_, fun hj => ?_⟩⟩⟩
  · simp only [List.mem_cons, List.not_mem_nil, or_false] at hmem
    rcases hmem with rfl | rfl | rfl | rfl <;>
      exact congrArg Host.Outcome.next ((ha _ _).trans (jointMsg_ready (s := at_ s t) hg hp))
  · subst hserial hj
    exact ⟨congrArg Host.Outcome.next ((ha _ _).trans (jointOpens_plain (s := at_ s t) hg hp hr hslot)),
      fun hseed hreq => congrArg Host.Outcome.next ((ha _ _).trans (jointOpens_quorum (s := at_ s t) hg hp hr hslot hseed hreq)),
      fun hseed => congrArg Host.Outcome.next ((ha _ _).trans (jointOpens_seeding (s := at_ s t) hg hp hseed))⟩
  · exact congrArg Host.Outcome.next ((ha _ _).trans (jointOpens_crowded (s := at_ s t) hg hp hrole hn))
  · obtain ⟨w, hread, hsame, hother, hw⟩ := jointReads_reads (s := at_ s t) hg hp hj hret hrec hb ho
    exact ⟨_, congrArg Host.Outcome.next ((ha _ _).trans hread), congrArg (· ++ _) (hw.same (·.outbox)), hsame, hother,
      hw.same (·.ctl.cfg), hw.same (·.ctl.epoch)⟩
  · exact congrArg Host.Outcome.next ((ha _ _).trans (jointStages_long (s := at_ s t) hg hp hj hlen))
  · obtain ⟨hsame, hother, htouch⟩ := touch_leaves (s := at_ s t) (ownJoint_holds (s := at_ s t) hj)
    have hw := stageRefused_within (s := touch (at_ s t) slot) st recs[n]?
    have hjoints : ∀ k, getJoint (stageRefused (touch (at_ s t) slot) st recs[n]?) k = getJoint (touch (at_ s t) slot) k :=
      fun k => getJoint_of_joints (hw.same (·.ctl.joints)) k
    exact ⟨_, congrArg Host.Outcome.next ((ha _ _).trans (jointStages_refused (s := at_ s t) hg hp hj hlen hc hst hne hlim hr)),
      (hjoints slot).trans hsame, fun k hk => (hjoints k).trans (hother k hk), hw.same (·.ctl.cfg), hw.same (·.ctl.epoch),
      congrArg (· ++ _) (hw.same (·.outbox))⟩
  · obtain ⟨hsame, hother, htouch⟩ := touch_leaves (s := at_ s t) (ownJoint_holds (s := at_ s t) hj)
    obtain ⟨hrecs, hbytes, hrest, hw⟩ := stageRecs_stages (s := touch (at_ s t) slot) (slot := slot) recs
    rw [hsame] at hrecs hbytes
    exact ⟨_, congrArg Host.Outcome.next ((ha _ _).trans (jointStages_stages (s := at_ s t) hg hp hj hlen hc hst hne hlim hr)),
      hrecs, hbytes, hw.same (·.ctl.cfg), hw.same (·.ctl.epoch), fun k hk => (hrest k hk).trans (hother k hk),
      congrArg (· ++ _) (hw.same (·.outbox))⟩
  · obtain ⟨hsame, hother, htouch⟩ := touch_leaves (s := at_ s t) (ownJoint_holds (s := at_ s t) hj)
    exact ⟨_, congrArg Host.Outcome.next ((ha _ _).trans (jointStages_sealed (s := at_ s t) hg hp hj hlen hc hst)), hsame, hother, rfl, rfl, rfl⟩
  · exact congrArg Host.Outcome.next ((ha _ _).trans (jointStages_unreached (s := at_ s t) hg hp hj recs))
  · exact congrArg Host.Outcome.next ((ha _ _).trans (jointReads_unreached (s := at_ s t) hg hp hj _ _ _ _))
  · exact congrArg Host.Outcome.next ((ha _ _).trans (jointStatements_answered (s := at_ s t) hg hp hret hrec hj))
  · exact congrArg Host.Outcome.next ((ha _ _).trans (jointStatements_unreached (s := at_ s t) hg hp hret hrec hj))

end Sys2Proof.Machine
end

section
/-! SUPPORT. A joint's commit: its pass over the records, and how it ends where it fails (R288, R340). -/

namespace Sys2Proof.Machine

-- One proof at a time: the check bounds the compiler's threads.
set_option Elab.async false

open Sys2Proof Sys2Proof.Safety

/-- The parts that the pass over a joint's records may write. -/
def passScope : Scope := { custodyScope with bays := true, reqs := true }

/-- The parts that a failed commit may write. -/
def failedCommitScope : Scope :=
  { joints := true, commits := true, outbox := true, keys := true, kumCtr := true, cnt := true, evr := true, free := true }

section
variable (s : State)

/-! ## The pass over the records (R340) -/

theorem passItems_within {p : Pass} (h : Within passScope s p.s) (its : List ItemOut) : Within passScope s (passItems p its).s := by
  unfold passItems
  split
  · exact h
  · split <;> exact h

theorem passKum_within {p : Pass} (h : Within passScope s p.s) (data : Bytes) : Within passScope s (passKum p data).s := by
  unfold passKum
  split
  · exact h
  next m _ =>
    split
    · exact h
    · have hdraws := controllerDraws_within (s := p.s) (List.replicate (generateBytes m / 32) 32)
      split
      next w hd => exact h.then (hdraws.answer hd)
      next rs w hd =>
        have hw : Within passScope s w := h.then (hdraws.answer hd)
        have hcheck := hw.then ((setKumCounter_within w m.tenant m.counter).trans
          (checkItems_within _ m.items {} p.s.ctl.epoch m.tenant 0 p.items rs.flatten))
        split
        next st j hnd v c hc => rw [hc] at hcheck; exact hcheck
        next its v c hc => rw [hc] at hcheck; exact passItems_within s (p := { p with s := v }) hcheck its

theorem passRec_within {p : Pass} (h : Within passScope s p.s) (c0 c1 : Cfg) (routes : Bool) (j : Joint) (r : JRec) :
    Within passScope s (passRec c0 c1 routes j p r).s := by
  unfold passRec
  split
  · exact h
  · split
    · exact passKum_within s h r.data
    · split
      · dsimp only
        generalize firstBad _ = st
        split
        · exact h.then (stageRefused_within st (some r))
        · exact passItems_within s h _
      · exact h

theorem commitPass_within (j : Joint) : Within passScope s (commitPass s j).s := by
  have hfold : ∀ (c0 c1 : Cfg) (routes : Bool) (rs : List JRec) (p : Pass), Within passScope s p.s →
      Within passScope s (rs.foldl (passRec c0 c1 routes j) p).s := by
    intro c0 c1 routes rs
    induction rs with
    | nil => exact fun p h => h
    | cons r rs ih => exact fun p h => ih _ (passRec_within s h c0 c1 routes j r)
  unfold commitPass
  split
  · exact .refl s
  · split
    · exact .refl s
    · exact hfold _ _ _ _ _ (.refl s)

/-! ## A commit that fails (R340) -/

theorem raiseCounters_within (recs : List JRec) : Within { keys := true, kumCtr := true } s (raiseCounters s recs) :=
  .each (f := fun s (r : JRec) => match parseKum r.data false with
    | .ok m => if kumCounter s m.tenant < m.counter then setKumCounter s m.tenant m.counter else s
    | .error _ => s) (fun s r => by
      split
      · exact .ite (kumCounted_within s _ _) (.refl s)
      · exact .refl s) _ s

theorem kumRefused_within (status tenant : Nat) (item : Option (Nat × Nat)) :
    Within { cnt := true, evr := true, free := true } s (kumRefused s status tenant item) := by
  have hfree : Within { free := true } s (freeBytes s 6).2 := rfl
  exact ((hfree.mono rfl).then (bump_within _ _)).then (record_within _ _ _ _)

variable (slot status : Nat) (refused : Option (Nat × Option (Nat × Nat)))

/-- A failed commit before its joint is closed: the reply and the record. -/
def failReplied (s : State) (slot status : Nat) (refused : Option (Nat × Option (Nat × Nat))) : State :=
  let w := match refused with
    | some (t, item) => kumRefused (raiseCounters s (getJoint s slot).recs) status t item
    | none => raiseCounters s (getJoint s slot).recs
  match (getJoint s slot).commit with
    | some h => kReply w h 0x15 status []
    | none => w

theorem failCommit_closes : failCommit s slot status refused =
    closeJoint (commitRecord (answerSigns (failReplied s slot status refused) (getJoint s slot)) slot status 0) slot 3 status := rfl

/-- What a failed commit may change before its joint is closed. -/
def replyScope : Scope := { outbox := true, keys := true, kumCtr := true, cnt := true, evr := true, free := true }

theorem failReplied_within : Within replyScope s (failReplied s slot status refused) := by
  have hraise := raiseCounters_within s (getJoint s slot).recs
  have hw : Within replyScope s (match refused with
      | some (t, item) => kumRefused (raiseCounters s (getJoint s slot).recs) status t item
      | none => raiseCounters s (getJoint s slot).recs) := by
    split
    · exact (hraise.mono rfl).then (kumRefused_within _ _ _ _)
    · exact hraise.mono rfl
  unfold failReplied
  dsimp only
  split
  · exact hw.then (kReply_within _ _ _ _ _)
  · exact hw

theorem failCommit_within : Within failedCommitScope s (failCommit s slot status refused) := by
  rw [failCommit_closes]
  exact ((((failReplied_within s slot status refused).mono rfl).then (answerSigns_within _ _)).then (commitRecord_within _ _ _ _)).then
    (closeJoint_within _ _ _ _)

/-- Joint and final status of a commit that fails; other joints stand. -/
theorem failCommit_fails : (getJoint (failCommit s slot status refused) slot).st = 3 ∧
    (getJoint (failCommit s slot status refused) slot).final = status := by
  rw [failCommit_closes]
  unfold closeJoint modJoint
  rw [getJoint_setJoint_same]
  exact ⟨rfl, rfl⟩

theorem closeJoint_other (st final : Nat) {k : Nat} (hk : k ≠ slot) : getJoint (closeJoint s slot st final) k = getJoint s k :=
  getJoint_setJoint_other _ _ _ _ hk

/-- The signatures under verification are answered in their order. -/
theorem answerSigns_sent (j : Joint) : (answerSigns s j).outbox = s.outbox ++ j.verifying.map (fun v => .kallek v.2.2 0x14 0x0902 []) := by
  unfold answerSigns
  generalize j.verifying = vs
  induction vs generalizing s with
  | nil => exact (List.append_nil _).symm
  | cons v vs ih =>
    refine (ih (kReply s v.2.2 0x14 0x0902 [])).trans ?_
    rw [List.map_cons, kReply, emit, List.append_assoc, List.singleton_append]

/-- The messages of a failed commit: what it refuses besides, the reply to its commit, then its signatures' answers. -/
theorem failCommit_sent : (failCommit s slot status refused).outbox =
    (failReplied s slot status refused).outbox ++ (getJoint s slot).verifying.map (fun v => .kallek v.2.2 0x14 0x0902 []) := by
  rw [failCommit_closes, (closeJoint_within _ slot 3 status).same (·.outbox), (commitRecord_within _ slot status 0).same (·.outbox),
    answerSigns_sent]

theorem failReplied_replies {h : KHdr} (hc : (getJoint s slot).commit = some h) :
    Out.kallek h 0x15 status [] ∈ (failReplied s slot status refused).outbox := by
  unfold failReplied
  dsimp only
  rw [hc]
  exact List.mem_append_right _ (List.mem_singleton.2 rfl)

theorem failCommit_replies {h : KHdr} (hc : (getJoint s slot).commit = some h) :
    Out.kallek h 0x15 status [] ∈ (failCommit s slot status refused).outbox := by
  rw [failCommit_sent]
  exact List.mem_append_left _ (failReplied_replies s slot status refused hc)

theorem failCommit_answers {v : Nat × Bytes × KHdr} (hv : v ∈ (getJoint s slot).verifying) :
    Out.kallek v.2.2 0x14 0x0902 [] ∈ (failCommit s slot status refused).outbox := by
  rw [failCommit_sent]
  exact List.mem_append_right _ (List.mem_map.2 ⟨v, hv, rfl⟩)

/-! ## A joint that is given up (R335) -/

theorem answerWaiting_within (j : Joint) : Within { outbox := true } s (answerWaiting s j) := by
  have hsigns := answerSigns_within s j
  have hcommit : Within { outbox := true } s (match j.commit with
      | some h => kReply (answerSigns s j) h 0x15 0x0104 []
      | none => answerSigns s j) := by
    split
    · exact hsigns.then (kReply_within _ _ _ _ _)
    · exact hsigns
  unfold answerWaiting
  dsimp only
  split
  · exact hcommit.then (kReply_within _ _ _ _ _)
  · exact hcommit

/-- What the abort of a joint may change. -/
def abortScope : Scope := { joints := true, commits := true, random := true, reqs := true, outbox := true, evr := true }

/-- The state before an aborted joint is closed: what waits for an answer has one, its request for a nonce is gone, and its record stands. -/
def abortNoted (s : State) (slot cause : Nat) : State :=
  let j := getJoint s slot
  let s := answerWaiting s j
  let s := { s with
    ctl := { s.ctl with commits := s.ctl.commits.filter (· != slot) }
    random := { s.random with reqs := s.random.reqs.filter (fun r => r.who != .jointNonce slot) } }
  record s 0x4102 (src 8 slot) (Bytes.ofNatLE 2 (jointIdOf slot j) ++ Bytes.ofNatLE 8 j.serial ++ Bytes.ofNatLE 1 cause)

theorem abortJoint_closes (cause : Nat) : abortJoint s slot cause =
    modJoint (closeJoint (abortNoted s slot cause) slot 4 0) slot (fun x => { x with opening := none }) := rfl

theorem abortNoted_within (cause : Nat) :
    Within { commits := true, reqs := true, outbox := true, evr := true } s (abortNoted s slot cause) := by
  have hdrop : ∀ v : State, Within { commits := true, reqs := true, outbox := true, evr := true } v { v with
    ctl := { v.ctl with commits := v.ctl.commits.filter (· != slot) }
    random := { v.random with reqs := v.random.reqs.filter (fun r => r.who != .jointNonce slot) } } := fun _ => rfl
  unfold abortNoted
  dsimp only
  exact (((answerWaiting_within s _).mono rfl).trans (hdrop _)).then (record_within _ _ _ _)

theorem abortJoint_within (cause : Nat) : Within abortScope s (abortJoint s slot cause) := by
  rw [abortJoint_closes]
  exact (((abortNoted_within s slot cause).mono rfl).then (closeJoint_within _ _ _ _)).then (modJoint_within _ _ _)

theorem abortJoint_ends (cause : Nat) : (getJoint (abortJoint s slot cause) slot).st = 4 ∧
    (getJoint (abortJoint s slot cause) slot).recs = [] := by
  rw [abortJoint_closes]
  unfold closeJoint modJoint
  rw [getJoint_setJoint_same, getJoint_setJoint_same]
  exact ⟨rfl, rfl⟩

theorem abortJoint_other (cause : Nat) {k : Nat} (hk : k ≠ slot) : getJoint (abortJoint s slot cause) k = getJoint s k := by
  rw [abortJoint_closes]
  exact (getJoint_setJoint_other _ _ _ _ hk).trans ((closeJoint_other _ slot 4 0 hk).trans
    (getJoint_of_joints ((abortNoted_within s slot cause).same (·.ctl.joints)) k))

end

end Sys2Proof.Machine
end

section
/-! SUPPORT. Verified signatures, prepare records and idle joints (R335, R338, R340, R343). -/

namespace Sys2Proof.Machine

-- One proof at a time: the check bounds the compiler's threads.
set_option Elab.async false

open Sys2Proof Sys2Proof.Safety

/-! ## Verified signatures (R338, R342) -/

section
variable {s : State} {slot : Nat}

theorem signVerified_none (hv : (getJoint s slot).verifying = []) : signVerified s slot = s := by
  unfold signVerified
  dsimp only
  rw [hv]

/-- The joint as the verification of a custodian's signature leaves it, with the signatures that come after it. -/
def verifiedJoint (s : State) (j : Joint) (c : Nat) (rest : List (Nat × Bytes × KHdr)) (good : Bool) : Joint :=
  if good then
    { j with verifying := rest, sigs := putBit j.sigs c true, st := 1
             prep := if j.prep = .none ∧ s.life.debug = false then .writing s.now else j.prep }
  else { j with verifying := rest }

/-- The answer to a verified signature. -/
def signAnswer (j : Joint) (c : Nat) (h : KHdr) (good : Bool) : Out :=
  if good then .kallek h 0x14 0 (Bytes.ofNatLE 1 (popCount 16 (putBit j.sigs c true)) ++ Bytes.zeros 3) else .kallek h 0x14 0x0902 []

variable {c : Nat} {sig : Bytes} {h : KHdr} {rest : List (Nat × Bytes × KHdr)}

theorem verified_joint {w : State}
    (hw : w = emit (setJoint s slot (verifiedJoint s (getJoint s slot) c rest (signatureGood s slot (getJoint s slot) c sig)))
      (signAnswer (getJoint s slot) c h (signatureGood s slot (getJoint s slot) c sig))) : (getJoint w slot).verifying = rest := by
  have hjoint : getJoint w slot = verifiedJoint s (getJoint s slot) c rest (signatureGood s slot (getJoint s slot) c sig) := by
    subst hw
    exact getJoint_setJoint_same _ _ _
  rw [hjoint]
  unfold verifiedJoint
  split <;> rfl

variable (hv : (getJoint s slot).verifying = (c, sig, h) :: rest)
  (hopen : jointOpen (getJoint s slot) = true) (hpow : s.power.pwrGood = true)
include hv hopen hpow

/-- A signature verified is answered; then a waiting commit begins, where it may. -/
theorem signVerified_answers {w : State}
    (hw : w = emit (setJoint s slot (verifiedJoint s (getJoint s slot) c rest (signatureGood s slot (getJoint s slot) c sig)))
      (signAnswer (getJoint s slot) c h (signatureGood s slot (getJoint s slot) c sig))) :
    ((getJoint s slot).commit = none → signVerified s slot = w) ∧
    (∀ hc, (getJoint s slot).commit = some hc →
      signVerified s slot = if commitReady w slot ∧ w.ctl.commits.contains slot = false then beginCommit w slot hc else w) := by
  unfold signVerified
  dsimp only
  rw [hv]
  dsimp only
  rw [if_neg (not_or.2 ⟨ne_false_of_eq_true hopen, ne_false_of_eq_true hpow⟩)]
  subst hw
  generalize signatureGood s slot (getJoint s slot) c sig = good
  refine ⟨fun hn => ?_, fun hc hs => ?_⟩
  · split
    next hs => exact absurd (hn.symm.trans hs) (by simp)
    next => cases good <;> rfl
  · split
    next hs' =>
      cases hs.symm.trans hs'
      cases good <;> rfl
    next hn => exact absurd (hs.symm.trans hn) (by simp)

end

/-! ## Prepare records (R343) -/

section
variable (s : State)

/-- A joint that is open is listed. -/
theorem openJoint_listed {slot : Nat} (h : jointOpen (getJoint s slot) = true) : (slot, getJoint s slot) ∈ openJoints s := by
  refine List.mem_filter.2 ⟨mem_mget _ ?_, h⟩
  refine Decidable.byContradiction fun hno => ?_
  have hdefault : getJoint s slot = {} := mget_unlisted _ hno
  rw [hdefault] at h
  exact absurd h (by decide)

/-- The prepare record of an open joint stands in the log, compacted or not. -/
theorem appendCfgLog_keeps {slot : Nat} (h : jointOpen (getJoint s slot) = true) (recs : List JRec) (parts : Map Part) :
    CfgEntry.prepare (getJoint s slot).serial recs parts ∈ (appendCfgLog s (.prepare (getJoint s slot).serial recs parts)).ctl.cfgLog := by
  have hlast : ∀ l : List CfgEntry, CfgEntry.prepare (getJoint s slot).serial recs parts ∈ l ++ [.prepare (getJoint s slot).serial recs parts] :=
    fun l => List.mem_append_right _ (List.mem_singleton.2 rfl)
  unfold appendCfgLog
  dsimp only
  unfold compactCfg
  split
  · exact hlast _
  · refine List.mem_cons_of_mem _ (List.mem_filter.2 ⟨hlast _, ?_⟩)
    exact List.any_eq_true.2 ⟨(slot, getJoint s slot), openJoint_listed s h, beq_self_eq_true _⟩

variable {s} {slot since : Nat} (hprep : (getJoint s slot).prep = .writing since) (hopen : jointOpen (getJoint s slot) = true)
  (hpow : s.power.pwrGood = true) (hrep : s.fw.replacing ≠ some 1)
include hprep hopen hpow hrep

theorem prepareDone_stands : prepareDone s slot true =
    modJoint (appendCfgLog s (.prepare (getJoint s slot).serial (prepareRecs (resolved s (getJoint s slot).quorum (getJoint s slot).recs))
      (prepareParts s.ctl.cfg (producedCfg s (getJoint s slot).quorum (getJoint s slot).recs) (getJoint s slot).recs))) slot
      (fun j => { j with prep := .durable }) := by
  unfold prepareDone
  dsimp only
  rw [hprep]
  dsimp only
  rw [if_neg (by rw [hopen, hpow]; simp [hrep]), if_pos rfl]

/-- An attempt of a prepare record that failed. -/
theorem prepareDone_fails : prepareDone s slot false =
    (let w := modJoint (flashFailed s) slot (fun j => { j with prepTries := j.prepTries + 1 })
     if (getJoint s slot).prepTries + 1 < 3 then w
     else if s.ctl.commits.contains slot then
       failCommit (modJoint w slot (fun j => { j with prep := .none })) slot 0x0903 none
     else modJoint w slot (fun j => { j with prep := .none })) := by
  unfold prepareDone
  dsimp only
  rw [hprep]
  dsimp only
  rw [if_neg (by rw [hopen, hpow]; simp [hrep]), if_neg (by decide)]
  rfl

/-- A failed attempt is counted; the third gives the record up, and with it a commit that waits for it. -/
theorem prepareDone_retries :
    ((getJoint s slot).prepTries < 2 → prepareDone s slot false =
      modJoint (flashFailed s) slot (fun j => { j with prepTries := j.prepTries + 1 })) ∧
    (2 ≤ (getJoint s slot).prepTries → s.ctl.commits.contains slot = false →
      (getJoint (prepareDone s slot false) slot).prep = .none ∧ (getJoint (prepareDone s slot false) slot).st = (getJoint s slot).st) ∧
    (2 ≤ (getJoint s slot).prepTries → s.ctl.commits.contains slot = true →
      (getJoint (prepareDone s slot false) slot).st = 3 ∧ (getJoint (prepareDone s slot false) slot).final = 0x0903) := by
  rw [prepareDone_fails hprep hopen hpow hrep]
  dsimp only
  refine ⟨fun ht => if_pos (by omega), fun ht hc => ?_, fun ht hc => ?_⟩
  · rw [if_neg (by omega), if_neg (ne_true_of_eq_false hc)]
    unfold modJoint
    rw [getJoint_setJoint_same, getJoint_setJoint_same]
    exact ⟨rfl, rfl⟩
  · rw [if_neg (by omega), if_pos hc]
    exact failCommit_fails _ slot _ none

end

/-! ## Idle joints (R335) -/

section
variable {s : State} {slot : Nat} (hopen : jointOpen (getJoint s slot) = true) (hc : (getJoint s slot).commit = none)
  (ho : (getJoint s slot).opener ≠ 0xFFFE) (hrep : s.fw.replacing ≠ some 1) (hpow : s.power.pwrGood = true)
include hopen hc ho hrep hpow

theorem jointIdles_late (ht : (getJoint s slot).lastMsg + setting s.ctl.cfg 0xE000 4 900 * 10 ^ 9 ≤ s.now) :
    jointIdles s slot = abortJoint s slot 1 :=
  if_pos ⟨hopen, hc, ho, hrep, hpow, ht⟩

end

theorem jointIdles_early {s : State} {slot : Nat} (ht : s.now < (getJoint s slot).lastMsg + setting s.ctl.cfg 0xE000 4 900 * 10 ^ 9) :
    jointIdles s slot = s :=
  if_neg (fun ⟨_, _, _, _, _, h⟩ => Nat.not_le.2 ht h)

/-- Settles O53: signatures, records and idle times with the clock of the control island, and nothing without it. -/
theorem jointsVerifyAndExpire : Obligations.JointsVerifyAndExpire := by
  unfold Obligations.JointsVerifyAndExpire
  intro s t slot j hj
  subst hj
  refine ⟨fun hstop ok => ⟨⟨_, ?_, settle_beside _⟩, fun cmd hcmd => ?_⟩, fun hrun hpow hopen =>
    ⟨fun c sig h rest good w hv hgood hw => ?_, fun hv => ?_, fun since hprep hrep => ⟨?_, fun ht => ?_, fun ht hc => ?_, fun ht hc => ?_⟩,
      fun hc ho hrep => ⟨fun ht => ?_, fun ht => ?_⟩⟩⟩
  · exact congrArg (fun w => Host.Outcome.next (redeliver (settle w))) (clocked_one_stands (f := fun s => signVerified s slot.toNat) hstop)
  · have hstand : ∀ f : State → State, settle (clocked (at_ s t) [islControl] f) = settle (at_ s t) := fun f => by
      rw [clocked_one_stands hstop]
    simp only [List.mem_cons, List.not_mem_nil, or_false] at hcmd
    rcases hcmd with rfl | rfl <;> exact ⟨_, congrArg Host.Outcome.next (hstand _), settle_beside _⟩
  all_goals
    have hrunAt : ∀ f : State → State, settle (clocked (at_ s t) [islControl] f) = settle (f (at_ s t)) := fun f => by
      rw [clocked_one hrun]
  · have hrest := verified_joint (s := at_ s t) (slot := slot.toNat) (sig := sig) (w := w) (by subst hgood; exact hw)
    obtain ⟨hnone, hsome⟩ := signVerified_answers (s := at_ s t) (slot := slot.toNat) (sig := sig) hv hopen hpow (w := w) (by subst hgood; exact hw)
    have hcommits : w.ctl.commits = s.ctl.commits := by rw [hw]; rfl
    have hexec : ∀ v, signVerified (at_ s t) slot.toNat = v →
        exec (.jointSignVerified t slot) s = .next (redeliver (settle v)) := fun v hv' =>
      congrArg (fun w => Host.Outcome.next (redeliver w)) ((hrunAt _).trans (congrArg settle hv'))
    refine ⟨fun hwait => ⟨_, hexec w ?_, settle_beside _⟩, fun hc hcom hready hnot => ⟨_, hexec _ ?_, settle_beside _⟩⟩
    · cases hcom : (getJoint s slot.toNat).commit with
      | none => exact hnone hcom
      | some hc =>
        refine (hsome hc hcom).trans (if_neg ?_)
        rintro ⟨hr, hn⟩
        rcases hwait with hno | ⟨hne, hq⟩ | hmem
        · exact absurd (hno.symm.trans hcom) (by simp)
        · unfold commitReady at hr
          rw [hrest, hq, Bool.or_false, List.isEmpty_iff] at hr
          exact hne hr
        · rw [hcommits] at hn
          exact ne_true_of_eq_false hn (List.contains_iff_mem.2 hmem)
    · refine (hsome hc hcom).trans (if_pos ⟨?_, ?_⟩)
      · unfold commitReady
        rw [hrest]
        rcases hready with rfl | hq
        · rfl
        · rw [hq, Bool.or_true]
      · rw [hcommits]
        exact eq_false_of_ne_true (fun h => hnot (List.contains_iff_mem.1 h))
  · refine ⟨_, congrArg (fun w => Host.Outcome.next (redeliver w)) ((hrunAt _).trans (congrArg settle ?_)), settle_beside _⟩
    exact signVerified_none (s := at_ s t) hv
  all_goals
    have hsettled : ∀ v : State, ∀ k, getJoint (settle v) k = getJoint v k :=
      fun v k => getJoint_of_joints ((settle_within v).same (·.ctl.joints)) k
  · have hdone := prepareDone_stands (s := at_ s t) hprep hopen hpow hrep
    refine ⟨_, congrArg Host.Outcome.next (hrunAt _), ?_, ?_, ?_⟩
    · rw [hsettled, hdone]
      exact congrArg Joint.prep (getJoint_setJoint_same _ _ _)
    · rw [(settle_within _).same (·.ctl.cfgLog), hdone]
      exact appendCfgLog_keeps (at_ s t) hopen _ _
    · rw [(settle_within _).same (·.ctl.cfg), hdone]
      exact (appendCfgLog_within (at_ s t) _).same (·.ctl.cfg)
  · have hdone := (prepareDone_retries (s := at_ s t) hprep hopen hpow hrep).1 ht
    refine ⟨_, congrArg Host.Outcome.next (hrunAt _), ?_, ?_⟩
    · rw [hsettled, hdone]
      exact getJoint_setJoint_same _ _ _
    · rw [(settle_within _).same (·.ctl.cfgLog), hdone]
      rfl
  · obtain ⟨hnone, hst⟩ := (prepareDone_retries (s := at_ s t) hprep hopen hpow hrep).2.1 ht hc
    exact ⟨_, congrArg Host.Outcome.next (hrunAt _), (congrArg Joint.prep (hsettled _ _)).trans hnone, (congrArg Joint.st (hsettled _ _)).trans hst⟩
  · obtain ⟨hst, hfin⟩ := (prepareDone_retries (s := at_ s t) hprep hopen hpow hrep).2.2 ht hc
    exact ⟨_, congrArg Host.Outcome.next (hrunAt _), (congrArg Joint.st (hsettled _ _)).trans hst, (congrArg Joint.final (hsettled _ _)).trans hfin⟩
  · have hidle := jointIdles_late (s := at_ s t) hopen hc ho hrep hpow ht
    obtain ⟨hst, hrecs⟩ := abortJoint_ends (at_ s t) slot.toNat 1
    refine ⟨_, congrArg Host.Outcome.next ((hrunAt _).trans (congrArg settle hidle)), (congrArg Joint.st (hsettled _ _)).trans hst,
      (congrArg Joint.recs (hsettled _ _)).trans hrecs, fun k hk => (hsettled _ _).trans (abortJoint_other (at_ s t) _ 1 hk), ?_⟩
    exact ((settle_within _).same (·.ctl.cfg)).trans ((abortJoint_within (at_ s t) slot.toNat 1).same (·.ctl.cfg))
  · exact ⟨_, congrArg Host.Outcome.next ((hrunAt _).trans (congrArg settle (jointIdles_early (s := at_ s t) ht))), settle_beside _⟩

end Sys2Proof.Machine
end

section
/-! SUPPORT. Signing, commit, abort and state of a joint (R333 to R340, R355). -/

namespace Sys2Proof.Machine

-- One proof at a time: the check bounds the compiler's threads.
set_option Elab.async false

open Sys2Proof Sys2Proof.Safety

/-! ## Signatures (R338) -/

section
variable {s : State} {h : KHdr} {role inst slot : Nat} {j : Joint}

theorem ownJoint_open (hj : ownJoint s h = some (slot, j)) : jointOpen j = true := by
  unfold ownJoint at hj
  split at hj
  next n i hn =>
    split at hj
    next hc =>
      obtain ⟨rfl, rfl⟩ := Prod.mk.inj (Option.some.inj hj)
      exact hc.1
    · cases hj
  next => cases hj

theorem anyJoint_holds (hj : anyJoint s h role = some (slot, j)) : getJoint s slot = j ∧ jointOpen j = true := by
  unfold anyJoint at hj
  split at hj
  next n i hn =>
    split at hj
    next hc =>
      obtain ⟨rfl, rfl⟩ := Prod.mk.inj (Option.some.inj hj)
      exact ⟨namedJoint_holds hn, hc.1⟩
    · cases hj
  next => cases hj

/-- An open joint is not the default content of a slot, which has ended. -/
theorem open_ne_default (hopen : jointOpen j = true) : j ≠ {} := by
  rintro rfl
  exact absurd hopen (by decide)

/-- Of two writes of open joints to a slot the second stands. -/
theorem setJoint_setJoint {x y : Joint} (hx : jointOpen x = true) (hy : jointOpen y = true) :
    setJoint (setJoint s slot x) slot y = setJoint s slot y := by
  unfold setJoint mset
  simp only [if_neg (open_ne_default hx), if_neg (open_ne_default hy), mput_mput]

variable (hg : gate s h = .go role inst) (hp : s.power.shutdown ≠ 2) (hret : role ≠ roleReturn) (hrec : role ≠ roleRecovery)
include hg hp hret hrec

theorem jointSigns_waits (hj : anyJoint s h role = some (slot, j)) (c : Nat) (sig : Bytes) : jointSigns s h c sig =
    setJoint s slot { j with lastMsg := s.now, verifying := j.verifying ++ [(c, sig, h)] } := by
  obtain ⟨hjoint, hopen⟩ := anyJoint_holds hj
  unfold jointSigns
  rw [jointMsg_serves hg hp, if_neg (not_or.2 ⟨hret, hrec⟩), hj]
  dsimp only
  unfold modJoint
  rw [touch_holds hjoint]
  unfold touch modJoint
  rw [hjoint]
  exact setJoint_setJoint hopen hopen

theorem jointSigns_unreached (hj : anyJoint s h role = none) (c : Nat) (sig : Bytes) :
    jointSigns s h c sig = emit s (.kallek h 0x14 0x0203 []) := by
  unfold jointSigns
  rw [jointMsg_serves hg hp, if_neg (not_or.2 ⟨hret, hrec⟩), hj]
  rfl

/-! ## JOINT_ABORT and JOINT_STATUS (R333, R335) -/

omit hret hrec in
theorem jointAborts_late (hj : ownJoint s h = some (slot, j)) (hc : j.commit.isSome = true) :
    jointAborts s h = emit s (.kallek h 0x16 0x0203 []) := by
  unfold jointAborts
  rw [jointMsg_serves hg hp, hj]
  exact if_pos (.inr (.inr hc))

theorem jointAborts_aborts (hj : ownJoint s h = some (slot, j)) (hc : j.commit = none) :
    jointAborts s h = emit (abortJoint s slot 3) (.kallek h 0x16 0 []) := by
  unfold jointAborts
  rw [jointMsg_serves hg hp, hj]
  dsimp only
  rw [if_neg]
  · rfl
  · rintro (h' | h' | h')
    · exact hret h'
    · exact hrec h'
    · rw [hc] at h'
      cases h'

omit hret hrec in
theorem jointAborts_unreached (hj : ownJoint s h = none) : jointAborts s h = emit s (.kallek h 0x16 0x0203 []) := by
  unfold jointAborts
  rw [jointMsg_serves hg hp, hj]
  rfl

omit hret in
theorem jointStates_answered (hj : namedJoint s h = some (slot, j)) (hsame : samePath j.path h.path = true) :
    jointStates s h = emit (if jointOpen j then setJoint s slot { j with lastMsg := s.now } else s) (.kallek h 0x17 0 (statusBody j)) := by
  unfold jointStates
  rw [jointMsg_serves hg hp, hj]
  dsimp only
  rw [if_pos ⟨hsame, hrec⟩]
  unfold touch modJoint
  rw [namedJoint_holds hj]
  rfl

omit hret hrec in
theorem jointStates_unreached (hj : namedJoint s h = none) : jointStates s h = emit s (.kallek h 0x17 0x0203 []) := by
  unfold jointStates
  rw [jointMsg_serves hg hp, hj]
  rfl

end

/-! ## JOINT_COMMIT (R340) -/

section
variable {s : State} {h : KHdr} {role inst slot : Nat} {j : Joint} (hg : gate s h = .go role inst) (hrec : role ≠ roleRecovery)
include hg

theorem jointCommits_unreached (hj : ownJoint s h = none) :
    jointCommits s h = emit s (.kallek h 0x15 (if s.power.shutdown = 2 then 0x0104 else 0x0203) []) := by
  unfold jointCommits
  rw [kallek_serves hg, hj]
  rfl

theorem jointCommits_again (hj : ownJoint s h = some (slot, j)) (hc : j.commit.isSome = true) :
    jointCommits s h = emit s (.kallek h 0x15 0x0203 []) := by
  unfold jointCommits
  rw [kallek_serves hg, hj]
  exact if_pos hc

include hrec

theorem jointCommits_own (hj : ownJoint s h = some (slot, j)) (hc : j.commit = none) {w : State}
    (hw : w = setJoint s slot { j with lastMsg := s.now }) : jointCommits s h =
      if commitReady w slot then beginCommit w slot h else modJoint w slot (fun j => { j with commit := some h }) := by
  unfold jointCommits
  rw [kallek_serves hg, hj]
  dsimp only
  rw [if_neg (by rw [hc]; decide), if_neg hrec, hw, ← ownJoint_holds hj]
  rfl

end

/-! ## The beginning of a commit (R340, R355) -/

section
variable (s : State) (slot : Nat) (h : KHdr)

/-- A commit that is declined leaves its joint open. -/
theorem declineCommit_declines (status : Nat) : (getJoint (declineCommit s slot h status) slot).st = (getJoint s slot).st ∧
    (getJoint (declineCommit s slot h status) slot).commit = none ∧
    (declineCommit s slot h status).outbox = s.outbox ++ [.kallek h 0x15 status []] ∧
    Within { joints := true, outbox := true, cnt := true, evr := true } s (declineCommit s slot h status) := by
  have hnoted := commitRecord_within (kReply s h 0x15 status []) slot status 0
  have hjoint : getJoint (declineCommit s slot h status) slot = { getJoint s slot with commit := none } :=
    (getJoint_setJoint_same _ _ _).trans
      (congrArg (fun j : Joint => { j with commit := none }) (getJoint_of_joints (hnoted.same (·.ctl.joints)) slot))
  refine ⟨hjoint ▸ rfl, hjoint ▸ rfl, hnoted.same (·.outbox), ?_⟩
  exact (((kReply_within s h 0x15 status []).mono rfl).then hnoted).then (modJoint_within _ _ _)

/-- A declined commit as the machine goes on from it. -/
theorem declineCommit_settled (status : Nat) : (getJoint (settle (declineCommit s slot h status)) slot).st = (getJoint s slot).st ∧
    (getJoint (settle (declineCommit s slot h status)) slot).commit = none ∧
    (settle (declineCommit s slot h status)).outbox = s.outbox ++ [.kallek h 0x15 status []] ∧
    (settle (declineCommit s slot h status)).ctl.cfg = s.ctl.cfg ∧ (settle (declineCommit s slot h status)).ctl.epoch = s.ctl.epoch := by
  obtain ⟨hst, hnone, hsent, hwithin⟩ := declineCommit_declines s slot h status
  have hs := settle_within (declineCommit s slot h status)
  rw [getJoint_of_joints (hs.same (·.ctl.joints)), hs.same (·.outbox), hs.same (·.ctl.cfg), hs.same (·.ctl.epoch)]
  exact ⟨hst, hnone, hsent, hwithin.same (·.ctl.cfg), hwithin.same (·.ctl.epoch)⟩

/-- A failed commit as the machine goes on from it, after a pass that began at `s`. -/
theorem failCommit_settled {v : State} (status : Nat) (refused : Option (Nat × Option (Nat × Nat))) (hpass : Within passScope s v) :
    (getJoint (settle (failCommit v slot status refused)) slot).st = 3 ∧
    (getJoint (settle (failCommit v slot status refused)) slot).final = status ∧
    (∀ h, (getJoint s slot).commit = some h → Out.kallek h 0x15 status [] ∈ (settle (failCommit v slot status refused)).outbox) ∧
    (∀ x ∈ (getJoint s slot).verifying, Out.kallek x.2.2 0x14 0x0902 [] ∈ (settle (failCommit v slot status refused)).outbox) ∧
    (settle (failCommit v slot status refused)).ctl.cfg = s.ctl.cfg ∧
    (settle (failCommit v slot status refused)).ctl.epoch = s.ctl.epoch := by
  have hjoint : getJoint v slot = getJoint s slot := getJoint_of_joints (hpass.same (·.ctl.joints)) slot
  have hfail := failCommit_within v slot status refused
  have hs := settle_within (failCommit v slot status refused)
  obtain ⟨hst, hfin⟩ := failCommit_fails v slot status refused
  rw [getJoint_of_joints (hs.same (·.ctl.joints)), hs.same (·.outbox), hs.same (·.ctl.cfg), hs.same (·.ctl.epoch), ← hjoint]
  exact ⟨hst, hfin, fun _ hc => failCommit_replies v slot status refused hc, fun _ hx => failCommit_answers v slot status refused hx,
    (hfail.same (·.ctl.cfg)).trans (hpass.same (·.ctl.cfg)), (hfail.same (·.ctl.epoch)).trans (hpass.same (·.ctl.epoch))⟩

variable {s slot h}

theorem beginCommit_forbidden (hf : cutForbidden s = true ∨ s.power.shutdown = 2) : beginCommit s slot h = declineCommit s slot h 0x0104 :=
  if_pos hf

variable (hf : ¬(cutForbidden s = true ∨ s.power.shutdown = 2))
include hf

theorem beginCommit_unsigned (hq : quorumPresent s (getJoint s slot) = false) : beginCommit s slot h = declineCommit s slot h 0x0902 := by
  unfold beginCommit
  dsimp only
  rw [if_neg hf, if_pos hq]

variable (hq : quorumPresent s (getJoint s slot) = true) {v : State} (hv : v = modJoint s slot (fun j => { j with commit := some h }))
include hq hv

theorem beginCommit_mismatch {key : Nat} (hb : jointBad v slot = some key) :
    beginCommit s slot h = failCommit (jointMismatch v key) slot 0x0801 none := by
  subst hv
  unfold beginCommit
  dsimp only
  rw [if_neg hf, if_neg (ne_false_of_eq_true hq), hb]

variable (hb : jointBad v slot = none)
include hb

theorem beginCommit_fails (hbad : (commitPass v (getJoint s slot)).bad ≠ 0) : beginCommit s slot h =
    failCommit (commitPass v (getJoint s slot)).s slot (commitPass v (getJoint s slot)).bad (commitPass v (getJoint s slot)).refused := by
  subst hv
  unfold beginCommit
  dsimp only
  rw [if_neg hf, if_neg (ne_false_of_eq_true hq), hb]
  exact if_pos hbad

theorem beginCommit_exhausted (hbad : (commitPass v (getJoint s slot)).bad = 0) (ht : 3 ≤ (getJoint s slot).prepTries) :
    beginCommit s slot h = failCommit v slot 0x0903 none := by
  subst hv
  unfold beginCommit
  dsimp only
  rw [if_neg hf, if_neg (ne_false_of_eq_true hq), hb]
  dsimp only
  rw [if_neg (not_not_intro hbad), if_pos ht]

theorem beginCommit_queues (hbad : (commitPass v (getJoint s slot)).bad = 0) (ht : (getJoint s slot).prepTries < 3) {w : State}
    (hw : w = prepareRules (queueCommit v slot v.now) (getJoint s slot)) : beginCommit s slot h =
      if w.life.debug ∨ (getJoint s slot).prep ≠ .none then w else modJoint w slot (fun j => { j with prep := .writing w.now }) := by
  subst hv hw
  unfold beginCommit
  dsimp only
  rw [if_neg hf, if_neg (ne_false_of_eq_true hq), hb]
  dsimp only
  rw [if_neg (not_not_intro hbad), if_neg (Nat.not_le.2 ht)]

end

/-- The commits in the order in which they begin, with one that begins now (R340). -/
def queueAt (s : State) (slot : Nat) : List Nat :=
  s.ctl.commits.filter (fun k => decide ((getJoint s k).beginT ≤ s.now)) ++ [slot]
    ++ s.ctl.commits.filter (fun k => !decide ((getJoint s k).beginT ≤ s.now))

/-- A commit that begins takes its place, and its prepare record begins where none has and the device is not in DEBUG (R340, R343). -/
theorem queueCommit_prepares (v : State) (slot : Nat) (j : Joint) (prep : Prep) (hp : (getJoint v slot).prep = prep) {w u : State}
    (hw : w = prepareRules (queueCommit v slot v.now) j)
    (hu : u = if w.life.debug ∨ prep ≠ .none then w else modJoint w slot (fun j => { j with prep := .writing w.now })) :
    u.ctl.commits = queueAt v slot ∧ (getJoint u slot).commit = (getJoint v slot).commit ∧ (getJoint u slot).beginT = v.now ∧
    u.outbox = v.outbox ∧ (getJoint u slot).prep = (if v.life.debug = true ∨ prep ≠ .none then prep else .writing v.now) ∧
    u.ctl.cfg = v.ctl.cfg ∧ u.ctl.epoch = v.ctl.epoch := by
  have hrules : w = { queueCommit v slot v.now with acu := w.acu } := by
    rw [hw, prepareRules_shadow]
  have hjoint : getJoint w slot = { getJoint v slot with beginT := v.now } := by
    rw [hrules]
    exact getJoint_setJoint_same _ _ _
  have hnow : w.now = v.now := by rw [hrules]; rfl
  have hdebug : w.life = v.life := by rw [hrules]; rfl
  have hrest : w.ctl.commits = queueAt v slot ∧ w.outbox = v.outbox ∧ w.ctl.cfg = v.ctl.cfg ∧ w.ctl.epoch = v.ctl.epoch := by
    rw [hrules]
    exact ⟨rfl, rfl, rfl, rfl⟩
  obtain ⟨hcommits, hout, hcfg, hepoch⟩ := hrest
  rw [hdebug, hnow] at hu
  by_cases hwrite : v.life.debug = true ∨ prep ≠ .none
  · rw [if_pos hwrite] at hu ⊢
    rw [hu, hjoint]
    exact ⟨hcommits, rfl, rfl, hout, hp, hcfg, hepoch⟩
  · rw [if_neg hwrite] at hu ⊢
    have hjoint' : getJoint u slot = { getJoint w slot with prep := .writing v.now } := by
      rw [hu]
      exact getJoint_setJoint_same _ _ _
    rw [hjoint', hjoint, hu]
    exact ⟨hcommits, rfl, rfl, hout, rfl, hcfg, hepoch⟩

/-- Settles O52: each message once its way is free, and a commit by what it meets as it begins. -/
theorem jointsSignAndCommit : Obligations.JointsSignAndCommit := by
  unfold Obligations.JointsSignAndCommit
  intro s t h role inst slot j
  have hwaits : ∀ behind cmd f, (pathFree s h.path = false ∨ (behind = true ∧ signsPending s h.path = true)) →
      kallekWord (at_ s t) h behind cmd f = stall (at_ s t) cmd := fun behind cmd f hw => kallekWord_waits (s := at_ s t) hw
  refine ⟨fun hf c sig => ⟨congrArg Host.Outcome.next (hwaits _ _ _ (.inl hf)),
      _, congrArg (fun w => Host.Outcome.next (settle w)) (hwaits _ _ _ (.inl hf)), settle_beside _⟩,
    fun hf => ⟨congrArg Host.Outcome.next (hwaits _ _ _ (hf.imp_right fun hs => ⟨rfl, hs⟩)),
      _, congrArg (fun w => Host.Outcome.next (settle w)) (hwaits _ _ _ (hf.imp_right fun hs => ⟨rfl, hs⟩)), settle_beside _⟩,
    fun hfree hg hret hrec => ?_⟩
  have hfirst : ∀ cmd f, kallekWord (at_ s t) h false cmd f = f (at_ s t) := fun cmd f => kallekWord_arrives (s := at_ s t) hfree (.inl rfl)
  have hafter : signsPending s h.path = false → ∀ cmd f, kallekWord (at_ s t) h true cmd f = f (at_ s t) := fun hs cmd f =>
    kallekWord_arrives (s := at_ s t) hfree (.inr hs)
  have hcommits : ∀ v, jointCommits (at_ s t) h = v → exec (.jointCommit t h) s = .next (settle v) := fun v hv =>
    congrArg (fun w => Host.Outcome.next (settle w)) ((hfirst _ _).trans hv)
  have haborts : signsPending s h.path = false → ∀ v, jointAborts (at_ s t) h = v → exec (.jointAbort t h) s = .next (settle v) :=
    fun hs v hv => congrArg (fun w => Host.Outcome.next (settle w)) ((hafter hs _ _).trans hv)
  refine ⟨fun hp => ⟨fun c sig => ?_, fun hs => ⟨?_, _, haborts hs _ ?_, settle_beside _⟩, fun hj => ⟨_, hcommits _ ?_, settle_beside _⟩⟩,
    fun hp => ⟨fun c sig hj => ?_, fun c sig hj => ?_, fun hs hj hc => ⟨_, haborts hs _ ?_, settle_beside _⟩, fun hs hj hc => ?_,
      fun hj => ⟨⟨_, hcommits _ ?_, settle_beside _⟩, fun hs => ⟨_, haborts hs _ ?_, settle_beside _⟩⟩, fun hs hj hsame => ?_, fun hs hj => ?_⟩,
    fun hj hc => ⟨_, hcommits _ ?_, settle_beside _⟩, fun hj hc w hw => ?_⟩
  · exact congrArg Host.Outcome.next ((hfirst _ _).trans (jointMsg_ready (s := at_ s t) hg hp))
  · exact congrArg Host.Outcome.next ((hafter hs _ _).trans (jointMsg_ready (s := at_ s t) hg hp))
  · exact jointMsg_ready (s := at_ s t) hg hp
  · refine (jointCommits_unreached (s := at_ s t) hg hj).trans ?_
    rw [if_pos (show (at_ s t).power.shutdown = 2 from hp)]
  · exact congrArg Host.Outcome.next ((hfirst _ _).trans (jointSigns_waits (s := at_ s t) hg hp hret hrec hj _ sig))
  · exact congrArg Host.Outcome.next ((hfirst _ _).trans (jointSigns_unreached (s := at_ s t) hg hp hret hrec hj _ sig))
  · exact jointAborts_late (s := at_ s t) hg hp hj hc
  · obtain ⟨hst, hrecs⟩ := abortJoint_ends (at_ s t) slot 3
    have hw := settle_within (emit (abortJoint (at_ s t) slot 3) (.kallek h 0x16 0 []))
    have hjoints : ∀ k, getJoint (settle (emit (abortJoint (at_ s t) slot 3) (.kallek h 0x16 0 []))) k = getJoint (abortJoint (at_ s t) slot 3) k :=
      fun k => getJoint_of_joints (hw.same (·.ctl.joints)) k
    refine ⟨_, haborts hs _ (jointAborts_aborts (s := at_ s t) hg hp hret hrec hj hc), (congrArg Joint.st (hjoints slot)).trans hst,
      (congrArg Joint.recs (hjoints slot)).trans hrecs, fun k hk => (hjoints k).trans (abortJoint_other (at_ s t) slot 3 hk), ?_, ?_⟩
    · rw [hw.same (·.outbox)]
      exact List.mem_append_right _ (List.mem_singleton.2 rfl)
    · exact (hw.same (·.ctl.cfg)).trans ((abortJoint_within (at_ s t) slot 3).same (·.ctl.cfg))
  · refine (jointCommits_unreached (s := at_ s t) hg hj).trans ?_
    rw [if_neg (show (at_ s t).power.shutdown ≠ 2 from hp)]
  · exact jointAborts_unreached (s := at_ s t) hg hp hj
  · exact congrArg Host.Outcome.next ((hafter hs _ _).trans (jointStates_answered (s := at_ s t) hg hp hrec hj hsame))
  · exact congrArg Host.Outcome.next ((hafter hs _ _).trans (jointStates_unreached (s := at_ s t) hg hp hj))
  · exact jointCommits_again (s := at_ s t) hg hj hc
  have hjoint : getJoint w slot = { j with lastMsg := (at_ s t).now } := by
    subst hw
    exact getJoint_setJoint_same _ _ _
  have hquorum : quorumPresent w (getJoint w slot) = quorumPresent w j := by rw [hjoint]; rfl
  have hwcfg : w.ctl.cfg = s.ctl.cfg ∧ w.ctl.epoch = s.ctl.epoch ∧ w.outbox = s.outbox ∧ w.ctl.commits = s.ctl.commits := by
    subst hw
    exact ⟨rfl, rfl, rfl, rfl⟩
  obtain ⟨hcfg, hepoch, hout, hlist⟩ := hwcfg
  have hforbid : ∀ {b : Bool}, cutForbidden s = b → cutForbidden w = b := by subst hw; exact fun h => h
  have hshut : w.power.shutdown = s.power.shutdown := by subst hw; rfl
  have hbegins : (j.verifying = [] ∨ quorumPresent w j = true) → ∀ v, beginCommit w slot h = v → exec (.jointCommit t h) s = .next (settle v) :=
    fun hready v hv => by
      refine hcommits _ ((jointCommits_own (s := at_ s t) hg hrec hj hc hw).trans ((if_pos ?_).trans hv))
      unfold commitReady
      rw [hquorum, hjoint]
      rcases hready with hv | hq
      · rw [hv]; rfl
      · rw [hq, Bool.or_true]
  have hfree' : cutForbidden s = false → s.power.shutdown ≠ 2 → ¬(cutForbidden w = true ∨ w.power.shutdown = 2) := fun hf hp =>
    not_or.2 ⟨ne_true_of_eq_false (hforbid hf), hshut ▸ hp⟩
  have hsettled : ∀ v : State, ∀ k, getJoint (settle v) k = getJoint v k := fun v k => getJoint_of_joints ((settle_within v).same (·.ctl.joints)) k
  have hdeclined : ∀ st, (j.verifying = [] ∨ quorumPresent w j = true) → beginCommit w slot h = declineCommit w slot h st →
      ∃ u, exec (.jointCommit t h) s = .next u ∧ (getJoint u slot).st = j.st ∧ (getJoint u slot).commit = none ∧
        u.outbox = s.outbox ++ [.kallek h 0x15 st []] ∧ u.ctl.cfg = s.ctl.cfg ∧ u.ctl.epoch = s.ctl.epoch := fun st hready hb => by
    obtain ⟨hst, hnone, hsent, hc, he⟩ := declineCommit_settled w slot h st
    exact ⟨_, hbegins hready _ hb, hst.trans (by rw [hjoint]), hnone, by rw [hsent, hout], hc.trans hcfg, he.trans hepoch⟩
  obtain ⟨v, hv⟩ : ∃ v, v = modJoint w slot (fun j => { j with commit := some h }) := ⟨_, rfl⟩
  have hvjoint : getJoint v slot = { j with lastMsg := (at_ s t).now, commit := some h } := by
    rw [hv]
    exact (getJoint_setJoint_same _ _ _).trans (by rw [hjoint])
  have hbad : jointBad v slot = jointBad w slot := by
    unfold jointBad
    rw [hvjoint, hjoint, hv]
    rfl
  have hvcfg : v.ctl.cfg = s.ctl.cfg ∧ v.ctl.epoch = s.ctl.epoch := by
    rw [hv]
    exact ⟨hcfg, hepoch⟩
  have hfailed : ∀ {v' : State} (st refused), Within passScope v v' → quorumPresent w j = true →
      beginCommit w slot h = failCommit v' slot st refused → ∃ u, exec (.jointCommit t h) s = .next u ∧ (getJoint u slot).st = 3 ∧
        (getJoint u slot).final = st ∧ (.kallek h 0x15 st []) ∈ u.outbox ∧ (∀ x ∈ j.verifying, (.kallek x.2.2 0x14 0x0902 []) ∈ u.outbox) ∧
        u.ctl.cfg = s.ctl.cfg ∧ u.ctl.epoch = s.ctl.epoch := fun {v'} st refused hpass hq hb => by
    obtain ⟨hst, hfin, hreply, hsigns, hc, he⟩ := failCommit_settled v slot st refused hpass
    rw [hvjoint] at hreply hsigns
    exact ⟨_, hbegins (.inr hq) _ hb, hst, hfin, hreply h rfl, hsigns, hc.trans hvcfg.1, he.trans hvcfg.2⟩
  refine ⟨fun hne hq => ?_, fun hready hstop => ?_, fun hv hq hf hp => ?_, fun key hb hq hf hp => ?_, fun hb hq hf hp p hpass => ?_⟩
  · have hwait : commitReady w slot = false := by
      unfold commitReady
      rw [hquorum, hq, hjoint, Bool.or_false]
      exact eq_false_of_ne_true (fun h => hne (List.isEmpty_iff.1 h))
    refine ⟨_, hcommits _ ((jointCommits_own (s := at_ s t) hg hrec hj hc hw).trans (if_neg (ne_true_of_eq_false hwait))), ?_, ?_, ?_⟩
    · rw [hsettled]
      exact (getJoint_setJoint_same _ _ _).trans (by rw [hjoint])
    · exact ((settle_within _).same (·.outbox)).trans hout
    · exact ((settle_within _).same (·.ctl.commits)).trans hlist
  · refine hdeclined _ hready (beginCommit_forbidden (hstop.imp (fun hf => hforbid hf) (fun hp => hshut.trans hp)))
  · exact hdeclined _ (.inl hv) (beginCommit_unsigned (hfree' hf hp) (hquorum.trans hq))
  all_goals have hquorum' : quorumPresent w (getJoint w slot) = true := hquorum.trans hq
  · obtain ⟨u, hu, hst, hfin, hreply, -, hc, he⟩ := hfailed (v' := jointMismatch v key) _ none
      ((raiseFabric_within v _ _ _).mono rfl) hq (beginCommit_mismatch (hfree' hf hp) hquorum' hv (hbad.trans hb))
    exact ⟨u, hu, hst, hfin, hreply, hc, he⟩
  · have hpass' : p = commitPass v (getJoint w slot) := by
      rw [hpass, hjoint, hv]
      unfold modJoint
      rw [hjoint]
    have hb' := hbad.trans hb
    subst hpass'
    refine ⟨fun hne => ?_, fun hz ht => ?_, fun hz ht => ?_⟩
    · exact hfailed _ _ (commitPass_within v _) hq (beginCommit_fails (hfree' hf hp) hquorum' hv hb' hne)
    · have hbegin := beginCommit_queues (hfree' hf hp) hquorum' hv hb' hz (by rw [hjoint]; exact ht) rfl
      have hprep : (getJoint v slot).prep = (getJoint w slot).prep := by rw [hvjoint, hjoint]
      obtain ⟨hq', hcom, htime, hsent, hprep', hcfg', hep'⟩ := queueCommit_prepares v slot (getJoint w slot) _ hprep rfl rfl
      rw [← hbegin] at hq' hcom htime hsent hprep' hcfg' hep'
      have hw' := settle_within (beginCommit w slot h)
      have horder : queueAt v slot = s.ctl.commits.filter (fun k => decide ((getJoint w k).beginT ≤ (at_ s t).now)) ++ [slot]
          ++ s.ctl.commits.filter (fun k => !decide ((getJoint w k).beginT ≤ (at_ s t).now)) := by
        have htimes : ∀ k, (getJoint v k).beginT = (getJoint w k).beginT := fun k => by
          by_cases hk : k = slot
          · rw [hk, hvjoint, hjoint]
          · rw [hv]
            exact congrArg Joint.beginT (getJoint_setJoint_other _ _ _ _ hk)
        have hnow : v.now = (at_ s t).now := by rw [hv, hw]; rfl
        have hlist' : v.ctl.commits = s.ctl.commits := by rw [hv]; exact hlist
        unfold queueAt
        simp only [htimes, hnow, hlist']
      refine ⟨_, hbegins (.inr hq) _ rfl, ?_, ?_, ?_, ?_, ?_, ?_, ?_⟩
      · rw [hw'.same (·.ctl.commits), hq', horder]
      · rw [hsettled, hcom, hvjoint]
      · rw [hsettled, htime, hv, hw]; rfl
      · rw [hw'.same (·.outbox), hsent, hv]; exact hout
      · rw [hsettled, hprep', hjoint, hv, hw]; rfl
      · rw [hw'.same (·.ctl.cfg), hcfg', hv]; exact hcfg
      · rw [hw'.same (·.ctl.epoch), hep', hv]; exact hepoch
    · obtain ⟨u, hu, hst, hfin, -, -, hc, he⟩ := hfailed _ none (.refl v) hq
        (beginCommit_exhausted (hfree' hf hp) hquorum' hv hb' hz (by rw [hjoint]; exact ht))
      exact ⟨u, hu, hst, hfin, hc, he⟩

end Sys2Proof.Machine
end

section
/-! SUPPORT. What stands through a joint's cut and its triggers: the configuration and the epoch of the cut (R341, R343). -/

namespace Sys2Proof.Machine

-- One proof at a time: the check bounds the compiler's threads.
set_option Elab.async false

open Sys2Proof Sys2Proof.Safety

/-- Configuration and epoch in force stand. -/
def KeepsCfg (s u : State) : Prop := u.ctl.cfg = s.ctl.cfg ∧ u.ctl.epoch = s.ctl.epoch

section
variable {s u v : State}

theorem KeepsCfg.refl (s : State) : KeepsCfg s s := ⟨rfl, rfl⟩

theorem KeepsCfg.trans (h : KeepsCfg s u) (h' : KeepsCfg u v) : KeepsCfg s v := ⟨h'.1.trans h.1, h'.2.trans h.2⟩

theorem KeepsCfg.ite {c : Prop} [Decidable c] (hu : KeepsCfg s u) (hv : KeepsCfg s v) : KeepsCfg s (if c then u else v) := by
  split <;> assumption

theorem KeepsCfg.each {α : Type} {f : State → α → State} (h : ∀ s a, KeepsCfg s (f s a)) (xs : List α) (s : State) :
    KeepsCfg s (Machine.each xs s f) :=
  each_keeps (P := fun w => KeepsCfg s w) (fun w a hw => hw.trans (h w a)) xs (.refl s)

/-- A scope without the custody controller's tables keeps them. -/
theorem Within.keepsCfg {F : Scope} (h : Within F s u) (hF : F.ctl = false := by rfl) : KeepsCfg s u := by
  have e := congrArg State.ctl h
  simp only [graft, Scope.onCtl, hF, pick, cond_false] at e
  rw [KeepsCfg, e]
  exact ⟨rfl, rfl⟩

end

section
variable (s : State)

/-! ## Resets and freezes at a cut (R309, R310) -/

theorem answerIdle_within (i : Nat) : Within { insts := true, outbox := true } s (answerIdle s i) := by
  unfold answerIdle
  refine .each (fun w e => ?_) _ s
  split
  · exact ((answerHeld_within w _ _).mono rfl).then (modInst_within _ _ _)
  · exact .refl w

theorem squashAll_within (i : Nat) : Within cutShortScope s (squashAll s i) := by
  have hcovered : Within cutShortScope s (endAllCovered s i) :=
    .each (fun w o => (completeRing_within w _ _ _ _ _ _ _ _).mono rfl) _ s
  exact (hcovered.trans (endAdmitted_within _ i _)).trans (endLines_within _ i _)

theorem requestReset_within (i : Nat) (squash : Bool) : Within cutShortScope s (requestReset s i squash) := by
  unfold requestReset
  dsimp only
  split
  · exact .refl s
  · split
    next r _ =>
      split
      · exact ((modInst_within s i _).mono rfl).trans (squashAll_within _ i)
      · exact .refl s
    next =>
      have hidle : ∀ f, Within cutShortScope s (answerIdle (modInst s i f) i) := fun f =>
        ((modInst_within s i f).mono rfl).then (answerIdle_within _ i)
      split
      · exact (hidle _).trans (squashAll_within _ i)
      · exact hidle _

theorem writeFreeze_within (i v : Nat) : Within { insts := true } s (writeFreeze s i v) := by
  unfold writeFreeze
  dsimp only
  split
  · exact .ite (modInst_within s i _) (.ite (modInst_within s i _) (.refl s))
  · exact .ite (modInst_within s i _) (.refl s)

theorem actInst_keeps (i sub v : Nat) : KeepsCfg s (actInst s i sub v) := by
  unfold actInst
  split
  · exact (requestReset_within s i _).keepsCfg
  · exact (writeFreeze_within s i v).keepsCfg
  · exact (modInst_within s i _).keepsCfg
  · exact .refl s

/-! ## Alarms and random settings at a cut -/

theorem alarmAck_keeps (holding serial : Nat) : KeepsCfg s (alarmAck s holding serial) := by
  have hmon : ∀ w m, KeepsCfg w (ackMonitor w holding m) := fun w m => by
    unfold ackMonitor
    split
    · exact .refl w
    · split
      · exact (modMon_within w m _).keepsCfg
      · exact .ite ⟨rfl, rfl⟩ ⟨rfl, rfl⟩
  have hrandom : ∀ w, KeepsCfg w (ackRandom w) := fun w => by
    unfold ackRandom
    split
    · exact .refl w
    · dsimp only
      split
      · exact (show KeepsCfg w _ from ⟨rfl, rfl⟩).trans (randomAlarm_within _ _ _).keepsCfg
      · exact ⟨rfl, rfl⟩
  have hacked : ∀ c, KeepsCfg s (ackRandom (each (upTo 14) { s with backup := { s.backup with contact := c } }
      (fun s m => ackMonitor s holding m))) := fun c =>
    ((show KeepsCfg s { s with backup := { s.backup with contact := c } } from ⟨rfl, rfl⟩).trans (.each hmon _ _)).trans (hrandom _)
  unfold alarmAck
  dsimp only
  specialize hacked (!bitOf holding 8)
  generalize ackRandom (each (upTo 14) { s with backup := { s.backup with contact := !bitOf holding 8 } }
    (fun s m => ackMonitor s holding m)) = v at hacked ⊢
  refine KeepsCfg.trans ?_ (record_within _ _ _ _).keepsCfg
  exact hacked.trans (.ite ⟨rfl, rfl⟩ ⟨rfl, rfl⟩)

theorem requestTest_keeps (m : Nat) : KeepsCfg s (requestTest s m) := by
  unfold requestTest
  exact .ite ⟨rfl, rfl⟩ ⟨rfl, rfl⟩

theorem requestKat_keeps (v : Nat) : KeepsCfg s (requestKat s v) := by
  unfold requestKat
  exact .ite ⟨rfl, rfl⟩ (.ite (closeBay_within s _ _).keepsCfg (.refl s))

theorem writeCapture_keeps (v : Nat) : KeepsCfg s (writeCapture s v) := by
  unfold writeCapture
  extract_lets back s1
  have h1 : KeepsCfg s s1 := by
    show KeepsCfg s (match s.random.capture with
      | some n => if n = v then s else back s n
      | none => s)
    split
    · exact .ite (.refl s) (modChan_within s _ _).keepsCfg
    · exact .refl s
  refine .ite (.ite h1 ?_) (h1.trans ⟨rfl, rfl⟩)
  exact (h1.trans (u := s1) (show KeepsCfg s1 _ from ⟨rfl, rfl⟩)).trans (checkConditioner_within _).keepsCfg

/-! ## Logs, heads, records and firmware at a cut -/

theorem resetJournal_keeps : KeepsCfg s (resetJournal s) := by
  unfold resetJournal
  refine KeepsCfg.ite ⟨rfl, rfl⟩ (KeepsCfg.trans ?_ (snapshotJournal_within _).keepsCfg)
  exact ⟨rfl, rfl⟩

theorem resetKeyLog_keeps : KeepsCfg s (resetKeyLog s) := by
  unfold resetKeyLog
  refine KeepsCfg.ite ⟨rfl, rfl⟩ (KeepsCfg.trans ?_ (snapshotKeys_within _).keepsCfg)
  exact ⟨rfl, rfl⟩

theorem resetCfgLog_keeps : KeepsCfg s (resetCfgLog s) := by
  unfold resetCfgLog
  refine KeepsCfg.ite ⟨rfl, rfl⟩ (KeepsCfg.trans ?_ (freshCfgLog_within _).keepsCfg)
  exact ⟨rfl, rfl⟩

theorem trainHeads_within : Within { heads := true } s (trainHeads s) :=
  .each (f := fun s h => if (getHead s h).perst ∨ (getHead s h).st ≠ 0 then s else modHead s h (fun x => { x with st := 1 }))
    (fun w h => .ite (.refl w) (modHead_within w h _)) _ s

theorem applySplit_keeps : KeepsCfg s (applySplit s) := by
  unfold applySplit
  refine KeepsCfg.ite (KeepsCfg.ite (KeepsCfg.trans ?_ (trainHeads_within _).keepsCfg) ⟨rfl, rfl⟩) (.refl s)
  exact ⟨rfl, rfl⟩

theorem clearEvents_keeps (serial : Nat) : KeepsCfg s (clearEvents s serial) := by
  unfold clearEvents
  refine KeepsCfg.trans ?_ (record_within _ _ _ _).keepsCfg
  exact ⟨rfl, rfl⟩

theorem openWindow_keeps : KeepsCfg s (openWindow s) := by
  unfold openWindow
  exact .ite ⟨rfl, rfl⟩ (.refl s)

theorem setSource_keeps (src : Bytes) : KeepsCfg s (setSource s src) := by
  unfold setSource
  refine KeepsCfg.ite ((KeepsCfg.trans ?_ (noteMark_within _).keepsCfg).trans (sourceRead_within _ _ _).keepsCfg) ⟨rfl, rfl⟩
  exact ⟨rfl, rfl⟩

theorem startChallenge_keeps (scope : Nat) : KeepsCfg s (startChallenge s scope) := by
  unfold startChallenge
  refine KeepsCfg.trans ?_ (requestSeed_within _ _ _ _).keepsCfg
  exact ⟨rfl, rfl⟩

/-! ## Life cycle transitions and DEBUG at a cut (R294, R358, R398) -/

theorem takeActions_keepsCfg (done cls : Nat) : KeepsCfg s (takeActions s done cls) := by
  rw [takeActions_order]
  exact (((workEnded_within s done cls).keepsCfg.trans (vaultTaken_within _ done cls).keepsCfg).trans
    (slotsTaken_within _ done cls).keepsCfg).trans (afterSlots_within done cls _).keepsCfg

theorem executeUnlatched_keeps (cls : Nat) : KeepsCfg s (executeUnlatched s cls) :=
  (takeActions_keepsCfg s _ cls).trans ⟨rfl, rfl⟩

theorem startTransition_keeps (target serial : Nat) : KeepsCfg s (startTransition s target serial) := by
  unfold startTransition
  extract_lets s1 src s2
  have h1 : KeepsCfg s s1 := (record_within s _ _ _).keepsCfg
  have h2 : KeepsCfg s s2 := .ite h1 (h1.trans ⟨rfl, rfl⟩)
  exact .ite ((h2.trans (executeUnlatched_keeps s2 4)).trans (beginTransition_within _ _).keepsCfg)
    (.ite (h2.trans (executeUnlatched_keeps s2 5)) (h2.trans (beginTransition_within _ _).keepsCfg))

theorem substitute_keeps (nonce : Bytes) : KeepsCfg s (substitute s nonce) := by
  have hflash : KeepsCfg s (leaveFlash s) := ⟨rfl, rfl⟩
  have hwork := hflash.trans (clearWork_within (leaveFlash s)).keepsCfg
  have hcaches : ∀ w, KeepsCfg w (clearCaches (clearSlots w)) := fun _ => ⟨rfl, rfl⟩
  have hwipe : ∀ w, KeepsCfg w (wipeOperands w) := fun w => .each (fun w b => (modBay_within w b _).keepsCfg) _ w
  have hroot : ∀ w : State, ∀ root, KeepsCfg w (setIdentity { w with keys := { w.keys with subst := some root, debugKum := [] } } root) :=
    fun _ _ => ⟨rfl, rfl⟩
  exact (((hwork.trans (hcaches _)).trans (hwipe _)).trans (reinstantiate_within _).keepsCfg).trans (hroot _ _)

theorem enterDebug_keeps (own scope : Nat) (nonce : Bytes) : KeepsCfg s (enterDebug s own scope nonce) := by
  unfold enterDebug
  have habort : KeepsCfg s (each ((openJoints s).filter (fun e => e.1 != own)) s (fun s e => abortJoint s e.1 2)) :=
    KeepsCfg.each (f := fun (s : State) (e : Nat × Joint) => abortJoint s e.1 2) (fun w e => (abortJoint_within w e.1 2).keepsCfg) _ s
  have hlife : ∀ w : State, KeepsCfg w { w with life := { w.life with debug := true, scope := scope, chal := none } } := fun _ => ⟨rfl, rfl⟩
  exact ((habort.trans (substitute_keeps _ nonce)).trans (hlife _)).trans (record_within _ _ _ _).keepsCfg

/-! ## The triggers of a cut (R341) -/

theorem act_keeps (slot holding : Nat) (j : Joint) (r : JRec) : KeepsCfg s (act s slot holding j r) := by
  unfold act
  dsimp only
  refine .ite (actInst_keeps s _ _ _) (.ite (requestTest_keeps s _) ?_)
  split
  · exact ⟨rfl, rfl⟩
  · exact resetCfgLog_keeps s
  · exact alarmAck_keeps s _ _
  · exact requestKat_keeps s _
  · exact writeCapture_keeps s _
  · exact ⟨rfl, rfl⟩
  · exact resetJournal_keeps s
  · exact resetKeyLog_keeps s
  · exact applySplit_keeps s
  · exact startTransition_keeps s _ _
  · exact startChallenge_keeps s _
  · exact enterDebug_keeps s _ _ _
  · exact ⟨rfl, rfl⟩
  · exact setSource_keeps s _
  · exact .ite (.refl s) ⟨rfl, rfl⟩
  · exact clearEvents_keeps s _
  · exact openWindow_keeps s
  · exact .refl s

/-! ## The state of a cut -/

theorem removeSlots_within (i n : Nat) : Within { insts := true, outbox := true } s (removeSlots s i n) := by
  unfold removeSlots
  exact .each (fun w e => .ite ((modInst_within w i _).mono rfl) (((answerHeld_within w _ _).mono rfl).then (modInst_within _ i _))) _ s

theorem keptInst_within (c0 c1 : Cfg) (i : Nat) : Within { insts := true, outbox := true } s (keptInst s c0 c1 i) := by
  have hmoved : Within { insts := true, outbox := true } s
      (if instLd c0 i ≠ instLd c1 i ∨ instArea c0 i ≠ instArea c1 i then answerIdle s i else s) := .ite (answerIdle_within s i) (.refl s)
  have hslots := hmoved.trans (Within.ite (c := inlineSlots c1 i < inlineSlots c0 i) (removeSlots_within _ i (inlineSlots c1 i)) (.refl _))
  unfold keptInst
  exact hslots.then (modInst_within _ i _)

theorem cutInst_keeps (c0 c1 : Cfg) (i : Nat) : KeepsCfg s (cutInst s c0 c1 i) := by
  have hidle := (answerIdle_within s i).keepsCfg
  unfold cutInst
  have horphan : ∀ w, KeepsCfg w (orphanTokens w i) := fun _ => ⟨rfl, rfl⟩
  have hreleased : ∀ x, KeepsCfg s (setInst (orphanTokens (answerIdle s i) i) i x) := fun x =>
    (hidle.trans (horphan _)).trans (setInst_within _ i x).keepsCfg
  exact KeepsCfg.ite (KeepsCfg.ite (KeepsCfg.refl s) (hreleased _))
    (KeepsCfg.ite (modInst_within s i _).keepsCfg (keptInst_within s c0 c1 i).keepsCfg)

/-- A derivation-cache entry that a restore brings, at its place (R322). -/
def derivCarried (w : State) (q : RestoreReq) (d : Nat × Deriv) : State :=
  { w with keys := { w.keys with deriv := mput w.keys.deriv (q.termBase + d.1) { d.2 with tenant := q.tenant, bdkGen := (slotAt w d.2.bdk).gen } } }

theorem moveCut_keeps (before : State) (items : List ItemOut) (quorum : Bool) (r : JRec) : KeepsCfg s (moveCut before items quorum s r) := by
  unfold moveCut
  refine .ite ⟨rfl, rfl⟩ (.ite ?_ (.refl s))
  split
  next q k _ =>
    unfold restoreCut
    extract_lets cfg tail ss sub core s1 s2
    have h1 : KeepsCfg s s1 := .each (fun w d => (show KeepsCfg w (derivCarried w q d) from ⟨rfl, rfl⟩).trans
      (writeWords_within (derivCarried w q d) _ _ _).keepsCfg) _ s
    have h2 : KeepsCfg s s2 := h1.trans (setKumCounter_within s1 _ _).keepsCfg
    exact h2.trans (modInst_within s2 _ _).keepsCfg
  next => exact .refl s

theorem writeRoutes_keeps (r : Routes) : KeepsCfg s (writeRoutes s r) := by
  unfold writeRoutes
  extract_lets blocks arrays s1 s2
  have h1 : KeepsCfg s s1 := .each (fun w n => (writeWords_within w _ _ _).keepsCfg) _ s
  have h2 : KeepsCfg s s2 := h1.trans (.each (fun w n => (writeWords_within w _ _ _).keepsCfg) _ s1)
  exact h2.trans ⟨rfl, rfl⟩

theorem refillAll_keeps : KeepsCfg s (refillAll s) := by
  have h : KeepsCfg s (each ((s.insts.filter (fun e => e.2.st != 0)).map (·.1)) s refill) :=
    .each (fun w i => (refill_within w i).keepsCfg) _ s
  exact h.trans ⟨rfl, rfl⟩

/-- What follows the new configuration and its routes at a cut: instances, buckets, random settings, keys, saves and restores. -/
theorem cutEffects_keep (before : State) (c0 c1 : Cfg) (e : Nat) (j : Joint) (items : List ItemOut) {w : State}
    (h : (applyItems (randomSettings (holdBuckets (each (cutInsts s c1) s (fun s i => cutInst s c0 c1 i)) c0) c0) e items).map (fun s =>
      freeShelf (bumpBy (each (actingWrites j) s (moveCut before items j.quorum)) (odKey 0x6002 4)
        (j.recs.filter (fun r => r.kind == 3)).length)) = some w) : KeepsCfg s w := by
  obtain ⟨v, hv, rfl⟩ := Option.map_eq_some_iff.1 h
  have hinsts : KeepsCfg s (each (cutInsts s c1) s (fun s i => cutInst s c0 c1 i)) := .each (fun w i => cutInst_keeps w c0 c1 i) _ s
  have hbuckets : ∀ x, KeepsCfg x (holdBuckets x c0) := fun _ => ⟨rfl, rfl⟩
  have hitems := ((hinsts.trans (hbuckets _)).trans (randomSettings_within _ c0).keepsCfg).trans (applyItems_within hv).keepsCfg
  have hmoves := hitems.trans (.each (fun w r => moveCut_keeps w before items j.quorum r) (actingWrites j) v)
  exact (hmoves.trans (bumpBy_within _ _ _).keepsCfg).trans (freeShelf_within _).keepsCfg

/-- The state of a cut holds the epoch after the one in force. -/
theorem cutState_epoch {j : Joint} {items : List ItemOut} {w : State} (h : cutState s j items = some w) : w.ctl.epoch = s.ctl.epoch + 1 := by
  have hadvance : (advanceEpoch (refillAll s)).ctl.epoch = s.ctl.epoch + 1 := congrArg (· + 1) (refillAll_keeps s).2
  unfold cutState at h
  dsimp only at h
  split at h
  · cases h
  · exact ((cutEffects_keep _ _ _ _ _ _ _ h).2.trans (writeRoutes_keeps _ _).2).trans hadvance

/-! ## The cut of a joint (R341, R343) -/

/-- What a cut leaves once its triggers have acted: its configuration and epoch stand, its joint is COMMITTED with that epoch, and its
commit waits no more. -/
theorem cutJoint_commits (b : State) (slot holding : Nat) (j : Joint) (h : KHdr) : KeepsCfg s (cutJoint b s slot holding j h) ∧
    (getJoint (cutJoint b s slot holding j h) slot).st = 2 ∧
    (getJoint (cutJoint b s slot holding j h) slot).cutEpoch = s.ctl.epoch ∧ slot ∉ (cutJoint b s slot holding j h).ctl.commits := by
  have hring : KeepsCfg s (ringCut s j.serial) := by
    unfold ringCut
    exact .ite (.refl s) ⟨rfl, rfl⟩
  have hacts := hring.trans (.each (fun w r => act_keeps w slot holding j r) (actingWrites j) (ringCut s j.serial))
  unfold cutJoint
  dsimp only
  generalize each (actingWrites j) (ringCut s j.serial) (fun s r => act s slot holding j r) = x at hacts ⊢
  have hnoted := hacts.trans (commitRecord_within x slot 0 x.ctl.epoch).keepsCfg
  generalize commitRecord x slot 0 x.ctl.epoch = y at hnoted ⊢
  have hend : KeepsCfg s (endJoint y slot b.life.debug) :=
    hnoted.trans ((answerSigns_within y (getJoint y slot)).keepsCfg.trans ⟨rfl, rfl⟩)
  have hjoint : (getJoint (endJoint y slot b.life.debug) slot).st = 2 ∧ (getJoint (endJoint y slot b.life.debug) slot).cutEpoch = y.ctl.epoch := by
    unfold endJoint closeJoint modJoint
    rw [getJoint_setJoint_same, getJoint_setJoint_same]
    exact ⟨rfl, rfl⟩
  have hgone : slot ∉ (endJoint y slot b.life.debug).ctl.commits := fun hmem => by
    have := (List.mem_filter.1 hmem).2
    simp at this
  have hreply : Within { acu := true, outbox := true } (endJoint y slot b.life.debug) (commitReply (endJoint y slot b.life.debug) b h) := by
    unfold commitReply
    exact .ite rfl ((kReply_within _ _ _ _ _).mono rfl)
  have hrest := (hreply.mono (G := { fw := true, vault := true, acu := true, outbox := true }) rfl).then (tryBegin_within _)
  refine ⟨hend.trans hrest.keepsCfg, ?_, ?_, ?_⟩
  · rw [getJoint_of_joints (hrest.same (·.ctl.joints))]
    exact hjoint.1
  · rw [getJoint_of_joints (hrest.same (·.ctl.joints)), hjoint.2]
    exact hnoted.2
  · rw [hrest.same (·.ctl.commits)]
    exact hgone

end

end Sys2Proof.Machine
end

section
/-! SUPPORT. The cut of a joint, and what islands, log, digests and plumb check show of it (R341 to R348). -/

namespace Sys2Proof.Machine

-- One proof at a time: the check bounds the compiler's threads.
set_option Elab.async false

open Sys2Proof Sys2Proof.Safety

/-! ## What a cut meets (R340, R341) -/

section
variable {s : State} {slot holding : Nat}

theorem jointCuts_waits (h : (getJoint s slot).commit = none ∨ mayCut s slot = false) : jointCuts s slot holding = s := by
  unfold jointCuts
  dsimp only
  split
  next hd hc => exact if_pos (h.resolve_left (fun hn => absurd (hc.symm.trans hn) (by simp)))
  next => rfl

variable {h : KHdr} (hc : (getJoint s slot).commit = some h) (hm : mayCut s slot = true)
include hc hm

theorem jointCuts_mismatch {key : Nat} (hb : jointBad s slot = some key) :
    jointCuts s slot holding = failCommit (jointMismatch s key) slot 0x0801 none := by
  unfold jointCuts
  dsimp only
  rw [hc]
  dsimp only
  rw [if_neg (ne_false_of_eq_true hm), hb]

variable (hb : jointBad s slot = none) {p : Pass} (hp : p = commitPass s (getJoint s slot))
include hb hp

/-- A cut whose records are whole goes by its pass. -/
theorem jointCuts_passes : jointCuts s slot holding =
    if p.bad ≠ 0 then failCommit p.s slot p.bad p.refused
    else if stageRoom p.s (itemPosts p.items) = false then s
    else (cutState p.s (getJoint s slot) p.items).elim (failCommit p.s slot 0x0602 none)
      (fun w => cutJoint p.s w slot holding (getJoint s slot) h) := by
  subst hp
  unfold jointCuts
  dsimp only
  split
  next h' hc' =>
    cases hc.symm.trans hc'
    rw [if_neg (ne_false_of_eq_true hm), hb]
    dsimp only
    cases cutState (commitPass s (getJoint s slot)).s (getJoint s slot) (commitPass s (getJoint s slot)).items <;> rfl
  next hn => exact absurd (hc.symm.trans hn) (by simp)

theorem jointCuts_fails (hbad : p.bad ≠ 0) : jointCuts s slot holding = failCommit p.s slot p.bad p.refused :=
  (jointCuts_passes hc hm hb hp).trans (if_pos hbad)

variable (hbad : p.bad = 0)
include hbad

theorem jointCuts_full (hr : stageRoom p.s (itemPosts p.items) = false) : jointCuts s slot holding = s :=
  (jointCuts_passes hc hm hb hp).trans ((if_neg (not_not_intro hbad)).trans (if_pos hr))

variable (hr : stageRoom p.s (itemPosts p.items) = true)
include hr

theorem jointCuts_roomless (hn : cutState p.s (getJoint s slot) p.items = none) :
    jointCuts s slot holding = failCommit p.s slot 0x0602 none := by
  rw [jointCuts_passes hc hm hb hp, if_neg (not_not_intro hbad), if_neg (ne_false_of_eq_true hr), hn]
  rfl

theorem jointCuts_cuts {w : State} (hw : cutState p.s (getJoint s slot) p.items = some w) :
    jointCuts s slot holding = cutJoint p.s w slot holding (getJoint s slot) h := by
  rw [jointCuts_passes hc hm hb hp, if_neg (not_not_intro hbad), if_neg (ne_false_of_eq_true hr), hw]
  rfl

end

/-! ## Cut records (R343) -/

section
variable {s : State}

theorem markDurable_log (js : Map Joint) (w : State) :
    Within { joints := true } w (each js w (fun s e => modJoint s e.1 (fun j => { j with durable := true }))) :=
  .each (f := fun s (e : Nat × Joint) => modJoint s e.1 (fun j => { j with durable := true })) (fun w e => modJoint_within w e.1 _) js w

theorem compactCfg_short (h : s.ctl.cfgLogUsed < 1200 ∨ s.life.debug = true) : compactCfg s = s := if_pos h

theorem compactCfg_full (hn : 1200 ≤ s.ctl.cfgLogUsed) (hd : s.life.debug = false) : compactCfg s = freshCfgLog s :=
  if_neg (not_or.2 ⟨Nat.not_lt.2 hn, ne_true_of_eq_false hd⟩)

theorem appendCfgLog_log (e : CfgEntry) :
    (s.life.debug = true ∨ s.ctl.cfgLogUsed + entrySegments s e < 1200 → (appendCfgLog s e).ctl.cfgLog = s.ctl.cfgLog ++ [e]) ∧
    (s.life.debug = false → 1200 ≤ s.ctl.cfgLogUsed + entrySegments s e →
      (appendCfgLog s e).ctl.cfgLog.head? = some (.snapshot s.ctl.cfg s.ctl.epoch)) := by
  have happ : ∃ v, appendCfgLog s e = compactCfg v ∧ v.ctl.cfgLogUsed = s.ctl.cfgLogUsed + entrySegments s e ∧ v.life = s.life ∧
      v.ctl.cfgLog = s.ctl.cfgLog ++ [e] ∧ v.ctl.cfg = s.ctl.cfg ∧ v.ctl.epoch = s.ctl.epoch := ⟨_, rfl, rfl, rfl, rfl, rfl, rfl⟩
  obtain ⟨v, hv, hused, hlife, hlog, hcfg, hepoch⟩ := happ
  rw [hv, ← hused, ← hlife, ← hlog, ← hcfg, ← hepoch]
  refine ⟨fun h => ?_, fun hd hn => ?_⟩
  · rw [compactCfg_short h.symm]
  · rw [compactCfg_full hn hd]
    rfl

variable {r : CutRec} {rest : List CutRec} (hr : s.ctl.cutRing = r :: rest) (hrep : s.fw.replacing ≠ some 1) (hp : s.power.pwrGood = true)
include hr hrep hp

theorem cutDurable_stands : (cutDurable s).ctl.cutRing = rest ∧ (cutDurable s).ctl.cfg = s.ctl.cfg ∧
    (s.life.debug = true ∨ s.ctl.cfgLogUsed + entrySegments s (.cut r.epoch r.serial) < 1200 →
      (cutDurable s).ctl.cfgLog = s.ctl.cfgLog ++ [.cut r.epoch r.serial]) ∧
    (s.life.debug = false → 1200 ≤ s.ctl.cfgLogUsed + entrySegments s (.cut r.epoch r.serial) →
      (cutDurable s).ctl.cfgLog.head? = some (.snapshot s.ctl.cfg s.ctl.epoch)) := by
  have happ := appendCfgLog_within { s with ctl := { s.ctl with cutRing := rest } } (.cut r.epoch r.serial)
  obtain ⟨hshort, hlong⟩ := appendCfgLog_log (s := { s with ctl := { s.ctl with cutRing := rest } }) (.cut r.epoch r.serial)
  have hdone : Within { joints := true } (appendCfgLog { s with ctl := { s.ctl with cutRing := rest } } (.cut r.epoch r.serial)) (cutDurable s) := by
    unfold cutDurable
    rw [hr]
    dsimp only
    rw [if_neg (not_or.2 ⟨ne_false_of_eq_true hp, hrep⟩)]
    exact markDurable_log _ _
  refine ⟨(hdone.same (·.ctl.cutRing)).trans (happ.same (·.ctl.cutRing)), (hdone.same (·.ctl.cfg)).trans (happ.same (·.ctl.cfg)), fun h => ?_,
    fun hd hn => ?_⟩
  · exact (hdone.same (·.ctl.cfgLog)).trans (hshort h)
  · rw [hdone.same (·.ctl.cfgLog)]
    exact hlong hd hn

end

/-! ## The plumb check (R348) -/

/-- What a plumb run may write. -/
def plumbScope : Scope := { alarm := true, evr := true, cnt := true }

section
variable {s : State}

theorem raiseMonitor_plumb (m : Nat) (d : Bytes) : (raiseMonitor s m d).alarm.plumbBad = s.alarm.plumbBad := by
  unfold raiseMonitor
  dsimp only
  split
  · exact (recordLimited_within _ _ _ _).same (·.alarm.plumbBad)
  · split
    · exact (recordLimited_within _ _ _ _).same (·.alarm.plumbBad)
    · rfl

theorem plumbIsland_sound {k : Nat} (ho : islandOk s k = true) (hf : bitOf s.ctl.sweepFail k = false) : plumbIsland s k = s := by
  unfold plumbIsland
  dsimp only
  rw [ho, hf]
  rfl

theorem plumbIsland_differs {k : Nat} (h : islandOk s k = false ∨ bitOf s.ctl.sweepFail k = true) : ∃ d, plumbIsland s k =
    raiseMonitor (bump { s with alarm := { s.alarm with plumbBad := true } } (odKey 0x1F02 3)) 12 d := by
  unfold plumbIsland
  dsimp only
  rw [if_neg]
  · exact ⟨_, rfl⟩
  · rcases h with h | h <;> rw [h] <;> simp

theorem plumbIsland_within (k : Nat) : Within plumbScope s (plumbIsland s k) := by
  by_cases h : islandOk s k = false ∨ bitOf s.ctl.sweepFail k = true
  · obtain ⟨d, hd⟩ := plumbIsland_differs h
    have hbad : Within plumbScope s { s with alarm := { s.alarm with plumbBad := true } } := rfl
    rw [hd]
    exact (hbad.then (bump_within _ _)).then (raiseMonitor_within _)
  · obtain ⟨ho, hf⟩ := not_or.1 h
    rw [plumbIsland_sound (eq_true_of_ne_false ho) (eq_false_of_ne_true hf)]
    exact .refl s

/-- The plumb monitor is latched, and a difference stands. -/
def plumbFound (u : State) : Prop := u.alarm.plumbBad = true ∧ (getMon u 12).latched = true

theorem plumbIsland_finds {k : Nat} (h : islandOk s k = false ∨ bitOf s.ctl.sweepFail k = true) (hc : monClass s 12 ≠ 0) :
    plumbFound (plumbIsland s k) := by
  obtain ⟨d, hd⟩ := plumbIsland_differs h
  rw [hd]
  exact ⟨raiseMonitor_plumb 12 d, raiseMonitor_latches hc⟩

theorem plumbIsland_keeps {k : Nat} (h : plumbFound s) (hc : monClass s 12 ≠ 0) : plumbFound (plumbIsland s k) := by
  by_cases hk : islandOk s k = false ∨ bitOf s.ctl.sweepFail k = true
  · exact plumbIsland_finds hk hc
  · obtain ⟨ho, hf⟩ := not_or.1 hk
    rw [plumbIsland_sound (eq_true_of_ne_false ho) (eq_false_of_ne_true hf)]
    exact h

theorem plumbIslands_sound {ks : List Nat} (h : ∀ k ∈ ks, islandOk s k = true ∧ bitOf s.ctl.sweepFail k = false) :
    each ks s plumbIsland = s := by
  induction ks with
  | nil => rfl
  | cons k ks ih =>
    obtain ⟨ho, hf⟩ := h k List.mem_cons_self
    show each ks (plumbIsland s k) plumbIsland = s
    rw [plumbIsland_sound ho hf]
    exact ih (fun k hk => h k (List.mem_cons_of_mem _ hk))

/-- A run finds the first island that differs, and the find stands. -/
theorem plumbIslands_find {ks : List Nat} (h : ∃ k ∈ ks, islandOk s k = false ∨ bitOf s.ctl.sweepFail k = true)
    (hc : monClass s 12 ≠ 0) : plumbFound (each ks s plumbIsland) := by
  have hclass : ∀ {u}, Within plumbScope s u → monClass u 12 ≠ 0 := fun hu => by
    rw [hu.same (fun w => monClass w 12)]
    exact hc
  induction ks with
  | nil =>
    obtain ⟨k, hk, -⟩ := h
    cases hk
  | cons k ks ih =>
    show plumbFound (each ks (plumbIsland s k) plumbIsland)
    by_cases hk : islandOk s k = false ∨ bitOf s.ctl.sweepFail k = true
    · exact (each_keeps (P := fun u => Within plumbScope s u ∧ plumbFound u)
        (fun u k hu => ⟨hu.1.trans (plumbIsland_within k), plumbIsland_keeps hu.2 (hclass hu.1)⟩) ks
        ⟨plumbIsland_within k, plumbIsland_finds hk hc⟩).2
    · obtain ⟨ho, hf⟩ := not_or.1 hk
      rw [plumbIsland_sound (eq_true_of_ne_false ho) (eq_false_of_ne_true hf)]
      obtain ⟨m, hm, hbad⟩ := h
      rcases List.mem_cons.1 hm with rfl | hm
      · exact absurd hbad hk
      · exact ih ⟨m, hm, hbad⟩

variable (ha : armed s 12 = true) (hr : s.fw.replacing ≠ some 1)
include ha hr

theorem plumb_runs : plumb s = bump (each ((upTo 32).map (· + 1)) { s with alarm := { s.alarm with plumbBad := false } } plumbIsland)
    (odKey 0x1F02 2) := if_neg (not_or.2 ⟨hr, ne_false_of_eq_true ha⟩)

end

theorem plumb_idle {s : State} (ha : armed s 12 = false) : plumb s = s := if_pos (.inr ha)

/-- The islands that a plumb run visits. -/
theorem mem_islands {k : Nat} : k ∈ (upTo 32).map (· + 1) ↔ 1 ≤ k ∧ k < 33 := by
  rw [List.mem_map]
  refine ⟨fun ⟨a, ha, he⟩ => ?_, fun ⟨h1, h2⟩ => ⟨k - 1, mem_upTo.2 (by omega), by omega⟩⟩
  have := mem_upTo.1 ha
  omega

/-- A change of modes counts in ModeChanges alone. -/
theorem counter_settle (s : State) {k : Nat} (hk : k ≠ odKey 0x4004 2) : counter (settle s) k = counter s k := by
  unfold settle
  dsimp only
  split
  · rfl
  · exact ((record_within _ _ _ _).same (fun w => counter w k)).trans (mget_mset_other _ _ _ _ _ hk)

/-- Settles O54: a cut by what it meets, then each of the events that follow it. -/
theorem cutsTakeEffect : Obligations.CutsTakeEffect := by
  unfold Obligations.CutsTakeEffect
  intro s t slot holding island j h hj
  subst hj
  have hsettled : ∀ v : State, ∀ k, getJoint (settle v) k = getJoint v k := fun v k => getJoint_of_joints ((settle_within v).same (·.ctl.joints)) k
  refine ⟨fun hw => ?_, fun hctl hhub hc hm => ?_, fun hpow hctl => ⟨fun hi => ?_, fun h4 hi => ?_, fun hb => ?_, fun r rest hr hrep => ?_,
      fun hstep => ?_⟩, fun bad hpow hi => ?_, fun hstop c hcmd => ?_, fun hw => ?_, fun ha hctl hrep w hw => ⟨fun hok => ?_, fun hbad hclass => ?_⟩⟩
  · have hstand : clocked (at_ s t) [islControl, islHub] (fun s => jointCuts s slot.toNat holding.toNat) = at_ s t := by
      rcases hw with hi | hi | hw
      · exact clocked_stands (at_ s t) _ _ islControl List.mem_cons_self hi
      · exact clocked_stands (at_ s t) _ _ islHub (List.mem_cons_of_mem _ List.mem_cons_self) hi
      · have hsame := jointCuts_waits (s := at_ s t) (slot := slot.toNat) (holding := holding.toNat) hw
        unfold clocked
        dsimp only
        rw [hsame, ite_self]
    exact ⟨_, congrArg (fun w => Host.Outcome.next (settle w)) hstand, settle_beside _⟩
  · have hexec : ∀ v, jointCuts (at_ s t) slot.toNat holding.toNat = v → exec (.jointCut t slot holding) s = .next (settle v) := fun v hv =>
      congrArg (fun w => Host.Outcome.next (settle w)) ((clocked_at (fun k hk => by
        rcases List.mem_cons.1 hk with rfl | hk
        · exact hctl
        · rw [List.mem_singleton.1 hk]
          exact hhub)).trans hv)
    have hfailed : ∀ {v : State} (st refused), Within passScope (at_ s t) v → jointCuts (at_ s t) slot.toNat holding.toNat = failCommit v slot.toNat st refused →
        ∃ u, exec (.jointCut t slot holding) s = .next u ∧ u.ctl.cfg = s.ctl.cfg ∧ u.ctl.epoch = s.ctl.epoch ∧
          (getJoint u slot.toNat).st = 3 ∧ (getJoint u slot.toNat).final = st := fun {v} st refused hpass hv => by
      obtain ⟨hst, hfin, -, -, hcfg, hep⟩ := failCommit_settled (at_ s t) slot.toNat st refused hpass
      exact ⟨_, hexec _ hv, hcfg, hep, hst, hfin⟩
    refine ⟨fun key hb => hfailed _ none ((raiseFabric_within _ _ _ _).mono rfl) (jointCuts_mismatch (s := at_ s t) hc hm hb), fun p hp hb => ?_⟩
    have hpass : Within passScope (at_ s t) p.s := hp ▸ commitPass_within (at_ s t) (getJoint s slot.toNat)
    refine ⟨fun hbad => hfailed _ _ hpass (jointCuts_fails (s := at_ s t) hc hm hb hp hbad),
      fun hbad hr => ⟨_, hexec _ (jointCuts_full (s := at_ s t) hc hm hb hp hbad hr), settle_beside _⟩,
      fun hbad hr hn => hfailed _ none hpass (jointCuts_roomless (s := at_ s t) hc hm hb hp hbad hr hn), fun w hbad hr hw => ?_⟩
    have hepoch : w.ctl.epoch = s.ctl.epoch + 1 :=
      (cutState_epoch p.s hw).trans (congrArg (· + 1) (hpass.same (·.ctl.epoch)))
    obtain ⟨⟨hcfg, hep⟩, hst, hcut, hgone⟩ := cutJoint_commits w p.s slot.toNat holding.toNat (getJoint (at_ s t) slot.toNat) h
    have hset := settle_within (cutJoint p.s w slot.toNat holding.toNat (getJoint (at_ s t) slot.toNat) h)
    refine ⟨_, hexec _ (jointCuts_cuts (s := at_ s t) hc hm hb hp hbad hr hw), ?_, ?_, ?_, ?_, ?_⟩
    · rw [hset.same (·.ctl.epoch), hep, hepoch]
    · rw [hset.same (·.ctl.cfg), hcfg]
    · rw [hsettled, hst]
    · rw [hsettled, hcut, hepoch]
    · rw [hset.same (·.ctl.commits)]
      exact hgone
  · have hstall : crossing (at_ s t) [islControl] [island.val] (.islandEpochSwitch t island) (fun s => islandSwitches s island.val) =
        stall (at_ s t) (.islandEpochSwitch t island) := by
      unfold crossing
      rw [if_neg (by simpa [List.all] using (show islandRuns (at_ s t) islControl = true from hctl)),
        if_neg (by simpa [List.all] using (show islandRuns (at_ s t) island.val = false from hi))]
    exact congrArg Host.Outcome.next hstall
  · refine congrArg Host.Outcome.next ((crossing_arrives (s := at_ s t) ?_ ?_ _ _).trans (if_neg (not_or.2 ⟨h4, ne_false_of_eq_true hpow⟩)))
    · exact List.all_eq_true.2 (fun k hk => List.mem_singleton.1 hk ▸ hctl)
    · exact List.all_eq_true.2 (fun k hk => List.mem_singleton.1 hk ▸ hi)
  · exact congrArg Host.Outcome.next ((clocked_one hctl).trans (if_pos ⟨hb, hpow⟩))
  · obtain ⟨hring, hcfg, hshort, hlong⟩ := cutDurable_stands (s := at_ s t) hr hrep hpow
    exact ⟨_, congrArg Host.Outcome.next (clocked_one hctl), hring, hcfg, hshort, hlong⟩
  · exact congrArg Host.Outcome.next ((clocked_one hctl).trans (if_neg (not_or.2 ⟨ne_false_of_eq_true hpow, not_not_intro hstep⟩)))
  · exact congrArg Host.Outcome.next ((clocked_one hi).trans (if_neg (ne_false_of_eq_true hpow)))
  · have hcross : ∀ sink cmd f, crossing (at_ s t) [islControl] sink cmd f = at_ s t := fun sink cmd f =>
      if_pos (by simpa [List.all] using (show islandRuns (at_ s t) islControl = false from hstop))
    have hclock : ∀ f : State → State, clocked (at_ s t) [islControl] f = at_ s t := fun f => clocked_one_stands hstop
    simp only [List.mem_cons, List.not_mem_nil, or_false] at hcmd
    rcases hcmd with rfl | rfl | rfl | rfl
    · exact congrArg Host.Outcome.next (hcross _ _ _)
    · exact congrArg Host.Outcome.next (hclock _)
    · exact congrArg Host.Outcome.next (hclock _)
    · exact congrArg Host.Outcome.next (hclock _)
  · have hstand : clocked (at_ s t) [islControl] plumb = at_ s t := by
      rcases hw with ha | hstop
      · unfold clocked
        rw [plumb_idle (s := at_ s t) ha, ite_self]
      · exact clocked_one_stands hstop
    exact ⟨_, congrArg (fun w => Host.Outcome.next (settle w)) hstand, settle_beside _⟩
  all_goals
    have hrun : clocked (at_ s t) [islControl] plumb = bump (each ((upTo 32).map (· + 1)) w plumbIsland) (odKey 0x1F02 2) := by
      rw [hw]
      exact (clocked_one hctl).trans (plumb_runs (s := at_ s t) ha hrep)
    have hsame : w.ctl = s.ctl ∧ w.cnt = s.cnt ∧ monClass w 12 = monClass s 12 := by
      rw [hw]
      exact ⟨rfl, rfl, rfl⟩
    obtain ⟨hctlw, hcnt, hclassw⟩ := hsame
  · have hsound : each ((upTo 32).map (· + 1)) w plumbIsland = w :=
      plumbIslands_sound (fun k hk => hctlw ▸ hok k (mem_islands.1 hk).1 (mem_islands.1 hk).2)
    rw [hsound] at hrun
    refine ⟨_, congrArg (fun w => Host.Outcome.next (settle w)) hrun, ?_, ?_⟩
    · exact Noted.settle ((bump_within w _).mono (G := { cnt := true, evr := true }) rfl).noted
    · refine (counter_settle _ (by decide)).trans ((counter_bump _).trans ?_)
      unfold counter
      rw [hcnt]
  · obtain ⟨k, h1, h33, hk⟩ := hbad
    obtain ⟨hflag, hlatch⟩ := plumbIslands_find (s := w) (ks := (upTo 32).map (· + 1))
      ⟨k, mem_islands.2 ⟨h1, h33⟩, hctlw ▸ hk⟩ (hclassw ▸ hclass)
    have hplumb : Within plumbScope w (each ((upTo 32).map (· + 1)) w plumbIsland) := .each (fun w k => plumbIsland_within k) _ w
    generalize each ((upTo 32).map (· + 1)) w plumbIsland = x at hrun hflag hlatch hplumb
    have hset := settle_within (bump x (odKey 0x1F02 2))
    exact ⟨_, congrArg (fun w => Host.Outcome.next (settle w)) hrun, (hset.same (·.alarm.plumbBad)).trans hflag,
      (congrArg Mon.latched (hset.same (fun w => getMon w 12))).trans hlatch, ((hset.same (·.ctl)).trans (hplumb.same (·.ctl))).trans hctlw⟩

end Sys2Proof.Machine
end

section
/-! SUPPORT. Firmware: staging, writing, switching and swapping (R356, R409 to R413). -/

namespace Sys2Proof.Machine

-- One proof at a time: the check bounds the compiler's threads.
set_option Elab.async false

open Sys2Proof Sys2Proof.Safety

/-! ## The loader's marks (R411, R465) -/

section
variable (s : State)

/-- What a mark leaves of the firmware state: everything but the sectors of the flash mark. -/
theorem noteMark_fw : (noteMark s).fw = { s.fw with sectorA := (noteMark s).fw.sectorA, sectorB := (noteMark s).fw.sectorB } := by
  unfold noteMark writeFlashMark
  dsimp only
  split <;> split <;> rfl

theorem workMark_noteMark : workMark (noteMark s) = workMark s := by
  unfold workMark
  rw [noteMark_fw]

theorem flashMark_writeFlashMark (m : LoaderMark) : flashMark (writeFlashMark s m) = m := by
  unfold writeFlashMark
  dsimp only
  by_cases hb : newerB s = true
  · rw [if_pos hb]
    unfold flashMark
    have hn : newerB { s with fw := { s.fw with sectorA := some (max (sectorSeq s.fw.sectorA) (sectorSeq s.fw.sectorB) + 1, m) } } = false :=
      decide_eq_false (Nat.not_lt.2 (Nat.le_succ_of_le (Nat.le_max_right _ _)))
    rw [hn]
    rfl
  · rw [if_neg hb]
    unfold flashMark
    have hn : newerB { s with fw := { s.fw with sectorB := some (max (sectorSeq s.fw.sectorA) (sectorSeq s.fw.sectorB) + 1, m) } } = true :=
      decide_eq_true (Nat.lt_succ_of_le (Nat.le_max_left _ _))
    rw [hn]
    rfl

/-- The sector written last is the newer one. -/
theorem flashMark_noteMark : flashMark (noteMark s) = workMark s := by
  unfold noteMark
  dsimp only
  split
  · exact flashMark_writeFlashMark s (workMark s)
  · exact flashMark_writeFlashMark s (workMark s)

theorem vaultMark_noteMark (h : s.alarm.rootCleared = false) : (noteMark s).vault.mark = workMark s := by
  unfold noteMark
  dsimp only
  rw [if_neg (ne_true_of_eq_false (show (writeFlashMark s (workMark s)).alarm.rootCleared = false from h))]

/-- A mark that stands in vault and flash, as one state. -/
def Marked (u : State) : Prop := flashMark u = workMark u ∧ u.vault.mark = workMark u

theorem noteMark_marked (h : s.alarm.rootCleared = false) : Marked (noteMark s) :=
  ⟨(flashMark_noteMark s).trans (workMark_noteMark s).symm, (vaultMark_noteMark s h).trans (workMark_noteMark s).symm⟩

theorem Marked.same {u v : State} (h : Marked u) (hf : v.fw = u.fw) (hv : v.vault = u.vault) : Marked v := by
  have hwork : workMark v = workMark u := by
    unfold workMark
    rw [hf]
  have hflash : flashMark v = flashMark u := by
    unfold flashMark newerB
    rw [hf]
  exact ⟨hflash.trans (h.1.trans hwork.symm), (congrArg Vault.mark hv).trans (h.2.trans hwork.symm)⟩

/-! ## Blocks in loader SRAM (R421, R424) -/

theorem loaderTakes_within (data : Bytes) : Within { acu := true, alarm := true, evr := true } s (loaderTakes s data).2 := by
  unfold loaderTakes
  split
  · exact .each (fun w p => ((violation_within w _ _ _ _ _).mono rfl).then (raiseIf_within _ _ _ _)) _ s
  · exact .refl s

/-- A block that matches its digest has arrived, and nothing was denied. -/
theorem loaderTakes_good {m : Bytes} {b : Nat} {data : Bytes} (h : blockGood m b (loaderTakes s data).1 = true) : (loaderTakes s data).2 = s := by
  unfold loaderTakes at h ⊢
  split at h
  · exact absurd h (by unfold blockGood; simp)
  · rfl

/-! ## Staging (R409) -/

theorem manifestChecked_reads (h0 : s.fw.stage = 0) (hs : s.fw.staged ≠ []) (hm : s.fw.mask = 0) (hst : manifestStatus s s.fw.staged = 0) :
    manifestChecked s = sourceRead { s with fw := { s.fw with stage := 1, checked := 0, blockRetry := 0 } } s.fw.source 0 := by
  unfold manifestChecked
  rw [if_neg (by simp [h0, hs, hm])]
  exact if_pos hst

theorem manifestChecked_rejects (h0 : s.fw.stage = 0) (hs : s.fw.staged ≠ []) (hm : s.fw.mask = 0) (hst : manifestStatus s s.fw.staged ≠ 0) :
    manifestChecked s = record { s with fw := { s.fw with stage := 3 } } 0x7107 srcDevice (Bytes.ofNatLE 2 (manifestStatus s s.fw.staged)) := by
  unfold manifestChecked
  rw [if_neg (by simp [h0, hs, hm])]
  exact if_neg hst

/-- LOADER begins with the first block; but for its phase the firmware state stands. -/
theorem loaderBegins_fw : ∃ ph, (loaderBegins s).fw = { s.fw with phase := ph } ∧ (loaderBegins s).acu = s.acu := by
  unfold loaderBegins
  split
  · exact ⟨1, (settle_within _).same (·.fw), (settle_within _).same (·.acu)⟩
  · exact ⟨s.fw.phase, rfl, rfl⟩

theorem loaderTakes_acu {u : State} (h : u.acu = s.acu) (data : Bytes) : (loaderTakes u data).1 = (loaderTakes s data).1 := by
  have hdecide : decidingOver u dmaMaster [loaderSram] false = decidingOver s dmaMaster [loaderSram] false := by
    unfold decidingOver
    rw [h]
  unfold loaderTakes
  rw [hdecide]
  split <;> rfl

/-- The firmware state with which a staged block is judged. -/
theorem blockTaken_fw (data : Bytes) : ∃ ph, (loaderTakes (loaderBegins s) data).2.fw = { s.fw with phase := ph } := by
  obtain ⟨ph, hf, -⟩ := loaderBegins_fw s
  exact ⟨ph, ((loaderTakes_within (loaderBegins s) data).same (·.fw)).trans hf⟩

variable {s} {data : Bytes} (h1 : s.fw.stage = 1)
include h1

theorem stageBlock_good (hg : blockGood s.fw.staged s.fw.checked (loaderTakes s data).1 = true) :
    (stageBlock s data).fw.checked = s.fw.checked + 1 ∧
    (stageBlock s data).fw.stage = (if mfBlocks s.fw.staged ≤ s.fw.checked + 1 then 2 else 1) ∧
    (stageBlock s data).fw.staged = s.fw.staged ∧ (stageBlock s data).fw.slots = s.fw.slots ∧ (stageBlock s data).fw.image = s.fw.image := by
  obtain ⟨ph, hf⟩ := blockTaken_fw s data
  obtain ⟨-, -, hacu⟩ := loaderBegins_fw s
  unfold stageBlock
  rw [if_neg (not_not_intro h1)]
  dsimp only
  rw [loaderTakes_acu s hacu, hf]
  dsimp only
  rw [hg, if_pos rfl]
  by_cases hlast : mfBlocks s.fw.staged ≤ s.fw.checked + 1
  · rw [if_pos hlast, if_pos hlast]
    dsimp only
    split <;> exact ⟨rfl, rfl, rfl, rfl, rfl⟩
  · rw [if_neg hlast, if_neg hlast]
    exact ⟨rfl, h1, rfl, rfl, rfl⟩

theorem stageBlock_bad (hg : blockGood s.fw.staged s.fw.checked (loaderTakes s data).1 = false) :
    (stageBlock s data).fw.checked = s.fw.checked ∧ (stageBlock s data).fw.stage = (if s.fw.blockRetry = 0 then 1 else 3) := by
  obtain ⟨ph, hf⟩ := blockTaken_fw s data
  obtain ⟨-, -, hacu⟩ := loaderBegins_fw s
  unfold stageBlock
  rw [if_neg (not_not_intro h1)]
  dsimp only
  rw [loaderTakes_acu s hacu, hf]
  dsimp only
  rw [hg, if_neg (by decide)]
  by_cases hfirst : s.fw.blockRetry = 0
  · rw [if_pos hfirst, if_pos hfirst]
    exact ⟨rfl, h1⟩
  · rw [if_neg hfirst, if_neg hfirst]
    dsimp only
    split <;> exact ⟨rfl, rfl⟩

end

/-! ## Write phase (R411, R412) -/

section
variable (s : State)

/-- A block has been programmed over the part's image, and the mark tells it. -/
def blockStands (s : State) (p b : Nat) : State :=
  noteMark { s with fw := { s.fw with
    image := mput s.fw.image (imageBlock p (b - (((mfParts s.fw.staged).find? (fun e => e.part == p)).map (·.first)).getD 0))
      (mfDigest s.fw.staged b)
    markPart := p, markNext := b + 1, blockRetry := 0 } }

theorem blockStands_marked (p b : Nat) (hr : s.alarm.rootCleared = false) : Marked (blockStands s p b) := noteMark_marked _ hr

variable {s} {data : Bytes} {p b : Nat} (h1 : s.fw.act = 1) (hg : s.power.pwrGood = true) (hst : s.power.step = 12)
  (hn : nextWrite s = some (p, b)) (hgo : goesOn s p = true)
include h1 hg hst hn hgo

theorem blockWritten_good (hr : s.alarm.rootCleared = false) (hm : blockGood s.fw.staged b (loaderTakes s data).1 = true) :
    ∃ o, blockWritten s data = { blockStands s p b with outbox := o } := by
  have hs : (loaderTakes s data).2 = s := loaderTakes_good s hm
  have hr' : (blockStands s p b).alarm.rootCleared = false :=
    ((noteMark_within _).same (·.alarm.rootCleared)).trans hr
  unfold blockWritten
  rw [if_neg (by simp [h1, hg, hst]), hn]
  dsimp only
  rw [if_neg (by rw [hgo]; decide), hs, hm, if_pos rfl]
  change ∃ o, (match nextWrite (blockStands s p b) with
    | some (q, c) => if goesOn (blockStands s p b) q then sourceRead (blockStands s p b) (blockStands s p b).fw.markSource c
        else if (blockStands s p b).alarm.rootCleared then haltActivation (blockStands s p b) else blockStands s p b
    | none => if (blockStands s p b).alarm.rootCleared then haltActivation (blockStands s p b) else blockStands s p b) = _
  rw [hr']
  split
  · split
    · exact ⟨_, rfl⟩
    · exact ⟨_, rfl⟩
  · exact ⟨_, rfl⟩

theorem blockWritten_bad (hm : blockGood s.fw.staged b (loaderTakes s data).1 = false) :
    (blockWritten s data).fw.image = s.fw.image ∧
    (s.fw.blockRetry < 3 → (blockWritten s data).fw.blockRetry = s.fw.blockRetry + 1 ∧ (blockWritten s data).fw.act = 1) ∧
    (3 ≤ s.fw.blockRetry → (blockWritten s data).fw.act = 4 ∧ (blockWritten s data).fw.markPart = p ∧ (blockWritten s data).fw.markNext = b) := by
  have hf : (loaderTakes s data).2.fw = s.fw := (loaderTakes_within s data).same (·.fw)
  unfold blockWritten
  rw [if_neg (by simp [h1, hg, hst]), hn]
  dsimp only
  rw [if_neg (by rw [hgo]; decide), hf, hm, if_neg (by decide)]
  by_cases hret : s.fw.blockRetry < 3
  · rw [if_pos hret]
    exact ⟨rfl, fun _ => ⟨rfl, h1⟩, fun h => absurd hret (by omega)⟩
  · rw [if_neg hret, (record_within _ _ _ _).same (·.fw), noteMark_fw]
    exact ⟨rfl, fun h => absurd h hret, fun _ => ⟨rfl, rfl, rfl⟩⟩

end

/-! ## Switch (R411) -/

section

theorem mfind_switch (mask : Nat) (m : Bytes) (l : List Nat) (slots : Map Bytes) (p : Nat) :
    mfind (l.foldl (fun x q => if bitOf mask q then mput x q m else x) slots) p =
      if p ∈ l ∧ bitOf mask p = true then some m else mfind slots p := by
  induction l generalizing slots with
  | nil => simp
  | cons q rest ih =>
    rw [List.foldl_cons, ih]
    by_cases hq : p = q
    · subst hq
      by_cases hb : bitOf mask p = true
      · simp [hb]
      · simp [hb]
    · by_cases hb : bitOf mask q = true
      · rw [if_pos hb, mfind_mput_other _ _ _ _ hq]
        simp [hq]
      · rw [if_neg hb]
        simp [hq]

variable {s : State}

theorem switchNow_fw (h1 : s.fw.act = 1) (hp : s.fw.markPhase = 1) (hn : nextWrite s = none) (hr : s.alarm.rootCleared = false)
    (hg : s.power.pwrGood = true) (hst : s.power.step = 12) : (switchNow s).fw.act = 2 ∧ (switchNow s).fw.markPhase = 2 ∧
    (switchNow s).fw.slots = (upTo 9).foldl (fun m p => if bitOf s.fw.mask p then mput m p s.fw.staged else m) s.fw.slots := by
  unfold switchNow
  rw [if_pos ⟨h1, hp, hn, hr, hg, hst⟩]
  unfold switchSlots
  dsimp only
  rw [noteMark_fw]
  exact ⟨rfl, rfl, rfl⟩

end

/-! ## Swap (R356, R411) -/

section
variable {s : State}

theorem beginReplace_begins (p : Nat) : (beginReplace s p).fw.replacing = some p ∧ (beginReplace s p).fw.replaceT = s.now ∧
    (beginReplace s p).fw.act = 3 ∧ (p = 7 → (beginReplace s p).random.stopped = true) := by
  unfold beginReplace
  dsimp only
  split
  · rw [(stopConditioner_within _).same (·.fw)]
    refine ⟨?_, ?_, ?_, fun _ => (stopConditioner_stops _).1⟩ <;> rw [noteMark_fw]
  · next h =>
    rw [noteMark_fw]
    exact ⟨rfl, rfl, rfl, fun hp => absurd hp h⟩

/-- The mark under which a bay is swapped. -/
def baySwap (s : State) (b : Nat) : State :=
  noteMark { s with fw := { s.fw with act := 3, markPhase := 3, markPart := bayPart s.fw.mask b } }

theorem baySwap_marked {b : Nat} (hr : s.alarm.rootCleared = false) : Marked (baySwap s b) := noteMark_marked _ hr

variable (ha : s.fw.act = 2 ∨ s.fw.act = 3) (hs : swapRunning s = false) (hr : s.alarm.rootCleared = false) (hg : s.power.pwrGood = true)
include ha hs hr hg

theorem partSwap_part {k : Nat} (hn : nextSwap s = some k) (hk : k < 100) (hc : k ≠ 1 ∨ noCommit s = true) :
    partSwap s none = beginReplace s k := by
  unfold partSwap
  rw [if_neg (by rw [hs, hr, hg]; simp; omega), hn]
  refine if_neg ?_
  rintro (h | ⟨h, hno⟩)
  · omega
  · rcases hc with hc | hc
    · exact hc h
    · rw [hc] at hno
      cases hno

theorem partSwap_bay {b : Nat} (hn : nextSwap s = some (100 + b)) (hb : (getBay s b).st = 0) :
    partSwap s (some b) = closeBay (baySwap s b) b .update := by
  unfold partSwap
  rw [if_neg (by rw [hs, hr, hg]; simp; omega), hn]
  exact if_pos ⟨rfl, hb⟩

end

section
variable (s : State)

theorem closeEntries_other (b f : Nat) {k : Nat} (h : k ≠ b) : getBay (closeEntries s b f) k = getBay s k := by
  unfold closeEntries
  refine each_keeps (P := fun u => getBay u k = getBay s k) (fun u j hu => ?_) _ rfl
  dsimp only
  split
  · exact (getBay_setBay_other u b k _ h).trans hu
  · exact hu

theorem closeBay_other (b : Nat) (why : BayOut) {k : Nat} (h : k ≠ b) : getBay (closeBay s b why) k = getBay s k := by
  unfold closeBay
  split
  · rfl
  · exact (getBay_setBay_other _ b k _ h).trans (closeEntries_other s b _ h)

theorem closeBay_closes {b : Nat} (why : BayOut) (h : (getBay s b).st = 0) (hst : 8 ≤ s.power.step) :
    (getBay (closeBay s b why) b).st = 1 ∧ (getBay (closeBay s b why) b).why = why := by
  unfold closeBay
  rw [if_neg (by rw [h]; omega)]
  unfold modBay
  rw [getBay_setBay_same]
  exact ⟨rfl, rfl⟩

end

/-! ## The end of a swap (R356, R411, R412) -/

section
variable (s : State)

theorem reload_within (n : Nat) : Within { stores := true, free := true } s (reload s n) := rfl

theorem loadPart_replacing (p : Nat) : (loadPart s p).fw.replacing = s.fw.replacing := by
  have hf : (each (partStores p) s reload).fw = s.fw :=
    each_keeps (P := fun u => u.fw = s.fw) (f := reload) (fun u n hu => hu) _ rfl
  unfold loadPart
  dsimp only
  rw [hf]

theorem activationStep_replacing : (activationStep s).fw.replacing = s.fw.replacing := by
  have hload : (loadNamed s).fw.replacing = s.fw.replacing := by
    unfold loadNamed
    refine each_keeps (P := fun u => u.fw.replacing = s.fw.replacing) (fun u p hu => ?_) _ rfl
    split
    · exact (loadPart_replacing u p).trans hu
    · exact hu
  unfold activationStep
  split
  · rfl
  split
  · rfl
  split
  · rfl
  dsimp only
  rw [(record_within _ _ _ _).same (·.fw)]
  dsimp only
  unfold clearLoaderMarks
  rw [noteMark_fw]
  exact hload

theorem drainQueue_fw : (drainQueue s).fw = s.fw := by
  unfold drainQueue
  dsimp only
  split <;> rfl

theorem shiftIdle_fw (ns : Nat) : (shiftIdle s ns).fw = s.fw :=
  each_keeps (P := fun u => u.fw = s.fw) (f := fun s (e : Nat × Joint) => modJoint s e.1 (fun j => { j with lastMsg := j.lastMsg + ns }))
    (fun _ _ hu => hu) _ rfl

theorem endReplace_replacing (p : Nat) : (endReplace s p).fw.replacing = none := by
  unfold endReplace
  dsimp only
  split
  · rw [shiftIdle_fw, drainQueue_fw]
    exact loadPart_replacing _ p
  · split
    · rw [(restartConditioner_within _).same (·.fw)]
      exact loadPart_replacing _ p
    · exact loadPart_replacing _ p

variable {s} (hg : s.power.pwrGood = true)
include hg

theorem swapEnds_part {p : Nat} (h : s.fw.replacing = some p) : (swapEnds s).fw.replacing = none := by
  unfold swapEnds
  rw [if_neg (by rw [hg]; decide), h]
  exact (activationStep_replacing _).trans (endReplace_replacing s p)

theorem swapEnds_bay {b : Nat} (h : s.fw.replacing = none) (hb : bayLoading s = some b) :
    bitOf (swapEnds s).fw.baysSwapped b = true ∧ ∃ r ∈ (swapEnds s).random.reqs, r.who = .inst b := by
  unfold swapEnds
  rw [if_neg (by rw [hg]; decide), h]
  dsimp only
  rw [hb]
  refine ⟨?_, requestSeed_asked _ _ _ _⟩
  rw [(requestSeed_within _ _ _ _).same (·.fw)]
  unfold baySwapped
  rw [noteMark_fw]
  exact (bitOf_putBit _ _ _ _).trans (if_pos rfl)

end

/-! ## The obligation -/

section
variable (s : State) (t : Nat)

theorem stagedManifest_checked (hrun : islandRuns s islControl = true) (h0 : s.fw.stage = 0) (hs : s.fw.staged ≠ []) (hm : s.fw.mask = 0) :
    (manifestStatus s s.fw.staged = 0 → ∃ u, exec (.fwManifestChecked t) s = .next u ∧ Beside
      (sourceRead { at_ s t with fw := { s.fw with stage := 1, checked := 0, blockRetry := 0 } } s.fw.source 0) u) ∧
    (manifestStatus s s.fw.staged ≠ 0 → ∃ u, exec (.fwManifestChecked t) s = .next u ∧
      Beside { at_ s t with fw := { s.fw with stage := 3 } } u) := by
  have hexec : exec (.fwManifestChecked t) s = .next (settle (manifestChecked (at_ s t))) :=
    congrArg (fun w => Host.Outcome.next (settle w)) (clocked_one hrun)
  refine ⟨fun hst => ⟨_, hexec, ?_⟩, fun hst => ⟨_, hexec, ?_⟩⟩
  · rw [manifestChecked_reads (at_ s t) h0 hs hm hst]
    exact settle_beside _
  · rw [manifestChecked_rejects (at_ s t) h0 hs hm hst]
    exact Noted.settle (Noted.record (Noted.refl _) _ _ _)

end

/-- Settles O59: each command is its function of the control island's state, then the record of a change of modes. A good block leaves
the state that the loader found; the mark that a write, a switch or a swap leaves is the newer of its sectors. -/
theorem firmwareIsStagedAndSwapped : Obligations.FirmwareIsStagedAndSwapped := by
  intro s t data d hd
  subst hd
  refine ⟨fun hstop bay c hc => ?_, fun hrun => ⟨stagedManifest_checked s t hrun, fun h1 => ?_, ?_, ?_, ?_, ?_⟩⟩
  · have hstand : ∀ f, settle (clocked (at_ s t) [islControl] f) = settle (at_ s t) := fun f =>
      congrArg settle (clocked_one_stands hstop)
    simp only [List.mem_cons, List.not_mem_nil, or_false] at hc
    rcases hc with rfl | rfl | rfl | rfl | rfl | rfl
    · exact ⟨_, congrArg Host.Outcome.next (hstand _), settle_beside _⟩
    · exact ⟨_, congrArg Host.Outcome.next (hstand _), settle_beside _⟩
    · exact ⟨_, congrArg Host.Outcome.next (hstand _), settle_beside _⟩
    · exact ⟨_, congrArg Host.Outcome.next (clocked_one_stands hstop), rfl⟩
    · exact ⟨_, congrArg Host.Outcome.next (hstand _), settle_beside _⟩
    · exact ⟨_, congrArg Host.Outcome.next (hstand _), settle_beside _⟩
  · have hexec : exec (.fwStageBlock t data) s = .next (settle (stageBlock (at_ s t) data)) :=
      congrArg (fun w => Host.Outcome.next (settle w)) (clocked_one hrun)
    have hfw : (settle (stageBlock (at_ s t) data)).fw = (stageBlock (at_ s t) data).fw := (settle_within _).same (·.fw)
    refine ⟨fun hg => ⟨_, hexec, ?_⟩, fun hg => ⟨_, hexec, ?_⟩⟩
    · rw [hfw]
      exact stageBlock_good (s := at_ s t) h1 hg
    · rw [hfw]
      exact stageBlock_bad (s := at_ s t) h1 hg
  · intro p b h1 hpwr hst hr hn hgo
    have hexec : exec (.fwBlockWritten t data) s = .next (settle (blockWritten (at_ s t) data)) :=
      congrArg (fun w => Host.Outcome.next (settle w)) (clocked_one hrun)
    have hfw : (settle (blockWritten (at_ s t) data)).fw = (blockWritten (at_ s t) data).fw := (settle_within _).same (·.fw)
    refine ⟨fun hg => ⟨_, hexec, ?_⟩, fun hg => ⟨_, hexec, ?_⟩⟩
    · obtain ⟨o, ho⟩ := blockWritten_good (s := at_ s t) h1 hpwr hst hn hgo hr hg
      have hstands : (settle (blockWritten (at_ s t) data)).fw = (blockStands (at_ s t) p b).fw := hfw.trans (by rw [ho])
      have hvault : (settle (blockWritten (at_ s t) data)).vault = (blockStands (at_ s t) p b).vault :=
        ((settle_within _).same (·.vault)).trans (by rw [ho])
      obtain ⟨hflash, hmark⟩ := (blockStands_marked (at_ s t) p b hr).same hstands hvault
      rw [hstands]
      refine ⟨?_, ?_, ?_, hflash, hmark, ?_, ?_⟩ <;> unfold blockStands <;> rw [noteMark_fw]
      · exact mfind_mput_same _ _ _
      · rfl
      · exact h1
    · rw [hfw]
      exact blockWritten_bad (s := at_ s t) h1 hpwr hst hn hgo hg
  · intro h1 hp hn hr hpwr hst
    obtain ⟨hact, hphase, hslots⟩ := switchNow_fw (s := at_ s t) h1 hp hn hr hpwr hst
    refine ⟨_, congrArg Host.Outcome.next (clocked_one hrun), hact, hphase, fun p hlt hb => ?_, fun p hb => ?_⟩
    · rw [hslots, mfind_switch, if_pos ⟨mem_upTo.2 hlt, hb⟩]
      rfl
    · rw [hslots, mfind_switch, if_neg (fun h => absurd (hb.symm.trans h.2) (by decide))]
      rfl
  · intro hact hs hr hpwr
    refine ⟨fun k hn hk hc => ⟨_, congrArg (fun w => Host.Outcome.next (settle w)) (clocked_one hrun), ?_⟩,
      fun bay hn hb hst => ⟨_, congrArg (fun w => Host.Outcome.next (settle w)) (clocked_one hrun), ?_⟩⟩
    · rw [(settle_within _).same (·.fw), (settle_within _).same (·.random)]
      have hswap : partSwap (at_ s t) (none.map (fun b : BayNo => b.val)) = beginReplace (at_ s t) k :=
        partSwap_part (s := at_ s t) hact hs hr hpwr hn hk hc
      rw [hswap]
      exact beginReplace_begins k
    · have hswap : partSwap (at_ s t) ((some bay).map (·.val)) = closeBay (baySwap (at_ s t) bay.val) bay.val .update :=
        partSwap_bay (s := at_ s t) hact hs hr hpwr hn hb
      have hbays : ∀ b, getBay (baySwap (at_ s t) bay.val) b = getBay s b := fun b =>
        (noteMark_within _).same (fun w => getBay w b)
      have hpower : (baySwap (at_ s t) bay.val).power = s.power := (noteMark_within _).same (·.power)
      obtain ⟨hclosed, hwhy⟩ := closeBay_closes (baySwap (at_ s t) bay.val) .update ((congrArg Bay.st (hbays bay.val)).trans hb) (by rw [hpower]; exact hst)
      have hfw : (settle (closeBay (baySwap (at_ s t) bay.val) bay.val .update)).fw = (baySwap (at_ s t) bay.val).fw :=
        ((settle_within _).same (·.fw)).trans ((closeBay_within _ _ _).same (·.fw))
      have hvault : (settle (closeBay (baySwap (at_ s t) bay.val) bay.val .update)).vault = (baySwap (at_ s t) bay.val).vault :=
        ((settle_within _).same (·.vault)).trans ((closeBay_within _ _ _).same (·.vault))
      have hget : ∀ b, getBay (settle (closeBay (baySwap (at_ s t) bay.val) bay.val .update)) b =
          getBay (closeBay (baySwap (at_ s t) bay.val) bay.val .update) b := fun b => (settle_within _).same (fun w => getBay w b)
      obtain ⟨-, hmark⟩ := (baySwap_marked (s := at_ s t) hr).same hfw hvault
      rw [hswap]
      refine ⟨?_, ?_, ?_, ?_, hmark, fun b hne => ?_⟩
      · rw [hget]
        exact hclosed
      · rw [hget]
        exact hwhy
      · rw [hfw]
        unfold baySwap
        rw [noteMark_fw]
      · rw [hfw]
        unfold baySwap
        rw [noteMark_fw]
        rfl
      · rw [hget, closeBay_other _ _ _ hne, hbays]
  · intro hpwr
    refine ⟨fun p h => ⟨_, congrArg (fun w => Host.Outcome.next (settle w)) (clocked_one hrun), ?_⟩,
      fun b h hb => ⟨_, congrArg (fun w => Host.Outcome.next (settle w)) (clocked_one hrun), ?_⟩⟩
    · rw [(settle_within _).same (·.fw)]
      exact swapEnds_part (s := at_ s t) hpwr h
    · rw [(settle_within _).same (·.fw), (settle_within _).same (·.random)]
      exact swapEnds_bay (s := at_ s t) hpwr h hb

end Sys2Proof.Machine
end

section
/-! SUPPORT. What a squash and the answers of idle slots leave of an instance and of the others (R311, R312, R313). -/

namespace Sys2Proof.Machine

-- One proof at a time: the check bounds the compiler's threads.
set_option Elab.async false

open Sys2Proof Sys2Proof.Safety

/-! ## Repetitions over a list's own elements -/

section
variable {α : Type} {f : State → α → State}

theorem each_append (xs ys : List α) (s : State) : each (xs ++ ys) s f = each ys (each xs s f) f := List.foldl_append

theorem each_cons (a : α) (xs : List α) (s : State) : each (a :: xs) s f = each xs (f s a) f := rfl

/-- What the turns of a list's own elements keep, the repetition keeps. -/
theorem each_keeps_mem {P : State → Prop} {xs : List α} (h : ∀ s, ∀ a ∈ xs, P s → P (f s a)) {s : State} (h0 : P s) : P (each xs s f) := by
  induction xs generalizing s with
  | nil => exact h0
  | cons a rest ih => exact ih (fun s b hb => h s b (List.mem_cons_of_mem a hb)) (h s a (List.mem_cons_self ..) h0)

/-- What one element's turn brings about in a state of an invariant, and the turns of the list's elements keep, holds at the end. -/
theorem each_reaches_mem {I P : State → Prop} {xs : List α} {a : α} (ha : a ∈ xs) (hI : ∀ s b, I s → I (f s b)) (hit : ∀ s, I s → P (f s a))
    (h : ∀ s, ∀ b ∈ xs, P s → P (f s b)) {s : State} (h0 : I s) : P (each xs s f) := by
  obtain ⟨l, r, rfl⟩ := List.append_of_mem ha
  rw [each_append, each_cons]
  exact each_keeps_mem (fun s b hb => h s b (List.mem_append_right l (List.mem_cons_of_mem a hb))) (hit _ (each_keeps hI l h0))

end

/-- A slot that differs from an unlisted one is listed. -/
theorem slot_listed {x : Inst} {n : Nat} (h : getSlot x n ≠ {}) : (n, getSlot x n) ∈ x.slots :=
  mem_mget ({} : InSlot) (Classical.not_not.1 fun hn => h (mget_unlisted ({} : InSlot) hn))

/-! ## Operations ended from outside -/

/-- Operations of an instance end: each that it has is one that it had, or is being ended; its slots and the other instances stand. -/
structure Ending (i : Nat) (s u : State) : Prop where
  ops : ∀ a ∈ (getInst u i).ops, a ∈ (getInst s i).ops ∨ a.squashed = true
  slots : (getInst u i).slots = (getInst s i).slots
  other : ∀ j, j ≠ i → getInst u j = getInst s j

section
variable {i : Nat} {s u v : State}

theorem Ending.refl (i : Nat) (s : State) : Ending i s s := ⟨fun _ h => .inl h, rfl, fun _ _ => rfl⟩

theorem Ending.trans (h : Ending i s u) (h' : Ending i u v) : Ending i s v :=
  ⟨fun a ha => (h'.ops a ha).elim (h.ops a) .inr, h'.slots.trans h.slots, fun j hj => (h'.other j hj).trans (h.other j hj)⟩

theorem Ending.of_insts (h : u.insts = s.insts) : Ending i s u :=
  ⟨fun _ ha => .inl (getInst_of_insts h i ▸ ha), congrArg Inst.slots (getInst_of_insts h i), fun j _ => getInst_of_insts h j⟩

theorem Ending.modInst {f : Inst → Inst} (h : ∀ a ∈ (f (getInst s i)).ops, a ∈ (getInst s i).ops ∨ a.squashed = true)
    (hs : (f (getInst s i)).slots = (getInst s i).slots) : Ending i s (modInst s i f) :=
  ⟨fun a ha => h a (getInst_modInst_same s i f ▸ ha), (congrArg Inst.slots (getInst_modInst_same s i f)).trans hs,
    fun _ hj => getInst_setInst_other _ _ _ _ hj⟩

theorem Ending.each {α : Type} {f : State → α → State} (h : ∀ s a, Ending i s (f s a)) (xs : List α) (s : State) :
    Ending i s (Machine.each xs s f) :=
  each_keeps (P := Ending i s) (fun w a hw => hw.trans (h w a)) xs (.refl i s)

end

section
variable (s : State) (i : Nat)

theorem completeRing_ending (o : RingOp) (st ep bay hint len : Nat) (res : Bytes) :
    Ending i s (completeRing s i o st ep bay hint len res) := by
  obtain ⟨-, hframe, hinst⟩ := completeRing_ends s i o st ep bay hint len res
  refine ⟨fun a ha => ?_, (congrArg Inst.slots hinst).trans rfl, fun j hj => hframe.2.1 j hj⟩
  rw [completeRing_ops] at ha
  exact .inl (List.mem_filter.1 ha).1

theorem writeStaged_ending (o : RingOp) (out : Bytes) : Ending i s (writeStaged s i o out) := by
  unfold writeStaged
  split
  · split
    · exact .refl i s
    · exact (Ending.modInst (fun _ ha => .inl ha) rfl).trans (.of_insts ((noteWriter_insts _ _ _ _ _).trans (writeWords_insts _ _ _ _)))
  · exact .refl i s

theorem endRing_ending (o : RingOp) (st len : Nat) (out res : Bytes) : Ending i s (endRing s i o st len out res) := by
  unfold endRing
  extract_lets late st' s1 s2
  have h1 : Ending i s s1 := by
    show Ending i s (if _ then noteLate s i o.bay (dOp o.snap) st' (s.now - promised o) else s)
    split
    · exact .of_insts (noteLate_insts _ _ _ _ _ _)
    · exact .refl i s
  have h2 : Ending i s1 s2 := by
    show Ending i s1 (if _ then writeStaged s1 i o out else s1)
    split
    · exact writeStaged_ending s1 i o out
    · exact .refl i s1
  exact (h1.trans h2).trans (completeRing_ending ..)

theorem cutShort_ending (o : RingOp) (st : Nat) : Ending i s (cutShort s i o st) := by
  unfold cutShort
  extract_lets s1
  refine Ending.trans (u := s1) (Ending.of_insts (releaseBooking_insts s o _)) ?_
  split
  · exact endRing_ending ..
  · refine Ending.modInst (fun a ha => ?_) rfl
    obtain ⟨b, hb, rfl⟩ := List.mem_map.1 ha
    split
    · exact .inr rfl
    · exact .inl hb

/-- After an operation has been cut short, its instance has none of its count that is not being ended. -/
theorem cutShort_cuts (o : RingOp) (st : Nat) : ∀ a ∈ (getInst (cutShort s i o st) i).ops, a.count = o.count → a.squashed = true := by
  intro a ha hc
  by_cases hr : o.reads = 0 ∧ o.readBack = false
  · exact absurd hc (findOp_eq_none.1 ((cutShort_leaves s i o st).2 hr.1 hr.2) a ha)
  · unfold cutShort at ha
    rw [if_neg hr, getInst_modInst_same] at ha
    obtain ⟨b, hb, rfl⟩ := List.mem_map.1 ha
    split
    · rfl
    · next h =>
      rw [if_neg h] at hc
      exact absurd (beq_iff_eq.2 hc) h

theorem returnCore_ending (o : RingOp) : Ending i s (returnCore s i o) := by
  unfold returnCore refill
  exact (Ending.modInst (fun _ ha => .inl ha) rfl).trans (.modInst (fun _ ha => .inl ha) rfl)

/-- The state in which an operation ended early is cut short. -/
theorem endEarly_cutShort (o : RingOp) (st : Nat) : ∃ w, endEarly s i o st = cutShort w i { o with engines := [] } st ∧ Ending i s w := by
  refine ⟨_, rfl, ?_⟩
  have h1 : Ending i s (abandonKum (leaveEngines s i o true) i o) :=
    .of_insts ((abandonKum_insts _ i o).trans (leaveEngines_insts s i o true))
  split
  · exact h1.trans (returnCore_ending _ i o)
  · exact h1

theorem endEarly_ending (o : RingOp) (st : Nat) : Ending i s (endEarly s i o st) := by
  obtain ⟨w, he, hw⟩ := endEarly_cutShort s i o st
  rw [he]
  exact hw.trans (cutShort_ending ..)

theorem endEarly_cuts (o : RingOp) (st : Nat) : ∀ a ∈ (getInst (endEarly s i o st) i).ops, a.count = o.count → a.squashed = true := by
  obtain ⟨w, he, -⟩ := endEarly_cutShort s i o st
  rw [he]
  exact cutShort_cuts w i { o with engines := [] } st

/-! ## The squash of an instance (R311) -/

theorem endAllCovered_ending : Ending i s (endAllCovered s i) := .each (fun w _ => completeRing_ending w i _ _ _ _ _ _ _) _ s

theorem endAdmittedTurn_ending (o : RingOp) :
    Ending i s (if o.squashed then (if 0x0702 = 0x0802 then endWaiting s i o 0x0702 else s) else endEarly s i o 0x0702) := by
  split
  · exact .refl i s
  · exact endEarly_ending ..

theorem endAdmitted_ending : Ending i s (endAdmitted s i 0x0702) := .each (fun w o => endAdmittedTurn_ending w i o) _ s

/-- After the end of the admitted operations each operation left is being ended, or had not been admitted. -/
theorem endAdmitted_squashed : ∀ a ∈ (getInst (endAdmitted s i 0x0702) i).ops, a.squashed = true ∨ (a ∈ (getInst s i).ops ∧ a.stage = .covered) := by
  intro a ha
  rcases (endAdmitted_ending s i).ops a ha with hmem | hs
  · by_cases hs : a.squashed = true
    · exact .inl hs
    · by_cases hc : a.stage = .covered
      · exact .inr ⟨hmem, hc⟩
      · refine .inl (each_reaches (P := fun u => ∀ b ∈ (getInst u i).ops, b.count = a.count → b.squashed = true)
          (List.mem_filter.2 ⟨hmem, by simpa using hc⟩) (fun u => ?_) (fun u p hu b hb hbc => ?_) s a ha rfl)
        · rw [if_neg hs]
          exact endEarly_cuts u i a 0x0702
        · exact ((endAdmittedTurn_ending u i p).ops b hb).elim (fun h => hu b h hbc) id
  · exact .inl hs

/-- No operation that the hub covers is left after the end of the covered ones. -/
theorem endAllCovered_none {a : RingOp} (ha : a ∈ (getInst (endAllCovered s i) i).ops) (hs : a.squashed = false) : a.stage ≠ .covered := by
  intro hc
  rcases (endAllCovered_ending s i).ops a ha with h | h
  · exact findOp_eq_none.1 (endAllCovered_findOp s i a h hc) a ha rfl
  · exact absurd (hs.symm.trans h) (by decide)

theorem getInst_endLine (n : Nat) (o : LaneOp) (st : Nat) (out : Bytes) :
    (getInst (endLine s i n o st out) i).ops = (getInst s i).ops ∧ (∀ j, j ≠ i → getInst (endLine s i n o st out) j = getInst s j) ∧
    (getSlot (getInst (endLine s i n o st out) i) n).op = none ∧
    ∀ k, k ≠ n → getSlot (getInst (endLine s i n o st out) i) k = getSlot (getInst s i) k := by
  unfold endLine
  extract_lets lat late st' op s1 s2
  have h2 : s2.insts = s.insts := by
    show (if _ then noteLate s1 i (laneBay o.lane) op st' (lat - 201) else s1).insts = s.insts
    split <;> simp [s1]
  have hx := getInst_of_insts h2 i
  generalize resultLine o.line st' o.att.epoch o.lane 0 lat o.look.route out = line
  have hi : getInst (freeShelf (writeLine s2 i n (5 + laneBay o.lane) line)) i = getInst (writeLine s2 i n (5 + laneBay o.lane) line) i :=
    getInst_of_insts (freeShelf_insts _) i
  refine ⟨?_, fun j hj => ?_, ?_, fun k hk => ?_⟩
  · rw [hi, getInst_writeLine]
    rw [← hx]
    split <;> rfl
  · rw [getInst_of_insts (freeShelf_insts _), getInst_writeLine_other _ _ _ _ _ hj]
    exact getInst_of_insts h2 j
  · rw [hi, getInst_writeLine]
    split
    · rw [getSlot_leaving, getSlot_setSlot_same]
    · rw [getSlot_setSlot_same]
  · rw [hi, getInst_writeLine, ← hx]
    split
    · rw [getSlot_leaving, getSlot_setSlot_other _ _ _ _ hk]
    · rw [getSlot_setSlot_other _ _ _ _ hk]

/-- One turn of the end of an instance's lines. -/
def endLineTurn (i st : Nat) (s : State) (e : Nat × InSlot) : State :=
  match e.2.op with
  | some o => endLine s i e.1 { o with look := {} } st []
  | none => s

theorem endLineTurn_keeps (st : Nat) (e : Nat × InSlot) : (getInst (endLineTurn i st s e) i).ops = (getInst s i).ops ∧
    (∀ j, j ≠ i → getInst (endLineTurn i st s e) j = getInst s j) ∧
    ∀ k, (getSlot (getInst s i) k).op = none → (getSlot (getInst (endLineTurn i st s e) i) k).op = none := by
  unfold endLineTurn
  split
  · obtain ⟨hops, hother, hn, hk⟩ := getInst_endLine s i e.1 _ st []
    refine ⟨hops, hother, fun k h => ?_⟩
    by_cases hkn : k = e.1
    · rw [hkn]
      exact hn
    · rw [hk k hkn]
      exact h
  · exact ⟨rfl, fun _ _ => rfl, fun _ h => h⟩

theorem endLines_ops (st : Nat) : (getInst (endLines s i st) i).ops = (getInst s i).ops :=
  each_keeps (P := fun u => (getInst u i).ops = (getInst s i).ops) (f := endLineTurn i st)
    (fun u e hu => (endLineTurn_keeps u i st e).1.trans hu) _ rfl

theorem endLines_other (st : Nat) {j : Nat} (hj : j ≠ i) : getInst (endLines s i st) j = getInst s j :=
  each_keeps (P := fun u => getInst u j = getInst s j) (f := endLineTurn i st)
    (fun u e hu => ((endLineTurn_keeps u i st e).2.1 j hj).trans hu) _ rfl

/-- No line stays in a lane. -/
theorem endLines_lanes (st n : Nat) : (getSlot (getInst (endLines s i st) i) n).op = none := by
  have hkeep : ∀ u e, (getSlot (getInst u i) n).op = none → (getSlot (getInst (endLineTurn i st u e) i) n).op = none :=
    fun u e => (endLineTurn_keeps u i st e).2.2 n
  cases hop : (getSlot (getInst s i) n).op with
  | none => exact each_keeps (P := fun u => (getSlot (getInst u i) n).op = none) (f := endLineTurn i st) hkeep _ hop
  | some o =>
    have hmem : (n, getSlot (getInst s i) n) ∈ (getInst s i).slots := slot_listed fun h => by
      rw [h] at hop
      cases hop
    refine each_reaches (P := fun u => (getSlot (getInst u i) n).op = none) (f := endLineTurn i st) hmem (fun u => ?_) hkeep s
    unfold endLineTurn
    dsimp only
    rw [hop]
    exact (getInst_endLine u i n _ st []).2.2.1

theorem squashAll_squashed : ∀ a ∈ (getInst (squashAll s i) i).ops, a.squashed = true := by
  intro a ha
  rw [squashAll_eq, endLines_ops] at ha
  refine (endAdmitted_squashed _ i a ha).elim id fun h => Classical.byContradiction fun hs => ?_
  exact endAllCovered_none s i h.1 (eq_false_of_ne_true hs) h.2

theorem squashAll_other {j : Nat} (hj : j ≠ i) : getInst (squashAll s i) j = getInst s j := by
  rw [squashAll_eq, endLines_other _ _ _ hj, (endAdmitted_ending _ i).other j hj, (endAllCovered_ending s i).other j hj]

theorem squashAll_lanes (n : Nat) : (getSlot (getInst (squashAll s i) i) n).op = none := endLines_lanes _ i 0x0702 n

end

/-! ## Held reads on idle slots (R311) -/

/-- One turn of the answers to the held reads on idle slots. -/
def answerIdleTurn (i : Nat) (s : State) (e : Nat × InSlot) : State :=
  if e.2.st = .idle ∧ e.2.held.isSome then
    modInst (answerHeld s e.2.held idleLine) i (fun x => setSlot x e.1 { e.2 with held := none })
  else s

section
variable (s : State) (i : Nat)

theorem answerIdle_eq : answerIdle s i = each (getInst s i).slots s (answerIdleTurn i) := rfl

theorem answerIdleTurn_keeps (e : Nat × InSlot) :
    getInst (answerIdleTurn i s e) i = { getInst s i with slots := (getInst (answerIdleTurn i s e) i).slots } ∧
    (∀ j, j ≠ i → getInst (answerIdleTurn i s e) j = getInst s j) ∧
    ∀ n, getSlot (getInst (answerIdleTurn i s e) i) n =
      if n = e.1 ∧ e.2.st = .idle ∧ e.2.held.isSome = true then { e.2 with held := none } else getSlot (getInst s i) n := by
  unfold answerIdleTurn
  by_cases h : e.2.st = .idle ∧ e.2.held.isSome = true
  · rw [if_pos h]
    have hi : ∀ j, getInst (answerHeld s e.2.held idleLine) j = getInst s j := fun j => getInst_of_insts (answerHeld_insts _ _ _) j
    refine ⟨?_, fun j hj => (getInst_setInst_other _ _ _ _ hj).trans (hi j), fun n => ?_⟩
    · rw [getInst_modInst_same, hi]
      rfl
    · rw [getInst_modInst_same, hi]
      by_cases hn : n = e.1
      · rw [if_pos ⟨hn, h⟩, hn, getSlot_setSlot_same]
      · rw [if_neg (fun hh => hn hh.1), getSlot_setSlot_other _ _ _ _ hn]
  · rw [if_neg h]
    exact ⟨rfl, fun _ _ => rfl, fun n => (if_neg fun hh => h hh.2).symm⟩

theorem answerIdle_inst : getInst (answerIdle s i) i = { getInst s i with slots := (getInst (answerIdle s i) i).slots } := by
  rw [answerIdle_eq]
  exact each_keeps (P := fun u => getInst u i = { getInst s i with slots := (getInst u i).slots }) (f := answerIdleTurn i)
    (fun u e hu => (answerIdleTurn_keeps u i e).1.trans (by rw [hu])) _ rfl

theorem answerIdle_other {j : Nat} (hj : j ≠ i) : getInst (answerIdle s i) j = getInst s j :=
  each_keeps (P := fun u => getInst u j = getInst s j) (f := answerIdleTurn i)
    (fun u e hu => ((answerIdleTurn_keeps u i e).2.1 j hj).trans hu) _ rfl

theorem answerIdle_answers {n : Nat} {h : Held} (hi : (getSlot (getInst s i) n).st = .idle) (hh : (getSlot (getInst s i) n).held = some h) :
    Out.read h.ld h.tag (loadOf s h.ld) idleLine ∈ (answerIdle s i).outbox := by
  rw [answerIdle_eq]
  refine each_reaches_mem (I := fun u => loadOf u h.ld = loadOf s h.ld)
    (P := fun u => Out.read h.ld h.tag (loadOf s h.ld) idleLine ∈ u.outbox) (slot_listed fun e => by rw [e] at hh; cases hh)
    (fun u e hu => ?_) (fun u hu => ?_) (fun u e _ hu => ?_) rfl
  · refine Eq.trans ?_ hu
    unfold answerIdleTurn
    split
    · exact (((answerHeld_within u _ _).mono rfl).then (modInst_within _ _ _) : Within { insts := true, outbox := true } u _).same (loadOf · h.ld)
    · rfl
  · unfold answerIdleTurn
    rw [if_pos ⟨hi, by rw [hh]; rfl⟩, hh]
    exact List.mem_append.2 (.inr (List.mem_singleton.2 (by rw [hu])))
  · unfold answerIdleTurn
    split
    · unfold answerHeld
      split
      · exact List.mem_append_left _ hu
      · exact hu
    · exact hu

variable (hr : mrising (getInst s i).slots = true)
include hr

/-- A slot that holds no read while idle is left as it is. -/
theorem answerIdle_slot {n : Nat} (h : (getSlot (getInst s i) n).st ≠ .idle ∨ (getSlot (getInst s i) n).held = none) :
    getSlot (getInst (answerIdle s i) i) n = getSlot (getInst s i) n := by
  rw [answerIdle_eq]
  refine each_keeps_mem (P := fun u => getSlot (getInst u i) n = getSlot (getInst s i) n) (fun u e he hu => ?_) rfl
  rw [(answerIdleTurn_keeps u i e).2.2 n, if_neg]
  · exact hu
  · rintro ⟨rfl, hi, hh⟩
    have hslot : getSlot (getInst s i) e.1 = e.2 := mget_of_mem ({} : InSlot) hr he
    rw [hslot] at h
    rcases h with h | h
    · exact h hi
    · rw [h] at hh
      cases hh

variable {n : Nat} {h : Held} (hi : (getSlot (getInst s i) n).st = .idle) (hh : (getSlot (getInst s i) n).held = some h)
include hi hh

theorem answerIdle_released : getSlot (getInst (answerIdle s i) i) n = { getSlot (getInst s i) n with held := none } := by
  rw [answerIdle_eq]
  refine each_reaches_mem (I := fun _ => True) (P := fun u => getSlot (getInst u i) n = { getSlot (getInst s i) n with held := none })
    (slot_listed fun e => by rw [e] at hh; cases hh) (fun _ _ _ => trivial) (fun u _ => ?_) (fun u e he hu => ?_) trivial
  · rw [(answerIdleTurn_keeps u i _).2.2 n, if_pos ⟨rfl, hi, by rw [hh]; rfl⟩]
  · rw [(answerIdleTurn_keeps u i e).2.2 n]
    split
    · next hc =>
      have hslot : getSlot (getInst s i) n = e.2 := by rw [hc.1]; exact mget_of_mem ({} : InSlot) hr he
      rw [hslot]
    · exact hu

end

/-! ## What a squash leaves (R311, R312) -/

/-- Every operation left is being ended; of `x`'s, each that was not being ended and waits for no host request is gone. -/
def SquashLeaves (x y : Inst) : Prop :=
  (∀ o ∈ y.ops, o.squashed = true) ∧ (∀ o ∈ x.ops, o.squashed = false →
    o.stage = .covered ∨ (o.reads = 0 ∧ o.readBack = false) → findOp y o.count = none)

/-- What a squash brings about, whatever was written into the instance before. -/
theorem squashAll_leaves {w : State} {i : Nat} {x : Inst} (h : (getInst w i).ops = x.ops) :
    SquashLeaves x (getInst (settle (squashAll w i)) i) ∧ ∀ n, (getSlot (getInst (settle (squashAll w i)) i) n).op = none := by
  rw [getInst_of_insts (settle_insts _) i]
  exact ⟨⟨squashAll_squashed w i, fun o ho hs hw => squashAll_findOp w i o (h ▸ ho) hs hw⟩, squashAll_lanes w i⟩

section
variable {s : State} (t : Nat) (i : InstNo)

theorem resetCommand_stalled (hub : islandRuns s islHub = false) {cmd : Instr} (hc : cmd ∈ [Instr.resetDrain t i, .resetSquash t i]) :
    ∃ u, exec cmd s = .next u ∧ Beside (stall (at_ s t) cmd) u := by
  have hcross : ∀ c f, crossing (at_ s t) [] [islHub] c f = stall (at_ s t) c := fun c f => by
    unfold crossing
    rw [if_neg (by simp)]
    exact if_neg (fun h : [islHub].all (islandRuns s) = true => absurd ((List.all_eq_true.1 h islHub (List.mem_singleton_self _)).symm.trans hub) (by decide))
  simp only [List.mem_cons, List.not_mem_nil, or_false] at hc
  rcases hc with rfl | rfl
  · exact ⟨_, congrArg (fun w => Host.Outcome.next (settle w)) (hcross _ _), settle_beside _⟩
  · exact ⟨_, congrArg (fun w => Host.Outcome.next (settle w)) (hcross _ _), settle_beside _⟩

variable (hub : islandRuns s islHub = true)
include hub

section
variable (h0 : (getInst s i.toNat).st ≠ 0) (h5 : (getInst s i.toNat).st ≠ 5) (hn : (getInst s i.toNat).reset = none)
include h0 h5 hn

theorem resetDrain_begins (hr : mrising (getInst s i.toNat).slots = true) :
    ∃ u y, exec (.resetDrain t i) s = .next u ∧ y = getInst u i.toNat ∧ y.st = 2 ∧
      y.reset = some { squash := false, arr := (at_ s t).now, deadline := drainDeadline (at_ s t) i.toNat, didSquash := false
                       toFrozen := decide ((getInst s i.toNat).st = 3) || decide ((getInst s i.toNat).st = 4) } ∧
      y.ops = (getInst s i.toNat).ops ∧ y.ring = (getInst s i.toNat).ring ∧ y.staging = (getInst s i.toNat).staging ∧
      y.s = (getInst s i.toNat).s ∧ y.h = (getInst s i.toNat).h ∧
      (∀ n, (getSlot (getInst s i.toNat) n).st ≠ .idle → getSlot y n = getSlot (getInst s i.toNat) n) ∧
      (∀ n, (getSlot (getInst s i.toNat) n).st = .idle → getSlot y n = { getSlot (getInst s i.toNat) n with held := none }) ∧
      (∀ n h, (getSlot (getInst s i.toNat) n).st = .idle → (getSlot (getInst s i.toNat) n).held = some h →
        Out.read h.ld h.tag (loadOf (at_ s t) h.ld) idleLine ∈ u.outbox) ∧
      (∀ j, j ≠ i.toNat → getInst u j = getInst s j) := by
  have he := exec_resetDrain t i hub
  rw [requestReset_of_none (s := at_ s t) h0 h5 hn, if_neg (by decide)] at he
  have hb : getInst (resetBegun (at_ s t) i.toNat false) i.toNat =
      { getInst s i.toNat with st := 2, reset := some (newReset (at_ s t) i.toNat false) } := getInst_modInst_same _ _ _
  have hbother : ∀ j, j ≠ i.toNat → getInst (resetBegun (at_ s t) i.toNat false) j = getInst s j := fun j hj =>
    getInst_setInst_other _ _ _ _ hj
  have hload : ∀ ld, loadOf (resetBegun (at_ s t) i.toNat false) ld = loadOf (at_ s t) ld := fun _ => rfl
  generalize resetBegun (at_ s t) i.toNat false = w at he hb hbother hload
  have hrw : mrising (getInst w i.toNat).slots = true := by
    rw [hb]
    exact hr
  have hslot : ∀ n, getSlot (getInst w i.toNat) n = getSlot (getInst s i.toNat) n := fun n => by
    rw [hb]
    rfl
  have hx := getInst_of_insts (settle_insts (answerIdle w i.toNat)) i.toNat
  have hinst := (answerIdle_inst w i.toNat).trans (by rw [hb])
  refine ⟨_, _, he, rfl, ?_, ?_, ?_, ?_, ?_, ?_, ?_, fun n hi => ?_, fun n hi => ?_, fun n h hi hh => ?_, fun j hj => ?_⟩
  · rw [hx, hinst]
  · rw [hx, hinst]
    rfl
  · rw [hx, hinst]
  · rw [hx, hinst]
  · rw [hx, hinst]
  · rw [hx, hinst]
  · rw [hx, hinst]
  · rw [hx, answerIdle_slot w i.toNat hrw (.inl (by rw [hslot]; exact hi)), hslot]
  · rw [hx]
    cases hh : (getSlot (getInst s i.toNat) n).held with
    | none =>
      rw [answerIdle_slot w i.toNat hrw (.inr (by rw [hslot]; exact hh)), hslot, ← hh]
    | some h => rw [answerIdle_released w i.toNat hrw (by rw [hslot]; exact hi) (by rw [hslot]; exact hh), hslot]
  · rw [(settle_within _).same (·.outbox), ← hload]
    exact answerIdle_answers w i.toNat (by rw [hslot]; exact hi) (by rw [hslot]; exact hh)
  · rw [getInst_of_insts (settle_insts _), answerIdle_other w i.toNat hj, hbother j hj]

theorem resetSquash_begins :
    ∃ u y, exec (.resetSquash t i) s = .next u ∧ y = getInst u i.toNat ∧ y.st = 2 ∧
      (∃ r, y.reset = some r ∧ r.squash = true ∧ r.didSquash = true) ∧ SquashLeaves (getInst s i.toNat) y ∧
      (∀ n, (getSlot y n).op = none) ∧ (∀ j, j ≠ i.toNat → getInst u j = getInst s j) := by
  have he := exec_resetSquash t i hub
  have hbegins := requestReset_begins (s := at_ s t) h0 h5 hn true
  rw [requestReset_of_none (s := at_ s t) h0 h5 hn, if_pos rfl] at he hbegins
  have hops : (getInst (answerIdle (resetBegun (at_ s t) i.toNat true) i.toNat) i.toNat).ops = (getInst s i.toNat).ops := by
    have hb : getInst (resetBegun (at_ s t) i.toNat true) i.toNat =
        { getInst s i.toNat with st := 2, reset := some (newReset (at_ s t) i.toNat true) } := getInst_modInst_same _ _ _
    rw [answerIdle_inst, hb]
  have hother : ∀ j, j ≠ i.toNat → getInst (answerIdle (resetBegun (at_ s t) i.toNat true) i.toNat) j = getInst s j := fun j hj =>
    (answerIdle_other _ _ hj).trans (getInst_setInst_other _ _ _ _ hj)
  obtain ⟨hleft, hlanes⟩ := squashAll_leaves hops
  have hx := getInst_of_insts (settle_insts (squashAll (answerIdle (resetBegun (at_ s t) i.toNat true) i.toNat) i.toNat)) i.toNat
  refine ⟨_, _, he, rfl, ?_, ⟨newReset (at_ s t) i.toNat true, ?_, rfl, rfl⟩, hleft, hlanes, fun j hj => ?_⟩
  · rw [hx]
    exact hbegins.st
  · rw [hx]
    exact hbegins.reset
  · rw [getInst_of_insts (settle_insts _), squashAll_other _ _ hj, hother j hj]

end

variable {r : Reset} (hreset : (getInst s i.toNat).reset = some r)
include hreset

theorem resetSquash_converts (h2 : (getInst s i.toNat).st = 2) (hd : r.squash = false) :
    ∃ u y, exec (.resetSquash t i) s = .next u ∧ y = getInst u i.toNat ∧
      y.reset = some { r with squash := true, didSquash := true } ∧ SquashLeaves (getInst s i.toNat) y ∧ (∀ n, (getSlot y n).op = none) ∧
      (∀ j, j ≠ i.toNat → getInst u j = getInst s j) := by
  have he := exec_resetSquash t i hub
  rw [requestReset_squash_draining (s := at_ s t) h2 hreset hd] at he
  generalize hw : modInst (at_ s t) i.toNat (fun x => { x with reset := some { r with squash := true, didSquash := true } }) = w at he
  have hi : getInst w i.toNat = { getInst s i.toNat with reset := some { r with squash := true, didSquash := true } } :=
    hw ▸ getInst_modInst_same _ _ _
  have hother : ∀ j, j ≠ i.toNat → getInst w j = getInst s j := fun j hj => hw ▸ getInst_setInst_other _ _ _ _ hj
  obtain ⟨hleft, hlanes⟩ := squashAll_leaves (w := w) (x := getInst s i.toNat) (by rw [hi])
  refine ⟨_, _, he, rfl, ?_, hleft, hlanes, fun j hj => ?_⟩
  · rw [getInst_of_insts (settle_insts _), (squashAll_thins w i.toNat).reset, hi]
  · rw [getInst_of_insts (settle_insts _), squashAll_other _ _ hj, hother j hj]

omit hub

theorem drainOver_squashes (hd : r.squash = false) (hdue : r.deadline ≤ (at_ s t).now) (hq : quiet (getInst s i.toNat) = false) :
    drainOver (at_ s t) i.toNat =
      squashAll (modInst (at_ s t) i.toNat (fun x => { x with reset := some { r with didSquash := true } })) i.toNat := by
  unfold drainOver
  dsimp only
  rw [show (getInst (at_ s t) i.toNat).reset = some r from hreset]
  exact if_pos ⟨hd, hdue, hq⟩

theorem drainOver_stands (h : r.squash = true ∨ (at_ s t).now < r.deadline ∨ quiet (getInst s i.toNat) = true) :
    drainOver (at_ s t) i.toNat = at_ s t := by
  unfold drainOver
  dsimp only
  rw [show (getInst (at_ s t) i.toNat).reset = some r from hreset]
  refine if_neg ?_
  rintro ⟨hd, hdue, hq⟩
  rcases h with h | h | h
  · exact absurd (hd.symm.trans h) (by decide)
  · omega
  · exact absurd (h.symm.trans hq) (by decide)

theorem reportReset_waits (hq : quiet (getInst s i.toNat) = false) : reportReset (at_ s t) i.toNat = at_ s t := by
  unfold reportReset
  dsimp only
  rw [show (getInst (at_ s t) i.toNat).reset = some r from hreset]
  exact if_neg (ne_true_of_eq_false hq)

theorem reportReset_other {j : Nat} (hj : j ≠ i.toNat) : getInst (reportReset (at_ s t) i.toNat) j = getInst s j := by
  unfold reportReset
  dsimp only
  rw [show (getInst (at_ s t) i.toNat).reset = some r from hreset]
  dsimp only
  split
  · rw [getInst_of_insts ((sendMsix_insts _ _ _).trans (bump_insts _ _))]
    exact getInst_setInst_other _ _ _ _ hj
  · rfl

include hub

theorem resetDrainDeadline_squashes (hd : r.squash = false) (hdue : r.deadline ≤ (at_ s t).now) (hq : quiet (getInst s i.toNat) = false) :
    ∃ u y, exec (.resetDrainDeadline t i) s = .next u ∧ y = getInst u i.toNat ∧ y.reset = some { r with didSquash := true } ∧
      SquashLeaves (getInst s i.toNat) y ∧ (∀ n, (getSlot y n).op = none) ∧ (∀ j, j ≠ i.toNat → getInst u j = getInst s j) := by
  have he : exec (.resetDrainDeadline t i) s = .next (drainOver (at_ s t) i.toNat) := congrArg Host.Outcome.next (clocked_one hub)
  rw [drainOver_squashes t i hreset hd hdue hq] at he
  generalize hw : modInst (at_ s t) i.toNat (fun x => { x with reset := some { r with didSquash := true } }) = w at he
  have hi : getInst w i.toNat = { getInst s i.toNat with reset := some { r with didSquash := true } } :=
    hw ▸ getInst_modInst_same _ _ _
  have hother : ∀ j, j ≠ i.toNat → getInst w j = getInst s j := fun j hj => hw ▸ getInst_setInst_other _ _ _ _ hj
  obtain ⟨hleft, hlanes⟩ := squashAll_leaves (w := w) (x := getInst s i.toNat) (by rw [hi])
  rw [getInst_of_insts (settle_insts _)] at hleft hlanes
  exact ⟨_, _, he, rfl, by rw [(squashAll_thins w i.toNat).reset, hi], hleft, hlanes, fun j hj => (squashAll_other w _ hj).trans (hother j hj)⟩

theorem resetReport_cleans (hq : quiet (getInst s i.toNat) = true) : ∃ u, exec (.resetReport t i) s = .next u ∧
    getInst u i.toNat = { getInst s i.toNat with
      st := if r.toFrozen then 4 else 1, freezeDone := (getInst s i.toNat).freezeDone || r.toFrozen, lastSquash := r.didSquash
      resetDone := true, reset := none, s := 0, h := 0, ring := [], ops := [], staging := [], slots := [], leaving := [], caps := []
      capCount := 0, deficit := 0 } ∧
    (∀ j, j ≠ i.toNat → getInst u j = getInst s j) :=
  ⟨_, exec_resetReport t i hub, (getInst_of_insts (settle_insts _) _).trans (reportReset_inst (s := at_ s t) hreset hq),
    fun _ hj => (getInst_of_insts (settle_insts _) _).trans (reportReset_other t i hreset hj)⟩

end

section
variable {s : State} (t : Nat) (i : InstNo) (hub : islandRuns s islHub = true) (h3 : (getInst s i.toNat).st = 3)
include hub h3

theorem freezeComplete_freezes (hq : quiet (getInst s i.toNat) = true) : ∃ u, exec (.freezeComplete t i) s = .next u ∧
    getInst u i.toNat = { getInst s i.toNat with st := 4, freezeDone := true } ∧ (∀ j, j ≠ i.toNat → getInst u j = getInst s j) := by
  have hdone : freezeDone (at_ s t) i.toNat = sendMsix (modInst (at_ s t) i.toNat (fun x => { x with st := 4, freezeDone := true }))
      (instLd s.ctl.cfg i.toNat) (ringVector s.ctl.cfg i.toNat) := if_pos ⟨h3, hq⟩
  refine ⟨_, congrArg (fun w => Host.Outcome.next (settle w)) (clocked_one hub), ?_, fun j hj => ?_⟩
  · rw [getInst_of_insts (settle_insts _), hdone, getInst_of_insts (sendMsix_insts _ _ _), getInst_modInst_same]
    rfl
  · rw [getInst_of_insts (settle_insts _), hdone, getInst_of_insts (sendMsix_insts _ _ _)]
    exact getInst_setInst_other _ _ _ _ hj

omit h3 in
theorem freezeComplete_waits (hq : quiet (getInst s i.toNat) = false) : ∃ u, exec (.freezeComplete t i) s = .next u ∧ Beside (at_ s t) u := by
  have hstand : freezeDone (at_ s t) i.toNat = at_ s t := if_neg fun h => absurd (hq.symm.trans h.2) (by decide)
  refine ⟨_, congrArg (fun w => Host.Outcome.next (settle w)) (clocked_one hub), ?_⟩
  rw [hstand]
  exact settle_beside _

end

/-- Settles O40: a request is `requestReset` at the hub; a squash ends the covered operations, then the admitted ones, then the lines, and
each turn leaves of its instance only operations that it had or that are being ended (`Ending`). -/
theorem resetsAndFreezes : Obligations.ResetsAndFreezes := by
  rintro s t i x rfl hr
  refine ⟨fun hub cmd hc => resetCommand_stalled t i hub hc, fun hub left hl => ?_⟩
  obtain rfl : left = SquashLeaves (getInst s i.toNat) := hl
  refine ⟨fun h cmd hc => resetCommand_ignored t i hub h hc,
    fun h0 h5 hn => ⟨resetDrain_begins t i hub h0 h5 hn hr, resetSquash_begins t i hub h0 h5 hn⟩,
    fun r hreset => ⟨fun h2 hd => resetSquash_converts t i hub hreset h2 hd, fun _ => ?_,
      fun hd hdue hq => resetDrainDeadline_squashes t i hub hreset hd hdue hq, fun h => ?_,
      fun hq => resetReport_cleans t i hub hreset hq, fun hq => ?_⟩,
    fun h3 => ⟨freezeComplete_freezes t i hub h3, freezeComplete_waits t i hub⟩⟩
  · have he := exec_resetDrain t i hub
    rw [requestReset_drain_resetting (s := at_ s t) hreset] at he
    exact ⟨_, he, settle_beside _⟩
  · exact congrArg Host.Outcome.next ((clocked_one hub).trans (drainOver_stands t i hreset h))
  · have he := exec_resetReport t i hub
    rw [reportReset_waits t i hreset hq] at he
    exact ⟨_, he, settle_beside _⟩

end Sys2Proof.Machine
end

section
/-! SUPPORT. The end of a ring operation whose verdict is fixed (R49, R108, R111, R112, R133, R179, R218, R230, R234). -/

namespace Sys2Proof.Machine

-- One proof at a time: the check bounds the compiler's threads.
set_option Elab.async false

open Sys2Proof Sys2Proof.Safety

/-! ## What an ending operation keeps of its ring -/

/-- Ring, tail, staging and slots of an instance, and the other instances, stand, and no message is taken back. -/
structure RingKept (i : Nat) (s u : State) : Prop where
  ring : (getInst u i).ring = (getInst s i).ring
  tail : (getInst u i).s = (getInst s i).s
  staging : (getInst u i).staging = (getInst s i).staging
  slots : (getInst u i).slots = (getInst s i).slots
  other : ∀ j, j ≠ i → getInst u j = getInst s j
  outbox : ∀ m ∈ s.outbox, m ∈ u.outbox

section
variable {i : Nat} {s u v : State}

theorem RingKept.refl (i : Nat) (s : State) : RingKept i s s := ⟨rfl, rfl, rfl, rfl, fun _ _ => rfl, fun _ h => h⟩

theorem RingKept.trans (h : RingKept i s u) (h' : RingKept i u v) : RingKept i s v :=
  ⟨h'.ring.trans h.ring, h'.tail.trans h.tail, h'.staging.trans h.staging, h'.slots.trans h.slots,
    fun j hj => (h'.other j hj).trans (h.other j hj), fun m hm => h'.outbox m (h.outbox m hm)⟩

/-- So it is where neither instances nor messages are written. -/
theorem RingKept.of_insts (h : u.insts = s.insts) (ho : u.outbox = s.outbox) : RingKept i s u :=
  have hx := getInst_of_insts h i
  ⟨congrArg Inst.ring hx, congrArg Inst.s hx, congrArg Inst.staging hx, congrArg Inst.slots hx, fun j _ => getInst_of_insts h j,
    fun _ hm => ho ▸ hm⟩

theorem RingKept.ite {c : Prop} [Decidable c] (hu : RingKept i s u) (hv : RingKept i s v) : RingKept i s (if c then u else v) := by
  split <;> assumption

/-- A completion seen from a state that agrees on the ring is one seen from before. -/
theorem Ended.of_kept {o : RingOp} {e : Bytes} (h : Ended u v i o e) (hk : RingKept i s u) (hc : u.ctl.cfg = s.ctl.cfg) : Ended s v i o e := by
  obtain ⟨hgone, hentry, hrest, hhead, htail⟩ := h
  rw [hc] at hentry hrest
  exact ⟨hgone, hentry, fun k hk' => (hrest k hk').trans (by rw [hk.ring]), hhead, htail.trans hk.tail⟩

end

/-! ## The memories of an operation's engines -/

/-- An engine left by an operation: a cipher engine is zeroed, the key area of a BNC is (R133, R234). -/
def EngineLeft (cipher : Bool) (b k : Nat) (s : State) : Prop :=
  if cipher then mget {} (getBay s b).mem k = {} else (mget {} (getBay s b).mem k).key = .zero

/-- The memories of every bay's engines stand. -/
def MemKept (s u : State) : Prop := ∀ b, (getBay u b).mem = (getBay s b).mem

section
variable {s u v : State}

theorem MemKept.refl (s : State) : MemKept s s := fun _ => rfl

theorem MemKept.trans (h : MemKept s u) (h' : MemKept u v) : MemKept s v := fun b => (h' b).trans (h b)

theorem MemKept.of_bays (h : u.bays = s.bays) : MemKept s u := fun b => congrArg Bay.mem (getBay_of_bays h b)

theorem MemKept.modBay {b : Nat} {f : Bay → Bay} (h : ∀ x, (f x).mem = x.mem) : MemKept s (modBay s b f) := fun c => by
  by_cases hc : c = b
  · rw [hc]
    exact (congrArg Bay.mem (getBay_setBay_same _ _ _)).trans (h _)
  · exact congrArg Bay.mem (getBay_setBay_other _ _ _ _ hc)

theorem MemKept.ite {c : Prop} [Decidable c] (hu : MemKept s u) (hv : MemKept s v) : MemKept s (if c then u else v) := by
  split <;> assumption

theorem EngineLeft.kept {cipher : Bool} {b k : Nat} (h : EngineLeft cipher b k s) (hm : MemKept s u) : EngineLeft cipher b k u := by
  unfold EngineLeft at h ⊢
  rwa [hm b]

end

section
variable (s : State)

theorem releaseBooking_mem (o : RingOp) (f : Nat) : MemKept s (releaseBooking s o f) := by
  have hcharges : ∀ (cs : List Nat) (frame : Nat) (w : State), MemKept s w → MemKept s (dropCharges w o.bay f frame cs) := by
    intro cs
    induction cs with
    | nil => exact fun _ _ h => h
    | cons c cs ih => exact fun frame w h => ih _ _ (.ite (h.trans (.modBay fun _ => rfl)) h)
  unfold releaseBooking
  split
  · exact (hcharges _ _ s (.refl s)).trans (.of_bays ((dropDma_within _ _ _ _ _).same (·.bays)))
  · exact .refl s

theorem noteLate_mem (i bay op st past : Nat) : MemKept s (noteLate s i bay op st past) := by
  unfold noteLate
  dsimp only
  refine MemKept.trans ?_ (.of_bays ((record_within _ _ _ _).same (·.bays)))
  split
  · exact MemKept.trans (u := bump s (instKey i 0x67)) (.of_bays rfl) (.modBay fun _ => rfl)
  · exact .of_bays rfl

theorem getMem_modMem (b k : Nat) (f : EngMem → EngMem) (j : Nat) : mget {} (getBay (modMem s b k f) b).mem j =
    if j = k then f (mget {} (getBay s b).mem k) else mget {} (getBay s b).mem j := by
  by_cases h : j = k
  · rw [h, if_pos rfl]
    exact modMem_same s b k f
  · rw [if_neg h]
    exact modMem_other s b k h f

theorem getMem_clearMem (b k j : Nat) : mget {} (getBay (clearMem s b k .nobody) b).mem j =
    if j = k then {} else mget {} (getBay s b).mem j := by
  unfold clearMem
  rw [getBay_of_bays ((writeEngine_within _ b k).same (·.bays)), getMem_modMem]

theorem getMem_leaveSegment (b k j : Nat) : mget {} (getBay (leaveSegment s b k) b).mem j =
    if j = k then { mget {} (getBay s b).mem k with key := .zero } else mget {} (getBay s b).mem j := by
  unfold leaveSegment
  rw [getBay_of_bays ((writeWords_within _ _ _ _).same (·.bays)), getMem_modMem]

theorem getMem_leaveOutput (b k op j : Nat) : mget {} (getBay (leaveOutput s b k op) b).mem j =
    if j = k then { mget {} (getBay s b).mem k with io := .ofOp op s.free } else mget {} (getBay s b).mem j := by
  unfold leaveOutput freshArea
  dsimp only
  rw [getBay_of_bays ((writeWords_within _ _ _ _).same (·.bays)), getMem_modMem]
  rfl

/-- The engines of an operation, left. -/
theorem leaveEngines_left (i : Nat) (o : RingOp) (aborted : Bool) {k : Nat} (hk : k ∈ ownEngines s i o) :
    EngineLeft (decide (o.plan.kind = .cipher)) o.bay k (leaveEngines s i o aborted) := by
  unfold leaveEngines EngineLeft
  by_cases hc : o.plan.kind = .cipher
  · rw [if_pos hc, decide_eq_true hc, if_pos rfl]
    refine each_reaches (P := fun w => mget {} (getBay w o.bay).mem k = {}) (f := fun s k => clearMem s o.bay k .nobody) hk
      (fun w => ?_) (fun w j hw => ?_) s
    · rw [getMem_clearMem, if_pos rfl]
    · rw [getMem_clearMem]
      split
      · rfl
      · exact hw
  · rw [if_neg hc, decide_eq_false hc, if_neg (by decide)]
    cases aborted
    · refine each_reaches (P := fun w => (mget {} (getBay w o.bay).mem k).key = .zero) (f := fun s k => leaveSegment s o.bay k) hk
        (fun w => ?_) (fun w j hw => ?_) s
      · rw [getMem_leaveSegment, if_pos rfl]
      · rw [getMem_leaveSegment]
        split
        · rfl
        · exact hw
    · refine each_reaches (P := fun w => (mget {} (getBay w o.bay).mem k).key = .zero) (f := fun s k => wipeBnc s o.bay k .nobody) hk
        (fun w => ?_) (fun w j hw => ?_) s
      · show (mget {} (getBay (clearMem w o.bay k .nobody) o.bay).mem k).key = .zero
        rw [getMem_clearMem, if_pos rfl]
      · show (mget {} (getBay (clearMem w o.bay j .nobody) o.bay).mem k).key = .zero
        rw [getMem_clearMem]
        split
        · rfl
        · exact hw

/-- Output left in an engine's I/O area keeps the key areas. -/
theorem leaveOutput_left {b k : Nat} (j op : Nat) (h : EngineLeft false b k s) : EngineLeft false b k (leaveOutput s b j op) := by
  unfold EngineLeft at h ⊢
  rw [if_neg (by decide)] at h ⊢
  rw [getMem_leaveOutput]
  split
  · next hk => exact hk ▸ h
  · exact h

end

/-! ## The completion (R49, R108, R111, R112) -/

/-- The status under which an operation of a base status completes at a time. -/
def lateStatus (o : RingOp) (now st : Nat) : Nat := if st = 0 ∧ (promised o < now ∨ o.suspended = true) then 1 else st

section
variable (s : State) (i : Nat) (o : RingOp)

theorem endStatus_eq (oc : Outcome) : endStatus s o oc = lateStatus o s.now (baseStatus o oc) := rfl

theorem lateStatus_le_one {now st : Nat} (h : st ≠ 0) : lateStatus o now st = st := if_neg fun hh => h hh.1

theorem lateStatus_success {now : Nat} : lateStatus o now 0 ≤ 1 := by
  unfold lateStatus
  split <;> omega

/-- Staged output goes to the staging pages of its instance. -/
theorem writeStaged_writes (out : Bytes) : (∀ r, outRegion o.snap 0 = some r → r.host = false →
      (getInst (writeStaged s i o out) i).staging = Memory.writeN (getInst s i).staging r.ref out) ∧
    ((outRegion o.snap 0).all (·.host) = true → writeStaged s i o out = s) := by
  unfold writeStaged
  refine ⟨fun r hr hh => ?_, fun h => ?_⟩
  · rw [hr]
    dsimp only
    rw [if_neg (ne_true_of_eq_false hh), getInst_of_insts ((noteWriter_insts _ _ _ _ _).trans (writeWords_insts _ _ _ _)), getInst_modInst_same]
  · split
    · next r hr =>
      rw [hr] at h
      exact if_pos h
    · rfl

theorem writeStaged_inst (out : Bytes) : (getInst (writeStaged s i o out) i) =
      { getInst s i with staging := (getInst (writeStaged s i o out) i).staging } ∧
    ∀ j, j ≠ i → getInst (writeStaged s i o out) j = getInst s j := by
  unfold writeStaged
  split
  · split
    · exact ⟨rfl, fun _ _ => rfl⟩
    · refine ⟨?_, fun j hj => ?_⟩
      · rw [getInst_of_insts ((noteWriter_insts _ _ _ _ _).trans (writeWords_insts _ _ _ _)), getInst_modInst_same]
      · rw [getInst_of_insts ((noteWriter_insts _ _ _ _ _).trans (writeWords_insts _ _ _ _))]
        exact getInst_setInst_other _ _ _ _ hj
  · exact ⟨rfl, fun _ _ => rfl⟩

/-- The counting of an operation that ends late. -/
def lateNoted (st : Nat) : State :=
  if (decide (promised o < s.now) || (o.suspended && st == 0)) && o.stage != .atHub then
    noteLate s i o.bay (dOp o.snap) (lateStatus o s.now st) (s.now - promised o) else s

theorem endRing_eq (h : o.stage ≠ .atHub) (st len : Nat) (out res : Bytes) : endRing s i o st len out res =
    completeRing (if lateStatus o s.now st ≤ 1 then writeStaged (lateNoted s i o st) i o out else lateNoted s i o st) i o
      (lateStatus o s.now st) o.att.epoch o.bay 0 (if lateStatus o s.now st ≤ 1 then len else 0)
      (routeRes o (lateStatus o s.now st) res) := by
  have hst : (if st = 0 ∧ ((decide (promised o < s.now) || (o.suspended && st == 0)) && o.stage != .atHub) = true then 1 else st) =
      lateStatus o s.now st := by
    unfold lateStatus
    congr 1
    by_cases h0 : st = 0
    · simp [h0, h]
    · simp [h0]
  unfold endRing lateNoted
  dsimp only
  rw [hst, if_neg h]

theorem lateNoted_within (st : Nat) : Within { bays := true, cnt := true, evr := true } s (lateNoted s i o st) :=
  .ite (noteLate_within s _ _ _ _ _) (.refl s)

theorem lateNoted_mem (st : Nat) : MemKept s (lateNoted s i o st) := .ite (noteLate_mem s _ _ _ _ _) (.refl s)

variable (h : o.stage ≠ .atHub) (st len : Nat) (out res : Bytes)
include h

/-- What the completion of an admitted operation leaves. -/
theorem endRing_completes :
    Ended s (endRing s i o st len out res) i o (completionEntry (ringEntries s.ctl.cfg i) o (lateStatus o s.now st) o.att.epoch o.bay 0
      (if lateStatus o s.now st ≤ 1 then len else 0) (s.now - o.arr) (routeRes o (lateStatus o s.now st) res)) ∧
    (getInst (endRing s i o st len out res) i).slots = (getInst s i).slots ∧
    (∀ j, j ≠ i → getInst (endRing s i o st len out res) j = getInst s j) ∧
    (∀ m ∈ s.outbox, m ∈ (endRing s i o st len out res).outbox) ∧
    (getInst (endRing s i o st len out res) i).staging =
      (getInst (if lateStatus o s.now st ≤ 1 then writeStaged (lateNoted s i o st) i o out else lateNoted s i o st) i).staging := by
  rw [endRing_eq s i o h]
  have hnoted := lateNoted_within s i o st
  have hstaged : ∀ w, w = (if lateStatus o s.now st ≤ 1 then writeStaged (lateNoted s i o st) i o out else lateNoted s i o st) →
      Within endRingScope s w ∧ getInst w i = { getInst s i with staging := (getInst w i).staging } ∧
      (∀ j, j ≠ i → getInst w j = getInst s j) ∧ w.outbox = s.outbox := by
    have hx : ∀ j, getInst (lateNoted s i o st) j = getInst s j := fun j => getInst_of_insts (hnoted.same (·.insts)) j
    rintro w rfl
    split
    · obtain ⟨hi, hj⟩ := writeStaged_inst (lateNoted s i o st) i o out
      refine ⟨(hnoted.mono rfl).then (writeStaged_within _ i o out), ?_, fun j hne => (hj j hne).trans (hx j),
        ((writeStaged_within _ i o out).same (·.outbox)).trans (hnoted.same (·.outbox))⟩
      exact hi.trans (by rw [hx])
    · exact ⟨hnoted.mono rfl, (hx i).trans (by rw [hx]), fun j _ => hx j, hnoted.same (·.outbox)⟩
  generalize (if lateStatus o s.now st ≤ 1 then writeStaged (lateNoted s i o st) i o out else lateNoted s i o st) = w at hstaged ⊢
  obtain ⟨hwithin, hinst, hother, hout⟩ := hstaged w rfl
  obtain ⟨hended, ⟨-, hrest, hmore⟩, hcomplete⟩ := completeRing_ends w i o (lateStatus o s.now st) o.att.epoch o.bay 0
    (if lateStatus o s.now st ≤ 1 then len else 0) (routeRes o (lateStatus o s.now st) res)
  have hcfg : w.ctl.cfg = s.ctl.cfg := hwithin.same (·.ctl.cfg)
  have hnow : w.now = s.now := hwithin.same (·.now)
  rw [hcfg, hnow] at hended
  refine ⟨?_, ?_, fun j hj => (hrest j hj).trans (hother j hj), fun m hm => hmore m (hout ▸ hm), ?_⟩
  · obtain ⟨hgone, hentry, hkeep, hhead, htail⟩ := hended
    rw [hcfg] at hentry hkeep
    refine ⟨hgone, hentry, fun k hk => (hkeep k hk).trans ?_, hhead, htail.trans ?_⟩
    · rw [hinst]
    · rw [hinst]
  · rw [hcomplete]
    show (getInst w i).slots = _
    rw [hinst]
  · rw [hcomplete]

omit h in
theorem endRing_mem : MemKept s (endRing s i o st len out res) := by
  unfold endRing
  extract_lets late st' s1 s2
  have h1 : MemKept s s1 := .ite (noteLate_mem s _ _ _ _ _) (.refl s)
  have h2 : MemKept s1 s2 := .ite (.of_bays ((writeStaged_within s1 i o out).same (·.bays))) (.refl s1)
  exact (h1.trans h2).trans (.of_bays ((completeRing_within s2 _ _ _ _ _ _ _ _).same (·.bays)))

end

/-! ## What comes before the completion (R63, R230, R232, R234, R288) -/

/-- What the end of a ring operation may write. -/
def finishScope : Scope :=
  { insts := true, bays := true, dma := true, cnt := true, evr := true, outbox := true, msixPend := true, bad := true, writers := true
    free := true, cache := true, deriv := true, slotMask := true }

/-- What comes before its completion may write. -/
def finishingScope : Scope :=
  { insts := true, bays := true, dma := true, cnt := true, evr := true, outbox := true, bad := true, free := true, slotMask := true
    keys := true, kumCtr := true, joints := true, commits := true }

/-- So may a key update message that is cut short (R288). -/
def finishKumScope : Scope := { finishScope with keys := true, kumCtr := true, joints := true, commits := true }

section
variable (s : State) (i : Nat) (o : RingOp)

theorem leaveEngines_kept_ring (aborted : Bool) : RingKept i s (leaveEngines s i o aborted) :=
  .of_insts ((leaveEngines_within s i o aborted).same (·.insts)) ((leaveEngines_within s i o aborted).same (·.outbox))

theorem freeBytes_within (n : Nat) : Within { free := true } s (freeBytes s n).2 := rfl

/-- A failed self-check, once its engines are left, is recorded and counted, and queues the engines' tests (R230). -/
theorem selfCheckFailed_leaves (cause : Nat) :
    Within { bays := true, cnt := true, evr := true, free := true } (leaveEngines s i o true) (selfCheckFailed s i o cause) ∧
    MemKept (leaveEngines s i o true) (selfCheckFailed s i o cause) := by
  have hfree := (freeBytes_within (leaveEngines s i o true) 2).mono (G := { bays := true, cnt := true, evr := true, free := true }) rfl
  unfold selfCheckFailed
  dsimp only
  refine ⟨?_, ?_⟩
  · exact (((hfree.then (record_within _ _ _ _)).then (bump_within _ _)).then (bump_within _ _)).then (modBay_within _ _ _)
  · refine MemKept.trans ?_ (.modBay fun _ => rfl)
    exact .of_bays ((record_within (freeBytes (leaveEngines s i o true) 2).2 _ _ _).same (·.bays))

/-- The engines of an operation that ends with a status are left. -/
def enginesLeft (oc : Outcome) (st : Nat) : State :=
  if st = 0x0405 then selfCheckFailed s i o oc.selfFail else leaveEngines s i o (st == 0x0801)

theorem enginesLeft_within (oc : Outcome) (st : Nat) :
    Within { bays := true, bad := true, cnt := true, slotMask := true, evr := true, free := true } s (enginesLeft s i o oc st) :=
  .ite (((leaveEngines_within s i o true).mono rfl).then (selfCheckFailed_leaves s i o oc.selfFail).1) ((leaveEngines_within s i o _).mono rfl)

theorem enginesLeft_left (oc : Outcome) (st : Nat) {k : Nat} (hk : k ∈ ownEngines s i o) :
    EngineLeft (decide (o.plan.kind = .cipher)) o.bay k (enginesLeft s i o oc st) := by
  unfold enginesLeft
  split
  · exact (leaveEngines_left s i o true hk).kept (selfCheckFailed_leaves s i o oc.selfFail).2
  · exact leaveEngines_left s i o _ hk

/-- An unchecked result stands in the I/O areas of the BNCs that produced it. -/
def outputsLeft (st : Nat) : State :=
  if st = 0 ∧ o.plan.kind = .bnc ∧ checkedOp (dOp o.snap) = false then
    each (ownEngines s i o) s (fun s k => leaveOutput s o.bay k (dOp o.snap)) else s

theorem outputsLeft_within (st : Nat) : Within { bays := true, bad := true, slotMask := true, free := true } s (outputsLeft s i o st) :=
  .ite (.each (fun w k => leaveOutput_within w _ k _) _ s) (.refl s)

theorem outputsLeft_left (st : Nat) {k : Nat} (h : EngineLeft (decide (o.plan.kind = .cipher)) o.bay k s) :
    EngineLeft (decide (o.plan.kind = .cipher)) o.bay k (outputsLeft s i o st) := by
  unfold outputsLeft
  split
  · next hc =>
    have hk : decide (o.plan.kind = .cipher) = false := by rw [hc.2.1]; rfl
    rw [hk] at h ⊢
    exact each_keeps (P := EngineLeft false o.bay k) (f := fun s k => leaveOutput s o.bay k (dOp o.snap))
      (fun w j hw => leaveOutput_left w j _ hw) _ h
  · exact h

theorem returnCore_kept_ring : RingKept i s (returnCore s i o) := by
  unfold returnCore refill
  refine ⟨?_, ?_, ?_, ?_, fun j hj => ?_, fun _ h => h⟩
  · rw [getInst_modInst_same, getInst_modInst_same]; rfl
  · rw [getInst_modInst_same, getInst_modInst_same]; rfl
  · rw [getInst_modInst_same, getInst_modInst_same]; rfl
  · rw [getInst_modInst_same, getInst_modInst_same]; rfl
  · exact (getInst_setInst_other _ _ _ _ hj).trans (getInst_setInst_other _ _ _ _ hj)

/-- The account of a signing operation (R63, R232). -/
def accounted : State := if dOp o.snap = 0x6A ∧ o.attempts ≠ 0 then dsaAccount s i o else s

theorem accounted_keeps : Within { insts := true, bays := true, dma := true, cnt := true } s (accounted s i o) ∧
    RingKept i s (accounted s i o) ∧ MemKept s (accounted s i o) := by
  have hcount : ∀ w, w = (if counter s (odKey 0x6040 4) < o.attempts then setCounter s (odKey 0x6040 4) o.attempts else s) →
      Within { cnt := true } s w := by
    rintro w rfl
    exact .ite (setCounter_within s _ _) (.refl s)
  have hrest : ∀ w, Within { cnt := true } s w →
      Within { insts := true, bays := true, dma := true, cnt := true } s (releaseRest w i o) ∧ RingKept i s (releaseRest w i o) ∧
      MemKept s (releaseRest w i o) := fun w hw => by
    have hbook := releaseBooking_within w o (w.now / 2000 + 1)
    refine ⟨((hw.mono rfl).then hbook).then (returnCore_within _ i o), ?_, ?_⟩
    · refine RingKept.trans (u := releaseBooking w o (w.now / 2000 + 1)) (.of_insts ((hbook.same (·.insts)).trans (hw.same (·.insts)))
        ((hbook.same (·.outbox)).trans (hw.same (·.outbox)))) (returnCore_kept_ring _ i o)
    · exact (MemKept.of_bays (hw.same (·.bays))).trans ((releaseBooking_mem w o _).trans (.of_bays ((returnCore_within _ i o).same (·.bays))))
  unfold accounted
  split
  · unfold dsaAccount
    dsimp only
    generalize hw : (if counter s (odKey 0x6040 4) < o.attempts then setCounter s (odKey 0x6040 4) o.attempts else s) = w
    have hcnt := hcount w hw.symm
    split
    · have hb := hcnt.then (bump_within w (odKey 0x6040 5))
      exact ⟨hb.mono rfl, .of_insts (hb.same (·.insts)) (hb.same (·.outbox)), .of_bays (hb.same (·.bays))⟩
    · exact hrest w hcnt
  · exact ⟨.refl s, .refl i s, .refl s⟩

theorem answerSigns_outbox (j : Joint) : ∀ m ∈ s.outbox, m ∈ (answerSigns s j).outbox := by
  unfold answerSigns
  exact each_keeps (P := fun u => ∀ m ∈ s.outbox, m ∈ u.outbox) (fun u v hu m hm => List.mem_append_left _ (hu m hm)) _ (fun _ h => h)

/-- A message cut short keeps the messages on their way out. -/
theorem abandonKum_outbox : ∀ m ∈ s.outbox, m ∈ (abandonKum s i o).outbox := by
  have hcounted : ∀ {c : Prop} [Decidable c] (t v : Nat), (if c then setKumCounter s t v else s).outbox = s.outbox := fun t v =>
    (Within.ite (kumCounted_within s t v) (.refl s)).same (·.outbox)
  have hclose : ∀ w : State, w.outbox = s.outbox → ∀ j, ∀ m ∈ s.outbox, m ∈ (closeJoint (answerSigns w (getJoint w j)) j 4 0x0702).outbox :=
    fun w hw j m hm => ((closeJoint_within _ j 4 0x0702).same (·.outbox)).symm ▸ answerSigns_outbox w _ m (hw ▸ hm)
  unfold abandonKum
  dsimp only
  split
  · cases o.kumJoint with
    | none =>
      dsimp only
      split
      · intro m hm
        rw [hcounted]
        exact hm
      · exact fun _ h => h
    | some j =>
      dsimp only
      split
      · exact hclose _ (hcounted _ _) j
      · exact hclose s rfl j
  · exact fun _ h => h

/-- A refused key update message (R288). -/
def kumEnded (oc : Outcome) (st : Nat) : State :=
  if dOp o.snap = 0x70 ∧ st ≠ 0 ∧ o.kumCutDone = false then kumRefused (abandonKum s i o) st o.att.tenant oc.item else s

theorem kumEnded_keeps (oc : Outcome) (st : Nat) : Within finishingScope s (kumEnded s i o oc st) ∧
    RingKept i s (kumEnded s i o oc st) ∧ MemKept s (kumEnded s i o oc st) := by
  unfold kumEnded
  split
  · have hkum := abandonKum_within s i o
    have href := kumRefused_within (abandonKum s i o) st o.att.tenant oc.item
    refine ⟨(hkum.mono rfl).then href, ?_, .of_bays ((href.same (·.bays)).trans (hkum.same (·.bays)))⟩
    refine RingKept.trans (u := abandonKum s i o) ?_ (.of_insts (href.same (·.insts)) (href.same (·.outbox)))
    have hx := RingKept.of_insts (i := i) (s := { s with outbox := (abandonKum s i o).outbox }) (abandonKum_insts s i o) rfl
    exact ⟨hx.ring, hx.tail, hx.staging, hx.slots, hx.other, abandonKum_outbox s i o⟩
  · exact ⟨.refl s, .refl i s, .refl s⟩

/-- A message whose verified signature has had its cut aborts no joint. -/
theorem kumEnded_within (oc : Outcome) {st : Nat} (h : dOp o.snap = 0x70 → st ≠ 0 → o.kumVerified = true → o.kumCutDone = true) :
    Within { cnt := true, evr := true, free := true } s (kumEnded s i o oc st) := by
  unfold kumEnded
  split
  · next hc =>
    have hstand : abandonKum s i o = s := by
      unfold abandonKum
      exact if_neg fun hv => absurd ((h hc.1 hc.2.1 hv.1).symm.trans hv.2) (by decide)
    rw [hstand]
    exact kumRefused_within s _ _ _
  · exact .refl s

/-! ## The end of an operation with its verdict (R111, R112, R218) -/

/-- The state in which an operation of a verdict completes. -/
def finishing (oc : Outcome) : State :=
  kumEnded (accounted (outputsLeft (enginesLeft s i o oc (baseStatus o oc)) i o (baseStatus o oc)) i o) i o oc (baseStatus o oc)

theorem finishRing_eq (oc : Outcome) : finishRing s i o oc =
    if baseStatus o oc ≠ 0 then endRing (finishing s i o oc) i o (baseStatus o oc) 0 [] []
    else endRing (insertAtEnd (rewriteDeriv (finishing s i o oc) oc) o.att oc).2.2 i o
      (insertAtEnd (rewriteDeriv (finishing s i o oc) oc) o.att oc).1
      (if oc.token.isSome then (insertAtEnd (rewriteDeriv (finishing s i o oc) oc) o.att oc).2.1.length else oc.outLen) oc.out
      (insertAtEnd (rewriteDeriv (finishing s i o oc) oc) o.att oc).2.1 := rfl

theorem finishing_keeps (oc : Outcome) : Within finishingScope s (finishing s i o oc) ∧ RingKept i s (finishing s i o oc) ∧
    ∀ k ∈ ownEngines s i o, EngineLeft (decide (o.plan.kind = .cipher)) o.bay k (finishing s i o oc) := by
  have h1 := enginesLeft_within s i o oc (baseStatus o oc)
  have hleft := fun k hk => outputsLeft_left _ i o (baseStatus o oc) (enginesLeft_left s i o oc (baseStatus o oc) (k := k) hk)
  unfold finishing
  generalize enginesLeft s i o oc (baseStatus o oc) = w1 at h1 hleft ⊢
  have h2 := outputsLeft_within w1 i o (baseStatus o oc)
  generalize outputsLeft w1 i o (baseStatus o oc) = w2 at h2 hleft ⊢
  obtain ⟨h3, hk3, hm3⟩ := accounted_keeps w2 i o
  generalize accounted w2 i o = w3 at h3 hk3 hm3 ⊢
  obtain ⟨h4, hk4, hm4⟩ := kumEnded_keeps w3 i o oc (baseStatus o oc)
  refine ⟨(((h1.mono rfl).then h2).then h3).trans h4, ?_, fun k hk => (hleft k hk).kept (hm3.trans hm4)⟩
  have hk2 : RingKept i s w2 := .of_insts ((h2.same (·.insts)).trans (h1.same (·.insts))) ((h2.same (·.outbox)).trans (h1.same (·.outbox)))
  exact (hk2.trans hk3).trans hk4

theorem finishing_within (oc : Outcome)
    (h : dOp o.snap = 0x70 → baseStatus o oc ≠ 0 → o.kumVerified = true → o.kumCutDone = true) :
    Within finishScope s (finishing s i o oc) :=
  ((((enginesLeft_within s i o oc (baseStatus o oc)).mono rfl).then (outputsLeft_within _ i o (baseStatus o oc))).then
    (accounted_keeps _ i o).1).then (kumEnded_within _ i o oc h)

end

/-- A state on the way of an operation's end, seen from the one in which the end began. -/
structure Finishing (s x : State) (i : Nat) (o : RingOp) (oc : Outcome) : Prop where
  within : Within finishKumScope s x
  frame : (dOp o.snap = 0x70 → baseStatus o oc ≠ 0 → o.kumVerified = true → o.kumCutDone = true) → Within finishScope s x
  kept : RingKept i s x
  left : ∀ k ∈ ownEngines s i o, EngineLeft (decide (o.plan.kind = .cipher)) o.bay k x

section
variable {s x : State} {i : Nat} {o : RingOp} {oc : Outcome}

theorem finishing_finishing (s : State) (i : Nat) (o : RingOp) (oc : Outcome) : Finishing s (finishing s i o oc) i o oc :=
  have h := finishing_keeps s i o oc
  ⟨h.1.mono rfl, finishing_within s i o oc, h.2.1, h.2.2⟩

theorem rewriteDeriv_within (s : State) (oc : Outcome) : Within { deriv := true, bad := true, slotMask := true } s (rewriteDeriv s oc) := by
  unfold rewriteDeriv
  split
  · next term d _ =>
    have h : ∀ v, Within { deriv := true, bad := true, slotMask := true } s { s with keys := { s.keys with deriv := v } } := fun _ => rfl
    exact (h _).then (writeWords_within _ _ _ _)
  · exact .refl s

/-- The derivation-cache entry that a verdict rewrites, and no other change of the cache. -/
theorem rewriteDeriv_deriv (s : State) (oc : Outcome) :
    (∀ term d, oc.deriv = some (term, d) → mfind (rewriteDeriv s oc).keys.deriv term = some { d with written := s.now }) ∧
    (oc.deriv = none → rewriteDeriv s oc = s) := by
  unfold rewriteDeriv
  refine ⟨fun term d h => ?_, fun h => ?_⟩
  · rw [h]
    dsimp only
    rw [(writeWords_within _ _ _ _).same (·.keys.deriv)]
    exact mfind_mput_same _ _ _
  · rw [h]

theorem Finishing.rewriteDeriv (h : Finishing s x i o oc) : Finishing s (rewriteDeriv x oc) i o oc := by
  have hd := rewriteDeriv_within x oc
  exact ⟨h.within.then hd, fun hk => (h.frame hk).then hd, h.kept.trans (.of_insts (hd.same (·.insts)) (hd.same (·.outbox))),
    fun k hk => (h.left k hk).kept (.of_bays (hd.same (·.bays)))⟩

variable (h : Finishing s x i o oc) (hst : o.stage ≠ .atHub) (st len : Nat) (out res : Bytes)
include h

include hst

theorem Finishing.completes : Ended s (endRing x i o st len out res) i o (completionEntry (ringEntries s.ctl.cfg i) o (lateStatus o s.now st)
      o.att.epoch o.bay 0 (if lateStatus o s.now st ≤ 1 then len else 0) (s.now - o.arr) (routeRes o (lateStatus o s.now st) res)) ∧
    (getInst (endRing x i o st len out res) i).slots = (getInst s i).slots ∧
    (∀ j, j ≠ i → getInst (endRing x i o st len out res) j = getInst s j) ∧
    (∀ m ∈ s.outbox, m ∈ (endRing x i o st len out res).outbox) := by
  obtain ⟨hended, hslots, hother, hout, -⟩ := endRing_completes x i o hst st len out res
  have hcfg : x.ctl.cfg = s.ctl.cfg := h.within.same (·.ctl.cfg)
  have hnow : x.now = s.now := h.within.same (·.now)
  rw [hnow, hcfg] at hended
  exact ⟨Ended.of_kept hended h.kept hcfg, hslots.trans h.kept.slots, fun j hj => (hother j hj).trans (h.kept.other j hj),
    fun m hm => hout m (h.kept.outbox m hm)⟩

/-- Staged output, where the operation ends with success. -/
theorem Finishing.staged : (lateStatus o s.now st ≤ 1 → ∀ r, outRegion o.snap 0 = some r → r.host = false →
      (getInst (endRing x i o st len out res) i).staging = Memory.writeN (getInst s i).staging r.ref out) ∧
    (1 < lateStatus o s.now st ∨ (outRegion o.snap 0).all (·.host) = true ∨ out = [] →
      (getInst (endRing x i o st len out res) i).staging = (getInst s i).staging) := by
  obtain ⟨-, -, -, -, hstaging⟩ := endRing_completes x i o hst st len out res
  have hnow : x.now = s.now := h.within.same (·.now)
  rw [hnow] at hstaging
  have hnoted : (getInst (lateNoted x i o st) i).staging = (getInst s i).staging :=
    (congrArg Inst.staging (getInst_of_insts ((lateNoted_within x i o st).same (·.insts)) i)).trans h.kept.staging
  obtain ⟨hwrites, hnone⟩ := writeStaged_writes (lateNoted x i o st) i o out
  rw [hstaging]
  refine ⟨fun hle r hr hh => ?_, fun hc => ?_⟩
  · rw [if_pos hle, hwrites r hr hh, hnoted]
  · split
    · next hle =>
      by_cases hall : (outRegion o.snap 0).all (·.host) = true
      · rw [hnone hall, hnoted]
      · cases hr : outRegion o.snap 0 with
        | none => exact absurd (by rw [hr]; rfl) hall
        | some r =>
          have hempty : out = [] := (hc.resolve_left (by omega)).resolve_left hall
          rw [hwrites r hr (eq_false_of_ne_true fun hh => hall (by rw [hr]; exact hh)), hnoted, hempty]
          rfl
    · exact hnoted

omit hst in
theorem Finishing.engines : ∀ k ∈ ownEngines s i o, EngineLeft (decide (o.plan.kind = .cipher)) o.bay k (endRing x i o st len out res) :=
  fun k hk => (h.left k hk).kept (endRing_mem x i o st len out res)

omit hst in
theorem Finishing.finishes_frame (hk : dOp o.snap = 0x70 → baseStatus o oc ≠ 0 → o.kumVerified = true → o.kumCutDone = true) :
    Within finishScope s (endRing x i o st len out res) := (h.frame hk).then (endRing_within x i o st len out res)

end

section
variable {s : State} {i : Nat} {o : RingOp} {oc : Outcome}

theorem status_of_base (h : baseStatus o oc = 0) : oc.status = 0 := by
  unfold baseStatus at h
  split at h
  · omega
  · exact h

/-- What a verdict leaves in an instance and beside it, from the pieces of its completion. -/
theorem finishes_of {x : State} (h : Finishing s x i o oc) (hst : o.stage ≠ .atHub) {st len : Nat} {out res : Bytes}
    (hstatus : st = baseStatus o oc) (hlen : (if lateStatus o s.now st ≤ 1 then len else 0) = if baseStatus o oc = 0 then oc.outLen else 0)
    (hres : routeRes o (lateStatus o s.now st) res = routeRes o (lateStatus o s.now st) (if baseStatus o oc = 0 then oc.res else []))
    (hout : out = if baseStatus o oc = 0 then oc.out else [])
    (hderiv : ∀ term d, baseStatus o oc = 0 → oc.deriv = some (term, d) → mfind x.keys.deriv term = some { d with written := s.now })
    (hkeep : baseStatus o oc ≠ 0 ∨ oc.deriv = none → x.keys.deriv = s.keys.deriv) :
    Finishes s (endRing x i o st len out res) i o oc := by
  obtain ⟨hended, hslots, hother, hmore⟩ := h.completes hst st len out res
  obtain ⟨hwrites, hstands⟩ := h.staged hst st len out res
  have hleft := h.engines st len out res
  have hd : (endRing x i o st len out res).keys.deriv = x.keys.deriv := (endRing_within x i o st len out res).same (·.keys.deriv)
  rw [hlen, hres] at hended
  subst hstatus
  refine ⟨hended, fun h0 r hr hh a => ?_, fun hc => hstands ?_, fun hc k hk => ?_, fun hc k hk => ?_, fun term d h0 he => ?_, fun hc => ?_,
    hslots, hother, hmore, fun hk => h.finishes_frame _ len out res hk⟩
  · rw [h0, if_pos rfl] at hout
    rw [hwrites (by rw [h0]; exact lateStatus_success o) r hr hh, hout]
    refine ⟨fun hge hlt => ?_, fun ha => Memory.read_writeN_other _ _ _ _ ha⟩
    have hread := Memory.read_writeN_same (getInst s i).staging r.ref (a - r.ref) oc.out (by omega)
    rwa [Nat.add_sub_cancel' hge] at hread
  · rcases hc with hc | hc
    · exact .inr (.inr (by rw [hout, if_neg hc]))
    · exact .inr (.inl hc)
  · have hl := hleft k hk
    unfold EngineLeft at hl
    rwa [if_pos (decide_eq_true hc)] at hl
  · have hl := hleft k hk
    unfold EngineLeft at hl
    rwa [if_neg (ne_true_of_eq_false (decide_eq_false hc))] at hl
  · rw [hd]
    exact hderiv term d h0 he
  · rw [hd]
    exact hkeep hc

/-- An operation in a bay ends with its verdict (R111, R112, R218). -/
theorem finishRing_finishes (s : State) (hst : o.stage ≠ .atHub) (htok : oc.token = none ∨ baseStatus o oc ≠ 0) :
    Finishes s (finishRing s i o oc) i o oc := by
  have hfin := finishing_finishing s i o oc
  have hd0 : (finishing s i o oc).keys.deriv = s.keys.deriv := (finishing_keeps s i o oc).1.same (·.keys.deriv)
  rw [finishRing_eq]
  by_cases h0 : baseStatus o oc = 0
  · have htok' : oc.token = none := htok.resolve_right (not_not_intro h0)
    have hins : insertAtEnd (rewriteDeriv (finishing s i o oc) oc) o.att oc = (oc.status, oc.res, rewriteDeriv (finishing s i o oc) oc) := by
      unfold insertAtEnd
      rw [htok']
    rw [if_neg (not_not_intro h0), hins]
    dsimp only
    have hlate := lateStatus_success o (now := s.now)
    refine finishes_of hfin.rewriteDeriv hst ((status_of_base h0).trans h0.symm) ?_ ?_ (if_pos h0).symm (fun term d _ hd => ?_) (fun hc => ?_)
    · rw [status_of_base h0, if_pos hlate, if_pos h0, htok']
      rfl
    · rw [if_pos h0]
    · rw [(rewriteDeriv_deriv (finishing s i o oc) oc).1 term d hd, hfin.within.same (·.now)]
    · rw [(rewriteDeriv_deriv (finishing s i o oc) oc).2 (hc.resolve_left (not_not_intro h0)), hd0]
  · rw [if_pos h0]
    refine finishes_of hfin hst rfl ?_ (by rw [if_neg h0]) (if_neg h0).symm (fun _ _ h => absurd h h0) (fun _ => hd0)
    rw [if_neg h0, ite_self]

/-! ## Seen from before the operation was rewritten -/

theorem mdel_mput {β : Type} (m : Map β) (k : Nat) (v : β) : mdel (mput m k v) k = mdel m k := by
  induction m with
  | nil => exact if_pos rfl
  | cons x rest ih =>
    obtain ⟨k', v'⟩ := x
    unfold mput
    split
    · next hlt =>
      rw [mdel, if_neg (by omega), mdel, if_neg (by omega), ih]
    · split
      · next heq => rw [mdel, if_pos rfl, mdel, if_pos heq]
      · rw [mdel, if_pos rfl]

theorem setInst_over (s : State) (i : Nat) {x : Inst} (hx : x.ops ≠ []) (y : Inst) : setInst (setInst s i x) i y = setInst s i y := by
  have hx' : x ≠ {} := fun h => hx (by rw [h])
  unfold setInst mset
  simp only [if_neg hx', mput_mput, mdel_mput]

theorem setOp_ops_ne {x : Inst} {c : Nat} (h : (findOp x c).isSome) (o : RingOp) : (setOp x o).ops ≠ [] := by
  intro he
  have hnil : x.ops = [] := List.map_eq_nil_iff.1 he
  unfold findOp at h
  rw [hnil] at h
  cases h

theorem dropOp_setOp (x : Inst) (o : RingOp) : dropOp (setOp x o) o.count = dropOp x o.count := by
  have hops : ∀ l : List RingOp, (l.map (fun a => if a.count == o.count then o else a)).filter (fun a => a.count != o.count) =
      l.filter (fun a => a.count != o.count) := by
    intro l
    induction l with
    | nil => rfl
    | cons a rest ih =>
      rw [List.map_cons]
      by_cases ha : (a.count == o.count) = true
      · rw [if_pos ha, List.filter_cons_of_neg (by simp), List.filter_cons_of_neg (by rw [bne, ha]; decide), ih]
      · rw [if_neg ha, List.filter_cons_of_pos (by rw [bne]; simpa using ha), List.filter_cons_of_pos (by rw [bne]; simpa using ha), ih]
  show { setOp x o with ops := (setOp x o).ops.filter (fun a => a.count != o.count) } = dropOp x o.count
  rw [show (setOp x o).ops.filter (fun a => a.count != o.count) = x.ops.filter (fun a => a.count != o.count) from hops x.ops]
  rfl

theorem setOp_setOp (x : Inst) {o p : RingOp} (h : p.count = o.count) : setOp (setOp x o) p = setOp x p := by
  unfold setOp
  dsimp only
  rw [List.map_map]
  congr 1
  refine List.map_congr_left fun a _ => ?_
  rw [Function.comp_apply, h]
  by_cases ha : (a.count == o.count) = true
  · rw [if_pos ha, if_pos (beq_self_eq_true _), if_pos ha]
  · rw [if_neg ha]

variable (h : (findOp (getInst s i) o.count).isSome)
include h

theorem modInst_setOp_over (p : RingOp) (hp : p.count = o.count) :
    modInst (modInst s i (fun x => setOp x o)) i (fun x => setOp x p) = modInst s i (fun x => setOp x p) := by
  show setInst (setInst s i (setOp (getInst s i) o)) i (setOp (getInst (setInst s i (setOp (getInst s i) o)) i) p) = _
  rw [getInst_setInst_same, setOp_setOp _ hp]
  exact setInst_over s i (setOp_ops_ne h o) _

theorem ownEngines_setOp : ownEngines (modInst s i (fun x => setOp x o)) i o = ownEngines s i o := by
  have hdrop : modInst (modInst s i (fun x => setOp x o)) i (fun x => dropOp x o.count) = modInst s i (fun x => dropOp x o.count) := by
    show setInst (setInst s i (setOp (getInst s i) o)) i (dropOp (getInst (setInst s i (setOp (getInst s i) o)) i) o.count) = _
    rw [getInst_setInst_same, dropOp_setOp]
    exact setInst_over s i (setOp_ops_ne h o) _
  unfold ownEngines
  rw [hdrop]
  rfl

/-- The end of an operation rewritten just before is its end. -/
theorem finishRing_setOp_finishes (hst : o.stage ≠ .atHub) (htok : oc.token = none ∨ baseStatus o oc ≠ 0) :
    Finishes s (finishRing (modInst s i (fun x => setOp x o)) i o oc) i o oc := by
  have hfin := finishRing_finishes (i := i) (modInst s i (fun x => setOp x o)) hst htok
  have hother : ∀ j, j ≠ i → getInst (modInst s i (fun x => setOp x o)) j = getInst s j := fun j hj => getInst_setInst_other _ _ _ _ hj
  have hkept : RingKept i s (modInst s i (fun x => setOp x o)) := by
    have hx := getInst_modInst_same s i (fun x => setOp x o)
    exact ⟨by rw [hx]; rfl, by rw [hx]; rfl, by rw [hx]; rfl, by rw [hx]; rfl, hother, fun _ hm => hm⟩
  obtain ⟨hended, hstaged, hstands, hcipher, hbnc, hderiv, hkeep, hslots, hrest, hmore, hframe⟩ := hfin
  rw [ownEngines_setOp h] at hcipher hbnc
  rw [hkept.staging] at hstands
  exact ⟨Ended.of_kept hended hkept rfl, fun h0 r hr hh a => hkept.staging ▸ hstaged h0 r hr hh a, hstands, hcipher, hbnc, hderiv, hkeep,
    hslots.trans hkept.slots, fun j hj => (hrest j hj).trans (hother j hj), hmore, hframe⟩

end

end Sys2Proof.Machine
end

section
/-! SUPPORT. Operations that a denied transfer ends, output on its way to a host, and what DMA completions bring (R126, R127, R417, R424,
R453). -/

namespace Sys2Proof.Machine

-- One proof at a time: the check bounds the compiler's threads.
set_option Elab.async false

open Sys2Proof Sys2Proof.Safety

/-! ## Operations ended early (R128, R311, R424) -/

section
variable {s u v : State} {i : Nat} {o : RingOp} {e : Bytes}

theorem Ended.settle (h : Ended s u i o e) : Ended s (Machine.settle u) i o e := by
  unfold Ended at h ⊢
  rw [getInst_of_insts (settle_insts u) i]
  exact h

theorem RingKept.setOp (s : State) (i : Nat) (o : RingOp) : RingKept i s (modInst s i (fun x => Machine.setOp x o)) := by
  have hx := getInst_modInst_same s i (fun x => Machine.setOp x o)
  exact ⟨by rw [hx]; rfl, by rw [hx]; rfl, by rw [hx]; rfl, by rw [hx]; rfl, fun j hj => getInst_setInst_other _ _ _ _ hj, fun _ hm => hm⟩

end

section
variable (s : State) (i : Nat) (o : RingOp)

theorem dmaViolation_within (ranges : List (Nat × Nat)) (len mem : Nat) (isRead : Bool) :
    Within { acu := true, alarm := true, evr := true } s (dmaViolation s ranges len mem isRead) := by
  unfold dmaViolation
  exact .each (fun w p => ((violation_within w _ _ _ _ _).mono rfl).then (raiseIf_within _ _ _ _)) _ s

variable {st : Nat} (hst : o.stage ≠ .atHub) (h0 : st ≠ 0) (hr : o.reads = 0) (hb : o.readBack = false)
include hst h0

/-- An operation that ends with a status other than success returns no result bytes of its own. -/
theorem endRing_fails (out : Bytes) : Ended s (endRing s i o st 0 out []) i o
    (completionEntry (ringEntries s.ctl.cfg i) o st o.att.epoch o.bay 0 0 (s.now - o.arr) (routeRes o st [])) := by
  have hended := (endRing_completes s i o hst st 0 out []).1
  rw [lateStatus_le_one o h0, ite_self] at hended
  exact hended

include hr hb

theorem cutShort_ends : Ended s (cutShort s i o st) i o
    (completionEntry (ringEntries s.ctl.cfg i) o st o.att.epoch o.bay 0 0 (s.now - o.arr) (routeRes o st [])) := by
  have hrel := releaseBooking_within s o (s.now / 2000 + 1)
  have hended := endRing_fails (releaseBooking s o (s.now / 2000 + 1)) i o hst h0 []
  have hcfg : (releaseBooking s o (s.now / 2000 + 1)).ctl.cfg = s.ctl.cfg := hrel.same (·.ctl.cfg)
  rw [hcfg, show (releaseBooking s o (s.now / 2000 + 1)).now = s.now from hrel.same (·.now)] at hended
  unfold cutShort
  dsimp only
  rw [if_pos ⟨hr, hb⟩]
  exact Ended.of_kept hended (.of_insts (hrel.same (·.insts)) (hrel.same (·.outbox))) hcfg

/-- An operation ended early, none of whose host requests is outstanding, leaves at once. -/
theorem endEarly_ends : Ended s (endEarly s i o st) i o
    (completionEntry (ringEntries s.ctl.cfg i) o st o.att.epoch o.bay 0 0 (s.now - o.arr) (routeRes o st [])) := by
  have hleave := leaveEngines_within s i o true
  have hkum := abandonKum_within (leaveEngines s i o true) i o
  have hk1 : RingKept i s (abandonKum (leaveEngines s i o true) i o) := by
    have hx := RingKept.of_insts (i := i) (s := { s with outbox := (abandonKum (leaveEngines s i o true) i o).outbox })
      ((abandonKum_insts _ i o).trans (leaveEngines_insts s i o true)) rfl
    exact ⟨hx.ring, hx.tail, hx.staging, hx.slots, hx.other,
      fun m hm => abandonKum_outbox _ i o m ((hleave.same (·.outbox)).symm ▸ hm)⟩
  have hw : Within cutShortScope s (abandonKum (leaveEngines s i o true) i o) := (hleave.mono rfl).then hkum
  have hcore : ∀ w, w = (if dOp o.snap = 0x6A ∧ o.outcome.isSome then returnCore (abandonKum (leaveEngines s i o true) i o) i o
      else abandonKum (leaveEngines s i o true) i o) → Within cutShortScope s w ∧ RingKept i s w := by
    rintro w rfl
    exact ⟨.ite (hw.then (returnCore_within _ i o)) hw, .ite (hk1.trans (returnCore_kept_ring _ i o)) hk1⟩
  unfold endEarly
  dsimp only
  generalize (if dOp o.snap = 0x6A ∧ o.outcome.isSome then returnCore (abandonKum (leaveEngines s i o true) i o) i o
    else abandonKum (leaveEngines s i o true) i o) = w at hcore
  obtain ⟨hwithin, hkept⟩ := hcore w rfl
  have hended := cutShort_ends w i { o with engines := [] } hst h0 hr hb
  have hcfg : w.ctl.cfg = s.ctl.cfg := hwithin.same (·.ctl.cfg)
  rw [hcfg, show w.now = s.now from hwithin.same (·.now)] at hended
  exact Ended.of_kept hended hkept hcfg

omit h0 in
/-- A transfer that a user rule denies ends its operation with 0x0801 (R424). -/
theorem denyDma_ends (len : Nat) (isRead : Bool) : Ended s (denyDma s i o len isRead) i o
    (completionEntry (ringEntries s.ctl.cfg i) o 0x0801 o.att.epoch o.bay 0 0 (s.now - o.arr) []) := by
  have hv := dmaViolation_within s (dmaRanges o) len (if o.plan.kind = .cipher then memCipher else memStaging) isRead
  have hres : routeRes o 0x0801 [] = [] := by
    unfold routeRes
    split
    · rw [if_neg (by decide)]
      split
      · rfl
      · rfl
    · rfl
  unfold denyDma
  generalize dmaViolation s (dmaRanges o) len (if o.plan.kind = .cipher then memCipher else memStaging) isRead = w at hv ⊢
  have hended := endEarly_ends w i o hst (st := 0x0801) (by decide) hr hb
  have hcfg : w.ctl.cfg = s.ctl.cfg := hv.same (·.ctl.cfg)
  rw [hcfg, show w.now = s.now from hv.same (·.now), hres] at hended
  exact Ended.settle (Ended.of_kept hended (.of_insts (hv.same (·.insts)) (hv.same (·.outbox))) hcfg)

end

/-! ## Operations with input left to ask for (R126, R452) -/

/-- No operation has host input left to ask for. -/
def AsksNone (s : State) : Prop := ∀ e ∈ s.insts, ∀ o ∈ e.2.ops, asksMore o = false

/-- Operations left to an instance are ones that it had, or have nothing to ask for. -/
def Sated (x y : Inst) : Prop := ∀ o ∈ y.ops, o ∈ x.ops ∨ asksMore o = false

section
variable {s u v : State} {i : Nat}

theorem AsksNone.of_insts (h : AsksNone s) (hu : u.insts = s.insts) : AsksNone u := by
  unfold AsksNone
  rw [hu]
  exact h

theorem AsksNone.ops (h : AsksNone s) (i : Nat) : ∀ o ∈ (getInst s i).ops, asksMore o = false :=
  mget_all (P := fun x : Inst => ∀ o ∈ x.ops, asksMore o = false) (by simp) h i

theorem AsksNone.modInst (h : AsksNone s) {f : Inst → Inst} (hf : Sated (getInst s i) (f (getInst s i))) : AsksNone (modInst s i f) := by
  intro e he o ho
  rcases mem_mset he with rfl | he
  · exact (hf o ho).elim (h.ops i o) id
  · exact h e he o ho

theorem sated_same {x y : Inst} (h : y.ops = x.ops) : Sated x y := fun _ ho => .inl (h ▸ ho)

theorem sated_setOp (x : Inst) {o : RingOp} (h : asksMore o = false) : Sated x (setOp x o) := by
  intro a ha
  obtain ⟨b, hb, rfl⟩ := List.mem_map.1 ha
  split
  · exact .inr h
  · exact .inl hb

theorem AsksNone.setOp (h : AsksNone s) (i : Nat) {o : RingOp} (ho : asksMore o = false) :
    AsksNone (Machine.modInst s i (fun x => Machine.setOp x o)) := h.modInst (sated_setOp _ ho)

/-- Where nobody asks for more, a tag that comes free is asked for by none (R452). -/
theorem pumpHead_stands (h : AsksNone s) (k : Nat) : pumpHead s k = s := by
  have hnone : s.insts.flatMap (fun e => (e.2.ops.filter (fun o => o.att.ld / 16 == k && asksMore o)).map (fun o => (e.1, o.count))) = [] :=
    List.flatMap_eq_nil_iff.2 fun e he => List.map_eq_nil_iff.2 (List.filter_eq_nil_iff.2 fun o ho => by rw [h e he o ho, Bool.and_false]; decide)
  unfold pumpHead
  rw [hnone]
  rfl

end

section
variable {s : State} {i : Nat} (h : AsksNone s)
include h

theorem AsksNone.completeRing (o : RingOp) (st ep bay hint len : Nat) (res : Bytes) :
    AsksNone (Machine.completeRing s i o st ep bay hint len res) := by
  unfold Machine.completeRing
  extract_lets n entry w s1 s2 s3
  have h1 : AsksNone s1 := by
    refine AsksNone.modInst (h.of_insts ((noteWriter_insts _ _ _ _ _).trans (writeWords_insts s _ _ _))) fun a ha => .inl ?_
    exact (List.mem_filter.1 ha).1
  have h3 : s3.insts = s2.insts := by
    show (if _ then sendMsix s2 o.att.ld o.att.vector else s2).insts = s2.insts
    split
    · exact sendMsix_insts _ _ _
    · rfl
  have h2 : s2.insts = s1.insts := countStatus_insts s1 i (dOp o.snap) st 0x13 0x14 (bay == 0xFF)
  exact h1.of_insts ((freeShelf_insts s3).trans (h3.trans h2))

theorem AsksNone.writeStaged (o : RingOp) (out : Bytes) : AsksNone (Machine.writeStaged s i o out) := by
  unfold Machine.writeStaged
  split
  · split
    · exact h
    · exact (h.modInst (sated_same rfl)).of_insts ((noteWriter_insts _ _ _ _ _).trans (writeWords_insts _ _ _ _))
  · exact h

theorem AsksNone.endRing (o : RingOp) (st len : Nat) (out res : Bytes) : AsksNone (Machine.endRing s i o st len out res) := by
  unfold Machine.endRing
  extract_lets late st' s1 s2
  have h1 : AsksNone s1 := by
    show AsksNone (if _ then noteLate s i o.bay (dOp o.snap) st' (s.now - promised o) else s)
    split
    · exact h.of_insts (noteLate_insts _ _ _ _ _ _)
    · exact h
  have h2 : AsksNone s2 := by
    show AsksNone (if _ then Machine.writeStaged s1 i o out else s1)
    split
    · exact h1.writeStaged o out
    · exact h1
  exact h2.completeRing _ _ _ _ _ _ _

theorem AsksNone.returnCore (o : RingOp) : AsksNone (Machine.returnCore s i o) := by
  unfold Machine.returnCore refill
  exact (h.modInst (sated_same rfl)).modInst (sated_same rfl)

theorem AsksNone.cutShort (o : RingOp) (st : Nat) : AsksNone (Machine.cutShort s i o st) := by
  have hrel := h.of_insts (releaseBooking_insts s o (s.now / 2000 + 1))
  unfold Machine.cutShort
  dsimp only
  split
  · exact hrel.endRing _ _ _ _ _
  · exact hrel.setOp i (by simp [asksMore])

theorem AsksNone.endEarly (o : RingOp) (st : Nat) : AsksNone (Machine.endEarly s i o st) := by
  have h1 := h.of_insts ((abandonKum_insts (leaveEngines s i o true) i o).trans (leaveEngines_insts s i o true))
  unfold Machine.endEarly
  dsimp only
  refine AsksNone.cutShort ?_ _ st
  split
  · exact h1.returnCore o
  · exact h1

theorem AsksNone.denyDma (o : RingOp) (len : Nat) (isRead : Bool) : AsksNone (Machine.denyDma s i o len isRead) :=
  ((h.of_insts ((dmaViolation_within s _ _ _ _).same (·.insts))).endEarly o _).of_insts (settle_insts _)

theorem AsksNone.finishing (o : RingOp) (oc : Outcome) : AsksNone (Machine.finishing s i o oc) := by
  have hleft : AsksNone (outputsLeft (enginesLeft s i o oc (baseStatus o oc)) i o (baseStatus o oc)) :=
    h.of_insts (((outputsLeft_within _ i o _).same (·.insts)).trans ((enginesLeft_within s i o oc _).same (·.insts)))
  unfold Machine.finishing
  generalize outputsLeft (enginesLeft s i o oc (baseStatus o oc)) i o (baseStatus o oc) = w at hleft ⊢
  have hacc : AsksNone (accounted w i o) := by
    unfold accounted
    split
    · unfold dsaAccount
      dsimp only
      have hcount : AsksNone (if counter w (odKey 0x6040 4) < o.attempts then setCounter w (odKey 0x6040 4) o.attempts else w) := by
        split
        · exact hleft
        · exact hleft
      generalize (if counter w (odKey 0x6040 4) < o.attempts then setCounter w (odKey 0x6040 4) o.attempts else w) = w1 at hcount ⊢
      split
      · exact hcount
      · exact (hcount.of_insts (releaseBooking_insts w1 o _)).returnCore o
    · exact hleft
  unfold kumEnded
  split
  · exact hacc.of_insts (((kumRefused_within _ _ _ _).same (·.insts)).trans (abandonKum_insts _ i o))
  · exact hacc

theorem AsksNone.finishRing (o : RingOp) {oc : Outcome} (ht : oc.token = none) : AsksNone (Machine.finishRing s i o oc) := by
  have hfin := h.finishing (i := i) o oc
  have hins : ∀ w, (insertAtEnd w o.att oc).2.2 = w := fun w => by
    unfold insertAtEnd
    rw [ht]
  rw [finishRing_eq]
  split
  · exact hfin.endRing _ _ _ _ _
  · rw [hins]
    exact (hfin.of_insts ((rewriteDeriv_within _ oc).same (·.insts))).endRing _ _ _ _ _

end

/-! ## Output on its way to a host (R126, R149, R424) -/

section
variable (s : State) (i : Nat) (o : RingOp)

theorem hostWrites_within (a : Nat) (out : Bytes) : Within { outbox := true } s (hostWrites s o a out) :=
  .each (fun w _ => emit_within w _) _ s

variable (hsq : o.squashed = false) (hown : (findOp (getInst s i) o.count).isSome)
include hsq hown

/-- What has been produced and not sent yet goes to its host region, or is denied. -/
theorem sendProduced_sends : Sends s (sendProduced s i o) i o := by
  rintro out rfl
  refine ⟨fun hno => ?_, fun r hw hf hlt hr => ?_⟩
  · have hnone : (if o.waits = [] ∧ o.squashed = false ∧ o.dmaFault = false ∧ o.sent < (produced s i o).length then
        hostRegion o (produced s i o) else none) = none := by
      split
      · next hc =>
        rcases hno with h | h | h | h
        · exact absurd hc.1 h
        · exact absurd (hc.2.2.1.symm.trans h) (by decide)
        · exact absurd hc.2.2.2 (by omega)
        · exact h
      · rfl
    unfold sendProduced
    dsimp only
    rw [hnone]
  · have hsend : (if o.waits = [] ∧ o.squashed = false ∧ o.dmaFault = false ∧ o.sent < (produced s i o).length then
        hostRegion o (produced s i o) else none) = some r := by rw [if_pos ⟨hw, hsq, hf, hlt⟩, hr]
    unfold sendProduced
    dsimp only
    rw [hsend]
    refine ⟨fun hfree => ?_, fun hit hdeny hreads hrb hst => ?_⟩
    · dsimp only
      rw [hfree]
      unfold sendBytes
      dsimp only
      rw [Nat.max_eq_right (Nat.le_of_lt hlt)]
      refine setOp_setsOp _ i { o with sent := (produced s i o).length } ?_
      rw [getInst_of_insts ((hostWrites_within s o _ _).same (·.insts)) i]
      exact hown
    · dsimp only
      rw [hdeny]
      exact denyDma_ends s i o hst hreads hrb _ true

omit hsq hown in
theorem AsksNone.sendProduced (h : AsksNone s) (hmore : asksMore o = false) : AsksNone (Machine.sendProduced s i o) := by
  unfold Machine.sendProduced
  dsimp only
  split
  · split
    · exact h.denyDma o _ true
    · exact (h.of_insts ((hostWrites_within s o _ _).same (·.insts))).setOp i hmore
  · exact h

end

end Sys2Proof.Machine
end

section
/-! SUPPORT. What a DMA completion or its timeout comes to for the operation that waits for it (R126, R127, R417, R424, R453). -/

namespace Sys2Proof.Machine

-- One proof at a time: the check bounds the compiler's threads.
set_option Elab.async false

open Sys2Proof Sys2Proof.Safety

/-! ## An operation that has asked for all its input -/

/-- Of host input an operation has asked for all. -/
def AskedAll (o : RingOp) : Prop := ∀ r, inRegion o.snap = some r → r.host = true → o.asked = r.len

theorem ceilDiv_zero {b : Nat} (h : 1 ≤ b) : ceilDiv 0 b = 0 := by
  unfold ceilDiv
  exact Nat.div_eq_of_lt (by omega)

theorem asksMore_asked {o : RingOp} (h : AskedAll o) : asksMore o = false := by
  unfold asksMore
  cases hr : inRegion o.snap with
  | none => exact Bool.and_false _
  | some r =>
    dsimp only
    by_cases hh : r.host = true
    · rw [h r hr hh]
      simp
    · rw [eq_false_of_ne_true hh, Bool.false_and, Bool.and_false]

theorem askInput_asked {o : RingOp} (h : AskedAll o) (s : State) : askInput s o = (s, o) := by
  unfold askInput
  split
  · next r hr =>
    split
    · next hc =>
      have hlen := h r hr hc.1
      have hsize : ceilDiv 0 (readSize s o.att.ld) = 0 := ceilDiv_zero (Nat.le_max_left _ _)
      have hnone : readsDue s o r = 0 := by
        unfold readsDue
        rw [hlen, Nat.sub_self, hsize]
        exact Nat.min_zero _
      unfold askRegion
      dsimp only
      rw [hnone, Nat.mul_zero, Nat.add_zero, ← hlen, Nat.min_self, List.replicate_zero, List.append_nil]
      rfl
    · rfl
  · rfl

/-! ## What follows an arrival -/

section
variable {s : State} {i : Nat} {o : RingOp}

theorem inputOf_setOp (p q : RingOp) : inputOf (modInst s i (fun x => setOp x q)) i p = inputOf s i p := by
  unfold inputOf
  rw [(RingKept.setOp s i q).staging]

theorem jobOutcome_setOp (p q : RingOp) (j : Job) (due : Nat) :
    jobOutcome (modInst s i (fun x => setOp x q)) i p j due = jobOutcome s i p j due := by
  unfold jobOutcome cipherOutcome macOutcome
  rw [inputOf_setOp]

/-- An operation that no reset and no fault ends is rewritten while requests are outstanding or its output has not all gone. -/
theorem dmaSettled_waits (h : dmaRetired o = false ∨ (o.squashed = false ∧ o.dmaFault = false ∧ (o.outcome.isSome = true → o.written = false))) :
    dmaSettled s i o = modInst s i (fun x => setOp x o) := by
  unfold dmaSettled
  by_cases hr : dmaRetired o = false
  · rw [if_pos hr]
  · obtain ⟨hsq, hf, hw⟩ := h.resolve_left hr
    rw [if_neg hr, if_neg (ne_true_of_eq_false hsq), if_neg (ne_true_of_eq_false hf)]
    split
    · next hoc => rw [if_neg (ne_true_of_eq_false (hw (by rw [hoc]; rfl)))]
    · rfl

/-- One whose output has all gone ends with its outcome. -/
theorem dmaSettled_finishes {oc : Outcome} (hr : dmaRetired o = true) (hsq : o.squashed = false) (hf : o.dmaFault = false)
    (hoc : o.outcome = some oc) (hw : o.written = true) : dmaSettled s i o = finishRing (modInst s i (fun x => setOp x o)) i o oc := by
  unfold dmaSettled
  rw [if_neg (ne_false_of_eq_true hr), if_neg (ne_true_of_eq_false hsq), if_neg (ne_true_of_eq_false hf), hoc]
  exact if_pos hw

variable (hown : (findOp (getInst s i) o.count).isSome) (hsq : o.squashed = false) (hf : o.dmaFault = false) (hall : AskedAll o)
include hown hsq hf hall

/-- An operation that goes on after an arrival. -/
theorem dmaFollows_goes : dmaFollows s i o = match o.outcome, o.job with
    | none, some j => if bayClockRuns s o.bay then lackingStep (modInst s i (fun x => setOp x o)) i o j else modInst s i (fun x => setOp x o)
    | _, _ => dmaSettled (modInst s i (fun x => setOp x o)) i o := by
  unfold dmaFollows
  rw [if_neg (by rw [hsq, hf]; decide), askInput_asked hall]
  dsimp only
  rw [modInst_setOp_over hown o rfl]
  rfl

/-- One whose outcome is fixed, that has no job or whose bay stands still is rewritten. -/
theorem dmaFollows_waits (hw : o.written = false) (h : o.outcome.isSome = true ∨ o.job = none ∨ bayClockRuns s o.bay = false) :
    dmaFollows s i o = modInst s i (fun x => setOp x o) := by
  have hsettled : dmaSettled (modInst s i (fun x => setOp x o)) i o = modInst s i (fun x => setOp x o) := by
    rw [dmaSettled_waits (.inr ⟨hsq, hf, fun _ => hw⟩), modInst_setOp_over hown o rfl]
  rw [dmaFollows_goes hown hsq hf hall]
  split
  · next j hoc hj =>
    rcases h with h | h | h
    · rw [hoc] at h
      cases h
    · rw [hj] at h
      cases h
    · exact if_neg (ne_true_of_eq_false h)
  · exact hsettled

/-- One whose output has all gone, and been read back, ends. -/
theorem dmaFollows_finishes {oc : Outcome} (hr : dmaRetired o = true) (hoc : o.outcome = some oc) (hw : o.written = true) :
    dmaFollows s i o = finishRing (modInst s i (fun x => setOp x o)) i o oc := by
  rw [dmaFollows_goes hown hsq hf hall]
  split
  · next h _ =>
    rw [hoc] at h
    cases h
  · rw [dmaSettled_finishes hr hsq hf hoc hw, modInst_setOp_over hown o rfl]

variable {j : Job} (hoc : o.outcome = none) (hj : o.job = some j) (hclk : bayClockRuns s o.bay = true) (hsus : o.suspended = false)
  (hlate : dataLate s o = false)
include hoc hj hclk hsus hlate

/-- One that runs goes on with the input that has come. -/
theorem dmaFollows_runs : dmaFollows s i o =
    if inputReady o then modInst s i (fun x => setOp x { o with
      job := none, outcome := some (jobOutcome s i o j (max s.now (o.t0 + segTime o.plan))) })
    else sendProduced (modInst s i (fun x => setOp x o)) i o := by
  rw [dmaFollows_goes hown hsq hf hall, hoc, hj]
  dsimp only
  rw [if_pos hclk]
  have hsuspend : suspendOp (modInst s i (fun x => setOp x o)) i o = (modInst s i (fun x => setOp x o), o) := by
    unfold suspendOp
    exact if_neg fun h => absurd (hlate.symm.trans h.1) (by decide)
  unfold lackingStep
  rw [hsuspend]
  dsimp only
  unfold inputDone
  rw [if_neg (ne_true_of_eq_false hsus), jobOutcome_setOp]
  congr 1
  exact modInst_setOp_over hown _ rfl

end

section
variable {s : State} {i c : Nat} {o o' : RingOp} {d : DmaData} (ho : findOp (getInst s i) c = some o)
include ho

theorem ringDma_retired (h : dmaRetired o = true) : ringDma d i c s = s := by
  unfold ringDma
  rw [ho]
  exact if_pos h

/-- A completion that no rule denies brings what it brings, and nobody asks for more. -/
theorem ringDma_arrives {u : State} (hret : dmaRetired o = false)
    (hpass : (if 0 < dmaBytes o d then decidingOver s dmaMaster (dmaRanges o) false else none) = none) (harr : dmaArrives s o d = o')
    (hu : dmaFollows s i o' = u) (hnone : AsksNone u) : ringDma d i c s = u := by
  unfold ringDma
  rw [ho]
  dsimp only
  rw [if_neg (ne_true_of_eq_false hret), hpass, harr, hu]
  exact pumpHead_stands hnone _

theorem ringDma_denied {hit : Nat × Nat} (hret : dmaRetired o = false) (hpos : 0 < dmaBytes o d)
    (hdeny : decidingOver s dmaMaster (dmaRanges o) false = some hit) :
    ringDma d i c s = denyDma s i { dmaArrives s o d with input := o.input } (dmaBytes o d) false := by
  unfold ringDma
  rw [ho]
  dsimp only
  rw [if_neg (ne_true_of_eq_false hret), if_pos hpos, hdeny]

theorem op_owned (p : RingOp) (hp : p.count = o.count := by rfl) : (findOp (getInst s i) p.count).isSome := by
  rw [hp, findOp_count ho, ho]
  rfl

end

/-! ## Faults (R127) -/

section
variable {s : State} {i c : Nat} {o : RingOp} {d : DmaData} (ho : findOp (getInst s i) c = some o) (hask : AsksNone s)
  (hd : d = .error ∨ d = .poisoned)
include hd

theorem dmaArrives_fault (h : o.reads ≠ 0) : dmaArrives s o d = { o with dmaFault := true, asks := o.asks.drop 1 } := by
  unfold dmaArrives
  rw [if_pos h]
  rcases hd with rfl | rfl <;> rfl

theorem dmaArrives_backFault (h : o.reads = 0) (hb : o.readBack = true) : dmaArrives s o d = { o with readBack := false, dmaFault := true } := by
  unfold dmaArrives
  rw [if_neg (not_not_intro h), if_pos hb]
  rcases hd with rfl | rfl <;> rfl

theorem dmaBytes_fault (x : Option (Nat × Nat)) : (if 0 < dmaBytes o d then x else none) = none := by
  rcases hd with rfl | rfl <;> exact if_neg (Nat.lt_irrefl 0)

omit hd in
theorem dmaFollows_fault (hf : o.dmaFault = true) : dmaFollows s i o = dmaSettled s i o := by
  unfold dmaFollows
  exact if_pos (.inr hf)

omit hd in
theorem asksMore_fault (hf : o.dmaFault = true) : asksMore o = false := by
  unfold asksMore
  rw [hf]
  simp

/-- What a faulted operation that nothing ends from outside comes to once its last request has retired. -/
def faultOutcome (s : State) (o : RingOp) : Outcome := match o.outcome with
  | some oc => if 1 < oc.status then oc else { status := 0x0207, due := s.now }
  | none => { status := 0x0207, due := s.now }

include ho hask

theorem ringDma_fault_waits (h : 1 < o.reads) : SetsOp s (ringDma d i c s) i { o with dmaFault := true, asks := o.asks.drop 1 } := by
  have hret : dmaRetired { o with dmaFault := true, asks := o.asks.drop 1 } = false := by
    unfold dmaRetired RingOp.reads
    dsimp only
    rw [List.length_drop]
    have hlen : o.asks.length - 1 ≠ 0 := by
      unfold RingOp.reads at h
      omega
    rw [beq_false_of_ne hlen]
    rfl
  have hown := op_owned ho { o with dmaFault := true, asks := o.asks.drop 1 }
  rw [ringDma_arrives (d := d) ho (by unfold dmaRetired; rw [beq_false_of_ne (by omega)]; rfl) (dmaBytes_fault hd _)
    (dmaArrives_fault hd (by omega)) ((dmaFollows_fault rfl).trans (dmaSettled_waits (.inl hret))) (hask.setOp i (asksMore_fault rfl))]
  exact setOp_setsOp s i _ hown

/-- The last request of a faulted operation retires: it ends with its fault. -/
theorem ringDma_fault_ends {o' : RingOp} (hret : dmaRetired o = false) (harr : dmaArrives s o d = o') (hc : o'.count = o.count) (hret' : dmaRetired o' = true)
    (hf : o'.dmaFault = true) (hsq : o'.squashed = false) (hst : o'.stage ≠ .atHub) (htok : (faultOutcome s o').token = none) :
    Finishes s (ringDma d i c s) i o' (faultOutcome s o') := by
  have hown := op_owned ho o' hc
  have hends : dmaFollows s i o' = finishRing (modInst s i (fun x => setOp x o')) i o' (faultOutcome s o') := by
    rw [dmaFollows_fault hf]
    unfold dmaSettled
    rw [if_neg (ne_false_of_eq_true hret'), if_neg (ne_true_of_eq_false hsq), if_pos hf]
    rfl
  rw [ringDma_arrives (d := d) ho hret (dmaBytes_fault hd _) harr hends ((hask.setOp i (asksMore_fault hf)).finishRing o' htok)]
  exact finishRing_setOp_finishes hown hst (.inl htok)

/-- The last request of an operation that a reset is ending retires. -/
theorem ringDma_squashed_ends {oc : Outcome} (h1 : o.reads = 1) (hb : o.readBack = false) (hsq : o.squashed = true)
    (hst : o.stage ≠ .atHub) (hoc : o.outcome = some oc) (hlt : 1 < oc.status) : Ended s (ringDma d i c s) i o
      (completionEntry (ringEntries s.ctl.cfg i) o oc.status o.att.epoch o.bay 0 0 (s.now - o.arr) (routeRes o oc.status [])) := by
  have hret' : dmaRetired { o with dmaFault := true, asks := o.asks.drop 1 } = true := by
    unfold RingOp.reads at h1
    unfold dmaRetired RingOp.reads
    dsimp only
    rw [List.length_drop, h1, hb]
    rfl
  have hends : dmaFollows s i { o with dmaFault := true, asks := o.asks.drop 1 } =
      endRing (modInst s i (fun x => setOp x { o with dmaFault := true, asks := o.asks.drop 1 })) i
        { o with dmaFault := true, asks := o.asks.drop 1 } oc.status 0 [] [] := by
    rw [dmaFollows_fault rfl]
    unfold dmaSettled
    rw [if_neg (ne_false_of_eq_true hret'), if_pos hsq, hoc]
    rfl
  rw [ringDma_arrives (d := d) ho (by unfold dmaRetired; rw [h1]; rfl) (dmaBytes_fault hd _) (dmaArrives_fault hd (by omega)) hends
    ((hask.setOp i (asksMore_fault rfl)).endRing _ _ _ _ _)]
  refine Ended.of_kept (endRing_fails (modInst s i (fun x => setOp x { o with dmaFault := true, asks := o.asks.drop 1 })) i
    { o with dmaFault := true, asks := o.asks.drop 1 } hst (by omega) []) (RingKept.setOp _ _ _) rfl

end

/-! ## Data (R126) -/

section
variable {s : State} {i c : Nat} {o o1 : RingOp} {bs : Bytes} (ho : findOp (getInst s i) c = some o) (hask : AsksNone s) (hall : AskedAll o)
include ho hask hall

section
variable (hr : o.reads ≠ 0) (hsq : o.squashed = false) (hf : o.dmaFault = false) (h1 : o1 = takeInput s o bs)
include hr hsq hf h1

omit hask hall ho hsq in
theorem dmaArrives_data : dmaArrives s o (.ok bs) = o1 := by
  unfold dmaArrives
  rw [if_pos hr]
  dsimp only
  rw [if_neg (ne_true_of_eq_false hf), h1]

omit hask hall h1 ho in
theorem dmaBytes_data : dmaBytes o (.ok bs) = bs.length := if_pos ⟨hr, hsq, hf⟩

omit hask hall h1 ho hsq hf in
theorem dmaRetired_reads : dmaRetired o = false := by
  unfold dmaRetired
  rw [beq_false_of_ne hr]
  rfl

omit hask hall in
/-- The data is denied its place: the operation ends where no other request of it is outstanding. -/
theorem ringDma_data_denied {hit : Nat × Nat} (hne : bs ≠ []) (hdeny : decidingOver s dmaMaster (dmaRanges o) false = some hit)
    (hb : o.readBack = false) (ha : o1.asks = []) (hst : o.stage ≠ .atHub) : Ended s (ringDma (.ok bs) i c s) i o
      (completionEntry (ringEntries s.ctl.cfg i) o 0x0801 o.att.epoch o.bay 0 0 (s.now - o.arr) []) := by
  have hpos : 0 < dmaBytes o (.ok bs) := by
    rw [dmaBytes_data hr hsq hf]
    exact List.length_pos_iff.2 hne
  rw [ringDma_denied ho (dmaRetired_reads hr) hpos hdeny, dmaArrives_data hr hf h1]
  have hreads : RingOp.reads { o1 with input := o.input } = 0 := congrArg List.length ha
  subst h1
  exact denyDma_ends s i { takeInput s o bs with input := o.input } hst hreads hb _ false

variable (hw : o.written = false) (hpass : bs = [] ∨ decidingOver s dmaMaster (dmaRanges o) false = none)
include hw hpass

omit hall hask ho h1 hw in
theorem data_passes : (if 0 < dmaBytes o (.ok bs) then decidingOver s dmaMaster (dmaRanges o) false else none) = none := by
  rw [dmaBytes_data hr hsq hf]
  split
  · next h => exact hpass.resolve_left (List.length_pos_iff.1 h)
  · rfl

/-- Data joins the input of an operation that goes on by itself. -/
theorem ringDma_data_waits (h : o.outcome.isSome = true ∨ o.job = none ∨ bayClockRuns s o.bay = false) :
    SetsOp s (ringDma (.ok bs) i c s) i o1 := by
  have harr := dmaArrives_data hr hf h1
  subst h1
  have hown := op_owned ho (takeInput s o bs)
  have hall' : AskedAll (takeInput s o bs) := hall
  rw [ringDma_arrives ho (dmaRetired_reads hr) (data_passes hr hsq hf hpass) harr (dmaFollows_waits hown hsq hf hall' hw h)
    (hask.setOp i (asksMore_asked hall'))]
  exact setOp_setsOp s i _ hown

variable {j : Job} (hoc : o.outcome = none) (hj : o.job = some j) (hclk : bayClockRuns s o.bay = true) (hsus : o.suspended = false)
  (hlate : dataLate s o = false)
include hoc hj hclk hsus hlate

omit hw in
/-- Data joins the input of a running operation, which it may fill. -/
theorem ringDma_data_runs : (inputReady o1 = true → SetsOp s (ringDma (.ok bs) i c s) i { o1 with
      job := none, outcome := some (jobOutcome s i o1 j (max s.now (o.t0 + segTime o.plan))) }) ∧
    (inputReady o1 = false → Sends (modInst s i (fun x => setOp x o1)) (ringDma (.ok bs) i c s) i o1) := by
  have harr := dmaArrives_data hr hf h1
  subst h1
  have hown := op_owned ho (takeInput s o bs)
  have hall' : AskedAll (takeInput s o bs) := hall
  have hruns := dmaFollows_runs hown hsq hf hall' hoc hj hclk hsus (show dataLate s (takeInput s o bs) = false from hlate)
  have hset := hask.setOp i (asksMore_asked hall')
  refine ⟨fun hready => ?_, fun hready => ?_⟩
  · rw [if_pos hready] at hruns
    rw [ringDma_arrives ho (dmaRetired_reads hr) (data_passes hr hsq hf hpass) harr hruns (hask.setOp i (asksMore_asked hall'))]
    exact setOp_setsOp s i _ hown
  · rw [if_neg (ne_true_of_eq_false hready)] at hruns
    rw [ringDma_arrives ho (dmaRetired_reads hr) (data_passes hr hsq hf hpass) harr hruns (hset.sendProduced _ i _ (asksMore_asked hall'))]
    refine sendProduced_sends _ i _ hsq ?_
    rw [getInst_modInst_same, findOp_setOp_same _ _ hown]
    rfl

end

/-- The read of the last output byte ends its operation. -/
theorem ringDma_back_ends {oc : Outcome} (hr : o.reads = 0) (hb : o.readBack = true) (hsq : o.squashed = false) (hf : o.dmaFault = false)
    (hw : o.written = true) (hoc : o.outcome = some oc) (htok : oc.token = none) (hst : o.stage ≠ .atHub) :
    Finishes s (ringDma (.ok bs) i c s) i { o with readBack := false } oc := by
  have hown := op_owned ho { o with readBack := false }
  have harr : dmaArrives s o (.ok bs) = { o with readBack := false } := by
    unfold dmaArrives
    rw [if_neg (not_not_intro hr), if_pos hb]
  have hall' : AskedAll { o with readBack := false } := hall
  have hret' : dmaRetired { o with readBack := false } = true := by
    unfold dmaRetired
    rw [show RingOp.reads { o with readBack := false } = 0 from hr]
    rfl
  have hends := dmaFollows_finishes hown hsq hf hall' hret' hoc hw
  have hbytes : (if 0 < dmaBytes o (.ok bs) then decidingOver s dmaMaster (dmaRanges o) false else none) = none := by
    have hzero : dmaBytes o (.ok bs) = 0 := if_neg fun h => h.1 hr
    rw [hzero]
    exact if_neg (Nat.lt_irrefl 0)
  rw [ringDma_arrives ho (by unfold dmaRetired; rw [hb, Bool.not_true, Bool.and_false]) hbytes harr hends
    ((hask.setOp i (asksMore_asked hall')).finishRing _ htok)]
  exact finishRing_setOp_finishes hown hst (.inl htok)

end

/-! ## The obligation -/

section
variable {s : State} {t : Nat} {i : InstNo} {c : BitVec 16} (hlink : islandRuns s islLink = true) (hhub : islandRuns s islHub = true)
include hlink hhub

theorem exec_dmaReadCompletion (d : DmaData) : exec (.dmaReadCompletion t (.ring i c) d) s = .next (ringDma d i.toNat c.toNat (at_ s t)) :=
  congrArg Host.Outcome.next (crossing_arrives (s := at_ s t) rfl
    (show [islLink, islHub].all (islandRuns s) = true by rw [List.all_cons, hlink, List.all_cons, hhub]; rfl) _ _)

theorem exec_dmaCompletionTimeout : exec (.dmaCompletionTimeout t (.ring i c)) s = .next (ringTimeout i.toNat c.toNat (at_ s t)) :=
  congrArg Host.Outcome.next (crossing_arrives (s := at_ s t)
    (show [islLink].all (islandRuns s) = true by rw [List.all_cons, hlink]; rfl)
    (show [islHub].all (islandRuns s) = true by rw [List.all_cons, hhub]; rfl) _ _)

/-- An error, a poisoned completion and a timeout bring the operation a fault. -/
theorem exec_dmaFault {o : RingOp} (ho : findOp (getInst s i.toNat) c.toNat = some o) {cmd : Instr}
    (h : cmd ∈ [Instr.dmaReadCompletion t (.ring i c) .error, .dmaReadCompletion t (.ring i c) .poisoned] ++
      (if timedOut (at_ s t) o then [.dmaCompletionTimeout t (.ring i c)] else [])) :
    ∃ d, (d = .error ∨ d = .poisoned) ∧ exec cmd s = .next (ringDma d i.toNat c.toNat (at_ s t)) := by
  rcases List.mem_append.1 h with h | h
  · simp only [List.mem_cons, List.not_mem_nil, or_false] at h
    rcases h with rfl | rfl
    · exact ⟨_, .inl rfl, exec_dmaReadCompletion hlink hhub _⟩
    · exact ⟨_, .inr rfl, exec_dmaReadCompletion hlink hhub _⟩
  · split at h
    · next hlate =>
      obtain rfl := List.mem_singleton.1 h
      refine ⟨.error, .inl rfl, (exec_dmaCompletionTimeout hlink hhub).trans (congrArg Host.Outcome.next ?_)⟩
      unfold ringTimeout
      rw [show findOp (getInst (at_ s t) i.toNat) c.toNat = some o from ho]
      exact if_pos hlate
    · cases h

theorem exec_dmaTimeout_early {o : RingOp} (ho : findOp (getInst s i.toNat) c.toNat = some o) (h : timedOut (at_ s t) o = false) :
    exec (.dmaCompletionTimeout t (.ring i c)) s = .next (at_ s t) := by
  refine (exec_dmaCompletionTimeout hlink hhub).trans (congrArg Host.Outcome.next ?_)
  unfold ringTimeout
  rw [show findOp (getInst (at_ s t) i.toNat) c.toNat = some o from ho]
  exact if_neg (ne_true_of_eq_false h)

end

section
variable {s : State} {t : Nat} {i : InstNo} {c : BitVec 16}

theorem Ended.from_at {s u : State} {t i : Nat} {o : RingOp} {e : Bytes} (h : Ended (at_ s t) u i o e) : Ended s u i o e := h

/-- A word whose source has its clock waits for a sink that has none. -/
theorem crossing_stalls {s : State} {source sink : List Nat} (hs : source.all (islandRuns s) = true)
    (hk : sink.all (islandRuns s) = false) (c : Instr) (f : State → State) : crossing s source sink c f = stall s c := by
  unfold crossing
  rw [if_neg (ne_false_of_eq_true hs), if_neg (ne_true_of_eq_false hk)]

theorem dmaReadCompletion_stalls (d : DmaData) (h : islandRuns s islLink = false ∨ islandRuns s islHub = false) :
    exec (.dmaReadCompletion t (.ring i c) d) s = .next (stall (at_ s t) (.dmaReadCompletion t (.ring i c) d)) := by
  have hall : [islLink, islHub].all (islandRuns s) = false := by
    rw [List.all_cons, List.all_cons]
    rcases h with h | h <;> rw [h] <;> simp
  exact congrArg Host.Outcome.next (crossing_stalls (s := at_ s t) rfl hall _ _)

theorem dmaCompletionTimeout_unsent (h : islandRuns s islLink = false) :
    exec (.dmaCompletionTimeout t (.ring i c)) s = .next (at_ s t) := by
  have hall : [islLink].all (islandRuns s) = false := by
    rw [List.all_cons, h]
    rfl
  exact congrArg Host.Outcome.next (if_pos hall)

theorem dmaCompletionTimeout_stalls (hl : islandRuns s islLink = true) (h : islandRuns s islHub = false) :
    exec (.dmaCompletionTimeout t (.ring i c)) s = .next (stall (at_ s t) (.dmaCompletionTimeout t (.ring i c))) := by
  have hlink : [islLink].all (islandRuns s) = true := by
    rw [List.all_cons, hl]
    rfl
  have hhub : [islHub].all (islandRuns s) = false := by
    rw [List.all_cons, h]
    rfl
  exact congrArg Host.Outcome.next (crossing_stalls (s := at_ s t) hlink hhub _ _)

end

/-- Settles O33: a completion is `ringDma` of the operation that waits for it, and where nobody has input left to ask for, what it brings is
all that follows: the operation is rewritten, goes on with its input, or ends (`finishRing_finishes`, `denyDma_ends`). -/
theorem dmaRequestsRetire : Obligations.DmaRequestsRetire := by
  intro s t i c
  refine ⟨fun d h => dmaReadCompletion_stalls d h, dmaCompletionTimeout_unsent, dmaCompletionTimeout_stalls, ?_⟩
  rintro o ho hlink hhub hst hask hall bad rfl
  have hw : AsksNone (at_ s t) := hask
  have ho' : findOp (getInst (at_ s t) i.toNat) c.toNat = some o := ho
  have hexec := fun d => exec_dmaReadCompletion (t := t) (i := i) (c := c) hlink hhub d
  refine ⟨exec_dmaTimeout_early hlink hhub ho, fun hr hb d => ?_, fun bs o1 hr hsq hf hwr h1 => ⟨fun hpass => ⟨fun h => ?_, ?_⟩, ?_⟩, ?_, ?_, ?_, ?_, ?_⟩
  · refine (hexec d).trans (congrArg Host.Outcome.next (ringDma_retired ho' ?_))
    unfold dmaRetired
    rw [hr, hb]
    rfl
  · exact ⟨_, hexec _, ringDma_data_waits ho' hw hall hr hsq hf h1 hwr hpass h⟩
  · intro j hoc hj hclk hsus hlate
    exact ⟨_, hexec _, ringDma_data_runs ho' hw hall hr hsq hf h1 hpass hoc hj hclk hsus hlate⟩
  · intro hit hne hdeny hb ha
    exact ⟨_, hexec _, Ended.from_at (ringDma_data_denied ho' hr hsq hf h1 hne hdeny hb ha hst)⟩
  · intro cmd hcmd h1 hb hsq hoc
    obtain ⟨d, hd, he⟩ := exec_dmaFault hlink hhub ho hcmd
    have hlen : o.asks.length = 1 := h1
    have harr : dmaArrives (at_ s t) o d = { o with dmaFault := true, asks := [] } := by
      rw [dmaArrives_fault hd (by omega), List.drop_eq_nil_of_le (by omega)]
    have hends := ringDma_fault_ends (d := d) ho' hw hd (by unfold dmaRetired; rw [h1]; rfl) harr rfl (by unfold dmaRetired; rw [hb]; rfl) rfl hsq hst
    rw [show faultOutcome (at_ s t) { o with dmaFault := true, asks := [] } = { status := 0x0207, due := (at_ s t).now } by
      unfold faultOutcome; dsimp only; rw [hoc]] at hends
    exact ⟨_, he, hends rfl⟩
  · intro cmd hcmd h1
    obtain ⟨d, hd, he⟩ := exec_dmaFault hlink hhub ho hcmd
    exact ⟨_, he, ringDma_fault_waits ho' hw hd h1⟩
  · intro cmd hcmd oc h1 hb hsq hoc hlt
    obtain ⟨d, hd, he⟩ := exec_dmaFault hlink hhub ho hcmd
    exact ⟨_, he, Ended.from_at (ringDma_squashed_ends ho' hw hd h1 hb hsq hst hoc hlt)⟩
  · intro bs oc hr hb hsq hf hwr hoc htok
    exact ⟨_, hexec _, ringDma_back_ends ho' hw hall hr hb hsq hf hwr hoc htok hst⟩
  · intro cmd hcmd oc hr hb hsq hoc hle
    obtain ⟨d, hd, he⟩ := exec_dmaFault hlink hhub ho hcmd
    have harr := dmaArrives_backFault (s := at_ s t) hd hr hb
    have hends := ringDma_fault_ends (d := d) ho' hw hd (by unfold dmaRetired; rw [hb, Bool.not_true, Bool.and_false]) harr rfl
      (by unfold dmaRetired RingOp.reads at *; dsimp only; rw [hr]; rfl) rfl hsq hst
    rw [show faultOutcome (at_ s t) { o with readBack := false, dmaFault := true } = { status := 0x0207, due := (at_ s t).now } by
      unfold faultOutcome; dsimp only; rw [hoc]; exact if_neg (by omega)] at hends
    exact ⟨_, he, hends rfl⟩

end Sys2Proof.Machine
end

section
/-! SUPPORT. The check of a result on a second BNC, and the token that a completing UNWRAP inserts (R205, R211, R228, R234). -/

namespace Sys2Proof.Machine

-- One proof at a time: the check bounds the compiler's threads.
set_option Elab.async false

open Sys2Proof Sys2Proof.Safety

/-! ## Engines that a change of memories leaves free (R228) -/

/-- The bays stand but for the memories of their engines. -/
def MemOnly (s u : State) : Prop := ∀ b, getBay u b = { getBay s b with mem := (getBay u b).mem }

section
variable {s u v : State}

theorem MemOnly.refl (s : State) : MemOnly s s := fun _ => rfl

theorem MemOnly.trans (h : MemOnly s u) (h' : MemOnly u v) : MemOnly s v := fun b => (h' b).trans (by rw [h b])

theorem MemOnly.of_bays (h : u.bays = s.bays) : MemOnly s u := fun b => by rw [getBay_of_bays h b]

theorem MemOnly.each {α : Type} {f : State → α → State} (h : ∀ s a, MemOnly s (f s a)) (xs : List α) (s : State) :
    MemOnly s (Machine.each xs s f) :=
  each_keeps (P := MemOnly s) (fun w a hw => hw.trans (h w a)) xs (.refl s)

theorem memOnly_modMem (s : State) (b k : Nat) (f : EngMem → EngMem) : MemOnly s (modMem s b k f) := fun c => by
  unfold modMem modBay
  by_cases hc : c = b
  · rw [hc, getBay_setBay_same]
  · rw [getBay_setBay_other _ _ _ _ hc]

/-- Which engines are free does not depend on what their memories hold. -/
theorem freeEngine_memOnly (h : MemOnly s u) (hi : u.insts = s.insts) (hn : u.now = s.now) (b : Nat) (avoid : List Nat) :
    freeEngine u b avoid = freeEngine s b avoid := by
  have hlate : ∀ o, dataLate u o = dataLate s o := fun o => by
    unfold dataLate bookedEnd
    rw [h o.bay, hn]
  have hbusy : busyEngines u b = busyEngines s b := by
    unfold busyEngines
    simp only [hi, hlate]
  unfold freeEngine freeEngines
  rw [hbusy, h b]
  rfl

end

/-! ## The segments of a result under check -/

theorem engineWords_plain (b k : Nat) : 2 < (engineWords b k).1 := by
  unfold engineWords memBnc memCipher memLane
  split
  · omega
  · split <;> omega

section
variable (s : State) (b k op : Nat)

theorem leaveSegment_plain : Within { bays := true, bad := true } s (leaveSegment s b k) :=
  ((modMem_within s b k _).mono rfl).then (writeWords_within_plain _ (engineWords_plain b k) _ _) (by rfl)

theorem leaveOutput_plain : Within { bays := true, bad := true, free := true } s (leaveOutput s b k op) :=
  (((freshArea_within s).mono rfl).then (modMem_within _ b k _)).then (writeWords_within_plain _ (engineWords_plain b k) _ _) (by rfl)

theorem leaveSegment_memOnly : MemOnly s (leaveSegment s b k) :=
  (memOnly_modMem s b k _).trans (.of_bays ((writeWords_within _ _ _ _).same (·.bays)))

theorem leaveOutput_memOnly : MemOnly s (leaveOutput s b k op) :=
  ((MemOnly.of_bays rfl).trans (memOnly_modMem _ b k _)).trans (.of_bays ((writeWords_within _ _ _ _).same (·.bays)))

/-- A producing segment has ended on an engine: its key area is zero, its I/O area holds what an operation left there. -/
def Produced (s : State) (b op k : Nat) : Prop :=
  (mget {} (getBay s b).mem k).key = .zero ∧ ∃ id, (mget {} (getBay s b).mem k).io = .ofOp op id

theorem leave_produces : Produced (leaveSegment (leaveOutput s b k op) b k) b op k := by
  unfold Produced
  rw [getMem_leaveSegment, if_pos rfl, getMem_leaveOutput, if_pos rfl]
  exact ⟨rfl, _, rfl⟩

theorem Produced.leave {s : State} {b op k : Nat} (h : Produced s b op k) (j : Nat) :
    Produced (leaveSegment (leaveOutput s b j op) b j) b op k := by
  by_cases hk : k = j
  · exact hk ▸ leave_produces s b k op
  · unfold Produced at h ⊢
    rw [getMem_leaveSegment, if_neg hk, getMem_leaveOutput, if_neg hk]
    exact h

theorem segmentsLeft_plain (es : List Nat) : Within { bays := true, bad := true, free := true } s (segmentsLeft s b op es) :=
  .each (fun w j => (leaveOutput_plain w b j op).then (leaveSegment_plain _ b j)) es s

theorem segmentsLeft_memOnly (es : List Nat) : MemOnly s (segmentsLeft s b op es) :=
  .each (fun w j => (leaveOutput_memOnly w b j op).trans (leaveSegment_memOnly _ b j)) es s

theorem segmentsLeft_produced {es : List Nat} {k : Nat} (hk : k ∈ es) : Produced (segmentsLeft s b op es) b op k :=
  each_reaches (P := fun w => Produced w b op k) (f := fun w j => leaveSegment (leaveOutput w b j op) b j) hk
    (fun w => leave_produces w b k op) (fun _ j h => h.leave j) s

/-- A checking segment uses no private material. -/
theorem Produced.enter {s : State} {b op k : Nat} (h : Produced s b op k) (j tenant : Nat) :
    Produced (enterSegment s b j tenant op false) b op k := by
  have hmem : ∀ w f, getBay (writeEngine (modMem w b j f) b j) b = getBay (modMem w b j f) b := fun w f =>
    getBay_of_bays ((writeEngine_within _ b j).same (·.bays)) b
  unfold Produced at h ⊢
  unfold enterSegment
  dsimp only
  rw [hmem, getMem_modMem]
  by_cases hk : k = j
  · rw [if_pos hk]
    exact ⟨rfl, _, rfl⟩
  · rw [if_neg hk]
    split
    · exact h
    · have hclear : mget {} (getBay (wipeBnc s b j (.tenant tenant)) b).mem k = mget {} (getBay s b).mem k := by
        show mget {} (getBay (clearMem s b j (.tenant tenant)) b).mem k = _
        unfold clearMem
        rw [hmem, getMem_modMem, if_neg hk]
      rw [show mget {} (getBay (freshArea (wipeBnc s b j (.tenant tenant))).2 b).mem k = _ from hclear]
      exact h

end

/-! ## The check (R228) -/

/-- The BNC that a check takes: that of the other RSA half, or the lowest free one. -/
def checkEngine (s : State) (o : RingOp) : Option Nat :=
  if dOp o.snap = 0x66 ∧ 2 ≤ o.engines.length then o.engines[1]? else freeEngine s o.bay o.engines

/-- What the check's time makes of the verdict where the operation had to wait for its BNC (log entry 97). -/
def checkOutcome (s : State) (o : RingOp) (oc : Outcome) : Outcome :=
  if o.checkWaited then { oc with due := max oc.due (s.now + checkNs o.snap) } else oc

section
variable {s : State} {i : Nat} {o : RingOp} {oc : Outcome}

theorem checkEngine_left : (match dOp o.snap, o.engines with
    | 0x66, _ :: k :: _ => some k
    | _, _ => freeEngine (segmentsLeft s o.bay (dOp o.snap) o.engines) o.bay o.engines) = checkEngine s o := by
  have hplain := segmentsLeft_plain s o.bay (dOp o.snap) o.engines
  have hfree : freeEngine (segmentsLeft s o.bay (dOp o.snap) o.engines) o.bay o.engines = freeEngine s o.bay o.engines :=
    freeEngine_memOnly (segmentsLeft_memOnly s o.bay _ o.engines) (hplain.same (·.insts)) (hplain.same (·.now)) _ _
  rw [hfree]
  unfold checkEngine
  split
  · next k _ hop he =>
    rw [if_pos ⟨hop, by rw [he, List.length_cons, List.length_cons]; omega⟩, he]
    rfl
  · next hno =>
    rw [if_neg]
    rintro ⟨hop, hlen⟩
    match he : o.engines, hlen with
    | a :: k :: rest, _ => exact hno a k rest hop he

/-- The operation whose check runs on an engine. -/
def underCheck (s : State) (o : RingOp) (oc : Outcome) (k : Nat) : RingOp :=
  { o with engines := o.engines.filter (· != k) ++ [k], checking := true, outcome := some (checkOutcome s o oc) }

/-- The check on the engine that it takes, where it takes one, of segments that have ended. -/
def checkOn (w : State) (i : Nat) (o : RingOp) (oc : Outcome) (second : Option Nat) : State × RingOp × Outcome :=
  match second with
  | none => (modInst w i (fun x => setOp x { o with checkWaited := true }), { o with checkWaited := true }, oc)
  | some k => (modInst (enterSegment w o.bay k o.att.tenant (dOp o.snap) false) i (fun x => setOp x (underCheck w o oc k)),
      underCheck w o oc k, checkOutcome w o oc)

/-- A check begins once its producing segment has left its engines. -/
theorem beginCheck_on : beginCheck s i o oc = checkOn (segmentsLeft s o.bay (dOp o.snap) o.engines) i o oc (checkEngine s o) := by
  rw [← checkEngine_left]
  rfl

theorem beginCheck_none (h : checkEngine s o = none) : beginCheck s i o oc =
    (modInst (segmentsLeft s o.bay (dOp o.snap) o.engines) i (fun x => setOp x { o with checkWaited := true }), { o with checkWaited := true }, oc) := by
  rw [beginCheck_on, h]
  rfl

theorem beginCheck_some {k : Nat} (h : checkEngine s o = some k) : beginCheck s i o oc =
    (modInst (enterSegment (segmentsLeft s o.bay (dOp o.snap) o.engines) o.bay k o.att.tenant (dOp o.snap) false) i
      (fun x => setOp x (underCheck s o oc k)), underCheck s o oc k, checkOutcome s o oc) := by
  have hnow : (segmentsLeft s o.bay (dOp o.snap) o.engines).now = s.now := (segmentsLeft_plain s o.bay _ o.engines).same (·.now)
  have hout : checkOutcome (segmentsLeft s o.bay (dOp o.snap) o.engines) o oc = checkOutcome s o oc := by
    unfold checkOutcome
    rw [hnow]
  rw [beginCheck_on, h]
  unfold checkOn underCheck
  rw [hout]

/-- A check takes its time. -/
theorem checkNs_pos (d : Bytes) : 0 < checkNs d := by
  unfold checkNs
  dsimp only
  split
  · split <;> decide
  · decide
  · split <;> decide
  · decide
  · decide

end

/-! ## Tokens inserted at a completion (R205, R211) -/

/-- What the insertion of a token may write. -/
def tokenScope : Scope := { cache := true, bad := true, slotMask := true, cnt := true, free := true, random := true }

section
variable (s : State)

theorem putWay_token (x : Nat) (w : Way) : Within tokenScope s (putWay s x w) :=
  (show Within tokenScope s { s with keys := { s.keys with cache := mset {} s.keys.cache x w } } from rfl).then
    (writeWords_within _ memCache (wayWord x) 16)

theorem insertToken_within (quota policy : Nat) (tok : Token) : Within tokenScope s (insertToken s quota policy tok).2 := by
  unfold insertToken
  split
  · exact (bump_within s _).mono rfl
  · next key _ =>
    extract_lets st ways place toks cands
    split
    · exact putWay_token s _ _
    · split
      · exact putWay_token s _ _
      · have hchoose : Within tokenScope s (chooseWay s policy cands).2 := by
          unfold chooseWay
          split
          · exact .refl s
          · split
            · exact .refl s
            · exact rfl
        generalize chooseWay s policy cands = C at hchoose
        obtain ⟨x, w⟩ := C
        cases x with
        | none => exact hchoose.then (bump_within w _)
        | some x => exact (hchoose.then (bump_within w _)).trans (putWay_token _ _ _)

/-- A token in the cache stays there when shelf entries are freed. -/
theorem freeShelf_token {n : Nat} {k : Token} (h : (mget {} s.keys.cache n).body = .token k) :
    (mget {} (freeShelf s).keys.cache n).body = .token k := by
  unfold freeShelf
  dsimp only
  revert h
  generalize s.keys.cache = m
  intro h
  induction m with
  | nil => exact h
  | cons e rest ih =>
    obtain ⟨a, w⟩ := e
    by_cases ha : a = n
    · have hw : w.body = .token k := by
        have hget : mget {} ((a, w) :: rest) n = w := if_pos ha
        rwa [hget] at h
      rw [List.filterMap_cons]
      dsimp only
      rw [hw]
      exact (congrArg Way.body (if_pos ha)).trans hw
    · have hrest : (mget {} rest n).body = .token k := by
        have hget : mget ({} : Way) ((a, w) :: rest) n = mget {} rest n := if_neg ha
        rwa [hget] at h
      rw [List.filterMap_cons]
      dsimp only
      split
      · exact ih hrest
      · next e' he' =>
        have hkey : e'.1 = a := by
          split at he'
          · split at he'
            · exact (congrArg Prod.fst (Option.some.inj he')).symm
            · split at he'
              · cases he'
              · exact (congrArg Prod.fst (Option.some.inj he')).symm
          · exact (congrArg Prod.fst (Option.some.inj he')).symm
        obtain ⟨a', w'⟩ := e'
        exact (congrArg Way.body (if_neg (fun h : a' = n => ha (hkey.symm.trans h)))).trans (ih hrest)

end

end Sys2Proof.Machine
end

section
/-! SUPPORT. The end of a ring operation's segments (R57, R126, R149, R205, R211, R216, R218, R228). -/

namespace Sys2Proof.Machine

-- One proof at a time: the check bounds the compiler's threads.
set_option Elab.async false

open Sys2Proof Sys2Proof.Safety

/-! ## The verdict as its segment comes to its end (R28, R216) -/

section
variable {s : State} {i : Nat} {o : RingOp} {oc : Outcome} {lead : Nat}
  (hlead : lead = (if o.checking = false ∧ checkWanted o oc = true then checkNs o.snap else 0))
include hlead

theorem checkedEnd_bad (hb : engineBad s o = true) (hst : oc.status ≠ 0x0801) (hdue : oc.due ≤ s.now + lead) :
    checkedEnd s i o oc = (modInst (raiseEngine s o.bay) i (fun x => setOp x { o with outcome := some { status := 0x0801, due := s.now } }),
      { o with outcome := some { status := 0x0801, due := s.now } }, { status := 0x0801, due := s.now }) := by
  subst hlead
  unfold checkedEnd
  exact if_pos ⟨hdue, hst, hb⟩

theorem checkedEnd_good (h : engineBad s o = false ∨ oc.status = 0x0801 ∨ s.now + lead < oc.due) : checkedEnd s i o oc = (s, o, oc) := by
  subst hlead
  unfold checkedEnd
  refine if_neg ?_
  rintro ⟨hdue, hst, hb⟩
  rcases h with h | h | h
  · exact absurd (hb.symm.trans h) (by decide)
  · exact hst h
  · omega

end

/-! ## The release of its output (R126, R149) -/

section
variable {s : State} {i : Nat} {o : RingOp} {oc : Outcome}

theorem dmaRetired_iff : dmaRetired o = true ↔ o.reads = 0 ∧ o.readBack = false := by
  unfold dmaRetired
  rw [Bool.and_eq_true, beq_iff_eq, Bool.not_eq_true']

theorem ringRelease_waits (h : s.now < oc.due ∨ o.waits ≠ [] ∨ o.reads ≠ 0 ∨ o.readBack = true) : ringRelease s i o oc = s := by
  unfold ringRelease
  refine if_neg ?_
  rintro ⟨hdue, hw, hret⟩
  obtain ⟨hr, hb⟩ := dmaRetired_iff.1 hret
  rcases h with h | h | h | h
  · omega
  · exact h hw
  · exact h hr
  · exact absurd (hb.symm.trans h) (by decide)

variable (hdue : oc.due ≤ s.now) (hw : o.waits = []) (hr : o.reads = 0) (hb : o.readBack = false)
include hdue hw hr hb

theorem ringRelease_finishes (h : o.written = true ∨ hostRegion o oc.out = none) : ringRelease s i o oc = finishRing s i o oc := by
  have hnone : (if o.written = false then hostRegion o oc.out else none) = none := by
    split
    · next hwr => exact h.resolve_left (ne_true_of_eq_false hwr)
    · rfl
  unfold ringRelease
  rw [if_pos ⟨hdue, hw, dmaRetired_iff.2 ⟨hr, hb⟩⟩, hnone]

variable {r : Region} (hwr : o.written = false) (hreg : hostRegion o oc.out = some r)
include hwr hreg

theorem ringRelease_output (hfree : decidingOver s dmaMaster (dmaRanges o) true = none) :
    ringRelease s i o oc = hostOutput s i o r oc.out := by
  unfold ringRelease
  rw [if_pos ⟨hdue, hw, dmaRetired_iff.2 ⟨hr, hb⟩⟩, if_pos hwr, hreg]
  dsimp only
  rw [hfree]

theorem ringRelease_denied {hit : Nat × Nat} (hdeny : decidingOver s dmaMaster (dmaRanges o) true = some hit) :
    ringRelease s i o oc = denyDma s i o oc.out.length true := by
  unfold ringRelease
  rw [if_pos ⟨hdue, hw, dmaRetired_iff.2 ⟨hr, hb⟩⟩, if_pos hwr, hreg]
  dsimp only
  rw [hdeny]

end

/-- The rest of the output goes to the host, and its last byte is read back where the head has a tag left (R452). -/
theorem hostOutput_sends {s : State} {i : Nat} {o : RingOp} {oc : Outcome} {r : Region} {w : State} {o' : RingOp}
    (hown : (findOp (getInst s i) o.count).isSome) (ho' : o' = { o with sent := max o.sent oc.out.length })
    (hw : w = modInst (hostWrites s o (r.ref + o.sent) (oc.out.drop o.sent)) i (fun x => setOp x o')) :
    (headReads w (o.att.ld / 16) < 512 → SetsOp (emit w (.dmaRead o.att.ld o.att.pasid (r.ref + oc.out.length - 1) 1)) (hostOutput s i o r oc.out) i
      { o' with written := true, readBack := true, backT := s.now }) ∧
    (512 ≤ headReads w (o.att.ld / 16) → hostOutput s i o r oc.out = w) := by
  have hwrites := hostWrites_within s o (r.ref + o.sent) (oc.out.drop o.sent)
  have hnow : w.now = s.now := by
    rw [hw]
    exact hwrites.same (·.now)
  have hcount : o'.count = o.count := by rw [ho']
  have hown' : (findOp (getInst w i) o'.count).isSome := by
    rw [hw, getInst_modInst_same, findOp_setOp_same]
    · rfl
    · rw [hcount, getInst_of_insts (hwrites.same (·.insts)) i]
      exact hown
  have heq : hostOutput s i o r oc.out = if headReads w (o.att.ld / 16) < 512 then readLast w i o' r oc.out else w := by
    subst ho' hw
    rfl
  rw [heq]
  refine ⟨fun hlt => ?_, fun hge => if_neg (by omega)⟩
  rw [if_pos hlt]
  subst ho'
  have hsets := setOp_setsOp (emit w (.dmaRead o.att.ld o.att.pasid (r.ref + oc.out.length - 1) 1)) i
    { o with sent := max o.sent oc.out.length, written := true, readBack := true, backT := s.now } hown'
  unfold readLast
  rw [hnow]
  exact hsets

/-! ## A token inserted as UNWRAP ends (R205, R211) -/

/-- The completion of an operation keeps the tokens of the cache. -/
theorem endRing_token {s : State} {i n : Nat} {o : RingOp} {k : Token} (h : (mget {} s.keys.cache n).body = .token k) (st len : Nat)
    (out res : Bytes) : (mget {} (endRing s i o st len out res).keys.cache n).body = .token k := by
  unfold endRing
  extract_lets late st' s1 s2
  have h1 : s1.keys.cache = s.keys.cache := by
    show (if _ then noteLate s i o.bay (dOp o.snap) st' (s.now - promised o) else s).keys.cache = s.keys.cache
    split
    · exact (noteLate_within s _ _ _ _ _).same (·.keys.cache)
    · rfl
  have h2 : s2.keys.cache = s1.keys.cache := by
    show (if _ then writeStaged s1 i o out else s1).keys.cache = s1.keys.cache
    split
    · exact (writeStaged_within s1 i o out).same (·.keys.cache)
    · rfl
  unfold completeRing
  extract_lets m entry w s3 s4 s5
  have h3 : s3.keys.cache = s2.keys.cache := by
    have hwords := ((writeWords_within s2 memRing w 8).mono (G := { bad := true, slotMask := true, writers := true, insts := true }) rfl)
    exact ((hwords.then (noteWriter_within _ memRing w 8 _)).then (modInst_within _ i _)).same (·.keys.cache)
  have h4 : s4.keys.cache = s3.keys.cache := (countStatus_within s3 i _ _ _ _ _).same (·.keys.cache)
  have h5 : s5.keys.cache = s4.keys.cache := by
    show (if _ then sendMsix s4 o.att.ld o.att.vector else s4).keys.cache = s4.keys.cache
    split
    · exact (sendMsix_within s4 _ _).same (·.keys.cache)
    · rfl
  refine freeShelf_token s5 ?_
  rw [h5, h4, h3, h2, h1]
  exact h

section
variable {s : State} {i : Nat} {o : RingOp} {oc : Outcome} (hst : o.stage ≠ .atHub) (h0 : baseStatus o oc = 0) (hop : dOp o.snap = 0x71)
  (hk : o.plan.kind ≠ .bnc) (hd : oc.deriv = none)
include hst h0 hop hk hd

omit hst in
theorem finishing_unwrap : rewriteDeriv (finishing s i o oc) oc = leaveEngines s i o false := by
  rw [(rewriteDeriv_deriv _ oc).2 hd]
  unfold finishing kumEnded accounted outputsLeft enginesLeft
  rw [h0, if_neg (fun h => absurd h.2.1 (not_not_intro rfl)), if_neg (fun h => absurd (hop.symm.trans h.1) (by decide)),
    if_neg (fun h => hk h.2.1), if_neg (by decide)]
  rfl

variable {tok : Token} (ht : oc.token = some tok) (hout : oc.out = []) {ref : Option Nat} {w : State}
  (hins : insertToken (leaveEngines s i o false) o.att.tokenQuota o.att.tokenPolicy tok = (ref, w))
include ht hout hins

omit hst in
/-- The end of an UNWRAP is the completion that its insertion gives. -/
theorem finishRing_unwrap : finishRing s i o oc =
    ref.elim (endRing w i o 0x0602 0 [] []) (fun r => endRing w i o 0 4 [] (Bytes.ofNatLE 4 r)) := by
  have hinsert : insertAtEnd (leaveEngines s i o false) o.att oc =
      ref.elim (0x0602, [], w) (fun r => (0, Bytes.ofNatLE 4 r, w)) := by
    unfold insertAtEnd
    rw [ht]
    dsimp only
    rw [hins]
    cases ref <;> rfl
  rw [finishRing_eq, if_neg (not_not_intro h0), finishing_unwrap h0 hop hk hd, hinsert, ht, hout]
  cases ref with
  | none => rfl
  | some r =>
    show endRing w i o 0 (Bytes.ofNatLE 4 r).length [] (Bytes.ofNatLE 4 r) = endRing w i o 0 4 [] (Bytes.ofNatLE 4 r)
    rw [Sha.ofNatLE_length]

/-- Of an UNWRAP's end: its token stands, its reference is returned, or 0x0602 where none can be inserted. -/
theorem finishRing_inserts : (finishRing s i o oc).keys.slots = s.keys.slots ∧ (finishRing s i o oc).vault = s.vault ∧
    (∀ n k, (mget {} w.keys.cache n).body = .token k → (mget {} (finishRing s i o oc).keys.cache n).body = .token k) ∧
    (∀ r, ref = some r → Ended s (finishRing s i o oc) i o (completionEntry (ringEntries s.ctl.cfg i) o (endStatus s o oc)
      o.att.epoch o.bay 0 4 (s.now - o.arr) (Bytes.ofNatLE 4 r))) ∧
    (ref = none → Ended s (finishRing s i o oc) i o (completionEntry (ringEntries s.ctl.cfg i) o 0x0602 o.att.epoch o.bay 0 0
      (s.now - o.arr) [])) := by
  have hleave := leaveEngines_within s i o false
  have htoken := insertToken_within (leaveEngines s i o false) o.att.tokenQuota o.att.tokenPolicy tok
  rw [hins] at htoken
  have hcfg : w.ctl.cfg = s.ctl.cfg := (htoken.same (·.ctl.cfg)).trans (hleave.same (·.ctl.cfg))
  have hnow : w.now = s.now := (htoken.same (·.now)).trans (hleave.same (·.now))
  have hkept : RingKept i s w := .of_insts ((htoken.same (·.insts)).trans (hleave.same (·.insts)))
    ((htoken.same (·.outbox)).trans (hleave.same (·.outbox)))
  have hslots : w.keys.slots = s.keys.slots := (htoken.same (·.keys.slots)).trans (hleave.same (·.keys.slots))
  have hvault : w.vault = s.vault := (htoken.same (·.vault)).trans (hleave.same (·.vault))
  have hline : isLineOp (dOp o.snap) = false := by
    rw [hop]
    decide
  have hres : ∀ st res, st ≤ 1 → routeRes o st res = res := fun st res hle => by
    unfold routeRes
    rw [if_neg (ne_true_of_eq_false hline), if_pos hle]
  have hend : ∀ st len res, (endRing w i o st len [] res).keys.slots = s.keys.slots ∧ (endRing w i o st len [] res).vault = s.vault ∧
      (∀ n k, (mget {} w.keys.cache n).body = .token k → (mget {} (endRing w i o st len [] res).keys.cache n).body = .token k) :=
    fun st len res => by
      have hwithin := endRing_within w i o st len [] res
      exact ⟨(hwithin.same (·.keys.slots)).trans hslots, (hwithin.same (·.vault)).trans hvault, fun n k hn => endRing_token hn st len [] res⟩
  rw [finishRing_unwrap h0 hop hk hd ht hout hins]
  cases ref with
  | some r =>
    obtain ⟨hs, hv, hc⟩ := hend 0 4 (Bytes.ofNatLE 4 r)
    refine ⟨hs, hv, hc, fun r' hr' => ?_, fun h => by cases h⟩
    obtain rfl := Option.some.inj hr'
    have hended := (endRing_completes w i o hst 0 4 [] (Bytes.ofNatLE 4 r)).1
    have hlate := lateStatus_success o (now := w.now)
    rw [if_pos hlate, hres _ _ hlate, hnow, hcfg] at hended
    rw [endStatus_eq, h0]
    exact Ended.of_kept hended hkept hcfg
  | none =>
    obtain ⟨hs, hv, hc⟩ := hend 0x0602 0 []
    refine ⟨hs, hv, hc, (fun r' hr' => by cases hr'), fun _ => ?_⟩
    have hended := endRing_fails w i o (st := 0x0602) hst (by decide) []
    have hnone : routeRes o 0x0602 [] = [] := by
      unfold routeRes
      rw [if_neg (ne_true_of_eq_false hline), if_neg (by decide)]
    rw [hnone, hnow, hcfg] at hended
    exact Ended.of_kept hended hkept hcfg

end

/-- While an operation waits for a reservation nothing of its output goes (R149). -/
theorem sendProduced_waits {s : State} {i : Nat} {o : RingOp} (h : o.waits ≠ []) : sendProduced s i o = s := by
  unfold sendProduced
  dsimp only
  rw [if_neg (fun hc => h hc.1)]

/-! ## What the end of a segment comes to -/

section
variable {s : State} {i c : Nat} {o : RingOp} (ho : findOp (getInst s i) c = some o)
include ho

section
variable {oc : Outcome} (hoc : o.outcome = some oc) (hsq : o.squashed = false) (hclk : bayClockRuns s o.bay = true)
include hoc hsq hclk

/-- The segments of an operation whose outcome is fixed, and that nothing ends from outside. -/
theorem ringSegmentEnd_fixed {w : State} {p : RingOp} {f : Outcome} (hend : checkedEnd s i o oc = (w, p, f)) : ringSegmentEnd i c s =
    if checkWanted p f = true ∧ p.checking = false then
      if f.due ≤ w.now + checkNs p.snap then
        if (beginCheck w i p f).2.1.checking then
          ringRelease (beginCheck w i p f).1 i (beginCheck w i p f).2.1 (beginCheck w i p f).2.2
        else (beginCheck w i p f).1
      else w
    else if w.now < f.due then sendProduced w i p else ringRelease w i p f := by
  unfold ringSegmentEnd
  rw [ho]
  dsimp only
  rw [hoc]
  dsimp only
  rw [if_pos ⟨hsq, hclk⟩, hend]

variable {lead : Nat} (hlead : lead = (if o.checking = false ∧ checkWanted o oc = true then checkNs o.snap else 0))
include hlead

/-- A mismatched word of its engines' memories ends the operation with 0x0801 (R28, R216). -/
theorem ringSegmentEnd_bad {f : Outcome} (hf : f = { status := 0x0801, due := s.now }) (hb : engineBad s o = true) (hst : oc.status ≠ 0x0801)
    (hdue : oc.due ≤ s.now + lead) :
    (o.waits = [] → o.reads = 0 → o.readBack = false → o.stage ≠ .atHub →
      Finishes (raiseEngine s o.bay) (ringSegmentEnd i c s) i { o with outcome := some f } f) ∧
    (o.waits ≠ [] ∨ o.reads ≠ 0 ∨ o.readBack = true → SetsOp (raiseEngine s o.bay) (ringSegmentEnd i c s) i { o with outcome := some f }) := by
  have hraise := raiseEngine_within s o.bay
  have hnow : (raiseEngine s o.bay).now = s.now := hraise.same (·.now)
  have hown : (findOp (getInst (raiseEngine s o.bay) i) o.count).isSome := by
    rw [getInst_of_insts (hraise.same (·.insts)) i]
    exact op_owned ho o
  have hrun := ringSegmentEnd_fixed ho hoc hsq hclk (checkedEnd_bad (i := i) hlead hb hst hdue)
  rw [← hf] at hrun
  have hcheck : checkWanted { o with outcome := some f } f = false := by
    unfold checkWanted
    rw [hf]
    exact Bool.and_false _
  rw [if_neg (fun h => absurd (hcheck.symm.trans h.1) (by decide)), if_neg (by rw [hf]; exact (show ¬(raiseEngine s o.bay).now < s.now by omega))] at hrun
  rw [hrun]
  refine ⟨fun hw hr hb hstage => ?_, fun h => ?_⟩
  · have hnone : hostRegion { o with outcome := some f } f.out = none := by
      unfold hostRegion
      rw [hf]
      split
      · exact if_neg fun h => h.2 rfl
      · rfl
    have hfdue : f.due ≤ (raiseEngine s o.bay).now := by
      rw [hf]
      exact Nat.le_of_eq hnow.symm
    rw [ringRelease_finishes (s := modInst (raiseEngine s o.bay) i (fun x => setOp x { o with outcome := some f }))
      (o := { o with outcome := some f }) hfdue hw hr hb (.inr hnone)]
    exact finishRing_setOp_finishes (o := { o with outcome := some f }) hown hstage (.inl (by rw [hf]))
  · rw [ringRelease_waits (o := { o with outcome := some f }) (.inr h)]
    exact setOp_setsOp (raiseEngine s o.bay) i { o with outcome := some f } hown

variable (hgood : engineBad s o = false ∨ oc.status = 0x0801 ∨ s.now + lead < oc.due)
include hgood

section
variable (hwant : checkWanted o oc = true) (hch : o.checking = false)
include hwant hch

/-- Before the producing segment has ended nothing happens. -/
theorem ringSegmentEnd_early (h : s.now + checkNs o.snap < oc.due) : ringSegmentEnd i c s = s := by
  rw [ringSegmentEnd_fixed ho hoc hsq hclk (checkedEnd_good hlead hgood), if_pos ⟨hwant, hch⟩]
  exact if_neg (by omega)

variable (hdue : oc.due ≤ s.now + checkNs o.snap)
include hdue

/-- Where no BNC is free for it the check waits. -/
theorem ringSegmentEnd_checkWaits (h : checkEngine s o = none) :
    findOp (getInst (ringSegmentEnd i c s) i) c = some { o with checkWaited := true } ∧
    (∀ k ∈ o.engines, Produced (ringSegmentEnd i c s) o.bay (dOp o.snap) k) ∧
    Within { insts := true, bays := true, free := true, bad := true } s (ringSegmentEnd i c s) := by
  have hleft := segmentsLeft_plain s o.bay (dOp o.snap) o.engines
  have hset := setOp_sets ho (hleft.same (·.insts)) { o with checkWaited := true } rfl
  have hrun : ringSegmentEnd i c s =
      modInst (segmentsLeft s o.bay (dOp o.snap) o.engines) i (fun x => setOp x { o with checkWaited := true }) := by
    rw [ringSegmentEnd_fixed ho hoc hsq hclk (checkedEnd_good hlead hgood), if_pos ⟨hwant, hch⟩, if_pos hdue, beginCheck_none h]
    exact if_neg (ne_true_of_eq_false hch)
  rw [hrun]
  refine ⟨findOp_count ho ▸ hset.1, fun k hk => segmentsLeft_produced s o.bay (dOp o.snap) hk, ?_⟩
  exact (hleft.mono rfl).then (modInst_within _ i _)

/-- A check takes its BNC. -/
theorem ringSegmentEnd_checks {k : Nat} (h : checkEngine s o = some k) (hlater : o.checkWaited = true ∨ s.now < oc.due ∨ o.waits ≠ []) :
    findOp (getInst (ringSegmentEnd i c s) i) c = some (underCheck s o oc k) ∧
    (∀ e ∈ o.engines, Produced (ringSegmentEnd i c s) o.bay (dOp o.snap) e) ∧
    (mget {} (getBay (ringSegmentEnd i c s) o.bay).mem k).owner = .tenant o.att.tenant ∧
    Within { insts := true, bays := true, cnt := true, free := true, bad := true } s (ringSegmentEnd i c s) := by
  have hleft := segmentsLeft_plain s o.bay (dOp o.snap) o.engines
  have henter := enterSegment_within (segmentsLeft s o.bay (dOp o.snap) o.engines) o.bay k o.att.tenant (dOp o.snap) false
  have hset := setOp_sets ho ((henter.same (·.insts)).trans (hleft.same (·.insts))) (underCheck s o oc k) rfl
  have hall : Within { insts := true, bays := true, cnt := true, free := true, bad := true } s
      (modInst (enterSegment (segmentsLeft s o.bay (dOp o.snap) o.engines) o.bay k o.att.tenant (dOp o.snap) false) i
        (fun x => setOp x (underCheck s o oc k))) := ((hleft.mono rfl).then henter).then (modInst_within _ i _)
  have hnow := hall.same (·.now)
  have hrun : ringSegmentEnd i c s =
      modInst (enterSegment (segmentsLeft s o.bay (dOp o.snap) o.engines) o.bay k o.att.tenant (dOp o.snap) false) i
        (fun x => setOp x (underCheck s o oc k)) := by
    rw [ringSegmentEnd_fixed ho hoc hsq hclk (checkedEnd_good hlead hgood), if_pos ⟨hwant, hch⟩, if_pos hdue, beginCheck_some h]
    refine (if_pos rfl).trans (ringRelease_waits ?_)
    rw [hnow]
    have hns := checkNs_pos o.snap
    unfold checkOutcome
    by_cases hcw : o.checkWaited = true
    · rw [if_pos hcw]
      exact .inl (show s.now < max oc.due (s.now + checkNs o.snap) by omega)
    · rw [if_neg hcw]
      rcases hlater with hl | hl | hl
      · exact absurd hl hcw
      · exact .inl hl
      · exact .inr (.inl hl)
  rw [hrun]
  refine ⟨?_, fun e he => (segmentsLeft_produced s o.bay (dOp o.snap) he).enter k o.att.tenant, ?_, hall⟩
  · rw [← findOp_count ho]
    exact hset.1
  · exact enterSegment_owner _ _ _ _ _ _

end

variable (hno : checkWanted o oc = false ∨ o.checking = true)
include hno

/-- Before the outcome is due what has been produced goes. -/
theorem ringSegmentEnd_produces (h : s.now < oc.due) : ringSegmentEnd i c s = sendProduced s i o := by
  rw [ringSegmentEnd_fixed ho hoc hsq hclk (checkedEnd_good hlead hgood), if_neg, if_pos h]
  rintro ⟨hw, hch⟩
  rcases hno with hn | hn
  · exact absurd (hw.symm.trans hn) (by decide)
  · exact absurd (hn.symm.trans hch) (by decide)

theorem ringSegmentEnd_releases (h : oc.due ≤ s.now) : ringSegmentEnd i c s = ringRelease s i o oc := by
  rw [ringSegmentEnd_fixed ho hoc hsq hclk (checkedEnd_good hlead hgood), if_neg, if_neg (by omega)]
  rintro ⟨hw, hch⟩
  rcases hno with hn | hn
  · exact absurd (hw.symm.trans hn) (by decide)
  · exact absurd (hn.symm.trans hch) (by decide)

end

/-- At an operation that is ended from outside, or whose bay has no clock, nothing happens. -/
theorem ringSegmentEnd_ended (h : o.squashed = true ∨ bayClockRuns s o.bay = false) : ringSegmentEnd i c s = s := by
  have hno : ∀ {p : Prop}, ¬(o.squashed = false ∧ p ∧ bayClockRuns s o.bay = true) := fun hc => by
    rcases h with h | h
    · exact absurd (h.symm.trans hc.1) (by decide)
    · exact absurd (hc.2.2.symm.trans h) (by decide)
  unfold ringSegmentEnd
  rw [ho]
  dsimp only
  split
  · exact if_neg fun hc => hno (p := True) ⟨hc.1, trivial, hc.2⟩
  · split
    · exact if_neg fun hc => hno hc
    · rfl

theorem ringSegmentEnd_idle (hoc : o.outcome = none) (h : o.job = none ∨ o.dmaFault = true) : ringSegmentEnd i c s = s := by
  unfold ringSegmentEnd
  rw [ho]
  dsimp only
  rw [hoc]
  dsimp only
  split
  · next j hj =>
    rcases h with h | h
    · rw [h] at hj
      cases hj
    · exact if_neg fun hc => absurd (h.symm.trans hc.2.1) (by decide)
  · rfl

section
variable {j : Job} (hoc : o.outcome = none) (hj : o.job = some j) (hsq : o.squashed = false) (hf : o.dmaFault = false)
  (hclk : bayClockRuns s o.bay = true)
include hoc hj hsq hf hclk

theorem ringSegmentEnd_lacks : ringSegmentEnd i c s = lackingStep s i o j := by
  unfold ringSegmentEnd
  rw [ho]
  dsimp only
  rw [hoc]
  dsimp only
  rw [hj]
  exact if_pos ⟨hsq, hf, hclk⟩

/-- An operation that is not suspended here goes on with its input. -/
theorem ringSegmentEnd_goes (h : dataLate s o = false ∨ o.suspended = true) : ringSegmentEnd i c s =
    if inputReady o then inputDone s i o j else sendProduced s i o := by
  have hsuspend : suspendOp s i o = (s, o) := by
    unfold suspendOp
    refine if_neg fun hc => ?_
    rcases h with h | h
    · exact absurd (h.symm.trans hc.1) (by decide)
    · exact absurd (h.symm.trans hc.2) (by decide)
  rw [ringSegmentEnd_lacks ho hoc hj hsq hf hclk]
  unfold lackingStep
  rw [hsuspend]

/-- Past its booked time an operation lets its cipher engines go until its input has come (R57; log entry 236). -/
theorem ringSegmentEnd_suspends (h : dataLate s o = true) (hsus : o.suspended = false) (hin : inputReady o = false)
    (hk : o.plan.kind = .cipher) (hw : o.waits ≠ []) :
    findOp (getInst (ringSegmentEnd i c s) i) c = some { o with suspended := true, engines := [] } ∧
    Within { insts := true, bays := true, bad := true } s (ringSegmentEnd i c s) := by
  have hset := setOp_sets ho rfl { o with suspended := true, engines := [] } rfl
  have hleave : Within { bays := true, bad := true } (modInst s i (fun x => setOp x { o with suspended := true, engines := [] }))
      (leaveEngines (modInst s i (fun x => setOp x { o with suspended := true, engines := [] })) i o false) := by
    unfold leaveEngines
    rw [if_pos hk]
    exact .each (fun w k => clearMem_within w _ _ _) _ _
  have hrun : ringSegmentEnd i c s = leaveEngines (modInst s i (fun x => setOp x { o with suspended := true, engines := [] })) i o false := by
    rw [ringSegmentEnd_lacks ho hoc hj hsq hf hclk]
    unfold lackingStep suspendOp
    rw [if_pos ⟨h, hsus⟩]
    dsimp only
    rw [if_neg (ne_true_of_eq_false (show inputReady { o with suspended := true, engines := [] } = false from hin))]
    exact sendProduced_waits (o := { o with suspended := true, engines := [] }) hw
  rw [hrun]
  refine ⟨?_, ((modInst_within s i _).mono rfl).then hleave⟩
  rw [getInst_of_insts (hleave.same (·.insts)) i, ← findOp_count ho]
  exact hset.1

/-- A full input fixes the outcome of a running operation. -/
theorem ringSegmentEnd_fills (h : dataLate s o = false ∨ o.suspended = true) (hin : inputReady o = true) (hsus : o.suspended = false) :
    SetsOp s (ringSegmentEnd i c s) i { o with
      job := none, outcome := some (jobOutcome s i o j (max s.now (o.t0 + segTime o.plan))) } := by
  rw [ringSegmentEnd_goes ho hoc hj hsq hf hclk h, if_pos hin]
  unfold inputDone
  rw [if_neg (ne_true_of_eq_false hsus)]
  exact setOp_sets ho rfl _ rfl

/-- A suspended operation takes engines again, where there are enough. -/
theorem ringSegmentEnd_reseats (hin : inputReady o = true) (hsus : o.suspended = true) {es : List Nat} (hes : es = seatsOf s o) :
    (seatsEnough s o = true → SetsOp (seatAll s o es) (ringSegmentEnd i c s) i { o with
      engines := es, job := none, outcome := some (jobOutcome s i { o with engines := es } j (s.now + segTime o.plan)) }) ∧
    (seatsEnough s o = false → ringSegmentEnd i c s = s) := by
  subst hes
  rw [ringSegmentEnd_goes ho hoc hj hsq hf hclk (.inr hsus), if_pos hin]
  unfold inputDone
  rw [if_pos hsus]
  refine ⟨fun h => ?_, fun h => if_neg (ne_true_of_eq_false h)⟩
  rw [if_pos h]
  have hseats : (seatAll s o (seatsOf s o)).insts = s.insts := by
    unfold seatAll
    rw [(seats_frame o.bay (dOp o.snap) (seatsOf s o) s).1]
  exact setOp_sets ho hseats { o with
    engines := seatsOf s o, job := none, outcome := some (jobOutcome s i { o with engines := seatsOf s o } j (s.now + segTime o.plan)) } rfl

end
end

/-! ## The obligation -/

theorem exec_segmentEnd {s : State} {t : Nat} {i : InstNo} {c : BitVec 16} (hub : islandRuns s islHub = true) :
    exec (.segmentEnd t (.ring i c)) s = .next (ringSegmentEnd i.toNat c.toNat (at_ s t)) :=
  congrArg Host.Outcome.next (crossing_hub t hub _ _)

theorem segmentEnd_stalls {s : State} {t : Nat} {i : InstNo} {c : BitVec 16} (hub : islandRuns s islHub = false) :
    exec (.segmentEnd t (.ring i c)) s = .next (stall (at_ s t) (.segmentEnd t (.ring i c))) := by
  have hall : [islHub].all (islandRuns s) = false := by
    rw [List.all_cons, hub]
    rfl
  exact congrArg Host.Outcome.next (crossing_stalls (s := at_ s t) rfl hall _ _)

/-- Settles O32: an operation's segments end as `ringSegmentEnd` says; its outcome, once due, is released (`ringRelease`), and its end is
`finishRing_finishes`, or `finishRing_inserts` for an UNWRAP. -/
theorem segmentsEnd : Obligations.SegmentsEnd := by
  intro s t i c
  refine ⟨segmentEnd_stalls, fun o ho0 hub => ?_⟩
  have hrun := exec_segmentEnd (t := t) (i := i) (c := c) hub
  have ho : findOp (getInst (at_ s t) i.toNat) c.toNat = some o := ho0
  have hown := op_owned ho o
  refine ⟨fun h => hrun.trans (congrArg Host.Outcome.next (ringSegmentEnd_ended ho h)), ?_,
    fun hoc h => hrun.trans (congrArg Host.Outcome.next (ringSegmentEnd_idle ho hoc h)), ?_⟩
  · intro oc lead hoc hsq hclk hlead
    refine ⟨fun hb hst hdue F hF => ⟨_, hrun, ringSegmentEnd_bad (s := at_ s t) ho hoc hsq hclk hlead hF hb hst hdue⟩,
      fun hgood => ⟨fun hwant hch => ⟨fun h => ?_, fun second hdue hsecond => ?_⟩, fun hno => ⟨fun h => ?_, fun hdue h => ?_, ?_⟩⟩⟩
    · exact hrun.trans (congrArg Host.Outcome.next (ringSegmentEnd_early (s := at_ s t) ho hoc hsq hclk hlead hgood hwant hch h))
    · refine ⟨fun h => ?_, fun k h hlater => ?_⟩
      · obtain ⟨hset, hprod, hframe⟩ := ringSegmentEnd_checkWaits (s := at_ s t) ho hoc hsq hclk hlead hgood hwant hch hdue (hsecond.symm.trans h)
        exact ⟨_, hrun, hset, hprod,
          (((at_within s t).mono rfl).then hframe : Within { now := true, insts := true, bays := true, free := true, bad := true } s _)⟩
      · obtain ⟨hset, hprod, howner, hframe⟩ :=
          ringSegmentEnd_checks (s := at_ s t) ho hoc hsq hclk hlead hgood hwant hch hdue (hsecond.symm.trans h) hlater
        exact ⟨_, hrun, hset, hprod, howner, (((at_within s t).mono rfl).then hframe :
          Within { now := true, insts := true, bays := true, cnt := true, free := true, bad := true } s _)⟩
    · refine ⟨_, hrun, ?_⟩
      rw [ringSegmentEnd_produces (s := at_ s t) ho hoc hsq hclk hlead hgood hno h]
      exact sendProduced_sends (at_ s t) i.toNat o hsq hown
    · refine hrun.trans (congrArg Host.Outcome.next ?_)
      rw [ringSegmentEnd_releases (s := at_ s t) ho hoc hsq hclk hlead hgood hno hdue, ringRelease_waits (.inr h)]
    · intro hdue hw hr hb hst
      rw [ringSegmentEnd_releases (s := at_ s t) ho hoc hsq hclk hlead hgood hno hdue] at hrun
      refine ⟨fun r w o' hwr hreg ho' hw' => ⟨fun hfree => ?_, fun hit hdeny => ?_⟩, fun h => ⟨fun htok => ?_, ?_⟩⟩
      · rw [ringRelease_output hdue hw hr hb hwr hreg hfree] at hrun
        exact ⟨_, hrun, hostOutput_sends hown ho' hw'⟩
      · rw [ringRelease_denied hdue hw hr hb hwr hreg hdeny] at hrun
        exact ⟨_, hrun, Ended.from_at (denyDma_ends (at_ s t) i.toNat o hst hr hb oc.out.length true)⟩
      · rw [ringRelease_finishes hdue hw hr hb h] at hrun
        exact ⟨_, hrun, finishRing_finishes (at_ s t) hst htok⟩
      · intro tok r w htok h0 hout hderiv hop hkind hins
        rw [ringRelease_finishes hdue hw hr hb h] at hrun
        obtain ⟨hslots, hvault, htokens, hsome, hnone⟩ :=
          finishRing_inserts (s := at_ s t) (i := i.toNat) hst h0 hop hkind hderiv htok hout hins
        exact ⟨_, hrun, hslots, hvault, htokens, fun ref hr => Ended.from_at (hsome ref hr), fun hr => Ended.from_at (hnone hr)⟩
  · intro j hoc hj hsq hf hclk
    refine ⟨fun hgo => ⟨fun hin hsus => ?_, fun es hin hsus hes => ⟨fun h => ?_, fun h => ?_⟩, fun hin => ?_⟩, fun hlate hsus hin hk hw => ?_⟩
    · exact ⟨_, hrun, ringSegmentEnd_fills (s := at_ s t) ho hoc hj hsq hf hclk hgo hin hsus⟩
    · exact ⟨_, hrun, (ringSegmentEnd_reseats (s := at_ s t) ho hoc hj hsq hf hclk hin hsus hes).1 h⟩
    · exact hrun.trans (congrArg Host.Outcome.next ((ringSegmentEnd_reseats (s := at_ s t) ho hoc hj hsq hf hclk hin hsus hes).2 h))
    · refine ⟨_, hrun, ?_⟩
      rw [ringSegmentEnd_goes (s := at_ s t) ho hoc hj hsq hf hclk hgo, if_neg (ne_true_of_eq_false hin)]
      exact sendProduced_sends (at_ s t) i.toNat o hsq hown
    · obtain ⟨hset, hframe⟩ := ringSegmentEnd_suspends (s := at_ s t) ho hoc hj hsq hf hclk hlate hsus hin hk hw
      exact ⟨_, hrun, hset,
        (((at_within s t).mono rfl).then hframe : Within { now := true, insts := true, bays := true, bad := true } s _)⟩

end Sys2Proof.Machine
end
